-- ==== Sys2Proof/Word.lean ====
section
/-!
DEFINITION. The word types of the block, the parties that send commands, the operand records that the commands of
`Sys2Proof.Instr` carry, and the sparse map that every indexed store of the state uses.
-/

namespace Sys2Proof

/-- One byte (00_scope: multi-byte values are little-endian unless a layout says otherwise). -/
abbrev Byte := BitVec 8

/-- A byte string, lowest address first. -/
abbrev Bytes := List Byte

/-- A store indexed by a number: entries in strictly ascending order of key, none equal to what an unlisted key
reads as. Every memory, register file and table of units of the state is one. -/
abbrev SMap (α : Type) := List (Nat × α)

/-- A requester of the dictionary (R351): one mailbox, one source address and UDP port on the rope, or firmware's own
writes of a configuration-store restore (R377), which act as the physical function. -/
inductive Requester where
  | mailbox (k : Nat)
  | rope (addr port : Nat)
  | restore
  deriving DecidableEq, Repr

/-- Where a register access comes from: function f's BAR0 page (0 the physical function, 1 to 8 the virtual
functions), the SMBus sideband (R369), or a dictionary entry that names the same bit. -/
inductive RegSource where
  | func (f : Nat)
  | smbus
  | entry (r : Requester)
  deriving DecidableEq, Repr

/-- The words of an operation block (Table 9.3) that every queue and sync operation carries: the issuer's endpoint
code (R233), the object, the completion queue, the tag, the timeout field, CPL_ALWAYS, and the instant at which the
operation reaches the slice. `slot` names the operation slot (function, slot) it was issued through, if one. -/
structure OpHead where
  issuer  : Nat
  object  : Nat
  rcq     : Nat
  tag     : Nat
  timeout : Nat
  always  : Bool
  slot    : Option (Nat × Nat)
  t       : Nat
  deriving DecidableEq, Repr

/-- A packet as its source sends it: the fields of its header flit (Table 11.2) but for the CRC, which the rest determines (R298), and the bytes of
its payload flits. -/
structure Packet where
  src       : Nat
  dst       : Nat
  kind      : Nat
  vc        : Nat
  haul      : Bool
  gen       : Nat
  ordered   : Bool
  npay      : Nat
  seq       : Nat
  partValid : Bool
  partition : Nat
  resv      : Nat
  args      : Nat
  payload   : Bytes
  deriving DecidableEq, Repr

/-- A bit error on a link (R296): the link end where it arrives (CMAP_SELECT × 256 + port, Table 11.8), the flit (0 is the header), the 32-bit word
of it, the bits of the word that are wrong, and whether its parity bit is. -/
structure FlitError where
  hop    : Nat
  flit   : Nat
  word   : Nat
  xor    : Nat
  parity : Bool
  deriving DecidableEq, Repr

/-- What a packet meets on its way: the flits queued for its VC at each uplink of the switch where it enters, the uplinks that have no credit there
(R303), and bit errors. -/
structure Trip where
  queued : List Nat
  dry    : List Nat
  errors : List FlitError
  deriving DecidableEq, Repr

/-- Whether the endpoint accepts a packet as it arrives, later, or completes now the acceptance of one that it holds (R297). -/
inductive Acceptance
  | atOnce
  | later
  | completes
  deriving DecidableEq, Repr

/-- A packet that has been sent, what happens to it on its way, and its acceptance at the endpoint. -/
structure Arrival where
  pkt  : Packet
  trip : Trip
  acc  : Acceptance
  deriving DecidableEq, Repr

/-- One sample of a switch output (R311): occupancies of VC1, VC2 and VC3 in flits, and whether a flit waits without a credit. -/
structure PortSample where
  vc1     : Nat
  vc2     : Nat
  vc3     : Nat
  starved : Bool
  deriving DecidableEq, Repr

/-- One remote record as EMIT hands it to an edge router (Table 5.7). -/
structure RemoteRec where
  event : BitVec 64
  peer  : Nat
  dcore : Nat
  deriving DecidableEq, Repr

/-- A fault report (Table 16.2). -/
structure FaultReport where
  code      : Nat
  severity  : Nat
  unitKind  : Nat
  unit      : Nat
  partition : Option Nat
  pitch     : Nat
  detail    : Nat
  deriving DecidableEq, Repr

/-- What one bring-up finds (R379 to R386): the units that fail the start-up test, the links and subchannels that do
not train, and what the boot ROM finds of the management core's SRAM. Core and slice slots are physical identifiers. -/
structure BringupFacts where
  failCores   : List Nat
  failSlices  : List Nat
  failCtrl    : List Nat
  failStore   : List Nat
  failLeaf    : List Nat
  failSubch   : List Nat
  failLinks   : List (Nat × Nat)
  mgmtSramOk  : Bool
  time        : Nat
  details     : List (Nat × Nat × Nat)
  deriving DecidableEq, Repr

/-- The memories that parity guards (Table 10.5). -/
inductive ParityMem where
  | neuronState | accumulator | bobbinRing | synapseCache | longDelayStore
  | sliceData | sliceControl | controllerSram | mgmtSram
  deriving DecidableEq, Repr

/-- What a read of an LPDDR6 word meets (R269). -/
inductive WordError where
  | clean | correctable | uncorrectable | poisoned
  deriving DecidableEq, Repr

/-- The target of a plain register write (R352): a dictionary entry of a requester, or a BAR0 offset of a function. -/
inductive RegTarget where
  | entry (r : Requester) (index sub : Nat)
  | bar0 (f offset : Nat)
  deriving DecidableEq, Repr

/-- The sources of a coolant loss (R422). -/
inductive CoolantSource where
  | gpio | report | timeout | rise
  deriving DecidableEq, Repr

/-- A limit of Table 15.9 that can end, with the highest reading, as binary32, of the last `us` microseconds: of module power in W, of the sensors of a
domain in °C. -/
inductive LimitKind where
  | powerLimit (power : BitVec 32) (us : Nat) | halfCurrent (h : Nat) | throttle (h : Nat) (temp : BitVec 32) (us : Nat)
  deriving DecidableEq, Repr

/-- What shows a coolant loss (R422): the level of the pin, a report, a missing report, or the rise of the hottest junction in °C/s over 200 ms
with the change of module power over it in percent, both as binary32. -/
inductive CoolantEvent where
  | gpio | report | timeout | rise (rate change : BitVec 32)
  deriving DecidableEq, Repr

/-- The instant of a COOLANT_LOSS_END, and the highest rise of the hottest junction in °C/s in the `ms` milliseconds before it. -/
structure CoolantCalm where
  t    : Nat
  rate : BitVec 32
  ms   : Nat
  deriving DecidableEq, Repr

/-- The readings of one run of the loop of R413 as binary32: the hottest sensor of the half, and that of the I/O die, in °C. -/
structure LoopTemps where
  half : BitVec 32
  io   : BitVec 32
  deriving DecidableEq, Repr

/-- What a frame on the rope carries (R334): 802.1AS, rope control, a cyclic output object, or anything else. -/
inductive FrameClass where
  | time | rope | object | other
  deriving DecidableEq, Repr

/-- An 802.1AS sync message (R341, R342): the TIME_PORT code of the port and the subport where it arrives, its domain, log sync interval, and whether the
peer-to-peer delay mechanism measured the link. -/
structure SyncInfo where
  port   : Nat
  sub    : Nat
  domain : Nat
  log    : Int
  p2p    : Bool
  deriving DecidableEq, Repr

/-- The path of Table 8.2 on which a sample arrives, and whether its packet carries an ECN mark (R330). -/
structure SamplePath where
  path : Nat
  ecn  : Bool
  deriving DecidableEq, Repr
/-- The edge router at which a remote message arrives, and whether its packet carries an ECN mark (R330). -/
structure MessagePath where
  edge : Nat
  ecn  : Bool
  deriving DecidableEq, Repr
/-- The load queue pair that an RDMA WRITE names, and whether its packet carries an ECN mark (R330). -/
structure LoadPath where
  qpn : Nat
  ecn : Bool
  deriving DecidableEq, Repr

/-- A CREATE: the partition, and the cores that fail the logic test of an island that it switches on (R418). -/
structure CreateOp where
  part  : Nat
  fails : List Nat
  deriving DecidableEq, Repr

/-- The connection-manager messages of R331 other than REQ. -/
inductive CmKind where
  | rep | rtu | dreq | drep
  deriving DecidableEq, Repr

/-- The ICMPv6 messages that a data port answers (Table 12.10). -/
inductive IcmpKind where
  | echoRequest | neighbourSolicitation
  deriving DecidableEq, Repr

/-- The type of a dictionary entry (Table 13.2). -/
inductive EntryType where
  | bool | u8 | u16 | u32 | u64 | i32 | f32 | enum | str | blob
  deriving DecidableEq, Repr

/-- The access code of a dictionary entry (Table 0.3). -/
inductive Access where
  | ro | rw | wo | rwc | lk
  deriving DecidableEq, Repr

/-- One row of the spec's tables of dictionary entries: subindices `subLo` to `subHi` of the `count` indices
`base + i × stride`. `lo`, `hi` and `step` are the range of a number, `alt` the further values its row lists; a STR or a
BLOB is held as the little-endian number of its bytes, and `dflt` is its default in that form (plus `dstep` for each
index above the base). -/
structure EntryRow where
  base   : Nat
  stride : Nat
  count  : Nat
  subLo  : Nat
  subHi  : Nat
  ty     : EntryType
  acc    : Access
  minLen : Nat
  maxLen : Nat
  lo     : Nat
  hi     : Nat
  step   : Nat
  alt    : List Nat
  dflt   : Nat
  dstep  : Nat
  name   : String
  unit   : String
  deriving DecidableEq, Repr

end Sys2Proof
end

