-- ==== Sys2Proof/Syntax.lean ====
section
/-!
DEFINITION. The commands of the block: one constructor per row of spec/opcode_table.json, in the table's order.
Each carries the operands that its rule names; `t` is the instant in ns (local time since the device reset) at which the
command comes about, for every command whose effect reads the clock.
-/

namespace Sys2Proof

/-- The optional features of PCI Express that Table 12.1 names, supported or not (R316). -/
inductive PcieFeature where
  | msix | aer | ecrc | ari | sriov | resizableBar | tags10 | flr | d3hot | l1
  | intx | msi | l0s | l1pm | ats | pri | pasid | atomicOps | tph | expansionRom
  deriving DecidableEq, Repr

/-- What the host has set in the configuration space of a PCIe function (R316, R323, R274): Bus Master Enable, the size of BAR2 (256 MiB times 2
to this power), the maximum payload (128 bytes times 2 to this power) and read request size (the same), ECRC and ASPM L1, the power state D3hot, the features
that it enables, and the AER error reports that it masks. The values of the
reset are those of the base specification that R316 names: assumption 91 [PRESUMED, unsafe]. -/
structure PcieConf where
  master : Bool := false
  bar    : Nat := 0
  mps    : Nat := 0
  mrrs   : Nat := 2
  ecrc   : Bool := false
  l1     : Bool := false
  d3     : Bool := false
  on     : List PcieFeature := []
  mask   : Nat := 0
  deriving DecidableEq, Repr

/-- A function level reset of function `func`, after which the host writes `conf` to its configuration space. -/
structure FuncReset where
  func : Nat
  conf : PcieConf
  deriving DecidableEq, Repr

/-- What the host sets once the link is up: NumVFs, and the configuration spaces of functions 0 on. -/
structure FuncSettings where
  vfs   : Nat
  confs : List PcieConf
  deriving DecidableEq, Repr

/-- A command or event of the block. -/
inductive Instr where
  /-- TSN_TICK (R32): The partition's 802.1AS time reaches ORIGIN_TIME + k × PERIOD, which is tick k for a partition bound to TSN_TIME. -/
  | tsnTick (n k t : Nat)
  /-- CADENCE_IN_EDGE (R35): A filtered edge on CADENCE_IN is accepted as a tick, or is rejected as too close to the last one and counted in CIN_REJECTED. -/
  | cadenceInEdge (rising : Bool) (t : Nat)
  /-- QUAD_TRANSITION (R36): A quadrature transition on PHASE_A or PHASE_B is decoded into a count, or counted as illegal in QUAD_ERRORS. -/
  | quadTransition (a b : Bool) (t : Nat)
  /-- PITCH_TRIGGER (R38): A write to PITCH_TRIGGER gives a tick to each partition whose bit is set and that is bound to HOST_TICK; other bits count in TRIGGER_IGNORED. -/
  | pitchTrigger (f w t : Nat)
  /-- PITCH_OPEN (R39): At the open instant, the pitch sequencer sends one OPEN picot on VC0 to each cluster of the partition. -/
  | pitchOpen (n t : Nat)
  /-- OPEN (R122): A core receives OPEN: it clears its accumulators, BOBBIN detaches the slot or slots due, and the long-delay store starts its releases. -/
  | openPicot (c t : Nat)
  /-- ENCODE_DONE (R214): Once every encoded haul of the pitch is acknowledged, the home slice sends ENCODE_DONE on VC1 to every cluster that holds a target of the stream. -/
  | encodeDone (k t : Nat)
  /-- ENCODE_DONE_RECEIVE (R214): A leaf that holds ENCODE_DONE from every enabled stream targeting its cluster forwards it to its cores, which may then complete their intake. -/
  | encodeDoneReceive (cl : Nat)
  /-- EVENT_ACCUMULATE (R96): INTAKE hands one event to FETCH, and ACCUMULATE and OUTLIER apply its checked row to the accumulators and outlier sums. -/
  | eventAccumulate (c t : Nat)
  /-- PREFETCH (R131): FETCH issues a prefetch for a row named by a record in the lookahead slots, or defers it when no space can be evicted. -/
  | prefetch (c : Nat)
  /-- PREFETCH_RETRY (R133): Cache space frees, and FETCH issues a prefetch that it had deferred. -/
  | prefetchRetry (c : Nat)
  /-- READ_DATA (R131): A READ_DATA haul completes a row or directory read, and the row is entered in the synapse cache or handed on. -/
  | readData (c row : Nat) (ok : Bool)
  /-- INTEGRATE_SWEEP (R72): Once ACCUMULATE and OUTLIER have taken every event of the slot, RESCALE and INTEGRATE sweep all 16,384 positions in ascending order. -/
  | integrateSweep (c t : Nat)
  /-- HAUL_OPEN_TIMEOUT (R120): An event haul has been open for 256 ns, and EMIT launches it. -/
  | haulOpenTimeout (c dst t : Nat)
  /-- JOURNAL_RECORD (R136): JOURNAL accepts a journal record from EMIT and writes it into the cluster's journal segment for the pitch. -/
  | journalRecord (cl : Nat)
  /-- JOURNAL_STALL_END (R137): Room frees in the JOURNAL buffer, and a core whose EMIT stalled resumes. -/
  | journalStallEnd (c t : Nat)
  /-- EVENT_HAUL_ARRIVAL (R121): A destination leaf accepts an event haul, sorts its records by DELAY to BOBBIN or to the long-delay store, and acknowledges the haul once each record is placed or counted. -/
  | eventHaulArrival (id t : Nat)
  /-- DRAIN (R40): A core meets its drain condition and sends its belay picot on VC0 to its leaf. -/
  | drain (c : Nat)
  /-- BELAY (R41): A leaf receives a core's belay picot, and sends its cluster belay once every core and its journal and release writes are done. -/
  | belay (c : Nat)
  /-- CLUSTER_BELAY (R41): The sequencer receives a cluster belay; with the last one it records the belay instant, sends CLOSE and does the work that follows a belay. -/
  | clusterBelay (n cl t : Nat)
  /-- CLOSE (R41): A core receives CLOSE, and pitch p is closed for it. -/
  | closePicot (c t : Nat)
  /-- WATCH_POINT (R51): At the watch point, the governor raises to the top of its window the supply of any half with a core that has not drained. -/
  | watchPoint (n t : Nat)
  /-- DEADLINE (R56): The deadline passes before the belay, and the pitch is counted and marked as overrun. -/
  | deadline (n t : Nat)
  /-- TRUNCATE_INSTANT (R57): The truncate instant is reached, and the sequencer sends a TRUNCATE picot to every cluster of the partition. -/
  | truncateInstant (n t : Nat)
  /-- TRUNCATE (R57): A core that has not drained receives TRUNCATE, discards its unaccumulated input, finishes its sweep and withholds later spikes. -/
  | truncate (c t : Nat)
  /-- BELAY_TIMEOUT (R43): A core has not sent its belay picot within 10 × PERIOD, or within the truncation bound, and the sequencer reports a belay timeout. -/
  | belayTimeout (n c t : Nat)
  /-- CADENCE_LOSS (R62): No tick has arrived for CADENCE_TIMEOUT × PERIOD, and the part declares cadence loss and applies CADENCE_LOSS_ACTION. -/
  | cadenceLoss (n t : Nat)
  /-- HOLDOVER_LIMIT (R33): TIME_STATE has been HOLDOVER for longer than HOLDOVER_LIMIT, and the part sets TIME_LOST and issues an emergency object. -/
  | holdoverLimit (t : Nat)
  /-- SYNC_MESSAGE (R342): An 802.1AS sync message arrives on TIME_PORT and the time counter is synchronised. -/
  | syncMessage (port : SyncInfo) (offset : Int) (t : Nat)
  /-- SYNC_TIMEOUT (R342): Three sync intervals pass without a sync message, and TIME_STATE becomes HOLDOVER. -/
  | syncTimeout (t : Nat)
  /-- CREATE (R163): PARTITION_COMMAND CREATE takes the clusters of CLUSTER_MASK for the partition. -/
  | create (r : Requester) (n : CreateOp) (t : Nat)
  /-- LOAD (R164): PARTITION_COMMAND LOAD checks the container at IMAGE_ADDR and starts moving its tiles into the target slot. -/
  | load (r : Requester) (n t : Nat)
  /-- TILE_LANDED (R487): A LOAD_TILE descriptor of LOAD completes, and the tile's checks run; after the last tile the cross-tile checks run and the slot becomes LOADED or FAILED. -/
  | tileLanded (n : Nat) (memErr : Bool) (t : Nat)
  /-- ENABLE (R165): PARTITION_COMMAND ENABLE puts the partition into ENABLED, or is refused while its cadence source is UNBOUND. -/
  | enable (r : Requester) (n t : Nat)
  /-- DISABLE (R170): PARTITION_COMMAND DISABLE stops the partition in the belay form. -/
  | disable (r : Requester) (n t : Nat)
  /-- DISABLE_NOW (R171): PARTITION_COMMAND DISABLE_NOW sends ABSORB and stops the partition in the immediate form. -/
  | disableNow (r : Requester) (n t : Nat)
  /-- ABSORB (R171): A core receives ABSORB, discards the work in flight and sends its belay picot. -/
  | absorb (c : Nat)
  /-- SWAP (R166): PARTITION_COMMAND SWAP makes the inactive LOADED slot ACTIVE, at once in READY or later otherwise. -/
  | swap (r : Requester) (n t : Nat)
  /-- SWAP_TAKE_EFFECT (R166): A pending swap takes effect at a belay, or once no APPLY of the partition is in progress any longer. -/
  | swapTakeEffect (n t : Nat)
  /-- SWAP_COPY_DONE (R168): The copy of a complete image into core SRAM completes, and the held OPEN may proceed. -/
  | swapCopyDone (n t : Nat)
  /-- UNLOAD (R169): PARTITION_COMMAND UNLOAD empties a slot and frees its unshared tiles. -/
  | unload (r : Requester) (n t : Nat)
  /-- DESTROY (R169): PARTITION_COMMAND DESTROY frees both slots and the clusters, and the partition becomes ABSENT. -/
  | destroy (r : Requester) (n t : Nat)
  /-- STATION_ENABLE (R174): A write of STATION_ENABLE enables or disables TRACE, APPLY, REMOTE_EMIT or REMOTE_INTAKE in the belay form. -/
  | stationEnable (r : Requester) (n v t : Nat)
  /-- STATION_DISABLE_NOW (R174): A write to STATION_DISABLE_NOW disables the named functions in the immediate form. -/
  | stationDisableNow (r : Requester) (n v t : Nat)
  /-- NEURON_ACCESS (R178): A request for a neuron state, record or outlier map through 0x3n04 is accepted and waits for the gap. -/
  | neuronAccess (r : Requester) (n sub : Nat) (data : Option Bytes) (t : Nat)
  /-- NEURON_ACCESS_PERFORM (R70): In the gap between CLOSE and OPEN, a waiting neuron access is checked and performed. -/
  | neuronAccessPerform (n t : Nat)
  /-- COUNTER_CLEAR (R179): COUNTER_CLEAR clears the selected core's counters, or every core's, at the next belay or at once. -/
  | counterClear (r : Requester) (n v t : Nat)
  /-- DESCRIPTOR_SUBMIT (R159): A tile engine takes a descriptor from its submission queue, checks it and starts the move. -/
  | descriptorSubmit (s t : Nat)
  /-- DESCRIPTOR_COMPLETE (R157): A tile descriptor completes and its completion record goes to its CQ. -/
  | descriptorComplete (s i : Nat) (memErr : Option Nat) (t : Nat)
  /-- APPLY_COMPLETE (R193): APPLY has written and had acknowledged every row and update word of a projection. -/
  | applyComplete (n p t : Nat)
  /-- KEEP_COMMIT (R197): KEEP_COMMAND COMMIT starts writing the partition's learned weights into the non-current keep-set bank. -/
  | keepCommit (r : Requester) (n t : Nat)
  /-- KEEP_ERASE (R200): KEEP_COMMAND ERASE removes the partition's section through a commit without it. -/
  | keepErase (r : Requester) (n t : Nat)
  /-- KEEP_COMMIT_DONE (R197): The keep-set bank header is written, and KEEP_STATE becomes VALID. -/
  | keepCommitDone (t : Nat)
  /-- SAMPLE (R207): A sample arrives on its stream's path and is accepted as pending, or is discarded and counted. -/
  | sample (src : SamplePath) (k : Nat) (data : Bytes) (t : Nat)
  /-- STREAM_SAMPLE (R206): A write to STREAM_SAMPLE delivers one sample on the DICT_WRITE path, or is refused when SOURCE is not DICT_WRITE. -/
  | streamSample (r : Requester) (k : Nat) (data : Bytes) (t : Nat)
  /-- STREAM_ENABLE (R227): A write of STREAM_ENABLE enables a stream at the next belay, or disables it in the belay form. -/
  | streamEnable (r : Requester) (k v t : Nat)
  /-- STREAM_DISABLE_NOW (R228): A write to STREAM_DISABLE_NOW disables a stream in the immediate form and absorbs its unlaunched events. -/
  | streamDisableNow (r : Requester) (k v t : Nat)
  /-- DECODE (R221): After a belay, DECODE combines the tapped spikes of the pitch and computes each output channel's value. -/
  | decode (g t : Nat)
  /-- READOUT_PUBLISH (R222): DECODE publishes a readout record for the pitch, in pitch order. -/
  | readoutPublish (g t : Nat)
  /-- GROUP_ENABLE (R229): A write of GROUP_ENABLE enables readout groups at the next belay, or disables them in the belay form. -/
  | groupEnable (r : Requester) (mask t : Nat)
  /-- GROUP_DISABLE_NOW (R229): A write to GROUP_DISABLE_NOW makes the groups' records inert at once and discards their contributions. -/
  | groupDisableNow (r : Requester) (mask t : Nat)
  /-- ESTOP_ASSERT (R224): ESTOP_N is held low for 1 µs; the island clears OUTPUT_ENABLE and makes every later record inert. -/
  | estopAssert (t : Nat)
  /-- ESTOP_RELEASE (R480): ESTOP_N has stayed high for 1 ms and is recognised as released. -/
  | estopRelease (t : Nat)
  /-- OUTPUT_ENABLE (R224): A write of OUTPUT_ENABLE sets or clears the output enable, and is ignored while ESTOP_N is asserted. -/
  | outputEnable (src : RegSource) (w t : Nat)
  /-- ESTOP_STATE (R370): A write to ESTOP_STATE clears SEEN. -/
  | estopState (src : RegSource) (w t : Nat)
  /-- QUEUE_CREATE (R240): Operation CREATE checks a queue record and opens the queue. -/
  | queueCreate (h : OpHead) (rec : Bytes)
  /-- QUEUE_DESTROY (R242): Operation DESTROY returns a queue's messages and sets it UNUSED. -/
  | queueDestroy (h : OpHead)
  /-- ATTACH (R242): Operation ATTACH gives an orphaned queue a new reader, returning its messages first with FLUSH. -/
  | attach (h : OpHead) (reader : Nat) (flush : Bool)
  /-- DETACH (R242): Operation DETACH ends the reader's binding and orphans the queue. -/
  | detach (h : OpHead)
  /-- SEND (R244): Operation SEND places a message in a ring, waits for room, or finishes FULL, ORPHAN or with an error. -/
  | send (h : OpHead) (msg : Bytes)
  /-- RECEIVE (R246): Operation RECEIVE copies the record at HEAD to the landing buffer, advances HEAD and places waiting sends that now fit. -/
  | receive (h : OpHead) (addr len : Nat)
  /-- RECEIVE_GROUP (R247): Operation RECEIVE_GROUP receives from the select-group member that the policy chooses. -/
  | receiveGroup (h : OpHead) (addr len : Nat)
  /-- GROUP_SET (R247): Operation GROUP_SET binds a select group to its reader and policy. -/
  | groupSet (h : OpHead) (reader policy : Nat)
  /-- ADD (R248): Operation ADD applies its contributions to a combining queue and may make the round ready. -/
  | addOp (h : OpHead) (done : Bool) (contribs : List (Nat × BitVec 32))
  /-- READ_CLEAR (R249): Operation READ_CLEAR copies a ready round's words, clears them and starts the next round. -/
  | readClear (h : OpHead) (addr len : Nat)
  /-- SYNC_CREATE (R250): Operation SYNC_CREATE makes a counter, semaphore or barrier. -/
  | syncCreate (h : OpHead) (kind init : Nat)
  /-- SYNC_DESTROY (R250): Operation SYNC_DESTROY finishes every waiter with ORPHAN and frees the sync object. -/
  | syncDestroy (h : OpHead)
  /-- CADD (R251): Operation CADD adds to a counter and releases satisfied CWAIT_GE operations. -/
  | cadd (h : OpHead) (delta : Nat)
  /-- CREAD (R251): Operation CREAD returns a counter's value. -/
  | cread (h : OpHead)
  /-- CSET (R251): Operation CSET sets a counter and releases satisfied waiters. -/
  | cset (h : OpHead) (v : Nat)
  /-- CWAIT_GE (R251): Operation CWAIT_GE finishes at once when the counter reaches its target, or waits. -/
  | cwaitGe (h : OpHead) (target : Nat)
  /-- POST (R251): Operation POST raises a semaphore's count and serves waiting TAKEs in order. -/
  | post (h : OpHead) (n : Nat)
  /-- TAKE (R251): Operation TAKE lowers a semaphore's count, or waits, or finishes FULL. -/
  | take (h : OpHead) (n : Nat)
  /-- ARRIVE (R251): Operation ARRIVE adds an arrival at a barrier and completes the phase at the last participant. -/
  | arrive (h : OpHead)
  /-- BREAK (R251): Operation BREAK breaks a barrier and finishes its waiters with BROKEN. -/
  | breakBarrier (h : OpHead)
  /-- BARRIER_RESET (R251): Operation BARRIER_RESET clears BROKEN and the arrivals, keeping the phase. -/
  | barrierReset (h : OpHead)
  /-- WAIT_TIMEOUT (R245): A waiting operation reaches its TIMEOUT and finishes with status TIMEOUT. -/
  | waitTimeout (s id t : Nat)
  /-- COMPLETION_HOLD_PLACE (R239): Room appears in a completion queue, and records held in the completion hold are placed in order. -/
  | completionHoldPlace (s t : Nat)
  /-- GRANT_WRITE (R234): A write of QUEUE_GRANTS, SYNC_GRANTS or PAGE_GRANTS changes blocks or pages whose objects are all unused, or is refused. -/
  | grantWrite (r : Requester) (kind : Nat) (data : Bytes) (t : Nat)
  /-- PARITY_ERROR (R260): A read finds a parity error, re-reads the word twice, and treats the error as persistent when all three reads fail. -/
  | parityError (mem : ParityMem) (unit addr : Nat) (cured : Bool) (t : Nat)
  /-- LPDDR6_READ_ERROR (R269): A read finds a correctable, uncorrectable or poisoned LPDDR6 word and corrects it or poisons it. -/
  | lpddr6ReadError (s off : Nat) (e : WordError) (t : Nat)
  /-- PATROL_SCRUB (R270): The patrol scrub reads the next data word of its subchannel and corrects it. -/
  | patrolScrub (s : Nat) (e : WordError) (written : Bool) (t : Nat)
  /-- RETRAIN (R272): Every 200 ms, or after a 4 °C temperature change, a slice retrains its subchannel, or takes it out of service after three failures. -/
  | retrain (s temp : Nat) (ok : Bool) (t : Nat)
  /-- BGTEST_REGION (R278): Each BGTEST_INTERVAL, a test engine tests one region through the shadow and holds the region when the march fails. -/
  | bgtestRegion (kind unit : Nat) (pass : Bool) (t : Nat)
  /-- RETENTION_LOST (R277): A retention supply falls below 0.36 V for more than 1 µs, and the domain's contents are marked lost. -/
  | retentionLost (h dom : Nat)
  /-- FRAME_ALL (R265): A write of FRAME_ALL rebuilds the frame sets and marks the system reserve, or is refused while a partition exists. -/
  | frameAll (r : Requester) (v t : Nat)
  /-- FRAME_OWNER (R273): A write of FRAME_OWNER changes frame owners whole, or is refused whole. -/
  | frameOwner (r : Requester) (data : Bytes) (t : Nat)
  /-- BAR2_ACCESS (R274): A host read or write through a BAR2 window reaches the LPDDR6 space through the rotator, or is discarded. -/
  | bar2Access (f off len : Nat) (data : Option Bytes) (t : Nat)
  /-- BAR2_WINDOW (R274): A write of BAR2_WINDOW_LO or BAR2_WINDOW_HI sets a function's window base and enable. -/
  | bar2Window (f : Nat) (hi : Bool) (w t : Nat)
  /-- CONFLICT_CLEAR (R257): A write of CONFLICT_CLEAR clears the conflict counters of the target or of every unit. -/
  | conflictClear (r : Requester) (v t : Nat)
  /-- PACKET_ARRIVAL (R297): An endpoint receives a packet, checks its CRC, flits and SEQ, and answers with ACK or NACK once it is accepted. -/
  | packetArrival (p : Arrival) (t : Nat)
  /-- NACK (R299): A source receives a NACK and re-sends the packet at once. -/
  | nack (src dst seq reason expected t : Nat)
  /-- ACK (R299): A source receives an ACK and releases its copy of the packet. -/
  | ack (src dst seq t : Nat)
  /-- ACK_TIMEOUT (R299): No ACK or NACK arrives within ACK_TIMEOUT; the source re-sends, or counts UNREACHABLE after RESEND_LIMIT. -/
  | ackTimeout (src dst seq t : Nat)
  /-- CREDIT_TIMEOUT (R295): A sender holds VC0 or VC1 flits without a credit for 100 µs, counts it and excludes the link. -/
  | creditTimeout (sw link t : Nat)
  /-- REBUILD (R308): ROUTE_COMMAND REBUILD writes new routing tables into the inactive generation and commits them. -/
  | rebuild (r : Requester) (t : Nat)
  /-- GEN_DRAIN (R308): When every source has switched, GEN_DRAIN goes to every leaf-stage switch. -/
  | genDrain (t : Nat)
  /-- GEN_DONE (R308): A leaf-stage switch that holds no old-generation flit answers GEN_DONE; with the last one, the old generation is retired. -/
  | genDone (i t : Nat)
  /-- GEN_SWITCH_TIMEOUT (R309): An ENABLED partition has had no belay within 10 × PERIOD after the commit, and its sources switch at once. -/
  | genSwitchTimeout (n t : Nat)
  /-- RESET_WEIGHTS (R312): ROUTE_COMMAND RESET_WEIGHTS sets every route weight to 8. -/
  | resetWeights (r : Requester) (t : Nat)
  /-- ROUTE_WEIGHTS (R305): A write of ROUTE_WEIGHTS sets uplink weights while ROUTE_ADAPT is 0, or is refused. -/
  | routeWeights (r : Requester) (data : Bytes) (t : Nat)
  /-- CMAP_INTERVAL (R311): At the end of each CMAP_INTERVAL, every switch sends its congestion record and the fabric manager adjusts the weights. -/
  | cmapInterval (sw : Nat) (ports : List (List PortSample)) (t : Nat)
  /-- FABRIC_CLOCK_CHANGE (R288): A half's fabric clock changes, and the columns recompute CR within 1 µs. -/
  | fabricClockChange (h mhz t : Nat)
  /-- REMOTE_HAUL (R138): An edge router buffers the remote records of a REMOTE haul and groups them into remote messages. -/
  | remoteHaul (e id t : Nat)
  /-- REMOTE_TRANSMIT (R138): A remote message is transmitted as a RoCEv2 SEND once it holds 255 records, or 5 µs after the belay of its pitch. -/
  | remoteTransmit (e n peer t : Nat)
  /-- REMOTE_SEND_FAILED (R142): A peer's port is down or RoCEv2 reports the SEND as failed; the records are discarded and the ledger is marked. -/
  | remoteSendFailed (n peer pitch nrec t : Nat)
  /-- REMOTE_MESSAGE (R139): A receiving edge router checks a remote message and buffers its valid records. -/
  | remoteMessage (e : MessagePath) (msg : Bytes) (t : Nat)
  /-- REMOTE_INJECT (R140): In the gap after a belay, the edge router injects buffered remote records with their delays recomputed, or handles them as late or early. -/
  | remoteInject (e n t : Nat)
  /-- FUNCTION_LEVEL_RESET (R318): A function level reset resets that function's endpoint, slots, window, bindings, heartbeat and mailboxes. -/
  | functionLevelReset (f : FuncReset) (t : Nat)
  /-- PERST_N (R318): Assertion of PERST_N, or loss of the PCIe link, resets every function and is a host loss where a heartbeat is armed. -/
  | perstN (pin : Bool) (t : Nat)
  /-- SLOT_GO (R322): A write to SLOT_GO issues the operation in the slot's BUFFER. -/
  | slotGo (f k w t : Nat)
  /-- SLOT_DONE (R322): A slot's operation finishes; the part writes VALUE and STATUS, sets DONE and raises INT_CAUSE bit 1. -/
  | slotDone (f k status value t : Nat)
  /-- QNOTIFY (R321): A write of QNOTIFY_k binds a queue for notification, or clears ENABLE when the queue does not qualify. -/
  | qnotify (f k w : Nat)
  /-- INT_CAUSE (R320): A write to INT_CAUSE or INT_MASK clears causes or changes masks, and may send the MSI-X message. -/
  | intCause (f : Nat) (mask : Bool) (w : Nat)
  /-- HOST_HEARTBEAT (R324): A write to HOST_HEARTBEAT arms and restarts, or disarms, the function's heartbeat and ends a host loss. -/
  | hostHeartbeat (f w t : Nat)
  /-- HEARTBEAT_TIMEOUT (R324): An armed heartbeat sees no write within HEARTBEAT_TIMEOUT, and a host loss occurs. -/
  | heartbeatTimeout (f t : Nat)
  /-- CONTINUE_EXPIRY (R450): Under CONTINUE, CONTINUE_PITCHES executed pitches pass and QUIESCE applies. -/
  | continueExpiry (n t : Nat)
  /-- PORT_ENABLE (R329): A write of PORT_ENABLE trains a data port, falling back to narrower widths, or takes it down. -/
  | portEnable (r : Requester) (p v t : Nat)
  /-- PORT_RETRAIN (R330): A lane loses signal or uncorrectable FEC codewords exceed 16 in one second, and the port retrains online. -/
  | portRetrain (p fec t : Nat)
  /-- CM_REQ (R331): A communication manager REQ arrives and is accepted for a fixed queue pair, or refused. -/
  | cmReq (p service peerId qpn t : Nat)
  /-- RDMA_WRITE (R332): An RDMA WRITE to a load queue pair is accepted into staging frames, or refused with a remote access error. -/
  | rdmaWrite (p : Nat) (qpn : LoadPath) (rkey addr : Nat) (data : Bytes) (t : Nat)
  /-- FIELD_FRAME (R334): The rope bridge receives a frame on F0 or F1 and consumes it, forwards it, or both, or drops it when full. -/
  | fieldFrame (p dst : Nat) (cls : FrameClass) (len : Nat) (body : Bytes) (t : Nat)
  /-- FIELD_LINK_DOWN (R336): A field port loses signal; the part reports the link down and sends BREAK out of its other port. -/
  | fieldLinkDown (p t : Nat)
  /-- CHECK (R337): A rope CHECK message is received, and under ADDR_MODE POSITION the first one sets the node address. -/
  | ropeCheck (primary : Bool) (hops t : Nat)
  /-- CHECK_TIMEOUT (R336): No CHECK arrives for three ROPE_CHECK_INTERVAL, and ROPE_STATE becomes UNMANAGED. -/
  | checkTimeout (t : Nat)
  /-- STATE (R339): A rope STATE message updates ROPE_STATE, and a newly set LOST bit makes the node's peers unreachable. -/
  | ropeState (rope present lost t : Nat)
  /-- ANNOUNCE_TIMER (R338): Every 100 ms, the part sends ANNOUNCE with its node address. -/
  | announceTimer (t : Nat)
  /-- ANNOUNCE (R338): An ANNOUNCE carrying the part's own node address from another MAC puts the part in address conflict. -/
  | announce (node mac t : Nat)
  /-- OBJECT_TRANSMIT (R344): A cyclic output object is transmitted once its last group has published the record of the pitch. -/
  | objectTransmit (j t : Nat)
  /-- OBJECT_IDLE_TRANSMIT (R344): While OBJ_PARTITION is not ENABLED, a configured object is transmitted with inert content every OBJ_IDLE_PERIOD. -/
  | objectIdleTransmit (j t : Nat)
  /-- OBJ_ENABLE (R343): A write of OBJ_ENABLE enables an output object after its checks, or is refused. -/
  | objEnable (r : Requester) (j v t : Nat)
  /-- READ (R354): A dictionary READ returns one entry, or one segment of it from a snapshot. -/
  | readEntry (r : Requester) (tag index sub off maxlen snap t : Nat)
  /-- WRITE (R355): A dictionary WRITE writes one entry, or assembles one segment of it. -/
  | writeEntry (r : Requester) (tag index sub off total : Nat) (data : Bytes) (t : Nat)
  /-- READ_INDEX (R353): A dictionary READ_INDEX returns the readable subindices of one index from one snapshot. -/
  | readIndex (r : Requester) (tag index first t : Nat)
  /-- DESCRIBE (R359): A dictionary DESCRIBE returns an entry's type, access, range, name and unit. -/
  | describe (r : Requester) (tag index sub t : Nat)
  /-- ECHO (R359): A dictionary ECHO returns its body unchanged. -/
  | echo (r : Requester) (tag : Nat) (body : Bytes) (t : Nat)
  /-- DICT_DATAGRAM (R361): A UDP datagram reaches DICT_UDP_PORT and is checked, answered from the duplicate cache, or performed. -/
  | dictDatagram (addr port dst udp : Nat) (msg : Bytes) (t : Nat)
  /-- SNAPSHOT_EXPIRY (R354): A requester's segment-read snapshot expires after 100 ms. -/
  | snapshotExpiry (r : Requester) (t : Nat)
  /-- ASSEMBLY_TIMEOUT (R355): An assembly buffer with no new segment for 100 ms is discarded. -/
  | assemblyTimeout (r : Requester) (t : Nat)
  /-- SUBMIT (R363): A write of 1 to MBX_DOORBELL SUBMIT copies REQUEST and performs the request. -/
  | submit (k w t : Nat)
  /-- MAILBOX_RESPONSE (R363): A mailbox request is performed; the part writes RESPONSE, clears BUSY and sets RSP_READY. -/
  | mailboxResponse (k t : Nat)
  /-- NOTICE_REMOVE (R362): A write of 1 to NOTICE_READY removes the oldest queued notice. -/
  | noticeRemove (k w : Nat)
  /-- MBX_CONTROL (R367): A masked write of MBX_CONTROL sets NOTICE_ENABLE or RSP_INT, and clearing NOTICE_ENABLE empties the queue. -/
  | mbxControl (k w : Nat)
  /-- LOCK_SET (R366): A write of LOCK_SET locks the named lock groups until a device reset. -/
  | lockSet (r : Requester) (v t : Nat)
  /-- STORE (R376): STORE_COMMAND STORE snapshots every storable entry and writes the non-current store copy. -/
  | store (r : Requester) (t : Nat)
  /-- STORE_ERASE (R376): STORE_COMMAND ERASE writes a valid store copy with no records. -/
  | storeErase (r : Requester) (t : Nat)
  /-- STORE_WRITE_DONE (R376): The store copy's header is written, and STORE_STATE becomes VALID, or FAILED after an MRAM error. -/
  | storeWriteDone (ok : Bool) (t : Nat)
  /-- REGISTER_WRITE (R352): A write to a dictionary entry or register that has no behaviour of its own is checked and takes effect under its entry's rule. -/
  | registerWrite (tgt : RegTarget) (data : Bytes) (t : Nat)
  /-- CORE_RESET (R393): RESET_COMMAND with scope CORE resets one core's station state, cache and counters. -/
  | coreReset (r : Requester) (c : Nat) (pass : Bool) (t : Nat)
  /-- CLUSTER_RESET (R393): RESET_COMMAND with scope CLUSTER resets a cluster's cores, leaf, store and controller. -/
  | clusterReset (r : Requester) (cl : Nat) (fails : List Nat) (t : Nat)
  /-- PARTITION_RESET (R395): RESET_COMMAND with scope PARTITION absorbs the partition's work, resets its endpoints and clusters, and reloads its state. -/
  | partitionReset (r : Requester) (n : Nat) (fails : List Nat) (t : Nat)
  /-- DEVICE_RESET (R396): A device reset from RESET_COMMAND, a trip or firmware runs bring-up from step 2. -/
  | deviceReset (cause : Nat) (facts : BringupFacts) (t : Nat)
  /-- PORST_N_ASSERT (R480): PORST_N is asserted for 10 µs or more, and the part stops and holds reset. -/
  | porstNAssert (ns t : Nat)
  /-- BRINGUP (R379): At the release of PORST_N, bring-up runs the steps of Table 14.1 and ends OPERATIONAL with READY, or FAILED. -/
  | bringup (facts : BringupFacts) (t : Nat)
  /-- LICENCE_INSTALL (R392): A completed LICENCE_INSTALL write verifies the licence and writes it into the lowest free slot. -/
  | licenceInstall (r : Requester) (data : Bytes) (t : Nat)
  /-- LICENCE_REMOVE (R392): A write of LICENCE_REMOVE erases the licence with that LICENCE_ID. -/
  | licenceRemove (r : Requester) (id t : Nat)
  /-- POWER_REQUEST (R407): A write to POWER_REQUEST or POWER_TARGET starts an entry to a lower-power state or a wake. -/
  | powerRequest (src : RegSource) (w : Nat) (fail : Option Nat) (t : Nat)
  /-- WAKE (R411): A wake powers the domains in the order of Table 15.6 until DEVICE_STATE is OPERATIONAL. -/
  | wake (facts : BringupFacts) (t : Nat)
  /-- WAKE_GPIO (R407): An edge on the WAKE_GPIO pin is a wake to ACTIVE. -/
  | wakeGpio (pin : Nat) (rising : Bool) (t : Nat)
  /-- PROFILE_REQUEST (R402): A write of PROFILE_REQUEST starts a profile change of a half, which waits for a common gap. -/
  | profileRequest (r : Requester) (h v t : Nat)
  /-- PROFILE_WAIT_TIMEOUT (R402): No common gap occurs within PROFILE_WAIT, and firmware holds each partition of the half at its next belay. -/
  | profileWaitTimeout (h t : Nat)
  /-- PROFILE_CHANGE (R402): At a common gap, the half switches its voltage window and goes to the new nominal voltage. -/
  | profileChange (h t : Nat)
  /-- FABRIC_CLOCK_REQ (R404): A write of FABRIC_CLOCK_REQ requests a half's fabric clock, applied within 100 µs. -/
  | fabricClockReq (r : Requester) (h v t : Nat)
  /-- THERMAL_LOOP (R413): Every 1 ms, firmware adjusts each half's ceiling and fabric clock from temperature and power. -/
  | thermalLoop (h : Nat) (tj : LoopTemps) (power : BitVec 32) (t : Nat) (hotter : Bool)
  /-- POWER_LIMIT (R414): Module power exceeds the power limit, and the governor lowers both halves' supplies, and later the clocks. -/
  | powerLimit (held : Nat) (t : Nat)
  /-- HALF_CURRENT (R414): A half's current exceeds 250 A for 5 µs, and its supply goes to the profile floor for 1 ms. -/
  | halfCurrent (h t : Nat)
  /-- JUNCTION_THROTTLE (R414): A sensor reaches THROTTLE_TEMP, and the half's supply and fabric clock go to their floors. -/
  | junctionThrottle (dom : Nat) (temp : BitVec 32) (t : Nat)
  /-- LIMIT_RELEASE (R414): A power limit, half-current limit or throttle meets its release condition and ends. -/
  | limitRelease (k : LimitKind) (t : Nat)
  /-- THERMAL_TRIP (R415): Two consecutive samples read 110 °C; the part asserts THERMTRIP_N, stops its clocks and writes a trip record. -/
  | thermalTrip (sensor : Nat) (temp : BitVec 32) (t : Nat)
  /-- COOLANT_LOSS (R423): A coolant-loss source fires, and the part acts under COOLANT_LOSS_ACTION. -/
  | coolantLoss (src : CoolantEvent) (t : Nat)
  /-- COOLANT_LOSS_END (R422): Every coolant source has shown no loss for 10 s, and coolant loss ends. -/
  | coolantLossEnd (t : CoolantCalm)
  /-- COOLANT_REPORT (R422): A write of COOLANT_REPORT gives flow and inlet temperature. -/
  | coolantReport (r : Requester) (flow inlet t : Nat)
  /-- COOLANT_REPORT_TIMEOUT (R422): No coolant report arrives within COOLANT_REPORT_TIMEOUT. -/
  | coolantReportTimeout (t : Nat)
  /-- PACK_MASK (R420): A read of PACK_MASK computes a packed cluster mask suited to CREATE. -/
  | packMask (r : Requester) (tag t : Nat)
  /-- FAULT (R426): A FAULT picot or firmware report receives a FAULT_SEQ, is logged and acted on, and may issue an emergency object. -/
  | fault (rep : FaultReport) (t : Nat)
  /-- FAULT_ACK (R428): A write of FAULT_ACK acknowledges reports up to the SEQ written and may release FAULT_N. -/
  | faultAck (r : Requester) (v t : Nat)
  /-- TAKEOVER (R438): In the gap after the failing pitch, a spare takes the failed core's place from its latest cairn. -/
  | takeover (c t : Nat)
  /-- REPLAY_PITCH (R440): The spare replays one closed pitch from the replay input. -/
  | replayPitch (c t : Nat)
  /-- COLD_TAKEOVER (R442): A cold takeover loads the spare without replay and joins live at the next pitch. -/
  | coldTakeover (c t : Nat)
  /-- CAIRN_COMPLETE (R431): All 131,072 bytes of a cairn are acknowledged, and it replaces the older cairn. -/
  | cairnComplete (c : Nat)
  /-- SLICE_TAKEOVER (R443): A spare slice takes over a failed slice from its mirror within 2 ms. -/
  | sliceTakeover (s t : Nat)
  /-- STORE_REBUILD (R444): After a long-delay store error, the store is cleared and rebuilt from the journal. -/
  | storeRebuild (cl t : Nat)
  /-- CONTROLLER_RESTART (R446): A cluster controller error or watchdog expiry restarts the controller from firmware. -/
  | controllerRestart (cl detail t : Nat)
  /-- MGMT_RESTART (R447): A management core error or watchdog expiry restarts the management core within 60 ms. -/
  | mgmtRestart (detail t : Nat)
  /-- SWAP_OUT (R448): TEST_COMMAND SWAP_OUT moves a logical core to the spare at a belay and isolates the old slot for testing. -/
  | swapOut (r : Requester) (c t : Nat)
  /-- SWAP_OUT_TEST_DONE (R448): The isolated slot's test ends, and TEST_RESULT reports PASS or FAIL. -/
  | swapOutTestDone (c : Nat) (pass : Bool) (t : Nat)
  /-- STAGE (R465): FW_COMMAND STAGE copies a firmware image from LPDDR6 into slot B. -/
  | stage (r : Requester) (t : Nat)
  /-- FW_CHUNK (R465): A write of FW_CHUNK appends a chunk to slot B. -/
  | fwChunk (r : Requester) (data : Bytes) (t : Nat)
  /-- STAGING_VERIFY (R465): Slot B is complete, is verified, and FW_STATE becomes STAGED or FAILED. -/
  | stagingVerify (t : Nat)
  /-- ACTIVATE (R466): FW_COMMAND ACTIVATE sets PENDING until the activation conditions clear. -/
  | activate (r : Requester) (t : Nat)
  /-- ACTIVATION (R466): Every activation condition is clear; firmware writes a TRIAL boot record and performs a device reset. -/
  | activation (facts : BringupFacts) (t : Nat)
  /-- CANCEL (R466): FW_COMMAND CANCEL returns a pending activation to STAGED. -/
  | cancel (r : Requester) (t : Nat)
  /-- CONFIRM (R467): FW_COMMAND CONFIRM, or READY with AUTO_CONFIRM, copies B into A and writes MODE NORMAL. -/
  | confirm (r : Requester) (t : Nat)
  /-- REJECT (R467): FW_COMMAND REJECT ends an unconfirmed trial without copying. -/
  | reject (r : Requester) (t : Nat)
  /-- COMMIT_SVN (R468): FW_COMMAND COMMIT_SVN raises SVN_FUSED to the running image's SVN. -/
  | commitSvn (r : Requester) (t : Nat)
  /-- QUOTE (R461): ATTEST_COMMAND QUOTE takes a snapshot and starts signing an attestation quote. -/
  | quote (r : Requester) (t : Nat)
  /-- QUOTE_SIGNED (R461): Signing finishes, and ATTEST_STATE becomes READY. -/
  | quoteSigned (t : Nat)
  /-- DEBUG_TOKEN (R464): A completed DEBUG_TOKEN write is verified and arms debug for the next boot, or is refused. -/
  | debugToken (r : Requester) (data : Bytes) (t : Nat)
  /-- JTAG_MODE (R463): A write of JTAG_MODE sets CLOSED or BOUNDARY, or refuses OPEN. -/
  | jtagMode (r : Requester) (v t : Nat)
  /-- SUPPLY_OUT_OF_TOLERANCE (R474): A supply stays outside its tolerance for 20 µs, and EMERGENCY_FLAGS bit 5 is set. -/
  | supplyOutOfTolerance (supply t : Nat)
  /-- VIN_C_LOW (R474): VIN_C stays below 1.62 V for 10 µs, and both compute supplies go to their profile floors. -/
  | vinCLow (t : Nat)
  /-- VIN_C_BROWNOUT (R474): VIN_C stays below 1.50 V for 5 µs, and the part performs a device reset. -/
  | vinCBrownout (facts : BringupFacts) (t : Nat)
  /-- VDD_AON_BROWNOUT (R474): VDD_AON stays below 0.70 V for 2 µs, and the part acts as on assertion of PORST_N. -/
  | vddAonBrownout (t : Nat)
  /-- SMBUS_BLOCK_READ (R482): An SMBus Block Read of a command code of Table 13.12 returns the register with PEC. -/
  | smbusBlockRead (addr code t : Nat)
  /-- SMBUS_BLOCK_WRITE (R482): An SMBus Block Write of POWER_REQUEST is checked and served. -/
  | smbusBlockWrite (addr code count : Nat) (data : Bytes) (pec : Option Byte) (t : Nat)
  /-- SMBUS_TIMEOUT (R482): SCL has been held low for 25 ms to 35 ms, and the part releases the bus. -/
  | smbusTimeout (t : Nat)
  /-- ALERT_RESPONSE (R483): The part answers the Alert Response Address with its address and releases SMB_ALERT_N. -/
  | alertResponse (t : Nat)
  /-- FIELD_LINK_UP (R336): A field port F0 or F1 gains its 100BASE-T1 link; the bridge forwards from that moment and the rope state changes. -/
  | fieldLinkUp (p t : Nat)
  /-- PERST_N_RELEASE (R381): PERST_N is released; the PCIe endpoint enters Detect, and in STANDBY or PARKED the release is a wake to ACTIVE. -/
  | perstNRelease (t : Nat)
  /-- PCIE_LINK_UP (R326): The PCIe link finishes training, PCIE_STATE becomes UP, and DOWNGRADED is set when it trained narrower or slower. -/
  | pcieLinkUp (width speed : Nat) (vfs : FuncSettings)
  /-- DATA_PORT_LINK_UP (R329): A data port or subport completes training or online retraining, records PORT_WIDTH and PORT_LANES, and carries traffic again. -/
  | dataPortLinkUp (p sub lanes : Nat)
  /-- SUPPLY_IN_TOLERANCE (R474): A supply that left its tolerance has been back within it for the stated time; bit 5 clears after 10 ms and the compute supplies leave their floors 1 ms after VIN_C recovers. -/
  | supplyInTolerance (supply t : Nat)
  /-- MGMT_RESTART_DONE (R447): The management core finishes its restart; dictionary answers, the firmware loops, the governor's adaptation and ledger writing resume, and the withheld fault records are written. -/
  | mgmtRestartDone (t : Nat)
  /-- CONTROLLER_RESTART_DONE (R446): A cluster controller finishes its restart; the late cairns become due at the next belay and a waiting takeover in the cluster proceeds. -/
  | controllerRestartDone (cl t : Nat)
  /-- ICMPV6_MESSAGE (R327): An ICMPv6 echo request or neighbour discovery message arrives on a data port and is answered. -/
  | icmpv6Message (p : Nat) (kind : IcmpKind) (data : Bytes)
  /-- ROCE_ACK (R451): A RoCEv2 acknowledgement confirms an outbound SEND to a peer and ends that peer's unreachable condition. -/
  | roceAck (n peer t : Nat)
  /-- CM_MESSAGE (R331): A communication manager REP, RTU, DREQ or DREP arrives on QP1 and establishes or tears down a peer connection. -/
  | cmMessage (p : Nat) (kind : CmKind) (qpn : Nat)
  /-- CONGESTION_NOTIFICATION (R330): A RoCEv2 congestion notification packet arrives and the part lowers its send rate. -/
  | congestionNotification (p qpn : Nat)
  /-- REQUESTER_CACHE_EXPIRY (R361): The 10 s for which a rope requester's last TAG and response are kept runs out, so a repeated TAG is performed again. -/
  | requesterCacheExpiry (addr port t : Nat)
  deriving DecidableEq, Repr

end Sys2Proof
end

