-- ==== Sys2Proof/Decode.lean ====
section
/-!
DEFINITION. The command that a word spells by the bits of the opcode table. The table gives no row any bits: the block takes
its commands as events, not as encoded words.
-/

namespace Sys2Proof

/-- The command that an instruction of `nbits` bits with word `w` spells: none, since no row of the table has bits. -/
def decodeTableWord (_nbits _w : Nat) : Option Instr := none

end Sys2Proof
end

