-- ==== Sys2Proof/Machine/Map.lean ====
section
/-!
DEFINITION. The one read and the one write of every sparse store of the state, the canonical form they keep, and the
little-endian reading of byte strings.
-/

namespace Sys2Proof.Machine

/-- What key `k` holds: its listed value, else what an unlisted key reads as. -/
def mget {α : Type} (d : Nat → α) (m : SMap α) (k : Nat) : α :=
  match m.find? (fun e => e.1 == k) with
  | some e => e.2
  | none => d k

/-- `m` with the entry (k, v) put in its place by key. -/
def minsert {α : Type} (k : Nat) (v : α) : SMap α → SMap α
  | [] => [(k, v)]
  | e :: r => if k < e.1 then (k, v) :: e :: r else e :: minsert k v r

/-- Key `k` set to `v`; a value equal to what an unlisted key reads as is not listed. -/
def mset {α : Type} [DecidableEq α] (d : Nat → α) (m : SMap α) (k : Nat) (v : α) : SMap α :=
  let r := m.filter (fun e => e.1 != k)
  if v = d k then r else minsert k v r

/-- Key `k` changed by `f`. -/
def mmod {α : Type} [DecidableEq α] (d : Nat → α) (m : SMap α) (k : Nat) (f : α → α) : SMap α :=
  mset d m k (f (mget d m k))

/-- The canonical form: keys strictly rising, and no entry equal to what its key reads as when unlisted. -/
def mwf {α : Type} [DecidableEq α] (d : Nat → α) : SMap α → Bool
  | [] => true
  | [e] => e.2 != d e.1
  | e :: f :: r => e.2 != d e.1 && decide (e.1 < f.1) && mwf d (f :: r)

/-- `n` bytes from address `a`, lowest address first. -/
def readRange (d : Nat → Byte) (m : List Host.Cell) (a n : Nat) : Bytes :=
  (List.range n).map (fun i => mget d m (a + i))

/-- The bytes `bs` stored from address `a`. -/
def writeRange (d : Nat → Byte) (m : List Host.Cell) (a : Nat) : Bytes → List Host.Cell
  | [] => m
  | b :: r => writeRange d (mset d m a b) (a + 1) r

/-- The number that a byte string spells, least significant byte first. -/
def leNat : Bytes → Nat
  | [] => 0
  | b :: r => b.toNat + 256 * leNat r

/-- The `n` low bytes of a number, least significant first. -/
def natLe : Nat → Nat → Bytes
  | 0, _ => []
  | n + 1, v => BitVec.ofNat 8 v :: natLe n (v / 256)

/-- `n` bytes from offset `o` of a byte string; missing bytes read 0. -/
def slice (bs : Bytes) (o n : Nat) : Bytes :=
  let r := (bs.drop o).take n
  r ++ List.replicate (n - r.length) 0

/-- The little-endian field of `n` bytes at offset `o`. -/
def fieldAt (bs : Bytes) (o n : Nat) : Nat := leNat (slice bs o n)

/-- Bits [hi:lo] of a number. -/
def bits (v hi lo : Nat) : Nat := (v / 2 ^ lo) % 2 ^ (hi + 1 - lo)

/-- Bit `i` of a number. -/
def bit (v i : Nat) : Bool := v.testBit i

/-- A number with bit `i` set or cleared. -/
def setBit (v i : Nat) (b : Bool) : Nat :=
  if v.testBit i = b then v else if b then v + 2 ^ i else v - 2 ^ i

/-- The bits of `mask` below `n`, ascending. -/
def maskList (n mask : Nat) : List Nat := (List.range n).filter (fun i => mask.testBit i)

/-- A saturating count of `w` bits. -/
def satAdd (w a b : Nat) : Nat := min (a + b) (2 ^ w - 1)

/-- A number of `w` bits that wraps. -/
def wrapAdd (w a b : Nat) : Nat := (a + b) % 2 ^ w

/-- A two's-complement value of `w` bits as a number. -/
def ofInt (w : Nat) (i : Int) : Nat := (i % (2 ^ w : Int)).toNat

/-- A number of `w` bits read as two's complement. -/
def toInt (w v : Nat) : Int := if 2 * v < 2 ^ w then (v : Int) else (v : Int) - (2 ^ w : Int)

/-- The least element of a list. -/
def listMin : List Nat → Option Nat
  | [] => none
  | a :: r => match listMin r with
    | none => some a
    | some b => some (min a b)

/-- An element put into a list before the first one with a greater rank. -/
def insertBy {α : Type} (rank : α → Nat) (x : α) : List α → List α
  | [] => [x]
  | y :: r => if rank x < rank y then x :: y :: r else y :: insertBy rank x r

/-- A list in ascending rank; elements of one rank keep their order. -/
def sortBy {α : Type} (rank : α → Nat) (l : List α) : List α := l.foldl (fun r x => insertBy rank x r) []

/-- The entries of a store outside a range of keys: the range reads as unlisted. -/
def mclear {α : Type} (m : SMap α) (lo n : Nat) : SMap α := m.filter (fun e => !(decide (lo ≤ e.1) && decide (e.1 < lo + n)))

/-- The entries of a store within a range of keys. -/
def mrange {α : Type} (m : SMap α) (lo n : Nat) : SMap α := m.filter (fun e => decide (lo ≤ e.1) && decide (e.1 < lo + n))

/-- A number whose bit `i` says whether `p` holds of `i`, for `i` below `n`. -/
def bitsOf (n : Nat) (p : Nat → Bool) : Nat := (List.range n).foldl (fun a i => if p i then a + 2 ^ i else a) 0

end Sys2Proof.Machine
end

