-- ==== Sys2Proof/Machine/Hash.lean ====
section
/-!
DEFINITION. CRC-32C (the Castagnoli polynomial, reflected, initial value and final complement all ones) and SHAKE256
(FIPS 202) with 256 bits of output, as the spec's integrity checks name them without giving them (assumption 9 [PRESUMED, unsafe]).
-/

namespace Sys2Proof.Machine

/-- One byte taken into the reflected CRC-32C register. -/
def crcByte (r : Nat) (b : Byte) : Nat :=
  (List.range 8).foldl (fun v _ => if v % 2 = 1 then (v / 2) ^^^ 0x82F63B78 else v / 2) (r ^^^ b.toNat)

/-- CRC-32C of a byte string. -/
def crc32c (bs : Bytes) : Nat := (bs.foldl crcByte 0xFFFFFFFF) ^^^ 0xFFFFFFFF

/-- The rotation offsets of Keccak, lane x + 5 y. -/
def keccakRot : List Nat :=
  [0, 1, 62, 28, 27, 36, 44, 6, 55, 20, 3, 10, 43, 25, 39, 41, 45, 15, 21, 8, 18, 2, 61, 56, 14]

/-- The round constants of Keccak-f[1600]. -/
def keccakRc : List (BitVec 64) :=
  [0x0000000000000001, 0x0000000000008082, 0x800000000000808A, 0x8000000080008000, 0x000000000000808B,
   0x0000000080000001, 0x8000000080008081, 0x8000000000008009, 0x000000000000008A, 0x0000000000000088,
   0x0000000080008009, 0x000000008000000A] ++
  [0x000000008000808B, 0x800000000000008B, 0x8000000000008089, 0x8000000000008003, 0x8000000000008002,
   0x8000000000000080, 0x000000000000800A, 0x800000008000000A, 0x8000000080008081, 0x8000000000008080,
   0x0000000080000001, 0x8000000080008008]

/-- Lane `i` of a Keccak state. -/
def lane (a : List (BitVec 64)) (i : Nat) : BitVec 64 := a.getD i 0

/-- One round of Keccak-f[1600]: θ, ρ and π, χ, ι. -/
def keccakRound (a : List (BitVec 64)) (rc : BitVec 64) : List (BitVec 64) :=
  let c := (List.range 5).map (fun x => lane a x ^^^ lane a (x + 5) ^^^ lane a (x + 10) ^^^ lane a (x + 15) ^^^ lane a (x + 20))
  let d := (List.range 5).map (fun x => lane c ((x + 4) % 5) ^^^ (lane c ((x + 1) % 5)).rotateLeft 1)
  let t := (List.range 25).map (fun i => lane a i ^^^ lane d (i % 5))
  let b := (List.range 25).map (fun i =>
    let x := i % 5
    let y := i / 5
    let j := (x + 3 * y) % 5 + 5 * x
    (lane t j).rotateLeft (keccakRot.getD j 0))
  let e := (List.range 25).map (fun i =>
    let y := 5 * (i / 5)
    lane b i ^^^ (~~~ (lane b (y + (i + 1 - y) % 5)) &&& lane b (y + (i + 2 - y) % 5)))
  e.set 0 (lane e 0 ^^^ rc)

/-- Keccak-f[1600]. -/
def keccakF (a : List (BitVec 64)) : List (BitVec 64) := keccakRc.foldl keccakRound a

/-- One block of 136 bytes absorbed. -/
def keccakAbsorb (a : List (BitVec 64)) (blk : Bytes) : List (BitVec 64) :=
  keccakF ((List.range 25).map (fun i =>
    if i < 17 then lane a i ^^^ BitVec.ofNat 64 (fieldAt blk (8 * i) 8) else lane a i))

/-- The message in blocks of 136 bytes. -/
def keccakBlocks (n : Nat) (bs : Bytes) : List Bytes :=
  (List.range n).map (fun i => slice bs (136 * i) 136)

/-- The padding of SHAKE: the bits 1111, then a 1, zeros and a last 1. -/
def shakePad (bs : Bytes) : Bytes :=
  let q := 136 - bs.length % 136
  if q = 1 then bs ++ [0x9F#8] else bs ++ [0x1F#8] ++ List.replicate (q - 2) 0#8 ++ [0x80#8]

/-- SHAKE256 with `8 k` bytes of output, `k` at most 17. -/
def shakeOut (k : Nat) (bs : Bytes) : Bytes :=
  let p := shakePad bs
  let st := (keccakBlocks (p.length / 136) p).foldl keccakAbsorb (List.replicate 25 0)
  ((List.range k).map (fun i => natLe 8 (lane st i).toNat)).flatten
/-- SHAKE256 with 256 bits of output. -/
def shake256 (bs : Bytes) : Bytes := shakeOut 4 bs

end Sys2Proof.Machine
end

