-- ==== Sys2Proof/Config.lean ====
section
/-!
DEFINITION. What the spec leaves open: free values. Each is an opaque constant with no body, so that nothing in Lean can
tell its value and a statement about it holds for every value (assumptions 10 and 11 [DESIGN CHOICE, safe]).
-/

namespace Sys2Proof.Config

/-- The free value number `i`: a fresh unknown each time a step reads it (assumption 11 [DESIGN CHOICE, safe]). -/
opaque freeBits : Nat → BitVec 64

/-- The verdict of SLH-DSA verification of `sig` over `msg` under the public key `key` (17 R457, R462; assumption 10 [DESIGN CHOICE, safe]). -/
opaque slhVerify : (key msg sig : Bytes) → Bool

/-- The SLH-DSA signature that the key named `key` makes over `msg` (17 R455, R461; assumption 10 [DESIGN CHOICE, safe]). -/
opaque slhSign : (key msg : Bytes) → Bytes

/-- The device secret DS in the fuses (17 R455; assumption 10 [DESIGN CHOICE, safe]). -/
opaque deviceSecret : Bytes

/-- The root of an SLH-DSA-SHAKE-128f key with these seeds (17 R455, FIPS 205; assumption 10 [DESIGN CHOICE, safe]). -/
opaque slhRoot : (skSeed pkSeed : Bytes) → Bytes

/-- The public part of the manufacturing key (Table 17.1; assumption 10 [DESIGN CHOICE, safe]). -/
opaque mfgKey : Bytes

/-- The public keys in the boot ROM (Table 17.1): 0 to 3 the firmware keys, 4 the licence key, 5 the debug key (assumption 10 [DESIGN CHOICE, safe]). -/
opaque romKey : Nat → Bytes

/-- What manufacture has written for an entry of the dictionary, by its key (R456): serial number, MAC address, certificates, steps
and versions; read as the little-endian number of the entry's bytes (assumption 10 [DESIGN CHOICE, safe]). -/
opaque factory : Nat → Nat

/-- The byte at an address of a memory whose contents the spec calls undefined, for the n-th time that it becomes so
(assumption 11 [DESIGN CHOICE, safe]). -/
opaque freeByte : Nat → Nat → BitVec 8

/-- The sign and fraction of a NaN that an operation makes of two words (IEEE 754 leaves them open; assumption 13 [DESIGN CHOICE,
safe]). -/
opaque nanBits : (op a b : Nat) → Nat

/-- Which of its NSETS sets a rescale record runs on while the active set of its scale group, given first, is not below NSETS (R102 says that such
sets are never used; assumption 80 [DESIGN CHOICE, safe]): a free number, read modulo NSETS. -/
opaque setBeyond : (active nsets : Nat) → Nat

/-- Of which kind firmware has created system sync object `j`, and with what value (R232 says neither; assumption 87 [DESIGN CHOICE, safe]). -/
opaque sysSync : Nat → BitVec 64

/-- The check code that the ECC of R267 forms from 32 data bytes and a word number, and the value that no data gives (assumption 90 [DESIGN CHOICE,
safe]). -/
opaque wordCode : (data : Bytes) → (word : Nat) → BitVec 16
/-- The poison code of R267 (assumption 90 [DESIGN CHOICE, safe]). -/
opaque poisonCode : BitVec 16

/-- Is a mean or a percentage of a congestion record that is no whole number rounded up? Of a total and a count (R311 says neither; assumption 94
[DESIGN CHOICE, safe]). -/
opaque cmapRoundUp : (total count : Nat) → Bool

/-- How many remote records an edge router's outbound record buffer holds (R138, R310 name no size; assumption 95 [DESIGN CHOICE, safe]). -/
opaque remoteRoom : Nat

end Sys2Proof.Config
end

