-- ==== Sys2Proof/Machine/Entries.lean ====
section
/-!
DEFINITION. The object dictionary's entries as the spec's tables give them: the key of every entry (index × 256 +
subindex; where the index is one of several, its first argument says which), and the rows with type, access, length,
range, default and unit. A default that the spec takes from fuses, MRAM, the identity record, the boot ROM or bring-up
is given as 0 here and set by bring-up (assumption 3 [DESIGN CHOICE, unsafe]).
-/

namespace Sys2Proof.Machine

/-- 0x2100.01 TIME_STATE (02, Table 2.6). -/
def kTimeState : Nat := 0x210001
/-- 0x2100.02 TIME_NOW (02, Table 2.6). -/
def kTimeNow : Nat := 0x210002
/-- 0x2100.03 TIME_PORT (02, Table 2.6). -/
def kTimePort : Nat := 0x210003
/-- 0x2100.04 HOLDOVER_LIMIT (02, Table 2.6). -/
def kHoldoverLimit : Nat := 0x210004
/-- 0x2100.05 TIME_STEPS (02, Table 2.6). -/
def kTimeSteps : Nat := 0x210005
/-- 0x2100.06 TIME_OFFSET (02, Table 2.6). -/
def kTimeOffset : Nat := 0x210006
/-- 0x2101.01 CIN_EDGE (02, Table 2.7). -/
def kCinEdge : Nat := 0x210101
/-- 0x2101.02 CIN_MIN_INTERVAL (02, Table 2.7). -/
def kCinMinInterval : Nat := 0x210102
/-- 0x2101.03 CIN_COUNT (02, Table 2.7). -/
def kCinCount : Nat := 0x210103
/-- 0x2101.04 CIN_REJECTED (02, Table 2.7). -/
def kCinRejected : Nat := 0x210104
/-- 0x2101.05 CIN_LAST_TIME (02, Table 2.7). -/
def kCinLastTime : Nat := 0x210105
/-- 0x2102.01 QUAD_MODE (02, Table 2.8). -/
def kQuadMode : Nat := 0x210201
/-- 0x2102.02 QUAD_POSITION (02, Table 2.8). -/
def kQuadPosition : Nat := 0x210202
/-- 0x2102.03 QUAD_ERRORS (02, Table 2.8). -/
def kQuadErrors : Nat := 0x210203
/-- 0x2102.04 QUAD_FILTER (02, Table 2.8). -/
def kQuadFilter : Nat := 0x210204
/-- 0x211n.01 CADENCE_SOURCE (02, Table 2.9). -/
def kCadenceSource (n : Nat) : Nat := 0x211001 + n * 0x100
/-- 0x211n.02 PERIOD (02, Table 2.9). -/
def kPeriod (n : Nat) : Nat := 0x211002 + n * 0x100
/-- 0x211n.03 ORIGIN_TIME (02, Table 2.9). -/
def kOriginTime (n : Nat) : Nat := 0x211003 + n * 0x100
/-- 0x211n.04 QUAD_COUNTS (02, Table 2.9). -/
def kQuadCounts (n : Nat) : Nat := 0x211004 + n * 0x100
/-- 0x211n.05 GUARD (02, Table 2.9). -/
def kGuard (n : Nat) : Nat := 0x211005 + n * 0x100
/-- 0x211n.06 OVERRUN_POLICY (02, Table 2.9). -/
def kOverrunPolicy (n : Nat) : Nat := 0x211006 + n * 0x100
/-- 0x211n.07 STRETCH_LIMIT (02, Table 2.9). -/
def kStretchLimit (n : Nat) : Nat := 0x211007 + n * 0x100
/-- 0x211n.08 EPOCH_LENGTH (02, Table 2.9). -/
def kEpochLength (n : Nat) : Nat := 0x211008 + n * 0x100
/-- 0x211n.09 EPOCH_ORIGIN (02, Table 2.9). -/
def kEpochOrigin (n : Nat) : Nat := 0x211009 + n * 0x100
/-- 0x211n.0A PITCH_BASE (02, Table 2.9). -/
def kPitchBase (n : Nat) : Nat := 0x21100A + n * 0x100
/-- 0x211n.0B SLACK_TARGET (02, Table 2.9). -/
def kSlackTarget (n : Nat) : Nat := 0x21100B + n * 0x100
/-- 0x211n.0C WATCH_FRACTION (02, Table 2.9). -/
def kWatchFraction (n : Nat) : Nat := 0x21100C + n * 0x100
/-- 0x211n.0D DEADLINE_ADAPT (02, Table 2.9). -/
def kDeadlineAdapt (n : Nat) : Nat := 0x21100D + n * 0x100
/-- 0x211n.0E CADENCE_TIMEOUT (02, Table 2.9). -/
def kCadenceTimeout (n : Nat) : Nat := 0x21100E + n * 0x100
/-- 0x211n.0F CADENCE_LOSS_ACTION (02, Table 2.9). -/
def kCadenceLossAction (n : Nat) : Nat := 0x21100F + n * 0x100
/-- 0x212n.01 PITCH_NUMBER (02, Table 2.10). -/
def kPitchNumber (n : Nat) : Nat := 0x212001 + n * 0x100
/-- 0x212n.02 EPOCH_NUMBER (02, Table 2.10). -/
def kEpochNumber (n : Nat) : Nat := 0x212002 + n * 0x100
/-- 0x212n.03 PITCH_PHASE (02, Table 2.10). -/
def kPitchPhase (n : Nat) : Nat := 0x212003 + n * 0x100
/-- 0x212n.04 CADENCE_STATE (02, Table 2.10). -/
def kCadenceState (n : Nat) : Nat := 0x212004 + n * 0x100
/-- 0x212n.05 LAST_OPEN_TIME (02, Table 2.10). -/
def kLastOpenTime (n : Nat) : Nat := 0x212005 + n * 0x100
/-- 0x212n.06 LAST_SLACK (02, Table 2.10). -/
def kLastSlack (n : Nat) : Nat := 0x212006 + n * 0x100
/-- 0x212n.07 MIN_SLACK (02, Table 2.10). -/
def kMinSlack (n : Nat) : Nat := 0x212007 + n * 0x100
/-- 0x212n.08 SLACK_WEST (02, Table 2.10). -/
def kSlackWest (n : Nat) : Nat := 0x212008 + n * 0x100
/-- 0x212n.09 SLACK_EAST (02, Table 2.10). -/
def kSlackEast (n : Nat) : Nat := 0x212009 + n * 0x100
/-- 0x212n.0A OVERRUN_COUNT (02, Table 2.10). -/
def kOverrunCount (n : Nat) : Nat := 0x21200A + n * 0x100
/-- 0x212n.0B TRUNCATE_COUNT (02, Table 2.10). -/
def kTruncateCount (n : Nat) : Nat := 0x21200B + n * 0x100
/-- 0x212n.0C EVENTS_TRUNCATED (02, Table 2.10). -/
def kEventsTruncated (n : Nat) : Nat := 0x21200C + n * 0x100
/-- 0x212n.0D SPIKES_WITHHELD (02, Table 2.10). -/
def kSpikesWithheld (n : Nat) : Nat := 0x21200D + n * 0x100
/-- 0x212n.0E SLIP_LAST (02, Table 2.10). -/
def kSlipLast (n : Nat) : Nat := 0x21200E + n * 0x100
/-- 0x212n.0F SLIP_TOTAL (02, Table 2.10). -/
def kSlipTotal (n : Nat) : Nat := 0x21200F + n * 0x100
/-- 0x212n.10 TICKS_MERGED (02, Table 2.10). -/
def kTicksMerged (n : Nat) : Nat := 0x212010 + n * 0x100
/-- 0x212n.11 VOLTAGE_RAISES (02, Table 2.10). -/
def kVoltageRaises (n : Nat) : Nat := 0x212011 + n * 0x100
/-- 0x212n.12 TIME_LOST (02, Table 2.10). -/
def kTimeLost (n : Nat) : Nat := 0x212012 + n * 0x100
/-- 0x3n40.01 GUARD_ACTION (04, Table 4.12). -/
def kGuardAction (n : Nat) : Nat := 0x304001 + n * 0x10000
/-- 0x3n40.02 GUARD_WINDOW (04, Table 4.12). -/
def kGuardWindow (n : Nat) : Nat := 0x304002 + n * 0x10000
/-- 0x3n40.03 SAT_FRACTION (04, Table 4.12). -/
def kSatFraction (n : Nat) : Nat := 0x304003 + n * 0x10000
/-- 0x3n40.04 UNDER_FRACTION (04, Table 4.12). -/
def kUnderFraction (n : Nat) : Nat := 0x304004 + n * 0x10000
/-- 0x3n40.05 GUARD_MIN_ACTIVE (04, Table 4.12). -/
def kGuardMinActive (n : Nat) : Nat := 0x304005 + n * 0x10000
/-- 0x3n40.06 GROUP_SELECT (04, Table 4.12). -/
def kGuardGroupSelect (n : Nat) : Nat := 0x304006 + n * 0x10000
/-- 0x3n41.01 GUARD_FLAGS (04, Table 4.13). -/
def kGuardFlags (n : Nat) : Nat := 0x304101 + n * 0x10000
/-- 0x3n41.02 GROUPS_SWITCHED (04, Table 4.13). -/
def kGroupsSwitched (n : Nat) : Nat := 0x304102 + n * 0x10000
/-- 0x3n41.03 GROUPS_NOFIT (04, Table 4.13). -/
def kGroupsNofit (n : Nat) : Nat := 0x304103 + n * 0x10000
/-- 0x3n41.04 CLAMPS (04, Table 4.13). -/
def kClamps (n : Nat) : Nat := 0x304104 + n * 0x10000
/-- 0x3n41.05 GROUP_ACTIVE_SET (04, Table 4.13). -/
def kGroupActiveSet (n : Nat) : Nat := 0x304105 + n * 0x10000
/-- 0x3n41.06 GROUP_STATE (04, Table 4.13). -/
def kGuardGroupState (n : Nat) : Nat := 0x304106 + n * 0x10000
/-- 0x3n41.07 GROUP_SAT (04, Table 4.13). -/
def kGroupSat (n : Nat) : Nat := 0x304107 + n * 0x10000
/-- 0x3n41.08 GROUP_UNDER (04, Table 4.13). -/
def kGroupUnder (n : Nat) : Nat := 0x304108 + n * 0x10000
/-- 0x3n41.09 GROUP_LAST_SWITCH (04, Table 4.13). -/
def kGroupLastSwitch (n : Nat) : Nat := 0x304109 + n * 0x10000
/-- 0x3n50.01 LATE_ACTION (05, Table 5.9). -/
def kLateAction (n : Nat) : Nat := 0x305001 + n * 0x10000
/-- 0x3n50.02 PREFETCH_DEPTH (05, Table 5.9). -/
def kPrefetchDepth (n : Nat) : Nat := 0x305002 + n * 0x10000
/-- 0x3n50.03 CACHE_ADAPT (05, Table 5.9). -/
def kCacheAdapt (n : Nat) : Nat := 0x305003 + n * 0x10000
/-- 0x3n50.04 CACHE_RESIDENT_LIMIT (05, Table 5.9). -/
def kCacheResidentLimit (n : Nat) : Nat := 0x305004 + n * 0x10000
/-- 0x3n50.05 LOCAL_PEER_ID (05, Table 5.9). -/
def kLocalPeerId (n : Nat) : Nat := 0x305005 + n * 0x10000
/-- 0x3n51.01 EVENTS_SENT (05, Table 5.10). -/
def kEventsSent (n : Nat) : Nat := 0x305101 + n * 0x10000
/-- 0x3n51.02 EVENTS_DELIVERED (05, Table 5.10). -/
def kEventsDelivered (n : Nat) : Nat := 0x305102 + n * 0x10000
/-- 0x3n51.03 OVERFLOW_RECORDS (05, Table 5.10). -/
def kOverflowRecords (n : Nat) : Nat := 0x305103 + n * 0x10000
/-- 0x3n51.04 DROP_BOBBIN_FULL (05, Table 5.10). -/
def kDropBobbinFull (n : Nat) : Nat := 0x305104 + n * 0x10000
/-- 0x3n51.05 DROP_LDS_FULL (05, Table 5.10). -/
def kDropLdsFull (n : Nat) : Nat := 0x305105 + n * 0x10000
/-- 0x3n51.06 RECORD_FAULTS (05, Table 5.10). -/
def kRecordFaults (n : Nat) : Nat := 0x305106 + n * 0x10000
/-- 0x3n51.07 RING_PEAK (05, Table 5.10). -/
def kRingPeak (n : Nat) : Nat := 0x305107 + n * 0x10000
/-- 0x3n51.08 LDS_PEAK (05, Table 5.10). -/
def kLdsPeak (n : Nat) : Nat := 0x305108 + n * 0x10000
/-- 0x3n51.09 CACHE_HITS (05, Table 5.10). -/
def kCacheHits (n : Nat) : Nat := 0x305109 + n * 0x10000
/-- 0x3n51.0A CACHE_MISSES (05, Table 5.10). -/
def kCacheMisses (n : Nat) : Nat := 0x30510A + n * 0x10000
/-- 0x3n51.0B PREFETCH_DEFERRED (05, Table 5.10). -/
def kPrefetchDeferred (n : Nat) : Nat := 0x30510B + n * 0x10000
/-- 0x3n51.0C BYPASS_ROWS (05, Table 5.10). -/
def kBypassRows (n : Nat) : Nat := 0x30510C + n * 0x10000
/-- 0x3n51.0D REMOTE_SENT (05, Table 5.10). -/
def kRemoteSent (n : Nat) : Nat := 0x30510D + n * 0x10000
/-- 0x3n51.0E REMOTE_RECEIVED (05, Table 5.10). -/
def kRemoteReceived (n : Nat) : Nat := 0x30510E + n * 0x10000
/-- 0x3n51.0F DROP_LATE (05, Table 5.10). -/
def kDropLate (n : Nat) : Nat := 0x30510F + n * 0x10000
/-- 0x3n51.10 LATE_DEFERRED (05, Table 5.10). -/
def kLateDeferred (n : Nat) : Nat := 0x305110 + n * 0x10000
/-- 0x3n51.11 DROP_EARLY (05, Table 5.10). -/
def kDropEarly (n : Nat) : Nat := 0x305111 + n * 0x10000
/-- 0x3n51.12 DROP_REMOTE (05, Table 5.10). -/
def kDropRemote (n : Nat) : Nat := 0x305112 + n * 0x10000
/-- 0x3n52.01–0x3n52.40 PEER_0 to PEER_63 (05, Table 5.11). -/
def kPeer0 (n i : Nat) : Nat := 0x305201 + n * 0x10000 + i
/-- 0x3n00.01 PARTITION_COMMAND (06, Table 6.14). -/
def kPartitionCommand (n : Nat) : Nat := 0x300001 + n * 0x10000
/-- 0x3n00.02 CLUSTER_MASK (06, Table 6.14). -/
def kClusterMask (n : Nat) : Nat := 0x300002 + n * 0x10000
/-- 0x3n00.03 IMAGE_SLOT (06, Table 6.14). -/
def kImageSlot (n : Nat) : Nat := 0x300003 + n * 0x10000
/-- 0x3n00.04 IMAGE_ADDR (06, Table 6.14). -/
def kImageAddr (n : Nat) : Nat := 0x300004 + n * 0x10000
/-- 0x3n00.05 IMAGE_LENGTH (06, Table 6.14). -/
def kImageLength (n : Nat) : Nat := 0x300005 + n * 0x10000
/-- 0x3n00.06 LOAD_SHARE (06, Table 6.14). -/
def kLoadShare (n : Nat) : Nat := 0x300006 + n * 0x10000
/-- 0x3n01.01 PART_STATE (06, Table 6.15). -/
def kPartState (n : Nat) : Nat := 0x300101 + n * 0x10000
/-- 0x3n01.02 ACTIVE_SLOT (06, Table 6.15). -/
def kActiveSlot (n : Nat) : Nat := 0x300102 + n * 0x10000
/-- 0x3n01.03 SLOT0_STATE (06, Table 6.15). -/
def kSlot0State (n : Nat) : Nat := 0x300103 + n * 0x10000
/-- 0x3n01.04 SLOT1_STATE (06, Table 6.15). -/
def kSlot1State (n : Nat) : Nat := 0x300104 + n * 0x10000
/-- 0x3n01.05 LOAD_ERROR (06, Table 6.15). -/
def kLoadError (n : Nat) : Nat := 0x300105 + n * 0x10000
/-- 0x3n01.06 LOAD_PROGRESS (06, Table 6.15). -/
def kLoadProgress (n : Nat) : Nat := 0x300106 + n * 0x10000
/-- 0x3n01.07 IMAGE_DIGEST (06, Table 6.15). -/
def kImageDigest (n : Nat) : Nat := 0x300107 + n * 0x10000
/-- 0x3n01.08 SLOT_FLAGS (06, Table 6.15). -/
def kSlotFlags (n : Nat) : Nat := 0x300108 + n * 0x10000
/-- 0x3n01.09 DISABLE_PITCH (06, Table 6.15). -/
def kDisablePitch (n : Nat) : Nat := 0x300109 + n * 0x10000
/-- 0x3n01.0A ABSORB_TOTAL (06, Table 6.15). -/
def kAbsorbTotal (n : Nat) : Nat := 0x30010A + n * 0x10000
/-- 0x3n02.01 STATION_ENABLE (06, Table 6.16). -/
def kStationEnable (n : Nat) : Nat := 0x300201 + n * 0x10000
/-- 0x3n02.02 STATION_DISABLE_NOW (06, Table 6.16). -/
def kStationDisableNow (n : Nat) : Nat := 0x300202 + n * 0x10000
/-- 0x3n03.01 CORE_MODE (06, Table 6.17). -/
def kCoreMode (n : Nat) : Nat := 0x300301 + n * 0x10000
/-- 0x3n03.02 WOE_CLOCK (06, Table 6.17). -/
def kWoeClock (n : Nat) : Nat := 0x300302 + n * 0x10000
/-- 0x3n03.03 WOE_CLOCK_ACTUAL (06, Table 6.17). -/
def kWoeClockActual (n : Nat) : Nat := 0x300303 + n * 0x10000
/-- 0x3n04.01 NA_TARGET (06, Table 6.18). -/
def kNaTarget (n : Nat) : Nat := 0x300401 + n * 0x10000
/-- 0x3n04.02 NA_STATE (06, Table 6.18). -/
def kNaState (n : Nat) : Nat := 0x300402 + n * 0x10000
/-- 0x3n04.03 NA_POP_RECORD (06, Table 6.18). -/
def kNaPopRecord (n : Nat) : Nat := 0x300403 + n * 0x10000
/-- 0x3n04.04 NA_RESCALE_RECORD (06, Table 6.18). -/
def kNaRescaleRecord (n : Nat) : Nat := 0x300404 + n * 0x10000
/-- 0x3n04.05 NA_OUTLIER_MAP (06, Table 6.18). -/
def kNaOutlierMap (n : Nat) : Nat := 0x300405 + n * 0x10000
/-- 0x3n04.06 NA_STATUS (06, Table 6.18). -/
def kNaStatus (n : Nat) : Nat := 0x300406 + n * 0x10000
/-- 0x3n05.01 CORE_SELECT (06, Table 6.19). -/
def kCoreSelect (n : Nat) : Nat := 0x300501 + n * 0x10000
/-- 0x3n05.02 CORE_COUNTERS (06, Table 6.19). -/
def kCoreCounters (n : Nat) : Nat := 0x300502 + n * 0x10000
/-- 0x3n05.03 COUNTER_CLEAR (06, Table 6.19). -/
def kCounterClear (n : Nat) : Nat := 0x300503 + n * 0x10000
/-- 0x3n60.01 APPLY_SHARE (07, Table 7.10). -/
def kApplyShare (n : Nat) : Nat := 0x306001 + n * 0x10000
/-- 0x3n60.02 KEEP_RESTORE (07, Table 7.10). -/
def kKeepRestore (n : Nat) : Nat := 0x306002 + n * 0x10000
/-- 0x3n60.03 KEEP_AUTO_EPOCHS (07, Table 7.10). -/
def kKeepAutoEpochs (n : Nat) : Nat := 0x306003 + n * 0x10000
/-- 0x3n60.04 KEEP_MIN_INTERVAL (07, Table 7.10). -/
def kKeepMinInterval (n : Nat) : Nat := 0x306004 + n * 0x10000
/-- 0x3n60.05 PROJ_SELECT (07, Table 7.10). -/
def kProjSelect (n : Nat) : Nat := 0x306005 + n * 0x10000
/-- 0x3n61.01 APPLY_STATE (07, Table 7.11). -/
def kApplyState (n : Nat) : Nat := 0x306101 + n * 0x10000
/-- 0x3n61.02 APPLY_COUNT (07, Table 7.11). -/
def kApplyCount (n : Nat) : Nat := 0x306102 + n * 0x10000
/-- 0x3n61.03 APPLY_SKIPPED (07, Table 7.11). -/
def kApplySkipped (n : Nat) : Nat := 0x306103 + n * 0x10000
/-- 0x3n61.04 APPLY_ABANDONED (07, Table 7.11). -/
def kApplyAbandoned (n : Nat) : Nat := 0x306104 + n * 0x10000
/-- 0x3n61.05 TRACE_PRE_EVENTS (07, Table 7.11). -/
def kTracePreEvents (n : Nat) : Nat := 0x306105 + n * 0x10000
/-- 0x3n61.06 TRACE_POST_SPIKES (07, Table 7.11). -/
def kTracePostSpikes (n : Nat) : Nat := 0x306106 + n * 0x10000
/-- 0x3n61.07 UPDATE_SATURATIONS (07, Table 7.11). -/
def kUpdateSaturations (n : Nat) : Nat := 0x306107 + n * 0x10000
/-- 0x3n61.08 POST_RANGE_MISSES (07, Table 7.11). -/
def kPostRangeMisses (n : Nat) : Nat := 0x306108 + n * 0x10000
/-- 0x3n61.09 WEIGHT_CLAMPS (07, Table 7.11). -/
def kWeightClamps (n : Nat) : Nat := 0x306109 + n * 0x10000
/-- 0x3n61.0A WEIGHTS_CHANGED (07, Table 7.11). -/
def kWeightsChanged (n : Nat) : Nat := 0x30610A + n * 0x10000
/-- 0x3n61.0B LICENSED (07, Table 7.11). -/
def kLicensed (n : Nat) : Nat := 0x30610B + n * 0x10000
/-- 0x3n61.0C PROJ_GENERATION (07, Table 7.11). -/
def kProjGeneration (n : Nat) : Nat := 0x30610C + n * 0x10000
/-- 0x3n61.0D PROJ_OPEN_BANK (07, Table 7.11). -/
def kProjOpenBank (n : Nat) : Nat := 0x30610D + n * 0x10000
/-- 0x3n61.0E PROJ_LAST_SWITCH (07, Table 7.11). -/
def kProjLastSwitch (n : Nat) : Nat := 0x30610E + n * 0x10000
/-- 0x3n62.01 KEEP_COMMAND (07, Table 7.12). -/
def kKeepCommand (n : Nat) : Nat := 0x306201 + n * 0x10000
/-- 0x3n62.02 KEEP_STATE (07, Table 7.12). -/
def kKeepState (n : Nat) : Nat := 0x306202 + n * 0x10000
/-- 0x3n62.03 KEEP_SEQUENCE (07, Table 7.12). -/
def kKeepSequence (n : Nat) : Nat := 0x306203 + n * 0x10000
/-- 0x3n62.04 KEEP_BYTES (07, Table 7.12). -/
def kKeepBytes (n : Nat) : Nat := 0x306204 + n * 0x10000
/-- 0x3n62.05 KEEP_DIGEST (07, Table 7.12). -/
def kKeepDigest (n : Nat) : Nat := 0x306205 + n * 0x10000
/-- 0x3n62.06 KEEP_COMMIT_PITCH (07, Table 7.12). -/
def kKeepCommitPitch (n : Nat) : Nat := 0x306206 + n * 0x10000
/-- 0x3n62.07 KEEP_RESTORE_RESULT (07, Table 7.12). -/
def kKeepRestoreResult (n : Nat) : Nat := 0x306207 + n * 0x10000
/-- 0x3n62.08 KEEP_COMMITS (07, Table 7.12). -/
def kKeepCommits (n : Nat) : Nat := 0x306208 + n * 0x10000
/-- 0x4000.01 STREAMS_PRESENT (08, Table 8.9). -/
def kStreamsPresent : Nat := 0x400001
/-- 0x4000.02 STREAMS_RUNNING (08, Table 8.9). -/
def kStreamsRunning : Nat := 0x400002
/-- 0x4000.03 STREAMS_LOST (08, Table 8.9). -/
def kStreamsLost : Nat := 0x400003
/-- 0x40xx.01 STREAM_ENABLE (08, Table 8.10). -/
def kStreamEnable (n : Nat) : Nat := 0x401001 + n * 0x100
/-- 0x40xx.02 STREAM_DISABLE_NOW (08, Table 8.10). -/
def kStreamDisableNow (n : Nat) : Nat := 0x401002 + n * 0x100
/-- 0x40xx.03 SOURCE (08, Table 8.10). -/
def kSource (n : Nat) : Nat := 0x401003 + n * 0x100
/-- 0x40xx.04 ETH_PORT (08, Table 8.10). -/
def kEthPort (n : Nat) : Nat := 0x401004 + n * 0x100
/-- 0x40xx.05 UDP_PORT (08, Table 8.10). -/
def kUdpPort (n : Nat) : Nat := 0x401005 + n * 0x100
/-- 0x40xx.06 STREAM_QPN (08, Table 8.10). -/
def kStreamQpn (n : Nat) : Nat := 0x401006 + n * 0x100
/-- 0x40xx.07 STALE_ACTION (08, Table 8.10). -/
def kStaleAction (n : Nat) : Nat := 0x401007 + n * 0x100
/-- 0x40xx.08 STREAM_TIMEOUT (08, Table 8.10). -/
def kStreamTimeout (n : Nat) : Nat := 0x401008 + n * 0x100
/-- 0x40xx.09 MAX_AGE (08, Table 8.10). -/
def kMaxAge (n : Nat) : Nat := 0x401009 + n * 0x100
/-- 0x40xx.0A ENC_MIN_ACTIVE (08, Table 8.10). -/
def kEncMinActive (n : Nat) : Nat := 0x40100A + n * 0x100
/-- 0x40xx.0B STREAM_SAMPLE (08, Table 8.10). -/
def kStreamSample (n : Nat) : Nat := 0x40100B + n * 0x100
/-- 0x40yy.01 STREAM_STATE (08, Table 8.11). -/
def kStreamState (n : Nat) : Nat := 0x404001 + n * 0x100
/-- 0x40yy.02 HOLDING_PARTITION (08, Table 8.11). -/
def kHoldingPartition (n : Nat) : Nat := 0x404002 + n * 0x100
/-- 0x40yy.03 SAMPLES_ACCEPTED (08, Table 8.11). -/
def kSamplesAccepted (n : Nat) : Nat := 0x404003 + n * 0x100
/-- 0x40yy.04 SAMPLE_ERRORS (08, Table 8.11). -/
def kSampleErrors (n : Nat) : Nat := 0x404004 + n * 0x100
/-- 0x40yy.05 SEQ_REJECTS (08, Table 8.11). -/
def kSeqRejects (n : Nat) : Nat := 0x404005 + n * 0x100
/-- 0x40yy.06 DISABLED_DROPS (08, Table 8.11). -/
def kDisabledDrops (n : Nat) : Nat := 0x404006 + n * 0x100
/-- 0x40yy.07 SAMPLES_SUPERSEDED (08, Table 8.11). -/
def kSamplesSuperseded (n : Nat) : Nat := 0x404007 + n * 0x100
/-- 0x40yy.08 STALE_PITCHES (08, Table 8.11). -/
def kStalePitches (n : Nat) : Nat := 0x404008 + n * 0x100
/-- 0x40yy.09 LAST_SEQ (08, Table 8.11). -/
def kLastSeq (n : Nat) : Nat := 0x404009 + n * 0x100
/-- 0x40yy.0A LAST_TIMESTAMP (08, Table 8.11). -/
def kLastTimestamp (n : Nat) : Nat := 0x40400A + n * 0x100
/-- 0x40yy.0B EVENTS_ENCODED (08, Table 8.11). -/
def kEventsEncoded (n : Nat) : Nat := 0x40400B + n * 0x100
/-- 0x40yy.0C RATE_EXCESS (08, Table 8.11). -/
def kRateExcess (n : Nat) : Nat := 0x40400C + n * 0x100
/-- 0x40yy.0D LEVEL_LAG (08, Table 8.11). -/
def kLevelLag (n : Nat) : Nat := 0x40400D + n * 0x100
/-- 0x40yy.0E ENC_NONFINITE (08, Table 8.11). -/
def kEncNonfinite (n : Nat) : Nat := 0x40400E + n * 0x100
/-- 0x40yy.0F ENC_CLAMPS (08, Table 8.11). -/
def kEncClamps (n : Nat) : Nat := 0x40400F + n * 0x100
/-- 0x40yy.10 REANCHORS (08, Table 8.11). -/
def kReanchors (n : Nat) : Nat := 0x404010 + n * 0x100
/-- 0x40yy.11 ENCODE_LATE (08, Table 8.11). -/
def kEncodeLate (n : Nat) : Nat := 0x404011 + n * 0x100
/-- 0x40yy.12 ABSORBED_ENCODE (08, Table 8.11). -/
def kAbsorbedEncode (n : Nat) : Nat := 0x404012 + n * 0x100
/-- 0x40yy.13 ENC_ACTIVE_SET (08, Table 8.11). -/
def kEncActiveSet (n : Nat) : Nat := 0x404013 + n * 0x100
/-- 0x40yy.14 ENC_GUARD_STATE (08, Table 8.11). -/
def kEncGuardState (n : Nat) : Nat := 0x404014 + n * 0x100
/-- 0x40yy.15 ENC_SAT (08, Table 8.11). -/
def kEncSat (n : Nat) : Nat := 0x404015 + n * 0x100
/-- 0x40yy.16 ENC_UNDER (08, Table 8.11). -/
def kEncUnder (n : Nat) : Nat := 0x404016 + n * 0x100
/-- 0x4100.01 GROUPS_PRESENT (08, Table 8.12). -/
def kGroupsPresent : Nat := 0x410001
/-- 0x4100.02 INERT_REASON (08, Table 8.12). -/
def kInertReason : Nat := 0x410002
/-- 0x4100.03 ESTOP_ASSERTIONS (08, Table 8.12). -/
def kEstopAssertions : Nat := 0x410003
/-- 0x4101.01 GROUP_SELECT (08, Table 8.13). -/
def kGroupSelect : Nat := 0x410101
/-- 0x4101.02 GROUP_ENABLE (08, Table 8.13). -/
def kGroupEnable : Nat := 0x410102
/-- 0x4101.03 GROUP_DISABLE_NOW (08, Table 8.13). -/
def kGroupDisableNow : Nat := 0x410103
/-- 0x4102.01 GROUP_STATE (08, Table 8.14). -/
def kGroupState : Nat := 0x410201
/-- 0x4102.02 GROUP_PARTITION (08, Table 8.14). -/
def kGroupPartition : Nat := 0x410202
/-- 0x4102.03 PUBLISHED (08, Table 8.14). -/
def kPublished : Nat := 0x410203
/-- 0x4102.04 DECODE_LATE (08, Table 8.14). -/
def kDecodeLate : Nat := 0x410204
/-- 0x4102.05 OUT_CLAMPS (08, Table 8.14). -/
def kOutClamps : Nat := 0x410205
/-- 0x4102.06 ABSORBED_DECODE (08, Table 8.14). -/
def kAbsorbedDecode : Nat := 0x410206
/-- 0x4102.07 READOUT_RECORD (08, Table 8.14). -/
def kReadoutRecord : Nat := 0x410207
/-- 0x5000.01 QUEUES_OPEN (09, Table 9.14). -/
def kQueuesOpen : Nat := 0x500001
/-- 0x5000.02 QUEUES_ORPHANED (09, Table 9.14). -/
def kQueuesOrphaned : Nat := 0x500002
/-- 0x5000.03 SYNC_IN_USE (09, Table 9.14). -/
def kSyncInUse : Nat := 0x500003
/-- 0x5000.04 MESSAGES_SENT (09, Table 9.14). -/
def kMessagesSent : Nat := 0x500004
/-- 0x5000.05 FULL_SENDS (09, Table 9.14). -/
def kFullSends : Nat := 0x500005
/-- 0x5000.06 ORPHAN_SENDS (09, Table 9.14). -/
def kOrphanSends : Nat := 0x500006
/-- 0x5000.07 ORPHAN_RETURNS (09, Table 9.14). -/
def kOrphanReturns : Nat := 0x500007
/-- 0x5000.08 PAD_RECORDS (09, Table 9.14). -/
def kPadRecords : Nat := 0x500008
/-- 0x5000.09 WAIT_BUSY (09, Table 9.14). -/
def kWaitBusy : Nat := 0x500009
/-- 0x5000.0A TIMEOUTS (09, Table 9.14). -/
def kTimeouts : Nat := 0x50000A
/-- 0x5000.0B CQ_LOST (09, Table 9.14). -/
def kCqLost : Nat := 0x50000B
/-- 0x5000.0C COMBINE_SAT (09, Table 9.14). -/
def kCombineSat : Nat := 0x50000C
/-- 0x5000.0D COMBINE_NONFINITE (09, Table 9.14). -/
def kCombineNonfinite : Nat := 0x50000D
/-- 0x5000.0E COMBINE_RANGE (09, Table 9.14). -/
def kCombineRange : Nat := 0x50000E
/-- 0x5000.0F COMBINE_LATE (09, Table 9.14). -/
def kCombineLate : Nat := 0x50000F
/-- 0x5000.10 LINK_FAILED (09, Table 9.14). -/
def kLinkFailed : Nat := 0x500010
/-- 0x5000.11 BARRIERS_BROKEN (09, Table 9.14). -/
def kBarriersBroken : Nat := 0x500011
/-- 0x5000.12 RING_MEMORY_ERRORS (09, Table 9.14). -/
def kRingMemoryErrors : Nat := 0x500012
/-- 0x5000.13 WAIT_PEAK (09, Table 9.14). -/
def kWaitPeak : Nat := 0x500013
/-- 0x5001.01 GRANT_SLICE (09, Table 9.15). -/
def kGrantSlice : Nat := 0x500101
/-- 0x5001.02 QUEUE_GRANTS (09, Table 9.15). -/
def kQueueGrants : Nat := 0x500102
/-- 0x5001.03 SYNC_GRANTS (09, Table 9.15). -/
def kSyncGrants : Nat := 0x500103
/-- 0x5002.01 QUEUE_SELECT (09, Table 9.16). -/
def kQueueSelect : Nat := 0x500201
/-- 0x5002.02 QUEUE_RECORD (09, Table 9.16). -/
def kQueueRecord : Nat := 0x500202
/-- 0x5002.03 QUEUE_USED (09, Table 9.16). -/
def kQueueUsed : Nat := 0x500203
/-- 0x5002.04 QUEUE_WAITERS (09, Table 9.16). -/
def kQueueWaiters : Nat := 0x500204
/-- 0x5002.05 CQ_OVERRUN (09, Table 9.16). -/
def kCqOverrun : Nat := 0x500205
/-- 0x5003.01 SYNC_SELECT (09, Table 9.17). -/
def kSyncSelect : Nat := 0x500301
/-- 0x5003.02 SYNC_KIND (09, Table 9.17). -/
def kSyncKind : Nat := 0x500302
/-- 0x5003.03 SYNC_OWNER (09, Table 9.17). -/
def kSyncOwner : Nat := 0x500303
/-- 0x5003.04 SYNC_VALUE (09, Table 9.17). -/
def kSyncValue : Nat := 0x500304
/-- 0x5003.05 SYNC_PHASE (09, Table 9.17). -/
def kSyncPhase : Nat := 0x500305
/-- 0x5003.06 SYNC_WAITERS (09, Table 9.17). -/
def kSyncWaiters : Nat := 0x500306
/-- 0x2500.01 FRAME_ALL (10, Table 10.13). -/
def kFrameAll : Nat := 0x250001
/-- 0x2500.02 FRAMES_WEST (10, Table 10.13). -/
def kFramesWest : Nat := 0x250002
/-- 0x2500.03 FRAMES_EAST (10, Table 10.13). -/
def kFramesEast : Nat := 0x250003
/-- 0x2500.04 LPDDR6_USABLE (10, Table 10.13). -/
def kLpddr6Usable : Nat := 0x250004
/-- 0x2500.05 SUBCH_IN_SERVICE (10, Table 10.13). -/
def kSubchInService : Nat := 0x250005
/-- 0x2500.06 FRAME_OWNER (10, Table 10.13). -/
def kFrameOwner : Nat := 0x250006
/-- 0x2500.07 BAR2_DISCARDS (10, Table 10.13). -/
def kBar2Discards : Nat := 0x250007
/-- 0x2500.08 FRAME_ALL_MAX (10, Table 10.13). -/
def kFrameAllMax : Nat := 0x250008
/-- 0x2501.01 SCRUB_PERIOD (10, Table 10.14). -/
def kScrubPeriod : Nat := 0x250101
/-- 0x2501.02 SCRUB_PASSES (10, Table 10.14). -/
def kScrubPasses : Nat := 0x250102
/-- 0x2501.03 CE_TOTAL (10, Table 10.14). -/
def kCeTotal : Nat := 0x250103
/-- 0x2501.04 UE_TOTAL (10, Table 10.14). -/
def kUeTotal : Nat := 0x250104
/-- 0x2501.05 POISONED_WORDS (10, Table 10.14). -/
def kPoisonedWords : Nat := 0x250105
/-- 0x2501.06 CE_ALERT (10, Table 10.14). -/
def kCeAlert : Nat := 0x250106
/-- 0x2502.01 SUBCH_SELECT (10, Table 10.15). -/
def kSubchSelect : Nat := 0x250201
/-- 0x2502.02 SUBCH_STATE (10, Table 10.15). -/
def kSubchState : Nat := 0x250202
/-- 0x2502.03 SUBCH_CE (10, Table 10.15). -/
def kSubchCe : Nat := 0x250203
/-- 0x2502.04 SUBCH_UE (10, Table 10.15). -/
def kSubchUe : Nat := 0x250204
/-- 0x2502.05 SUBCH_LAST_ERROR (10, Table 10.15). -/
def kSubchLastError : Nat := 0x250205
/-- 0x2502.06 SUBCH_RETRAINS (10, Table 10.15). -/
def kSubchRetrains : Nat := 0x250206
/-- 0x2502.07 SUBCH_TEMP (10, Table 10.15). -/
def kSubchTemp : Nat := 0x250207
/-- 0x2503.01 BGTEST_ENABLE (10, Table 10.16). -/
def kBgtestEnable : Nat := 0x250301
/-- 0x2503.02 BGTEST_INTERVAL (10, Table 10.16). -/
def kBgtestInterval : Nat := 0x250302
/-- 0x2503.03 BGTEST_REGIONS (10, Table 10.16). -/
def kBgtestRegions : Nat := 0x250303
/-- 0x2503.04 BGTEST_FAILS (10, Table 10.16). -/
def kBgtestFails : Nat := 0x250304
/-- 0x2503.05 BGTEST_HELD (10, Table 10.16). -/
def kBgtestHeld : Nat := 0x250305
/-- 0x2503.06 PARITY_REPLAYS (10, Table 10.16). -/
def kParityReplays : Nat := 0x250306
/-- 0x2503.07 PARITY_PERSISTENT (10, Table 10.16). -/
def kParityPersistent : Nat := 0x250307
/-- 0x2503.08 RETENTION_LOST (10, Table 10.16). -/
def kRetentionLost : Nat := 0x250308
/-- 0x2504.01 CONFLICT_TARGET (10, Table 10.16). -/
def kConflictTarget : Nat := 0x250401
/-- 0x2504.02 CONFLICT_COUNTERS (10, Table 10.16). -/
def kConflictCounters : Nat := 0x250402
/-- 0x2504.03 CONFLICT_CLEAR (10, Table 10.16). -/
def kConflictClear : Nat := 0x250403
/-- 0x2505.01 PAGE_SLICE (10, Table 10.16). -/
def kPageSlice : Nat := 0x250501
/-- 0x2505.02 PAGE_GRANTS (10, Table 10.16). -/
def kPageGrants : Nat := 0x250502
/-- 0x2400.01 VC2_WEIGHT (11, Table 11.12). -/
def kVc2Weight : Nat := 0x240001
/-- 0x2400.02 ACK_TIMEOUT (11, Table 11.12). -/
def kAckTimeout : Nat := 0x240002
/-- 0x2400.03 RESEND_LIMIT (11, Table 11.12). -/
def kResendLimit : Nat := 0x240003
/-- 0x2400.04 LINK_ERR_LIMIT (11, Table 11.12). -/
def kLinkErrLimit : Nat := 0x240004
/-- 0x2400.05 ROUTE_ADAPT (11, Table 11.12). -/
def kRouteAdapt : Nat := 0x240005
/-- 0x2400.06 CMAP_INTERVAL (11, Table 11.12). -/
def kCmapInterval : Nat := 0x240006
/-- 0x2400.07 ROUTE_COMMAND (11, Table 11.12). -/
def kRouteCommand : Nat := 0x240007
/-- 0x2401.01 FABRIC_CLOCK_WEST (11, Table 11.13). -/
def kFabricClockWest : Nat := 0x240101
/-- 0x2401.02 FABRIC_CLOCK_EAST (11, Table 11.13). -/
def kFabricClockEast : Nat := 0x240102
/-- 0x2401.03 COL_RATE (11, Table 11.13). -/
def kColRate : Nat := 0x240103
/-- 0x2401.04 COL_CREDITS_WE (11, Table 11.13). -/
def kColCreditsWe : Nat := 0x240104
/-- 0x2401.05 COL_CREDITS_EW (11, Table 11.13). -/
def kColCreditsEw : Nat := 0x240105
/-- 0x2401.06 ROUTE_STATE (11, Table 11.13). -/
def kRouteState : Nat := 0x240106
/-- 0x2401.07 ROUTE_GEN (11, Table 11.13). -/
def kRouteGen : Nat := 0x240107
/-- 0x2401.08 ROUTE_CHANGES (11, Table 11.13). -/
def kRouteChanges : Nat := 0x240108
/-- 0x2401.09 LINKS_EXCLUDED (11, Table 11.13). -/
def kLinksExcluded : Nat := 0x240109
/-- 0x2401.0A VC0_PEAK (11, Table 11.13). -/
def kVc0Peak : Nat := 0x24010A
/-- 0x2402.01 HOP_PARITY_ERRORS (11, Table 11.14). -/
def kHopParityErrors : Nat := 0x240201
/-- 0x2402.02 WORM_DROPS (11, Table 11.14). -/
def kWormDrops : Nat := 0x240202
/-- 0x2402.03 CRC_ERRORS (11, Table 11.14). -/
def kCrcErrors : Nat := 0x240203
/-- 0x2402.04 NACKS (11, Table 11.14). -/
def kNacks : Nat := 0x240204
/-- 0x2402.05 RESENDS (11, Table 11.14). -/
def kResends : Nat := 0x240205
/-- 0x2402.06 UNREACHABLE (11, Table 11.14). -/
def kUnreachable : Nat := 0x240206
/-- 0x2402.07 DUP_DISCARDS (11, Table 11.14). -/
def kDupDiscards : Nat := 0x240207
/-- 0x2402.08 STALE_GEN (11, Table 11.14). -/
def kStaleGen : Nat := 0x240208
/-- 0x2402.09 CREDIT_TIMEOUTS (11, Table 11.14). -/
def kCreditTimeouts : Nat := 0x240209
/-- 0x2402.0A READ_BUSY (11, Table 11.14). -/
def kReadBusy : Nat := 0x24020A
/-- 0x2403.01 CMAP_SELECT (11, Table 11.15). -/
def kCmapSelect : Nat := 0x240301
/-- 0x2403.02 CMAP_RECORD (11, Table 11.15). -/
def kCmapRecord : Nat := 0x240302
/-- 0x2404.01 WEIGHT_SELECT (11, Table 11.16). -/
def kWeightSelect : Nat := 0x240401
/-- 0x2404.02 ROUTE_WEIGHTS (11, Table 11.16). -/
def kRouteWeights : Nat := 0x240402
/-- 0x2405.01 TELEM_ENABLE (11, Table 11.17). -/
def kTelemEnable : Nat := 0x240501
/-- 0x2405.02 TELEM_PORT (11, Table 11.17). -/
def kTelemPort : Nat := 0x240502
/-- 0x2405.03 TELEM_ADDR (11, Table 11.17). -/
def kTelemAddr : Nat := 0x240503
/-- 0x2405.04 TELEM_UDP_PORT (11, Table 11.17). -/
def kTelemUdpPort : Nat := 0x240504
/-- 0x2405.05 TELEM_SENT (11, Table 11.17). -/
def kTelemSent : Nat := 0x240505
/-- 0x2405.06 TELEM_DROPS (11, Table 11.17). -/
def kTelemDrops : Nat := 0x240506
/-- 0x1100.01 ROPE_STATE (12, Table 12.18). -/
def kRopeState : Nat := 0x110001
/-- 0x1100.02 PRESENT_NODES (12, Table 12.18). -/
def kPresentNodes : Nat := 0x110002
/-- 0x1100.03 LOST_NODES (12, Table 12.18). -/
def kLostNodes : Nat := 0x110003
/-- 0x1100.04 ADDR_MODE (12, Table 12.18). -/
def kAddrMode : Nat := 0x110004
/-- 0x1100.05 NODE_ADDRESS_STORED (12, Table 12.18). -/
def kNodeAddressStored : Nat := 0x110005
/-- 0x1100.06 NODE_ADDRESS (12, Table 12.18). -/
def kNodeAddress : Nat := 0x110006
/-- 0x1100.07 NODE_STATE (12, Table 12.18). -/
def kNodeState : Nat := 0x110007
/-- 0x1100.08 ADDR_CONFLICT (12, Table 12.18). -/
def kAddrConflict : Nat := 0x110008
/-- 0x1100.09 ROPE_CHECK_INTERVAL (12, Table 12.18). -/
def kRopeCheckInterval : Nat := 0x110009
/-- 0x1100.0A DICT_UDP_PORT (12, Table 12.18). -/
def kDictUdpPort : Nat := 0x11000A
/-- 0x1101.01 F0_LINK (12, Table 12.19). -/
def kF0Link : Nat := 0x110101
/-- 0x1101.02 F1_LINK (12, Table 12.19). -/
def kF1Link : Nat := 0x110102
/-- 0x1101.03 FIELD_ROLE (12, Table 12.19). -/
def kFieldRole : Nat := 0x110103
/-- 0x1101.04 LINK_DOWNS (12, Table 12.19). -/
def kLinkDowns : Nat := 0x110104
/-- 0x1101.05 ROPE_FWD_DROPS (12, Table 12.19). -/
def kRopeFwdDrops : Nat := 0x110105
/-- 0x1110.01 PCIE_STATE (12, Table 12.20). -/
def kPcieState : Nat := 0x111001
/-- 0x1110.02 PCIE_WIDTH (12, Table 12.20). -/
def kPcieWidth : Nat := 0x111002
/-- 0x1110.03 PCIE_SPEED (12, Table 12.20). -/
def kPcieSpeed : Nat := 0x111003
/-- 0x1110.04 NUM_VFS (12, Table 12.20). -/
def kNumVfs : Nat := 0x111004
/-- 0x1110.05 HEARTBEAT_TIMEOUT (12, Table 12.20). -/
def kHeartbeatTimeout : Nat := 0x111005
/-- 0x1110.06 HEARTBEAT_ARMED (12, Table 12.20). -/
def kHeartbeatArmed : Nat := 0x111006
/-- 0x1110.07 HOST_LOSSES (12, Table 12.20). -/
def kHostLosses : Nat := 0x111007
/-- 0x1110.08 HOST_DMA_ERRORS (12, Table 12.20). -/
def kHostDmaErrors : Nat := 0x111008
/-- 0x112p.01 PORT_ENABLE (12, Table 12.21). -/
def kPortEnable (n : Nat) : Nat := 0x112001 + n * 0x100
/-- 0x112p.02 PORT_MODE (12, Table 12.21). -/
def kPortMode (n : Nat) : Nat := 0x112002 + n * 0x100
/-- 0x112p.03 PORT_WIDTH (12, Table 12.21). -/
def kPortWidth (n : Nat) : Nat := 0x112003 + n * 0x100
/-- 0x112p.04 PORT_LANES (12, Table 12.21). -/
def kPortLanes (n : Nat) : Nat := 0x112004 + n * 0x100
/-- 0x112p.05 SUBPORT_ADDR (12, Table 12.21). -/
def kSubportAddr (n : Nat) : Nat := 0x112005 + n * 0x100
/-- 0x112p.06 PFC_PRIORITY (12, Table 12.21). -/
def kPfcPriority (n : Nat) : Nat := 0x112006 + n * 0x100
/-- 0x112p.07 LOAD_KEYS (12, Table 12.21). -/
def kLoadKeys (n : Nat) : Nat := 0x112007 + n * 0x100
/-- 0x112p.08 RETRAINS (12, Table 12.21). -/
def kRetrains (n : Nat) : Nat := 0x112008 + n * 0x100
/-- 0x112p.09 FEC_UNCORRECTED (12, Table 12.21). -/
def kFecUncorrected (n : Nat) : Nat := 0x112009 + n * 0x100
/-- 0x112p.0A RDMA_REFUSED (12, Table 12.21). -/
def kRdmaRefused (n : Nat) : Nat := 0x11200A + n * 0x100
/-- 0x112p.0B CM_REFUSED (12, Table 12.21). -/
def kCmRefused (n : Nat) : Nat := 0x11200B + n * 0x100
/-- 0x113n.01 PEER_NODE (12, Table 12.22). -/
def kPeerNode (n : Nat) : Nat := 0x113001 + n * 0x100
/-- 0x1200.01 OBJ_ENABLED (12, Table 12.23). -/
def kObjEnabled : Nat := 0x120001
/-- 0x1200.02 OBJ_DROPS_TOTAL (12, Table 12.23). -/
def kObjDropsTotal : Nat := 0x120002
/-- 0x12jj.01 OBJ_ENABLE (12, Table 12.23). -/
def kObjEnable (n : Nat) : Nat := 0x121001 + n * 0x100
/-- 0x12jj.02 OBJ_DEST (12, Table 12.23). -/
def kObjDest (n : Nat) : Nat := 0x121002 + n * 0x100
/-- 0x12jj.03 OBJ_PARTITION (12, Table 12.23). -/
def kObjPartition (n : Nat) : Nat := 0x121003 + n * 0x100
/-- 0x12jj.04 OBJ_GROUPS (12, Table 12.23). -/
def kObjGroups (n : Nat) : Nat := 0x121004 + n * 0x100
/-- 0x12jj.05 OBJ_QUEUE (12, Table 12.23). -/
def kObjQueue (n : Nat) : Nat := 0x121005 + n * 0x100
/-- 0x12jj.06 OBJ_PORT (12, Table 12.23). -/
def kObjPort (n : Nat) : Nat := 0x121006 + n * 0x100
/-- 0x12jj.07 OBJ_ADDR (12, Table 12.23). -/
def kObjAddr (n : Nat) : Nat := 0x121007 + n * 0x100
/-- 0x12jj.08 OBJ_UDP_PORT (12, Table 12.23). -/
def kObjUdpPort (n : Nat) : Nat := 0x121008 + n * 0x100
/-- 0x12jj.09 OBJ_IDLE_PERIOD (12, Table 12.23). -/
def kObjIdlePeriod (n : Nat) : Nat := 0x121009 + n * 0x100
/-- 0x12jj.0A OBJ_SENT (12, Table 12.23). -/
def kObjSent (n : Nat) : Nat := 0x12100A + n * 0x100
/-- 0x12jj.0B OBJ_DROPS (12, Table 12.23). -/
def kObjDrops (n : Nat) : Nat := 0x12100B + n * 0x100
/-- 0x1000.01 DEVICE_TYPE (13, Table 13.19). -/
def kDeviceType : Nat := 0x100001
/-- 0x1000.02 VENDOR_NAME (13, Table 13.19). -/
def kVendorName : Nat := 0x100002
/-- 0x1000.03 PRODUCT_NAME (13, Table 13.19). -/
def kProductName : Nat := 0x100003
/-- 0x1000.04 ORDERING_CODE (13, Table 13.19). -/
def kOrderingCode : Nat := 0x100004
/-- 0x1000.05 SERIAL_NUMBER (13, Table 13.19). -/
def kSerialNumber : Nat := 0x100005
/-- 0x1000.06 SILICON_STEP (13, Table 13.19). -/
def kSiliconStep : Nat := 0x100006
/-- 0x1000.07 FW_VERSION (13, Table 13.19). -/
def kFwVersion : Nat := 0x100007
/-- 0x1000.08 BOOT_ROM_VERSION (13, Table 13.19). -/
def kBootRomVersion : Nat := 0x100008
/-- 0x1000.09 MSG_VERSION (13, Table 13.19). -/
def kMsgVersion : Nat := 0x100009
/-- 0x1000.0A DICT_LAYOUT (13, Table 13.19). -/
def kDictLayout : Nat := 0x10000A
/-- 0x1000.0B MAC_BASE (13, Table 13.19). -/
def kMacBase : Nat := 0x10000B
/-- 0x2000.01 DEVICE_STATE (13, Table 13.20). -/
def kDeviceState : Nat := 0x200001
/-- 0x2000.02 RESET_CAUSE (13, Table 13.20). -/
def kResetCause : Nat := 0x200002
/-- 0x2000.03 RESET_COMMAND (13, Table 13.20). -/
def kResetCommand : Nat := 0x200003
/-- 0x2000.04 ESTOP_STATE (13, Table 13.20). -/
def kEstopState : Nat := 0x200004
/-- 0x2000.05 OUTPUT_ENABLE (13, Table 13.20). -/
def kOutputEnable : Nat := 0x200005
/-- 0x2000.06 PROFILE_REQUEST_WEST (13, Table 13.20). -/
def kProfileRequestWest : Nat := 0x200006
/-- 0x2000.07 PROFILE_REQUEST_EAST (13, Table 13.20). -/
def kProfileRequestEast : Nat := 0x200007
/-- 0x2000.08 PROFILE_WEST (13, Table 13.20). -/
def kProfileWest : Nat := 0x200008
/-- 0x2000.09 PROFILE_EAST (13, Table 13.20). -/
def kProfileEast : Nat := 0x200009
/-- 0x2000.0A UPTIME (13, Table 13.20). -/
def kUptime : Nat := 0x20000A
/-- 0x2001.01 LOCK_SET (13, Table 13.21). -/
def kLockSet : Nat := 0x200101
/-- 0x2001.02 LOCK_STATE (13, Table 13.21). -/
def kLockState : Nat := 0x200102
/-- 0x2002.01 STORE_COMMAND (13, Table 13.21). -/
def kStoreCommand : Nat := 0x200201
/-- 0x2002.02 STORE_STATE (13, Table 13.21). -/
def kStoreState : Nat := 0x200202
/-- 0x2002.03 STORE_SEQUENCE (13, Table 13.21). -/
def kStoreSequence : Nat := 0x200203
/-- 0x2002.04 STORE_ENTRIES (13, Table 13.21). -/
def kStoreEntries : Nat := 0x200204
/-- 0x2002.05 STORE_REJECTS (13, Table 13.21). -/
def kStoreRejects : Nat := 0x200205
/-- 0x2003.01 DICT_REQUESTS (13, Table 13.22). -/
def kDictRequests : Nat := 0x200301
/-- 0x2003.02 DICT_ERRORS (13, Table 13.22). -/
def kDictErrors : Nat := 0x200302
/-- 0x2003.03 DICT_DROPS (13, Table 13.22). -/
def kDictDrops : Nat := 0x200303
/-- 0x2003.04 VERSION_REFUSALS (13, Table 13.22). -/
def kVersionRefusals : Nat := 0x200304
/-- 0x2003.05 DUPLICATE_ANSWERS (13, Table 13.22). -/
def kDuplicateAnswers : Nat := 0x200305
/-- 0x2003.06 BUSY_REFUSALS (13, Table 13.22). -/
def kBusyRefusals : Nat := 0x200306
/-- 0x2003.07 LOCKED_WRITES (13, Table 13.22). -/
def kLockedWrites : Nat := 0x200307
/-- 0x2003.08 NOTICE_OVERFLOWS (13, Table 13.22). -/
def kNoticeOverflows : Nat := 0x200308
/-- 0x2003.09 TRIGGER_IGNORED (13, Table 13.22). -/
def kTriggerIgnored : Nat := 0x200309
/-- 0x2020.01 FP_RECORD (14, Table 14.8). -/
def kFpRecord : Nat := 0x202001
/-- 0x2020.02 FP_DIGEST (14, Table 14.8). -/
def kFpDigest : Nat := 0x202002
/-- 0x2020.03 PRESENT_CORES (14, Table 14.8). -/
def kPresentCores : Nat := 0x202003
/-- 0x2020.04 SPARE_CORES (14, Table 14.8). -/
def kSpareCores : Nat := 0x202004
/-- 0x2021.01–04 SLICE_SLOTS_0 to SLICE_SLOTS_3 (14, Table 14.9). -/
def kSliceSlots0 (i : Nat) : Nat := 0x202101 + i
/-- 0x2021.05 SLICE_MAP (14, Table 14.9). -/
def kSliceMap : Nat := 0x202105
/-- 0x2022.01 DEFECT_COUNT (14, Table 14.10). -/
def kDefectCount : Nat := 0x202201
/-- 0x2022.02 DEFECT_SELECT (14, Table 14.10). -/
def kDefectSelect : Nat := 0x202202
/-- 0x2022.03 DEFECT_ENTRY (14, Table 14.10). -/
def kDefectEntry : Nat := 0x202203
/-- 0x2022.04 DEFECT_LOG_FULL (14, Table 14.10). -/
def kDefectLogFull : Nat := 0x202204
/-- 0x2022.05 BOOT_COUNT (14, Table 14.10). -/
def kBootCount : Nat := 0x202205
/-- 0x2023.01 BRINGUP_STEP (14, Table 14.11). -/
def kBringupStep : Nat := 0x202301
/-- 0x2023.02 BRINGUP_TIME (14, Table 14.11). -/
def kBringupTime : Nat := 0x202302
/-- 0x2023.03 NEW_DEFECTS (14, Table 14.11). -/
def kNewDefects : Nat := 0x202303
/-- 0x2023.04 UNITS_RETURNED (14, Table 14.11). -/
def kUnitsReturned : Nat := 0x202304
/-- 0x2023.05 LICENCES_INSTALLED (14, Table 14.11). -/
def kLicencesInstalled : Nat := 0x202305
/-- 0x2023.06 LICENCES_INVALID (14, Table 14.11). -/
def kLicencesInvalid : Nat := 0x202306
/-- 0x2023.07 FEATURES_LICENSED (14, Table 14.11). -/
def kFeaturesLicensed : Nat := 0x202307
/-- 0x2024.01 RESETS_CORE (14, Table 14.12). -/
def kResetsCore : Nat := 0x202401
/-- 0x2024.02 RESETS_CLUSTER (14, Table 14.12). -/
def kResetsCluster : Nat := 0x202402
/-- 0x2024.03 RESETS_PARTITION (14, Table 14.12). -/
def kResetsPartition : Nat := 0x202403
/-- 0x2024.04 RESETS_REFUSED (14, Table 14.12). -/
def kResetsRefused : Nat := 0x202404
/-- 0x60cc.01 CLUSTER_PRESENT (14, Table 14.13). -/
def kClusterPresent (n : Nat) : Nat := 0x600001 + n * 0x100
/-- 0x60cc.02 SLOT_MAP (14, Table 14.13). -/
def kSlotMap (n : Nat) : Nat := 0x600002 + n * 0x100
/-- 0x60cc.03 SPARE_SLOT (14, Table 14.13). -/
def kSpareSlot (n : Nat) : Nat := 0x600003 + n * 0x100
/-- 0x60cc.04 SLOT_STATE (14, Table 14.13). -/
def kSlotState (n : Nat) : Nat := 0x600004 + n * 0x100
/-- 0x60cc.05 CLUSTER_UNITS (14, Table 14.13). -/
def kClusterUnits (n : Nat) : Nat := 0x600005 + n * 0x100
/-- 0x2200.01 POWER_STATE (15, Table 15.12). -/
def kPowerState : Nat := 0x220001
/-- 0x2200.02 POWER_TARGET (15, Table 15.12). -/
def kPowerTarget : Nat := 0x220002
/-- 0x2200.03 POWER_RESULT (15, Table 15.12). -/
def kPowerResult : Nat := 0x220003
/-- 0x2200.04 WAKE_GPIO (15, Table 15.12). -/
def kWakeGpio : Nat := 0x220004
/-- 0x2200.05 WAKE_EDGE (15, Table 15.12). -/
def kWakeEdge : Nat := 0x220005
/-- 0x2200.06 POWER_REFUSALS (15, Table 15.12). -/
def kPowerRefusals : Nat := 0x220006
/-- 0x2200.07 POWER_ABORTS (15, Table 15.12). -/
def kPowerAborts : Nat := 0x220007
/-- 0x2200.08 POWER_LOG (15, Table 15.12). -/
def kPowerLog : Nat := 0x220008
/-- 0x2200.09 ISLAND_GATING (15, Table 15.12). -/
def kIslandGating : Nat := 0x220009
/-- 0x2200.0A ISLANDS_GATED (15, Table 15.12). -/
def kIslandsGated : Nat := 0x22000A
/-- 0x2201.01 VOLT_WEST (15, Table 15.13). -/
def kVoltWest : Nat := 0x220101
/-- 0x2201.02 VOLT_EAST (15, Table 15.13). -/
def kVoltEast : Nat := 0x220102
/-- 0x2201.03 CEILING_WEST (15, Table 15.13). -/
def kCeilingWest : Nat := 0x220103
/-- 0x2201.04 CEILING_EAST (15, Table 15.13). -/
def kCeilingEast : Nat := 0x220104
/-- 0x2201.05 FABRIC_CLOCK_REQ_WEST (15, Table 15.13). -/
def kFabricClockReqWest : Nat := 0x220105
/-- 0x2201.06 FABRIC_CLOCK_REQ_EAST (15, Table 15.13). -/
def kFabricClockReqEast : Nat := 0x220106
/-- 0x2201.07 PROFILE_WAIT (15, Table 15.13). -/
def kProfileWait : Nat := 0x220107
/-- 0x2201.08 PROFILE_CHANGES (15, Table 15.13). -/
def kProfileChanges : Nat := 0x220108
/-- 0x2201.09 PROFILE_HOLD_SLIP (15, Table 15.13). -/
def kProfileHoldSlip : Nat := 0x220109
/-- 0x2202.01 TJ_WEST (15, Table 15.14). -/
def kTjWest : Nat := 0x220201
/-- 0x2202.02 TJ_EAST (15, Table 15.14). -/
def kTjEast : Nat := 0x220202
/-- 0x2202.03 TJ_IO (15, Table 15.14). -/
def kTjIo : Nat := 0x220203
/-- 0x2202.04 TJ_PEAK (15, Table 15.14). -/
def kTjPeak : Nat := 0x220204
/-- 0x2202.05 JUNCTION_TARGET (15, Table 15.14). -/
def kJunctionTarget : Nat := 0x220205
/-- 0x2202.06 THROTTLE_TEMP (15, Table 15.14). -/
def kThrottleTemp : Nat := 0x220206
/-- 0x2202.07 THROTTLE_EVENTS (15, Table 15.14). -/
def kThrottleEvents : Nat := 0x220207
/-- 0x2202.08 FW_CLOCK_REDUCTIONS (15, Table 15.14). -/
def kFwClockReductions : Nat := 0x220208
/-- 0x2202.09 TRIP_RECORD (15, Table 15.14). -/
def kTripRecord : Nat := 0x220209
/-- 0x2203.01 MODULE_POWER (15, Table 15.15). -/
def kModulePower : Nat := 0x220301
/-- 0x2203.02 POWER_WEST (15, Table 15.15). -/
def kPowerWest : Nat := 0x220302
/-- 0x2203.03 POWER_EAST (15, Table 15.15). -/
def kPowerEast : Nat := 0x220303
/-- 0x2203.04 ENERGY (15, Table 15.15). -/
def kEnergy : Nat := 0x220304
/-- 0x2203.05 POWER_LIMIT (15, Table 15.15). -/
def kPowerLimit : Nat := 0x220305
/-- 0x2203.06 POWER_LIMIT_ACTIVE (15, Table 15.15). -/
def kPowerLimitActive : Nat := 0x220306
/-- 0x2203.07 POWER_LIMIT_EVENTS (15, Table 15.15). -/
def kPowerLimitEvents : Nat := 0x220307
/-- 0x2204.01 COOLANT_STATE (15, Table 15.16). -/
def kCoolantState : Nat := 0x220401
/-- 0x2204.02 COOLANT_OK_GPIO (15, Table 15.16). -/
def kCoolantOkGpio : Nat := 0x220402
/-- 0x2204.03 COOLANT_OK_LEVEL (15, Table 15.16). -/
def kCoolantOkLevel : Nat := 0x220403
/-- 0x2204.04 COOLANT_REPORT (15, Table 15.16). -/
def kCoolantReport : Nat := 0x220404
/-- 0x2204.05 COOLANT_REPORT_TIMEOUT (15, Table 15.16). -/
def kCoolantReportTimeout : Nat := 0x220405
/-- 0x2204.06 RISE_RATE_LIMIT (15, Table 15.16). -/
def kRiseRateLimit : Nat := 0x220406
/-- 0x2204.07 COOLANT_LOSS_ACTION (15, Table 15.16). -/
def kCoolantLossAction : Nat := 0x220407
/-- 0x2204.08 COOLANT_LOSS_POWER (15, Table 15.16). -/
def kCoolantLossPower : Nat := 0x220408
/-- 0x2204.09 COOLANT_LOSSES (15, Table 15.16). -/
def kCoolantLosses : Nat := 0x220409
/-- 0x2204.0A LAST_FLOW (15, Table 15.16). -/
def kLastFlow : Nat := 0x22040A
/-- 0x2204.0B LAST_INLET (15, Table 15.16). -/
def kLastInlet : Nat := 0x22040B
/-- 0x2205.01 EMERGENCY_FLAGS (15, Table 15.17). -/
def kEmergencyFlags : Nat := 0x220501
/-- 0x2205.02 EMERGENCY_CLEAR_TIME (15, Table 15.17). -/
def kEmergencyClearTime : Nat := 0x220502
/-- 0x2205.03 EMERGENCIES (15, Table 15.17). -/
def kEmergencies : Nat := 0x220503
/-- 0x2206.01 PACK_CLUSTERS (15, Table 15.18). -/
def kPackClusters : Nat := 0x220601
/-- 0x2206.02 PACK_HALF (15, Table 15.18). -/
def kPackHalf : Nat := 0x220602
/-- 0x2206.03 PACK_MASK (15, Table 15.18). -/
def kPackMask : Nat := 0x220603
/-- 0x2300.01 FAULT_N_SEVERITY (16, Table 16.16). -/
def kFaultNSeverity : Nat := 0x230001
/-- 0x2300.02 AUTO_TAKEOVER (16, Table 16.16). -/
def kAutoTakeover : Nat := 0x230002
/-- 0x2300.03 CAIRN_INTERVAL (16, Table 16.16). -/
def kCairnInterval : Nat := 0x230003
/-- 0x2300.04 PEER_LOSS_PITCHES (16, Table 16.16). -/
def kPeerLossPitches : Nat := 0x230004
/-- 0x2300.05 LEDGER_DEPTH (16, Table 16.16). -/
def kLedgerDepth : Nat := 0x230005
/-- 0x2301.01 FAULT_ACTIVE (16, Table 16.17). -/
def kFaultActive : Nat := 0x230101
/-- 0x2301.02 FAULT_ACK (16, Table 16.17). -/
def kFaultAck : Nat := 0x230102
/-- 0x2301.03 FAULT_SEQ (16, Table 16.17). -/
def kFaultSeq : Nat := 0x230103
/-- 0x2301.04 FAULT_SELECT (16, Table 16.17). -/
def kFaultSelect : Nat := 0x230104
/-- 0x2301.05 FAULT_RECORD (16, Table 16.17). -/
def kFaultRecord : Nat := 0x230105
/-- 0x2301.06 FAULT_LOG_DROPS (16, Table 16.17). -/
def kFaultLogDrops : Nat := 0x230106
/-- 0x2301.07 EMERGENCIES_ISSUED (16, Table 16.17). -/
def kEmergenciesIssued : Nat := 0x230107
/-- 0x2301.08 EMERGENCY_SUPPRESSED (16, Table 16.17). -/
def kEmergencySuppressed : Nat := 0x230108
/-- 0x2302.01 TAKEOVERS (16, Table 16.18). -/
def kTakeovers : Nat := 0x230201
/-- 0x2302.02 COLD_TAKEOVERS (16, Table 16.18). -/
def kColdTakeovers : Nat := 0x230202
/-- 0x2302.03 CORES_LOST (16, Table 16.18). -/
def kCoresLost : Nat := 0x230203
/-- 0x2302.04 CORES_CATCHING_UP (16, Table 16.18). -/
def kCoresCatchingUp : Nat := 0x230204
/-- 0x2302.05 MISSED_PITCHES_PEAK (16, Table 16.18). -/
def kMissedPitchesPeak : Nat := 0x230205
/-- 0x2302.06 SLICE_TAKEOVERS (16, Table 16.18). -/
def kSliceTakeovers : Nat := 0x230206
/-- 0x2302.07 SLICES_LOST (16, Table 16.18). -/
def kSlicesLost : Nat := 0x230207
/-- 0x2302.08 SUNK_AT_FAILED (16, Table 16.18). -/
def kSunkAtFailed : Nat := 0x230208
/-- 0x2302.09 STORE_REBUILDS (16, Table 16.18). -/
def kStoreRebuilds : Nat := 0x230209
/-- 0x2302.0A STORE_LOSS (16, Table 16.18). -/
def kStoreLoss : Nat := 0x23020A
/-- 0x2302.0B CONTROLLER_RESTARTS (16, Table 16.18). -/
def kControllerRestarts : Nat := 0x23020B
/-- 0x2302.0C MGMT_RESTARTS (16, Table 16.18). -/
def kMgmtRestarts : Nat := 0x23020C
/-- 0x2302.0D LAST_TAKEOVER (16, Table 16.18). -/
def kLastTakeover : Nat := 0x23020D
/-- 0x2303.01 TEST_COMMAND (16, Table 16.19). -/
def kTestCommand : Nat := 0x230301
/-- 0x2303.02 TEST_RESULT (16, Table 16.19). -/
def kTestResult : Nat := 0x230302
/-- 0x231n.01 HOST_LOSS_POLICY (16, Table 16.20). -/
def kHostLossPolicy (n : Nat) : Nat := 0x231001 + n * 0x100
/-- 0x231n.02 CONTINUE_PITCHES (16, Table 16.20). -/
def kContinuePitches (n : Nat) : Nat := 0x231002 + n * 0x100
/-- 0x231n.03 HOST_LOSS_STATE (16, Table 16.20). -/
def kHostLossState (n : Nat) : Nat := 0x231003 + n * 0x100
/-- 0x232n.01 LEDGER_SELECT (16, Table 16.21). -/
def kLedgerSelect (n : Nat) : Nat := 0x232001 + n * 0x100
/-- 0x232n.02 LEDGER_RECORD (16, Table 16.21). -/
def kLedgerRecord (n : Nat) : Nat := 0x232002 + n * 0x100
/-- 0x232n.03 LEDGER_OLDEST (16, Table 16.21). -/
def kLedgerOldest (n : Nat) : Nat := 0x232003 + n * 0x100
/-- 0x232n.04 LEDGER_NEWEST (16, Table 16.21). -/
def kLedgerNewest (n : Nat) : Nat := 0x232004 + n * 0x100
/-- 0x232n.05 LEDGER_GAPS (16, Table 16.21). -/
def kLedgerGaps (n : Nat) : Nat := 0x232005 + n * 0x100
/-- 0x60cc.10 CATCHING_UP (16, Table 16.22). -/
def kCatchingUp (n : Nat) : Nat := 0x600010 + n * 0x100
/-- 0x60cc.11 LOST_CORES (16, Table 16.22). -/
def kLostCores (n : Nat) : Nat := 0x600011 + n * 0x100
/-- 0x60cc.12 CAIRN_AGE (16, Table 16.22). -/
def kCairnAge (n : Nat) : Nat := 0x600012 + n * 0x100
/-- 0x60cc.13 JOURNAL_COVER (16, Table 16.22). -/
def kJournalCover (n : Nat) : Nat := 0x600013 + n * 0x100
/-- 0x60cc.14 CORE_FAILURES (16, Table 16.22). -/
def kCoreFailures (n : Nat) : Nat := 0x600014 + n * 0x100
/-- 0x60cc.15 LOAD_PEAK (16, Table 16.22). -/
def kLoadPeak (n : Nat) : Nat := 0x600015 + n * 0x100
/-- 0x7000.01 LIFE_FAULTS (16, Table 16.23). -/
def kLifeFaults : Nat := 0x700001
/-- 0x7000.02 LIFE_TAKEOVERS (16, Table 16.23). -/
def kLifeTakeovers : Nat := 0x700002
/-- 0x7000.03 LIFE_CORES_LOST (16, Table 16.23). -/
def kLifeCoresLost : Nat := 0x700003
/-- 0x7000.04 LIFE_HOURS (16, Table 16.23). -/
def kLifeHours : Nat := 0x700004
/-- 0x7000.05 LIFE_THERMAL_TRIPS (16, Table 16.23). -/
def kLifeThermalTrips : Nat := 0x700005
/-- 0x2600.01 IDK_PUBLIC (17, Table 17.8). -/
def kIdkPublic : Nat := 0x260001
/-- 0x2600.02 IDK_CERT (17, Table 17.8). -/
def kIdkCert : Nat := 0x260002
/-- 0x2600.03 DEVICE_KEY_DIGEST (17, Table 17.8). -/
def kDeviceKeyDigest : Nat := 0x260003
/-- 0x2600.04 AK_PUBLIC (17, Table 17.8). -/
def kAkPublic : Nat := 0x260004
/-- 0x2600.05 AK_CERT (17, Table 17.8). -/
def kAkCert : Nat := 0x260005
/-- 0x2601.01 FW_RUNNING_SLOT (17, Table 17.9). -/
def kFwRunningSlot : Nat := 0x260101
/-- 0x2601.02 FW_MEASUREMENT (17, Table 17.9). -/
def kFwMeasurement : Nat := 0x260102
/-- 0x2601.03 FW_SVN (17, Table 17.9). -/
def kFwSvn : Nat := 0x260103
/-- 0x2601.04 SVN_FUSED (17, Table 17.9). -/
def kSvnFused : Nat := 0x260104
/-- 0x2601.05 SLOT_INFO_A (17, Table 17.9). -/
def kSlotInfoA : Nat := 0x260105
/-- 0x2601.06 SLOT_INFO_B (17, Table 17.9). -/
def kSlotInfoB : Nat := 0x260106
/-- 0x2601.07 FW_COMMAND (17, Table 17.9). -/
def kFwCommand : Nat := 0x260107
/-- 0x2601.08 FW_STATE (17, Table 17.9). -/
def kFwState : Nat := 0x260108
/-- 0x2601.09 FW_STAGE_ADDR (17, Table 17.9). -/
def kFwStageAddr : Nat := 0x260109
/-- 0x2601.0A FW_STAGE_LENGTH (17, Table 17.9). -/
def kFwStageLength : Nat := 0x26010A
/-- 0x2601.0B FW_CHUNK (17, Table 17.9). -/
def kFwChunk : Nat := 0x26010B
/-- 0x2601.0C FW_ERROR (17, Table 17.9). -/
def kFwError : Nat := 0x26010C
/-- 0x2601.0D ACTIVATION_WAIT (17, Table 17.9). -/
def kActivationWait : Nat := 0x26010D
/-- 0x2601.0E BOOT_MODE (17, Table 17.9). -/
def kBootMode : Nat := 0x26010E
/-- 0x2601.0F TRIAL_RESULT (17, Table 17.9). -/
def kTrialResult : Nat := 0x26010F
/-- 0x2602.01 AUTO_CONFIRM (17, Table 17.10). -/
def kAutoConfirm : Nat := 0x260201
/-- 0x2602.02 AUTO_SVN_COMMIT (17, Table 17.10). -/
def kAutoSvnCommit : Nat := 0x260202
/-- 0x2602.03 FW_KEYS_REVOKED (17, Table 17.10). -/
def kFwKeysRevoked : Nat := 0x260203
/-- 0x2602.04 JTAG_MODE (17, Table 17.10). -/
def kJtagMode : Nat := 0x260204
/-- 0x2602.05 DEBUG_CHALLENGE (17, Table 17.10). -/
def kDebugChallenge : Nat := 0x260205
/-- 0x2602.06 DEBUG_TOKEN (17, Table 17.10). -/
def kDebugToken : Nat := 0x260206
/-- 0x2602.07 DEBUG_STATE (17, Table 17.10). -/
def kDebugState : Nat := 0x260207
/-- 0x2603.01 LICENCE_INSTALL (17, Table 17.11). -/
def kLicenceInstall : Nat := 0x260301
/-- 0x2603.02 LICENCE_REMOVE (17, Table 17.11). -/
def kLicenceRemove : Nat := 0x260302
/-- 0x2603.03 LICENCE_SELECT (17, Table 17.11). -/
def kLicenceSelect : Nat := 0x260303
/-- 0x2603.04 LICENCE_INFO (17, Table 17.11). -/
def kLicenceInfo : Nat := 0x260304
/-- 0x2604.01 ATTEST_NONCE (17, Table 17.12). -/
def kAttestNonce : Nat := 0x260401
/-- 0x2604.02 ATTEST_COMMAND (17, Table 17.12). -/
def kAttestCommand : Nat := 0x260402
/-- 0x2604.03 ATTEST_STATE (17, Table 17.12). -/
def kAttestState : Nat := 0x260403
/-- 0x2604.04 ATTEST_QUOTE (17, Table 17.12). -/
def kAttestQuote : Nat := 0x260404
/-- 0x2604.05 QUOTES (17, Table 17.12). -/
def kQuotes : Nat := 0x260405

/-- Table 2.6 (02_pitches.md). -/
def rows2_6 : List EntryRow := [
  ⟨0x2100, 1, 1, 0x01, 0x01, .enum, .ro, 1, 1, 0, 2, 1, [], 0, 0, "TIME_STATE", ""⟩,
  ⟨0x2100, 1, 1, 0x02, 0x02, .u64, .ro, 8, 8, 0, 18446744073709551615, 1, [], 0, 0, "TIME_NOW", "ns"⟩,
  ⟨0x2100, 1, 1, 0x03, 0x03, .enum, .rw, 1, 1, 0, 4, 1, [], 4, 0, "TIME_PORT", ""⟩,
  ⟨0x2100, 1, 1, 0x04, 0x04, .u32, .rw, 4, 4, 1, 3600000, 1, [], 1000, 0, "HOLDOVER_LIMIT", "ms"⟩,
  ⟨0x2100, 1, 1, 0x05, 0x05, .u32, .rwc, 4, 4, 0, 4294967295, 1, [], 0, 0, "TIME_STEPS", ""⟩,
  ⟨0x2100, 1, 1, 0x06, 0x06, .i32, .ro, 4, 4, 0, 4294967295, 1, [], 0, 0, "TIME_OFFSET", "ns"⟩]

/-- Table 2.7 (02_pitches.md). -/
def rows2_7 : List EntryRow := [
  ⟨0x2101, 1, 1, 0x01, 0x01, .enum, .rw, 1, 1, 0, 1, 1, [], 0, 0, "CIN_EDGE", ""⟩,
  ⟨0x2101, 1, 1, 0x02, 0x02, .u32, .rw, 4, 4, 250, 10000, 1, [], 250, 0, "CIN_MIN_INTERVAL", "µs"⟩,
  ⟨0x2101, 1, 1, 0x03, 0x03, .u64, .ro, 8, 8, 0, 18446744073709551615, 1, [], 0, 0, "CIN_COUNT", ""⟩,
  ⟨0x2101, 1, 1, 0x04, 0x04, .u32, .rwc, 4, 4, 0, 4294967295, 1, [], 0, 0, "CIN_REJECTED", ""⟩,
  ⟨0x2101, 1, 1, 0x05, 0x05, .u64, .ro, 8, 8, 0, 18446744073709551615, 1, [], 0, 0, "CIN_LAST_TIME", "ns"⟩]

/-- Table 2.8 (02_pitches.md). -/
def rows2_8 : List EntryRow := [
  ⟨0x2102, 1, 1, 0x01, 0x01, .enum, .rw, 1, 1, 0, 1, 1, [], 0, 0, "QUAD_MODE", ""⟩,
  ⟨0x2102, 1, 1, 0x02, 0x02, .i32, .ro, 4, 4, 0, 4294967295, 1, [], 0, 0, "QUAD_POSITION", "counts"⟩,
  ⟨0x2102, 1, 1, 0x03, 0x03, .u32, .rwc, 4, 4, 0, 4294967295, 1, [], 0, 0, "QUAD_ERRORS", ""⟩,
  ⟨0x2102, 1, 1, 0x04, 0x04, .u16, .rw, 2, 2, 40, 1000, 1, [], 40, 0, "QUAD_FILTER", "ns"⟩]

/-- Table 2.9 (02_pitches.md). -/
def rows2_9 : List EntryRow := [
  ⟨0x2110, 1, 8, 0x01, 0x01, .enum, .rw, 1, 1, 0, 4, 1, [], 0, 0, "CADENCE_SOURCE", ""⟩,
  ⟨0x2110, 1, 8, 0x02, 0x02, .u32, .rw, 4, 4, 250, 10000, 1, [], 1000, 0, "PERIOD", "µs"⟩,
  ⟨0x2110, 1, 8, 0x03, 0x03, .u64, .rw, 8, 8, 0, 18446744073709551615, 1, [], 0, 0, "ORIGIN_TIME", "ns"⟩,
  ⟨0x2110, 1, 8, 0x04, 0x04, .u32, .rw, 4, 4, 1, 16777215, 1, [], 0, 0, "QUAD_COUNTS", "counts"⟩,
  ⟨0x2110, 1, 8, 0x05, 0x05, .u32, .rw, 4, 4, 20, 2500, 1, [], 40, 0, "GUARD", "µs"⟩,
  ⟨0x2110, 1, 8, 0x06, 0x06, .enum, .rw, 1, 1, 0, 2, 1, [], 2, 0, "OVERRUN_POLICY", ""⟩,
  ⟨0x2110, 1, 8, 0x07, 0x07, .u32, .rw, 4, 4, 0, 10000, 1, [], 100, 0, "STRETCH_LIMIT", "µs"⟩,
  ⟨0x2110, 1, 8, 0x08, 0x08, .u16, .rw, 2, 2, 1, 65535, 1, [], 1000, 0, "EPOCH_LENGTH", "pitches"⟩,
  ⟨0x2110, 1, 8, 0x09, 0x09, .u64, .rw, 8, 8, 0, 281474976710655, 1, [], 0, 0, "EPOCH_ORIGIN", "pitch"⟩,
  ⟨0x2110, 1, 8, 0x0A, 0x0A, .u64, .rw, 8, 8, 0, 281474976710655, 1, [], 0, 0, "PITCH_BASE", "pitch"⟩,
  ⟨0x2110, 1, 8, 0x0B, 0x0B, .u32, .rw, 4, 4, 0, 9980, 1, [], 100, 0, "SLACK_TARGET", "µs"⟩,
  ⟨0x2110, 1, 8, 0x0C, 0x0C, .u8, .rw, 1, 1, 50, 95, 1, [], 75, 0, "WATCH_FRACTION", "%"⟩,
  ⟨0x2110, 1, 8, 0x0D, 0x0D, .bool, .rw, 1, 1, 0, 1, 1, [], 1, 0, "DEADLINE_ADAPT", ""⟩,
  ⟨0x2110, 1, 8, 0x0E, 0x0E, .u16, .rw, 2, 2, 2, 1000, 1, [], 10, 0, "CADENCE_TIMEOUT", "periods"⟩,
  ⟨0x2110, 1, 8, 0x0F, 0x0F, .enum, .rw, 1, 1, 0, 1, 1, [], 0, 0, "CADENCE_LOSS_ACTION", ""⟩]

/-- Table 2.10 (02_pitches.md). -/
def rows2_10 : List EntryRow := [
  ⟨0x2120, 1, 8, 0x01, 0x01, .u64, .ro, 8, 8, 0, 18446744073709551615, 1, [], 0, 0, "PITCH_NUMBER", "pitch"⟩,
  ⟨0x2120, 1, 8, 0x02, 0x02, .u64, .ro, 8, 8, 0, 18446744073709551615, 1, [], 0, 0, "EPOCH_NUMBER", "epoch"⟩,
  ⟨0x2120, 1, 8, 0x03, 0x03, .enum, .ro, 1, 1, 0, 5, 1, [], 0, 0, "PITCH_PHASE", ""⟩,
  ⟨0x2120, 1, 8, 0x04, 0x04, .enum, .ro, 1, 1, 0, 3, 1, [], 0, 0, "CADENCE_STATE", ""⟩,
  ⟨0x2120, 1, 8, 0x05, 0x05, .u64, .ro, 8, 8, 0, 18446744073709551615, 1, [], 0, 0, "LAST_OPEN_TIME", "ns"⟩,
  ⟨0x2120, 1, 8, 0x06, 0x06, .i32, .ro, 4, 4, 0, 4294967295, 1, [], 0, 0, "LAST_SLACK", "ns"⟩,
  ⟨0x2120, 1, 8, 0x07, 0x07, .i32, .rwc, 4, 4, 0, 4294967295, 1, [], 2147483647, 0, "MIN_SLACK", "ns"⟩,
  ⟨0x2120, 1, 8, 0x08, 0x08, .i32, .ro, 4, 4, 0, 4294967295, 1, [], 0, 0, "SLACK_WEST", "ns"⟩,
  ⟨0x2120, 1, 8, 0x09, 0x09, .i32, .ro, 4, 4, 0, 4294967295, 1, [], 0, 0, "SLACK_EAST", "ns"⟩,
  ⟨0x2120, 1, 8, 0x0A, 0x0A, .u32, .rwc, 4, 4, 0, 4294967295, 1, [], 0, 0, "OVERRUN_COUNT", ""⟩,
  ⟨0x2120, 1, 8, 0x0B, 0x0B, .u32, .rwc, 4, 4, 0, 4294967295, 1, [], 0, 0, "TRUNCATE_COUNT", ""⟩,
  ⟨0x2120, 1, 8, 0x0C, 0x0C, .u64, .rwc, 8, 8, 0, 18446744073709551615, 1, [], 0, 0, "EVENTS_TRUNCATED", "events"⟩,
  ⟨0x2120, 1, 8, 0x0D, 0x0D, .u64, .rwc, 8, 8, 0, 18446744073709551615, 1, [], 0, 0, "SPIKES_WITHHELD", "events"⟩,
  ⟨0x2120, 1, 8, 0x0E, 0x0E, .u32, .ro, 4, 4, 0, 4294967295, 1, [], 0, 0, "SLIP_LAST", "ns"⟩,
  ⟨0x2120, 1, 8, 0x0F, 0x0F, .u64, .rwc, 8, 8, 0, 18446744073709551615, 1, [], 0, 0, "SLIP_TOTAL", "ns"⟩,
  ⟨0x2120, 1, 8, 0x10, 0x10, .u32, .rwc, 4, 4, 0, 4294967295, 1, [], 0, 0, "TICKS_MERGED", ""⟩,
  ⟨0x2120, 1, 8, 0x11, 0x11, .u32, .rwc, 4, 4, 0, 4294967295, 1, [], 0, 0, "VOLTAGE_RAISES", ""⟩,
  ⟨0x2120, 1, 8, 0x12, 0x12, .bool, .rwc, 1, 1, 0, 1, 1, [], 0, 0, "TIME_LOST", ""⟩]

/-- Table 4.12 (04_synaptic_arithmetic.md). -/
def rows4_12 : List EntryRow := [
  ⟨0x3040, 256, 8, 0x01, 0x01, .enum, .rw, 1, 1, 0, 2, 1, [], 0, 0, "GUARD_ACTION", ""⟩,
  ⟨0x3040, 256, 8, 0x02, 0x02, .u16, .rw, 2, 2, 1, 65535, 1, [], 64, 0, "GUARD_WINDOW", "pitches"⟩,
  ⟨0x3040, 256, 8, 0x03, 0x03, .u16, .rw, 2, 2, 0, 10000, 1, [], 100, 0, "SAT_FRACTION", "0.01 %"⟩,
  ⟨0x3040, 256, 8, 0x04, 0x04, .u16, .rw, 2, 2, 0, 10000, 1, [], 5000, 0, "UNDER_FRACTION", "0.01 %"⟩,
  ⟨0x3040, 256, 8, 0x05, 0x05, .u32, .rw, 4, 4, 1, 4294967295, 1, [], 1024, 0, "GUARD_MIN_ACTIVE", "position-pitches"⟩,
  ⟨0x3040, 256, 8, 0x06, 0x06, .u16, .rw, 2, 2, 0, 4095, 1, [], 0, 0, "GROUP_SELECT", ""⟩]

/-- Table 4.13 (04_synaptic_arithmetic.md). -/
def rows4_13 : List EntryRow := [
  ⟨0x3041, 256, 8, 0x01, 0x01, .u32, .rwc, 4, 4, 0, 4294967295, 1, [], 0, 0, "GUARD_FLAGS", ""⟩,
  ⟨0x3041, 256, 8, 0x02, 0x02, .u32, .rwc, 4, 4, 0, 4294967295, 1, [], 0, 0, "GROUPS_SWITCHED", ""⟩,
  ⟨0x3041, 256, 8, 0x03, 0x03, .u16, .ro, 2, 2, 0, 65535, 1, [], 0, 0, "GROUPS_NOFIT", ""⟩,
  ⟨0x3041, 256, 8, 0x04, 0x04, .u64, .rwc, 8, 8, 0, 18446744073709551615, 1, [], 0, 0, "CLAMPS", ""⟩,
  ⟨0x3041, 256, 8, 0x05, 0x05, .u8, .ro, 1, 1, 0, 255, 1, [], 0, 0, "GROUP_ACTIVE_SET", ""⟩,
  ⟨0x3041, 256, 8, 0x06, 0x06, .enum, .ro, 1, 1, 0, 1, 1, [], 0, 0, "GROUP_STATE", ""⟩,
  ⟨0x3041, 256, 8, 0x07, 0x07, .u16, .ro, 2, 2, 0, 65535, 1, [], 0, 0, "GROUP_SAT", "0.01 %"⟩,
  ⟨0x3041, 256, 8, 0x08, 0x08, .u16, .ro, 2, 2, 0, 65535, 1, [], 0, 0, "GROUP_UNDER", "0.01 %"⟩,
  ⟨0x3041, 256, 8, 0x09, 0x09, .u64, .ro, 8, 8, 0, 18446744073709551615, 1, [], 0, 0, "GROUP_LAST_SWITCH", "pitch"⟩]

/-- Table 5.9 (05_event_delivery.md). -/
def rows5_9 : List EntryRow := [
  ⟨0x3050, 256, 8, 0x01, 0x01, .enum, .rw, 1, 1, 0, 1, 1, [], 0, 0, "LATE_ACTION", ""⟩,
  ⟨0x3050, 256, 8, 0x02, 0x02, .u8, .rw, 1, 1, 0, 4, 1, [], 4, 0, "PREFETCH_DEPTH", "pitches"⟩,
  ⟨0x3050, 256, 8, 0x03, 0x03, .bool, .rw, 1, 1, 0, 1, 1, [], 1, 0, "CACHE_ADAPT", ""⟩,
  ⟨0x3050, 256, 8, 0x04, 0x04, .u16, .rw, 2, 2, 0, 128, 1, [], 64, 0, "CACHE_RESIDENT_LIMIT", "KiB"⟩,
  ⟨0x3050, 256, 8, 0x05, 0x05, .u16, .rw, 2, 2, 0, 65535, 1, [], 0, 0, "LOCAL_PEER_ID", ""⟩]

/-- Table 5.10 (05_event_delivery.md). -/
def rows5_10 : List EntryRow := [
  ⟨0x3051, 256, 8, 0x01, 0x01, .u64, .rwc, 8, 8, 0, 18446744073709551615, 1, [], 0, 0, "EVENTS_SENT", "events"⟩,
  ⟨0x3051, 256, 8, 0x02, 0x02, .u64, .rwc, 8, 8, 0, 18446744073709551615, 1, [], 0, 0, "EVENTS_DELIVERED", "events"⟩,
  ⟨0x3051, 256, 8, 0x03, 0x03, .u64, .rwc, 8, 8, 0, 18446744073709551615, 1, [], 0, 0, "OVERFLOW_RECORDS", "events"⟩,
  ⟨0x3051, 256, 8, 0x04, 0x04, .u64, .rwc, 8, 8, 0, 18446744073709551615, 1, [], 0, 0, "DROP_BOBBIN_FULL", "events"⟩,
  ⟨0x3051, 256, 8, 0x05, 0x05, .u64, .rwc, 8, 8, 0, 18446744073709551615, 1, [], 0, 0, "DROP_LDS_FULL", "events"⟩,
  ⟨0x3051, 256, 8, 0x06, 0x06, .u32, .rwc, 4, 4, 0, 4294967295, 1, [], 0, 0, "RECORD_FAULTS", "events"⟩,
  ⟨0x3051, 256, 8, 0x07, 0x07, .u16, .rwc, 2, 2, 0, 65535, 1, [], 0, 0, "RING_PEAK", "segments"⟩,
  ⟨0x3051, 256, 8, 0x08, 0x08, .u32, .rwc, 4, 4, 0, 4294967295, 1, [], 0, 0, "LDS_PEAK", "records"⟩,
  ⟨0x3051, 256, 8, 0x09, 0x09, .u64, .rwc, 8, 8, 0, 18446744073709551615, 1, [], 0, 0, "CACHE_HITS", ""⟩,
  ⟨0x3051, 256, 8, 0x0A, 0x0A, .u64, .rwc, 8, 8, 0, 18446744073709551615, 1, [], 0, 0, "CACHE_MISSES", ""⟩,
  ⟨0x3051, 256, 8, 0x0B, 0x0B, .u64, .rwc, 8, 8, 0, 18446744073709551615, 1, [], 0, 0, "PREFETCH_DEFERRED", ""⟩,
  ⟨0x3051, 256, 8, 0x0C, 0x0C, .u64, .rwc, 8, 8, 0, 18446744073709551615, 1, [], 0, 0, "BYPASS_ROWS", "rows"⟩,
  ⟨0x3051, 256, 8, 0x0D, 0x0D, .u64, .rwc, 8, 8, 0, 18446744073709551615, 1, [], 0, 0, "REMOTE_SENT", "events"⟩,
  ⟨0x3051, 256, 8, 0x0E, 0x0E, .u64, .rwc, 8, 8, 0, 18446744073709551615, 1, [], 0, 0, "REMOTE_RECEIVED", "events"⟩,
  ⟨0x3051, 256, 8, 0x0F, 0x0F, .u64, .rwc, 8, 8, 0, 18446744073709551615, 1, [], 0, 0, "DROP_LATE", "events"⟩,
  ⟨0x3051, 256, 8, 0x10, 0x10, .u64, .rwc, 8, 8, 0, 18446744073709551615, 1, [], 0, 0, "LATE_DEFERRED", "events"⟩,
  ⟨0x3051, 256, 8, 0x11, 0x11, .u64, .rwc, 8, 8, 0, 18446744073709551615, 1, [], 0, 0, "DROP_EARLY", "events"⟩,
  ⟨0x3051, 256, 8, 0x12, 0x12, .u64, .rwc, 8, 8, 0, 18446744073709551615, 1, [], 0, 0, "DROP_REMOTE", "events"⟩]

/-- Table 5.11 (05_event_delivery.md). -/
def rows5_11 : List EntryRow := [
  ⟨0x3052, 256, 8, 0x01, 0x40, .blob, .rw, 24, 24, 0, 0, 1, [], 0, 0, "PEER_", ""⟩]

/-- Table 6.14 (06_stations_and_tiles.md). -/
def rows6_14 : List EntryRow := [
  ⟨0x3000, 256, 8, 0x01, 0x01, .enum, .wo, 1, 1, 1, 8, 1, [], 0, 0, "PARTITION_COMMAND", ""⟩,
  ⟨0x3000, 256, 8, 0x02, 0x02, .blob, .rw, 16, 16, 0, 0, 1, [], 0, 0, "CLUSTER_MASK", ""⟩,
  ⟨0x3000, 256, 8, 0x03, 0x03, .u8, .rw, 1, 1, 0, 1, 1, [], 0, 0, "IMAGE_SLOT", ""⟩,
  ⟨0x3000, 256, 8, 0x04, 0x04, .u64, .rw, 8, 8, 0, 18446744073709551615, 32, [], 0, 0, "IMAGE_ADDR", "byte"⟩,
  ⟨0x3000, 256, 8, 0x05, 0x05, .u64, .rw, 8, 8, 0, 18446744073709551615, 32, [], 0, 0, "IMAGE_LENGTH", "byte"⟩,
  ⟨0x3000, 256, 8, 0x06, 0x06, .u8, .rw, 1, 1, 5, 100, 1, [], 25, 0, "LOAD_SHARE", "%"⟩]

/-- Table 6.15 (06_stations_and_tiles.md). -/
def rows6_15 : List EntryRow := [
  ⟨0x3001, 256, 8, 0x01, 0x01, .enum, .ro, 1, 1, 0, 4, 1, [], 0, 0, "PART_STATE", ""⟩,
  ⟨0x3001, 256, 8, 0x02, 0x02, .u8, .ro, 1, 1, 0, 255, 1, [], 255, 0, "ACTIVE_SLOT", ""⟩,
  ⟨0x3001, 256, 8, 0x03, 0x03, .enum, .ro, 1, 1, 0, 4, 1, [], 0, 0, "SLOT0_STATE", ""⟩,
  ⟨0x3001, 256, 8, 0x04, 0x04, .enum, .ro, 1, 1, 0, 4, 1, [], 0, 0, "SLOT1_STATE", ""⟩,
  ⟨0x3001, 256, 8, 0x05, 0x05, .u32, .ro, 4, 4, 0, 4294967295, 1, [], 0, 0, "LOAD_ERROR", ""⟩,
  ⟨0x3001, 256, 8, 0x06, 0x06, .u64, .ro, 8, 8, 0, 18446744073709551615, 1, [], 0, 0, "LOAD_PROGRESS", "byte"⟩,
  ⟨0x3001, 256, 8, 0x07, 0x07, .blob, .ro, 32, 32, 0, 0, 1, [], 0, 0, "IMAGE_DIGEST", ""⟩,
  ⟨0x3001, 256, 8, 0x08, 0x08, .u32, .ro, 4, 4, 0, 4294967295, 1, [], 0, 0, "SLOT_FLAGS", ""⟩,
  ⟨0x3001, 256, 8, 0x09, 0x09, .u64, .ro, 8, 8, 0, 18446744073709551615, 1, [], 0, 0, "DISABLE_PITCH", "pitch"⟩,
  ⟨0x3001, 256, 8, 0x0A, 0x0A, .u64, .rwc, 8, 8, 0, 18446744073709551615, 1, [], 0, 0, "ABSORB_TOTAL", "events"⟩]

/-- Table 6.16 (06_stations_and_tiles.md). -/
def rows6_16 : List EntryRow := [
  ⟨0x3002, 256, 8, 0x01, 0x01, .u32, .rw, 4, 4, 0, 4294967295, 1, [], 0, 0, "STATION_ENABLE", ""⟩,
  ⟨0x3002, 256, 8, 0x02, 0x02, .u32, .wo, 4, 4, 0, 4294967295, 1, [], 0, 0, "STATION_DISABLE_NOW", ""⟩]

/-- Table 6.17 (06_stations_and_tiles.md). -/
def rows6_17 : List EntryRow := [
  ⟨0x3003, 256, 8, 0x01, 0x01, .enum, .ro, 1, 1, 0, 1, 1, [], 0, 0, "CORE_MODE", ""⟩,
  ⟨0x3003, 256, 8, 0x02, 0x02, .u16, .rw, 2, 2, 100, 500, 1, [], 400, 0, "WOE_CLOCK", "MHz"⟩,
  ⟨0x3003, 256, 8, 0x03, 0x03, .u16, .ro, 2, 2, 0, 65535, 1, [], 0, 0, "WOE_CLOCK_ACTUAL", "MHz"⟩]

/-- Table 6.18 (06_stations_and_tiles.md). -/
def rows6_18 : List EntryRow := [
  ⟨0x3004, 256, 8, 0x01, 0x01, .u32, .rw, 4, 4, 0, 4294967295, 1, [], 0, 0, "NA_TARGET", ""⟩,
  ⟨0x3004, 256, 8, 0x02, 0x02, .blob, .rw, 8, 8, 0, 0, 1, [], 0, 0, "NA_STATE", ""⟩,
  ⟨0x3004, 256, 8, 0x03, 0x03, .blob, .rw, 32, 32, 0, 0, 1, [], 0, 0, "NA_POP_RECORD", ""⟩,
  ⟨0x3004, 256, 8, 0x04, 0x04, .blob, .rw, 64, 64, 0, 0, 1, [], 0, 0, "NA_RESCALE_RECORD", ""⟩,
  ⟨0x3004, 256, 8, 0x05, 0x05, .blob, .rw, 4096, 4096, 0, 0, 1, [], 0, 0, "NA_OUTLIER_MAP", ""⟩,
  ⟨0x3004, 256, 8, 0x06, 0x06, .enum, .ro, 1, 1, 0, 3, 1, [], 0, 0, "NA_STATUS", ""⟩]

/-- Table 6.19 (06_stations_and_tiles.md). -/
def rows6_19 : List EntryRow := [
  ⟨0x3005, 256, 8, 0x01, 0x01, .u16, .rw, 2, 2, 0, 2047, 1, [], 0, 0, "CORE_SELECT", ""⟩,
  ⟨0x3005, 256, 8, 0x02, 0x02, .blob, .ro, 192, 192, 0, 0, 1, [], 0, 0, "CORE_COUNTERS", ""⟩,
  ⟨0x3005, 256, 8, 0x03, 0x03, .u8, .wo, 1, 1, 1, 2, 1, [], 0, 0, "COUNTER_CLEAR", ""⟩]

/-- Table 7.10 (07_plasticity.md). -/
def rows7_10 : List EntryRow := [
  ⟨0x3060, 256, 8, 0x01, 0x01, .u8, .rw, 1, 1, 1, 100, 1, [], 10, 0, "APPLY_SHARE", "%"⟩,
  ⟨0x3060, 256, 8, 0x02, 0x02, .bool, .rw, 1, 1, 0, 1, 1, [], 1, 0, "KEEP_RESTORE", ""⟩,
  ⟨0x3060, 256, 8, 0x03, 0x03, .u16, .rw, 2, 2, 1, 65535, 1, [0], 0, 0, "KEEP_AUTO_EPOCHS", "epochs"⟩,
  ⟨0x3060, 256, 8, 0x04, 0x04, .u32, .rw, 4, 4, 1, 86400, 1, [], 60, 0, "KEEP_MIN_INTERVAL", "s"⟩,
  ⟨0x3060, 256, 8, 0x05, 0x05, .u16, .rw, 2, 2, 0, 4094, 1, [], 0, 0, "PROJ_SELECT", ""⟩]

/-- Table 7.11 (07_plasticity.md). -/
def rows7_11 : List EntryRow := [
  ⟨0x3061, 256, 8, 0x01, 0x01, .enum, .ro, 1, 1, 0, 2, 1, [], 0, 0, "APPLY_STATE", ""⟩,
  ⟨0x3061, 256, 8, 0x02, 0x02, .u32, .rwc, 4, 4, 0, 4294967295, 1, [], 0, 0, "APPLY_COUNT", ""⟩,
  ⟨0x3061, 256, 8, 0x03, 0x03, .u32, .rwc, 4, 4, 0, 4294967295, 1, [], 0, 0, "APPLY_SKIPPED", ""⟩,
  ⟨0x3061, 256, 8, 0x04, 0x04, .u32, .rwc, 4, 4, 0, 4294967295, 1, [], 0, 0, "APPLY_ABANDONED", ""⟩,
  ⟨0x3061, 256, 8, 0x05, 0x05, .u64, .rwc, 8, 8, 0, 18446744073709551615, 1, [], 0, 0, "TRACE_PRE_EVENTS", "events"⟩,
  ⟨0x3061, 256, 8, 0x06, 0x06, .u64, .rwc, 8, 8, 0, 18446744073709551615, 1, [], 0, 0, "TRACE_POST_SPIKES", "events"⟩,
  ⟨0x3061, 256, 8, 0x07, 0x07, .u32, .rwc, 4, 4, 0, 4294967295, 1, [], 0, 0, "UPDATE_SATURATIONS", ""⟩,
  ⟨0x3061, 256, 8, 0x08, 0x08, .u32, .rwc, 4, 4, 0, 4294967295, 1, [], 0, 0, "POST_RANGE_MISSES", ""⟩,
  ⟨0x3061, 256, 8, 0x09, 0x09, .u64, .rwc, 8, 8, 0, 18446744073709551615, 1, [], 0, 0, "WEIGHT_CLAMPS", "synapses"⟩,
  ⟨0x3061, 256, 8, 0x0A, 0x0A, .u64, .rwc, 8, 8, 0, 18446744073709551615, 1, [], 0, 0, "WEIGHTS_CHANGED", "synapses"⟩,
  ⟨0x3061, 256, 8, 0x0B, 0x0B, .bool, .ro, 1, 1, 0, 1, 1, [], 0, 0, "LICENSED", ""⟩,
  ⟨0x3061, 256, 8, 0x0C, 0x0C, .u16, .ro, 2, 2, 0, 65535, 1, [], 0, 0, "PROJ_GENERATION", ""⟩,
  ⟨0x3061, 256, 8, 0x0D, 0x0D, .u8, .ro, 1, 1, 0, 255, 1, [], 0, 0, "PROJ_OPEN_BANK", ""⟩,
  ⟨0x3061, 256, 8, 0x0E, 0x0E, .u64, .ro, 8, 8, 0, 18446744073709551615, 1, [], 0, 0, "PROJ_LAST_SWITCH", "pitch"⟩]

/-- Table 7.12 (07_plasticity.md). -/
def rows7_12 : List EntryRow := [
  ⟨0x3062, 256, 8, 0x01, 0x01, .enum, .wo, 1, 1, 1, 2, 1, [], 0, 0, "KEEP_COMMAND", ""⟩,
  ⟨0x3062, 256, 8, 0x02, 0x02, .enum, .ro, 1, 1, 0, 3, 1, [], 0, 0, "KEEP_STATE", ""⟩,
  ⟨0x3062, 256, 8, 0x03, 0x03, .u32, .ro, 4, 4, 0, 4294967295, 1, [], 0, 0, "KEEP_SEQUENCE", ""⟩,
  ⟨0x3062, 256, 8, 0x04, 0x04, .u32, .ro, 4, 4, 0, 4294967295, 1, [], 0, 0, "KEEP_BYTES", "byte"⟩,
  ⟨0x3062, 256, 8, 0x05, 0x05, .blob, .ro, 32, 32, 0, 0, 1, [], 0, 0, "KEEP_DIGEST", ""⟩,
  ⟨0x3062, 256, 8, 0x06, 0x06, .u64, .ro, 8, 8, 0, 18446744073709551615, 1, [], 0, 0, "KEEP_COMMIT_PITCH", "pitch"⟩,
  ⟨0x3062, 256, 8, 0x07, 0x07, .enum, .ro, 1, 1, 0, 4, 1, [], 0, 0, "KEEP_RESTORE_RESULT", ""⟩,
  ⟨0x3062, 256, 8, 0x08, 0x08, .u32, .ro, 4, 4, 0, 4294967295, 1, [], 0, 0, "KEEP_COMMITS", ""⟩]

/-- Table 8.9 (08_converters.md). -/
def rows8_9 : List EntryRow := [
  ⟨0x4000, 1, 1, 0x01, 0x01, .u32, .ro, 4, 4, 0, 4294967295, 1, [], 0, 0, "STREAMS_PRESENT", ""⟩,
  ⟨0x4000, 1, 1, 0x02, 0x02, .u32, .ro, 4, 4, 0, 4294967295, 1, [], 0, 0, "STREAMS_RUNNING", ""⟩,
  ⟨0x4000, 1, 1, 0x03, 0x03, .u32, .ro, 4, 4, 0, 4294967295, 1, [], 0, 0, "STREAMS_LOST", ""⟩]

/-- Table 8.10 (08_converters.md). -/
def rows8_10 : List EntryRow := [
  ⟨0x4010, 1, 32, 0x01, 0x01, .bool, .rw, 1, 1, 0, 1, 1, [], 0, 0, "STREAM_ENABLE", ""⟩,
  ⟨0x4010, 1, 32, 0x02, 0x02, .bool, .wo, 1, 1, 0, 1, 1, [], 0, 0, "STREAM_DISABLE_NOW", ""⟩,
  ⟨0x4010, 1, 32, 0x03, 0x03, .enum, .rw, 1, 1, 0, 4, 1, [], 0, 0, "SOURCE", ""⟩,
  ⟨0x4010, 1, 32, 0x04, 0x04, .enum, .rw, 1, 1, 0, 1, 1, [], 0, 0, "ETH_PORT", ""⟩,
  ⟨0x4010, 1, 32, 0x05, 0x05, .u16, .rw, 2, 2, 1024, 65535, 1, [], 47200, 1, "UDP_PORT", ""⟩,
  ⟨0x4010, 1, 32, 0x06, 0x06, .u32, .ro, 4, 4, 0, 4294967295, 1, [], 0, 0, "STREAM_QPN", ""⟩,
  ⟨0x4010, 1, 32, 0x07, 0x07, .enum, .rw, 1, 1, 0, 1, 1, [], 0, 0, "STALE_ACTION", ""⟩,
  ⟨0x4010, 1, 32, 0x08, 0x08, .u16, .rw, 2, 2, 1, 65535, 1, [], 20, 0, "STREAM_TIMEOUT", "pitches"⟩,
  ⟨0x4010, 1, 32, 0x09, 0x09, .u32, .rw, 4, 4, 1, 10000000, 1, [0], 0, 0, "MAX_AGE", "µs"⟩,
  ⟨0x4010, 1, 32, 0x0A, 0x0A, .u32, .rw, 4, 4, 1, 4294967295, 1, [], 64, 0, "ENC_MIN_ACTIVE", "channel-pitches"⟩,
  ⟨0x4010, 1, 32, 0x0B, 0x0B, .blob, .wo, 16, 1040, 0, 0, 1, [], 0, 0, "STREAM_SAMPLE", ""⟩]

/-- Table 8.11 (08_converters.md). -/
def rows8_11 : List EntryRow := [
  ⟨0x4040, 1, 32, 0x01, 0x01, .enum, .ro, 1, 1, 0, 4, 1, [], 0, 0, "STREAM_STATE", ""⟩,
  ⟨0x4040, 1, 32, 0x02, 0x02, .u8, .ro, 1, 1, 0, 255, 1, [], 255, 0, "HOLDING_PARTITION", ""⟩,
  ⟨0x4040, 1, 32, 0x03, 0x03, .u64, .rwc, 8, 8, 0, 18446744073709551615, 1, [], 0, 0, "SAMPLES_ACCEPTED", ""⟩,
  ⟨0x4040, 1, 32, 0x04, 0x04, .u32, .rwc, 4, 4, 0, 4294967295, 1, [], 0, 0, "SAMPLE_ERRORS", ""⟩,
  ⟨0x4040, 1, 32, 0x05, 0x05, .u32, .rwc, 4, 4, 0, 4294967295, 1, [], 0, 0, "SEQ_REJECTS", ""⟩,
  ⟨0x4040, 1, 32, 0x06, 0x06, .u32, .rwc, 4, 4, 0, 4294967295, 1, [], 0, 0, "DISABLED_DROPS", ""⟩,
  ⟨0x4040, 1, 32, 0x07, 0x07, .u32, .rwc, 4, 4, 0, 4294967295, 1, [], 0, 0, "SAMPLES_SUPERSEDED", ""⟩,
  ⟨0x4040, 1, 32, 0x08, 0x08, .u32, .rwc, 4, 4, 0, 4294967295, 1, [], 0, 0, "STALE_PITCHES", ""⟩,
  ⟨0x4040, 1, 32, 0x09, 0x09, .u32, .ro, 4, 4, 0, 4294967295, 1, [], 0, 0, "LAST_SEQ", ""⟩,
  ⟨0x4040, 1, 32, 0x0A, 0x0A, .u64, .ro, 8, 8, 0, 18446744073709551615, 1, [], 0, 0, "LAST_TIMESTAMP", "ns"⟩,
  ⟨0x4040, 1, 32, 0x0B, 0x0B, .u64, .rwc, 8, 8, 0, 18446744073709551615, 1, [], 0, 0, "EVENTS_ENCODED", "events"⟩,
  ⟨0x4040, 1, 32, 0x0C, 0x0C, .u32, .rwc, 4, 4, 0, 4294967295, 1, [], 0, 0, "RATE_EXCESS", ""⟩,
  ⟨0x4040, 1, 32, 0x0D, 0x0D, .u32, .rwc, 4, 4, 0, 4294967295, 1, [], 0, 0, "LEVEL_LAG", ""⟩,
  ⟨0x4040, 1, 32, 0x0E, 0x0E, .u32, .rwc, 4, 4, 0, 4294967295, 1, [], 0, 0, "ENC_NONFINITE", ""⟩,
  ⟨0x4040, 1, 32, 0x0F, 0x0F, .u64, .rwc, 8, 8, 0, 18446744073709551615, 1, [], 0, 0, "ENC_CLAMPS", ""⟩,
  ⟨0x4040, 1, 32, 0x10, 0x10, .u32, .rwc, 4, 4, 0, 4294967295, 1, [], 0, 0, "REANCHORS", ""⟩,
  ⟨0x4040, 1, 32, 0x11, 0x11, .u32, .rwc, 4, 4, 0, 4294967295, 1, [], 0, 0, "ENCODE_LATE", ""⟩,
  ⟨0x4040, 1, 32, 0x12, 0x12, .u32, .rwc, 4, 4, 0, 4294967295, 1, [], 0, 0, "ABSORBED_ENCODE", "events"⟩,
  ⟨0x4040, 1, 32, 0x13, 0x13, .u8, .ro, 1, 1, 0, 255, 1, [], 0, 0, "ENC_ACTIVE_SET", ""⟩,
  ⟨0x4040, 1, 32, 0x14, 0x14, .enum, .ro, 1, 1, 0, 1, 1, [], 0, 0, "ENC_GUARD_STATE", ""⟩,
  ⟨0x4040, 1, 32, 0x15, 0x15, .u16, .ro, 2, 2, 0, 65535, 1, [], 0, 0, "ENC_SAT", "0.01 %"⟩,
  ⟨0x4040, 1, 32, 0x16, 0x16, .u16, .ro, 2, 2, 0, 65535, 1, [], 0, 0, "ENC_UNDER", "0.01 %"⟩]

/-- Table 8.12 (08_converters.md). -/
def rows8_12 : List EntryRow := [
  ⟨0x4100, 1, 1, 0x01, 0x01, .blob, .ro, 32, 32, 0, 0, 1, [], 0, 0, "GROUPS_PRESENT", ""⟩,
  ⟨0x4100, 1, 1, 0x02, 0x02, .u8, .ro, 1, 1, 0, 255, 1, [], 6, 0, "INERT_REASON", ""⟩,
  ⟨0x4100, 1, 1, 0x03, 0x03, .u32, .rwc, 4, 4, 0, 4294967295, 1, [], 0, 0, "ESTOP_ASSERTIONS", ""⟩]

/-- Table 8.13 (08_converters.md). -/
def rows8_13 : List EntryRow := [
  ⟨0x4101, 1, 1, 0x01, 0x01, .u8, .rw, 1, 1, 0, 255, 1, [], 0, 0, "GROUP_SELECT", ""⟩,
  ⟨0x4101, 1, 1, 0x02, 0x02, .blob, .rw, 32, 32, 0, 0, 1, [], 0, 0, "GROUP_ENABLE", ""⟩,
  ⟨0x4101, 1, 1, 0x03, 0x03, .blob, .wo, 32, 32, 0, 0, 1, [], 0, 0, "GROUP_DISABLE_NOW", ""⟩]

/-- Table 8.14 (08_converters.md). -/
def rows8_14 : List EntryRow := [
  ⟨0x4102, 1, 1, 0x01, 0x01, .enum, .ro, 1, 1, 0, 4, 1, [], 0, 0, "GROUP_STATE", ""⟩,
  ⟨0x4102, 1, 1, 0x02, 0x02, .u8, .ro, 1, 1, 0, 255, 1, [], 255, 0, "GROUP_PARTITION", ""⟩,
  ⟨0x4102, 1, 1, 0x03, 0x03, .u64, .rwc, 8, 8, 0, 18446744073709551615, 1, [], 0, 0, "PUBLISHED", ""⟩,
  ⟨0x4102, 1, 1, 0x04, 0x04, .u32, .rwc, 4, 4, 0, 4294967295, 1, [], 0, 0, "DECODE_LATE", ""⟩,
  ⟨0x4102, 1, 1, 0x05, 0x05, .u32, .rwc, 4, 4, 0, 4294967295, 1, [], 0, 0, "OUT_CLAMPS", ""⟩,
  ⟨0x4102, 1, 1, 0x06, 0x06, .u32, .rwc, 4, 4, 0, 4294967295, 1, [], 0, 0, "ABSORBED_DECODE", ""⟩,
  ⟨0x4102, 1, 1, 0x07, 0x07, .blob, .ro, 16, 272, 0, 0, 1, [], 0, 0, "READOUT_RECORD", ""⟩]

/-- Table 9.14 (09_queues_and_sync.md). -/
def rows9_14 : List EntryRow := [
  ⟨0x5000, 1, 1, 0x01, 0x01, .u32, .ro, 4, 4, 0, 4294967295, 1, [], 0, 0, "QUEUES_OPEN", ""⟩,
  ⟨0x5000, 1, 1, 0x02, 0x02, .u32, .ro, 4, 4, 0, 4294967295, 1, [], 0, 0, "QUEUES_ORPHANED", ""⟩,
  ⟨0x5000, 1, 1, 0x03, 0x03, .u32, .ro, 4, 4, 0, 4294967295, 1, [], 0, 0, "SYNC_IN_USE", ""⟩,
  ⟨0x5000, 1, 1, 0x04, 0x04, .u64, .rwc, 8, 8, 0, 18446744073709551615, 1, [], 0, 0, "MESSAGES_SENT", ""⟩,
  ⟨0x5000, 1, 1, 0x05, 0x05, .u64, .rwc, 8, 8, 0, 18446744073709551615, 1, [], 0, 0, "FULL_SENDS", ""⟩,
  ⟨0x5000, 1, 1, 0x06, 0x06, .u64, .rwc, 8, 8, 0, 18446744073709551615, 1, [], 0, 0, "ORPHAN_SENDS", ""⟩,
  ⟨0x5000, 1, 1, 0x07, 0x07, .u64, .rwc, 8, 8, 0, 18446744073709551615, 1, [], 0, 0, "ORPHAN_RETURNS", ""⟩,
  ⟨0x5000, 1, 1, 0x08, 0x08, .u64, .rwc, 8, 8, 0, 18446744073709551615, 1, [], 0, 0, "PAD_RECORDS", ""⟩,
  ⟨0x5000, 1, 1, 0x09, 0x09, .u32, .rwc, 4, 4, 0, 4294967295, 1, [], 0, 0, "WAIT_BUSY", ""⟩,
  ⟨0x5000, 1, 1, 0x0A, 0x0A, .u32, .rwc, 4, 4, 0, 4294967295, 1, [], 0, 0, "TIMEOUTS", ""⟩,
  ⟨0x5000, 1, 1, 0x0B, 0x0B, .u32, .rwc, 4, 4, 0, 4294967295, 1, [], 0, 0, "CQ_LOST", ""⟩,
  ⟨0x5000, 1, 1, 0x0C, 0x0C, .u32, .rwc, 4, 4, 0, 4294967295, 1, [], 0, 0, "COMBINE_SAT", ""⟩,
  ⟨0x5000, 1, 1, 0x0D, 0x0D, .u32, .rwc, 4, 4, 0, 4294967295, 1, [], 0, 0, "COMBINE_NONFINITE", ""⟩,
  ⟨0x5000, 1, 1, 0x0E, 0x0E, .u32, .rwc, 4, 4, 0, 4294967295, 1, [], 0, 0, "COMBINE_RANGE", ""⟩,
  ⟨0x5000, 1, 1, 0x0F, 0x0F, .u32, .rwc, 4, 4, 0, 4294967295, 1, [], 0, 0, "COMBINE_LATE", ""⟩,
  ⟨0x5000, 1, 1, 0x10, 0x10, .u32, .rwc, 4, 4, 0, 4294967295, 1, [], 0, 0, "LINK_FAILED", ""⟩,
  ⟨0x5000, 1, 1, 0x11, 0x11, .u32, .rwc, 4, 4, 0, 4294967295, 1, [], 0, 0, "BARRIERS_BROKEN", ""⟩,
  ⟨0x5000, 1, 1, 0x12, 0x12, .u32, .rwc, 4, 4, 0, 4294967295, 1, [], 0, 0, "RING_MEMORY_ERRORS", ""⟩,
  ⟨0x5000, 1, 1, 0x13, 0x13, .u16, .rwc, 2, 2, 0, 65535, 1, [], 0, 0, "WAIT_PEAK", "entries"⟩]

/-- Table 9.15 (09_queues_and_sync.md). -/
def rows9_15 : List EntryRow := [
  ⟨0x5001, 1, 1, 0x01, 0x01, .u8, .rw, 1, 1, 0, 63, 1, [], 0, 0, "GRANT_SLICE", ""⟩,
  ⟨0x5001, 1, 1, 0x02, 0x02, .blob, .rw, 256, 256, 0, 0, 1, [], 0x10303030303030303030303030303030303030303030303030303030303030303030303030303030303030303030303030303030303030303030303030303030303030303030303030303030303030303030303030303030303030303030303030303030303030303030303030303030303030303030303030303030303030303030303030303030303030303030303030303030303030303030303030303030303030303030303030303030303030303030303030303030303030303030303030303030303030303030303030303030303030303030303030303030303030303030303030303030303030303030303030303030303030303030303030303030, 0, "QUEUE_GRANTS", ""⟩,
  ⟨0x5001, 1, 1, 0x03, 0x03, .blob, .rw, 16, 16, 0, 0, 1, [], 0x10303030303030303030303030303030, 0, "SYNC_GRANTS", ""⟩]

/-- Table 9.16 (09_queues_and_sync.md). -/
def rows9_16 : List EntryRow := [
  ⟨0x5002, 1, 1, 0x01, 0x01, .u32, .rw, 4, 4, 0, 1048575, 1, [], 0, 0, "QUEUE_SELECT", ""⟩,
  ⟨0x5002, 1, 1, 0x02, 0x02, .blob, .ro, 32, 32, 0, 0, 1, [], 0, 0, "QUEUE_RECORD", ""⟩,
  ⟨0x5002, 1, 1, 0x03, 0x03, .u32, .ro, 4, 4, 0, 4294967295, 1, [], 0, 0, "QUEUE_USED", "byte"⟩,
  ⟨0x5002, 1, 1, 0x04, 0x04, .u16, .ro, 2, 2, 0, 65535, 1, [], 0, 0, "QUEUE_WAITERS", ""⟩,
  ⟨0x5002, 1, 1, 0x05, 0x05, .bool, .rwc, 1, 1, 0, 1, 1, [], 0, 0, "CQ_OVERRUN", ""⟩]

/-- Table 9.17 (09_queues_and_sync.md). -/
def rows9_17 : List EntryRow := [
  ⟨0x5003, 1, 1, 0x01, 0x01, .u32, .rw, 4, 4, 0, 65535, 1, [], 0, 0, "SYNC_SELECT", ""⟩,
  ⟨0x5003, 1, 1, 0x02, 0x02, .enum, .ro, 1, 1, 0, 3, 1, [], 0, 0, "SYNC_KIND", ""⟩,
  ⟨0x5003, 1, 1, 0x03, 0x03, .u8, .ro, 1, 1, 0, 255, 1, [], 48, 0, "SYNC_OWNER", ""⟩,
  ⟨0x5003, 1, 1, 0x04, 0x04, .u64, .ro, 8, 8, 0, 18446744073709551615, 1, [], 0, 0, "SYNC_VALUE", ""⟩,
  ⟨0x5003, 1, 1, 0x05, 0x05, .u32, .ro, 4, 4, 0, 4294967295, 1, [], 0, 0, "SYNC_PHASE", ""⟩,
  ⟨0x5003, 1, 1, 0x06, 0x06, .u16, .ro, 2, 2, 0, 65535, 1, [], 0, 0, "SYNC_WAITERS", ""⟩]

/-- Table 10.13 (10_memory.md). -/
def rows10_13 : List EntryRow := [
  ⟨0x2500, 1, 1, 0x01, 0x01, .u8, .rw, 1, 1, 4, 236, 1, [], 116, 0, "FRAME_ALL", "frames"⟩,
  ⟨0x2500, 1, 1, 0x02, 0x02, .u8, .ro, 1, 1, 0, 255, 1, [], 60, 0, "FRAMES_WEST", "frames"⟩,
  ⟨0x2500, 1, 1, 0x03, 0x03, .u8, .ro, 1, 1, 0, 255, 1, [], 60, 0, "FRAMES_EAST", "frames"⟩,
  ⟨0x2500, 1, 1, 0x04, 0x04, .u64, .ro, 8, 8, 0, 18446744073709551615, 1, [], 0x3c00000000, 0, "LPDDR6_USABLE", "byte"⟩,
  ⟨0x2500, 1, 1, 0x05, 0x05, .u64, .ro, 8, 8, 0, 18446744073709551615, 1, [], 0xffffffffffffffff, 0, "SUBCH_IN_SERVICE", ""⟩,
  ⟨0x2500, 1, 1, 0x06, 0x06, .blob, .rw, 236, 236, 0, 0, 1, [], 0xffffffffffffffffffffffffffffffffffffffffffffffffffffffffffffffffffffffffffffffffffffffffffffffffffffffffffffffffffffffffffffffffffffffffffffffffffffffffffffffffffffffffffffffffffffffffffffffffffffffffffffffffffffffffffffffffffffffffffffffff20202020ffffffffffffffffffffffffffffffffffffffffffffffffffffffffffffffffffffffffffffffffffffffffffffffffffffffffffffffffffffffffffffffffffffffffffffffffffffffffffffffffffffffffffffffffffffffffffffffffffffffffffffffffffffffffffffffff, 0, "FRAME_OWNER", ""⟩,
  ⟨0x2500, 1, 1, 0x07, 0x07, .u32, .rwc, 4, 4, 0, 4294967295, 1, [], 0, 0, "BAR2_DISCARDS", ""⟩,
  ⟨0x2500, 1, 1, 0x08, 0x08, .u8, .ro, 1, 1, 0, 255, 1, [], 236, 0, "FRAME_ALL_MAX", "frames"⟩]

/-- Table 10.14 (10_memory.md). -/
def rows10_14 : List EntryRow := [
  ⟨0x2501, 1, 1, 0x01, 0x01, .u16, .rw, 2, 2, 1, 168, 1, [], 24, 0, "SCRUB_PERIOD", "h"⟩,
  ⟨0x2501, 1, 1, 0x02, 0x02, .u32, .ro, 4, 4, 0, 4294967295, 1, [], 0, 0, "SCRUB_PASSES", ""⟩,
  ⟨0x2501, 1, 1, 0x03, 0x03, .u64, .rwc, 8, 8, 0, 18446744073709551615, 1, [], 0, 0, "CE_TOTAL", "words"⟩,
  ⟨0x2501, 1, 1, 0x04, 0x04, .u32, .rwc, 4, 4, 0, 4294967295, 1, [], 0, 0, "UE_TOTAL", "words"⟩,
  ⟨0x2501, 1, 1, 0x05, 0x05, .u32, .ro, 4, 4, 0, 4294967295, 1, [], 0, 0, "POISONED_WORDS", "words"⟩,
  ⟨0x2501, 1, 1, 0x06, 0x06, .u32, .rw, 4, 4, 1, 4294967295, 1, [], 1000, 0, "CE_ALERT", "words"⟩]

/-- Table 10.15 (10_memory.md). -/
def rows10_15 : List EntryRow := [
  ⟨0x2502, 1, 1, 0x01, 0x01, .u8, .rw, 1, 1, 0, 63, 1, [], 0, 0, "SUBCH_SELECT", ""⟩,
  ⟨0x2502, 1, 1, 0x02, 0x02, .enum, .ro, 1, 1, 0, 2, 1, [], 0, 0, "SUBCH_STATE", ""⟩,
  ⟨0x2502, 1, 1, 0x03, 0x03, .u32, .rwc, 4, 4, 0, 4294967295, 1, [], 0, 0, "SUBCH_CE", "words"⟩,
  ⟨0x2502, 1, 1, 0x04, 0x04, .u32, .rwc, 4, 4, 0, 4294967295, 1, [], 0, 0, "SUBCH_UE", "words"⟩,
  ⟨0x2502, 1, 1, 0x05, 0x05, .u64, .ro, 8, 8, 0, 18446744073709551615, 1, [], 0, 0, "SUBCH_LAST_ERROR", "byte"⟩,
  ⟨0x2502, 1, 1, 0x06, 0x06, .u32, .rwc, 4, 4, 0, 4294967295, 1, [], 0, 0, "SUBCH_RETRAINS", ""⟩,
  ⟨0x2502, 1, 1, 0x07, 0x07, .u8, .ro, 1, 1, 0, 255, 1, [], 0, 0, "SUBCH_TEMP", "°C"⟩]

/-- Table 10.16 (10_memory.md). -/
def rows10_16 : List EntryRow := [
  ⟨0x2503, 1, 1, 0x01, 0x01, .bool, .rw, 1, 1, 0, 1, 1, [], 1, 0, "BGTEST_ENABLE", ""⟩,
  ⟨0x2503, 1, 1, 0x02, 0x02, .u32, .rw, 4, 4, 100, 1000000, 1, [], 1000, 0, "BGTEST_INTERVAL", "µs"⟩,
  ⟨0x2503, 1, 1, 0x03, 0x03, .u64, .rwc, 8, 8, 0, 18446744073709551615, 1, [], 0, 0, "BGTEST_REGIONS", "regions"⟩,
  ⟨0x2503, 1, 1, 0x04, 0x04, .u32, .rwc, 4, 4, 0, 4294967295, 1, [], 0, 0, "BGTEST_FAILS", ""⟩,
  ⟨0x2503, 1, 1, 0x05, 0x05, .u16, .ro, 2, 2, 0, 65535, 1, [], 0, 0, "BGTEST_HELD", "regions"⟩,
  ⟨0x2503, 1, 1, 0x06, 0x06, .u32, .rwc, 4, 4, 0, 4294967295, 1, [], 0, 0, "PARITY_REPLAYS", ""⟩,
  ⟨0x2503, 1, 1, 0x07, 0x07, .u32, .rwc, 4, 4, 0, 4294967295, 1, [], 0, 0, "PARITY_PERSISTENT", ""⟩,
  ⟨0x2503, 1, 1, 0x08, 0x08, .u32, .rwc, 4, 4, 0, 4294967295, 1, [], 0, 0, "RETENTION_LOST", ""⟩,
  ⟨0x2504, 1, 1, 0x01, 0x01, .u16, .rw, 2, 2, 0, 32831, 1, [], 0, 0, "CONFLICT_TARGET", ""⟩,
  ⟨0x2504, 1, 1, 0x02, 0x02, .blob, .ro, 64, 64, 0, 0, 1, [], 0, 0, "CONFLICT_COUNTERS", ""⟩,
  ⟨0x2504, 1, 1, 0x03, 0x03, .u8, .wo, 1, 1, 1, 2, 1, [], 0, 0, "CONFLICT_CLEAR", ""⟩,
  ⟨0x2505, 1, 1, 0x01, 0x01, .u8, .rw, 1, 1, 0, 63, 1, [], 0, 0, "PAGE_SLICE", ""⟩,
  ⟨0x2505, 1, 1, 0x02, 0x02, .blob, .rw, 39, 39, 0, 0, 1, [], 0x303030303030303030303030303030303030303030303030303030303030303030303030303030, 0, "PAGE_GRANTS", ""⟩]

/-- Table 11.12 (11_fabric.md). -/
def rows11_12 : List EntryRow := [
  ⟨0x2400, 1, 1, 0x01, 0x01, .u8, .rw, 1, 1, 1, 15, 1, [], 3, 0, "VC2_WEIGHT", "flits"⟩,
  ⟨0x2400, 1, 1, 0x02, 0x02, .u16, .rw, 2, 2, 1, 1000, 1, [], 8, 0, "ACK_TIMEOUT", "µs"⟩,
  ⟨0x2400, 1, 1, 0x03, 0x03, .u8, .rw, 1, 1, 1, 15, 1, [], 3, 0, "RESEND_LIMIT", ""⟩,
  ⟨0x2400, 1, 1, 0x04, 0x04, .u16, .rw, 2, 2, 1, 65535, 1, [], 16, 0, "LINK_ERR_LIMIT", "errors per s"⟩,
  ⟨0x2400, 1, 1, 0x05, 0x05, .bool, .rw, 1, 1, 0, 1, 1, [], 1, 0, "ROUTE_ADAPT", ""⟩,
  ⟨0x2400, 1, 1, 0x06, 0x06, .u16, .rw, 2, 2, 1, 10000, 1, [], 10, 0, "CMAP_INTERVAL", "ms"⟩,
  ⟨0x2400, 1, 1, 0x07, 0x07, .enum, .wo, 1, 1, 1, 2, 1, [], 0, 0, "ROUTE_COMMAND", ""⟩]

/-- Table 11.13 (11_fabric.md). -/
def rows11_13 : List EntryRow := [
  ⟨0x2401, 1, 1, 0x01, 0x01, .u16, .ro, 2, 2, 0, 65535, 1, [], 2000, 0, "FABRIC_CLOCK_WEST", "MHz"⟩,
  ⟨0x2401, 1, 1, 0x02, 0x02, .u16, .ro, 2, 2, 0, 65535, 1, [], 2000, 0, "FABRIC_CLOCK_EAST", "MHz"⟩,
  ⟨0x2401, 1, 1, 0x03, 0x03, .u16, .ro, 2, 2, 0, 65535, 1, [], 8000, 0, "COL_RATE", "GB/s"⟩,
  ⟨0x2401, 1, 1, 0x04, 0x04, .u8, .ro, 1, 1, 0, 255, 1, [], 48, 0, "COL_CREDITS_WE", "flits"⟩,
  ⟨0x2401, 1, 1, 0x05, 0x05, .u8, .ro, 1, 1, 0, 255, 1, [], 48, 0, "COL_CREDITS_EW", "flits"⟩,
  ⟨0x2401, 1, 1, 0x06, 0x06, .enum, .ro, 1, 1, 0, 3, 1, [], 0, 0, "ROUTE_STATE", ""⟩,
  ⟨0x2401, 1, 1, 0x07, 0x07, .u8, .ro, 1, 1, 0, 255, 1, [], 0, 0, "ROUTE_GEN", ""⟩,
  ⟨0x2401, 1, 1, 0x08, 0x08, .u32, .ro, 4, 4, 0, 4294967295, 1, [], 0, 0, "ROUTE_CHANGES", ""⟩,
  ⟨0x2401, 1, 1, 0x09, 0x09, .u16, .ro, 2, 2, 0, 65535, 1, [], 0, 0, "LINKS_EXCLUDED", ""⟩,
  ⟨0x2401, 1, 1, 0x0A, 0x0A, .u32, .rwc, 4, 4, 0, 4294967295, 1, [], 0, 0, "VC0_PEAK", "ns"⟩]

/-- Table 11.14 (11_fabric.md). -/
def rows11_14 : List EntryRow := [
  ⟨0x2402, 1, 1, 0x01, 0x01, .u64, .rwc, 8, 8, 0, 18446744073709551615, 1, [], 0, 0, "HOP_PARITY_ERRORS", "words"⟩,
  ⟨0x2402, 1, 1, 0x02, 0x02, .u32, .rwc, 4, 4, 0, 4294967295, 1, [], 0, 0, "WORM_DROPS", "packets"⟩,
  ⟨0x2402, 1, 1, 0x03, 0x03, .u32, .rwc, 4, 4, 0, 4294967295, 1, [], 0, 0, "CRC_ERRORS", "packets"⟩,
  ⟨0x2402, 1, 1, 0x04, 0x04, .u64, .rwc, 8, 8, 0, 18446744073709551615, 1, [], 0, 0, "NACKS", ""⟩,
  ⟨0x2402, 1, 1, 0x05, 0x05, .u64, .rwc, 8, 8, 0, 18446744073709551615, 1, [], 0, 0, "RESENDS", "packets"⟩,
  ⟨0x2402, 1, 1, 0x06, 0x06, .u32, .rwc, 4, 4, 0, 4294967295, 1, [], 0, 0, "UNREACHABLE", ""⟩,
  ⟨0x2402, 1, 1, 0x07, 0x07, .u64, .rwc, 8, 8, 0, 18446744073709551615, 1, [], 0, 0, "DUP_DISCARDS", "packets"⟩,
  ⟨0x2402, 1, 1, 0x08, 0x08, .u32, .rwc, 4, 4, 0, 4294967295, 1, [], 0, 0, "STALE_GEN", "packets"⟩,
  ⟨0x2402, 1, 1, 0x09, 0x09, .u32, .rwc, 4, 4, 0, 4294967295, 1, [], 0, 0, "CREDIT_TIMEOUTS", ""⟩,
  ⟨0x2402, 1, 1, 0x0A, 0x0A, .u32, .rwc, 4, 4, 0, 4294967295, 1, [], 0, 0, "READ_BUSY", ""⟩]

/-- Table 11.15 (11_fabric.md). -/
def rows11_15 : List EntryRow := [
  ⟨0x2403, 1, 1, 0x01, 0x01, .u16, .rw, 2, 2, 0, 65535, 1, [], 0, 0, "CMAP_SELECT", ""⟩,
  ⟨0x2403, 1, 1, 0x02, 0x02, .blob, .ro, 20, 804, 0, 0, 1, [], 0, 0, "CMAP_RECORD", ""⟩]

/-- Table 11.16 (11_fabric.md). -/
def rows11_16 : List EntryRow := [
  ⟨0x2404, 1, 1, 0x01, 0x01, .u8, .rw, 1, 1, 0, 195, 1, [], 0, 0, "WEIGHT_SELECT", ""⟩,
  ⟨0x2404, 1, 1, 0x02, 0x02, .blob, .rw, 32, 32, 0, 0, 1, [], 0, 0, "ROUTE_WEIGHTS", ""⟩]

/-- Table 11.17 (11_fabric.md). -/
def rows11_17 : List EntryRow := [
  ⟨0x2405, 1, 1, 0x01, 0x01, .bool, .rw, 1, 1, 0, 1, 1, [], 0, 0, "TELEM_ENABLE", ""⟩,
  ⟨0x2405, 1, 1, 0x02, 0x02, .enum, .rw, 1, 1, 0, 1, 1, [], 0, 0, "TELEM_PORT", ""⟩,
  ⟨0x2405, 1, 1, 0x03, 0x03, .blob, .rw, 16, 16, 0, 0, 1, [], 0, 0, "TELEM_ADDR", ""⟩,
  ⟨0x2405, 1, 1, 0x04, 0x04, .u16, .rw, 2, 2, 1024, 65535, 1, [], 47300, 0, "TELEM_UDP_PORT", ""⟩,
  ⟨0x2405, 1, 1, 0x05, 0x05, .u32, .rwc, 4, 4, 0, 4294967295, 1, [], 0, 0, "TELEM_SENT", "datagrams"⟩,
  ⟨0x2405, 1, 1, 0x06, 0x06, .u32, .rwc, 4, 4, 0, 4294967295, 1, [], 0, 0, "TELEM_DROPS", "records"⟩]

/-- Table 12.18 (12_ports.md). -/
def rows12_18 : List EntryRow := [
  ⟨0x1100, 1, 1, 0x01, 0x01, .enum, .ro, 1, 1, 0, 2, 1, [], 2, 0, "ROPE_STATE", ""⟩,
  ⟨0x1100, 1, 1, 0x02, 0x02, .u64, .ro, 8, 8, 0, 18446744073709551615, 1, [], 0, 0, "PRESENT_NODES", ""⟩,
  ⟨0x1100, 1, 1, 0x03, 0x03, .u64, .ro, 8, 8, 0, 18446744073709551615, 1, [], 0, 0, "LOST_NODES", ""⟩,
  ⟨0x1100, 1, 1, 0x04, 0x04, .enum, .rw, 1, 1, 0, 1, 1, [], 0, 0, "ADDR_MODE", ""⟩,
  ⟨0x1100, 1, 1, 0x05, 0x05, .u8, .rw, 1, 1, 0, 63, 1, [], 0, 0, "NODE_ADDRESS_STORED", ""⟩,
  ⟨0x1100, 1, 1, 0x06, 0x06, .u8, .ro, 1, 1, 0, 255, 1, [], 0, 0, "NODE_ADDRESS", ""⟩,
  ⟨0x1100, 1, 1, 0x07, 0x07, .enum, .ro, 1, 1, 0, 2, 1, [], 1, 0, "NODE_STATE", ""⟩,
  ⟨0x1100, 1, 1, 0x08, 0x08, .bool, .ro, 1, 1, 0, 1, 1, [], 0, 0, "ADDR_CONFLICT", ""⟩,
  ⟨0x1100, 1, 1, 0x09, 0x09, .u16, .rw, 2, 2, 100, 100000, 1, [], 1000, 0, "ROPE_CHECK_INTERVAL", "µs"⟩,
  ⟨0x1100, 1, 1, 0x0A, 0x0A, .u16, .rw, 2, 2, 1024, 65535, 1, [], 47100, 0, "DICT_UDP_PORT", ""⟩]

/-- Table 12.19 (12_ports.md). -/
def rows12_19 : List EntryRow := [
  ⟨0x1101, 1, 1, 0x01, 0x01, .bool, .ro, 1, 1, 0, 1, 1, [], 0, 0, "F0_LINK", ""⟩,
  ⟨0x1101, 1, 1, 0x02, 0x02, .bool, .ro, 1, 1, 0, 1, 1, [], 0, 0, "F1_LINK", ""⟩,
  ⟨0x1101, 1, 1, 0x03, 0x03, .enum, .rw, 1, 1, 0, 1, 1, [], 0, 0, "FIELD_ROLE", ""⟩,
  ⟨0x1101, 1, 1, 0x04, 0x04, .u32, .rwc, 4, 4, 0, 4294967295, 1, [], 0, 0, "LINK_DOWNS", ""⟩,
  ⟨0x1101, 1, 1, 0x05, 0x05, .u32, .rwc, 4, 4, 0, 4294967295, 1, [], 0, 0, "ROPE_FWD_DROPS", "frames"⟩]

/-- Table 12.20 (12_ports.md). -/
def rows12_20 : List EntryRow := [
  ⟨0x1110, 1, 1, 0x01, 0x01, .enum, .ro, 1, 1, 0, 2, 1, [], 0, 0, "PCIE_STATE", ""⟩,
  ⟨0x1110, 1, 1, 0x02, 0x02, .u8, .ro, 1, 1, 0, 255, 1, [], 0, 0, "PCIE_WIDTH", "lanes"⟩,
  ⟨0x1110, 1, 1, 0x03, 0x03, .u8, .ro, 1, 1, 0, 255, 1, [], 0, 0, "PCIE_SPEED", ""⟩,
  ⟨0x1110, 1, 1, 0x04, 0x04, .u8, .ro, 1, 1, 0, 255, 1, [], 0, 0, "NUM_VFS", ""⟩,
  ⟨0x1110, 1, 1, 0x05, 0x05, .u16, .rw, 2, 2, 5, 10000, 1, [], 50, 0, "HEARTBEAT_TIMEOUT", "ms"⟩,
  ⟨0x1110, 1, 1, 0x06, 0x06, .u16, .ro, 2, 2, 0, 65535, 1, [], 0, 0, "HEARTBEAT_ARMED", ""⟩,
  ⟨0x1110, 1, 1, 0x07, 0x07, .u32, .rwc, 4, 4, 0, 4294967295, 1, [], 0, 0, "HOST_LOSSES", ""⟩,
  ⟨0x1110, 1, 1, 0x08, 0x08, .u32, .rwc, 4, 4, 0, 4294967295, 1, [], 0, 0, "HOST_DMA_ERRORS", ""⟩]

/-- Table 12.21 (12_ports.md). -/
def rows12_21 : List EntryRow := [
  ⟨0x1120, 1, 2, 0x01, 0x01, .bool, .rw, 1, 1, 0, 1, 1, [], 0, 0, "PORT_ENABLE", ""⟩,
  ⟨0x1120, 1, 2, 0x02, 0x02, .enum, .rw, 1, 1, 0, 2, 1, [], 0, 0, "PORT_MODE", ""⟩,
  ⟨0x1120, 1, 2, 0x03, 0x03, .u16, .ro, 2, 2, 0, 65535, 1, [], 0, 0, "PORT_WIDTH", "Gb/s"⟩,
  ⟨0x1120, 1, 2, 0x04, 0x04, .u8, .ro, 1, 1, 0, 255, 1, [], 0, 0, "PORT_LANES", ""⟩,
  ⟨0x1120, 1, 2, 0x05, 0x05, .blob, .rw, 68, 68, 0, 0, 1, [], 0, 0, "SUBPORT_ADDR", ""⟩,
  ⟨0x1120, 1, 2, 0x06, 0x06, .u8, .rw, 1, 1, 0, 7, 1, [], 3, 0, "PFC_PRIORITY", ""⟩,
  ⟨0x1120, 1, 2, 0x07, 0x07, .blob, .rw, 36, 36, 0, 0, 1, [], 0, 0, "LOAD_KEYS", ""⟩,
  ⟨0x1120, 1, 2, 0x08, 0x08, .u32, .rwc, 4, 4, 0, 4294967295, 1, [], 0, 0, "RETRAINS", ""⟩,
  ⟨0x1120, 1, 2, 0x09, 0x09, .u64, .rwc, 8, 8, 0, 18446744073709551615, 1, [], 0, 0, "FEC_UNCORRECTED", "codewords"⟩,
  ⟨0x1120, 1, 2, 0x0A, 0x0A, .u32, .rwc, 4, 4, 0, 4294967295, 1, [], 0, 0, "RDMA_REFUSED", ""⟩,
  ⟨0x1120, 1, 2, 0x0B, 0x0B, .u32, .rwc, 4, 4, 0, 4294967295, 1, [], 0, 0, "CM_REFUSED", ""⟩]

/-- Table 12.22 (12_ports.md). -/
def rows12_22 : List EntryRow := [
  ⟨0x1130, 1, 8, 0x01, 0x01, .blob, .rw, 64, 64, 0, 0, 1, [], 0, 0, "PEER_NODE", ""⟩]

/-- Table 12.23 (12_ports.md). -/
def rows12_23 : List EntryRow := [
  ⟨0x1200, 1, 1, 0x01, 0x01, .u32, .ro, 4, 4, 0, 4294967295, 1, [], 0, 0, "OBJ_ENABLED", ""⟩,
  ⟨0x1200, 1, 1, 0x02, 0x02, .u32, .rwc, 4, 4, 0, 4294967295, 1, [], 0, 0, "OBJ_DROPS_TOTAL", ""⟩,
  ⟨0x1210, 1, 32, 0x01, 0x01, .bool, .rw, 1, 1, 0, 1, 1, [], 0, 0, "OBJ_ENABLE", ""⟩,
  ⟨0x1210, 1, 32, 0x02, 0x02, .enum, .rw, 1, 1, 0, 3, 1, [], 0, 0, "OBJ_DEST", ""⟩,
  ⟨0x1210, 1, 32, 0x03, 0x03, .u8, .rw, 1, 1, 0, 7, 1, [], 0, 0, "OBJ_PARTITION", ""⟩,
  ⟨0x1210, 1, 32, 0x04, 0x04, .blob, .rw, 16, 16, 0, 0, 1, [], 0xffffffffffffffffffffffffffffffff, 0, "OBJ_GROUPS", ""⟩,
  ⟨0x1210, 1, 32, 0x05, 0x05, .u32, .rw, 4, 4, 0, 1048575, 1, [], 0, 0, "OBJ_QUEUE", ""⟩,
  ⟨0x1210, 1, 32, 0x06, 0x06, .enum, .rw, 1, 1, 0, 1, 1, [], 0, 0, "OBJ_PORT", ""⟩,
  ⟨0x1210, 1, 32, 0x07, 0x07, .blob, .rw, 16, 16, 0, 0, 1, [], 0, 0, "OBJ_ADDR", ""⟩,
  ⟨0x1210, 1, 32, 0x08, 0x08, .u16, .rw, 2, 2, 1024, 65535, 1, [], 47101, 0, "OBJ_UDP_PORT", ""⟩,
  ⟨0x1210, 1, 32, 0x09, 0x09, .u16, .rw, 2, 2, 1, 1000, 1, [], 10, 0, "OBJ_IDLE_PERIOD", "ms"⟩,
  ⟨0x1210, 1, 32, 0x0A, 0x0A, .u64, .rwc, 8, 8, 0, 18446744073709551615, 1, [], 0, 0, "OBJ_SENT", ""⟩,
  ⟨0x1210, 1, 32, 0x0B, 0x0B, .u32, .rwc, 4, 4, 0, 4294967295, 1, [], 0, 0, "OBJ_DROPS", ""⟩]

/-- Table 13.19 (13_dictionary_and_registers.md). -/
def rows13_19 : List EntryRow := [
  ⟨0x1000, 1, 1, 0x01, 0x01, .u32, .ro, 4, 4, 0, 4294967295, 1, [], 1263273984, 0, "DEVICE_TYPE", ""⟩,
  ⟨0x1000, 1, 1, 0x02, 0x02, .str, .ro, 0, 32, 0, 0, 1, [], 0x73656369766544206c6575716d6152, 0, "VENDOR_NAME", ""⟩,
  ⟨0x1000, 1, 1, 0x03, 0x03, .str, .ro, 0, 16, 0, 0, 1, [], 0x3834303258474b, 0, "PRODUCT_NAME", ""⟩,
  ⟨0x1000, 1, 1, 0x04, 0x04, .str, .ro, 0, 16, 0, 0, 1, [], 0x514c2d3834303258474b, 0, "ORDERING_CODE", ""⟩,
  ⟨0x1000, 1, 1, 0x05, 0x05, .str, .ro, 0, 16, 0, 0, 1, [], 0, 0, "SERIAL_NUMBER", ""⟩,
  ⟨0x1000, 1, 1, 0x06, 0x06, .str, .ro, 0, 4, 0, 0, 1, [], 0, 0, "SILICON_STEP", ""⟩,
  ⟨0x1000, 1, 1, 0x07, 0x07, .u32, .ro, 4, 4, 0, 4294967295, 1, [], 0, 0, "FW_VERSION", ""⟩,
  ⟨0x1000, 1, 1, 0x08, 0x08, .u32, .ro, 4, 4, 0, 4294967295, 1, [], 0, 0, "BOOT_ROM_VERSION", ""⟩,
  ⟨0x1000, 1, 1, 0x09, 0x09, .u16, .ro, 2, 2, 0, 65535, 1, [], 512, 0, "MSG_VERSION", ""⟩,
  ⟨0x1000, 1, 1, 0x0A, 0x0A, .u16, .ro, 2, 2, 0, 65535, 1, [], 256, 0, "DICT_LAYOUT", ""⟩,
  ⟨0x1000, 1, 1, 0x0B, 0x0B, .blob, .ro, 6, 6, 0, 0, 1, [], 0, 0, "MAC_BASE", ""⟩]

/-- Table 13.20 (13_dictionary_and_registers.md). -/
def rows13_20 : List EntryRow := [
  ⟨0x2000, 1, 1, 0x01, 0x01, .enum, .ro, 1, 1, 0, 3, 1, [], 0, 0, "DEVICE_STATE", ""⟩,
  ⟨0x2000, 1, 1, 0x02, 0x02, .enum, .ro, 1, 1, 0, 4, 1, [], 0, 0, "RESET_CAUSE", ""⟩,
  ⟨0x2000, 1, 1, 0x03, 0x03, .u32, .wo, 4, 4, 0, 4294967295, 1, [], 0, 0, "RESET_COMMAND", ""⟩,
  ⟨0x2000, 1, 1, 0x04, 0x04, .u8, .ro, 1, 1, 0, 255, 1, [], 0, 0, "ESTOP_STATE", ""⟩,
  ⟨0x2000, 1, 1, 0x05, 0x05, .bool, .rw, 1, 1, 0, 1, 1, [], 0, 0, "OUTPUT_ENABLE", ""⟩,
  ⟨0x2000, 1, 1, 0x06, 0x06, .enum, .rw, 1, 1, 0, 1, 1, [], 1, 0, "PROFILE_REQUEST_WEST", ""⟩,
  ⟨0x2000, 1, 1, 0x07, 0x07, .enum, .rw, 1, 1, 0, 1, 1, [], 1, 0, "PROFILE_REQUEST_EAST", ""⟩,
  ⟨0x2000, 1, 1, 0x08, 0x08, .enum, .ro, 1, 1, 0, 1, 1, [], 1, 0, "PROFILE_WEST", ""⟩,
  ⟨0x2000, 1, 1, 0x09, 0x09, .enum, .ro, 1, 1, 0, 1, 1, [], 1, 0, "PROFILE_EAST", ""⟩,
  ⟨0x2000, 1, 1, 0x0A, 0x0A, .u64, .ro, 8, 8, 0, 18446744073709551615, 1, [], 0, 0, "UPTIME", "ms"⟩]

/-- Table 13.21 (13_dictionary_and_registers.md). -/
def rows13_21 : List EntryRow := [
  ⟨0x2001, 1, 1, 0x01, 0x01, .u8, .wo, 1, 1, 0, 255, 1, [], 0, 0, "LOCK_SET", ""⟩,
  ⟨0x2001, 1, 1, 0x02, 0x02, .u8, .ro, 1, 1, 0, 255, 1, [], 0, 0, "LOCK_STATE", ""⟩,
  ⟨0x2002, 1, 1, 0x01, 0x01, .enum, .wo, 1, 1, 1, 2, 1, [], 0, 0, "STORE_COMMAND", ""⟩,
  ⟨0x2002, 1, 1, 0x02, 0x02, .enum, .ro, 1, 1, 0, 3, 1, [], 0, 0, "STORE_STATE", ""⟩,
  ⟨0x2002, 1, 1, 0x03, 0x03, .u32, .ro, 4, 4, 0, 4294967295, 1, [], 0, 0, "STORE_SEQUENCE", ""⟩,
  ⟨0x2002, 1, 1, 0x04, 0x04, .u16, .ro, 2, 2, 0, 65535, 1, [], 0, 0, "STORE_ENTRIES", ""⟩,
  ⟨0x2002, 1, 1, 0x05, 0x05, .u16, .ro, 2, 2, 0, 65535, 1, [], 0, 0, "STORE_REJECTS", ""⟩]

/-- Table 13.22 (13_dictionary_and_registers.md). -/
def rows13_22 : List EntryRow := [
  ⟨0x2003, 1, 1, 0x01, 0x01, .u64, .rwc, 8, 8, 0, 18446744073709551615, 1, [], 0, 0, "DICT_REQUESTS", ""⟩,
  ⟨0x2003, 1, 1, 0x02, 0x02, .u32, .rwc, 4, 4, 0, 4294967295, 1, [], 0, 0, "DICT_ERRORS", ""⟩,
  ⟨0x2003, 1, 1, 0x03, 0x03, .u32, .rwc, 4, 4, 0, 4294967295, 1, [], 0, 0, "DICT_DROPS", ""⟩,
  ⟨0x2003, 1, 1, 0x04, 0x04, .u32, .rwc, 4, 4, 0, 4294967295, 1, [], 0, 0, "VERSION_REFUSALS", ""⟩,
  ⟨0x2003, 1, 1, 0x05, 0x05, .u32, .rwc, 4, 4, 0, 4294967295, 1, [], 0, 0, "DUPLICATE_ANSWERS", ""⟩,
  ⟨0x2003, 1, 1, 0x06, 0x06, .u32, .rwc, 4, 4, 0, 4294967295, 1, [], 0, 0, "BUSY_REFUSALS", ""⟩,
  ⟨0x2003, 1, 1, 0x07, 0x07, .u32, .rwc, 4, 4, 0, 4294967295, 1, [], 0, 0, "LOCKED_WRITES", ""⟩,
  ⟨0x2003, 1, 1, 0x08, 0x08, .u32, .rwc, 4, 4, 0, 4294967295, 1, [], 0, 0, "NOTICE_OVERFLOWS", ""⟩,
  ⟨0x2003, 1, 1, 0x09, 0x09, .u32, .rwc, 4, 4, 0, 4294967295, 1, [], 0, 0, "TRIGGER_IGNORED", ""⟩]

/-- Table 14.8 (14_bringup.md). -/
def rows14_8 : List EntryRow := [
  ⟨0x2020, 1, 1, 0x01, 0x01, .blob, .ro, 512, 512, 0, 0, 1, [], 0, 0, "FP_RECORD", ""⟩,
  ⟨0x2020, 1, 1, 0x02, 0x02, .blob, .ro, 32, 32, 0, 0, 1, [], 0, 0, "FP_DIGEST", ""⟩,
  ⟨0x2020, 1, 1, 0x03, 0x03, .u16, .ro, 2, 2, 0, 65535, 1, [], 0, 0, "PRESENT_CORES", ""⟩,
  ⟨0x2020, 1, 1, 0x04, 0x04, .u8, .ro, 1, 1, 0, 255, 1, [], 0, 0, "SPARE_CORES", ""⟩]

/-- Table 14.9 (14_bringup.md). -/
def rows14_9 : List EntryRow := [
  ⟨0x2021, 1, 1, 0x01, 0x04, .blob, .ro, 17, 17, 0, 0, 1, [], 0, 0, "SLICE_SLOTS_", ""⟩,
  ⟨0x2021, 1, 1, 0x05, 0x05, .blob, .ro, 64, 64, 0, 0, 1, [], 0, 0, "SLICE_MAP", ""⟩]

/-- Table 14.10 (14_bringup.md). -/
def rows14_10 : List EntryRow := [
  ⟨0x2022, 1, 1, 0x01, 0x01, .u16, .ro, 2, 2, 0, 65535, 1, [], 0, 0, "DEFECT_COUNT", ""⟩,
  ⟨0x2022, 1, 1, 0x02, 0x02, .u16, .rw, 2, 2, 0, 65533, 1, [], 0, 0, "DEFECT_SELECT", ""⟩,
  ⟨0x2022, 1, 1, 0x03, 0x03, .blob, .ro, 16, 16, 0, 0, 1, [], 0, 0, "DEFECT_ENTRY", ""⟩,
  ⟨0x2022, 1, 1, 0x04, 0x04, .bool, .ro, 1, 1, 0, 1, 1, [], 0, 0, "DEFECT_LOG_FULL", ""⟩,
  ⟨0x2022, 1, 1, 0x05, 0x05, .u32, .ro, 4, 4, 0, 4294967295, 1, [], 0, 0, "BOOT_COUNT", ""⟩]

/-- Table 14.11 (14_bringup.md). -/
def rows14_11 : List EntryRow := [
  ⟨0x2023, 1, 1, 0x01, 0x01, .u8, .ro, 1, 1, 0, 255, 1, [], 1, 0, "BRINGUP_STEP", ""⟩,
  ⟨0x2023, 1, 1, 0x02, 0x02, .u32, .ro, 4, 4, 0, 4294967295, 1, [], 0, 0, "BRINGUP_TIME", "ms"⟩,
  ⟨0x2023, 1, 1, 0x03, 0x03, .u16, .ro, 2, 2, 0, 65535, 1, [], 0, 0, "NEW_DEFECTS", ""⟩,
  ⟨0x2023, 1, 1, 0x04, 0x04, .u16, .ro, 2, 2, 0, 65535, 1, [], 0, 0, "UNITS_RETURNED", ""⟩,
  ⟨0x2023, 1, 1, 0x05, 0x05, .u8, .ro, 1, 1, 0, 255, 1, [], 0, 0, "LICENCES_INSTALLED", ""⟩,
  ⟨0x2023, 1, 1, 0x06, 0x06, .u8, .ro, 1, 1, 0, 255, 1, [], 0, 0, "LICENCES_INVALID", ""⟩,
  ⟨0x2023, 1, 1, 0x07, 0x07, .u32, .ro, 4, 4, 0, 4294967295, 1, [], 0, 0, "FEATURES_LICENSED", ""⟩]

/-- Table 14.12 (14_bringup.md). -/
def rows14_12 : List EntryRow := [
  ⟨0x2024, 1, 1, 0x01, 0x01, .u32, .rwc, 4, 4, 0, 4294967295, 1, [], 0, 0, "RESETS_CORE", ""⟩,
  ⟨0x2024, 1, 1, 0x02, 0x02, .u32, .rwc, 4, 4, 0, 4294967295, 1, [], 0, 0, "RESETS_CLUSTER", ""⟩,
  ⟨0x2024, 1, 1, 0x03, 0x03, .u32, .rwc, 4, 4, 0, 4294967295, 1, [], 0, 0, "RESETS_PARTITION", ""⟩,
  ⟨0x2024, 1, 1, 0x04, 0x04, .u32, .rwc, 4, 4, 0, 4294967295, 1, [], 0, 0, "RESETS_REFUSED", ""⟩]

/-- Table 14.13 (14_bringup.md). -/
def rows14_13 : List EntryRow := [
  ⟨0x6000, 1, 128, 0x01, 0x01, .u16, .ro, 2, 2, 0, 65535, 1, [], 0, 0, "CLUSTER_PRESENT", ""⟩,
  ⟨0x6000, 1, 128, 0x02, 0x02, .blob, .ro, 16, 16, 0, 0, 1, [], 0, 0, "SLOT_MAP", ""⟩,
  ⟨0x6000, 1, 128, 0x03, 0x03, .u8, .ro, 1, 1, 0, 255, 1, [], 0, 0, "SPARE_SLOT", ""⟩,
  ⟨0x6000, 1, 128, 0x04, 0x04, .blob, .ro, 17, 17, 0, 0, 1, [], 0, 0, "SLOT_STATE", ""⟩,
  ⟨0x6000, 1, 128, 0x05, 0x05, .u8, .ro, 1, 1, 0, 255, 1, [], 0, 0, "CLUSTER_UNITS", ""⟩]

/-- Table 15.12 (15_power_thermal.md). -/
def rows15_12 : List EntryRow := [
  ⟨0x2200, 1, 1, 0x01, 0x01, .enum, .ro, 1, 1, 0, 3, 1, [], 0, 0, "POWER_STATE", ""⟩,
  ⟨0x2200, 1, 1, 0x02, 0x02, .enum, .wo, 1, 1, 0, 3, 1, [], 0, 0, "POWER_TARGET", ""⟩,
  ⟨0x2200, 1, 1, 0x03, 0x03, .enum, .ro, 1, 1, 0, 4, 1, [], 0, 0, "POWER_RESULT", ""⟩,
  ⟨0x2200, 1, 1, 0x04, 0x04, .u8, .rw, 1, 1, 0, 7, 1, [255], 255, 0, "WAKE_GPIO", ""⟩,
  ⟨0x2200, 1, 1, 0x05, 0x05, .enum, .rw, 1, 1, 0, 1, 1, [], 0, 0, "WAKE_EDGE", ""⟩,
  ⟨0x2200, 1, 1, 0x06, 0x06, .u32, .rwc, 4, 4, 0, 4294967295, 1, [], 0, 0, "POWER_REFUSALS", ""⟩,
  ⟨0x2200, 1, 1, 0x07, 0x07, .u32, .rwc, 4, 4, 0, 4294967295, 1, [], 0, 0, "POWER_ABORTS", ""⟩,
  ⟨0x2200, 1, 1, 0x08, 0x08, .blob, .ro, 256, 256, 0, 0, 1, [], 0, 0, "POWER_LOG", ""⟩,
  ⟨0x2200, 1, 1, 0x09, 0x09, .bool, .rw, 1, 1, 0, 1, 1, [], 1, 0, "ISLAND_GATING", ""⟩,
  ⟨0x2200, 1, 1, 0x0A, 0x0A, .u16, .ro, 2, 2, 0, 65535, 1, [], 65535, 0, "ISLANDS_GATED", ""⟩]

/-- Table 15.13 (15_power_thermal.md). -/
def rows15_13 : List EntryRow := [
  ⟨0x2201, 1, 1, 0x01, 0x01, .u16, .ro, 2, 2, 0, 65535, 1, [], 550, 0, "VOLT_WEST", "mV"⟩,
  ⟨0x2201, 1, 1, 0x02, 0x02, .u16, .ro, 2, 2, 0, 65535, 1, [], 550, 0, "VOLT_EAST", "mV"⟩,
  ⟨0x2201, 1, 1, 0x03, 0x03, .u16, .ro, 2, 2, 0, 65535, 1, [], 620, 0, "CEILING_WEST", "mV"⟩,
  ⟨0x2201, 1, 1, 0x04, 0x04, .u16, .ro, 2, 2, 0, 65535, 1, [], 620, 0, "CEILING_EAST", "mV"⟩,
  ⟨0x2201, 1, 1, 0x05, 0x05, .u16, .rw, 2, 2, 500, 2000, 250, [], 2000, 0, "FABRIC_CLOCK_REQ_WEST", "MHz"⟩,
  ⟨0x2201, 1, 1, 0x06, 0x06, .u16, .rw, 2, 2, 500, 2000, 250, [], 2000, 0, "FABRIC_CLOCK_REQ_EAST", "MHz"⟩,
  ⟨0x2201, 1, 1, 0x07, 0x07, .u16, .rw, 2, 2, 0, 10000, 1, [], 100, 0, "PROFILE_WAIT", "ms"⟩,
  ⟨0x2201, 1, 1, 0x08, 0x08, .u32, .rwc, 4, 4, 0, 4294967295, 1, [], 0, 0, "PROFILE_CHANGES", ""⟩,
  ⟨0x2201, 1, 1, 0x09, 0x09, .u64, .rwc, 8, 8, 0, 18446744073709551615, 1, [], 0, 0, "PROFILE_HOLD_SLIP", "ns"⟩]

/-- Table 15.14 (15_power_thermal.md). -/
def rows15_14 : List EntryRow := [
  ⟨0x2202, 1, 1, 0x01, 0x01, .f32, .ro, 4, 4, 0, 4294967295, 1, [], 0, 0, "TJ_WEST", "°C"⟩,
  ⟨0x2202, 1, 1, 0x02, 0x02, .f32, .ro, 4, 4, 0, 4294967295, 1, [], 0, 0, "TJ_EAST", "°C"⟩,
  ⟨0x2202, 1, 1, 0x03, 0x03, .f32, .ro, 4, 4, 0, 4294967295, 1, [], 0, 0, "TJ_IO", "°C"⟩,
  ⟨0x2202, 1, 1, 0x04, 0x04, .f32, .rwc, 4, 4, 0, 4294967295, 1, [], 0, 0, "TJ_PEAK", "°C"⟩,
  ⟨0x2202, 1, 1, 0x05, 0x05, .u8, .lk, 1, 1, 60, 95, 1, [], 90, 0, "JUNCTION_TARGET", "°C"⟩,
  ⟨0x2202, 1, 1, 0x06, 0x06, .u8, .lk, 1, 1, 70, 100, 1, [], 100, 0, "THROTTLE_TEMP", "°C"⟩,
  ⟨0x2202, 1, 1, 0x07, 0x07, .u32, .rwc, 4, 4, 0, 4294967295, 1, [], 0, 0, "THROTTLE_EVENTS", ""⟩,
  ⟨0x2202, 1, 1, 0x08, 0x08, .u32, .rwc, 4, 4, 0, 4294967295, 1, [], 0, 0, "FW_CLOCK_REDUCTIONS", ""⟩,
  ⟨0x2202, 1, 1, 0x09, 0x09, .blob, .ro, 16, 16, 0, 0, 1, [], 0, 0, "TRIP_RECORD", ""⟩]

/-- Table 15.15 (15_power_thermal.md). -/
def rows15_15 : List EntryRow := [
  ⟨0x2203, 1, 1, 0x01, 0x01, .f32, .ro, 4, 4, 0, 4294967295, 1, [], 0, 0, "MODULE_POWER", "W"⟩,
  ⟨0x2203, 1, 1, 0x02, 0x02, .f32, .ro, 4, 4, 0, 4294967295, 1, [], 0, 0, "POWER_WEST", "W"⟩,
  ⟨0x2203, 1, 1, 0x03, 0x03, .f32, .ro, 4, 4, 0, 4294967295, 1, [], 0, 0, "POWER_EAST", "W"⟩,
  ⟨0x2203, 1, 1, 0x04, 0x04, .u64, .ro, 8, 8, 0, 18446744073709551615, 1, [], 0, 0, "ENERGY", "mJ"⟩,
  ⟨0x2203, 1, 1, 0x05, 0x05, .u16, .lk, 2, 2, 30, 320, 1, [], 320, 0, "POWER_LIMIT", "W"⟩,
  ⟨0x2203, 1, 1, 0x06, 0x06, .bool, .ro, 1, 1, 0, 1, 1, [], 0, 0, "POWER_LIMIT_ACTIVE", ""⟩,
  ⟨0x2203, 1, 1, 0x07, 0x07, .u32, .rwc, 4, 4, 0, 4294967295, 1, [], 0, 0, "POWER_LIMIT_EVENTS", ""⟩]

/-- Table 15.16 (15_power_thermal.md). -/
def rows15_16 : List EntryRow := [
  ⟨0x2204, 1, 1, 0x01, 0x01, .enum, .ro, 1, 1, 0, 1, 1, [], 0, 0, "COOLANT_STATE", ""⟩,
  ⟨0x2204, 1, 1, 0x02, 0x02, .u8, .rw, 1, 1, 0, 7, 1, [255], 255, 0, "COOLANT_OK_GPIO", ""⟩,
  ⟨0x2204, 1, 1, 0x03, 0x03, .enum, .rw, 1, 1, 0, 1, 1, [], 1, 0, "COOLANT_OK_LEVEL", ""⟩,
  ⟨0x2204, 1, 1, 0x04, 0x04, .blob, .wo, 8, 8, 0, 0, 1, [], 0, 0, "COOLANT_REPORT", ""⟩,
  ⟨0x2204, 1, 1, 0x05, 0x05, .u16, .rw, 2, 2, 10, 10000, 1, [0], 0, 0, "COOLANT_REPORT_TIMEOUT", "ms"⟩,
  ⟨0x2204, 1, 1, 0x06, 0x06, .u8, .rw, 1, 1, 1, 50, 1, [], 5, 0, "RISE_RATE_LIMIT", "°C/s"⟩,
  ⟨0x2204, 1, 1, 0x07, 0x07, .enum, .lk, 1, 1, 0, 1, 1, [], 0, 0, "COOLANT_LOSS_ACTION", ""⟩,
  ⟨0x2204, 1, 1, 0x08, 0x08, .u16, .lk, 2, 2, 20, 140, 1, [], 40, 0, "COOLANT_LOSS_POWER", "W"⟩,
  ⟨0x2204, 1, 1, 0x09, 0x09, .u32, .rwc, 4, 4, 0, 4294967295, 1, [], 0, 0, "COOLANT_LOSSES", ""⟩,
  ⟨0x2204, 1, 1, 0x0A, 0x0A, .u32, .ro, 4, 4, 0, 4294967295, 1, [], 0, 0, "LAST_FLOW", "mL/min"⟩,
  ⟨0x2204, 1, 1, 0x0B, 0x0B, .f32, .ro, 4, 4, 0, 4294967295, 1, [], 0, 0, "LAST_INLET", "°C"⟩]

/-- Table 15.17 (15_power_thermal.md). -/
def rows15_17 : List EntryRow := [
  ⟨0x2205, 1, 1, 0x01, 0x01, .u8, .ro, 1, 1, 0, 255, 1, [], 0, 0, "EMERGENCY_FLAGS", ""⟩,
  ⟨0x2205, 1, 1, 0x02, 0x02, .u64, .ro, 8, 8, 0, 18446744073709551615, 1, [], 0, 0, "EMERGENCY_CLEAR_TIME", "ns"⟩,
  ⟨0x2205, 1, 1, 0x03, 0x03, .u32, .rwc, 4, 4, 0, 4294967295, 1, [], 0, 0, "EMERGENCIES", ""⟩]

/-- Table 15.18 (15_power_thermal.md). -/
def rows15_18 : List EntryRow := [
  ⟨0x2206, 1, 1, 0x01, 0x01, .u8, .rw, 1, 1, 0, 128, 1, [], 0, 0, "PACK_CLUSTERS", "clusters"⟩,
  ⟨0x2206, 1, 1, 0x02, 0x02, .enum, .rw, 1, 1, 0, 2, 1, [], 2, 0, "PACK_HALF", ""⟩,
  ⟨0x2206, 1, 1, 0x03, 0x03, .blob, .ro, 16, 16, 0, 0, 1, [], 0, 0, "PACK_MASK", ""⟩]

/-- Table 16.16 (16_reliability.md). -/
def rows16_16 : List EntryRow := [
  ⟨0x2300, 1, 1, 0x01, 0x01, .u8, .rw, 1, 1, 1, 3, 1, [], 2, 0, "FAULT_N_SEVERITY", ""⟩,
  ⟨0x2300, 1, 1, 0x02, 0x02, .bool, .rw, 1, 1, 0, 1, 1, [], 1, 0, "AUTO_TAKEOVER", ""⟩,
  ⟨0x2300, 1, 1, 0x03, 0x03, .u16, .rw, 2, 2, 16, 1024, 16, [], 64, 0, "CAIRN_INTERVAL", "pitches"⟩,
  ⟨0x2300, 1, 1, 0x04, 0x04, .u16, .rw, 2, 2, 1, 65535, 1, [], 8, 0, "PEER_LOSS_PITCHES", "pitches"⟩,
  ⟨0x2300, 1, 1, 0x05, 0x05, .u32, .rw, 4, 4, 1024, 1048576, 1, [], 65536, 0, "LEDGER_DEPTH", "pitches"⟩]

/-- Table 16.17 (16_reliability.md). -/
def rows16_17 : List EntryRow := [
  ⟨0x2301, 1, 1, 0x01, 0x01, .u8, .ro, 1, 1, 0, 255, 1, [], 0, 0, "FAULT_ACTIVE", ""⟩,
  ⟨0x2301, 1, 1, 0x02, 0x02, .u32, .wo, 4, 4, 0, 4294967295, 1, [], 0, 0, "FAULT_ACK", ""⟩,
  ⟨0x2301, 1, 1, 0x03, 0x03, .u32, .ro, 4, 4, 0, 4294967295, 1, [], 0, 0, "FAULT_SEQ", ""⟩,
  ⟨0x2301, 1, 1, 0x04, 0x04, .u32, .rw, 4, 4, 0, 4294967295, 1, [], 0, 0, "FAULT_SELECT", ""⟩,
  ⟨0x2301, 1, 1, 0x05, 0x05, .blob, .ro, 32, 32, 0, 0, 1, [], 0, 0, "FAULT_RECORD", ""⟩,
  ⟨0x2301, 1, 1, 0x06, 0x06, .u32, .rwc, 4, 4, 0, 4294967295, 1, [], 0, 0, "FAULT_LOG_DROPS", ""⟩,
  ⟨0x2301, 1, 1, 0x07, 0x07, .u32, .rwc, 4, 4, 0, 4294967295, 1, [], 0, 0, "EMERGENCIES_ISSUED", ""⟩,
  ⟨0x2301, 1, 1, 0x08, 0x08, .u32, .rwc, 4, 4, 0, 4294967295, 1, [], 0, 0, "EMERGENCY_SUPPRESSED", ""⟩]

/-- Table 16.18 (16_reliability.md). -/
def rows16_18 : List EntryRow := [
  ⟨0x2302, 1, 1, 0x01, 0x01, .u32, .rwc, 4, 4, 0, 4294967295, 1, [], 0, 0, "TAKEOVERS", ""⟩,
  ⟨0x2302, 1, 1, 0x02, 0x02, .u32, .rwc, 4, 4, 0, 4294967295, 1, [], 0, 0, "COLD_TAKEOVERS", ""⟩,
  ⟨0x2302, 1, 1, 0x03, 0x03, .u16, .ro, 2, 2, 0, 65535, 1, [], 0, 0, "CORES_LOST", ""⟩,
  ⟨0x2302, 1, 1, 0x04, 0x04, .u16, .ro, 2, 2, 0, 65535, 1, [], 0, 0, "CORES_CATCHING_UP", ""⟩,
  ⟨0x2302, 1, 1, 0x05, 0x05, .u16, .rwc, 2, 2, 0, 65535, 1, [], 0, 0, "MISSED_PITCHES_PEAK", "pitches"⟩,
  ⟨0x2302, 1, 1, 0x06, 0x06, .u32, .rwc, 4, 4, 0, 4294967295, 1, [], 0, 0, "SLICE_TAKEOVERS", ""⟩,
  ⟨0x2302, 1, 1, 0x07, 0x07, .u8, .ro, 1, 1, 0, 255, 1, [], 0, 0, "SLICES_LOST", ""⟩,
  ⟨0x2302, 1, 1, 0x08, 0x08, .u64, .rwc, 8, 8, 0, 18446744073709551615, 1, [], 0, 0, "SUNK_AT_FAILED", "packets"⟩,
  ⟨0x2302, 1, 1, 0x09, 0x09, .u32, .rwc, 4, 4, 0, 4294967295, 1, [], 0, 0, "STORE_REBUILDS", ""⟩,
  ⟨0x2302, 1, 1, 0x0A, 0x0A, .u64, .rwc, 8, 8, 0, 18446744073709551615, 1, [], 0, 0, "STORE_LOSS", "records"⟩,
  ⟨0x2302, 1, 1, 0x0B, 0x0B, .u32, .rwc, 4, 4, 0, 4294967295, 1, [], 0, 0, "CONTROLLER_RESTARTS", ""⟩,
  ⟨0x2302, 1, 1, 0x0C, 0x0C, .u32, .ro, 4, 4, 0, 4294967295, 1, [], 0, 0, "MGMT_RESTARTS", ""⟩,
  ⟨0x2302, 1, 1, 0x0D, 0x0D, .blob, .ro, 24, 24, 0, 0, 1, [], 0, 0, "LAST_TAKEOVER", ""⟩]

/-- Table 16.19 (16_reliability.md). -/
def rows16_19 : List EntryRow := [
  ⟨0x2303, 1, 1, 0x01, 0x01, .u32, .wo, 4, 4, 0, 4294967295, 1, [], 0, 0, "TEST_COMMAND", ""⟩,
  ⟨0x2303, 1, 1, 0x02, 0x02, .enum, .ro, 1, 1, 0, 4, 1, [], 0, 0, "TEST_RESULT", ""⟩]

/-- Table 16.20 (16_reliability.md). -/
def rows16_20 : List EntryRow := [
  ⟨0x2310, 1, 8, 0x01, 0x01, .enum, .rw, 1, 1, 0, 2, 1, [], 2, 0, "HOST_LOSS_POLICY", ""⟩,
  ⟨0x2310, 1, 8, 0x02, 0x02, .u32, .rw, 4, 4, 1, 4294967295, 1, [], 1000, 0, "CONTINUE_PITCHES", "pitches"⟩,
  ⟨0x2310, 1, 8, 0x03, 0x03, .enum, .ro, 1, 1, 0, 1, 1, [], 0, 0, "HOST_LOSS_STATE", ""⟩]

/-- Table 16.21 (16_reliability.md). -/
def rows16_21 : List EntryRow := [
  ⟨0x2320, 1, 8, 0x01, 0x01, .u64, .rw, 8, 8, 0, 18446744073709551615, 1, [], 0, 0, "LEDGER_SELECT", "pitch"⟩,
  ⟨0x2320, 1, 8, 0x02, 0x02, .blob, .ro, 32, 81952, 0, 0, 1, [], 0, 0, "LEDGER_RECORD", ""⟩,
  ⟨0x2320, 1, 8, 0x03, 0x03, .u64, .ro, 8, 8, 0, 18446744073709551615, 1, [], 0, 0, "LEDGER_OLDEST", "pitch"⟩,
  ⟨0x2320, 1, 8, 0x04, 0x04, .u64, .ro, 8, 8, 0, 18446744073709551615, 1, [], 0, 0, "LEDGER_NEWEST", "pitch"⟩,
  ⟨0x2320, 1, 8, 0x05, 0x05, .u32, .rwc, 4, 4, 0, 4294967295, 1, [], 0, 0, "LEDGER_GAPS", "pitches"⟩]

/-- Table 16.22 (16_reliability.md). -/
def rows16_22 : List EntryRow := [
  ⟨0x6000, 1, 128, 0x10, 0x10, .u16, .ro, 2, 2, 0, 65535, 1, [], 0, 0, "CATCHING_UP", ""⟩,
  ⟨0x6000, 1, 128, 0x11, 0x11, .u16, .ro, 2, 2, 0, 65535, 1, [], 0, 0, "LOST_CORES", ""⟩,
  ⟨0x6000, 1, 128, 0x12, 0x12, .u16, .ro, 2, 2, 0, 65535, 1, [], 0, 0, "CAIRN_AGE", "pitches"⟩,
  ⟨0x6000, 1, 128, 0x13, 0x13, .u16, .ro, 2, 2, 0, 65535, 1, [], 0, 0, "JOURNAL_COVER", "pitches"⟩,
  ⟨0x6000, 1, 128, 0x14, 0x14, .u16, .ro, 2, 2, 0, 65535, 1, [], 0, 0, "CORE_FAILURES", ""⟩,
  ⟨0x6000, 1, 128, 0x15, 0x15, .u8, .rwc, 1, 1, 0, 255, 1, [], 0, 0, "LOAD_PEAK", "%"⟩]

/-- Table 16.23 (16_reliability.md). -/
def rows16_23 : List EntryRow := [
  ⟨0x7000, 1, 1, 0x01, 0x01, .u32, .ro, 4, 4, 0, 4294967295, 1, [], 0, 0, "LIFE_FAULTS", ""⟩,
  ⟨0x7000, 1, 1, 0x02, 0x02, .u32, .ro, 4, 4, 0, 4294967295, 1, [], 0, 0, "LIFE_TAKEOVERS", ""⟩,
  ⟨0x7000, 1, 1, 0x03, 0x03, .u32, .ro, 4, 4, 0, 4294967295, 1, [], 0, 0, "LIFE_CORES_LOST", ""⟩,
  ⟨0x7000, 1, 1, 0x04, 0x04, .u32, .ro, 4, 4, 0, 4294967295, 1, [], 0, 0, "LIFE_HOURS", "h"⟩,
  ⟨0x7000, 1, 1, 0x05, 0x05, .u32, .ro, 4, 4, 0, 4294967295, 1, [], 0, 0, "LIFE_THERMAL_TRIPS", ""⟩]

/-- Table 17.8 (17_security.md). -/
def rows17_8 : List EntryRow := [
  ⟨0x2600, 1, 1, 0x01, 0x01, .blob, .ro, 32, 32, 0, 0, 1, [], 0, 0, "IDK_PUBLIC", ""⟩,
  ⟨0x2600, 1, 1, 0x02, 0x02, .blob, .ro, 30048, 30048, 0, 0, 1, [], 0, 0, "IDK_CERT", ""⟩,
  ⟨0x2600, 1, 1, 0x03, 0x03, .blob, .ro, 32, 32, 0, 0, 1, [], 0, 0, "DEVICE_KEY_DIGEST", ""⟩,
  ⟨0x2600, 1, 1, 0x04, 0x04, .blob, .ro, 32, 32, 0, 0, 1, [], 0, 0, "AK_PUBLIC", ""⟩,
  ⟨0x2600, 1, 1, 0x05, 0x05, .blob, .ro, 17216, 17216, 0, 0, 1, [], 0, 0, "AK_CERT", ""⟩]

/-- Table 17.9 (17_security.md). -/
def rows17_9 : List EntryRow := [
  ⟨0x2601, 1, 1, 0x01, 0x01, .enum, .ro, 1, 1, 0, 1, 1, [], 0, 0, "FW_RUNNING_SLOT", ""⟩,
  ⟨0x2601, 1, 1, 0x02, 0x02, .blob, .ro, 32, 32, 0, 0, 1, [], 0, 0, "FW_MEASUREMENT", ""⟩,
  ⟨0x2601, 1, 1, 0x03, 0x03, .u8, .ro, 1, 1, 0, 255, 1, [], 0, 0, "FW_SVN", ""⟩,
  ⟨0x2601, 1, 1, 0x04, 0x04, .u8, .ro, 1, 1, 0, 255, 1, [], 0, 0, "SVN_FUSED", ""⟩,
  ⟨0x2601, 1, 1, 0x05, 0x05, .blob, .ro, 16, 16, 0, 0, 1, [], 0, 0, "SLOT_INFO_A", ""⟩,
  ⟨0x2601, 1, 1, 0x06, 0x06, .blob, .ro, 16, 16, 0, 0, 1, [], 0, 0, "SLOT_INFO_B", ""⟩,
  ⟨0x2601, 1, 1, 0x07, 0x07, .enum, .wo, 1, 1, 1, 6, 1, [], 0, 0, "FW_COMMAND", ""⟩,
  ⟨0x2601, 1, 1, 0x08, 0x08, .enum, .ro, 1, 1, 0, 6, 1, [], 0, 0, "FW_STATE", ""⟩,
  ⟨0x2601, 1, 1, 0x09, 0x09, .u64, .rw, 8, 8, 0, 18446744073709551615, 32, [], 0, 0, "FW_STAGE_ADDR", "byte"⟩,
  ⟨0x2601, 1, 1, 0x0A, 0x0A, .u32, .rw, 4, 4, 30080, 4194304, 1, [0], 0, 0, "FW_STAGE_LENGTH", "byte"⟩,
  ⟨0x2601, 1, 1, 0x0B, 0x0B, .blob, .wo, 9, 1024, 0, 0, 1, [], 0, 0, "FW_CHUNK", ""⟩,
  ⟨0x2601, 1, 1, 0x0C, 0x0C, .enum, .ro, 1, 1, 0, 8, 1, [], 0, 0, "FW_ERROR", ""⟩,
  ⟨0x2601, 1, 1, 0x0D, 0x0D, .u8, .ro, 1, 1, 0, 255, 1, [], 0, 0, "ACTIVATION_WAIT", ""⟩,
  ⟨0x2601, 1, 1, 0x0E, 0x0E, .enum, .ro, 1, 1, 0, 3, 1, [], 0, 0, "BOOT_MODE", ""⟩,
  ⟨0x2601, 1, 1, 0x0F, 0x0F, .enum, .ro, 1, 1, 0, 3, 1, [], 0, 0, "TRIAL_RESULT", ""⟩]

/-- Table 17.10 (17_security.md). -/
def rows17_10 : List EntryRow := [
  ⟨0x2602, 1, 1, 0x01, 0x01, .bool, .lk, 1, 1, 0, 1, 1, [], 1, 0, "AUTO_CONFIRM", ""⟩,
  ⟨0x2602, 1, 1, 0x02, 0x02, .bool, .lk, 1, 1, 0, 1, 1, [], 0, 0, "AUTO_SVN_COMMIT", ""⟩,
  ⟨0x2602, 1, 1, 0x03, 0x03, .u8, .ro, 1, 1, 0, 255, 1, [], 0, 0, "FW_KEYS_REVOKED", ""⟩,
  ⟨0x2602, 1, 1, 0x04, 0x04, .enum, .lk, 1, 1, 0, 2, 1, [], 1, 0, "JTAG_MODE", ""⟩,
  ⟨0x2602, 1, 1, 0x05, 0x05, .blob, .ro, 32, 32, 0, 0, 1, [], 0, 0, "DEBUG_CHALLENGE", ""⟩,
  ⟨0x2602, 1, 1, 0x06, 0x06, .blob, .wo, 30048, 30048, 0, 0, 1, [], 0, 0, "DEBUG_TOKEN", ""⟩,
  ⟨0x2602, 1, 1, 0x07, 0x07, .enum, .ro, 1, 1, 0, 2, 1, [], 0, 0, "DEBUG_STATE", ""⟩]

/-- Table 17.11 (17_security.md). -/
def rows17_11 : List EntryRow := [
  ⟨0x2603, 1, 1, 0x01, 0x01, .blob, .wo, 30048, 30048, 0, 0, 1, [], 0, 0, "LICENCE_INSTALL", ""⟩,
  ⟨0x2603, 1, 1, 0x02, 0x02, .u32, .wo, 4, 4, 0, 4294967295, 1, [], 0, 0, "LICENCE_REMOVE", ""⟩,
  ⟨0x2603, 1, 1, 0x03, 0x03, .u8, .rw, 1, 1, 0, 31, 1, [], 0, 0, "LICENCE_SELECT", ""⟩,
  ⟨0x2603, 1, 1, 0x04, 0x04, .blob, .ro, 16, 16, 0, 0, 1, [], 0, 0, "LICENCE_INFO", ""⟩]

/-- Table 17.12 (17_security.md). -/
def rows17_12 : List EntryRow := [
  ⟨0x2604, 1, 1, 0x01, 0x01, .blob, .rw, 32, 32, 0, 0, 1, [], 0, 0, "ATTEST_NONCE", ""⟩,
  ⟨0x2604, 1, 1, 0x02, 0x02, .enum, .wo, 1, 1, 1, 1, 1, [], 0, 0, "ATTEST_COMMAND", ""⟩,
  ⟨0x2604, 1, 1, 0x03, 0x03, .enum, .ro, 1, 1, 0, 2, 1, [], 0, 0, "ATTEST_STATE", ""⟩,
  ⟨0x2604, 1, 1, 0x04, 0x04, .blob, .ro, 17600, 17600, 0, 0, 1, [], 0, 0, "ATTEST_QUOTE", ""⟩,
  ⟨0x2604, 1, 1, 0x05, 0x05, .u32, .rwc, 4, 4, 0, 4294967295, 1, [], 0, 0, "QUOTES", ""⟩]

/-- Every row of the dictionary. -/
def entryRows : List EntryRow := List.flatten [
  rows2_6, rows2_7, rows2_8, rows2_9, rows2_10, rows4_12, rows4_13, rows5_9, rows5_10, rows5_11, rows6_14, rows6_15, rows6_16,
  rows6_17, rows6_18, rows6_19, rows7_10, rows7_11, rows7_12, rows8_9, rows8_10, rows8_11, rows8_12, rows8_13, rows8_14,
  rows9_14, rows9_15, rows9_16, rows9_17, rows10_13, rows10_14, rows10_15, rows10_16, rows11_12, rows11_13, rows11_14, rows11_15,
  rows11_16, rows11_17, rows12_18, rows12_19, rows12_20, rows12_21, rows12_22, rows12_23, rows13_19, rows13_20, rows13_21,
  rows13_22, rows14_8, rows14_9, rows14_10, rows14_11, rows14_12, rows14_13, rows15_12, rows15_13, rows15_14, rows15_15,
  rows15_16, rows15_17, rows15_18, rows16_16, rows16_17, rows16_18, rows16_19, rows16_20, rows16_21, rows16_22, rows16_23,
  rows17_8, rows17_9, rows17_10, rows17_11, rows17_12]

/-- The key of entry `index`.`sub`. -/
def entryKey (index sub : Nat) : Nat := index * 256 + sub

/-- Does the row cover the index? -/
def rowHasIndex (r : EntryRow) (index : Nat) : Bool :=
  r.base ≤ index && (index - r.base) % r.stride == 0 && (index - r.base) / r.stride < r.count

/-- Does the row cover the entry? -/
def rowCovers (r : EntryRow) (index sub : Nat) : Bool :=
  rowHasIndex r index && r.subLo ≤ sub && sub ≤ r.subHi

/-- The row of an entry, if a chapter defines it (R347). -/
def entryRow (index sub : Nat) : Option EntryRow := entryRows.find? (fun r => rowCovers r index sub)

/-- The default of the entry with key `k` (R350, R373): what an entry reads that nothing has changed. -/
def entryDefault (k : Nat) : Nat :=
  match entryRow (k / 256) (k % 256) with
  | some r => r.dflt + r.dstep * ((k / 256 - r.base) / r.stride)
  | none => 0

/-- NSUB of an index (R348): the highest subindex it defines; 0 for an index no chapter defines. -/
def entryNsub (index : Nat) : Nat :=
  (entryRows.filter (fun r => rowHasIndex r index)).foldl (fun a r => max a r.subHi) 0

end Sys2Proof.Machine
end

