-- ==== Sys2Proof/Machine/State.lean ====
section
/-!
DEFINITION. The state of the block as plain data: every register, memory, queue, buffer and pin that the spec gives the
part, the queue of waiting commands, what has left the part, and the state after reset. A store indexed by a number is an
`SMap`; the accessors of the Machine files say what an unlisted key reads as. Values that are entries of the object
dictionary live in `dict` alone.
-/

namespace Sys2Proof.Machine

/-- Why the machine stops: nothing in the spec stops the part, so no fault exists (safe: no run ends in one). -/
inductive Fault where
  deriving DecidableEq, Repr

/-- Why a command is not run. -/
inductive Refusal where
  /-- Raised by the arms of `exec` that have no meaning; safe, since no next state is claimed. -/
  | notModelled (mnemonic : String)
  deriving DecidableEq, Repr

/-! ### Cores (chapters 3 to 5, 16) -/

/-- A stored event record (Table 5.3 with TGT) with its full target pitch; `stream` names the stream of an encoded
event, `segEnd` marks the last record of a ring segment that INTAKE reads, `merged` a record of a merged slot. -/
structure EvRec where
  word   : BitVec 64
  target : Nat
  ovf    : Bool := false
  segEnd : Bool := false
  merged : Bool := false
  stream : Option Nat := none
  deriving DecidableEq, Repr

/-- A spike word (Table 3.4); `late` marks one produced at or after the absorb instant (R171). -/
structure Spike where
  q        : Nat
  n        : Nat
  withheld : Bool
  late     : Bool := false
  deriving DecidableEq, Repr

/-- The classes of a cached object (R132). -/
inductive CacheClass where
  | resident | pinned | cached
  deriving DecidableEq, Repr

/-- What a cached object is: a synapse row, a row directory entry, or a pricking entry of a position. -/
inductive CacheKind where
  | row | dir | prick
  deriving DecidableEq, Repr

/-- An object of the synapse cache: its number, class, reuse score, size in 32-byte units, and whether it was hit since
the last review (R134). -/
structure CacheObj where
  kind  : CacheKind
  idx   : Nat
  cls   : CacheClass
  score : Nat
  units : Nat
  hit   : Bool
  deriving DecidableEq, Repr

/-- A row read that a core has outstanding (R131): prefetches first read the directory entry, then the row. -/
structure RowRead where
  row     : Nat
  dirDone : Bool
  deriving DecidableEq, Repr

/-- An open event haul of EMIT (R120): its address, its records and the instant it was opened. An address below 2,048 is
a logical core; 2,048 + e is edge router e. -/
structure OpenHaul where
  dst     : Nat
  events  : List (BitVec 64) := []
  remotes : List RemoteRec := []
  opened  : Nat
  deriving DecidableEq, Repr

/-- What a launched haul carries. -/
inductive HaulKind where
  | event | remote | injected
  | encoded (stream : Nat)
  deriving DecidableEq, Repr

/-- A haul in flight: its sender (a core, an edge router or a home slice), address, records and pitch. -/
structure Haul where
  kind    : HaulKind
  src     : Nat
  dst     : Nat
  events  : List (BitVec 64)
  remotes : List RemoteRec
  pitch   : Nat
  part    : Nat
  deriving DecidableEq, Repr

/-- MODE of a logical core (Table 16.13): in service, declared failed, catching up, or lost. -/
inductive CoreMode where
  | live | failed | excused | lost
  deriving DecidableEq, Repr

/-- The counts of the open pitch that the ledger's core entry reports (Table 16.13); `stations` of a core that failed in it are those that it had completed. -/
structure CoreLedger where
  truncIn   : Nat := 0
  withheld  : Nat := 0
  absorbed  : Nat := 0
  dropped   : Nat := 0
  replayed  : Nat := 0
  late      : Nat := 0
  cold      : Bool := false
  cairn     : Nat := 0
  stations  : Option Nat := none
  deriving DecidableEq, Repr

/-- A core's cairns (R430, R431): the pitch whose belay calls for one, the one being written, the latest complete one
with its slot. -/
structure Cairn where
  due     : Option Nat := none
  writing : Option Nat := none
  latest  : Option Nat := none
  slot    : Nat := 0
  late    : Bool := false
  deriving DecidableEq, Repr

/-- A takeover in progress (R438 to R442): the pitch of failure d, the cairn pitch k, the next pitch to replay, the
spike words of X's own replayed pitches, the replay events so far, and the spare's slot. -/
structure CatchUp where
  d     : Nat
  k     : Nat
  next  : Nat
  own   : List (Nat × Spike) := []
  total : Nat := 0
  slot  : Nat := 0
  cold  : Bool := false
  ready : Bool := false
  deriving DecidableEq, Repr

/-- A logical core: the pitch in progress, the stations' queues, ring, cache with the listed rows that its next read makes RESIDENT (R134, R167), open
hauls, and its part in continuity. -/
structure Core where
  mode      : CoreMode := .live
  isOpen    : Bool := false
  pitch     : Nat := 0
  intake    : List EvRec := []
  encWait   : Bool := false
  sweepDone : Bool := false
  belaySent : Bool := false
  belayAt   : Nat := 0
  belayRcvd : Bool := false
  truncated : Bool := false
  absorbed  : Bool := false
  openedAt  : Nat := 0
  settleAt  : Nat := 0
  ring      : List EvRec := []
  cache     : List CacheObj := []
  reads     : List RowRead := []
  deferred  : List Nat := []
  awaited   : List Nat := []
  openHauls : List OpenHaul := []
  emitQ     : List Spike := []
  stalled   : Bool := false
  led       : CoreLedger := {}
  cairn     : Cairn := {}
  catchUp   : Option CatchUp := none
  deriving DecidableEq, Repr

/-- The memories inside the cores, one store for all cores: neuron state words by global neuron identifier;
accumulators likewise; outlier sums and outlier map by core × 2,048 + slot; population and rescale records, as the
little-endian numbers of their 32 and 64 bytes, by core × 32 + index; guard counts by (core × 32 + record) × 16 + (0
active, 1 + s saturated, 5 + s underflow); counters by core × 256 + offset of Table 6.13; cairn words by (core × 2 +
slot) × 16,384 + position. -/
structure CoreMem where
  neurons  : SMap (BitVec 64) := []
  acc      : SMap Int := []
  osum     : SMap (BitVec 32) := []
  omap     : SMap (BitVec 16) := []
  pop      : SMap Nat := []
  resc     : SMap Nat := []
  guard    : SMap Nat := []
  counters : SMap Nat := []
  cairns   : SMap (BitVec 64) := []
  deriving DecidableEq, Repr

/-! ### Clusters (chapters 5, 14, 16) -/

/-- A journal entry (Table 16.8). -/
inductive JEntry where
  | spike (count : Nat) (withheld : Bool) (src : Nat)
  | release (core : Nat) (word : BitVec 64)
  | inject (core : Nat) (word : BitVec 64)
  deriving DecidableEq, Repr

/-- A record in a long-delay store: its core within the cluster, the stored record and its target pitch; `remote` marks one
from another module, `late` one that a rebuild has re-entered after its release fell due (R444). -/
structure LdsRec where
  core   : Nat
  word   : BitVec 64
  target : Nat
  remote : Bool := false
  late   : Bool := false
  deriving DecidableEq, Repr

/-- A cluster: its long-delay store, JOURNAL buffer and journal with the place of the ring's next word (R433), belay and ENCODE_DONE marks, and its controller; `rebuild` holds what the store held when an error cleared it, and the pitch of that (R444). -/
structure Cluster where
  lds        : List LdsRec := []
  journalBuf : List JEntry := []
  journal    : List (Nat × List JEntry) := []
  jNext      : Nat := 0
  belaySent  : Bool := false
  pathFrom   : Nat := 0
  encDone    : List Nat := []
  encFwd     : Bool := false
  restarting : Option Nat := none
  rebuild    : Option (List LdsRec × Nat) := none
  dropLds    : Nat := 0
  ldsPeak    : Nat := 0
  deriving DecidableEq, Repr

/-! ### Partitions (chapters 2, 6, 7, 16) -/

/-- The states of a partition (Table 6.10). -/
inductive PartState where
  | absent | created | ready | enabled | disabling
  deriving DecidableEq, Repr

/-- The states of an image slot (R162). -/
inductive SlotState where
  | empty | loading | loaded | active | failed
  deriving DecidableEq, Repr

/-- A placed tile: its table entry (Table 6.4), its COUNT, and the LPDDR6 granules that hold it in order (its tile map,
R487). -/
structure Tile where
  kind     : Nat
  place    : Nat
  owner    : Nat
  crc      : Nat
  off      : Nat
  len      : Nat
  count    : Nat := 0
  granules : List Nat := []
  deriving DecidableEq, Repr

/-- A plastic projection of a slot (chapter 7): generation, open bank, APPLY in progress and complete, the first pitch of the present
generation, and the executed pitch at whose boundary the last APPLY began; `moved` says that no pitch has opened under the present generation yet, and
`told` that its switch stands in the ledger (R194). -/
structure Proj where
  gen     : Nat := 0
  bank    : Nat := 0
  apply   : Bool := false
  done    : Bool := false
  last    : Nat := 0
  ranges  : List (Nat × Nat) := []
  began   : Nat := 0
  moved   : Bool := false
  told    : Bool := true
  deriving DecidableEq, Repr

/-- An image slot: its state, the header fields and core masks of its image, its tiles, projections and flags. -/
structure Slot where
  state     : SlotState := .empty
  flags     : Nat := 0
  hdr       : Bytes := []
  masks     : SMap Nat := []
  tiles     : List Tile := []
  projs     : SMap Proj := []
  origin    : Bytes := []
  mismatch  : Bool := false
  trimmed   : Bool := false
  fresh     : Bool := true
  deriving DecidableEq, Repr

/-- A LOAD in progress: the slot, the container's address, and the index of the next tile to land. -/
structure Loading where
  slot : Nat
  addr : Nat
  next : Nat
  deriving DecidableEq, Repr

/-- A scale group (R108): the active set, the sets that take effect later with the openings still to wait, oldest first, the NOFIT
state, the fractions of the last decided window, and the first pitch of the present set. -/
structure ScaleGroup where
  cur    : Nat := 0
  next   : List (Nat × Nat) := []
  nofit  : Bool := false
  sat    : Nat := 0
  under  : Nat := 0
  last   : Nat := 0
  deriving DecidableEq, Repr

/-- The forms of a disable that is under way (R170, R171). -/
inductive DisableForm where
  | belay | now
  deriving DecidableEq, Repr

/-- A ledger event entry (Table 16.14). -/
structure LedgerEvent where
  type : Nat
  arg0 : Nat
  arg1 : Nat
  arg2 : Nat
  deriving DecidableEq, Repr

/-- A ledger core entry (Table 16.13). -/
structure LedgerCore where
  core     : Nat
  stations : Nat
  mode     : Nat
  led      : CoreLedger
  deriving DecidableEq, Repr

/-- A ledger record (Table 16.12). -/
structure LedgerRec where
  pitch    : Nat
  openTime : Nat
  slack    : Int
  flags    : Nat
  merged   : Nat
  cores    : List LedgerCore
  events   : List LedgerEvent
  deriving DecidableEq, Repr

/-- A pitch sequencer (chapter 2): the open pitch, the pending tick with the numbers merged into it, the belays held,
and the quadrature and 802.1AS positions of its schedule. -/
structure Seq where
  isOpen    : Bool := false
  pitch     : Nat := 0
  ticks     : Nat := 0
  openAt    : Nat := 0
  belayAt   : Nat := 0
  lastTick  : Nat := 0
  enabledAt : Nat := 0
  executed  : Nat := 0
  everOpen  : Bool := false
  prevPitch : Nat := 0
  pendTick  : Option (Nat × Nat) := none
  pendMerge : List Nat := []
  merged    : List Nat := []
  belays    : List Nat := []
  westAt    : Nat := 0
  eastAt    : Nat := 0
  overrun   : Bool := false
  watched   : Bool := false
  truncAt   : Option Nat := none
  absorbAt  : Option Nat := none
  timedOut  : List Nat := []
  quadP0    : Int := 0
  quadJ     : Nat := 1
  quadAbs   : Nat := 0
  slew      : Int := 0
  deriving DecidableEq, Repr

/-- The scale guard and cairn schedule of a partition (R108, R430): `first` is the first pitch since the guard restarted, `fresh` that
it has not opened yet, and `sets` says from which pitch on a group (or, at a restart, every group) has had which set (R109). -/
structure Windows where
  pos      : Nat := 0
  len      : Nat := 0
  groups   : SMap ScaleGroup := []
  cycle    : Option Nat := none
  interval : Nat := 64
  cycleDue : Bool := true
  first    : Nat := 0
  fresh    : Bool := true
  sets     : List (Nat × Option Nat × Nat) := []
  deriving DecidableEq, Repr

/-- The ledger of a partition: the records held, the place of the ring's next byte, and the marks gathered for the open pitch (R449). -/
structure Ledger where
  recs   : List LedgerRec := []
  events : List LedgerEvent := []
  flags  : Nat := 0
  drops  : List (Nat × Nat × Nat) := []
  depth  : Nat := 65536
  queued : List LedgerRec := []
  next   : Nat := 0
  deriving DecidableEq, Repr

/-- The counts of a readout group (Table 8.14). -/
structure OutCounts where
  published : Nat := 0
  late      : Nat := 0
  clamps    : Nat := 0
  absorbed  : Nat := 0
  deriving DecidableEq, Repr

/-- What reads of the indices snapshotted at a belay return (R353): the values of the last belay, and the converters held at it. Assumption 55 [DEDUCED, unsafe]. -/
structure BelaySnap where
  vals     : SMap Nat := []
  counters : SMap Nat := []
  groups   : SMap ScaleGroup := []
  first    : Nat := 0
  projs    : SMap Proj := []
  outs     : SMap OutCounts := []
  convs    : List Nat := []
  deriving DecidableEq, Repr

/-- A neuron access (R178): who asked, the subindex (0 for a READ_INDEX of 0x3n04), the target, the value of a write, the TAG of the
request, and OFFSET and MAXLEN of a READ (FIRST_SUB of a READ_INDEX). -/
structure NeuronReq where
  req    : Requester
  sub    : Nat
  target : Nat
  data   : Option Bytes := none
  tag    : Option Nat := none
  off    : Nat := 0
  maxlen : Nat := 1024
  deriving DecidableEq, Repr

/-- A partition: its state, image slots, sequencer, guard, ledger and accesses; `hold` and `hostHold` are the holds of outputs by cadence loss and by a
host loss whose policy was HOLD (R62, R450). -/
structure Part where
  state     : PartState := .absent
  mask      : Nat := 0
  active    : Option Nat := none
  slot0     : Slot := {}
  slot1     : Slot := {}
  loading   : List Loading := []
  pendSwap  : Bool := false
  swapCopy  : Bool := false
  disable   : Option DisableForm := none
  stations  : Nat := 0
  seq       : Seq := {}
  win       : Windows := {}
  ledger    : Ledger := {}
  snap      : BelaySnap := {}
  waiting   : List NeuronReq := []
  clears    : List (Option Nat) := []
  keepCount : Nat := 0
  woe       : Bool := false
  woeClock  : Nat := 0
  needVolt  : List (Nat × Nat) := []
  hostLoss  : Bool := false
  hostHold  : Bool := false
  contLeft  : Option Nat := none
  hold      : Bool := false
  quiesced  : Bool := false
  peerFails : SMap (Nat × Nat) := []
  peerDown  : List Nat := []
  peerOut   : List (Nat × Option Nat) := []
  deriving DecidableEq, Repr

/-- Remote delivery at one edge router for one partition (R138 to R142): outbound records by peer and pitch of emission, the
messages sent and not yet confirmed (peer, pitch, records), buffered inbound records with their pitch of emission, and the edge router's
counters (R143), numbered as the entries 0x3n51.0D to 0x3n51.12 are. -/
structure RemoteBuf where
  out  : List (Nat × Nat × RemoteRec) := []
  sent : List (Nat × Nat × Nat) := []
  inb  : List (Nat × RemoteRec) := []
  counts : SMap Nat := []
  deriving DecidableEq, Repr

/-! ### Converters (chapter 8) -/

/-- The encoder state of one channel (R211, R212); `reset` marks an anchor that follows a scale-set switch. -/
structure Channel where
  anchored : Bool := false
  acc      : BitVec 32 := 0
  neg      : Bool := false
  level    : Int := 0
  ref      : BitVec 32 := 0
  switched : Bool := false
  deriving DecidableEq, Repr

/-- A sample as the home slice holds it (Table 8.1), with the instant of its arrival. -/
structure Sample where
  seq   : Nat
  stamp : Nat
  vals  : Bytes
  came  : Nat := 0
  deriving DecidableEq, Repr

/-- The states of a stream that runs (Table 8.11). -/
inductive StreamMode where
  | waiting | running | lost
  deriving DecidableEq, Repr

/-- An input stream: its samples, encoder, guard and journal with the place of the ring's next word. `force` is the enable in force; `before` is the sample that the pending
one replaced, which a pitch that opens at the instant of the replacement latches (Table 8.8). -/
structure Stream where
  force     : Bool := false
  pending   : Option Sample := none
  before    : Option Sample := none
  heldSeq   : Option Nat := none
  fresh     : Option Sample := none
  staleRun  : Nat := 0
  mode      : StreamMode := .waiting
  chans     : SMap Channel := []
  unlaunched : List (Nat × BitVec 64) := []
  encoding  : Bool := false
  emitted   : Nat := 0
  guard     : SMap Nat := []
  grp       : ScaleGroup := {}
  lostDue   : Bool := false
  absorbed  : Bool := false
  journal   : List (Nat × List (Nat × BitVec 64)) := []
  jNext     : Nat := 0
  deriving DecidableEq, Repr

/-- A readout record (Table 8.7): group, flags, SEQ, pitch and channel values. -/
structure Readout where
  flags : Nat := 0
  seq   : Nat := 0
  pitch : Nat := 0
  vals  : List (BitVec 32) := []
  deriving DecidableEq, Repr

/-- A readout group: window state per channel, records decoded but not yet published, the last record published, the ones before it that an output
object has yet to carry (R344), and the
record that a hold repeats until the first publication after it, and the counts of Table 8.14. An entry of `due` is a pitch to decode,
its k_m, and its flags (16 PARTIAL, 32 for contributions that an immediate disable has discarded). `force` is the enable in force, `since`
the first pitch whose record it lets out, and `upTo` the last one whose record a belay-form disable still lets out (R229). -/
structure Group where
  force   : Bool := false
  window  : SMap (BitVec 32) := []
  rings   : SMap (List (BitVec 32)) := []
  due     : List (Nat × Nat × Nat) := []
  decoded : List Readout := []
  seq     : Nat := 0
  last    : Option Readout := none
  past    : List Readout := []
  held    : Option Readout := none
  since   : Nat := 0
  upTo    : Option Nat := none
  counts  : OutCounts := {}
  deriving DecidableEq, Repr

/-! ### Queues and sync objects (chapter 9) -/

/-- A queue record (Table 9.7): `state` 0 UNUSED, 1 OPEN, 2 ORPHANED; `kind` 0 RING, 1 COMBINE_I32, 2 COMBINE_F32; the ring's
records and the combining words lie in the memory that `space` and `base` name. `overrun` is CQ_OVERRUN (R239). -/
structure Queue where
  state    : Nat := 0
  kind     : Nat := 0
  owner    : Nat := 0x30
  reader   : Nat := 0x30
  sendMask : Nat := 0
  inGroup  : Bool := false
  prio     : Nat := 0
  group    : Nat := 0
  space    : Nat := 0
  base     : Nat := 0
  sizeLog2 : Nat := 0
  maxMsg   : Nat := 0
  head     : Nat := 0
  tail     : Nat := 0
  expect   : Nat := 0
  linkOn   : Bool := false
  link     : Nat := 0
  overrun  : Bool := false
  deriving DecidableEq, Repr

/-- A sync object (R250). -/
structure SyncObj where
  kind   : Nat := 0
  owner  : Nat := 0x30
  value  : Nat := 0
  parts  : Nat := 0
  phase  : Nat := 0
  broken : Bool := false
  deriving DecidableEq, Repr

/-- An entry of a wait list (R245): a waiting operation, by kind. -/
structure Waiter where
  id    : Nat
  op    : Nat
  head  : OpHead
  arg   : Nat
  arg2  : Nat
  msg   : Bytes
  until_ : Option Nat
  deriving DecidableEq, Repr

/-- A select group (R247). -/
structure SelGroup where
  reader : Nat := 0x30
  policy : Nat := 0
  last   : SMap Nat := []
  deriving DecidableEq, Repr

/-- A tile descriptor in flight (Table 6.8), with FUNCTION as the part writes it. -/
structure Desc where
  raw   : Bytes
  owner : Nat
  deriving DecidableEq, Repr

/-- A slice: wait list, completion hold, select groups and descriptors in flight; its counters of Table 9.14 by entry key (R254); that it has failed and waits for a spare, or is
lost; its subchannel's service, errors (`ces` holds the instants of corrected errors in the last 24 h), training and scrub. -/
structure Slice where
  waits   : List Waiter := []
  nextId  : Nat := 0
  hold    : List (Nat × Bytes) := []
  groups  : SMap SelGroup := []
  descs   : List Desc := []
  counts  : SMap Nat := []
  failed  : Bool := false
  lost    : Bool := false
  subOut  : Bool := false
  ce      : Nat := 0
  ue      : Nat := 0
  lastErr : Nat := 0
  ces     : List Nat := []
  retrains : Nat := 0
  trainAt : Nat := 0
  trainTemp : Nat := 0
  temp    : Nat := 0
  scrub   : Nat := 0
  passes  : Nat := 0
  deriving DecidableEq, Repr

/-! ### Fabric (chapter 11) -/

/-- An unacknowledged packet at its source (R299): the packet, its re-sends, whether it has been given up as UNREACHABLE, the instant of the last
send, the spine-stage switch that it last crossed, and the instant from which it is sent again after a NACK of reason BUSY (R295). -/
structure Unacked where
  pkt     : Packet
  resends : Nat := 0
  lost    : Bool := false
  sentAt  : Option Nat := none
  via     : Option Nat := none
  busyAt  : Option Nat := none
  deriving DecidableEq, Repr

/-- What a destination remembers of a source (R300, R301): the highest accepted sequence number, the marks of the 64 before it and
those of them not yet acknowledged, and the lowest number not yet accepted. -/
structure SeqMarks where
  high     : Option Nat := none
  marks    : List Nat := []
  held     : List Nat := []
  expected : Nat := 0
  deriving DecidableEq, Repr

/-- A leaf-stage switch, or the sequencers (R283, Table 11.8): the leaf of a cluster, the port of a physical slice slot, an edge router. -/
inductive LeafStage
  | leaf (cl : Nat)
  | slice (u : Nat)
  | edge (e : Nat)
  | seqs
  deriving DecidableEq, Repr

/-- A haul that waits in the buffer of a block at an edge router (R310): port address of the block, key of its marks, SEQ, bytes. -/
structure EdgeHaul where
  dst   : Nat
  key   : Nat
  seq   : Nat
  bytes : Nat
  deriving DecidableEq, Repr

/-- The fabric: copies held for re-sending; the SEQ count of each source port toward each leaf-stage switch and the receive marks (R300), both by
source port × 512 + leaf-stage index; the last FAULT picot of each source (R293); hauls in the buffers of the edge routers (R310); the links that
the tables of generations 0 and 1 leave out and the slots that they name for the slices (R302), when the last tables were written, the cores and the clusters whose sources a change of
generation waits for (R308), its commit and the switches that have answered; a further change that waits; links excluded, each by its spine end
where it has one, and their errors of one second by CMAP_SELECT × 256 + port; route weights by leaf-stage index × 32 + uplink, the uplink chosen
last (R303), and the last congestion record of each switch with the end of its interval. -/
structure Fabric where
  unacked   : List Unacked := []
  sent      : SMap Nat := []
  recv      : SMap SeqMarks := []
  faultAt   : SMap (Option Nat) := []
  edgeHeld  : List EdgeHaul := []
  leftOut0  : List Nat := []
  leftOut1  : List Nat := []
  slices0   : SMap Nat := []
  slices1   : SMap Nat := []
  stagedAt  : Nat := 0
  toSwitch  : List Nat := []
  unitsLeft : List Nat := []
  commitAt  : Nat := 0
  doneFrom  : List Nat := []
  rebuildDue : Bool := false
  excluded  : List Nat := []
  linkErrs  : SMap Nat := []
  errSecond : Nat := 0
  weights   : SMap Nat := []
  lastUp    : SMap Nat := []
  cmapAt    : SMap Nat := []
  cmap      : SMap (Option (Nat × List Nat)) := []
  telemSeq  : Nat := 0
  deriving DecidableEq, Repr

/-! ### Host link, data ports, rope (chapter 12) -/

/-- An operation slot of a function (R322); `result` is the outcome of an operation that has finished and that the slot does
not show yet. -/
structure OpSlot where
  buffer : Bytes := []
  busy   : Bool := false
  done   : Bool := false
  status : Nat := 0
  value  : Nat := 0
  result : Option (Nat × Nat) := none
  deriving DecidableEq, Repr

/-- A PCIe function (0 physical, 1 to 8 virtual); `conf` is what the host has set in its configuration space, `aer` its uncorrectable error status (AER), `msix` is its MSI-X table as the host has written it (Table 12.2). Assumption 49 [DEDUCED, unsafe]. -/
structure Func where
  present  : Bool := false
  conf     : PcieConf := {}
  aer      : Nat := 0
  cause    : Nat := 0
  imask    : Nat := 0xFFF
  winLo    : Nat := 0
  winHi    : Nat := 0
  notify   : SMap Nat := []
  msix     : Bytes := []
  slots    : SMap OpSlot := []
  armed    : Bool := false
  lost     : Bool := false
  hbLast   : Nat := 0
  hbAt     : Nat := 0
  deriving DecidableEq, Repr

/-- A mailbox (R362 to R365). -/
structure Mailbox where
  request   : Bytes := []
  taken     : Bytes := []
  response  : Bytes := []
  busy      : Bool := false
  rspReady  : Bool := false
  orphaned  : Bool := false
  rspLen    : Nat := 0
  noticeOn  : Bool := false
  rspInt    : Bool := true
  notices   : List Bytes := []
  lost      : Nat := 0
  deriving DecidableEq, Repr

/-- A RoCEv2 connection of a fixed queue pair (R331): the peer's queue pair and identifier, and whether it is established. -/
structure Conn where
  peerQpn : Nat
  peerId  : Nat
  up      : Bool
  deriving DecidableEq, Repr

/-- A data port (R328 to R331): a retraining in progress, the subports that carry traffic, the lanes that the port may still use
and those in use, the connections of its queue pairs, and the queue pairs that a congestion notification has slowed. -/
structure DataPort where
  training : Bool := false
  up       : SMap Bool := []
  allowed  : Nat := 15
  lanes    : Nat := 0
  conns    : SMap (Option Conn) := []
  slowed   : List Nat := []
  deriving DecidableEq, Repr

/-- An output object's running state (R343, R344). -/
structure Obj where
  seq      : Nat := 0
  sentFor  : Option Nat := none
  lastSent : Nat := 0
  deriving DecidableEq, Repr

/-- A frame in the rope bridge (R334): its class and length, its bytes where the part changes them, its arrival, the instant at which it leaves at the
latest, and the residence that an 802.1AS frame's correction takes in (R341). -/
structure BridgeFrame where
  cls       : FrameClass
  len       : Nat
  body      : Bytes
  arrived   : Nat
  leaves    : Nat
  residence : Nat := 0
  deriving DecidableEq, Repr

/-- The ports of the part: functions, mailboxes and PERST_N, data ports, output objects; on the rope the instant of the last CHECK,
the HOPS of the first one, the next SEQ of rope control and the instant of the last ANNOUNCE; what the host has asked of functions that answered with
Configuration Request Retry Status (R381); the frames that the rope bridge holds, by the port that they leave on. -/
structure Ports where
  funcs     : SMap Func := []
  mailboxes : SMap Mailbox := []
  perst     : Bool := true
  data      : SMap DataPort := []
  checkAt   : Nat := 0
  hops      : Option Nat := none
  objs      : SMap Obj := []
  ropeSeq   : Nat := 0
  lastAnn   : Nat := 0
  retry     : Option FuncSettings := none
  bridge    : SMap (List BridgeFrame) := []
  deriving DecidableEq, Repr

/-! ### Dictionary (chapter 13) -/

/-- What the part keeps for one requester (R352, R354, R355, R361); `via` is the address of the part at which a request of a TAG arrived. -/
structure ReqState where
  req      : Requester
  selects  : SMap Nat := []
  snapNo   : Nat := 0
  snapKey  : Option (Nat × Option Nat) := none
  snapVal  : Bytes := []
  snapIdx  : List (Nat × Bytes) := []
  snapAt   : Nat := 0
  asmKey   : Option Nat := none
  asmTotal : Nat := 0
  asmBuf   : Bytes := []
  asmAt    : Nat := 0
  via      : List (Nat × Nat) := []
  lastTag  : Option Nat := none
  lastRsp  : Bytes := []
  lastAt   : Nat := 0
  deriving DecidableEq, Repr

/-- The configuration store (R375, R376): two copies, each with its sequence number and records (entry key and value). -/
structure StoreCopy where
  seq  : Nat
  recs : List (Nat × Bytes)
  deriving DecidableEq, Repr

/-! ### Time, pins, bring-up, power, security (chapters 2, 14, 15, 17, 18) -/

/-- Time and the pins that carry ticks; `bootAt` is the instant of the last device reset, `quadAt` that of the last edge on the two
phases, `syncAt` and `syncLog` instant and log interval of the last sync message. -/
structure Clock where
  now       : Nat := 0
  tsn       : Int := 0
  goodSync  : Nat := 0
  holdSince : Nat := 0
  syncAt    : Nat := 0
  syncLog   : Int := 0
  lostSaid  : Bool := false
  cinAt     : Option Nat := none
  phaseA    : Bool := false
  phaseB    : Bool := false
  quadExt   : Int := 0
  quadAt    : Option Nat := none
  free      : Nat := 0
  bootAt    : Nat := 0
  deriving DecidableEq, Repr

/-- The pins of the part whose level it holds or drives (chapter 18); `smbAddr` is 2 × SMB_ADDR1 + SMB_ADDR0 as sampled; `gpioAt` is the instant of
the last edge on each general-purpose pin. -/
structure Pins where
  porst    : Bool := false
  estop    : Bool := false
  faultN   : Bool := false
  tripN    : Bool := false
  ready    : Bool := true
  smbAlert : Bool := false
  pwrEnD   : Bool := true
  gpio     : Nat := 0
  gpioAt   : SMap Nat := []
  estopSeen : Bool := false
  smbAddr  : Nat := 0
  deriving DecidableEq, Repr

/-- A defect-log entry (R386). -/
structure Defect where
  kind   : Nat
  origin : Nat
  unit   : Nat
  detail : Nat
  boot   : Nat
  deriving DecidableEq, Repr

/-- An installed licence (R390). -/
structure Licence where
  id       : Nat
  features : Nat
  raw      : Bytes := []
  deriving DecidableEq, Repr

/-- A bring-up in progress (R379): when it began, the instant of step 10 with BRINGUP_TIME, and whether the boot ROM fell back to the second slot. -/
structure Boot where
  startAt  : Nat
  endAt    : Nat
  time     : Nat
  fallback : Bool
  deriving DecidableEq, Repr

/-- The floor plan and bring-up (chapter 14): slot states by cluster × 32 + slot and die × 32 + slot, the slot maps, the
units in service, the fuses of bad units (kind as in Table 14.2, unit), a bring-up in progress, and the resets in progress and queued (R393, R397), by
scope, unit and the instant of their end, and by scope, unit and the cores that will fail. -/
structure Floor where
  coreSlots  : SMap Nat := []
  sliceSlots : SMap Nat := []
  slotMap    : SMap Nat := []
  sliceMap   : SMap Nat := []
  units      : SMap Nat := []
  subch      : SMap Bool := []
  fpCores    : SMap Nat := []
  fpSlices   : Nat := 0xFFFFFFFFFFFFFFFF
  fpSubch    : Nat := 0xFFFFFFFFFFFFFFFF
  defects    : List Defect := []
  fuses      : List (Nat × Nat) := []
  licences   : SMap (Option Licence) := []
  resetDue   : Bool := false
  cause      : Option Nat := none
  boot       : Option Boot := none
  resets     : List (Nat × Nat × Nat) := []
  queued     : List (Nat × Nat × List Nat) := []
  deriving DecidableEq, Repr

/-- One half of the part as the governor sees it: the profile in force (0 density, 1 efficiency), a change that waits with
the instant it was asked for, the hold and the partitions held, the firmware ceiling, the fabric clock in force and the
loop's bound on it, the compute supply that the requirements have set (R50, R52), the loop's counters, a half-current limit since when, the supply at the onset of the power limit, and
the instant from which the supply of the last profile change is settled. -/
structure Half where
  profile   : Nat := 1
  pendProf  : Option (Nat × Nat) := none
  holding   : Bool := false
  held      : List Nat := []
  ceiling   : Nat := 620
  clock     : Nat := 2000
  clockCap  : Nat := 2000
  supply    : Nat := 550
  hotMs     : Nat := 0
  coolMs    : Nat := 0
  currentAt : Option Nat := none
  limitBase : Option Nat := none
  settleAt  : Nat := 0
  deriving DecidableEq, Repr

/-- The power states (Table 15.3). -/
inductive PowerState where
  | active | drowse | standby | parked
  deriving DecidableEq, Repr

/-- An entry to a lower-power state (R409, R410): its target, the instants of its four abort points, the instant at which it or its
undoing ends, the abort point and identity that abandon it, and whether a wake has come. -/
structure Entry where
  target : PowerState
  aps    : List Nat
  endAt  : Nat
  abort  : Option (Nat × Nat) := none
  woken  : Bool := false
  deriving DecidableEq, Repr

/-- A record of POWER_LOG (Table 15.7). -/
structure PowerRec where
  time    : Nat
  target  : Nat
  outcome : Nat
  point   : Nat
  ident   : Nat
  deriving DecidableEq, Repr

/-- Power, thermal control and coolant (chapter 15): the state, the TAG and the last accepted target, an entry or a wake under way, a
request that follows it, ENABLE and LOAD commands that wait for a wake, host operations that the edge routers hold (function, slot,
bytes), firmware's own STANDBY request; the power limit; the sources of a coolant loss, since when none is known, the last report;
supplies out of tolerance, the low VIN_C and the instant at which it had been back for 1 ms, the thermal trip, clusters whose retained contents are
lost, the instant at which the emergency flags last became zero, and that of the governor's last reading. -/
structure Power where
  state     : PowerState := .active
  west      : Half := {}
  east      : Half := {}
  tag       : Nat := 0
  target    : Nat := 0
  entry     : Option Entry := none
  waking    : Option PowerState := none
  next      : Option (Nat × Nat) := none
  deferred  : List (Requester × Nat × Nat × Option Nat) := []
  heldOps   : List (Nat × Nat × Bytes) := []
  standby   : Bool := false
  log       : List PowerRec := []
  limitHeld : Nat := 0
  limitOff  : Bool := false
  coolSrc   : List CoolantSource := []
  coolClear : Option Nat := none
  reportAt  : Nat := 0
  supplies  : List Nat := []
  vinLow    : Bool := false
  vinBack   : Option Nat := none
  tripped   : Bool := false
  retLost   : List Nat := []
  memLost   : List Nat := []
  clearAt   : Option Nat := none
  sensedAt  : Nat := 0
  deriving DecidableEq, Repr

/-- A logged fault report (Table 16.3). -/
structure FaultEntry where
  rep    : FaultReport
  time   : Nat
  seq    : Nat
  deriving DecidableEq, Repr

/-- Faults and continuity (chapter 16): the fault log with the number of records written to it, its acknowledgement,
by severity the FAULT_SEQ of the newest report, logged or not (R428), its rate, the emergency objects of the last 100 ms,
whether the management core runs, the reports and emergency objects that wait for it, the cores whose old slots are under test with
those slots, the swap-outs that wait for a belay, and the cores that replay. -/
structure Rel where
  log      : List FaultEntry := []
  records  : Nat := 0
  acked    : Nat := 0
  newest   : SMap Nat := []
  second   : Nat := 0
  inSecond : Nat := 0
  recent   : List (Nat × Nat × Nat × Nat) := []
  mgmtUp   : Bool := true
  withheld : List FaultReport := []
  objects  : List (Nat × Nat × Nat × Nat) := []
  testCore : List (Nat × Nat) := []
  swapWait : List Nat := []
  replays  : List Nat := []
  deriving DecidableEq, Repr

/-- A firmware slot (R457): the fields of its image's header, whether its image passed the checks that no fuse decides, its
measurement (nothing for the image written at manufacture), and the staged bytes. -/
structure FwSlot where
  version : Nat := 0
  svn     : Nat := 0
  key     : Nat := 0
  valid   : Bool := false
  meas    : Option Bytes := none
  image   : Bytes := []
  deriving DecidableEq, Repr

/-- Identity, firmware and attestation (chapter 17): the slots, the running one with its image as the boot ROM started it, the two copies of the
boot record (SEQ and MODE of a valid one, R458), BOOT_COUNT when the alias certificate was signed (R460), whether DS is readable in the security engine
and IDK's private key held in it (R455), chunks received with their
TOTAL, an image being copied from LPDDR6, the fuses, an SVN commit that waits, a rejected trial, the quote being signed and the
quote shown, debug scopes armed and open, the number of the present challenge, and the boot ROM's recovery mode with its device reset that is due. -/
structure Sec where
  slotA     : FwSlot := { valid := true }
  slotB     : FwSlot := {}
  running   : Nat := 0
  runImg    : FwSlot := { valid := true }
  boot0     : Option (Nat × Nat) := none
  boot1     : Option (Nat × Nat) := none
  certBoot  : Nat := 0
  engine    : Bool := false
  chunks    : Option (Nat × Bytes) := none
  copying   : Option Bytes := none
  svnFused  : Nat := 0
  svnDue    : Bool := false
  revoked   : Nat := 0
  rejected  : Bool := false
  signing   : Bytes := []
  quote     : Bytes := []
  armed     : Nat := 0
  scopes    : Nat := 0
  challenge : Nat := 0
  recovery  : Bool := false
  resetDue  : Bool := false
  deriving DecidableEq, Repr

/-- A keep-set section (Table 7.8): partition, origin digest, commit pitch, and per projection its number, format,
generation and weights in update-index order. -/
structure KeepSection where
  part   : Nat
  pitch  : Nat
  origin : Bytes
  projs  : List (Nat × Nat × Nat × List Nat)
  deriving DecidableEq, Repr

/-- The keep set (chapter 7), whose banks lie in the MRAM: the commit in progress, the partition whose projections it still reads with the
number of those that it has read, and the instant of the last completed commit. -/
structure Keep where
  commit  : Option (Nat × List KeepSection) := none
  reading : Option Nat := none
  read    : Nat := 0
  lastAt  : Option Nat := none
  deriving DecidableEq, Repr

/-- The memories outside the cores: LPDDR6 by space address (`lpFree` marks contents that a
change of FRAME_ALL has left undefined), the owner codes of frames, the poisoned 32-byte words (`poisonOff` those that no frame maps, by slice and
offset), slice SRAM by slice × 4 MiB +
offset, MRAM with the bytes that descriptors of firmware have written over its records (`patched`), the grants of queue blocks, sync blocks and pages by (kind × 64 + slice) × 256 + block, the configuration
store's copies, and what parity, conflicts and the background test have left: cache units withdrawn by core, slice SRAM words that
cannot be read, conflict counts by target × 16 + master, and by kind × 4,096 + unit the next test region and the instant of the
last test, with the regions held (kind, unit, region). -/
structure Mem where
  lp        : List Host.Cell := []
  lpFree    : Option Nat := none
  owners    : SMap Nat := []
  poison    : List Nat := []
  poisonOff : List (Nat × Nat) := []
  sram      : List Host.Cell := []
  mram      : List Host.Cell := []
  patched   : SMap (Option Nat) := []
  grants    : SMap Nat := []
  store0    : Option StoreCopy := none
  store1    : Option StoreCopy := none
  storeWr   : Option StoreCopy := none
  withdrawn : SMap Nat := []
  sramBad   : List Nat := []
  conflicts : SMap Nat := []
  regions   : SMap Nat := []
  bgAt      : SMap Nat := []
  heldReg   : List (Nat × Nat × Nat) := []
  deriving DecidableEq, Repr

/-- What has left the part, newest last: where it went and its bytes. A response names the address of the part that it leaves from (0 from a mailbox),
a datagram its port and subport. -/
inductive Output where
  | response (r : Requester) (src : Nat) (msg : Bytes)
  | status (r : Requester) (key code : Nat)
  | refusedOp (issuer tag status : Nat)
  | opDone (issuer tag status value : Nat)
  | msix (f vector : Nat)
  | hostWrite (f addr : Nat) (data : Bytes)
  | readData (f : Nat) (poisoned : Bool) (data : Bytes)
  | datagram (port sub : Nat) (dst udp : Nat) (data : Bytes)
  | frame (port : Nat) (f : BridgeFrame)
  | roce (port sub qpn : Nat) (data : Bytes)
  | cnp (port qpn : Nat)
  | roceNak (port qpn reason : Nat)
  | cm (port kind qpn : Nat)
  | icmp (port kind : Nat) (data : Bytes)
  | object (j : Nat) (port : Nat) (data : Bytes)
  | picot (kind src dst args : Nat)
  | packet (p : Packet)
  | cmapHaul (sw : Nat) (rec : Bytes)
  | smbus (code : Nat) (data : Bytes)
  | smbusNack
  | smbusRelease
  deriving DecidableEq, Repr

/-- The whole state of the block. -/
structure State where
  pending  : List Instr
  clk      : Clock
  dict     : SMap Nat
  heldVals : SMap (Option Nat)
  reqs     : List ReqState
  cm       : CoreMem
  cores    : SMap Core
  clusters : SMap Cluster
  parts    : SMap Part
  hauls    : SMap (Option Haul)
  haulNext : Nat
  remote   : SMap RemoteBuf
  streams  : SMap Stream
  groups   : SMap Group
  queues   : SMap Queue
  syncs    : SMap SyncObj
  slices   : SMap Slice
  mem      : Mem
  keep     : Keep
  fab      : Fabric
  ports    : Ports
  pins     : Pins
  floor    : Floor
  pow      : Power
  rel      : Rel
  sec      : Sec
  outbox   : List Output
  deriving DecidableEq, Repr

/-- The part at the end of the device reset that power-on brings about (R5, R379): bring-up has found every unit good, no
configuration is stored, and nothing waits (assumptions 1 [DEDUCED, unsafe], 2, 3 [DESIGN CHOICE, unsafe]).
DEVICE_STATE is OPERATIONAL, BOOT_COUNT 1 and BRINGUP_STEP 10. -/
def State.reset : State where
  pending := []
  clk := {}
  dict := [(0x200001, 1), (0x202205, 1), (0x202301, 10)]
  heldVals := []
  reqs := []
  cm := {}
  cores := []
  clusters := []
  parts := []
  hauls := []
  haulNext := 0
  remote := []
  streams := []
  groups := []
  queues := []
  syncs := []
  slices := []
  mem := {}
  keep := {}
  fab := {}
  ports := {}
  pins := {}
  floor := {}
  pow := {}
  rel := {}
  sec := {}
  outbox := []

end Sys2Proof.Machine
end

