-- ==== Sys2Proof/Machine/Ops.lean ====
section
/-!
DEFINITION. The named operations over the state that every meaning uses: the accessors of its stores, time, the
dictionary's values, core counters, interrupt causes, emergency objects, tiles and LPDDR6.
-/

namespace Sys2Proof.Machine

/-! ### Stores -/

/-- The code of a power state (Table 15.3). -/
def powerCode : PowerState → Nat
  | .active => 0
  | .drowse => 1
  | .standby => 2
  | .parked => 3

/-- What an unlisted partition is: ABSENT. -/
def dPart (_ : Nat) : Part := {}
/-- What an unlisted core is: idle. -/
def dCore (_ : Nat) : Core := {}
/-- What an unlisted cluster is: idle. -/
def dCluster (_ : Nat) : Cluster := {}
/-- What an unlisted stream is. -/
def dStream (_ : Nat) : Stream := {}
/-- What an unlisted readout group is. -/
def dGroup (_ : Nat) : Group := {}
/-- What an unlisted slice is. -/
def dSlice (_ : Nat) : Slice := {}
/-- What an unlisted sync object is: UNUSED; the system objects of each slice are firmware's, which creates them at device reset (R232). Of
which kind and with what value the spec does not say: free values (assumption 87 [DESIGN CHOICE, safe]). -/
def dSync (j : Nat) : SyncObj :=
  if j % 1024 < 960 then {}
  else
    let x := (Config.sysSync j).toNat
    let kind := 1 + x % 3
    { kind := kind, owner := 0x10, value := if kind = 3 then 0 else x / 4 % 2 ^ 32, parts := if kind = 3 then 1 + x / 4 % 4096 else 0 }
/-- Bytes of one slice's SRAM. -/
def sramSize : Nat := 0x400000
/-- Where the words of readout group `g`'s combining queue lie in slice SRAM (assumption 26 [DESIGN CHOICE, unsafe]). -/
def combineBase (g : Nat) : Nat := g % 64 * sramSize + 0x180000 + g / 64 * 16384
/-- An unlisted queue: a general queue is UNUSED; the system rings of Table 9.1 stand as firmware creates them (assumption 26 [DESIGN CHOICE, unsafe]), and the combining queues of readout
groups as LOAD does (R232). -/
def dQueue (q : Nat) : Queue :=
  let l := q % 16384
  let i := q / 16384
  let area := i * sramSize + 0x100000
  if l < 16320 then {}
  else if l < 16376 then
    { state := 1, owner := 0x10, reader := 0x10, sendMask := 0x200, space := 1, base := area + 0x30000 + (l - 16320) * 4096, sizeLog2 := 12, maxMsg := 2048 }
  else if l < 16380 then
    { state := 1, kind := 2, owner := 0x10, reader := 0x40 + i, sendMask := 0x1000, space := 1, base := combineBase (64 * (l - 16376) + i), maxMsg := 64 }
  else if l < 16382 then
    { state := 1, owner := 0x10, reader := 0x10, sendMask := 0x1200, space := 1, base := area + 0x20000 + (l - 16380) * 16384, sizeLog2 := 14, maxMsg := 2048 }
  else if l = 16382 then
    if i % 2 = 0 then
      { state := 1, owner := 0x10, reader := 0x40 + i, sendMask := 0x801, space := 1, base := area + 0x10000, sizeLog2 := 16, maxMsg := 2048 }
    else { state := 1, owner := 0x10, reader := 0x10, sendMask := 0x200, space := 1, base := area + 0x10000, sizeLog2 := 16, maxMsg := 2048 }
  else { state := 1, owner := 0x10, reader := 0x40 + i, sendMask := 0x3FF, space := 1, base := area, sizeLog2 := 16, maxMsg := 2048 }
/-- What an unlisted PCIe function is: the physical function is present, no virtual function is (NUM_VFS 0). -/
def dFunc (f : Nat) : Func := { present := f == 0 }
/-- What an unlisted mailbox is (Tables 13.9 to 13.11). -/
def dMailbox (_ : Nat) : Mailbox := {}
/-- What an unlisted data port is: down. -/
def dDataPort (_ : Nat) : DataPort := {}
/-- What an unlisted operation slot is. -/
def dSlot (_ : Nat) : OpSlot := {}
/-- What an unlisted output object is. -/
def dObj (_ : Nat) : Obj := {}
/-- What an unlisted edge router holds for a partition, by edge × 8 + partition. -/
def dRemote (_ : Nat) : RemoteBuf := {}
/-- What the counts of an unlisted readout group are. -/
def dCounts (_ : Nat) : OutCounts := {}
/-- What an unlisted scale group is (R109). -/
def dScale (_ : Nat) : ScaleGroup := {}
/-- What an unlisted projection is (R191). -/
def dProj (_ : Nat) : Proj := {}
/-- What an unlisted channel is (R212). -/
def dChannel (_ : Nat) : Channel := {}
/-- An unlisted number. -/
def dZero (_ : Nat) : Nat := 0
/-- An unlisted byte outside LPDDR6 (assumption 4 [DESIGN CHOICE, unsafe]). -/
def dByte (_ : Nat) : Byte := 0
/-- Where the local areas begin (R266). -/
def localBase : Nat := 0x3B00000000
/-- An unlisted byte of LPDDR6: 0 after bring-up (R379 step 8), a free value in a frame after a write of FRAME_ALL (R265). Assumption 74 [DESIGN CHOICE, safe]. -/
def dLp (f : Option Nat) (a : Nat) : Byte := match f with
  | none => 0
  | some n => if a < localBase then Config.freeByte n a else 0
/-- An unlisted binary32 word. -/
def dF32 (_ : Nat) : BitVec 32 := 0
/-- An unlisted neuron state word: disabled (assumption 5 [DESIGN CHOICE, unsafe]). -/
def dNeuron (_ : Nat) : BitVec 64 := 0x0400000000000000#64
/-- An unlisted optional value. -/
def dNone {α : Type} (_ : Nat) : Option α := none

/-- Partition `n`. -/
def State.part (s : State) (n : Nat) : Part := mget dPart s.parts n
/-- Partition `n` changed by `f`. -/
def State.modPart (s : State) (n : Nat) (f : Part → Part) : State := { s with parts := mmod dPart s.parts n f }
/-- Logical core `c`. -/
def State.core (s : State) (c : Nat) : Core := mget dCore s.cores c
/-- Logical core `c` changed by `f`. -/
def State.modCore (s : State) (c : Nat) (f : Core → Core) : State := { s with cores := mmod dCore s.cores c f }
/-- Cluster `c`. -/
def State.cluster (s : State) (c : Nat) : Cluster := mget dCluster s.clusters c
/-- Cluster `c` changed by `f`. -/
def State.modCluster (s : State) (c : Nat) (f : Cluster → Cluster) : State :=
  { s with clusters := mmod dCluster s.clusters c f }
/-- Stream `k`. -/
def State.stream (s : State) (k : Nat) : Stream := mget dStream s.streams k
/-- Stream `k` changed by `f`. -/
def State.modStream (s : State) (k : Nat) (f : Stream → Stream) : State :=
  { s with streams := mmod dStream s.streams k f }
/-- Readout group `g`. -/
def State.rgroup (s : State) (g : Nat) : Group := mget dGroup s.groups g
/-- Readout group `g` changed by `f`. -/
def State.modGroup (s : State) (g : Nat) (f : Group → Group) : State := { s with groups := mmod dGroup s.groups g f }
/-- Logical slice `i`. -/
def State.slice (s : State) (i : Nat) : Slice := mget dSlice s.slices i
/-- Logical slice `i` changed by `f`. -/
def State.modSlice (s : State) (i : Nat) (f : Slice → Slice) : State := { s with slices := mmod dSlice s.slices i f }
/-- Slice `i` counts `a` in a 32-bit counter of Table 9.14 (R254). -/
def State.qadd (s : State) (i k a : Nat) : State := s.modSlice i (fun x => { x with counts := mset dZero x.counts k (satAdd 32 (mget dZero x.counts k) a) })
/-- The same for a 64-bit counter. -/
def State.qadd64 (s : State) (i k a : Nat) : State := s.modSlice i (fun x => { x with counts := mset dZero x.counts k (wrapAdd 64 (mget dZero x.counts k) a) })
/-- WAIT_PEAK of slice `i`. -/
def State.qmax (s : State) (i k v : Nat) : State := s.modSlice i (fun x => { x with counts := mset dZero x.counts k (max v (mget dZero x.counts k)) })
/-- PCIe function `f`. -/
def State.func (s : State) (f : Nat) : Func := mget dFunc s.ports.funcs f
/-- PCIe function `f` changed. -/
def State.modFunc (s : State) (f : Nat) (g : Func → Func) : State :=
  { s with ports := { s.ports with funcs := mmod dFunc s.ports.funcs f g } }
/-- Mailbox `k`. -/
def State.mailbox (s : State) (k : Nat) : Mailbox := mget dMailbox s.ports.mailboxes k
/-- Mailbox `k` changed by `f`. -/
def State.modMailbox (s : State) (k : Nat) (f : Mailbox → Mailbox) : State :=
  { s with ports := { s.ports with mailboxes := mmod dMailbox s.ports.mailboxes k f } }
/-- Data port `p`. -/
def State.dataPort (s : State) (p : Nat) : DataPort := mget dDataPort s.ports.data p
/-- An unlisted subport is down. -/
def dDown (_ : Nat) : Bool := false
/-- Is subport `k` of port `p` up and carrying traffic (R330)? -/
def State.subUp (s : State) (p k : Nat) : Bool := !(s.dataPort p).training && mget dDown (s.dataPort p).up k
/-- Data port `p` changed by `f`. -/
def State.modDataPort (s : State) (p : Nat) (f : DataPort → DataPort) : State :=
  { s with ports := { s.ports with data := mmod dDataPort s.ports.data p f } }
/-- Is the connection of a local queue pair established at port `p`? -/
def State.connected (s : State) (p qpn : Nat) : Bool := match mget dNone (s.dataPort p).conns qpn with
  | some c => c.up
  | none => false
/-- Output object `j`. -/
def State.obj (s : State) (j : Nat) : Obj := mget dObj s.ports.objs j
/-- Output object `j` changed by `f`. -/
def State.modObj (s : State) (j : Nat) (f : Obj → Obj) : State :=
  { s with ports := { s.ports with objs := mmod dObj s.ports.objs j f } }
/-- What edge router `e` holds for partition `n`. -/
def State.remBuf (s : State) (e n : Nat) : RemoteBuf := mget dRemote s.remote (e * 8 + n)
/-- What edge router `e` holds for partition `n`, changed by `f`. -/
def State.modRem (s : State) (e n : Nat) (f : RemoteBuf → RemoteBuf) : State :=
  { s with remote := mmod dRemote s.remote (e * 8 + n) f }
/-- The core memories changed by `f`. -/
def State.modCm (s : State) (f : CoreMem → CoreMem) : State := { s with cm := f s.cm }
/-- The power state changed by `f`. -/
def State.modPow (s : State) (f : Power → Power) : State := { s with pow := f s.pow }
/-- The reliability state changed by `f`. -/
def State.modRel (s : State) (f : Rel → Rel) : State := { s with rel := f s.rel }
/-- The security state changed by `f`. -/
def State.modSec (s : State) (f : Sec → Sec) : State := { s with sec := f s.sec }
/-- The fabric changed by `f`. -/
def State.modFab (s : State) (f : Fabric → Fabric) : State := { s with fab := f s.fab }
/-- The ports changed by `f`. -/
def State.modPorts (s : State) (f : Ports → Ports) : State := { s with ports := f s.ports }
/-- The clock changed by `f`. -/
def State.modClk (s : State) (f : Clock → Clock) : State := { s with clk := f s.clk }
/-- The pins changed by `f`. -/
def State.modPins (s : State) (f : Pins → Pins) : State := { s with pins := f s.pins }
/-- The floor plan changed by `f`. -/
def State.modFloor (s : State) (f : Floor → Floor) : State := { s with floor := f s.floor }
/-- The memories changed by `f`. -/
def State.modMem (s : State) (f : Mem → Mem) : State := { s with mem := f s.mem }
/-- Is the part stopped: held in reset, or after a thermal trip (R415, R480)? -/
def State.dead (s : State) : Bool := s.pins.porst || s.pow.tripped
/-- Several things leave the part; nothing leaves it while it is stopped. -/
def State.outs (s : State) (o : List Output) : State := if s.dead then s else { s with outbox := s.outbox ++ o }
/-- Something leaves the part. Assumption 72 [DESIGN CHOICE, safe]. -/
def State.out (s : State) (o : Output) : State := s.outs [o]
/-- `f` for each number of a list, in order. -/
def State.each (s : State) (l : List Nat) (f : State → Nat → State) : State := l.foldl f s

/-! ### Time (assumption 7 [DESIGN CHOICE, safe]) -/

/-- Local time in ns since the device reset. -/
def State.now (s : State) : Nat := s.clk.now
/-- The 802.1AS time counter. -/
def State.tsnNow (s : State) : Nat := ((s.clk.now : Int) + s.clk.tsn).toNat
/-- A free value (assumption 11 [DESIGN CHOICE, safe]), with the state that has read it. -/
def State.takeFree (s : State) : BitVec 64 × State :=
  (Config.freeBits s.clk.free, { s with clk := { s.clk with free := s.clk.free + 1 } })

/-! ### Dictionary values -/

/-- The value an entry holds. -/
def State.dget (s : State) (k : Nat) : Nat := mget entryDefault s.dict k
/-- Is field port `p` up? -/
def State.fieldUp (s : State) (p : Nat) : Bool := s.dget (if p = 0 then kF0Link else kF1Link) == 1
/-- An entry set. -/
def State.dset (s : State) (k v : Nat) : State := { s with dict := mset entryDefault s.dict k v }
/-- A 32-bit counter entry raised; it saturates (R85, R254; assumption 14 [DEDUCED, unsafe]). -/
def State.dadd (s : State) (k a : Nat) : State := s.dset k (satAdd 32 (s.dget k) a)
/-- A 64-bit counter entry raised; it wraps (R110, R143, R254; assumption 14 [DEDUCED, unsafe]). -/
def State.dadd64 (s : State) (k a : Nat) : State := s.dset k (wrapAdd 64 (s.dget k) a)
/-- An entry raised to at least `v`. -/
def State.dmax (s : State) (k v : Nat) : State := s.dset k (max (s.dget k) v)
/-- An entry back at its default. -/
def State.dclear (s : State) (k : Nat) : State := s.dset k (entryDefault k)
/-- The value of a delayed setting in force: the written value, unless an older one still applies (R29, R61, R113). -/
def State.eff (s : State) (k : Nat) : Nat :=
  match mget dNone s.heldVals k with
  | some v => v
  | none => s.dget k
/-- A setting written whose old value stays in force until it is released. -/
def State.dsetHeld (s : State) (k v : Nat) : State :=
  let old := s.eff k
  let h := match mget dNone s.heldVals k with
    | some _ => s.heldVals
    | none => mset dNone s.heldVals k (some old)
  { (s.dset k v) with heldVals := h }
/-- The settings whose key satisfies `p` take effect. -/
def State.release (s : State) (p : Nat → Bool) : State :=
  { s with heldVals := s.heldVals.filter (fun e => !p e.1) }

/-- A requester's state before the part has heard of it. -/
def newReq (r : Requester) : ReqState := { req := r }
/-- What the part keeps for a requester. -/
def State.req (s : State) (r : Requester) : ReqState :=
  match s.reqs.find? (fun q => q.req == r) with
  | some q => q
  | none => newReq r
/-- What the part keeps for a requester, changed by `f`; the requester heard from last stands last. -/
def State.modReq (s : State) (r : Requester) (f : ReqState → ReqState) : State :=
  { s with reqs := s.reqs.filter (fun q => q.req != r) ++ [f (s.req r)] }
/-- A requester forgotten (R361, R365). -/
def State.forget (s : State) (r : Requester) : State := { s with reqs := s.reqs.filter (fun q => q.req != r) }
/-- A requester's copy of a per-requester entry (R352). -/
def State.sel (s : State) (r : Requester) (k : Nat) : Nat := mget entryDefault (s.req r).selects k

/-! ### Structure of the part -/

/-- The cluster of a logical core (Table 1.5). -/
def clusterOf (c : Nat) : Nat := c / 16
/-- The half of a cluster (R9). -/
def halfOf (cl : Nat) : Nat := cl / 64
/-- The slot state code of a core slot (R398): all 16 first slots in service and slot 16 spare, unless listed. -/
def dCoreSlot (k : Nat) : Nat := if k % 32 < 16 then 0 else 1
/-- The slot state code of a slice slot. -/
def dSliceSlot (k : Nat) : Nat := if k % 32 < 16 then 0 else 1
/-- The slot of a logical core; 255 for an absent one. -/
def dSlotMap (c : Nat) : Nat := c % 16
/-- The slot of a logical slice; 255 for an absent one. -/
def dSliceMap (i : Nat) : Nat := i % 16
/-- The units of a cluster (CLUSTER_UNITS): leaf, controller and store good. -/
def dUnits (_ : Nat) : Nat := 7
/-- Physical slot of a logical core (R13). -/
def State.slotOf (s : State) (c : Nat) : Nat := mget dSlotMap s.floor.slotMap c
/-- Is the logical core present (R11)? -/
def State.corePresent (s : State) (c : Nat) : Bool := decide (c < 2048) && s.slotOf c != 255
/-- Is the logical slice present (R18) and not lost (R443)? -/
def State.slicePresent (s : State) (i : Nat) : Bool :=
  decide (i < 64) && mget dSliceMap s.floor.sliceMap i != 255 && !(s.slice i).lost
/-- The state code of slot `i` of cluster `cl`. -/
def State.coreSlot (s : State) (cl i : Nat) : Nat := mget dCoreSlot s.floor.coreSlots (cl * 32 + i)
/-- Core `c` stands in a fresh slot: what was noted of its old slot's memories is gone (R260, R279). -/
def State.freshSlot (s : State) (c : Nat) : State :=
  s.modMem (fun m => { m with
    withdrawn := mset dZero m.withdrawn c 0
    heldReg := m.heldReg.filter (fun e => !(e.1 == 0 && e.2.1 == c)) })
/-- Is slot `i` of cluster `cl` promised to a takeover that has not happened yet (R14, R437)? -/
def State.promised (s : State) (cl i : Nat) : Bool := (List.range 16).any (fun k => match (s.core (cl * 16 + k)).catchUp with
  | some u => u.slot == i
  | none => false)
/-- The spare slot of a cluster: a slot in state SPARE that no takeover has been promised. -/
def State.spareOf (s : State) (cl : Nat) : Option Nat := (List.range 17).find? (fun i => s.coreSlot cl i == 1 && !s.promised cl i)
/-- The clusters of a partition. -/
def partClusters (p : Part) : List Nat := maskList 128 p.mask
/-- The present logical cores of a partition. -/
def State.partCores (s : State) (n : Nat) : List Nat :=
  ((partClusters (s.part n)).flatMap (fun cl => (List.range 16).map (fun k => cl * 16 + k))).filter s.corePresent
/-- The partition of a cluster (R22). -/
def State.partOf (s : State) (cl : Nat) : Option Nat := (List.range 8).find? (fun n => (s.part n).mask.testBit cl)
/-- The resets in progress (R393, R397): scope (1 CORE, 2 CLUSTER, 3 PARTITION), unit, and the instant of its end. -/
def State.liveResets (s : State) : List (Nat × Nat × Nat) := s.floor.resets.filter (fun r => decide (s.clk.now < r.2.2))
/-- Is cluster `cl` under reset, alone or with its partition (R394)? -/
def State.clusterUnderReset (s : State) (cl : Nat) : Bool :=
  s.liveResets.any (fun r => (r.1 == 2 && r.2.1 == cl) || (r.1 == 3 && s.partOf cl == some r.2.1))
/-- Is core `c` under reset? -/
def State.coreUnderReset (s : State) (c : Nat) : Bool := s.clusterUnderReset (c / 16) || s.liveResets.any (fun r => r.1 == 1 && r.2.1 == c)
/-- Is the operation one of virtual function n + 1 while partition n is under reset: it finishes STATE (Table 14.7)? -/
def State.barred (s : State) (h : OpHead) : Bool := s.liveResets.any (fun r => r.1 == 3 && r.2.1 + 1 == h.issuer)
/-- Is the partition treated as ENABLED (R488)? -/
def running (p : Part) : Bool := p.state == .enabled || p.state == .disabling
/-- The slot a number names. -/
def slotAt (p : Part) (i : Nat) : Slot := if i = 0 then p.slot0 else p.slot1
/-- A partition with one of its slots changed. -/
def modSlot (p : Part) (i : Nat) (f : Slot → Slot) : Part :=
  if i = 0 then { p with slot0 := f p.slot0 } else { p with slot1 := f p.slot1 }
/-- The ACTIVE slot of a partition; an empty slot where there is none. -/
def activeSlot (p : Part) : Slot := match p.active with
  | some i => slotAt p i
  | none => {}
/-- Does the image of a slot use logical core `c` (R148)? -/
def usesCore (sl : Slot) (c : Nat) : Bool := (mget dZero sl.masks (c / 16)).testBit (c % 16)
/-- The cores of a partition that its ACTIVE image uses. -/
def State.imageCores (s : State) (n : Nat) : List Nat :=
  (s.partCores n).filter (usesCore (activeSlot (s.part n)))

/-! ### Header fields of an image (Table 6.3) -/

/-- FLAGS. -/
def hdrFlags (h : Bytes) : Nat := fieldAt h 0x08 4
/-- WAKE_ON_EVENT. -/
def hdrWoe (h : Bytes) : Bool := bit (hdrFlags h) 0
/-- PLASTIC. -/
def hdrPlastic (h : Bytes) : Bool := bit (hdrFlags h) 1
/-- DELTA. -/
def hdrDelta (h : Bytes) : Bool := bit (hdrFlags h) 2
/-- HEADER_DIGEST. -/
def hdrDigest (h : Bytes) : Bytes := slice h 0xE0 32

/-! ### LPDDR6 and tiles -/

/-- Bytes of LPDDR6 from a space address. -/
def State.lpRead (s : State) (a n : Nat) : Bytes := readRange (dLp s.mem.lpFree) s.mem.lp a n
/-- Bytes written to LPDDR6; a word written whole is poisoned no longer (R269). -/
def State.lpWrite (s : State) (a : Nat) (bs : Bytes) : State :=
  s.modMem (fun m => { m with
    lp := writeRange (dLp m.lpFree) m.lp a bs
    poison := m.poison.filter (fun w => !(decide (a ≤ w * 32) && decide (w * 32 + 32 ≤ a + bs.length))) })
/-- The space address of a byte of a tile, through its tile map of 2,048-byte granules (R487). -/
def tileAddr (t : Tile) (o : Nat) : Nat := t.granules.getD (o / 2048) 0 + o % 2048
/-- Bytes of a tile from offset `o` of its body (R150). -/
def State.tileRead (s : State) (t : Tile) (o n : Nat) : Bytes :=
  (List.range n).map (fun i => mget (dLp s.mem.lpFree) s.mem.lp (tileAddr t (64 + o + i)))
/-- A field of a tile's body. -/
def State.tileField (s : State) (t : Tile) (o n : Nat) : Nat := leNat (s.tileRead t o n)
/-- Bytes written at an offset of the whole tile, header included, granule by granule. -/
def State.tileWriteHdr (s : State) (t : Tile) (o : Nat) (bs : Bytes) : State :=
  (List.range (bs.length / 2048 + 2)).foldl (fun s j =>
    let lo := max o (2048 * (o / 2048 + j))
    let hi := min (o + bs.length) (2048 * (o / 2048 + j + 1))
    if lo < hi then s.lpWrite (tileAddr t lo) ((bs.drop (lo - o)).take (hi - lo)) else s) s
/-- Bytes written into a tile's body. -/
def State.tileWrite (s : State) (t : Tile) (o : Nat) (bs : Bytes) : State := s.tileWriteHdr t (64 + o) bs
/-- The tile of a kind and owner in a slot. -/
def findTile (sl : Slot) (kind owner : Nat) : Option Tile :=
  sl.tiles.find? (fun t => t.kind == kind && t.owner == owner)
/-- The SYNAPSE tile of a core. -/
def synTile (sl : Slot) (c : Nat) : Option Tile := findTile sl 1 c
/-- The NEURON tile of a core. -/
def neuTile (sl : Slot) (c : Nat) : Option Tile := findTile sl 2 c
/-- The DESTINATION tile of a core. -/
def dstTile (sl : Slot) (c : Nat) : Option Tile := findTile sl 3 c
/-- Rows of a core's SYNAPSE tile. -/
def rowCount (sl : Slot) (c : Nat) : Nat := match synTile sl c with
  | some t => t.count
  | none => 0

/-! ### Core counters (R85, R110, R143, R179) -/

/-- A core counter by its offset in Table 6.13. -/
def State.counter (s : State) (c off : Nat) : Nat := mget dZero s.cm.counters (c * 256 + off)
/-- The partition sum that follows a core counter, if one does (Tables 4.13, 5.10). -/
def sumKey (n off : Nat) : Option Nat :=
  if off = 0x10 then some (kEventsSent n) else if off = 0x18 then some (kEventsDelivered n)
  else if off = 0x20 then some (kCacheHits n) else if off = 0x28 then some (kCacheMisses n)
  else if off = 0x5C then some (kClamps n) else if off = 0x64 then some (kOverflowRecords n)
  else if off = 0x68 then some (kDropBobbinFull n) else if off = 0x6C then some (kRecordFaults n)
  else if off = 0x74 then some (kPrefetchDeferred n) else if off = 0x78 then some (kBypassRows n) else none
/-- A core counter raised: below offset 0x30 it has 64 bits and wraps, above it 32 bits and saturates. -/
def State.bumpCore (s : State) (c off a : Nat) : State :=
  let v := s.counter c off
  let v' := if off < 0x30 then wrapAdd 64 v a else satAdd 32 v a
  s.modCm (fun m => { m with counters := mset dZero m.counters (c * 256 + off) v' })
/-- A core counter raised with the partition sum that follows it. -/
def State.bump (s : State) (c off a : Nat) : State :=
  if a = 0 then s else
  let s := s.bumpCore c off a
  match s.partOf (clusterOf c) with
  | none => s
  | some n => match sumKey n off with
    | some k => if k = kRecordFaults n then s.dadd k a else s.dadd64 k a
    | none => s
/-- The entry that sums counter `j` of the edge routers for partition `n` (Table 5.10): REMOTE_SENT, REMOTE_RECEIVED, DROP_LATE, LATE_DEFERRED,
DROP_EARLY, DROP_REMOTE. -/
def remoteKey (n j : Nat) : Nat := kRemoteSent n + j
/-- Counter `j` of edge router `e` for partition `n` raised, with the partition's sum (R143). -/
def State.countRem (s : State) (e n j a : Nat) : State :=
  if a = 0 then s
  else (s.modRem e n (fun b => { b with counts := mset dZero b.counts j (wrapAdd 64 (mget dZero b.counts j) a) })).dadd64 (remoteKey n j) a
/-- Events absorbed at a core: the counter, the ledger count and ABSORB_TOTAL (R171, R173). -/
def State.absorbCount (s : State) (c off a : Nat) : State :=
  let s := (s.bump c off a).modCore c (fun k => { k with led := { k.led with absorbed := k.led.absorbed + a } })
  match s.partOf (clusterOf c) with
  | some n => s.dadd64 (kAbsorbTotal n) a
  | none => s

/-! ### Interrupt causes and messages -/

/-- A cause bit of a function rises (R320): it is recorded, and its MSI-X message sent when unmasked. -/
def State.raiseCause (s : State) (f b : Nat) : State :=
  let g := s.func f
  if !g.present || bit g.cause b then s
  else
    let s := s.modFunc f (fun g => { g with cause := setBit g.cause b true })
    if bit g.imask b then s else s.out (.msix f b)

/-- The header of a dictionary message (Table 13.4). -/
def msgHeader (type len flags status tag : Nat) : Bytes :=
  [2#8, 0#8] ++ natLe 2 type ++ natLe 2 len ++ natLe 1 flags ++ natLe 1 status ++ natLe 4 tag ++ natLe 4 0

/-- The port code of field ports F0 and F1 and data ports A and B in `Output` (as TIME_PORT numbers them). -/
def portF0 : Nat := 0
/-- Field port F1. -/
def portF1 : Nat := 1

/-- The pitch of a partition at issue (Table 16.5). -/
def State.pitchOf (s : State) (n : Nat) : Nat := if n < 8 then (s.part n).seq.pitch else 0

/-- A notice queued in a mailbox whose NOTICE_ENABLE is 1 (R364). -/
def State.queueNotice (s : State) (msg : Bytes) (k : Nat) : State :=
  let m := s.mailbox k
  if !m.noticeOn then s
  else if m.notices.length < 16 then s.modMailbox k (fun m => { m with notices := m.notices ++ [msg] })
  else (s.modMailbox k (fun m => { m with lost := min 255 (m.lost + 1) })).dadd kNoticeOverflows 1

/-- NODE_STATE CONFLICT (R338). -/
def nodeConflict : Nat := 2

/-- The IPv6 address ff02::1, as the little-endian number of its bytes in network order. -/
def allNodes : Nat := 0xFF + 0x02 * 2 ^ 8 + 2 ^ 120
/-- An emergency object (R429): one for each ECODE, partition and detail in 100 ms; a notice in every listening mailbox,
INT_CAUSE bit 2 in every present function, and a datagram on both field ports. Partition 0xFF is none. -/
def State.issue (s : State) (ecode sev n detail : Nat) : State :=
  let near := s.rel.recent.filter (fun e => s.now < e.2.2.2 + 100000000)
  if near.any (fun e => e.1 == ecode && e.2.1 == n && e.2.2.1 == detail) then s.dadd kEmergencySuppressed 1
  else
    let body := natLe 2 ecode ++ natLe 1 sev ++ natLe 1 (s.dget kNodeAddress) ++ natLe 1 n ++ natLe 3 0 ++
      natLe 8 (s.pitchOf n) ++ natLe 8 s.tsnNow ++ natLe 8 detail
    let msg := msgHeader 0x0080 48 2 0 0 ++ body
    let s := (s.modRel (fun r => { r with recent := near ++ [(ecode, n, detail, s.now)] })).dadd kEmergenciesIssued 1
    let s := s.each (List.range 32) (fun s k => s.queueNotice msg k)
    let s := s.each (List.range 9) (fun s f => s.raiseCause f 2)
    if s.dget kNodeState = nodeConflict then s
    else s.outs [.datagram portF0 0 allNodes (s.dget kDictUdpPort) msg, .datagram portF1 0 allNodes (s.dget kDictUdpPort) msg]
/-- An emergency object, now or once the management core runs. -/
def State.emergency (s : State) (ecode sev n detail : Nat) : State :=
  if s.rel.mgmtUp then s.issue ecode sev n detail
  else s.modRel (fun r => { r with objects := r.objects ++ [(ecode, sev, n, detail)] })

/-! ### Ledger marks -/

/-- An event entry marked in the ledger of partition `n` (R449); beyond the 1,024th of a record it goes to the next. -/
def State.mark (s : State) (n type arg0 arg1 arg2 : Nat) : State :=
  s.modPart n (fun p => { p with ledger := { p.ledger with events := p.ledger.events ++ [⟨type, arg0, arg1, arg2⟩] } })
/-- A flag bit of the open ledger record (Table 16.12). -/
def State.ledgerFlag (s : State) (n b : Nat) : State :=
  s.modPart n (fun p => { p with ledger := { p.ledger with flags := setBit p.ledger.flags b true } })
/-- A dropped delivery of a core (R126, R130, R437). -/
def State.ledgerDrop (s : State) (n c a : Nat) : State :=
  if a = 0 then s
  else (s.modCore c (fun k => { k with led := { k.led with dropped := k.led.dropped + a } })).ledgerFlag n 4

/-- A dropped delivery marked for its target pitch (R126, R130). -/
def State.ledgerDropAt (s : State) (n target c : Nat) : State :=
  s.modPart n (fun p => { p with ledger := { p.ledger with drops := p.ledger.drops ++ [(target, c, 1)] } })

/-! ### Halves and their supplies (R9, R50, R52, R401) -/

/-- The bottom of a profile's window in mV (Table 15.2). -/
def profFloor (p : Nat) : Nat := if p = 0 then 700 else 500
/-- The top of a profile's window. -/
def profTop (p : Nat) : Nat := if p = 0 then 850 else 620
/-- The nominal voltage of a profile. -/
def profNominal (p : Nat) : Nat := if p = 0 then 800 else 550
/-- Half `h`: 0 west, 1 east. -/
def State.half (s : State) (h : Nat) : Half := if h = 0 then s.pow.west else s.pow.east
/-- Half `h` changed by `f`. -/
def State.modHalf (s : State) (h : Nat) (f : Half → Half) : State :=
  if h = 0 then s.modPow (fun p => { p with west := f p.west }) else s.modPow (fun p => { p with east := f p.east })

/-- The halves that a partition has clusters in. -/
def partHalves (p : Part) : List Nat := [0, 1].filter (fun h => (partClusters p).any (fun c => halfOf c == h))
/-- The running partitions with clusters in a half: the partitions for which the governor requires a voltage of it (R50, R52).
Assumption 76 [DESIGN CHOICE, unsafe]. -/
def State.halfParts (s : State) (h : Nat) : List Nat :=
  (List.range 8).filter (fun n => running (s.part n) && (partHalves (s.part n)).contains h)
/-- What the governor requires of half `h` for partition `n`; the nominal voltage until a belay has set it. -/
def State.needOf (s : State) (n h : Nat) : Nat := match (s.part n).needVolt.find? (fun e => e.1 == h) with
  | some e => e.2
  | none => profNominal (s.half h).profile
/-- A partition that starts to run: its requirement can only raise the supply of half `h` (R52). -/
def State.joinHalf (s : State) (n h : Nat) : State := s.modHalf h (fun q => { q with supply := max q.supply (s.needOf n h) })

end Sys2Proof.Machine
end

