-- ==== Sys2Proof/Machine/Mram.lean ====
section
/-!
DEFINITION. The MRAM as bytes (R275, Table 10.9): the identity record, the configuration store, the defect log, the fault log, the licences and the
firmware slots, as the state holds them; the keep-set banks are bytes in `Mem.mram`.
-/

namespace Sys2Proof.Machine

/-- The part writes `n` bytes of the MRAM from `a`: its own record stands there, whatever a descriptor wrote before (R275). -/
def State.overClear (s : State) (a n : Nat) : State := s.modMem (fun m => { m with patched := mclear m.patched a n })
/-- The bytes that manufacture has written for an entry. -/
def factoryBytes (k n : Nat) : Bytes := natLe n (Config.factory k)
/-- SERIAL, 16 bytes. -/
def serialBytes : Bytes := factoryBytes kSerialNumber 16
/-- Exactly `n` bytes. -/
def fixLen (n : Nat) (b : Bytes) : Bytes := (b ++ List.replicate n 0).take n
/-- The characters of a string, one byte each. -/
def ascii (x : String) : Bytes := x.toUTF8.toList.map (fun b => BitVec.ofNat 8 b.toNat)
/-- DS, 32 bytes. -/
def deviceSecret : Bytes := fixLen 32 Config.deviceSecret
/-- The public key of seeds, SK.seed, SK.prf and PK.seed of 16 bytes each (R455): PK.seed, then the key's root, as FIPS 205 lays it out
(assumption 9 [PRESUMED, unsafe]). -/
def slhPublic (seeds : Bytes) : Bytes := slice seeds 32 16 ++ fixLen 16 (Config.slhRoot (slice seeds 0 16) (slice seeds 32 16))
/-- IDK_PUBLIC (R455): IDK's seeds are 48 bytes of SHAKE256 over the label and DS. -/
def idkPublic : Bytes := slhPublic (shakeOut 6 (ascii "KGX-IDK" ++ deviceSecret))
/-- The identity certificate (R456): a body of 256 bytes, of which manufacture gives ISSUED, and the manufacturing key's signature over it. -/
def idkCert : Bytes :=
  let body := natLe 4 0x54444943 ++ natLe 2 1 ++ natLe 2 0 ++ natLe 4 0x4B4C0800 ++ natLe 4 0 ++ serialBytes ++ idkPublic ++
    factoryBytes kIdkCert 8 ++ natLe 184 0
  body ++ fixLen 29792 (Config.slhSign Config.mfgKey body)

/-! ### Records (R386, R427) -/

/-- A fault report as the number of its 16 bytes (Table 16.2). -/
def reportNat (f : FaultReport) : Nat :=
  f.code % 2 ^ 16 + f.severity % 4 * 2 ^ 16 + f.unit % 2 ^ 16 * 2 ^ 24 + f.unitKind % 16 * 2 ^ 40 +
    (match f.partition with
      | some n => n % 8 * 2 ^ 44 + 2 ^ 47
      | none => 0) + f.pitch % 2 ^ 48 * 2 ^ 48 + f.detail % 2 ^ 32 * 2 ^ 96
/-- Bytes followed by their CRC-32C. -/
def withCrc (b : Bytes) : Bytes := b ++ natLe 4 (crc32c b)
/-- Do bytes end in the CRC-32C of those before it? -/
def crcOk (b : Bytes) : Bool := crc32c (b.take (b.length - 4)) == fieldAt b (b.length - 4) 4
/-- A fault record (Table 16.3). -/
def recordBytes (e : FaultEntry) : Bytes := withCrc (natLe 16 (reportNat e.rep) ++ natLe 8 e.time ++ natLe 4 e.seq)
/-- DEFECT_ENTRY `i` (Table 14.2). -/
def State.defectEntry (s : State) (i : Nat) : Bytes := match s.floor.defects[i]? with
  | some d => withCrc (natLe 1 d.kind ++ natLe 1 d.origin ++ natLe 2 d.unit ++ natLe 4 d.detail ++ natLe 4 d.boot)
  | none => List.replicate 16 0
/-- The header of a log of Table 14.2's form: magic, version 1 and one number. -/
def logHeader (magic n : Nat) : Bytes := withCrc (natLe 4 magic ++ natLe 2 1 ++ natLe 2 0 ++ natLe 4 n ++ natLe 16 0)
/-- The defect log (R386). -/
def State.defectLog (s : State) : Bytes :=
  logHeader 0x54464544 (s.dget kBootCount) ++ (List.range s.floor.defects.length).flatMap s.defectEntry
/-- The record in place `i` of the fault log's ring (R427): the newest record lies at place (records − 1) mod 65,535. -/
def State.faultPlace (s : State) (i : Nat) : Bytes :=
  let l := s.rel.log
  let back := (s.rel.records + 65535 - 1 - i % 65535) % 65535
  if l.length ≤ back then List.replicate 32 0
  else match l[l.length - 1 - back]? with
    | some e => recordBytes e
    | none => List.replicate 32 0
/-- The fault log (R427). -/
def State.faultLog (s : State) : Bytes :=
  logHeader 0x544C4146 ((s.rel.log.getLast?.map (·.seq)).getD 0) ++ (List.range 65535).flatMap s.faultPlace

/-! ### The other regions (R375, R390, R456, R457) -/

/-- A record of the configuration store (R375). -/
def storeRecord (e : Nat × Bytes) : Bytes :=
  natLe 2 (e.1 / 256) ++ natLe 1 (e.1 % 256) ++ natLe 1 0 ++ natLe 2 e.2.length ++ natLe 2 0 ++ e.2 ++ natLe ((4 - e.2.length % 4) % 4) 0
/-- A copy of the configuration store (R375); zeros where there is none. -/
def storeBytes : Option StoreCopy → Bytes
  | none => []
  | some c =>
    let recs := c.recs.flatMap storeRecord
    let head := natLe 4 0x54534643 ++ natLe 2 1 ++ natLe 2 0 ++ natLe 4 c.seq ++ natLe 4 c.recs.length ++ natLe 4 (32 + recs.length) ++ natLe 8 0
    head ++ natLe 4 (crc32c (head ++ natLe 4 0 ++ recs)) ++ recs
/-- A copy of the boot record (R458) from its SEQ and MODE; zeros where no copy is valid. -/
def bootBytes : Option (Nat × Nat) → Bytes
  | some r => withCrc (natLe 4 r.1 ++ natLe 1 r.2 ++ natLe 23 0)
  | none => natLe 32 0
/-- The rope settings (R346, Table 17.2): ADDR_MODE, then NODE_ADDRESS_STORED; their places the spec does not give (assumption 96
[DESIGN CHOICE, unsafe]). -/
def State.ropeBytes (s : State) : Bytes := natLe 1 (s.dget kAddrMode) ++ natLe 1 (s.dget kNodeAddressStored) ++ natLe 254 0
/-- The identity record (Table 17.2): the fields of manufacture, the copies of the boot record and the rope settings. -/
def State.identityBytes (s : State) : Bytes :=
  fixLen 0x8000 (natLe 4 0x4449474B ++ natLe 2 1 ++ natLe 2 0 ++ serialBytes ++ factoryBytes kMacBase 6 ++ natLe 2 0 ++ idkPublic ++ idkCert) ++
    fixLen 0x1000 (bootBytes s.sec.boot0 ++ bootBytes s.sec.boot1) ++ s.ropeBytes
/-- A firmware slot: the bytes of its image; of the one written at manufacture the spec gives none (assumption 96 [DESIGN CHOICE, unsafe]). -/
def slotImage (x : FwSlot) (o : Nat) : Byte := match x.meas with
  | some _ => x.image.getD o 0
  | none => Config.freeByte 0 o
/-- The region that holds MRAM address `a` as the state's records show it: its base and its bytes; nothing for regions that `Mem.mram` holds. Where in
its region a licence slot lies the spec does not say: 32 KiB each (assumption 96 [DESIGN CHOICE, unsafe]). -/
def State.mramRegion (s : State) (a : Nat) : Option (Nat × Bytes) :=
  if a < 0x10000 then some (0, s.identityBytes)
  else if a < 0x88000 then some (0x10000, storeBytes s.mem.store0)
  else if a < 0x100000 then some (0x88000, storeBytes s.mem.store1)
  else if a < 0x200000 then some (0x100000, s.defectLog)
  else if a < 0x400000 then some (0x200000, s.faultLog)
  else if a < 0x500000 then some (a / 0x8000 * 0x8000, match mget dNone s.floor.licences ((a - 0x400000) / 0x8000) with
    | some l => l.raw
    | none => [])
  else none
/-- Does `Mem.mram` hold the byte itself: reserved ranges and the keep-set banks (Table 10.9)? -/
def mramRaw (a : Nat) : Bool := (decide (0x500000 ≤ a) && decide (a < 0x800000)) || decide (0x1000000 ≤ a)
/-- One byte of the MRAM: what a descriptor of firmware has written last, else the part's record (R275). -/
def State.mramByte (s : State) (a : Nat) : Byte :=
  if mramRaw a then (readRange dByte s.mem.mram a 1).getD 0 0
  else match mget dNone s.mem.patched a with
    | some v => BitVec.ofNat 8 v
    | none =>
      if 0x800000 ≤ a ∧ a < 0xC00000 then slotImage s.sec.slotA (a - 0x800000)
      else if 0xC00000 ≤ a ∧ a < 0x1000000 then slotImage s.sec.slotB (a - 0xC00000)
      else match s.mramRegion a with
        | some (b, l) => l.getD (a - b) 0
        | none => 0
/-- A range of the MRAM (R275). -/
def State.mramBytes (s : State) (a n : Nat) : Bytes := (List.range n).map (fun i => s.mramByte (a + i))
/-- A write of the MRAM by a descriptor of firmware (R159, R275). -/
def State.mramPut (s : State) (a : Nat) (bs : Bytes) : State := (List.range bs.length).foldl (fun s i =>
  let b := bs.getD i 0
  s.modMem (fun m => if mramRaw (a + i) then { m with mram := writeRange dByte m.mram (a + i) [b] }
    else { m with patched := mset dNone m.patched (a + i) (some b.toNat) })) s
/-- Has a descriptor written into the range since the part last wrote it? -/
def State.overIn (s : State) (a n : Nat) : Bool := s.mem.patched.any (fun e => decide (a ≤ e.1) && decide (e.1 < a + n))

/-! ### What the part reads back from the bytes (R375, R386, R391, R427, R457, R458) -/

/-- The records of a copy of the configuration store, as many as NREC says (R375). -/
def storeRecs : Nat → Bytes → List (Nat × Bytes)
  | 0, _ => []
  | n + 1, b =>
    let len := fieldAt b 4 2
    (256 * fieldAt b 0 2 + fieldAt b 2 1, slice b 8 len) :: storeRecs n (b.drop (8 + (len + 3) / 4 * 4))
/-- The copy that bytes hold, when SMAGIC and CRC match (R375). -/
def storeParse (b : Bytes) : Option StoreCopy :=
  let recs := slice b 32 (fieldAt b 16 4 - 32)
  if fieldAt b 0 4 = 0x54534643 ∧ fieldAt b 28 4 = crc32c (slice b 0 28 ++ natLe 4 0 ++ recs) then
    some ⟨fieldAt b 8 4, storeRecs (fieldAt b 12 4) recs⟩
  else none
/-- Copy `i` of the configuration store, if it is valid (R375). -/
def State.storeCopy (s : State) (i : Nat) : Option StoreCopy :=
  let a := 0x10000 + 0x78000 * i
  if s.overIn a 0x78000 then storeParse (s.mramBytes a 0x78000) else if i = 0 then s.mem.store0 else s.mem.store1
/-- Copy `i` of the boot record, if it is valid (R458): SEQ and MODE. -/
def State.bootCopy (s : State) (i : Nat) : Option (Nat × Nat) :=
  let a := 0x8000 + 32 * i
  if s.overIn a 32 then
    let b := s.mramBytes a 32
    if crcOk b then some (fieldAt b 0 4, fieldAt b 4 1) else none
  else if i = 0 then s.sec.boot0 else s.sec.boot1
/-- The current copy of the boot record, the valid one with the higher SEQ (R458): its number, SEQ and MODE. -/
def State.bootRecord (s : State) : Option (Nat × Nat × Nat) := match s.bootCopy 0, s.bootCopy 1 with
  | some a, some b => if a.1 < b.1 then some (1, b) else some (0, a)
  | some a, none => some (0, a)
  | none, some b => some (1, b)
  | none, none => none
/-- MODE of the boot record: NORMAL when neither copy is valid (R458). -/
def State.bootMode (s : State) : Nat := match s.bootRecord with
  | some r => r.2.2
  | none => 0
/-- The boot record is written with MODE `m`: the copy that is not current, with SEQ one higher (R458). The first record's SEQ is 1 and goes to
copy 0 (assumption 96 [DESIGN CHOICE, unsafe]). -/
def State.writeBoot (s : State) (m : Nat) : State :=
  let seq := match s.bootRecord with
    | some r => (r.2.1 + 1) % 2 ^ 32
    | none => 1
  match s.bootRecord with
  | some (0, _) => (s.overClear 0x8020 32).modSec (fun x => { x with boot1 := some (seq, m) })
  | _ => (s.overClear 0x8000 32).modSec (fun x => { x with boot0 := some (seq, m) })
/-- The entries that bytes hold from place `i` on, at most `n`: the first whose CRC fails ends the log (R386). -/
def State.readDefects (s : State) : Nat → Nat → List Defect
  | 0, _ => []
  | n + 1, i =>
    let b := s.mramBytes (0x100020 + 16 * i) 16
    if crcOk b then ⟨fieldAt b 0 1, fieldAt b 1 1, fieldAt b 2 2, fieldAt b 4 4, fieldAt b 8 4⟩ :: s.readDefects n (i + 1) else []
/-- The defect log at bring-up (R386): its entries up to the first whose CRC fails, and BOOT_COUNT of its header, counted on for this reset; a header whose
CRC fails is rewritten with one above the highest BOOT (assumption 96 [DESIGN CHOICE, unsafe]). -/
def State.openDefects (s : State) : State :=
  let l := if s.overIn 0x100020 0xFFFE0 then s.readDefects 65534 0 else s.floor.defects
  let h := s.mramBytes 0x100000 32
  let n := if !s.overIn 0x100000 32 then s.dget kBootCount + 1
    else if crcOk h then fieldAt h 8 4 + 1 else l.foldl (fun m d => max m d.boot) 0 + 1
  (((s.modFloor (fun f => { f with defects := l })).overClear 0x100000 32).dset kBootCount (n % 2 ^ 32)).dset kDefectCount l.length
/-- FAULT_RECORD of a sequence number (Table 16.3): zero if it was not logged or has been overwritten, by the ring or by a descriptor. -/
def State.faultRecord (s : State) (seq : Nat) : Bytes := match s.rel.log.find? (fun e => e.seq == seq) with
  | some e =>
    let i := s.rel.log.findIdx (fun e => e.seq == seq)
    let a := 0x200020 + 32 * ((s.rel.records + i - s.rel.log.length) % 65535)
    if !s.overIn a 32 then recordBytes e
    else if crcOk (s.mramBytes a 32) ∧ fieldAt (s.mramBytes a 32) 24 4 = seq then s.mramBytes a 32 else List.replicate 32 0
  | none => List.replicate 32 0

end Sys2Proof.Machine
end

