-- ==== Sys2Proof/Machine/Firmware.lean ====
section
/-!
DEFINITION. Firmware images and their slots, the end of a trial, and the end of bring-up, which comes at its own instant (R379, R457, R466
to R468).
-/

namespace Sys2Proof.Machine

/-- BOOT_ROM_VERSION. -/
def bootRomVersion : Nat := Config.factory kBootRomVersion % 2 ^ 32
/-- A slot's measurement. -/
def slotMeas (x : FwSlot) : Bytes := match x.meas with
  | some m => m
  | none => factoryBytes kFwMeasurement 32

/-! ### Firmware images (R457) -/

/-- FW_ERROR codes: FORMAT, KEY, SIGNATURE, ROLLBACK, BOOT_ROM, DEVICE, MEMORY, ORDER. -/
def fwFormat : Nat := 1
/-- MEMORY. -/
def fwMemory : Nat := 7
/-- ORDER. -/
def fwOrder : Nat := 8
/-- Bytes of the image that a header announces: header, body, signature. -/
def fwLength (b : Bytes) : Nat := 256 + fieldAt b 0x14 4 + 29792
/-- Is the header well formed, and does the image fit? -/
def fwFormatOk (b : Bytes) : Bool :=
  let body := fieldAt b 0x14 4
  fieldAt b 0 4 == 0x4D57464B && fieldAt b 4 2 == 1 && fieldAt b 7 1 == 0 && fieldAt b 0x0D 3 == 0 && fieldAt b 0x10 4 == 0x4B4C0800 &&
    fieldAt b 0x38 200 == 0 && decide (fieldAt b 0x0C 1 < 64) && decide (body % 32 = 0) && decide (body ≤ 4164256) &&
    decide (fieldAt b 0x18 4 < body) && decide (fieldAt b 0x1C 4 + fieldAt b 0x20 4 ≤ body) && decide (fieldAt b 0x20 4 ≤ 196608) &&
    decide (fwLength b ≤ b.length) && decide (fwLength b ≤ 4194304)
/-- The first check that an image fails, as an FW_ERROR code; 0 for a verifiable image. -/
def State.fwCheck (s : State) (b : Bytes) : Nat :=
  let n := fwLength b - 29792
  let key := fieldAt b 6 1
  if !fwFormatOk b then fwFormat
  else if 4 ≤ key ∨ bit s.sec.revoked key then 2
  else if !Config.slhVerify (Config.romKey key) (Machine.slice b 0 n) (Machine.slice b n 29792) then 3
  else if fieldAt b 0x0C 1 < s.sec.svnFused then 4
  else if bootRomVersion < fieldAt b 0x24 4 then 5
  else if Machine.slice b 0x28 16 ≠ List.replicate 16 0 ∧ Machine.slice b 0x28 16 ≠ serialBytes then 6 else 0
/-- Is a slot's image verifiable under the fuses as they are now? -/
def State.slotOk (s : State) (x : FwSlot) : Bool := x.valid && decide (s.sec.svnFused ≤ x.svn) && !bit s.sec.revoked x.key
/-- The slot that an image fills. -/
def fwSlotOf (b : Bytes) (ok : Bool) : FwSlot :=
  ⟨fieldAt b 8 4, fieldAt b 0x0C 1, fieldAt b 6 1, ok, some (shake256 (Machine.slice b 0 (fwLength b - 29792))), b⟩

/-! ### Trials and the SVN (R466 to R468) -/

/-- RESULT codes (Table 13.16): PENDING. -/
def resPending : Nat := 1
/-- ACTIVATION_WAIT (R466). -/
def State.activationWait (s : State) : Nat :=
  let hot := s.dget kEmergencyFlags != 0 || (match s.pow.clearAt with
    | some a => decide (s.now < a + 10000000000)
    | none => false)
  let parts := List.range 8
  (if hot then 1 else 0) + (if parts.any (fun n => running (s.part n)) then 2 else 0) +
    (if s.dget kPowerResult = resPending then 4 else 0) + (if s.mem.storeWr.isSome || s.keep.commit.isSome then 8 else 0) +
    (if parts.any (fun n => !(s.part n).loading.isEmpty) then 16 else 0)
/-- An SVN commit that waits for the end of an emergency (R468). -/
def State.svnTick (s : State) : State :=
  if s.sec.svnDue && s.activationWait % 2 == 0 then s.modSec (fun x => { x with svnDue := false, svnFused := max x.svnFused s.sec.runImg.svn }) else s
/-- Does an unconfirmed trial run? -/
def State.onTrial (s : State) : Bool := s.sec.running == 1 && s.bootMode == 3
/-- The image in a slot as its bytes have it (R457): after a descriptor has written into the slot, its bytes decide. -/
def State.slotNow (s : State) (k : Nat) : FwSlot :=
  let a := 0x800000 + 0x400000 * k
  if s.overIn a 0x400000 then
    let b := s.mramBytes a 0x400000
    fwSlotOf b (s.fwCheck b == 0)
  else if k = 0 then s.sec.slotA else s.sec.slotB
/-- Slot B is copied into slot A (R467). -/
def State.copyB (s : State) : State :=
  let b := s.slotNow 1
  (s.overClear 0x800000 0x400000).modSec (fun x => { x with slotA := b })
/-- The trial is confirmed (R467): MODE is COPYING, B is copied into A, and MODE is NORMAL again. -/
def State.confirmTrial (s : State) : State :=
  let s := ((s.writeBoot 2).copyB).writeBoot 0
  let s := (s.dset kTrialResult 1).dset kFwState 0
  if s.dget kAutoSvnCommit = 1 then (s.modSec (fun x => { x with svnDue := true })).svnTick else s

/-! ### The end of bring-up (R379 to R381) -/

/-- FAULT_ACTIVE and the level of FAULT_N (R428; asserted until step 10 of bring-up, Table 14.1) from the reports above the acknowledged one; SMB_ALERT_N follows (R483). -/
def State.updateFaultN (s : State) : State :=
  let act := ((List.range 4).filter (fun v => decide (s.rel.acked < mget dZero s.rel.newest v))).foldl max 0
  let s := s.dset kFaultActive act
  let low := decide (s.dget kFaultNSeverity ≤ act) || s.dget kDeviceState == 3 || s.pins.tripN || s.floor.boot.isSome
  let calm := s.dget kEmergencyFlags == 0
  s.modPins (fun p => { p with
    faultN := low
    smbAlert := if low && !p.faultN then true else if !low && calm then false else p.smbAlert })

/-- Milliseconds since bring-up began. -/
def State.bootMs (s : State) (b : Boot) : Nat := (s.now - b.startAt) / 1000000
/-- The step that bring-up has reached: the first whose time of Table 14.1 has not passed, 35 ms later after a fallback to slot B. The table gives the
latest moments; that the steps end at them is the model's choice (assumption 38 [DESIGN CHOICE, unsafe]). -/
def State.bootStep (s : State) (b : Boot) : Nat :=
  let ms := s.bootMs b - (if b.fallback then 35 else 0)
  if s.bootMs b ≤ 35 then 2 else if ms ≤ 50 then 3 else if ms ≤ 80 then 4 else if ms ≤ 230 then 5 else if ms ≤ 250 then 7 else if ms ≤ 570 then 8 else 9
/-- BRINGUP_STEP: while bring-up runs, the step that it has reached. -/
def State.stepShown (s : State) : Nat := match s.floor.boot with
  | some b => s.bootStep b
  | none => s.dget kBringupStep
/-- Has firmware set up the PCIe functions: from the end of step 4 (R381)? -/
def State.funcsUp (s : State) : Bool := match s.floor.boot with
  | some b => decide (5 ≤ s.bootStep b)
  | none => true
/-- Step 10 (R379): DEVICE_STATE OPERATIONAL, READY, FAULT_N as the faults have it; a trial is confirmed at READY (R467). A wake from PARKED is DONE; another
power request that the reset ended is ABORTED (assumption 43 [DEDUCED, unsafe]). -/
def State.bootReady (s : State) (b : Boot) : State :=
  let s := s.modFloor (fun f => { f with boot := none })
  let s := ((s.dset kDeviceState 1).dset kBringupStep 10).dset kBringupTime b.time
  let s := if s.dget kPowerResult = resPending then s.dset kPowerResult (if s.pow.target = 0 then 2 else 4) else s
  let s := (s.modPins (fun p => { p with ready := true })).updateFaultN
  if s.bootMode = 2 ∨ (s.onTrial ∧ s.dget kAutoConfirm = 1) then s.confirmTrial else s
/-- The end of bring-up, once its instant has come. -/
def State.bootEnd (s : State) : State := match s.floor.boot with
  | some b => if b.endAt ≤ s.now then s.bootReady b else s
  | none => s
/-- The functions as the host sets them: NumVFs, and what it writes to the configuration spaces (Table 12.1). -/
def State.setFuncs (s : State) (v : FuncSettings) : State :=
  let s := (s.dset kNumVfs v.vfs).each (List.range 8) (fun s n => s.modFunc (n + 1) (fun g => { g with present := decide (n < v.vfs) }))
  s.each (List.range 9) (fun s f => s.modFunc f (fun g => { g with conf := v.confs.getD f {} }))
/-- Configuration requests that were answered with Configuration Request Retry Status, which the host repeats, are taken once firmware has set
up the functions (R381). -/
def State.crsEnd (s : State) : State := match s.ports.retry with
  | some v => if s.funcsUp then (s.modPorts (fun p => { p with retry := none })).setFuncs v else s
  | none => s
/-- The state at instant `t`: local time never goes back, and what bring-up and the host have left for a later instant comes about (assumptions 7
[DESIGN CHOICE, safe] and 38 [DESIGN CHOICE, unsafe]). -/
def State.at (s : State) (t : Nat) : State :=
  let s := { s with clk := { s.clk with now := max s.clk.now t } }
  s.bootEnd.crsEnd

end Sys2Proof.Machine
end

