-- ==== Sys2Proof/Machine/Frames.lean ====
section
/-!
DEFINITION. The LPDDR6 space (R264 to R266, R273): frames, sets, granules and the map from a space address to a slice and a
subchannel offset; and the words that cannot be read (R269, R445).
-/

namespace Sys2Proof.Machine

/-- Is a subchannel in an interleave set (R271)? All are, unless bring-up found otherwise. -/
def dSub (_ : Nat) : Bool := true
/-- The in-service slices of the LPDDR6 sets: those whose subchannel trained at the last bring-up. -/
def State.inSet (s : State) (lo hi : Nat) : List Nat :=
  (List.range 64).filter (fun i => decide (lo ≤ i) && decide (i < hi) && mget dSub s.floor.subch i)
/-- The slices of a set: 0 ALL, 1 WEST, 2 EAST. -/
def State.setSlices (s : State) (k : Nat) : List Nat :=
  if k = 0 then s.inSet 0 64 else if k = 1 then s.inSet 0 32 else s.inSet 32 64
/-- Granules that each slice of a set of `n` gives a frame. -/
def perFrame (n : Nat) : Nat := (524288 + n - 1) / n
/-- Granules of frame chunks in a subchannel (Table 10.7). -/
def chunkGranules : Nat := 1933312
/-- FRAME_ALL_MAX (R265). -/
def State.frameAllMax (s : State) : Nat :=
  let n := (s.setSlices 0).length
  if n = 0 then 0 else chunkGranules / perFrame n
/-- FRAME_ALL in force: the entry's value, or FRAME_ALL_MAX when that is lower. -/
def State.frameAll (s : State) : Nat := min (s.dget kFrameAll) s.frameAllMax
/-- Frames of a half set, 1 WEST, 2 EAST, beside `fa` ALL frames (R265). -/
def State.framesHalfAt (s : State) (fa k : Nat) : Nat :=
  let n := (s.setSlices k).length
  let all := (s.setSlices 0).length
  if n = 0 then 0 else (chunkGranules - fa * perFrame all) / perFrame n
/-- Frames of a half set (R265). -/
def State.framesHalf (s : State) (k : Nat) : Nat := s.framesHalfAt s.frameAll k
/-- Frames of 1 GiB plus local areas of 64 MiB with `fa` ALL frames (Table 10.13). -/
def State.lpUsableAt (s : State) (fa : Nat) : Nat :=
  (fa + s.framesHalfAt fa 1 + s.framesHalfAt fa 2) * 2 ^ 30 + (s.setSlices 0).length * 2 ^ 26
/-- The frame count. -/
def State.frameCount (s : State) : Nat := s.frameAll + s.framesHalf 1 + s.framesHalf 2
/-- The set of a frame. -/
def State.frameSet (s : State) (f : Nat) : Nat :=
  if f < s.frameAll then 0 else if f < s.frameAll + s.framesHalf 1 then 1 else 2
/-- The slice and subchannel offset of a space address (R264, R266); nothing where no memory lies. -/
def State.addrMap (s : State) (a : Nat) : Option (Nat × Nat) :=
  if 0x3B00000000 ≤ a ∧ a < 0x3B00000000 + 64 * 0x4000000 then
    let i := (a - 0x3B00000000) / 0x4000000
    if mget dSub s.floor.subch i then some (i, 0xEC000000 + a % 0x4000000) else none
  else
    let f := a / 2 ^ 30
    if s.frameCount ≤ f then none
    else
      let g := (a / 2048) % 524288
      let k := s.frameSet f
      let l := s.setSlices k
      let n := l.length
      let nAll := perFrame (s.setSlices 0).length
      let base := if k = 0 then f * nAll
        else if k = 1 then s.frameAll * nAll + (f - s.frameAll) * perFrame n
        else s.frameAll * nAll + (f - s.frameAll - s.framesHalf 1) * perFrame n
      some (l.getD (g % n) 0, (base + g / n) * 2048 + a % 2048)
/-- Has the subchannel of a space address gone out of service since bring-up (R272, R445)? -/
def State.addrOut (s : State) (a : Nat) : Bool := match s.addrMap a with
  | some p => (s.slice p.1).subOut
  | none => false
/-- The check word of the data word at subchannel offset `o`, and the byte at which its code stands there (R267). -/
def checkPlace (o : Nat) : Nat × Nat := (0xF0000000 + 32 * (o / 512), 2 * (o / 32 % 16))
/-- The 16-bit check code of a data word (R267), of its 32 bytes and bits [31:5] of its offset: the poison code for a poisoned word, and any
other value for data. How the code is formed the spec does not give: a free value (assumption 90 [DESIGN CHOICE, safe]). -/
def checkCode (poisoned : Bool) (data : Bytes) (o : Nat) : BitVec 16 :=
  if poisoned then Config.poisonCode
  else
    let v := Config.wordCode data (o / 32)
    if v = Config.poisonCode then v + 1 else v
/-- The code that stands beside the data word at space address `a`. -/
def State.codeAt (s : State) (a : Nat) : Option (BitVec 16) :=
  (s.addrMap a).map (fun p => checkCode (s.mem.poison.contains (a / 32)) (s.lpRead (32 * (a / 32)) 32) p.2)
/-- Is a word out of reach: poisoned, or in a subchannel that has gone out of service (R269, R445)? -/
def State.wordBad (s : State) (a : Nat) : Bool :=
  s.mem.poison.contains (a / 32) || (match s.addrMap a with
    | some p => (s.slice p.1).subOut
    | none => true)

/-! ### Frame owners (R273) -/

/-- An unlisted frame is free. -/
def dOwner (_ : Nat) : Nat := 0xFF
/-- The owner code of a frame: the system reserve is 0x20, and beyond the frame count nothing is owned. -/
def State.frameOwner (s : State) (f : Nat) : Nat :=
  if s.frameAll ≤ f + 4 ∧ f < s.frameAll then 0x20
  else if s.frameCount ≤ f then 0xFF
  else mget dOwner s.mem.owners f
/-- A frame given an owner. -/
def State.setOwner (s : State) (f o : Nat) : State := s.modMem (fun m => { m with owners := mset dOwner m.owners f o })
/-- The frames that a range of addresses touches. -/
def framesOf (a n : Nat) : List Nat := if n = 0 then [] else (List.range ((a + n - 1) / 2 ^ 30 + 1 - a / 2 ^ 30)).map (fun i => a / 2 ^ 30 + i)
/-- Is the slice that holds a cluster's local area in service (R266, R445)? -/
def State.localArea (s : State) (cl : Nat) : Bool :=
  s.slicePresent (cl / 2) && mget dSub s.floor.subch (cl / 2) && !(s.slice (cl / 2)).subOut

end Sys2Proof.Machine
end

