-- ==== Sys2Proof/Machine/Routes.lean ====
section
/-!
DEFINITION. Ports, links and paths of the fabric (R282, R283, R289), its routing tables and how a switch chooses among their candidates (R302 to R304),
the steps of a change of generation that every fault can ask for (R308), and the links that go out with a unit (R307).
-/

namespace Sys2Proof.Machine

/-! ### Ports and links (Tables 11.3, 11.8) -/

/-- PTYPE of a port address. -/
def portType (a : Nat) : Nat := a / 8192
/-- The layout bits of a port address. -/
def portBits (a : Nat) : Nat := a % 8192
/-- The logical core in a physical slot, if one stands there. -/
def State.logicalCore (s : State) (u : Nat) : Option Nat :=
  (List.range 16).map (fun k => u / 32 * 16 + k) |>.find? (fun c => s.corePresent c && s.slotOf c == u % 32)
/-- The logical slice in a physical slot, if one stands there. -/
def State.logicalSlice (s : State) (u : Nat) : Option Nat :=
  (List.range 16).map (fun k => u / 32 * 16 + k) |>.find? (fun i => s.slicePresent i && mget dSliceMap s.floor.sliceMap i == u % 32)
/-- Has the port address no unused bit set (Table 11.3)? -/
def portForm (a : Nat) : Bool :=
  let b := portBits a
  match portType a with
  | 0 => decide (b < 2048)
  | 1 => decide (b < 1024) && decide (b % 256 < 128)
  | 2 => decide (b < 64)
  | 3 => decide (b < 4)
  | 4 => decide (b < 8)
  | 5 => b == 0
  | 6 => decide (b < 4096)
  | _ => decide (b < 128)
/-- Does the port address name a unit that exists (R289, R290)? -/
def State.portExists (s : State) (a : Nat) : Bool :=
  let b := portBits a
  portForm a && (match portType a with
  | 0 => s.corePresent b
  | 2 => s.slicePresent b
  | 6 => decide (b % 32 < 17)
  | 7 => decide (b % 32 < 17)
  | _ => true)
/-- The number of the leaf-stage switch that a port address is reached through (Table 11.3): 0–127 leaves, 128–191 logical slices, 192–195 edge
routers (EDGE0 for the management core), 196 the sequencers; the port of a physical slice slot counts as the logical slice that it serves, and one
that serves none by its die and slot from 198 on. -/
def State.leafIndex (s : State) (a : Nat) : Nat :=
  let b := portBits a
  match portType a with
  | 0 => b / 16
  | 1 => b % 128
  | 2 => 128 + b % 64
  | 3 => 192 + b % 4
  | 4 => 196
  | 5 => 192
  | 6 => b / 32
  | _ => match s.logicalSlice b with
    | some i => 128 + i
    | none => 198 + b / 32 % 4 * 17 + b % 32 % 17
/-- The ports of a switch (Table 11.8); 0 for a number that names none. -/
def switchPorts (sw : Nat) : Nat :=
  if sw < 128 then 38 else if 0x100 ≤ sw ∧ sw < 0x120 then 102 else if 0x200 ≤ sw ∧ sw < 0x202 then 197
  else if 0x300 ≤ sw ∧ sw < 0x340 then 19 else if 0x400 ≤ sw ∧ sw < 0x404 then 33 else 0
/-- A link end as one number. -/
def linkEnd (sw port : Nat) : Nat := sw * 256 + port
/-- The place of a slice among the 34 physical slice slots of its half. -/
def State.sliceInHalf (s : State) (i : Nat) : Nat := i / 16 % 2 * 17 + mget dSliceMap s.floor.sliceMap i
/-- The logical slice at place `k` of half `h`. -/
def State.sliceAtPlace (s : State) (h k : Nat) : Option Nat := s.logicalSlice ((2 * h + k / 17) * 32 + k % 17)
/-- The other end of a link, where it is a switch. -/
def State.otherEnd (s : State) (sw port : Nat) : Option Nat :=
  if sw < 128 then
    if 17 ≤ port ∧ port < 33 then some (linkEnd (0x100 + 16 * halfOf sw + (port - 17)) (sw % 64))
    else if 33 ≤ port ∧ port < 35 then some (linkEnd (0x200 + (port - 33)) sw) else none
  else if sw < 0x200 then
    let h := sw / 16 % 2
    let k := sw % 16
    if port < 64 then some (linkEnd (64 * h + port) (17 + k))
    else if port < 98 then (s.sliceAtPlace h (port - 64)).map (fun i => linkEnd (0x300 + i) k)
    else if port < 102 then some (linkEnd (0x400 + (port - 98)) (16 * h + k)) else none
  else if sw < 0x300 then
    if port < 128 then some (linkEnd port (33 + sw % 2))
    else if port < 196 then (s.sliceAtPlace ((port - 128) / 34) ((port - 128) % 34)).map (fun i => linkEnd (0x300 + i) (16 + sw % 2)) else none
  else if sw < 0x400 then
    let i := sw % 64
    if port < 16 then some (linkEnd (0x100 + 16 * (i / 32) + port) (64 + s.sliceInHalf i))
    else if port < 18 then some (linkEnd (0x200 + (port - 16)) (128 + 34 * (i / 32) + s.sliceInHalf i)) else none
  else if port < 32 then some (linkEnd (0x100 + port) (98 + sw % 4)) else none
/-- A link by its end at a spine-stage switch, where it has one, else by the end given. -/
def State.linkKey (s : State) (sw port : Nat) : Nat :=
  if 0x100 ≤ sw ∧ sw < 0x300 then linkEnd sw port
  else match s.otherEnd sw port with
    | some e => e
    | none => linkEnd sw port
/-- Is a link excluded, seen from one of its ends (R306)? -/
def State.linkOut (s : State) (sw port : Nat) : Bool := s.fab.excluded.contains (s.linkKey sw port)

/-! ### Paths (R283, R302) -/

/-- The leaf-stage switch that a port address is reached through (Table 11.3); a logical slice lies behind the port of its slot (R17). The management
core is attached to EDGE0 (Table 1.4). -/
def State.stageOf (s : State) (a : Nat) : LeafStage :=
  let b := portBits a
  match portType a with
  | 0 => .leaf (b / 16)
  | 1 => .leaf (b % 128)
  | 2 => .slice (b % 64 / 16 * 32 + mget dSliceMap s.floor.sliceMap (b % 64))
  | 3 => .edge (b % 4)
  | 4 => .seqs
  | 5 => .edge 0
  | 6 => .leaf (b / 32)
  | _ => .slice b
/-- The slots that the tables of a generation name for the logical slices. -/
def State.tableSlices (s : State) (g : Nat) : SMap Nat := if g = 0 then s.fab.slices0 else s.fab.slices1
/-- The leaf-stage switch at which the tables of generation `g` put a packet down: a logical slice lies where the slice map stood when they were
written (R302). -/
def State.downStage (s : State) (g a : Nat) : LeafStage :=
  if portType a = 2 then
    let b := portBits a % 64
    .slice (b / 16 * 32 + mget dSliceMap (s.tableSlices g) b)
  else s.stageOf a
/-- Does the port address name a core? -/
def portCore (a : Nat) : Bool := portType a == 0 || portType a == 6
/-- Does a packet cross the spine? Not between the ports of one leaf-stage switch, but every path from one core to another has three stages (R19). -/
def crossesSpine (p : Packet) (x y : LeafStage) : Bool := x != y || (portCore p.src && portCore p.dst)
/-- The link between a unit and its leaf-stage switch, by its port there (Table 11.8); a leaf itself and a sequencer have none. -/
def State.endLink (s : State) (a : Nat) : Option Nat :=
  let b := portBits a
  match portType a with
  | 0 => some (linkEnd (b / 16) (s.slotOf b))
  | 1 => if b / 256 = 0 then none else some (linkEnd (b % 128) (34 + b / 256))
  | 2 => some (linkEnd (0x300 + b % 64) 18)
  | 3 => some (linkEnd (0x400 + b % 4) 32)
  | 4 => none
  | 5 => some (linkEnd 0x400 32)
  | 6 => some (linkEnd (b / 32) (b % 32))
  | _ => (s.logicalSlice b).map (fun i => linkEnd (0x300 + i) 18)
/-- The half of a leaf-stage switch; an edge router and the sequencers lie in neither. -/
def stageHalf : LeafStage → Option Nat
  | .leaf cl => some (halfOf cl)
  | .slice u => some (u / 64)
  | .edge _ => none
  | .seqs => none
/-- Its index where it keeps weights and the uplink chosen last. -/
def State.stageIndex (s : State) : LeafStage → Nat
  | .leaf cl => cl
  | .slice u => match s.logicalSlice u with
    | some i => 128 + i
    | none => 198 + u / 32 * 17 + u % 32
  | .edge e => 192 + e
  | .seqs => 196
/-- The port of a plane or a column toward a leaf-stage switch (Table 11.8). -/
def spinePort (spine : Nat) (x : LeafStage) : Nat :=
  let col := decide (0x200 ≤ spine)
  match x with
  | .leaf cl => if col then cl else cl % 64
  | .slice u => (if col then 128 + 34 * (u / 64) else 64) + u / 32 % 2 * 17 + u % 32
  | .edge e => 98 + e
  | .seqs => 196
/-- The spine-stage switch that uplink `i` of a leaf-stage switch reaches. -/
def uplinkSpine (x : LeafStage) (i : Nat) : Nat := match stageHalf x with
  | some h => if i < 16 then 0x100 + 16 * h + i else 0x200 + (i - 16)
  | none => if x = .seqs then 0x200 + i else 0x100 + i
/-- The uplinks on which a path from `x` to `y` begins (R283): one plane within a half, one column between the halves or to and from the
sequencers; an edge router reaches a half only through its own links into it, so that no traffic of its own crosses the col. VC0 traffic between
cluster c and the sequencers uses column c mod 2 (R293). -/
def pathUplinks (vc : Nat) (x y : LeafStage) : List Nat :=
  let cols := fun (base : Nat) (z : LeafStage) => match z with
    | .leaf cl => if vc = 0 then [base + cl % 2] else [base, base + 1]
    | _ => [base, base + 1]
  match stageHalf x, stageHalf y with
  | some a, some b => if a = b then List.range 16 else [16, 17]
  | some _, none => if y = .seqs then cols 16 x else List.range 16
  | none, some b => if x = .seqs then cols 0 y else (List.range 16).map (fun i => 16 * b + i)
  | none, none => if x = .seqs ∨ y = .seqs then [] else List.range 32
/-- The link between a spine-stage switch and a leaf-stage switch. -/
def spineLink (spine : Nat) (x : LeafStage) : Nat := linkEnd spine (spinePort spine x)
/-- The links that the tables of a generation leave out. -/
def State.leftOut (s : State) (g : Nat) : List Nat := if g = 0 then s.fab.leftOut0 else s.fab.leftOut1
/-- The candidate mask of a packet of virtual channel `vc` from `x` to `y` in the tables of generation `g` (R302): the uplinks of its paths, without
those whose links to or from the spine-stage switch were excluded when the tables were written. Assumption 92 [DEDUCED, unsafe]. -/
def State.candidateMask (s : State) (g vc : Nat) (x y : LeafStage) : Nat :=
  ((pathUplinks vc x y).filter (fun i => let sp := uplinkSpine x i
    !(s.leftOut g).contains (spineLink sp x) && !(s.leftOut g).contains (spineLink sp y))).foldl (fun m i => m + 2 ^ i) 0
/-- The candidates in ascending order: uplinks in the mask that are not excluded. -/
def State.candidates (s : State) (g vc : Nat) (x y : LeafStage) : List Nat :=
  (maskList 32 (s.candidateMask g vc x y)).filter (fun i => !s.fab.excluded.contains (spineLink (uplinkSpine x i) x))
/-- An unlisted weight. -/
def dWeight (_ : Nat) : Nat := 8
/-- The weight of an uplink. -/
def State.weight (s : State) (i u : Nat) : Nat := mget dWeight s.fab.weights (i * 32 + u)
/-- No uplink chosen yet: the first choice begins at uplink 0. -/
def dLastUp (_ : Nat) : Nat := 31
/-- The uplink of lowest (q + 1) × 16 / w among those with a credit, ties to the first after the one chosen last (R303); nothing where no candidate
has a credit. -/
def State.adaptive (s : State) (x : LeafStage) (e : Trip) (cands : List Nat) : Option Nat :=
  let i := s.stageIndex x
  let last := mget dLastUp s.fab.lastUp i
  let l := cands.filter (fun u => !e.dry.contains u)
  (l.filter (fun u => decide (last < u)) ++ l.filter (fun u => decide (u ≤ last))).foldl (fun best u => match best with
    | none => some u
    | some b => if (e.queued.getD u 0 + 1) * 16 * s.weight i b < (e.queued.getD b 0 + 1) * 16 * s.weight i u then some u else some b) none
/-- The uplink that a packet of virtual channel `vc` takes from `x` to `y` (R303, R304). A re-send avoids the spine-stage switch of the previous attempt
whenever there is another candidate (R299); it waits where it has no candidate with a credit. -/
def State.uplinkFor (s : State) (p : Packet) (e : Trip) (avoid : Option Nat) (x y : LeafStage) : Option Nat :=
  let all := s.candidates p.gen p.vc x y
  let other := all.filter (fun i => some (uplinkSpine x i) != avoid)
  let cands := if other.isEmpty then all else other
  if p.ordered then
    match cands[(p.src ^^^ p.dst) % cands.length]? with
    | some u => if e.dry.contains u then none else some u
    | none => none
  else s.adaptive x e cands

/-! ### Changing generations (R308, R309) -/

/-- ROUTE_STATE values: IDLE. -/
def rsIdle : Nat := 0
/-- STAGED. -/
def rsStaged : Nat := 1
/-- SWITCHING. -/
def rsSwitching : Nat := 2
/-- DRAINING. -/
def rsDraining : Nat := 3
/-- Step 1 of a change of generation, from IDLE: the new tables, without the links that are excluded now and with the slices where they lie now, are written into the inactive generation of
every switch. -/
def State.startGen (s : State) : State :=
  (s.dset kRouteState rsStaged).modFab (fun f => { f with
    leftOut0 := if s.dget kRouteGen = 1 then f.excluded else f.leftOut0
    leftOut1 := if s.dget kRouteGen = 1 then f.leftOut1 else f.excluded
    slices0 := if s.dget kRouteGen = 1 then s.floor.sliceMap else f.slices0
    slices1 := if s.dget kRouteGen = 1 then f.slices1 else s.floor.sliceMap
    stagedAt := s.now
    doneFrom := []
    rebuildDue := false })
/-- Step 2: the commit, at an instant after that of step 1 (assumption 33 [DEDUCED, unsafe]). Sources that are not of an ENABLED partition switch at
once; the others wait for CLOSE. -/
def State.commitGen (s : State) : State :=
  let on := (List.range 8).filter (fun n => running (s.part n))
  (s.dset kRouteState rsSwitching).modFab (fun f => { f with
    toSwitch := on.flatMap s.partCores
    unitsLeft := on.flatMap (fun n => partClusters (s.part n))
    commitAt := s.now })
/-- A change of generation is wanted: now when IDLE, else as soon as it is (Table 11.10). -/
def State.wantGen (s : State) : State :=
  if s.dget kRouteState = rsIdle then s.startGen else s.modFab (fun f => { f with rebuildDue := true })
/-- The sources in a partition's clusters that are no cores take the new generation at its CLOSE (R308). -/
def State.switchUnits (s : State) (n : Nat) : State := s.modFab (fun f => { f with unitsLeft := f.unitsLeft.filter (fun cl => s.partOf cl != some n) })

/-! ### Links of a unit that has failed, and SEQ (R300, R307) -/

/-- Links of switch `sw` are excluded with the unit that they belong to (R307): counted, and the tables are changed. -/
def State.dropLinks (s : State) (sw : Nat) (ports : List Nat) : State :=
  let new := ((ports.filter (fun k => !s.linkOut sw k)).map (s.linkKey sw)).eraseDups
  if new.isEmpty then s
  else ((s.modFab (fun f => { f with excluded := f.excluded ++ new })).dset kLinksExcluded (satAdd 16 (s.dget kLinksExcluded) new.length)).wantGen
/-- The SEQ counts of source port `a` start again at 0: every destination clears its marks for it (R300). -/
def State.seqRestart (s : State) (a : Nat) : State :=
  s.modFab (fun f => { f with
    unacked := f.unacked.filter (fun u => u.pkt.src != a)
    sent := f.sent.filter (fun e => e.1 / 512 != a)
    recv := f.recv.filter (fun e => e.1 / 512 != a) })

/-! ### Copies at their sources, marks at their destinations (R299 to R301) -/

/-- Is it the copy of packet `seq` from port `src` to the switch of port `dst`? -/
def State.isCopy (s : State) (src dst seq : Nat) (u : Unacked) : Bool :=
  u.pkt.src == src && s.leafIndex u.pkt.dst == s.leafIndex dst && u.pkt.seq == seq
/-- The generation that a source sends with (R299, R308): cores and the other units in a cluster of an ENABLED partition wait for CLOSE. -/
def State.sourceGen (s : State) (src : Nat) : Nat :=
  let g := s.dget kRouteGen
  let st := s.dget kRouteState
  if st = rsIdle ∨ st = rsStaged then g
  else if st = rsSwitching ∧ ((portType src = 0 ∧ s.fab.toSwitch.contains (portBits src)) ∨
      (portType src = 1 ∧ s.fab.unitsLeft.contains (portBits src % 128))) then g else 1 - g
/-- A copy is sent again; `count` when the re-send counts toward RESEND_LIMIT. -/
def State.resend (s : State) (u : Unacked) (count : Bool) : State :=
  let p : Packet := { u.pkt with gen := s.sourceGen u.pkt.src }
  let s := s.modFab (fun f => { f with unacked := f.unacked.map (fun x =>
    if s.isCopy p.src p.dst p.seq x then
      { x with pkt := p, resends := x.resends + (if count then 1 else 0), sentAt := some s.now, busyAt := none } else x) })
  (s.dadd64 kResends 1).out (.packet p)
/-- The marks of a packet's source at its destination switch. -/
def dMarks (_ : Nat) : SeqMarks := {}
/-- The key of those marks. -/
def State.marksKey (s : State) (p : Packet) : Nat := p.src * 512 + s.leafIndex p.dst
/-- How far number `a` lies above `b`, modulo 2^16. -/
def seqAbove (a b : Nat) : Nat := (a + 65536 - b % 65536) % 65536
/-- Does `a` lie above `b`? -/
def pktNewer (a b : Nat) : Bool := decide (0 < seqAbove a b) && decide (seqAbove a b < 32768)
/-- Is the number new to its destination (R300)? Numbers more than 64 below the highest have all been accepted. -/
def seqNew (m : SeqMarks) (q : Nat) : Bool := match m.high with
  | none => true
  | some h => pktNewer q h || (!m.marks.contains q && q != h && decide (seqAbove h q ≤ 64))
/-- The first number from `q` on that is not marked, among the next 65. Assumption 64 [DEDUCED, unsafe]. -/
def nextExpected (marks : List Nat) (q : Nat) : Nat :=
  match (List.range 66).find? (fun i => !marks.contains ((q + i) % 65536)) with
  | some i => (q + i) % 65536
  | none => q
/-- A new number marked; `acked` when it is acknowledged at once. -/
def seqMark (m : SeqMarks) (q : Nat) (acked : Bool) : SeqMarks :=
  let high := match m.high with
    | none => q
    | some h => if pktNewer q h then q else h
  let marks := (m.marks ++ [q]).filter (fun x => decide (seqAbove high x ≤ 64))
  { high := some high
    marks := marks
    held := if acked then m.held else m.held ++ [q]
    expected := nextExpected marks m.expected }
/-- The marks changed. -/
def State.modMarks (s : State) (k : Nat) (f : SeqMarks → SeqMarks) : State :=
  s.modFab (fun q => { q with recv := mmod dMarks q.recv k f })
/-- An ACK leaves the endpoint. -/
def State.sendAck (s : State) (p : Packet) : State := s.out (.picot 0x10 p.dst p.src p.seq)
/-- The endpoint completes the acceptance of a packet that it holds: it leaves the buffer that it waited in, and its own ACK follows where that has not
gone yet (R297, R300, R310). -/
def State.completePacket (s : State) (p : Packet) : State :=
  let k := s.marksKey p
  let held := (mget dMarks s.fab.recv k).held.contains p.seq
  let s := (s.modMarks k (fun m => { m with held := m.held.filter (· != p.seq) })).modFab (fun f =>
    { f with edgeHeld := f.edgeHeld.filter (fun e => !(e.key == k && e.seq == p.seq)) })
  if held then s.sendAck p else s

end Sys2Proof.Machine
end

