-- ==== Sys2Proof/Machine/Faults.lean ====
section
/-!
DEFINITION. Faults as every family reports them (chapter 16): fault reports and FAULT_N (R426 to R428), the defect log
(R386), and the declaration of a failed core (R436, R437).
-/

namespace Sys2Proof.Machine

/-- A partition number as a report's or emergency's field: 0xFF for none. -/
def partField : Option Nat → Nat
  | some n => n
  | none => 0xFF

/-- A defect-log entry appended (R386), or DEFECT_LOG_FULL set. -/
def State.logDefect (s : State) (kind origin unit detail : Nat) : State :=
  if s.floor.defects.length < 65534 then
    let s := s.overClear (0x100020 + 16 * s.floor.defects.length) 16
    let s := s.modFloor (fun f => { f with defects := f.defects ++ [⟨kind, origin, unit, detail, s.dget kBootCount⟩] })
    s.dset kDefectCount (s.dget kDefectCount + 1)
  else s.dset kDefectLogFull 1

/-- The log keeps the newest 65,535 records (R427). -/
def trimLog (l : List FaultEntry) : List FaultEntry := l.drop (l.length - 65535)

/-- The unit of a report as the ledger's FAULT entry names it (Table 16.14): the logical core or slice in the slot, where the unit is such a slot. -/
def State.faultArg (s : State) (rep : FaultReport) : Nat :=
  (if rep.unitKind = 1 then (s.logicalCore rep.unit).getD rep.unit
   else if rep.unitKind = 2 then (s.logicalSlice rep.unit).getD rep.unit
   else rep.unit) % 65536
/-- A fault report taken by firmware (R426 to R429): its sequence number, record, FAULT_ACTIVE and FAULT_N, lifetime
count, ledger entry, and the emergency object of a report of severity 1 or more. While the management core restarts, the
report waits for the restart's end (Table 16.15). -/
def State.report (s : State) (rep : FaultReport) : State :=
  if !s.rel.mgmtUp then
    s.modRel (fun r => { r with withheld := r.withheld ++ [rep] })
  else
    let seq := (s.dget kFaultSeq + 1) % 2 ^ 32
    let sec := s.now / 1000000000
    let used := if s.rel.second = sec then s.rel.inSecond else 0
    let logged := decide (used < 1000)
    let s := s.dset kFaultSeq seq
    let s := s.modRel (fun r => { r with
      second := sec
      inSecond := if logged then used + 1 else used
      newest := mset dZero r.newest (rep.severity % 4) seq
      log := if logged then trimLog (r.log ++ [⟨rep, s.tsnNow, seq⟩]) else r.log
      records := if logged then r.records + 1 else r.records })
    let s := if logged then (s.overClear 0x200000 32).overClear (0x200020 + 32 * ((s.rel.records - 1) % 65535)) 32 else s
    let s := if logged then s else s.dadd kFaultLogDrops 1
    let s := s.updateFaultN
    let s := match rep.partition with
      | some n => (s.mark n 5 (s.faultArg rep) seq rep.pitch).ledgerFlag n 6
      | none => s
    if rep.severity = 0 then s
    else (s.dadd kLifeFaults 1).emergency 0x0010 rep.severity (partField rep.partition) (seq * 2 ^ 32 + rep.code)

/-- A report of a code against a unit of a partition. -/
def State.reportUnit (s : State) (code sev kind unit : Nat) (n : Option Nat) (detail : Nat) : State :=
  s.report ⟨code, sev, kind, unit, n, (match n with
    | some m => s.pitchOf m
    | none => 0), detail⟩

/-- The physical core identifier of a logical core's slot (Table 1.5). -/
def State.physCore (s : State) (c : Nat) : Nat := clusterOf c * 32 + s.slotOf c

/-- The oldest pitch that a journal holds. -/
def journalOldest {α : Type} (j : List (Nat × α)) : Option Nat := j.head?.map (·.1)


/-- A takeover of core `c` must be cold (R442). -/
def State.coldOnly (s : State) (c : Nat) : Bool :=
  let k := s.core c
  match k.cairn.latest with
  | none => true
  | some p =>
    !s.localArea (clusterOf c) || decide (64 ≤ s.rel.replays.length) ||
    (match journalOldest (s.cluster (clusterOf c)).journal with
      | none => true
      | some o => decide (p < o + 31) && decide (0 < o))

/-- STATIONS of a core that completes its pitch live (Table 16.13). -/
def stationsLive (k : Core) : Nat :=
  (if k.led.truncIn = 0 ∧ !k.absorbed then 3 else 0) + 4 + (if k.led.withheld = 0 ∧ !k.absorbed then 8 else 0) +
    (if k.absorbed then 0 else 16) + 32
/-- STATIONS of a core that stops now, in an open pitch: what it has completed of it. -/
def stationsDone (k : Core) : Nat :=
  let out := k.sweepDone && k.emitQ.isEmpty
  if k.belaySent then stationsLive k
  else (if k.intake.isEmpty ∧ !k.encWait ∧ k.led.truncIn = 0 ∧ !k.absorbed then 3 else 0) + (if k.sweepDone then 4 else 0) +
    (if out ∧ k.openHauls.isEmpty ∧ k.led.withheld = 0 ∧ !k.absorbed then 8 else 0) + (if out ∧ !k.absorbed then 16 else 0) + (if out then 32 else 0)
/-- What a core that stops in an open pitch had completed, noted once for its core entry. -/
def noteStations (k : Core) : CoreLedger := if k.isOpen ∧ k.led.stations = none then { k.led with stations := some (stationsDone k) } else k.led
/-- The logical core becomes lost (R437): its positions spike no more, its records are dropped and counted. -/
def State.loseCore (s : State) (c : Nat) : State :=
  let n := s.partOf (clusterOf c)
  let k := s.core c
  let s := match n with
    | some m => (s.ledgerDrop m c (k.intake.length + k.ring.length)).mark m 8 c (s.slotOf c) (s.pitchOf m)
    | none => s
  let s := s.modCore c (fun k => { k with
    mode := .lost
    led := noteStations k
    belaySent := k.belaySent || k.isOpen
    belayAt := if k.belaySent then k.belayAt else s.now
    intake := []
    ring := []
    openHauls := []
    emitQ := []
    reads := []
    deferred := []
    catchUp := none })
  let s := s.modRel (fun r => { r with replays := r.replays.filter (· != c) })
  let s := s.dadd kLifeCoresLost 1
  s.reportUnit 0x0803 2 1 (s.physCore c) n 0

/-- A swap-out of core `c` that waits for a belay is dropped when the core fails (R14, R448): its slot is not one to test. -/
def State.dropSwapOut (s : State) (c : Nat) : State :=
  if s.rel.swapWait.contains c then (s.modRel (fun r => { r with swapWait := r.swapWait.filter (· != c) })).dset kTestResult 4 else s
/-- A core slot taken out of service (R436, R448): it is marked FAILED and logged, its link is excluded (R307), and the failure is counted. -/
def State.retireSlot (s : State) (cl slot : Nat) : State :=
  let s := s.modFloor (fun f => { f with coreSlots := mset dCoreSlot f.coreSlots (cl * 32 + slot) 5 })
  ((s.logDefect 1 4 (cl * 32 + slot) 0xFFFFFFFF).dropLinks cl [slot]).dadd (kCoreFailures cl) 1
/-- Core `c` declared failed (R436): its slot is marked FAILED and logged, its belay is sent, copies held for it are
released, its link is excluded (R307); a takeover begins when AUTO_TAKEOVER is 1 and the cluster holds a spare, else the core is lost (R437). -/
def State.declareFailed (s : State) (c : Nat) : State :=
  let k := s.core c
  if k.mode == .failed || k.mode == .lost || !s.corePresent c then s
  else
    let cl := clusterOf c
    let n := s.partOf cl
    let slot := s.slotOf c
    let s := (s.retireSlot cl slot).modCore c (fun k => { k with
      mode := .failed
      led := noteStations k
      belaySent := k.belaySent || k.isOpen
      belayAt := if k.belaySent then k.belayAt else s.now
      intake := []
      openHauls := []
      emitQ := []
      stalled := false
      reads := []
      deferred := []
      cairn := { k.cairn with due := none, writing := none }
      catchUp := none })
    let s := (s.modFab (fun f => { f with unacked := f.unacked.filter (fun u => u.pkt.dst != c) })).dropSwapOut c
    let d := match n with
      | some m => s.pitchOf m
      | none => 0
    if k.mode == .excused || s.dget kAutoTakeover = 0 then s.loseCore c
    else match s.spareOf cl with
      | none => s.loseCore c
      | some sp =>
        let cold := s.coldOnly c
        let kp := k.cairn.latest.getD 0
        let s := s.modCore c (fun k => { k with catchUp := some { d := d, k := kp, next := kp + 1, slot := sp, cold := cold } })
        let s := match n with
          | some m => s.mark m 6 c sp d
          | none => s
        if cold then s.reportUnit 0x0802 2 1 (s.physCore c) n (kp % 65536 * 65536 + sp)
        else s.reportUnit 0x0801 1 1 (s.physCore c) n (kp % 65536 * 65536 + sp)

/-- A core fault reported and the core declared failed (codes 0x0101 to 0x0104, R436). -/
def State.failCore (s : State) (c code detail : Nat) : State :=
  (s.reportUnit code 1 1 (s.physCore c) (s.partOf (clusterOf c)) detail).declareFailed c
/-- The logic test of R394: a core that fails it is a failed core (R436). -/
def State.testCore (s : State) (c : Nat) (pass : Bool) : State := if pass then s else s.failCore c 0x0103 0xFFFFFFFF

end Sys2Proof.Machine
end

