-- ==== Sys2Proof/Machine/Float.lean ====
section
/-!
DEFINITION. IEEE 754 binary16 and binary32 arithmetic as R71, R101, R105, R187 and R211 ask for it: round to nearest,
ties to even, at every operation, subnormal values kept, no operation fused. A value is worked out exactly as a fraction of
natural numbers and rounded once. The sign and the fraction of a NaN that an operation makes are free values of its operands
(assumption 13 [DESIGN CHOICE, safe]).
-/

namespace Sys2Proof.Machine

/-- A binary16 word. -/
abbrev F16 := BitVec 16
/-- A binary32 word. -/
abbrev F32 := BitVec 32

/-- What a floating-point word stands for: not a number, an infinity, or the fraction ± num / den. -/
inductive Num where
  | nan
  | inf (neg : Bool)
  | fin (neg : Bool) (num den : Nat)
  deriving DecidableEq, Repr

/-- Reads a word of a format with `eb` exponent bits and `mb` fraction bits. -/
def numOf (eb mb w : Nat) : Num :=
  let neg := w.testBit (eb + mb)
  let e := (w / 2 ^ mb) % 2 ^ eb
  let m := w % 2 ^ mb
  let bias := 2 ^ (eb - 1) - 1
  if e = 2 ^ eb - 1 then (if m = 0 then .inf neg else .nan)
  else
    let mant := if e = 0 then m else m + 2 ^ mb
    let ex := if e = 0 then 1 else e
    if bias + mb ≤ ex then .fin neg (mant * 2 ^ (ex - bias - mb)) 1 else .fin neg mant (2 ^ (bias + mb - ex))

/-- num / den rounded to the nearest natural number, ties to even. -/
def divNearest (num den : Nat) : Nat :=
  let q := num / den
  let r := num % den
  if 2 * r < den then q else if den < 2 * r then q + 1 else if q % 2 = 0 then q else q + 1

/-- The word of a format that a number rounds to: the exponent is that of the leading bit, but no less than the least. -/
def wordOf (eb mb : Nat) : Num → Nat
  | .nan => (2 ^ eb - 1) * 2 ^ mb + 2 ^ (mb - 1)
  | .inf neg => (if neg then 2 ^ (eb + mb) else 0) + (2 ^ eb - 1) * 2 ^ mb
  | .fin neg num den =>
    let sign := if neg then 2 ^ (eb + mb) else 0
    if num = 0 then sign
    else
      let bias := 2 ^ (eb - 1) - 1
      let least := bias + mb - 1
      let scaled := num * 2 ^ least
      let lead := Nat.log2 (scaled / den)
      let shift := lead - mb
      let m := divNearest scaled (den * 2 ^ shift)
      let w := shift * 2 ^ mb + m
      sign + min w ((2 ^ eb - 1) * 2 ^ mb)

/-- The sum of two numbers; a zero sum of opposite signs is +0. -/
def numAdd : Num → Num → Num
  | .nan, _ => .nan
  | _, .nan => .nan
  | .inf a, .inf b => if a = b then .inf a else .nan
  | .inf a, _ => .inf a
  | _, .inf b => .inf b
  | .fin a n d, .fin b m e =>
    let x := n * e
    let y := m * d
    if a = b then .fin a (x + y) (d * e)
    else if x = y then .fin false 0 1
    else if y < x then .fin a (x - y) (d * e) else .fin b (y - x) (d * e)

/-- The sign turned round. -/
def numNeg : Num → Num
  | .nan => .nan
  | .inf a => .inf (!a)
  | .fin a n d => .fin (!a) n d

/-- Is the number a zero? -/
def numZero : Num → Bool
  | .fin _ 0 _ => true
  | _ => false

/-- The product of two numbers. -/
def numMul : Num → Num → Num
  | .nan, _ => .nan
  | _, .nan => .nan
  | .inf a, y => if numZero y then .nan else match y with
    | .inf b => .inf (a != b)
    | .fin b _ _ => .inf (a != b)
    | .nan => .nan
  | .fin a n _, .inf b => if n = 0 then .nan else .inf (a != b)
  | .fin a n d, .fin b m e => .fin (a != b) (n * m) (d * e)

/-- The quotient of two numbers. -/
def numDiv : Num → Num → Num
  | .nan, _ => .nan
  | _, .nan => .nan
  | .inf _, .inf _ => .nan
  | .inf a, .fin b _ _ => .inf (a != b)
  | .fin a _ _, .inf b => .fin (a != b) 0 1
  | .fin a n d, .fin b m e =>
    if m = 0 then (if n = 0 then .nan else .inf (a != b)) else .fin (a != b) (n * e) (d * m)

/-- Is the first number less than the second? No comparison with a NaN holds. -/
def numLt : Num → Num → Bool
  | .nan, _ => false
  | _, .nan => false
  | .inf a, .inf b => a && !b
  | .inf a, .fin _ _ _ => a
  | .fin _ _ _, .inf b => !b
  | .fin a n d, .fin b m e =>
    let x : Int := if a then -(n * e : Nat) else (n * e : Nat)
    let y : Int := if b then -(m * d : Nat) else (m * d : Nat)
    decide (x < y)

/-- Are the two numbers equal? +0 equals −0. -/
def numEq (a b : Num) : Bool := match a, b with
  | .nan, _ => false
  | _, .nan => false
  | x, y => !numLt x y && !numLt y x

/-- The number of a binary32 word. -/
def f32 (w : F32) : Num := numOf 8 23 w.toNat
/-- The number of a binary16 word. -/
def f16 (w : F16) : Num := numOf 5 10 w.toNat
/-- A number rounded to binary32. -/
def toF32 (x : Num) : F32 := BitVec.ofNat 32 (wordOf 8 23 x)
/-- A number rounded to binary16. -/
def toF16 (x : Num) : F16 := BitVec.ofNat 16 (wordOf 5 10 x)

/-- An integer as a number. -/
def numInt (i : Int) : Num := .fin (decide (i < 0)) i.natAbs 1

/-- The quiet NaN of a format that operation `op` makes of the words `a` and `b`: its sign and the rest of its fraction are free
(assumption 13 [DESIGN CHOICE, safe]). -/
def nanOf (eb mb op a b : Nat) : Nat :=
  let x := Config.nanBits op a b
  x % 2 * 2 ^ (eb + mb) + (2 ^ eb - 1) * 2 ^ mb + 2 ^ (mb - 1) + x / 2 % 2 ^ (mb - 1)
/-- The binary32 result of operation `op` on `a` and `b`, whose value is `x`. -/
def fres (op : Nat) (a b : F32) (x : Num) : F32 := if x = .nan then BitVec.ofNat 32 (nanOf 8 23 op a.toNat b.toNat) else toF32 x

/-- binary32 sum. -/
def fadd (a b : F32) : F32 := fres 0 a b (numAdd (f32 a) (f32 b))
/-- binary32 difference. -/
def fsub (a b : F32) : F32 := fres 1 a b (numAdd (f32 a) (numNeg (f32 b)))
/-- binary32 product. -/
def fmul (a b : F32) : F32 := fres 2 a b (numMul (f32 a) (f32 b))
/-- binary32 quotient. -/
def fdiv (a b : F32) : F32 := fres 3 a b (numDiv (f32 a) (f32 b))
/-- binary32 `<`. -/
def flt (a b : F32) : Bool := numLt (f32 a) (f32 b)
/-- binary32 `≤`. -/
def fle (a b : F32) : Bool := flt a b || numEq (f32 a) (f32 b)
/-- binary32 `=`. -/
def feq (a b : F32) : Bool := numEq (f32 a) (f32 b)
/-- An integer rounded to binary32. -/
def fofInt (i : Int) : F32 := toF32 (numInt i)
/-- A natural number rounded to binary32. -/
def fofNat (n : Nat) : F32 := fofInt (Int.ofNat n)
/-- A binary16 word widened exactly. -/
def fwiden (h : F16) : F32 := if f16 h = .nan then BitVec.ofNat 32 (nanOf 8 23 4 h.toNat 0) else toF32 (f16 h)
/-- A binary32 word rounded to binary16. -/
def fnarrow (a : F32) : F16 := if f32 a = .nan then BitVec.ofNat 16 (nanOf 5 10 5 a.toNat 0) else toF16 (f32 a)
/-- Is the word a NaN? -/
def fisNan (a : F32) : Bool := f32 a == .nan
/-- Is the word finite? -/
def fisFin (a : F32) : Bool := match f32 a with
  | .fin _ _ _ => true
  | _ => false
/-- +∞. -/
def fposInf : F32 := 0x7F800000#32
/-- −∞. -/
def fnegInf : F32 := 0xFF800000#32
/-- The magnitude. -/
def fabs (a : F32) : F32 := a &&& 0x7FFFFFFF#32
/-- The sign turned round. -/
def fneg (a : F32) : F32 := a ^^^ 0x80000000#32
/-- The smaller of two numbers that are not NaN. -/
def fmin (a b : F32) : F32 := if flt b a then b else a
/-- Is the binary16 word finite? -/
def hisFin (h : F16) : Bool := fisFin (fwiden h)

/-- next_below(x) of R73 for x > 0: the largest binary32 value smaller than x. -/
def fnextBelow (a : F32) : F32 := a - 1#32

/-- The largest integer not above a number (0 for a NaN or an infinity, where no rule asks for it). -/
def numFloor : Num → Int
  | .fin false n d => Int.ofNat (n / d)
  | .fin true n d => -Int.ofNat ((n + d - 1) / d)
  | _ => 0

/-- floor in binary32; a NaN or an infinity is unchanged. -/
def ffloor (a : F32) : F32 := if fisFin a then fofInt (numFloor (f32 a)) else a

/-- The nearest integer, ties to even (0 for a NaN or an infinity, where no rule asks for it). -/
def numNearest : Num → Int
  | .fin false n d => Int.ofNat (divNearest n d)
  | .fin true n d => -Int.ofNat (divNearest n d)
  | _ => 0

/-- round_half_even of R192 in binary32. -/
def fround (a : F32) : F32 := if fisFin a then fofInt (numNearest (f32 a)) else a

/-- decay_pow of R187: d^g over g pitches, each product rounded, by the bits of g from the lowest (16 of them suffice). -/
def decayPow (d : F16) (g : Nat) : F32 :=
  if g = 0 then 0x3F800000#32
  else if 65536 ≤ g then (if d = 0x3C00#16 then 0x3F800000#32 else 0#32)
  else
    let st := (List.range 16).foldl (fun (st : F32 × F32 × Nat) _ =>
      if st.2.2 = 0 then st
      else (if st.2.2 % 2 = 1 then fmul st.1 st.2.1 else st.1, fmul st.2.1 st.2.1, st.2.2 / 2))
      (0x3F800000#32, fwiden d, g)
    st.1

end Sys2Proof.Machine
end

