-- ==== Sys2Proof/Machine/Flags.lean ====
section
/-!
DEFINITION. The bit layouts of the words that software and the stations share: the neuron state word, population and
rescale records, event records, descriptors of rows and destinations; and the checks of their ranges (chapters 3 to 5).
-/

namespace Sys2Proof.Machine

/-! ### Neuron state word (Table 3.1) -/

/-- POP. -/
def swPop (w : BitVec 64) : Nat := bits w.toNat 63 59
/-- DIS. -/
def swDis (w : BitVec 64) : Bool := w.toNat.testBit 58
/-- NF. -/
def swNf (w : BitVec 64) : Bool := w.toNat.testBit 57
/-- LAST_N. -/
def swLast (w : BitVec 64) : Nat := bits w.toNat 55 52
/-- REF. -/
def swRef (w : BitVec 64) : Nat := bits w.toNat 51 48
/-- ADAPT. -/
def swAdapt (w : BitVec 64) : F16 := BitVec.ofNat 16 (bits w.toNat 47 32)
/-- V. -/
def swV (w : BitVec 64) : F32 := BitVec.ofNat 32 w.toNat
/-- A state word from its fields; bit 56 is 0. -/
def swMk (pop : Nat) (dis nf : Bool) (last ref : Nat) (adapt : F16) (v : F32) : BitVec 64 :=
  BitVec.ofNat 64 (pop % 32 * 2 ^ 59 + (if dis then 2 ^ 58 else 0) + (if nf then 2 ^ 57 else 0) + last % 16 * 2 ^ 52 +
    ref % 16 * 2 ^ 48 + adapt.toNat * 2 ^ 32 + v.toNat)

/-! ### Population record (Tables 3.2, 3.3), held as the little-endian number of its 32 bytes -/

/-- A binary32 field at a byte offset. -/
def recF32 (r o : Nat) : F32 := BitVec.ofNat 32 (r / 2 ^ (8 * o))
/-- A binary16 field at a byte offset. -/
def recF16 (r o : Nat) : F16 := BitVec.ofNat 16 (r / 2 ^ (8 * o))
/-- LEAK. -/
def popLeak (r : Nat) : F32 := recF32 r 0x00
/-- V_REST. -/
def popVRest (r : Nat) : F32 := recF32 r 0x04
/-- V_RESET. -/
def popVReset (r : Nat) : F32 := recF32 r 0x08
/-- BIAS. -/
def popBias (r : Nat) : F32 := recF32 r 0x0C
/-- THETA_BASE. -/
def popTheta (r : Nat) : F16 := recF16 r 0x10
/-- THETA_INC. -/
def popInc (r : Nat) : F16 := recF16 r 0x12
/-- ADAPT_DECAY. -/
def popDecay (r : Nat) : F16 := recF16 r 0x14
/-- ADAPT_MAX. -/
def popMax (r : Nat) : F16 := recF16 r 0x16
/-- V_FLOOR. -/
def popFloor (r : Nat) : F32 := recF32 r 0x18
/-- CONTROL. -/
def popControl (r : Nat) : Nat := (r / 2 ^ 224) % 2 ^ 32
/-- MAX_COUNT. -/
def popCount (r : Nat) : Nat := bits (popControl r) 15 12
/-- REFRACT. -/
def popRefract (r : Nat) : Nat := bits (popControl r) 11 8
/-- REF_INTEGRATE. -/
def popRefInt (r : Nat) : Bool := bit (popControl r) 3
/-- KEEP_EXCESS. -/
def popKeep (r : Nat) : Bool := bit (popControl r) 2
/-- RESET_KIND = TO_VALUE. -/
def popToValue (r : Nat) : Bool := bit (popControl r) 1
/-- MODE = SINGLE. -/
def popSingle (r : Nat) : Bool := bit (popControl r) 0

/-- A finite number within closed bounds. -/
def fIn (lo hi a : F32) : Bool := fisFin a && fle lo a && fle a hi
/-- A finite binary16 number within closed bounds. -/
def hIn (lo hi a : F16) : Bool := hisFin a && fle (fwiden lo) (fwiden a) && fle (fwiden a) (fwiden hi)

/-- The accepted ranges of Table 3.2 and Table 3.3, and MAX_COUNT not 0 (R69). −0 is in a range from 0. -/
def popOk (r : Nat) : Bool :=
  fIn 0#32 0x3F800000#32 (popLeak r) && fisFin (popVRest r) && fisFin (popBias r) && fisFin (popFloor r) &&
  hIn 0x0400#16 0x7BFF#16 (popTheta r) && hIn 0#16 0x7BFF#16 (popInc r) && hIn 0#16 0x3C00#16 (popDecay r) &&
  hIn 0#16 0x7BFF#16 (popMax r) &&
  fisFin (popVReset r) && flt (popVReset r) (fwiden (popTheta r)) && fle (popFloor r) (popVReset r) &&
  bits (popControl r) 31 16 == 0 && bits (popControl r) 7 4 == 0 && popCount r != 0

/-- The checks of R69 on a state word; `count` records are defined, `rec` is the one that POP names. An ADAPT of −0 is not negative (assumption 93
[DEDUCED, unsafe]). -/
def swOk (w : BitVec 64) (count rec : Nat) : Bool :=
  !w.toNat.testBit 56 && fisFin (swV w) && hisFin (swAdapt w) && fle 0#32 (fwiden (swAdapt w)) &&
  (swDis w || (decide (swPop w < count) && fle (fwiden (swAdapt w)) (fwiden (popMax rec))))

/-! ### Rescale record (Table 4.7), held as the little-endian number of its 64 bytes -/

/-- SCALE_GROUP. -/
def rsGroup (r : Nat) : Nat := r % 2 ^ 16
/-- NSETS. -/
def rsNsets (r : Nat) : Nat := (r / 2 ^ 16) % 2 ^ 8
/-- The set that a record of `nsets` sets runs on while set `k` of its group is active: sets numbered NSETS and above are never used (R102), and
which of the others takes its place the spec leaves open (assumption 80 [DESIGN CHOICE, safe]). -/
def setIn (nsets k : Nat) : Nat := if k < nsets then k else Config.setBeyond k nsets % nsets
/-- A record with its reserved bytes 0x03 to 0x0F zero (R6). -/
def rsClear (r : Nat) : Nat := r % 2 ^ 24 + r / 2 ^ 128 * 2 ^ 128
/-- SCALE of set `k`. -/
def rsScale (r k : Nat) : F32 := recF32 r (0x10 + 12 * k)
/-- X_HI of set `k`. -/
def rsHi (r k : Nat) : F32 := recF32 r (0x14 + 12 * k)
/-- X_LO of set `k`. -/
def rsLo (r k : Nat) : F32 := recF32 r (0x18 + 12 * k)
/-- Is the binary32 word a positive normal finite number? -/
def fNormalPos (a : F32) : Bool := fisFin a && decide (0x00800000 ≤ a.toNat) && !a.toNat.testBit 31
/-- Is the binary32 word a positive finite number? -/
def fPos (a : F32) : Bool := fisFin a && flt 0#32 a

/-- The ranges of one scale set of a rescale record (Table 4.7). -/
def setOk (scale hi lo : F32) : Bool :=
  fNormalPos scale && fPos hi && fisFin (fmul hi scale) && fisFin lo && fle 0#32 lo && flt lo hi

/-- The ranges of Table 4.7. -/
def rescOk (r : Nat) : Bool :=
  decide (rsGroup r < 4096) && decide (1 ≤ rsNsets r) && decide (rsNsets r ≤ 4) && (r / 2 ^ 24) % 2 ^ 104 == 0 &&
  (List.range 4).all (fun k =>
    if k < rsNsets r then setOk (rsScale r k) (rsHi r k) (rsLo r k) else (r / 2 ^ (128 + 96 * k)) % 2 ^ 96 == 0)

/-! ### Outlier map entry (Table 4.6) -/

/-- VALID. -/
def omValid (w : BitVec 16) : Bool := w.toNat.testBit 15
/-- POSITION. -/
def omPos (w : BitVec 16) : Nat := w.toNat % 2 ^ 14

/-- The positions of the valid entries rise strictly and the reserved bits are 0 (R100). -/
def omapOk (l : List (BitVec 16)) : Bool :=
  l.all (fun w => !w.toNat.testBit 14) &&
  (let ps := (l.filter omValid).map omPos
   (ps.zip (ps.drop 1)).all (fun p => decide (p.1 < p.2)))

/-! ### Event record (Table 5.3) -/

/-- COUNT. -/
def evCount (w : BitVec 64) : Nat := bits w.toNat 63 60
/-- DELAY in flight, TGT when stored. -/
def evDelay (w : BitVec 64) : Nat := bits w.toNat 59 50
/-- LATE. -/
def evLate (w : BitVec 64) : Bool := w.toNat.testBit 49
/-- SRC. -/
def evSrc (w : BitVec 64) : Nat := bits w.toNat 48 24
/-- ROW. -/
def evRow (w : BitVec 64) : Nat := bits w.toNat 23 0
/-- An event record from its fields. -/
def evMk (count delay : Nat) (late : Bool) (src row : Nat) : BitVec 64 :=
  BitVec.ofNat 64 (count % 16 * 2 ^ 60 + delay % 1024 * 2 ^ 50 + (if late then 2 ^ 49 else 0) + src % 2 ^ 25 * 2 ^ 24 +
    row % 2 ^ 24)
/-- The record with DELAY or TGT replaced (R118). -/
def evSetDelay (w : BitVec 64) (d : Nat) : BitVec 64 := evMk (evCount w) d (evLate w) (evSrc w) (evRow w)

/-! ### Pricking (Tables 5.1, 5.2) -/

/-- NDEST of a directory entry. -/
def pdCount (w : Nat) : Nat := bits w 31 20
/-- OFFSET of a directory entry, in 8-byte units from the list area. -/
def pdOff (w : Nat) : Nat := bits w 19 0
/-- REMOTE of a destination entry. -/
def deRemote (w : Nat) : Bool := bit w 63
/-- PEER. -/
def dePeer (w : Nat) : Nat := bits w 62 57
/-- DCORE. -/
def deCore (w : Nat) : Nat := bits w 56 46
/-- DELAY. -/
def deDelay (w : Nat) : Nat := bits w 45 36
/-- ROW. -/
def deRow (w : Nat) : Nat := bits w 23 0

/-! ### Synapse rows (Tables 4.2 to 4.5) -/

/-- LEN32 of a directory entry. -/
def rdLen (w : Nat) : Nat := bits w 31 22
/-- OFFSET of a directory entry, in 32-byte units. -/
def rdOff (w : Nat) : Nat := bits w 21 0

/-- One block of a row: BASE, ZP, the set bits in ascending order with their stored weights. -/
structure RowBlock where
  base : Nat
  zp   : Nat
  syns : List (Nat × Nat)
  deriving DecidableEq, Repr

/-- A checked row: its blocks, its outlier entries (slot, weight), and its WFMT. -/
structure Row where
  wfmt   : Nat
  blocks : List RowBlock
  outs   : List (Nat × F16)
  deriving DecidableEq, Repr

/-- The i-th weight of a block from its weight bytes. -/
def blockWeight (wfmt : Nat) (ws : Bytes) (i : Nat) : Nat :=
  if wfmt = 0 then
    let b := (ws.getD (i / 2) 0).toNat
    if i % 2 = 0 then b % 16 else b / 16
  else (ws.getD i 0).toNat

/-- Weight bytes of a block, padding included (R90). -/
def blockBytes (wfmt nw : Nat) : Nat := if wfmt = 0 then 4 * ((nw + 7) / 8) else 4 * ((nw + 3) / 4)

/-- The blocks of a row from byte offset `o`, `n` of them, with the offset after the last; nothing when a block breaks
R90 or R94. An empty block, NW 0 and MASK 0, is none of R94's row faults (assumption 93 [DEDUCED, unsafe]). -/
def readBlocks (wfmt : Nat) (bs : Bytes) : Nat → Nat → Option Nat → Option (List RowBlock × Nat)
  | 0, o, _ => some ([], o)
  | n + 1, o, prev =>
    let mask := fieldAt bs o 8
    let hd := fieldAt bs (o + 8) 4
    let base := bits hd 31 24
    let zp := bits hd 23 16
    let nw := bits hd 15 8
    let set := maskList 64 mask
    let ws := slice bs (o + 12) (blockBytes wfmt nw)
    let used := if wfmt = 0 then (nw + 1) / 2 else nw
    let clean := (ws.drop used).all (· == 0) && (wfmt != 0 || nw % 2 == 0 || (ws.getD (nw / 2) 0).toNat / 16 == 0)
    let rising := match prev with
      | some p => decide (p < base)
      | none => true
    if bits hd 7 0 != 0 || nw != set.length || !rising || (wfmt == 0 && decide (15 < zp)) || !clean then none
    else match readBlocks wfmt bs n (o + 12 + blockBytes wfmt nw) (some base) with
      | some (r, e) => some (⟨base, zp, (List.range nw).map (fun i => (set.getD i 0, blockWeight wfmt ws i))⟩ :: r, e)
      | none => none

/-- The positions a row names: its set bits and the positions of its outlier slots under an outlier map. -/
def rowPositions (r : Row) (omap : Nat → BitVec 16) : List Nat :=
  r.blocks.flatMap (fun b => b.syns.map (fun x => 64 * b.base + x.1)) ++ r.outs.map (fun e => omPos (omap e.1))

/-- The row that bytes hold, checked under R94 against its event's source, the directory's length and the outlier map;
nothing on a row fault. -/
def checkRow (bs : Bytes) (dirLen srcTag : Nat) (omap : Nat → BitVec 16) : Option Row :=
  let h := fieldAt bs 0 8
  let wfmt := bits h 63 62
  let nblk := bits h 60 52
  let nout := bits h 51 44
  let len := bits h 43 34
  if decide (2 ≤ wfmt) || bits h 33 32 != 0 || bits h 15 0 != 0 || bits h 31 16 != srcTag || len != dirLen ||
      (nblk == 0 && nout == 0) || decide (256 < nblk) || bs.length != 32 * len then none
  else match readBlocks wfmt bs nblk 8 none with
    | none => none
    | some (blocks, o) =>
      let outs := (List.range nout).map (fun i => fieldAt bs (o + 4 * i) 4)
      let e := o + 4 * nout
      let r : Row := ⟨wfmt, blocks, outs.map (fun w => (bits w 31 21, BitVec.ofNat 16 w))⟩
      let bad := outs.any (fun w => bits w 20 16 != 0 || !hisFin (BitVec.ofNat 16 w) || !omValid (omap (bits w 31 21)))
      let ps := rowPositions r omap
      if bad || (e + 31) / 32 != len || (bs.drop e).any (· != 0) || !decide ps.Nodup then none else some r

end Sys2Proof.Machine
end

