-- ==== Sys2Proof/Machine/Neuron.lean ====
section
/-!
DEFINITION. The arithmetic of RESCALE and INTEGRATE for one position, and the guard's judgement of one value (R73 to R82,
R105, R107). Nothing here reads or writes the state.
-/

namespace Sys2Proof.Machine

/-- What INTEGRATE does at one position: the new state word, the spike count, and what the counters count. -/
structure Fire where
  word   : BitVec 64
  n      : Nat
  floors : Nat
  kept   : Nat
  disc   : Nat
  repair : Nat
  deriving DecidableEq, Repr

/-- leak_add of R73. -/
def leakAdd (r : Nat) (v i : F32) : F32 :=
  fadd (fadd (fmul (fsub v (popVRest r)) (popLeak r)) (popVRest r)) i

/-- The threshold multiple k of R79: the largest integer from 1 to 16 with V ≥ k × θ, for a V not below θ. -/
def multiple (v theta : F32) : Nat :=
  (List.range 15).foldl (fun k i => if k = i + 1 ∧ fle (fmul (fofNat (k + 1)) theta) v then k + 1 else k) 1

/-- The cap on the count (R78, R79). -/
def countCap (r : Nat) : Nat := if popSingle r || decide (0 < popRefract r) then 1 else popCount r

/-- The floor rule (R75): the membrane, and whether it was raised. −∞ is below every floor. -/
def floorV (r : Nat) (v : F32) : F32 × Nat := if flt v (popFloor r) then (popFloor r, 1) else (v, 0)

/-- INTEGRATE at one enabled position (R73): `r` is the population record its POP names, `x` its rescaled input. -/
def integrate (r : Nat) (w : BitVec 64) (x : F32) : Fire :=
  let i := fadd x (popBias r)
  let a := fmul (fwiden (swAdapt w)) (fwiden (popDecay r))
  if 0 < swRef w then
    let v := if popRefInt r then leakAdd r (swV w) i else swV w
    let bad := fisNan v || v == fposInf
    let nf := bad || v == fnegInf
    let v := if bad then popVReset r else v
    let f := floorV r v
    let a := fmin a (fwiden (popMax r))
    ⟨swMk (swPop w) (swDis w) (swNf w || nf) 0 (swRef w - 1) (fnarrow a) f.1, 0, f.2, 0, 0, if nf then 1 else 0⟩
  else
    let v := leakAdd r (swV w) i
    let infIn := v == fposInf
    let nan := fisNan v
    let nf := nan || v == fnegInf || infIn
    let v := if nan then popVReset r else v
    let f := floorV r v
    let v := f.1
    let theta := fadd (fwiden (popTheta r)) a
    if fle theta v then
      let k := multiple v theta
      let n := min k (countCap r)
      let excess := decide (n < k) || infIn
      let kept := excess && !(popToValue r || infIn) && popKeep r
      let v := if popToValue r || infIn then popVReset r
        else if excess && !popKeep r then fnextBelow theta
        else fsub v (fmul (fofNat n) theta)
      let a := fmin (fadd a (fmul (fofNat n) (fwiden (popInc r)))) (fwiden (popMax r))
      ⟨swMk (swPop w) (swDis w) (swNf w || nf) n (popRefract r) (fnarrow a) v, n, f.2, if kept then 1 else 0,
        if excess && !kept then 1 else 0, if nf then 1 else 0⟩
    else
      let a := fmin a (fwiden (popMax r))
      ⟨swMk (swPop w) (swDis w) (swNf w || nf) 0 (swRef w) (fnarrow a) v, 0, f.2, 0, 0, if nf then 1 else 0⟩

/-- acc_max of R96. -/
def accMax : Int := 0x7FFFFFFF

/-- The pre-scale value x of R105 for an enabled position: its accumulator, and the outlier sum of the slot that serves it. -/
def preScale (acc : Int) (osum : Option F32) : F32 :=
  match osum with
  | some o => fadd (fofInt acc) o
  | none => fofInt acc

/-- The clamp of R105 and R211, with whether it acted. -/
def clampX (on : Bool) (hi x : F32) : F32 × Nat :=
  if !on then (x, 0)
  else if fisNan x then (0#32, 1)
  else if flt hi x then (hi, 1)
  else if flt x (fneg hi) then (fneg hi, 1) else (x, 0)

/-- How the guard judges a value under one set (R107, R216): 0 within bounds, 1 saturated, 2 underflow. -/
def judge (bound : Bool) (mag hi lo : F32) : Nat :=
  if bound || !fle mag hi then 1 else if flt mag lo then 2 else 0

/-- The fits of R108. -/
def fitsSet (active sat under satFrac underFrac : Nat) : Bool :=
  decide (sat * 10000 ≤ satFrac * active) && decide (under * 10000 ≤ underFrac * active)

end Sys2Proof.Machine
end

