-- ==== Sys2Proof/Machine/Plastic.lean ====
section
/-!
DEFINITION. Projections, runs, TRACE and APPLY (chapter 7). Traces, columns and update words are read and written where
they lie, in the bytes of the PLASTIC tile.
-/

namespace Sys2Proof.Machine

/-- A run (Table 7.2) with its projection. -/
structure Run where
  proj      : Nat
  core      : Nat
  firstRow  : Nat
  nRow      : Nat
  rowBase   : Nat
  postFirst : Nat
  postCount : Nat
  postBase  : Nat
  deriving DecidableEq, Repr

/-- The run entry at index `i` of a PLASTIC tile. -/
def State.runAt (s : State) (t : Tile) (i : Nat) : Run :=
  let e := s.tileRead t (s.tileField t 0x20 4 * 32 + 32 * i) 32
  ⟨t.owner, fieldAt e 0 2, fieldAt e 4 4, fieldAt e 8 4, fieldAt e 0xC 4, fieldAt e 0x10 2, fieldAt e 0x12 2, fieldAt e 0x14 4⟩

/-- The runs of a PLASTIC tile. -/
def State.runsOf (s : State) (t : Tile) : List Run := (List.range (s.tileField t 0x04 2)).map (s.runAt t)

/-- The run of core `c` that holds row `r`, with its PLASTIC tile (R182, R186). -/
def State.rowRun (s : State) (sl : Slot) (c r : Nat) : Option (Tile × Run) :=
  ((sl.tiles.filter (fun t => t.kind == 5)).flatMap (fun t => (s.runsOf t).map (fun u => (t, u)))).find?
    (fun p => p.2.core == c && decide (p.2.firstRow ≤ r) && decide (r < p.2.firstRow + p.2.nRow))

/-- The runs of core `c` whose post range holds position `q` (R189). -/
def State.postRuns (s : State) (sl : Slot) (c q : Nat) : List (Tile × Run) :=
  ((sl.tiles.filter (fun t => t.kind == 5)).flatMap (fun t => (s.runsOf t).map (fun u => (t, u)))).filter
    (fun p => p.2.core == c && decide (p.2.postFirst ≤ q) && decide (q < p.2.postFirst + p.2.postCount))

/-- Byte offset of an area of a projection, in the tile's body: the area's offset field at `f`. -/
def State.areaOff (s : State) (t : Tile) (f : Nat) : Nat := s.tileField t f 4 * 32

/-- Where update word `u` of bank `b` lies. -/
def State.updOff (s : State) (t : Tile) (b u : Nat) : Nat := s.areaOff t (if b = 0 then 0x34 else 0x38) + 8 * u

/-- The saturating store of R187: the binary16 word, and whether it saturated. -/
def satHalf (a : F32) : F16 × Nat :=
  if flt 0x477FE000#32 (fabs a) then (if a.toNat.testBit 31 then 0xFBFF#16 else 0x7BFF#16, 1) else (fnarrow a, 0)

/-- A saturating store into the body of a tile, counted in UPDATE_SATURATIONS of partition `n`. -/
def State.storeHalf (s : State) (n : Nat) (t : Tile) (o : Nat) (a : F32) : State :=
  let h := satHalf a
  (s.tileWrite t o (natLe 2 h.1.toNat)).dadd (kUpdateSaturations n) h.2

/-- A binary16 field of a tile's body. -/
def State.tileHalf (s : State) (t : Tile) (o : Nat) : F16 := BitVec.ofNat 16 (s.tileField t o 2)

/-- A trace decayed from its stamp to pitch `t` (R187): the trace lies at `o`, its stamp 2 bytes above. -/
def State.decayed (s : State) (tl : Tile) (o : Nat) (decay : F16) (t : Nat) : F32 :=
  fmul (fwiden (s.tileHalf tl o)) (decayPow decay ((t + 2 ^ 48 - s.tileField tl (o + 2) 6) % 2 ^ 48))

/-- A trace raised by a count, with its stamp set (R188, R189). -/
def State.raiseTrace (s : State) (n : Nat) (tl : Tile) (o : Nat) (decay : F16) (t cnt : Nat) : State :=
  let x := s.decayed tl o decay t
  (s.storeHalf n tl o (fadd x (fofNat cnt))).tileWrite tl (o + 2) (natLe 6 t)

/-- One pair sum raised: the binary16 field at `o` plus `v` × count (R188, R189). -/
def State.addPair (s : State) (n : Nat) (tl : Tile) (o : Nat) (v : F32) (cnt : Nat) : State :=
  s.storeHalf n tl o (fadd (fwiden (s.tileHalf tl o)) (fmul v (fofNat cnt)))

/-- trace_pre of R188: an arrival of count `cnt` in pitch `t` on row `r` of run `u`. -/
def State.tracePre (s : State) (n : Nat) (tl : Tile) (u : Run) (bank r : Nat) (row : Row) (cnt t : Nat) : State :=
  let o := s.areaOff tl 0x24 + 16 * (u.rowBase + (r - u.firstRow))
  let updBase := s.tileField tl (o + 12) 4
  let qs := row.blocks.flatMap (fun b => b.syns.map (fun x => 64 * b.base + x.1))
  let s := (List.range qs.length).foldl (fun s i =>
    let q := qs.getD i 0
    if q < u.postFirst ∨ u.postFirst + u.postCount ≤ q then s.dadd (kPostRangeMisses n) 1
    else
      let po := s.areaOff tl 0x28 + 8 * (u.postBase + (q - u.postFirst))
      s.addPair n tl (s.updOff tl bank (updBase + i)) (s.decayed tl po (s.tileHalf tl 0x1A) t) cnt) s
  (s.raiseTrace n tl o (s.tileHalf tl 0x18) t cnt).dadd64 (kTracePreEvents n) 1

/-- trace_post of R189: a spike of count `cnt` in pitch `t` at position `q`, for one run. -/
def State.tracePost (s : State) (n : Nat) (tl : Tile) (u : Run) (bank q cnt t : Nat) : State :=
  let k := u.postBase + (q - u.postFirst)
  let cd := s.tileField tl (s.areaOff tl 0x2C + 8 * k) 8
  let s := (List.range (bits cd 31 16)).foldl (fun s j =>
    let e := s.tileField tl (s.areaOff tl 0x30 + 8 * (bits cd 63 32 + j)) 8
    let ro := s.areaOff tl 0x24 + 16 * bits e 31 0
    s.addPair n tl (s.updOff tl bank (bits e 63 32) + 2) (s.decayed tl ro (s.tileHalf tl 0x18) t) cnt) s
  (s.raiseTrace n tl (s.areaOff tl 0x28 + 8 * k) (s.tileHalf tl 0x1A) t cnt).dadd64 (kTracePostSpikes n) 1

/-! ### Rows of a SYNAPSE tile -/

/-- Directory entry of row `r` (R93). -/
def State.rowDir (s : State) (t : Tile) (r : Nat) : Nat := s.tileField t (4 * r) 4

/-- Body offset of the copy of a row that generation `g` reads (R184). -/
def copyOff (dir g : Nat) : Nat := 32 * (rdOff dir + (if g % 2 = 1 then rdLen dir else 0))

/-- The generation of a projection of a slot. -/
def projGen (sl : Slot) (p : Nat) : Nat := (mget dProj sl.projs p).gen

/-- LEN32 and the bytes of row `r` of core `c`: of the generation in force for a row of a run, copy 0 otherwise (R182, R186). -/
def State.rowAt (s : State) (sl : Slot) (c r : Nat) : Option (Nat × Bytes) :=
  match synTile sl c with
  | none => none
  | some t =>
    if t.count ≤ r then none
    else
      let dir := s.rowDir t r
      let g := match s.rowRun sl c r with
        | some p => projGen sl p.2.proj
        | none => 0
      some (rdLen dir, s.tileRead t (copyOff dir g) (32 * rdLen dir))
/-- Can the directory entry of row `r` not be read: its word is poisoned, or in a subchannel that is out of service (R269, R445)? -/
def State.dirBad (s : State) (sl : Slot) (c r : Nat) : Bool := (synTile sl c).any (fun t => s.wordBad (tileAddr t (64 + 4 * r)))
/-- Can a word of row `r` not be read? -/
def State.rowBad (s : State) (sl : Slot) (c r : Nat) : Bool := (synTile sl c).any (fun t =>
  let dir := s.rowDir t r
  let g := match s.rowRun sl c r with
    | some p => projGen sl p.2.proj
    | none => 0
  (List.range (rdLen dir)).any (fun i => s.wordBad (tileAddr t (64 + copyOff dir g + 32 * i))))

/-! ### APPLY (R192) -/

/-- What APPLY makes of one weight: the new weight, the residual, whether it was clamped. -/
def applyWeight (aPlus aMinus : F16) (wMin wMax w : Nat) (p d res : F16) : Nat × F32 × Nat :=
  let range := fofNat (wMax - wMin)
  let up := fdiv (fofInt ((wMax : Int) - w)) range
  let dn := fdiv (fofInt ((w : Int) - wMin)) range
  let dw := fsub (fmul (fmul (fwiden aPlus) (fwiden p)) up) (fmul (fmul (fwiden aMinus) (fwiden d)) dn)
  let t := fadd (fadd (fofNat w) dw) (fwiden res)
  let r := fround t
  let e := fsub t r
  if flt (fofNat wMax) r then (wMax, 0#32, 1)
  else if flt r (fofNat wMin) then (wMin, 0#32, 1)
  else ((numNearest (f32 r)).toNat, e, 0)

/-- The set mask bits of a row's blocks (R185), from offset `o` of the row. -/
def rowMaskBits (wfmt : Nat) (bs : Bytes) : Nat → Nat → Nat
  | 0, _ => 0
  | n + 1, o => (maskList 64 (fieldAt bs o 8)).length + rowMaskBits wfmt bs n (o + 12 + blockBytes wfmt (bits (fieldAt bs (o + 8) 4) 15 8))
/-- The weights of a row in ordinal order with the byte offset and nibble of each in the row (R90). -/
def rowWeightSlots (wfmt : Nat) (bs : Bytes) : Nat → Nat → List (Nat × Nat × Nat)
  | 0, _ => []
  | n + 1, o =>
    let nw := bits (fieldAt bs (o + 8) 4) 15 8
    (List.range nw).map (fun i =>
      if wfmt = 0 then (o + 12 + i / 2, i % 2, blockWeight 0 (slice bs (o + 12) (blockBytes 0 nw)) i)
      else (o + 12 + i, 0, (bs.getD (o + 12 + i) 0).toNat)) ++
    rowWeightSlots wfmt bs n (o + 12 + blockBytes wfmt nw)

/-- A row's bytes with one weight replaced. -/
def putWeight (wfmt : Nat) (bs : Bytes) (o nib w : Nat) : Bytes :=
  let b := (bs.getD o 0).toNat
  let v := if wfmt = 0 then (if nib = 0 then b / 16 * 16 + w % 16 else b % 16 + w % 16 * 16) else w % 256
  bs.set o (BitVec.ofNat 8 v)

/-- APPLY of one row: the inactive copy is written from the active one, and the closed bank's words are taken. -/
def State.applyRow (s : State) (n : Nat) (tl syn : Tile) (u : Run) (g bank r : Nat) : State :=
  let dir := s.rowDir syn r
  let bs := s.tileRead syn (copyOff dir g) (32 * rdLen dir)
  let h := fieldAt bs 0 8
  let wfmt := bits h 63 62
  let updBase := s.tileField tl (s.areaOff tl 0x24 + 16 * (u.rowBase + (r - u.firstRow)) + 12) 4
  let ws := rowWeightSlots wfmt bs (bits h 60 52) 8
  let wMin := s.tileField tl 0x1C 1
  let wMax := s.tileField tl 0x1D 1
  let st := (List.range ws.length).foldl (fun (st : State × Bytes) i =>
    let e := ws.getD i (0, 0, 0)
    let o := st.1.updOff tl bank (updBase + i)
    let a := applyWeight (st.1.tileHalf tl 0x14) (st.1.tileHalf tl 0x16) wMin wMax e.2.2
      (st.1.tileHalf tl (o + 2)) (st.1.tileHalf tl o) (st.1.tileHalf tl (o + 4))
    let s1 := (st.1.tileWrite tl o [0, 0, 0, 0]).storeHalf n tl (o + 4) a.2.1
    let s1 := s1.dadd64 (kWeightClamps n) a.2.2
    let s1 := if a.1 = e.2.2 then s1 else s1.dadd64 (kWeightsChanged n) 1
    (s1, putWeight wfmt st.2 e.1 e.2.1 a.1)) (s, bs)
  st.1.tileWrite syn (copyOff dir (g + 1)) st.2

/-- APPLY of a projection: every row of every run (R192). -/
def State.applyProj (s : State) (n : Nat) (sl : Slot) (tl : Tile) (pr : Proj) : State :=
  (s.runsOf tl).foldl (fun s u => match synTile sl u.core with
    | none => s
    | some syn => (List.range u.nRow).foldl (fun s i => s.applyRow n tl syn u pr.gen (1 - pr.bank) (u.firstRow + i)) s) s

/-- A projection of partition `n` changed in its ACTIVE slot. -/
def State.modProj (s : State) (n p : Nat) (f : Proj → Proj) : State :=
  s.modPart n (fun q => match q.active with
    | some i => modSlot q i (fun sl => { sl with projs := mmod dProj sl.projs p f })
    | none => q)

/-- Cached copies of a projection's rows leave every core's cache (R135, R194). -/
def State.dropRows (s : State) (tl : Tile) : State :=
  (s.runsOf tl).foldl (fun s u => s.modCore u.core (fun k =>
    { k with cache := k.cache.filter (fun o => !(o.kind == .row && decide (u.firstRow ≤ o.idx) && decide (o.idx < u.firstRow + u.nRow))) })) s

/-- The switch of a projection to its next generation (R194). Assumption 114 [DEDUCED, unsafe]. -/
def State.switchProj (s : State) (n p : Nat) : State :=
  let part := s.part n
  let sl := activeSlot part
  match findTile sl 5 p with
  | none => s
  | some tl =>
    let g := (projGen sl p + 1) % 65536
    let s := s.modProj n p (fun q => { q with gen := g, apply := false, done := false, last := part.seq.pitch + 1, moved := true, told := false })
    ((s.dropRows tl).tileWriteHdr tl 0x06 (natLe 2 g)).dadd (kApplyCount n) 1

/-- An APPLY abandoned (Table 7.4): the closed bank is filled with zeros and the generation stays. -/
def State.abandonApply (s : State) (n p : Nat) : State :=
  let sl := activeSlot (s.part n)
  match findTile sl 5 p with
  | none => s
  | some tl =>
    let pr := mget dProj sl.projs p
    if !pr.apply then s
    else
      let nsyn := s.tileField tl 0x10 4
      let s := s.tileWrite tl (s.updOff tl (1 - pr.bank) 0) (List.replicate (8 * nsyn) 0)
      let s := s.modProj n p (fun q => { q with apply := false, done := false })
      (s.mark n 4 p 0 (s.pitchOf n)).dadd (kApplyAbandoned n) 1

/-- The projections of the ACTIVE slot, ascending. -/
def projList (sl : Slot) : List Nat :=
  (List.range 4096).filter (fun p => sl.tiles.any (fun t => t.kind == 5 && t.owner == p))

/-- PLASTICITY is licensed: an installed licence grants feature bit 0 (R391; LICENCES holds only licences that are valid or
ignored, see Security). -/
def State.plasticLicensed (s : State) : Bool := bit (s.dget kFeaturesLicensed) 0

end Sys2Proof.Machine
end

