-- ==== Sys2Proof/Machine/Streams.lean ====
section
/-!
DEFINITION. Stream tiles and ENCODE (chapter 8): the layout of Tables 8.3 to 8.5, the encoder of one channel (R211, R212),
the encoder's scale guard (R216), the latch of a sample (R208, R209) and the launch of encoded hauls (R213).
-/

namespace Sys2Proof.Machine

/-! ### Stream tiles -/

/-- The CONVERTER tile of converter `w` in a slot. -/
def convTile (sl : Slot) (w : Nat) : Option Tile := findTile sl 4 w
/-- NCH of a stream tile. -/
def State.stNch (s : State) (t : Tile) : Nat := s.tileField t 2 2
/-- A field of the channel record of channel `c` (Table 8.4). -/
def State.chField (s : State) (t : Tile) (c o n : Nat) : Nat := s.tileField t (s.tileField t 0x0C 4 + 32 * c + o) n
/-- A field of the scale entry of set `k`, channel `c` (Table 8.5). -/
def State.setField (s : State) (t : Tile) (k c o : Nat) : F32 :=
  BitVec.ofNat 32 (s.tileField t (s.tileField t 0x10 4 + 16 * (k * s.stNch t + c) + o) 4)
/-- Target entry `i` (Table 8.5). -/
def State.stTarget (s : State) (t : Tile) (i : Nat) : Nat := s.tileField t (s.tileField t 0x14 4 + 8 * i) 8
/-- The cores that a stream targets. -/
def State.stCores (s : State) (t : Tile) : List Nat :=
  (List.range (s.tileField t 8 4)).map (fun i => bits (s.stTarget t i) 34 24)

/-- Does a slot hold the tile of converter `w`? -/
def slotHolds (sl : Slot) (w : Nat) : Bool := sl.tiles.any (fun t => t.kind == 4 && t.owner == w)
/-- The partition that holds converter `w` (R204). -/
def State.holder (s : State) (w : Nat) : Option Nat :=
  (List.range 8).find? (fun n => slotHolds (s.part n).slot0 w || slotHolds (s.part n).slot1 w)
/-- The partition whose ACTIVE slot holds converter `w`, with its tile. -/
def State.convOf (s : State) (w : Nat) : Option (Nat × Tile) :=
  match s.holder w with
  | none => none
  | some n => match convTile (activeSlot (s.part n)) w with
    | none => none
    | some t => some (n, t)
/-- Stream `k` is present: its home slice is (R203). -/
def State.streamPresent (s : State) (k : Nat) : Bool := decide (k < 32) && s.slicePresent (2 * k)
/-- The combining queue of readout group `g` (R218). -/
def combineQueue (g : Nat) : Nat := 16384 * (g % 64) + 16376 + g / 64
/-- The combining word of channel `c` of group `g`. -/
def State.combineWord (s : State) (g c : Nat) : F32 := BitVec.ofNat 32 (leNat (readRange dByte s.mem.sram (combineBase g + 4 * c) 4))
/-- The combining words of group `g` from channel `c` on. -/
def State.setCombine (s : State) (g c : Nat) (l : List F32) : State :=
  s.modMem (fun m => { m with
    sram := writeRange dByte m.sram (combineBase g + 4 * c) (l.flatMap (fun v => natLe 4 v.toNat))
    sramBad := m.sramBad.filter (fun w => !(decide (combineBase g / 4 + c ≤ w) && decide (w < combineBase g / 4 + c + l.length))) })
/-- The round of group `g`'s combining queue starts again: no contribution and no DONE mark (R249). -/
def State.newRound (s : State) (g : Nat) : State :=
  { s with queues := mmod dQueue s.queues (combineQueue g) (fun r => { r with head := 0, tail := 0 }) }
/-- Contributions of the round of group `g`'s combining queue. -/
def State.roundCount (s : State) (g : Nat) : Nat := (mget dQueue s.queues (combineQueue g)).tail
/-- The contributions of group `g`'s round discarded (R229). -/
def State.clearCombine (s : State) (g : Nat) : State := (s.setCombine g 0 (List.replicate 64 0#32)).newRound g
/-- The combining queue of group `g` created (R232). -/
def State.createCombine (s : State) (g : Nat) : State :=
  { s.setCombine g 0 (List.replicate 64 0#32) with queues := mset dQueue s.queues (combineQueue g) (dQueue (combineQueue g)) }
/-- The enabled streams of partition `n` that its ACTIVE slot holds, ascending. -/
def State.partStreams (s : State) (n : Nat) : List Nat :=
  (List.range 32).filter (fun k => (s.stream k).force && s.streamPresent k && slotHolds (activeSlot (s.part n)) k)
/-- The enabled streams of partition `n` that target cluster `cl` (R214). -/
def State.clusterStreams (s : State) (n cl : Nat) : List Nat :=
  (s.partStreams n).filter (fun k => match convTile (activeSlot (s.part n)) k with
    | some t => (s.stCores t).any (fun c => clusterOf c == cl)
    | none => false)

/-! ### One channel -/

/-- A channel value widened to binary32 (R211), by FORMAT of Table 8.1. -/
def chanValue (fmt v : Nat) : F32 :=
  if fmt = 0 then fofInt (toInt 16 v) else if fmt = 1 then fofInt (toInt 32 v)
  else if fmt = 2 then fwiden (BitVec.ofNat 16 v) else BitVec.ofNat 32 v
/-- Bytes of one value in a FORMAT. -/
def fmtBytes (fmt : Nat) : Nat := if fmt = 0 ∨ fmt = 2 then 2 else 4

/-- What a channel emits, and what its counters count. -/
structure Emission where
  chan   : Channel
  n      : Nat := 0
  up     : Bool := true
  excess : Nat := 0
  lag    : Nat := 0
  deriving DecidableEq, Repr

/-- The anchor of R211. -/
def anchor (c : Channel) (u : F32) : Channel :=
  let lim : F32 := fofNat (2 ^ 24)
  let v := if flt lim u then lim else if flt u (fneg lim) then fneg lim else u
  { c with
    acc := 0
    neg := flt u 0#32
    level := numFloor (f32 v)
    ref := u
    anchored := true
    switched := false }

/-- RATE (R211). -/
def encRate (c : Channel) (u : F32) (km : Nat) : Emission :=
  let neg := flt u 0#32
  let acc := if neg != c.neg then 0#32 else c.acc
  let acc := fadd acc (fmul (fabs u) (fofNat km))
  let acc := if fisFin acc then acc else fofNat 16
  let f := ffloor acc
  let rest := fsub acc f
  let above := flt (fofNat 15) f
  let n := if above then 15 else (numFloor (f32 f)).toNat
  { chan := { c with acc := rest, neg := neg }, n := n, up := !neg, excess := if above then 1 else 0 }

/-- A level as the i32 that it is: it wraps at its width. -/
def levelAt (l : Int) : Int := toInt 32 (ofInt 32 l)
/-- The rising crossings of LEVEL: the level and the count after at most `fuel` more. -/
def levelUp (u hyst : F32) : Nat → Int → Nat → Int × Nat
  | 0, l, n => (l, n)
  | fuel + 1, l, n => if fle (fadd (fofInt (levelAt (l + 1))) hyst) u then levelUp u hyst fuel (levelAt (l + 1)) (n + 1) else (l, n)
/-- The falling crossings of LEVEL. -/
def levelDn (u hyst : F32) : Nat → Int → Nat → Int × Nat
  | 0, l, n => (l, n)
  | fuel + 1, l, n => if flt u (fsub (fofInt l) hyst) then levelDn u hyst fuel (levelAt (l - 1)) (n + 1) else (l, n)

/-- LEVEL (R211); a further crossing after a count of 15 is a lag. -/
def encLevel (c : Channel) (u hyst : F32) : Emission :=
  let a := levelUp u hyst 15 c.level 0
  if 0 < a.2 then
    { chan := { c with level := a.1 }
      n := a.2
      up := true
      lag := if a.2 = 15 ∧ fle (fadd (fofInt (levelAt (a.1 + 1))) hyst) u then 1 else 0 }
  else
    let b := levelDn u hyst 15 c.level 0
    { chan := { c with level := b.1 }
      n := b.2
      up := false
      lag := if b.2 = 15 ∧ flt u (fsub (fofInt b.1) hyst) then 1 else 0 }

/-- DELTA (R211). -/
def encDelta (c : Channel) (u : F32) : Emission :=
  let d := fsub u c.ref
  let one := fofNat 1
  if fle one d || fle d (fneg one) then
    let m := ffloor (fabs d)
    let up := flt 0#32 d
    let above := flt (fofNat 15) m
    let n := if above then 15 else (numFloor (f32 m)).toNat
    { chan := { c with ref := if up then fadd c.ref (fofNat n) else fsub c.ref (fofNat n) }
      n := n
      up := up
      lag := if above then 1 else 0 }
  else { chan := c }

/-! ### The encoder -/

/-- An entry of a store of counts raised by one. -/
def bumpAt (m : SMap Nat) (k : Nat) : SMap Nat := mmod dZero m k (· + 1)

/-- The guard counts of one channel (R216): index 0 counts active channel-pitches, 1 + s saturated, 5 + s underflow. -/
def State.encGuard (s : State) (t : Tile) (c nsets cur : Nat) (x : F32) (g : SMap Nat) : SMap Nat :=
  let xc := fsub x (s.setField t cur c 0)
  if feq xc 0#32 then g
  else (List.range nsets).foldl (fun g k =>
    let j := judge false (fabs (fsub x (s.setField t k c 0))) (s.setField t k c 8) (s.setField t k c 12)
    if j = 1 then bumpAt g (1 + k) else if j = 2 then bumpAt g (5 + k) else g) (bumpAt g 0)

/-- The records of one emission: a target core and an encoded record for each entry of the list (R213). -/
def State.encEvents (s : State) (t : Tile) (c n : Nat) (up : Bool) (p : Nat) : List (Nat × BitVec 64) :=
  let first := s.chField t c (if up then 0x0C else 0x10) 4
  let count := s.chField t c (if up then 0x14 else 0x16) 2
  let src := s.chField t c (if up then 0x04 else 0x08) 4
  (List.range count).map (fun i =>
    let e := s.stTarget t (first + i)
    (bits e 34 24, evMk n (p % 1024) false src (bits e 23 0)))

/-- ENCODE of channel `c` of stream `k` on value `x` (R211). -/
def State.encodeChannel (s : State) (k : Nat) (t : Tile) (clamp : Bool) (km p : Nat) (x : F32) (c : Nat) : State :=
  let mode := s.chField t c 0 1
  if mode = 0 then s
  else
    let st := s.stream k
    let cur := st.grp.cur
    let ch := mget dChannel st.chans c
    let x0 := fsub x (s.setField t cur c 0)
    let cl := clampX clamp (s.setField t cur c 8) x0
    let u := fmul cl.1 (s.setField t cur c 4)
    let only := !ch.anchored && mode != 1 && fisFin u
    let s := if only then s
      else s.modStream k (fun q => { q with guard := s.encGuard t c (s.tileField t 4 1) cur x q.guard })
    let s := s.dadd64 (kEncClamps k) cl.2
    if !fisFin u then s.dadd (kEncNonfinite k) 1
    else
      let s := if !ch.anchored && ch.switched then s.dadd (kReanchors k) 1 else s
      let ch1 := if ch.anchored then ch else anchor ch u
      let e : Emission :=
        if only then { chan := ch1 }
        else if mode = 1 then encRate ch1 u km
        else if mode = 2 then encLevel ch1 u (fwiden (BitVec.ofNat 16 (s.chField t c 2 2)))
        else encDelta ch1 u
      let evs := if e.n = 0 then [] else s.encEvents t c e.n e.up p
      let s := s.modStream k (fun q => { q with
        chans := mset dChannel q.chans c e.chan
        unlaunched := q.unlaunched ++ evs
        emitted := q.emitted + evs.length })
      (s.dadd (kRateExcess k) e.excess).dadd (kLevelLag k) e.lag

/-- ENCODE of every channel of a sample. -/
def State.encodeSample (s : State) (k : Nat) (t : Tile) (clamp : Bool) (km p : Nat) (x : Sample) : State :=
  let fmt := s.tileField t 1 1
  let w := fmtBytes fmt
  s.each (List.range (s.stNch t)) (fun s c => s.encodeChannel k t clamp km p (chanValue fmt (fieldAt x.vals (w * c) w)) c)

/-- The stream journal of pitch `p` takes a launched record (R215, R435). -/
def journalAdd {α : Type} (j : List (Nat × List α)) (p : Nat) (es : List α) : List (Nat × List α) :=
  match j.reverse with
  | (q, l) :: r => if q = p then (r.reverse ++ [(q, l ++ es)]) else j ++ [(p, es)]
  | [] => [(p, es)]

/-- Words of a stream journal's ring: 4 MiB less the index (Table 16.7), in entries of two words. -/
def streamRing : Nat := 523776
/-- The pitches of a stream journal that the ring still holds, newest kept. -/
def trimStream : List (Nat × List (Nat × BitVec 64)) → List (Nat × List (Nat × BitVec 64))
  | [] => []
  | e :: r => if 255 < r.length ∨ streamRing < 2 * (((e :: r).map (fun x => x.2.length)).foldl (· + ·) 0) then trimStream r else e :: r
/-- Records of pitch `p` written to the journal of stream `k`, while the local area of its home slice is there (R266, R432). -/
def State.journalStream (s : State) (k p : Nat) (es : List (Nat × BitVec 64)) : State :=
  if s.localArea (4 * k) then s.modStream k (fun q => { q with
    journal := trimStream (journalAdd q.journal p es), jNext := (q.jNext + 2 * es.length) % streamRing })
  else s
/-- The home slice launches the next encoded haul of a stream, if one waits: at most 256 records for one core (R213). One
haul of a stream is in flight at a time (assumption 20 [DESIGN CHOICE, unsafe]). -/
def State.launchEncoded (s : State) (n k : Nat) : State :=
  let st := s.stream k
  match st.unlaunched with
  | [] => s
  | (c, _) :: _ =>
    let mine := (st.unlaunched.filter (fun e => e.1 == c)).take 256
    let rest := st.unlaunched.filter (fun e => e.1 != c) ++ (st.unlaunched.filter (fun e => e.1 == c)).drop 256
    let p := s.pitchOf n
    let h : Haul := { kind := .encoded k, src := 2 * k, dst := c, events := mine.map (·.2), remotes := [], pitch := p, part := n }
    let s := s.modStream k (fun q => { q with unlaunched := rest })
    let s := s.journalStream k p mine
    let s := s.dadd64 (kEventsEncoded k) mine.length
    { s with
      hauls := mset dNone s.hauls s.haulNext (some h)
      haulNext := s.haulNext + 1 }

/-- The sample that a latch at this instant takes: the pending one, or, when that has come only now, the one before it, which its arrival
has not superseded then (R208, Table 8.8). -/
def State.latch (s : State) (k : Nat) : Option Sample × State := match (s.stream k).pending with
  | none => (none, s)
  | some x =>
    if x.came < s.now then (some x, s.modStream k (fun q => { q with pending := none, before := none }))
    else match (s.stream k).before with
      | none => (none, s)
      | some y => (some y, (s.dset (kSamplesSuperseded k) (s.dget (kSamplesSuperseded k) - 1)).modStream k (fun q => { q with before := none }))
/-- The latch of stream `k` at an open instant, and what is then encoded (R208, R209). -/
def State.encodeStream (s : State) (n k p km : Nat) (t : Tile) : State :=
  let st := s.stream k
  let clamp := decide (s.eff (kGuardAction n) ≠ 0)
  let got := s.latch k
  let s := match got.1 with
    | some x => (got.2.dset (kLastSeq k) x.seq).dset (kLastTimestamp k) x.stamp
    | none => got.2
  let age := s.eff (kMaxAge k)
  let fresh := match got.1 with
    | some x => if age != 0 && decide (x.stamp + age * 1000 < s.tsnNow) then none else some x
    | none => none
  let s := s.modStream k (fun q => { q with emitted := 0, encoding := true, absorbed := false, journal := (q.journal ++ [(p, [])]).drop ((q.journal.length + 1) - 256) })
  let s := match fresh with
    | some x =>
      (s.modStream k (fun q => { q with fresh := some x, staleRun := 0, mode := .running })).encodeSample k t clamp km p x
    | none =>
      let run := st.staleRun + 1
      let s := (s.dadd (kStalePitches k) 1).modStream k (fun q => { q with
        staleRun := run
        lostDue := q.lostDue || (decide (s.eff (kStreamTimeout k) ≤ run) && q.mode != StreamMode.lost) })
      match st.fresh with
      | some x => if s.eff (kStaleAction k) = 0 ∧ st.mode ≠ StreamMode.lost then s.encodeSample k t clamp km p x else s
      | none => s
  let s := if 16384 < (s.stream k).emitted then s.dadd (kEncodeLate k) 1 else s
  s.launchEncoded n k

end Sys2Proof.Machine
end

