-- ==== Sys2Proof/Machine/Deliver.lean ====
section
/-!
DEFINITION. Event delivery (chapter 5): bobbin ring, long-delay store, journals, synapse cache and prefetch, open hauls
and their launch, and what happens to a haul at its destination.
-/

namespace Sys2Proof.Machine

/-- The outcomes of a command. -/
abbrev Res := Host.Outcome State Fault Refusal

/-- The partition of a core, as an index; 8 where the cluster is in none. -/
def State.coreN (s : State) (c : Nat) : Nat := (s.partOf (clusterOf c)).getD 8
/-- The partition of a core. -/
def State.coreP (s : State) (c : Nat) : Part := s.part (s.coreN c)
/-- Has the core the pitch in progress, in service, with an image that uses it? -/
def State.liveCore (s : State) (c : Nat) : Bool :=
  (s.core c).isOpen && (s.core c).mode == CoreMode.live && usesCore (activeSlot (s.coreP c)) c

/-! ### Journals (R136, R433 to R435) -/

/-- Words of a journal entry (Table 16.8). -/
def jWords : JEntry → Nat
  | .spike _ _ _ => 1
  | .release _ _ => 2
  | .inject _ _ => 2
/-- Ring words of a list of entries. -/
def jSum (l : List JEntry) : Nat := (l.map jWords).foldl (· + ·) 0
/-- Words of a cluster journal's ring: 25.5 MiB less the index (Table 16.7). -/
def journalRing : Nat := 3341824
/-- The pitches that still fit, newest kept: at most 256, and at most the words of the ring. -/
def trimJournal : List (Nat × List JEntry) → List (Nat × List JEntry)
  | [] => []
  | e :: r => if 255 < r.length ∨ journalRing < (((e :: r).map (fun x => jSum x.2)).foldl (· + ·) 0) then trimJournal r else e :: r
/-- Entries written to the journal segment of the pitch in progress of cluster `cl`; nothing while the local area is away
(R266, R445). -/
def State.journalPut (s : State) (cl : Nat) (es : List JEntry) : State :=
  if s.localArea cl then
    s.modCluster cl (fun q => { q with journal := trimJournal (journalAdd q.journal (s.pitchOf ((s.partOf cl).getD 8)) es), jNext := (q.jNext + jSum es) % journalRing })
  else s

/-! ### Bobbin ring (R122 to R126) -/

/-- The records of ring segments in slot `j`. -/
def ringCount (k : Core) (j : Nat) : Nat := (k.ring.filter (fun e => e.target % 32 == j && !e.ovf)).length
/-- Segments in use: those of the slots and those INTAKE still reads. -/
def segsUsed (k : Core) : Nat :=
  ((List.range 32).map (fun j => (ringCount k j + 31) / 32)).foldl (· + ·) 0 + (k.intake.filter (·.segEnd)).length
/-- Records of the overflow region. -/
def ovfCount (k : Core) : Nat := (k.ring.filter (·.ovf)).length

/-- RING_PEAK of a core and of its partition. -/
def State.ringPeak (s : State) (c : Nat) : State :=
  let u := segsUsed (s.core c)
  let s := s.modCm (fun m => { m with counters := mset dZero m.counters (c * 256 + 0x70) (max u (mget dZero m.counters (c * 256 + 0x70))) })
  match s.partOf (clusterOf c) with
  | some n => s.dmax (kRingPeak n) u
  | none => s

/-- BOBBIN takes one record (R125, R126): into a segment, the overflow region, or dropped. -/
def State.bobbinPut (s : State) (c : Nat) (r : EvRec) : State :=
  let k := s.core c
  if ringCount k (r.target % 32) % 32 ≠ 0 ∨ segsUsed k < 256 then
    (s.modCore c (fun k => { k with ring := k.ring ++ [r] })).ringPeak c
  else if s.slicePresent (clusterOf c / 2) ∧ ovfCount k < 4096 then
    (s.modCore c (fun k => { k with ring := k.ring ++ [{ r with ovf := true }] })).bump c 0x64 1
  else (s.bump c 0x68 1).ledgerDropAt (s.coreN c) r.target c
/-- Was the last record that BOBBIN took of core `c` placed? -/
def State.roomFor (s : State) (c t : Nat) : Bool :=
  let k := s.core c
  decide (ringCount k (t % 32) % 32 ≠ 0) || decide (segsUsed k < 256) ||
    (s.slicePresent (clusterOf c / 2) && decide (ovfCount k < 4096))

/-- The last record of each ring segment of a detached slot is marked, so that the segment returns with it. -/
def markSegs (l : List EvRec) : List EvRec :=
  (List.range l.length).map (fun i =>
    let e := l.getD i ⟨0, 0, false, false, false, none⟩
    { e with segEnd := i % 32 == 31 || i + 1 == l.length })
/-- The records of one slot in INTAKE order: ring segments, then overflow (R124). -/
def slotRecs (l : List EvRec) : List EvRec := markSegs (l.filter (!·.ovf)) ++ l.filter (·.ovf)
/-- The detached slots in ascending order of target pitch (R123), marked where the pitch number was merged. -/
def detach (ring : List EvRec) (p : Nat) : List EvRec :=
  let due := ring.filter (fun e => decide (e.target ≤ p))
  let targets := (sortBy id (due.map (·.target))).eraseDups
  targets.flatMap (fun t => (slotRecs (due.filter (fun e => e.target == t))).map (fun e => { e with merged := decide (t < p) }))

/-! ### Long-delay store (R127 to R130) -/

/-- Segments of the store in use: 32 records each, listed per bucket and core. -/
def ldsSegs (l : List LdsRec) : Nat :=
  ((List.range 512).map (fun i =>
    ((l.filter (fun e => e.core == i / 32 && (e.target / 32) % 32 == i % 32)).length + 31) / 32)).foldl (· + ·) 0
/-- Has the store room for a record of target pitch `t` for core `k` of the cluster? -/
def ldsRoom (l : List LdsRec) (k t : Nat) : Bool :=
  decide ((l.filter (fun e => e.core == k && (e.target / 32) % 32 == (t / 32) % 32)).length % 32 ≠ 0) || decide (ldsSegs l < 2048)

/-- The store accepts a record, or drops it. -/
def State.ldsPut (s : State) (c : Nat) (w : BitVec 64) (t : Nat) (remote : Bool) : State :=
  let cl := clusterOf c
  let n := s.coreN c
  if ldsRoom (s.cluster cl).lds (c % 16) t then
    let s := s.modCluster cl (fun q => { q with lds := q.lds ++ [{ core := c % 16, word := evSetDelay w (t % 1024), target := t, remote := remote }] })
    let u := (s.cluster cl).lds.length
    (s.modCluster cl (fun q => { q with ldsPeak := max q.ldsPeak u })).dmax (kLdsPeak n) u
  else
    ((s.modCluster cl (fun q => { q with dropLds := satAdd 32 q.dropLds 1 })).dadd64 (kDropLdsFull n) 1).ledgerDropAt n t c

/-- Is a record's bucket due at pitch `p` (R128)? -/
def bucketDue (t p : Nat) : Bool := decide (32 * (t / 32) + 31 ≤ p + 32)

/-- One released record (R128, R129, R434): journaled, then placed, or handed to INTAKE when overdue. -/
def State.releaseOne (s : State) (c p : Nat) (r : LdsRec) : State :=
  let s := s.journalPut (clusterOf c) [.release (c % 16) r.word]
  match (s.core c).mode with
  | .lost => s.ledgerDrop (s.coreN c) c 1
  | .failed => s
  | _ =>
    if p < r.target then s.bobbinPut c { word := r.word, target := r.target }
    else
      let s := (s.modCore c (fun k => { k with
        intake := k.intake ++ [{ word := r.word, target := r.target, merged := true }]
        led := { k.led with late := k.led.late + (if r.late then 1 else 0) } })).bump c 0x18 1
      if r.late then s.ledgerFlag (s.coreN c) 5 else s

/-- The releases of pitch `p` for core `c`. Where several buckets are released in one pitch, the records keep the order of their arrival in
the store: assumption 84 [DESIGN CHOICE, unsafe]. -/
def State.releaseCore (s : State) (c p : Nat) : State :=
  let cl := clusterOf c
  let mine := (s.cluster cl).lds.filter (fun e => e.core == c % 16 && bucketDue e.target p)
  let s := s.modCluster cl (fun q => { q with lds := q.lds.filter (fun e => !(e.core == c % 16 && bucketDue e.target p)) })
  mine.foldl (fun s r => s.releaseOne c p r) s

/-- RELEASE_DONE (R129): the store of the core's cluster holds no overdue record of its pitch any more, for whichever core. -/
def State.releaseDone (s : State) (c : Nat) : Bool :=
  let p := (s.core c).pitch
  (s.cluster (clusterOf c)).lds.all (fun e => !(bucketDue e.target p && decide (e.target ≤ p)))

/-! ### Synapse cache (R131 to R135) -/

/-- Units of 32 bytes in the cache of core `c`, less those withdrawn after parity errors (Table 10.5). -/
def State.cacheUnits (s : State) (c : Nat) : Nat := 8192 - mget dZero s.mem.withdrawn c
/-- Units in use. -/
def cacheUsed (l : List CacheObj) : Nat := (l.map (·.units)).foldl (· + ·) 0
/-- The cached object of a kind and number. -/
def cacheFind (l : List CacheObj) (kd : CacheKind) (i : Nat) : Option CacheObj := l.find? (fun o => o.kind == kd && o.idx == i)
/-- The sweep of R132: scores fall and the first CACHED object of score 0 goes, until `need` units are free; nothing when
no CACHED object is left. The sweep starts at the object that entered first, and lowers scores only while no CACHED object has score 0:
assumption 85 [DESIGN CHOICE, unsafe]. -/
def makeRoom (cap need : Nat) : Nat → List CacheObj → Option (List CacheObj)
  | 0, _ => none
  | fuel + 1, l =>
    if cacheUsed l + need ≤ cap then some l
    else if !l.any (fun o => o.cls == CacheClass.cached) then none
    else match l.find? (fun o => o.cls == CacheClass.cached && o.score == 0) with
      | some v => makeRoom cap need fuel (l.filter (fun o => !(o.kind == v.kind && o.idx == v.idx)))
      | none => makeRoom cap need fuel (l.map (fun o => if o.cls == CacheClass.cached then { o with score := o.score - 1 } else o))
/-- Room made in the cache of core `c`. -/
def State.roomIn (s : State) (c : Nat) (l : List CacheObj) (need : Nat) : Option (List CacheObj) :=
  makeRoom (s.cacheUnits c) need (4 * l.length + 5) l

/-- A hit on a cached object: the score of a CACHED one rises to at most 3. A row that FETCH reads for the last record that names it is CACHED by then:
assumption 101 [DEDUCED, unsafe]. -/
def cacheHit (l : List CacheObj) (kd : CacheKind) (i : Nat) : List CacheObj :=
  l.map (fun o => if o.kind == kd && o.idx == i then
    { o with score := if o.cls == CacheClass.cached then min 3 (o.score + 1) else o.score, hit := true } else o)

/-- Is row `r` named by a record of the slots of target pitches to p + 4 (R132)? -/
def rowNamed (k : Core) (r : Nat) : Bool :=
  k.intake.any (fun e => evRow e.word == r) || k.ring.any (fun e => decide (e.target ≤ k.pitch + 4) && evRow e.word == r)
/-- Rows pinned while a lookahead record names them, CACHED after the last one (R132). -/
def repin (k : Core) : Core :=
  { k with cache := k.cache.map (fun o =>
      if o.kind == CacheKind.row && o.cls != CacheClass.resident then
        { o with cls := if rowNamed k o.idx then .pinned else .cached }
      else o) }

/-- A read served by the cache, or sent to LPDDR6 and entered CACHED where room is found (directory and pricking reads). -/
def State.cacheRead (s : State) (c : Nat) (kd : CacheKind) (i units : Nat) : State :=
  let l := (s.core c).cache
  match cacheFind l kd i with
  | some _ => (s.modCore c (fun k => { k with cache := cacheHit k.cache kd i })).bump c 0x20 1
  | none =>
    let s := s.bump c 0x28 1
    match s.roomIn c l units with
    | some l' => s.modCore c (fun k => { k with cache := l' ++ [⟨kd, i, .cached, 0, units, false⟩] })
    | none => s

/-- The rows that the resident list of the core's NEURON tile names (Table 6.6). -/
def State.residentRows (s : State) (sl : Slot) (c : Nat) : List Nat := match neuTile sl c with
  | some t => (List.range (s.tileField t 0x21C00 4)).map (fun i => s.tileField t (0x21C20 + 4 * i) 4 % 2 ^ 24)
  | none => []
/-- Units of resident rows in a cache. -/
def residentUnits (l : List CacheObj) : Nat := cacheUsed (l.filter (fun o => o.cls == CacheClass.resident))
/-- May a row of `units` enter RESIDENT at its first read after a swap or a change of the list's use (R134, R153, R167)? -/
def State.mayReside (s : State) (c row units : Nat) : Bool :=
  (s.core c).awaited.contains row &&
    decide (32 * (residentUnits (s.core c).cache + units) ≤ 1024 * s.eff (kCacheResidentLimit (s.coreN c)))

/-- A row entered in the cache after a read (R131, R132, R167). -/
def State.enterRow (s : State) (c row units : Nat) (l : List CacheObj) : State :=
  let cls := if s.mayReside c row units then CacheClass.resident else .pinned
  s.modCore c (fun k => repin { k with cache := l ++ [⟨.row, row, cls, 0, units, false⟩], awaited := k.awaited.filter (· != row) })

/-- LEN32 of a row by its directory. -/
def State.rowUnits (s : State) (sl : Slot) (c r : Nat) : Nat := match synTile sl c with
  | some t => if r < t.count then rdLen (s.rowDir t r) else 0
  | none => 0

/-- The rows of a core's resident list that CACHE_RESIDENT_LIMIT admits, in list order (R153). -/
def State.admitted (s : State) (n c : Nat) : List Nat :=
  let sl := activeSlot (s.part n)
  ((s.residentRows sl c).foldl (fun (a : List Nat × Nat × Bool) r =>
    let u := a.2.1 + s.rowUnits sl c r
    if a.2.2 || decide (1024 * s.eff (kCacheResidentLimit n) < 32 * u) then (a.1, a.2.1, true) else (a.1 ++ [r], u, false)) ([], 0, false)).1
/-- The RESIDENT class of core `c` holds exactly the image's resident list again, within the limit (R134): other rows leave it, and
listed rows enter it, those that the cache does not hold being read where room is found, the others when FETCH next reads them. -/
def State.relist (s : State) (n c : Nat) : State :=
  let want := s.admitted n c
  let s := s.modCore c (fun k => repin { k with awaited := [], cache := k.cache.map (fun o =>
    if o.kind == CacheKind.row then
      (if want.contains o.idx then { o with cls := .resident } else if o.cls == CacheClass.resident then { o with cls := .cached } else o)
    else o) })
  want.foldl (fun s r =>
    if (cacheFind (s.core c).cache .row r).isSome then s
    else
      let u := s.rowUnits (activeSlot (s.part n)) c r
      match s.roomIn c (s.core c).cache u with
      | some l => s.modCore c (fun k => { k with cache := l ++ [⟨.row, r, .resident, 0, u, false⟩] })
      | none => s.modCore c (fun k => { k with awaited := k.awaited ++ [r] })) s
/-- The resident rows of a core that a lowered limit still admits, the first ones of its cache; the others become CACHED (R132). Which
of them leave the spec does not say: assumption 83 [DESIGN CHOICE, unsafe]. -/
def trimResident (limit : Nat) (l : List CacheObj) : List CacheObj :=
  (l.foldl (fun (a : List CacheObj × Nat) o =>
    if o.cls != CacheClass.resident then (a.1 ++ [o], a.2)
    else if 32 * (a.2 + o.units) ≤ limit then (a.1 ++ [o], a.2 + o.units)
    else (a.1 ++ [{ o with cls := CacheClass.cached }], a.2)) ([], 0)).1
/-- The caches of partition `n` follow a change of CACHE_ADAPT or CACHE_RESIDENT_LIMIT in force; `adapt` and `limit` are the values before. -/
def State.settleCaches (s : State) (n adapt limit : Nat) : State :=
  let a := s.eff (kCacheAdapt n)
  let l := s.eff (kCacheResidentLimit n)
  if a = 0 ∧ (adapt ≠ 0 ∨ l ≠ limit) then s.each (s.imageCores n) (fun s c => s.relist n c)
  else if l < limit then s.each (s.imageCores n) (fun s c => s.modCore c (fun k => repin { k with cache := trimResident (1024 * l) k.cache }))
  else s

/-- FETCH gets the row of an accumulated event (R131 to R133): from the cache, or by a demand fetch through the cache or the
bypass buffer; nothing where a word of the row, or of its directory entry, cannot be read (R269, R445). -/
def State.demandFetch (s : State) (sl : Slot) (c row : Nat) : Option (Nat × Bytes) × State :=
  match cacheFind (s.core c).cache .row row with
  | some _ =>
    (s.rowAt sl c row, (s.modCore c (fun k => { k with cache := cacheHit k.cache .row row })).bump c 0x20 1)
  | none =>
    if rowCount sl c ≤ row then (none, s)
    else if s.dirBad sl c row && (cacheFind (s.core c).cache .dir row).isNone then (none, s.bump c 0x28 1)
    else
      let s := (s.cacheRead c .dir row 1).bump c 0x28 1
      let units := s.rowUnits sl c row
      let got := if s.rowBad sl c row then none else s.rowAt sl c row
      match s.roomIn c (s.core c).cache units with
      | some l => (got, if got.isSome then s.enterRow c row units l else s)
      | none => (got, s.bump c 0x78 1)

/-- Rows named by the lookahead slots, in prefetch order: ascending target pitch, arrival order (R131). -/
def lookahead (k : Core) (depth : Nat) : List Nat :=
  (List.range depth).flatMap (fun i => (k.ring.filter (fun e => e.target == k.pitch + 1 + i)).map (fun e => evRow e.word))

/-- FETCH issues the prefetch of a row (R131, R133): its directory entry first. -/
def State.issuePrefetch (s : State) (sl : Slot) (c row : Nat) : State :=
  match s.roomIn c (s.core c).cache (s.rowUnits sl c row + 1) with
  | none =>
    (s.modCore c (fun k => { k with deferred := if k.deferred.contains row then k.deferred else k.deferred ++ [row] })).bump c 0x74 1
  | some l =>
    let s := s.modCore c (fun k => { k with cache := l, deferred := k.deferred.filter (· != row) })
    match cacheFind (s.core c).cache .dir row with
    | some _ =>
      ((s.modCore c (fun k => { k with cache := cacheHit k.cache .dir row, reads := k.reads ++ [⟨row, true⟩] })).bump c 0x20 1).bump c 0x28 1
    | none => (s.modCore c (fun k => { k with reads := k.reads ++ [⟨row, false⟩] })).bump c 0x28 1

/-- READ_DATA (R131): a directory or row read of a prefetch completes. The data of a truncated or absorbing core is
discarded (R57), and an errored row is not entered. -/
def execReadData (c row : Nat) (ok : Bool) (s : State) : Res :=
  .next (match (s.core c).reads.find? (fun q => q.row == row) with
    | none => s
    | some q =>
      let sl := activeSlot (s.coreP c)
      let k := s.core c
      if k.truncated || k.absorbed || (!q.dirDone && (!ok || s.dirBad sl c row)) then
        s.modCore c (fun k => { k with reads := k.reads.filter (fun q => q.row != row) })
      else if !q.dirDone then
        let s : State := match s.roomIn c k.cache 1 with
          | some l => s.modCore c (fun k => { k with cache := l ++ [⟨.dir, row, .cached, 0, 1, false⟩] })
          | none => s
        (s.modCore c (fun k => { k with reads := k.reads.map (fun q => if q.row == row then { q with dirDone := true } else q) })).bump c 0x28 1
      else
        let s := s.modCore c (fun k => { k with reads := k.reads.filter (fun q => q.row != row) })
        let units := s.rowUnits sl c row
        match ok && !s.rowBad sl c row, cacheFind k.cache .row row, s.roomIn c k.cache units with
        | true, none, some l => s.enterRow c row units l
        | _, _, _ => s)

/-! ### Open hauls (R120) -/

/-- A haul put in flight. -/
def State.pushHaul (s : State) (h : Haul) : State :=
  { s with
    hauls := mset dNone s.hauls s.haulNext (some h)
    haulNext := s.haulNext + 1 }
/-- EMIT launches an open haul. -/
def State.launchHaul (s : State) (c : Nat) (o : OpenHaul) : State :=
  let kind := if o.dst < 2048 then HaulKind.event else .remote
  let s := s.modCore c (fun k => { k with openHauls := k.openHauls.filter (fun q => q.dst != o.dst) })
  (s.pushHaul ⟨kind, c, o.dst, o.events, o.remotes, (s.core c).pitch, s.coreN c⟩).bump c 0x10 (o.events.length + o.remotes.length)
/-- EMIT launches every open haul. -/
def State.launchAll (s : State) (c : Nat) : State := (s.core c).openHauls.foldl (fun s o => s.launchHaul c o) s

/-- A record put into the open haul of its address; the haul opened earliest makes way for a seventeenth, and a full haul is
launched. -/
def State.emitTo (s : State) (c dst : Nat) (ev : List (BitVec 64)) (rem : List RemoteRec) : State :=
  let k := s.core c
  let s := if k.openHauls.any (fun o => o.dst == dst) || decide (k.openHauls.length < 16) then s
    else match k.openHauls with
      | o :: _ => s.launchHaul c o
      | [] => s
  let s := s.modCore c (fun k =>
    if k.openHauls.any (fun o => o.dst == dst) then
      { k with openHauls := k.openHauls.map (fun o => if o.dst == dst then { o with events := o.events ++ ev, remotes := o.remotes ++ rem } else o) }
    else { k with openHauls := k.openHauls ++ [{ dst := dst, events := ev, remotes := rem, opened := s.now }] })
  match (s.core c).openHauls.find? (fun o => o.dst == dst) with
  | some o => if o.events.length = 256 ∨ o.remotes.length = 128 then s.launchHaul c o else s
  | none => s

/-- The VALID peer entry fields of partition `n` (Table 5.12). -/
def State.peer (s : State) (n k : Nat) : Nat := s.dget (kPeer0 n k)
/-- VALID. -/
def peerValid (v : Nat) : Bool := bit v 7
/-- PORT. -/
def peerPort (v : Nat) : Nat := v % 2
/-- REMOTE_PARTITION. -/
def peerPart (v : Nat) : Nat := bits v 15 8
/-- PEER_ID. -/
def peerId (v : Nat) : Nat := bits v 31 16
/-- QPN. -/
def peerQpn (v : Nat) : Nat := bits v 63 32
/-- Edge router of a peer's port: EDGE1 for A, EDGE2 for B (R138). -/
def peerEdge (v : Nat) : Nat := 1 + peerPort v

/-- EMIT forms the event of one destination entry (R117, R138). Assumption 62 [DEDUCED, unsafe]. -/
def State.sendEvent (s : State) (c gid n e : Nat) : State :=
  if !deRemote e then s.emitTo c (deCore e) [evMk n (deDelay e) false gid (deRow e)] []
  else if bit (s.coreP c).stations 2 then
    s.emitTo c (2048 + peerEdge (s.peer (s.coreN c) (dePeer e))) [] [⟨evMk n (deDelay e) false gid (deRow e), dePeer e, deCore e⟩]
  else s

/-- The destination entries of a position that LPDDR6 gives: those whose words can be read, and none when that of the directory entry cannot. What EMIT
does without them no rule says: assumption 115 [DESIGN CHOICE, unsafe]. -/
def State.destRead (s : State) (sl : Slot) (c q : Nat) : List Nat := match dstTile sl c with
  | none => []
  | some t =>
    let d := s.tileField t (4 * q) 4
    if s.wordBad (tileAddr t (64 + 4 * q)) then []
    else ((List.range (pdCount d)).filter (fun i => !s.wordBad (tileAddr t (64 + 65536 + 8 * (pdOff d + i))))).map (fun i =>
      s.tileField t (65536 + 8 * (pdOff d + i)) 8)
/-- The destination entries of a position (R114, R115). -/
def State.destEntries (s : State) (sl : Slot) (c q : Nat) : List Nat := match dstTile sl c with
  | none => []
  | some t =>
    let d := s.tileField t (4 * q) 4
    (List.range (pdCount d)).map (fun i => s.tileField t (65536 + 8 * (pdOff d + i)) 8)

/-- What TRACE would update for a spike of position `q`: a pair sum for each column entry and the post trace, per run. -/
def State.postUpdates (s : State) (sl : Slot) (c q : Nat) : Nat :=
  ((s.postRuns sl c q).map (fun p =>
    bits (s.tileField p.1 (s.areaOff p.1 0x2C + 8 * (p.2.postBase + (q - p.2.postFirst))) 8) 31 16 + 1)).foldl (· + ·) 0

/-- Is TRACE of the core's partition in force? -/
def State.traceOn (s : State) (c : Nat) : Bool := bit (s.coreP c).stations 0

/-- TRACE takes a post spike (R189); after the absorb instant its updates are discarded and counted (R171). -/
def State.traceSpike (s : State) (sl : Slot) (c : Nat) (sp : Spike) : State :=
  if !s.traceOn c then s
  else if (s.core c).absorbed || sp.late then s.absorbCount c 0x88 (s.postUpdates sl c sp.q)
  else (s.postRuns sl c sp.q).foldl (fun s p =>
    s.tracePost (s.coreN c) p.1 p.2 (mget dProj sl.projs p.2.proj).bank sp.q sp.n (s.core c).pitch) s

/-- The events of a spike that was produced before the truncate or absorb instant and still waits at EMIT when TRUNCATE or ABSORB comes:
they are discarded and counted one by one, as those of hauls not yet launched are (R57 step 5, R171 step 4); the word itself stays
unmarked in the journal. Assumption 78 [DESIGN CHOICE, unsafe]. -/
def State.discardEvents (s : State) (c a : Nat) : State :=
  if (s.core c).truncated then s.modCore c (fun k => { k with led := { k.led with withheld := k.led.withheld + a } })
  else s.absorbCount c 0x84 a
/-- EMIT acts on one spike word once JOURNAL has taken its record (R84, R83): TRACE, then the events of its destinations. The directory
entry and the destination list are one read and one cached object: assumption 79 [DEDUCED, unsafe]. -/
def State.emitSpike (s : State) (sl : Slot) (c : Nat) (sp : Spike) : State :=
  let s := s.traceSpike sl c sp
  if sp.withheld then
    (s.bump c 0x38 1).modCore c (fun k => { k with led := { k.led with withheld := k.led.withheld + 1 } })
  else
    let held := (cacheFind (s.core c).cache .prick sp.q).isSome
    let es := if held then s.destEntries sl c sp.q else s.destRead sl c sp.q
    if (s.core c).truncated || (s.core c).absorbed then s.discardEvents c es.length
    else
    let s := if held || es == s.destEntries sl c sp.q then s.cacheRead c .prick sp.q ((4 + 8 * es.length + 31) / 32) else s.bump c 0x28 1
    es.foldl (fun s e => s.sendEvent c (c * 16384 + sp.q) sp.n e) s

/-- EMIT takes its waiting spike words until JOURNAL is full (R84, R137); with the last one of a finished sweep, every open
haul is launched. -/
def State.emitWaiting (s : State) (sl : Slot) (c : Nat) : Nat → State
  | 0 => s
  | fuel + 1 =>
    match (s.core c).emitQ with
    | [] =>
      let s := s.modCore c (fun k => { k with stalled := false })
      if (s.core c).sweepDone then s.launchAll c else s
    | sp :: r =>
      let cl := clusterOf c
      if 512 ≤ (s.cluster cl).journalBuf.length then s.modCore c (fun k => { k with stalled := true })
      else
        let s := s.modCluster cl (fun q => { q with journalBuf := q.journalBuf ++ [.spike sp.n sp.withheld (c * 16384 + sp.q)] })
        let s := s.modCore c (fun k => { k with emitQ := r })
        (s.emitSpike sl c sp).emitWaiting sl c fuel

/-- HAUL_OPEN_TIMEOUT (R120). -/
def execHaulOpenTimeout (c dst t : Nat) (s : State) : Res :=
  let s := s.at t
  .next (match (s.core c).openHauls.find? (fun o => o.dst == dst) with
    | some o => if o.opened + 256 ≤ s.now then s.launchHaul c o else s
    | none => s)

/-! ### Belays of a cluster (R40, R41) -/

/-- The present cores of a cluster. -/
def State.clCores (s : State) (cl : Nat) : List Nat := ((List.range 16).map (fun k => cl * 16 + k)).filter s.corePresent
/-- Have the JOURNAL hauls of the cluster been acknowledged, as far as their copies show (R41, R299)? -/
def State.journalsDone (s : State) (cl : Nat) : Bool :=
  s.fab.unacked.all (fun u => !(u.pkt.kind == 0x23 && portType u.pkt.src == 1 && portBits u.pkt.src % 128 == cl))
/-- Has the leaf everything its cluster belay waits for? -/
def State.clusterReady (s : State) (cl : Nat) : Bool :=
  ((s.part ((s.partOf cl).getD 8)).seq.isOpen) && !(s.cluster cl).belaySent && (s.cluster cl).journalBuf.isEmpty && s.journalsDone cl &&
    (s.clCores cl).all (fun c => (s.core c).isOpen && (s.core c).belayRcvd)
/-- The leaf sends the cluster belay once it may; the belay path that VC0_PEAK measures began at `since` (R315). -/
def State.tryClusterBelay (s : State) (cl since : Nat) : State :=
  if s.clusterReady cl then s.modCluster cl (fun q => { q with belaySent := true, pathFrom := since }) else s

/-- JOURNAL_RECORD (R136): JOURNAL writes its oldest record into the journal segment of the pitch. -/
def execJournalRecord (cl : Nat) (s : State) : Res :=
  .next (match (s.cluster cl).journalBuf with
    | [] => s
    | e :: r => ((s.modCluster cl (fun q => { q with journalBuf := r })).journalPut cl [e]).tryClusterBelay cl s.now)

/-- JOURNAL_STALL_END (R137). -/
def execJournalStallEnd (c t : Nat) (s : State) : Res :=
  let s := s.at t
  .next (if (s.core c).stalled && decide ((s.cluster (clusterOf c)).journalBuf.length < 512) then
    s.emitWaiting (activeSlot (s.coreP c)) c ((s.core c).emitQ.length + 1) else s)

/-- Does a haul in flight hold up the belay of core `c`: one of its own, or an encoded one on its way to it (R42)? -/
def haulHolds (c : Nat) (h : Haul) : Bool := match h.kind with
  | .event => h.src == c
  | .remote => h.src == c
  | .injected => false
  | .encoded _ => h.dst == c
/-- No haul of core `c` is in flight unacknowledged, and no encoded haul to it. -/
def State.noHauls (s : State) (c : Nat) : Bool :=
  s.hauls.all (fun e => match e.2 with
    | some h => !haulHolds c h
    | none => true)

/-- Has every event haul and TRACE write-back that the core sent been acknowledged, and every encoded haul to it, as far as their copies show (R40, R42,
R299)? -/
def State.noCopies (s : State) (c : Nat) : Bool :=
  s.fab.unacked.all (fun u => !(u.pkt.src == c && (u.pkt.kind == 0x20 || u.pkt.kind == 0x21 || u.pkt.kind == 0x25)) &&
    !(u.pkt.dst == c && u.pkt.kind == 0x22))
/-- The drain condition (R40) of a core that runs its pitch. -/
def State.drained (s : State) (c : Nat) : Bool :=
  let k := s.core c
  k.sweepDone && k.intake.isEmpty && s.releaseDone c && k.emitQ.isEmpty && k.openHauls.isEmpty && k.reads.isEmpty && !k.encWait && s.noHauls c && s.noCopies c

/-- DRAIN (R40): the core sends its belay picot. -/
def execDrain (c : Nat) (s : State) : Res :=
  .next (if s.liveCore c && !(s.core c).belaySent && s.drained c then s.modCore c (fun k => { k with belaySent := true, belayAt := s.now }) else s)

/-- BELAY (R41): the leaf receives the core's belay picot. The one that the leaf sends for a failed or lost core (R436, R437) counts once
the hauls and packets that the core had sent are acknowledged (R42). -/
def execBelay (c : Nat) (s : State) : Res :=
  .next (if (s.core c).isOpen && (s.core c).belaySent && s.noHauls c && s.noCopies c then
    (s.modCore c (fun k => { k with belayRcvd := true })).tryClusterBelay (clusterOf c) (s.core c).belayAt else s)

/-! ### Arrival (R119, R121, R130) -/

/-- One record of an event haul at its destination core, in the pitch `p` of its emission. -/
def State.arriveEvent (s : State) (c p : Nat) (remote : Bool) (w : BitVec 64) : State :=
  if w = 0 then s
  else if evCount w = 0 ∨ evDelay w = 0 then s.bump c 0x6C 1
  else match (s.core c).mode with
    | .lost => s.ledgerDrop (s.coreN c) c 1
    | .failed => s
    | _ =>
      let t := p + evDelay w
      if evDelay w ≤ 32 then
        let st := evSetDelay w (t % 1024)
        let fits := s.roomFor c t
        let s := s.bobbinPut c { word := st, target := t }
        if remote && fits then s.journalPut (clusterOf c) [.inject (c % 16) st] else s
      else s.ldsPut c w t remote

/-- One encoded record at its core (R213): it goes to INTAKE, which holds it until the core has opened its pitch; once that pitch has been
truncated or absorbed at the core it is discarded and counted (Table 8.8), as it is for a stream disabled in the immediate form (R228). -/
def State.arriveEncoded (s : State) (c p k : Nat) (w : BitVec 64) : State :=
  if w = 0 then s
  else if evCount w = 0 then s.bump c 0x6C 1
  else
    let q := s.core c
    let cut := q.isOpen && q.pitch == p && q.truncated && q.mode == CoreMode.live
    if cut then s.modCore c (fun k => { k with led := { k.led with truncIn := k.led.truncIn + 1 } })
    else if (s.stream k).absorbed then s.absorbCount c 0x7C 1
    else match q.mode with
      | .lost => s.ledgerDrop (s.coreN c) c 1
      | .failed => s
      | .excused => s
      | .live =>
        if q.isOpen && q.pitch == p && q.absorbed then s.absorbCount c 0x7C 1
        else (s.modCore c (fun q => { q with intake := q.intake ++ [{ word := w, target := p, stream := some k }] })).bump c 0x18 1

/-- Is the word of a record in flight neither padding nor a record fault (R119)? -/
def inFlightOk (w : BitVec 64) : Bool := w != 0 && evCount w != 0 && evDelay w != 0
/-- Is it a record fault? -/
def inFlightBad (w : BitVec 64) : Bool := w != 0 && (evCount w == 0 || evDelay w == 0)
/-- Records that wait at edge router `e` to leave. -/
def State.outbound (s : State) (e : Nat) : Nat := ((List.range 8).map (fun n => (s.remBuf e n).out.length)).foldl (· + ·) 0
/-- Has the record buffer of edge router `e` room for `k` records (R310)? An empty one takes a haul; how many records it holds the spec does not give
(assumption 95 [DESIGN CHOICE, safe]). -/
def State.outRoom (s : State) (e k : Nat) : Bool := s.outbound e == 0 || decide (s.outbound e + k ≤ Config.remoteRoom)
/-- The port address that sends a haul (Table 11.3). -/
def haulSrc (h : Haul) : Nat := match h.kind with
  | .event => h.src
  | .remote => h.src
  | .injected => 0x6000 + (h.src - 2048)
  | .encoded _ => 0x4000 + h.src
/-- The port address that a haul goes to. -/
def haulDst (h : Haul) : Nat := if h.kind = .remote then 0x6000 + (h.dst - 2048) else h.dst
/-- KIND of the packet that carries a haul (Table 11.4). -/
def haulCode (h : Haul) : Nat := match h.kind with
  | .event => 0x20
  | .remote => 0x21
  | .injected => 0x20
  | .encoded _ => 0x22
/-- The payload of a haul (R120, Table 5.7): four event records or two remote records in each flit, with padding in the last one. -/
def haulBytes (h : Haul) : Bytes :=
  let l := h.events.flatMap (fun w => natLe 8 w.toNat) ++
    h.remotes.flatMap (fun r => natLe 8 r.event.toNat ++ natLe 4 (r.peer * 2 ^ 26 + r.dcore * 2 ^ 15) ++ natLe 4 0)
  l ++ List.replicate ((32 - l.length % 32) % 32) 0
/-- Does the packet carry the haul? -/
def carries (p : Packet) (h : Haul) : Bool :=
  p.kind == haulCode h && p.src == haulSrc h && p.dst == haulDst h && p.payload == haulBytes h
/-- The haul in flight that a packet carries, with its number. -/
def State.haulOf (s : State) (p : Packet) : Option (Nat × Haul) := s.hauls.findSome? (fun e => match e.2 with
  | some h => if carries p h then some (e.1, h) else none
  | none => none)
/-- A haul reaches its destination: an event haul's records are sorted and placed (R121), a remote haul's records are buffered at their edge router
(R138). A failed or lost core's leaf sinks the haul (R436). -/
def State.arriveHaul (s : State) (id : Nat) (h : Haul) : State :=
  let done := { s with hauls := mset dNone s.hauls id none }
  let dead := (s.core h.dst).mode == CoreMode.failed || (s.core h.dst).mode == CoreMode.lost
  let sunk := if dead then done.dadd64 kSunkAtFailed 1 else done
  match h.kind with
  | .remote =>
    let s := done.dadd (kRecordFaults h.part) (h.remotes.filter (fun r => inFlightBad r.event)).length
    s.modRem (h.dst - 2048) h.part (fun b => { b with
      out := b.out ++ (h.remotes.filter (fun r => inFlightOk r.event)).map (fun r => (r.peer, h.pitch, r)) })
  | .event => h.events.foldl (fun s w => s.arriveEvent h.dst h.pitch false w) sunk
  | .injected => h.events.foldl (fun s w => s.arriveEvent h.dst h.pitch true w) sunk
  | .encoded k => (h.events.foldl (fun s w => s.arriveEncoded h.dst h.pitch k w) sunk).launchEncoded h.part k
/-- The endpoint acknowledges the packet that carried a haul whose records it has taken, where it holds that packet (R297). -/
def State.ackHaul (s : State) (h : Haul) : State := match s.fab.unacked.find? (fun u => carries u.pkt h) with
  | some u => s.completePacket u.pkt
  | none => s
/-- EVENT_HAUL_ARRIVAL (R121): the destination leaf takes an event haul, sorts its records and acknowledges it. -/
def execEventHaulArrival (id t : Nat) (s : State) : Res :=
  let s := s.at t
  .next (match mget dNone s.hauls id with
    | none => s
    | some h => if h.kind = .remote then s else (s.arriveHaul id h).ackHaul h)

end Sys2Proof.Machine
end

