-- ==== Sys2Proof/Machine/CoreWork.lean ====
section
/-!
DEFINITION. The work of a core in a pitch (chapters 2 to 5, 16): OPEN, accumulation, the sweep with its cairn, truncation
and absorption, CLOSE, and the loads of a core's memory from its image and from a cairn.
-/

namespace Sys2Proof.Machine

/-- What an unlisted accumulator reads as (R99). -/
def dInt (_ : Nat) : Int := 0
/-- What an unlisted outlier map entry is: not valid. -/
def dOmap (_ : Nat) : BitVec 16 := 0

/-! ### Core memory -/

/-- The accumulators and outlier sums of a core cleared (R99). -/
def State.clearAcc (s : State) (c : Nat) : State :=
  s.modCm (fun m => { m with acc := mclear m.acc (c * 16384) 16384, osum := mclear m.osum (c * 2048) 2048 })
/-- The guard counts of a core cleared. -/
def State.clearGuard (s : State) (c : Nat) : State :=
  s.modCm (fun m => { m with guard := mclear m.guard (c * 512) 512 })
/-- The neuron state word of a global neuron identifier. -/
def State.neuron (s : State) (g : Nat) : BitVec 64 := mget dNeuron s.cm.neurons g
/-- A neuron state word written. -/
def State.setNeuron (s : State) (g : Nat) (w : BitVec 64) : State :=
  s.modCm (fun m => { m with neurons := mset dNeuron m.neurons g w })
/-- The outlier map of a core. -/
def State.omapAt (s : State) (c i : Nat) : BitVec 16 := mget dOmap s.cm.omap (c * 2048 + i)

/-- Population records, rescale records and outlier map of a core taken from a NEURON tile (Table 6.6). -/
def State.loadRecords (s : State) (t : Tile) (c : Nat) : State :=
  let s := s.each (List.range 32) (fun s i => s.modCm (fun m => { m with
    pop := mset dZero m.pop (c * 32 + i) (s.tileField t (0x20000 + 32 * i) 32)
    resc := mset dZero m.resc (c * 32 + i) (s.tileField t (0x20400 + 64 * i) 64) }))
  s.each (List.range 2048) (fun s i => s.modCm (fun m => { m with
    omap := mset dOmap m.omap (c * 2048 + i) (BitVec.ofNat 16 (s.tileField t (0x20C00 + 2 * i) 2)) }))
/-- State words of a core taken from a NEURON tile. -/
def State.loadWords (s : State) (t : Tile) (c : Nat) : State :=
  s.each (List.range 16384) (fun s q => s.setNeuron (c * 16384 + q) (BitVec.ofNat 64 (s.tileField t (8 * q) 8)))
/-- The resident rows of a core entered into its cache, in list order, until the next would pass the limit (R153). -/
def State.enterResident (s : State) (sl : Slot) (c : Nat) : State × Bool :=
  (s.residentRows sl c).foldl (fun (p : State × Bool) r =>
    let u := p.1.rowUnits sl c r
    if p.2 then p
    else if 32 * (residentUnits (p.1.core c).cache + u) ≤ 1024 * p.1.eff (kCacheResidentLimit (p.1.coreN c)) then
      (p.1.modCore c (fun k => { k with cache := k.cache ++ [⟨.row, r, .resident, 0, u, false⟩] }), false)
    else (p.1, true)) (s, false)
/-- A core's memory loaded from the NEURON tile of a slot, with its resident list (R153, R168). -/
def State.loadCore (s : State) (sl : Slot) (c : Nat) : State := match neuTile sl c with
  | none => s
  | some t =>
    let s := ((s.loadRecords t c).loadWords t c).modCore c (fun k => { k with cache := [], awaited := [] })
    (s.enterResident sl c).1
/-- A spare's memory loaded for core `c` (R438, R442): the state words of its cairn when one exists, else of the NEURON
tile; records and outlier map from the NEURON tile of the ACTIVE slot. -/
def State.loadSpare (s : State) (c : Nat) : State :=
  let sl := activeSlot (s.coreP c)
  let ca := (s.core c).cairn
  let s := s.modCore c (fun k => { k with cache := [], awaited := [] })
  let s := match neuTile sl c with
    | none => s
    | some t => if ca.latest.isSome then s.loadRecords t c else (s.loadRecords t c).loadWords t c
  let s := if ca.latest.isSome then
      let base := (c * 2 + ca.slot) * 16384
      s.modCm (fun m =>
        { m with neurons := (List.range 16384).foldl (fun r q => mset dNeuron r (c * 16384 + q) (mget dNeuron m.cairns (base + q))) m.neurons })
    else s
  (s.enterResident sl c).1

/-- The slot map names spare `sp` for core `c` (R13, R438): the slot is in use, its SEQ counts start again. -/
def State.spareTakes (s : State) (c sp : Nat) : State :=
  let s := s.modFloor (fun f => { f with
    coreSlots := mset dCoreSlot f.coreSlots (clusterOf c * 32 + sp) 0
    slotMap := mset dSlotMap f.slotMap c sp })
  ((s.freshSlot c).seqRestart c).dadd kLifeTakeovers 1

/-! ### OPEN (R122, R39) -/

/-- The part of OPEN that every core shares: the pitch in progress and cleared accumulators. -/
def State.openBase (s : State) (c p : Nat) : State :=
  let n := s.coreN c
  let cl := clusterOf c
  let wait := !(s.clusterStreams n cl).isEmpty && !(s.cluster cl).encFwd
  (s.clearAcc c).modCore c (fun k => { k with
    isOpen := true
    pitch := p
    openedAt := s.now
    settleAt := s.now
    sweepDone := false
    belaySent := false
    belayRcvd := false
    truncated := false
    absorbed := false
    encWait := wait })

/-- The late deliveries among the records of a pitch noted in the ledger (R141). -/
def State.noteLate (s : State) (c : Nat) (l : List EvRec) : State :=
  let a := (l.filter (fun e => evLate e.word)).length
  if a = 0 then s
  else (s.modCore c (fun k => { k with led := { k.led with late := k.led.late + a } })).ledgerFlag (s.coreN c) 5
/-- A live core's OPEN: the slots due go to INTAKE ahead of encoded events that came early, and the store releases. -/
def State.openLive (s : State) (c p : Nat) : State :=
  let k := s.core c
  let got := detach k.ring p
  let early := k.intake
  let s := ((s.modCore c (fun k => { k with
    intake := got
    ring := k.ring.filter (fun e => decide (p < e.target)) })).noteLate c got).bump c 0x18 got.length
  (s.releaseCore c p).modCore c (fun k => { k with intake := k.intake ++ early })

/-- A core that runs no station this pitch: its belay picot goes at once. -/
def State.openIdle (s : State) (c : Nat) : State :=
  s.modCore c (fun k => { k with sweepDone := true, belaySent := true, belayAt := s.now, encWait := false })

/-- LAST_TAKEOVER (Table 16.18). -/
def lastTakeover (c slot mode d j : Nat) : Nat := c + slot * 2 ^ 16 + mode * 2 ^ 24 + d * 2 ^ 64 + j * 2 ^ 128

/-- The end of a catch-up at pitch `j` (R440, R441): the core is live again. -/
def State.rejoin (s : State) (c : Nat) (u : CatchUp) (j : Nat) (cold : Bool) : State :=
  let n := s.coreN c
  let s := s.modCore c (fun k => { k with
    mode := .live
    catchUp := none
    led := { k.led with replayed := u.total, cairn := if k.cairn.latest.isSome then u.k else 0, cold := cold } })
  let s := s.modRel (fun r => { r with replays := r.replays.filter (· != c) })
  let s := s.dmax kMissedPitchesPeak (j - u.d - 1)
  let s := s.dset kLastTakeover (lastTakeover c u.slot (if cold then 4 else 2) u.d j)
  if cold then s else s.mark n 7 c u.slot j

/-- A cold takeover in place of a catch-up that would exceed 31 pitches (R441, R442). -/
def State.coldAtOpen (s : State) (c p : Nat) (u : CatchUp) : State :=
  let n := s.coreN c
  let lost := (s.core c).ring.filter (fun e => decide (e.target < p))
  let s := (s.ledgerDrop n c lost.length).modCore c (fun k => { k with ring := k.ring.filter (fun e => decide (p ≤ e.target)) })
  let s := ((s.loadSpare c).dadd kColdTakeovers 1).rejoin c u p true
  s.reportUnit 0x0802 2 1 (s.physCore c) (some n) (u.k % 65536 * 65536 + u.slot)

/-- OPEN at core `c` (R122, R123, R128, R148, R437, R438, R440). -/
def State.openCore (s : State) (c p : Nat) : State :=
  let used := usesCore (activeSlot (s.coreP c)) c
  match (s.core c).mode with
  | .lost => ((s.openBase c p).releaseCore c p).openIdle c
  | .failed => ((s.openBase c p).releaseCore c p).openIdle c
  | .excused =>
    match (s.core c).catchUp with
    | none => ((s.openBase c p).releaseCore c p).openIdle c
    | some u =>
      if u.ready && decide ((s.coreP c).seq.prevPitch < u.next) then ((s.openBase c p).rejoin c u p u.cold).openLive c p
      else if u.d + 31 < p then ((s.openBase c p).coldAtOpen c p u).openLive c p
      else
        let s := (s.openBase c p).releaseCore c p
        let held := ((s.core c).ring.filter (fun e => e.target == p)).length
        (s.modCore c (fun k => { k with led := { k.led with replayed := held } })).openIdle c
  | .live => if used then (s.openBase c p).openLive c p else (s.openBase c p).openIdle c

/-- OPEN: the core receives the OPEN picot of its partition's pitch. -/
def execOpenPicot (c t : Nat) (s : State) : Res :=
  let s := s.at t
  let q := (s.coreP c).seq
  .next (if s.corePresent c && q.isOpen && !(s.core c).isOpen then s.openCore c q.pitch else s)

/-! ### ENCODE_DONE (R214) -/

/-- No encoded haul of stream `k` is in flight. -/
def State.noEncoded (s : State) (k : Nat) : Bool :=
  s.hauls.all (fun e => match e.2 with
    | some h => h.kind != HaulKind.encoded k
    | none => true)

/-- No packet that carries one waits for its ACK: bits 20 to 16 of its ARGS name the stream (Table 11.4). -/
def State.noEncodedCopies (s : State) (k : Nat) : Bool :=
  s.fab.unacked.all (fun u => !(u.pkt.kind == 0x22 && bits u.pkt.args 20 16 == k))

/-- The home slice sends ENCODE_DONE to every cluster with a target of the stream. -/
def State.sendEncodeDone (s : State) (k : Nat) : State :=
  let s := s.modStream k (fun q => { q with encoding := false })
  match s.convOf k with
  | none => s
  | some p => s.each ((s.stCores p.2).map clusterOf).eraseDups (fun s cl => s.modCluster cl (fun q => { q with encDone := q.encDone ++ [k] }))

/-- ENCODE_DONE (R214). -/
def execEncodeDone (k t : Nat) (s : State) : Res :=
  let s := s.at t
  let st := s.stream k
  .next (if st.encoding && st.unlaunched.isEmpty && s.noEncoded k && s.noEncodedCopies k then s.sendEncodeDone k else s)

/-- ENCODE_DONE_RECEIVE (R214): the leaf forwards to its cores once every enabled stream that targets the cluster is done. -/
def execEncodeDoneReceive (cl : Nat) (s : State) : Res :=
  .next (
    let q := s.cluster cl
    if (s.clusterStreams ((s.partOf cl).getD 8) cl).all (fun k => q.encDone.contains k) then
      (s.modCluster cl (fun q => { q with encFwd := true })).each (s.clCores cl) (fun s c => s.modCore c (fun k => { k with
        settleAt := if k.encWait then s.now else k.settleAt
        encWait := false }))
    else s)

/-! ### ACCUMULATE and OUTLIER (R96, R101) -/

/-- One product added to an accumulator, held at ±acc_max. -/
def State.addAcc (s : State) (c q : Nat) (pr : Int) : State :=
  let v := mget dInt s.cm.acc (c * 16384 + q) + pr
  let held := if accMax < v then accMax else if v < -accMax then -accMax else v
  (s.modCm (fun m => { m with acc := mset dInt m.acc (c * 16384 + q) held })).bump c 0x50 (if held = v then 0 else 1)

/-- outlier_add of R101. -/
def State.outlierAdd (s : State) (c slot : Nat) (w : F16) (n : Nat) : State :=
  let p := fnarrow (fmul (fwiden w) (fofNat n))
  let s := s.bump c 0x54 (if hisFin p then 0 else 1)
  (s.modCm (fun m => { m with osum := mset dF32 m.osum (c * 2048 + slot) (fadd (mget dF32 m.osum (c * 2048 + slot)) (fwiden p)) })).bump c 0x08 1

/-- ACCUMULATE and OUTLIER apply a checked row with count `n` (R96). -/
def State.accumulateRow (s : State) (c n : Nat) (r : Row) : State :=
  let s := r.blocks.foldl (fun s b =>
    b.syns.foldl (fun s x => s.addAcc c (64 * b.base + x.1) (((x.2 : Int) - b.zp) * n)) (s.bump c 0x00 b.syns.length)) s
  r.outs.foldl (fun s o => s.outlierAdd c o.1 o.2 n) s

/-- The checked row of an event, and the state after its fetch; nothing on a row fault. -/
def State.fetchRow (s : State) (sl : Slot) (c : Nat) (w : BitVec 64) : Option Row × State :=
  let g := s.demandFetch sl c (evRow w)
  match g.1 with
  | none => (none, g.2)
  | some b => (checkRow b.2 b.1 (evSrc w % 65536) (g.2.omapAt c), g.2)

/-- One event accumulated (R94 to R96, R188): a row fault is counted and reported. `trace` is false in replayed pitches. -/
def State.accumulateEvent (s : State) (sl : Slot) (c t : Nat) (trace : Bool) (w : BitVec 64) : State :=
  match s.fetchRow sl c w with
  | (none, s) => (s.bump c 0x60 1).reportUnit 0x0106 0 1 (s.physCore c) (s.partOf (clusterOf c)) (evRow w)
  | (some row, s) =>
    let s := s.accumulateRow c (evCount w) row
    if !trace then s
    else match s.rowRun sl c (evRow w) with
      | none => s
      | some p => s.tracePre (s.coreN c) p.1 p.2 (mget dProj sl.projs p.2.proj).bank (evRow w) row (evCount w) t

/-- EVENT_ACCUMULATE (R96): the first event of INTAKE. Padding is ignored, a record of COUNT 0 is a record fault (R119). -/
def execEventAccumulate (c t : Nat) (s : State) : Res :=
  let s := s.at t
  let k := s.core c
  .next (if !s.liveCore c || k.sweepDone || k.truncated || k.absorbed then s
    else match k.intake with
      | [] => s
      | e :: r =>
        let s := s.modCore c (fun k => repin { k with intake := r })
        if e.word = 0 then s
        else if evCount e.word = 0 then s.bump c 0x6C 1
        else
          (s.accumulateEvent (activeSlot (s.coreP c)) c k.pitch (s.traceOn c) e.word).modCore c repin)

/-! ### RESCALE and INTEGRATE (R72, R73, R105, R107) -/

/-- guard_count of R107 for one position: `ri` is the record's index, `rs` the record. -/
def State.guardCount (s : State) (ri rs : Nat) (acc : Int) (x : F32) : State :=
  if feq x 0#32 then s
  else
    let bound := acc == accMax || acc == -accMax
    let g := (List.range (rsNsets rs)).foldl (fun g k =>
      let j := judge bound (fabs x) (rsHi rs k) (rsLo rs k)
      if j = 1 then bumpAt g (ri * 16 + 1 + k) else if j = 2 then bumpAt g (ri * 16 + 5 + k) else g) (bumpAt s.cm.guard (ri * 16))
    s.modCm (fun m => { m with guard := g })

/-- The positions served by the valid outlier slots of a core, with the slot. -/
def State.outlierSlots (s : State) (c : Nat) : List (Nat × Nat) :=
  ((mrange s.cm.omap (c * 2048) 2048).filter (fun e => omValid e.2)).map (fun e => (omPos e.2, e.1 - c * 2048))

/-- RESCALE and INTEGRATE at one enabled position (R105, R73), with the spike that it produces. -/
def State.sweepPos (s : State) (slots : List (Nat × Nat)) (c : Nat) (clamp replay withheld : Bool) (setOf : Nat → Nat)
    (q : Nat) : State × Option Spike :=
  let g := c * 16384 + q
  let w := s.neuron g
  let ri := c * 32 + swPop w
  let rs := mget dZero s.cm.resc ri
  let acc := mget dInt s.cm.acc g
  let x := preScale acc ((slots.find? (fun e => e.1 == q)).map (fun e => mget dF32 s.cm.osum (c * 2048 + e.2)))
  let k := setIn (rsNsets rs) (setOf (rsGroup rs))
  let s := if replay then s else s.guardCount ri rs acc x
  let cx := clampX clamp (rsHi rs k) x
  let i := fmul cx.1 (rsScale rs k)
  let s := (s.bump c 0x5C cx.2).bump c 0x58 (if fisFin i then 0 else 1)
  let f := integrate (mget dZero s.cm.pop ri) w i
  let s := (((s.setNeuron g f.word).bump c 0x44 f.floors).bump c 0x3C f.kept).bump c 0x40 f.disc
  let s := s.bump c 0x48 f.repair
  if f.n = 0 then (s, none)
  else ((s.bump c 0x30 1).bump c 0x34 f.n, some { q := q, n := f.n, withheld := withheld })

/-- The enabled positions of a core, ascending (R74). -/
def State.enabledPos (s : State) (c : Nat) : List Nat :=
  ((mrange s.cm.neurons (c * 16384) 16384).filter (fun e => !swDis e.2)).map (fun e => e.1 - c * 16384)

/-- The sweep of a core over its enabled positions: the state after it and the spikes in order (R72). -/
def State.sweep (s : State) (c : Nat) (replay withheld : Bool) (setOf : Nat → Nat) : State × List Spike :=
  let clamp := decide (s.eff (kGuardAction (s.coreN c)) ≠ 0)
  let slots := s.outlierSlots c
  let pos := s.enabledPos c
  let r := pos.foldl (fun (p : State × List Spike) q =>
    let x := p.1.sweepPos slots c clamp replay withheld setOf q
    (x.1, match x.2 with
      | some sp => p.2 ++ [sp]
      | none => p.2)) (s, [])
  (r.1.bump c 0x4C (if pos.length < 4 * r.2.length then 1 else 0), r.2)

/-- The cairn that is due is written in this sweep: the words that INTEGRATE reads go to the older slot (R431). -/
def State.writeCairn (s : State) (c : Nat) : State :=
  match (s.core c).cairn.due with
  | none => s
  | some k =>
    if !s.localArea (clusterOf c) then s.modCore c (fun q => { q with cairn := { q.cairn with due := none } })
    else
      let base := (c * 2 + (1 - (s.core c).cairn.slot)) * 16384
      let words := (mrange s.cm.neurons (c * 16384) 16384).map (fun e => (base + (e.1 - c * 16384), e.2))
      (s.modCm (fun m => { m with cairns := words.foldl (fun r e => mset dNeuron r e.1 e.2) (mclear m.cairns base 16384) })).modCore c
        (fun q => { q with cairn := { q.cairn with due := none, writing := some k } })

/-- May the sweep of core `c` start (R72, R129, R177)? -/
def State.sweepDue (s : State) (c : Nat) : Bool :=
  let k := s.core c
  let p := s.coreP c
  let settle := fieldAt (activeSlot p).hdr 0x30 4
  s.liveCore c && !k.sweepDone && k.intake.isEmpty && s.releaseDone c && (!k.encWait || k.truncated || k.absorbed) &&
    (!p.woe || decide (k.openedAt * p.woeClock + settle * 1000 ≤ s.now * p.woeClock))

/-- The load of a core in a pitch, in percent of PERIOD (R441): its settle lasts from the end of OPEN to the end of the sweep (Table 2.2). A core that
truncation or absorption stops while it waits for encoded events has no settle. -/
def State.noteLoad (s : State) (c : Nat) : State :=
  let per := s.eff (kPeriod (s.coreN c)) * 1000
  let k := s.core c
  s.dmax (kLoadPeak (clusterOf c)) (if per = 0 ∨ k.encWait then 0 else min 255 ((s.now - k.settleAt) * 100 / per))

/-- The whole sweep of a core, its cairn, and EMIT's work on the spikes (R72). Spikes produced at or after the truncate or the
absorb instant of the pitch are withheld (R83, R171). -/
def State.integrateAll (s : State) (c : Nat) : State :=
  let groups := (s.coreP c).win.groups
  let q := (s.coreP c).seq
  let r := (s.writeCairn c).sweep c false (q.truncAt.isSome || q.absorbAt.isSome) (fun g => (mget dScale groups g).cur)
  let s := (r.1.noteLoad c).modCore c (fun k => { k with
    sweepDone := true
    emitQ := k.emitQ ++ r.2.map (fun e => { e with late := q.absorbAt.isSome }) })
  s.emitWaiting (activeSlot (s.coreP c)) c ((s.core c).emitQ.length + 1)
/-- INTEGRATE_SWEEP (R72). -/
def execIntegrateSweep (c t : Nat) (s : State) : Res :=
  let s := s.at t
  .next (if !s.sweepDue c then s else s.integrateAll c)

/-! ### Truncation, absorption, CLOSE -/

/-- Records of a list that are not padding. -/
def realRecs (l : List EvRec) : Nat := (l.filter (fun e => e.word != 0)).length
/-- Events of open hauls. -/
def haulEvents (l : List OpenHaul) : Nat := (l.map (fun o => o.events.length + o.remotes.length)).foldl (· + ·) 0

/-- TRUNCATE (R57) at a core that has not drained. -/
def execTruncate (c t : Nat) (s : State) : Res :=
  let s := s.at t
  let k := s.core c
  .next (if (s.coreP c).seq.truncAt.isNone || !s.liveCore c || k.belaySent || k.truncated || k.absorbed || s.drained c then s
    else s.modCore c (fun k => { k with
      truncated := true
      intake := []
      deferred := []
      openHauls := []
      led := { k.led with
        truncIn := k.led.truncIn + realRecs k.intake
        withheld := k.led.withheld + haulEvents k.openHauls } }))

/-- The work of core `c` absorbed and counted (R171). -/
def State.absorbCore (s : State) (c : Nat) : State :=
  let k := s.core c
  let fetching := k.intake.filter (fun e => k.reads.any (fun q => q.row == evRow e.word))
  let s := s.absorbCount c 0x7C (realRecs k.intake - realRecs fetching)
  let s := s.absorbCount c 0x80 (realRecs fetching)
  let s := s.absorbCount c 0x84 (haulEvents k.openHauls)
  s.modCore c (fun k => { k with
    absorbed := true
    intake := []
    deferred := []
    openHauls := [] })
/-- May ABSORB act at core `c`: it has not drained, and it has absorbed nothing yet (R175)? -/
def State.mayAbsorb (s : State) (c : Nat) : Bool := s.liveCore c && !(s.core c).belaySent && !(s.core c).absorbed && !s.drained c
/-- ABSORB (R171) at a core that has not drained; what truncation has discarded is not counted again (R175). -/
def execAbsorb (c : Nat) (s : State) : Res :=
  .next (if (s.coreP c).seq.absorbAt.isSome && s.mayAbsorb c then s.absorbCore c else s)

/-- CLOSE (R41) at a core; a source whose pitch closes takes the new routing generation (R308). -/
def execClosePicot (c t : Nat) (s : State) : Res :=
  let s := s.at t
  .next (if (s.core c).isOpen && !(s.coreP c).seq.isOpen then
    (s.modCore c (fun k => { k with isOpen := false, belaySent := false, belayRcvd := false })).modFab (fun f =>
      { f with toSwitch := f.toSwitch.filter (· != c) })
    else s)

end Sys2Proof.Machine
end

