-- ==== Sys2Proof/Machine/FloorPlan.lean ====
section
/-!
DEFINITION. The floor plan record that bring-up leaves (R387, Table 14.3) and the digest that images are compared with.
-/

namespace Sys2Proof.Machine

/-- An unlisted cluster's mask of present logical cores. -/
def dFpCores (_ : Nat) : Nat := 0xFFFF
/-- CORE_MASK of cluster `c` in the floor plan. -/
def State.fpCoreMask (s : State) (c : Nat) : Nat := mget dFpCores s.floor.fpCores c
/-- PRESENT_CORES. -/
def State.fpCoreCount (s : State) : Nat :=
  ((List.range 128).map (fun c => (maskList 16 (s.fpCoreMask c)).length)).foldl (· + ·) 0
/-- PRESENT_SLICES. -/
def State.fpSliceCount (s : State) : Nat := (maskList 64 s.floor.fpSlices).length
/-- LPDDR6_USABLE with the FRAME_ALL in force. Assumption 51 [DEDUCED, unsafe]. -/
def State.lpUsable (s : State) : Nat := s.lpUsableAt s.frameAll
/-- STREAMS_PRESENT (R203): stream k where slice 2k is present. -/
def State.streamsPresent (s : State) : Nat :=
  ((List.range 32).map (fun k => if bit s.floor.fpSlices (2 * k) then 2 ^ k else 0)).foldl (· + ·) 0
/-- GROUPS_PRESENT (R218): group g where slice g mod 64 is present. -/
def State.groupsPresent (s : State) : Nat :=
  ((List.range 256).map (fun g => if bit s.floor.fpSlices (g % 64) then 2 ^ g else 0)).foldl (· + ·) 0
/-- The floor plan record (Table 14.3), as step 7 left it: before the restore, FRAME_ALL is at its default. -/
def State.fpRecord (s : State) : Bytes :=
  natLe 4 0x4E414C50 ++ natLe 2 1 ++ natLe 2 0 ++ natLe 2 s.fpCoreCount ++ natLe 1 s.fpSliceCount ++ natLe 5 0 ++
  natLe 8 (s.lpUsableAt (min 116 s.frameAllMax)) ++ natLe 8 s.floor.fpSubch ++ natLe 4 (16384 * s.fpSliceCount) ++ natLe 4 (1024 * s.fpSliceCount) ++
  natLe 2 (64 * s.fpSliceCount) ++ natLe 2 0 ++ natLe 4 s.streamsPresent ++ natLe 32 s.groupsPresent ++ natLe 48 0 ++
  (List.range 128).flatMap (fun c => natLe 2 (s.fpCoreMask c)) ++ natLe 8 s.floor.fpSlices ++ natLe 120 0
/-- FP_DIGEST. -/
def State.fpDigest (s : State) : Bytes := shake256 s.fpRecord

end Sys2Proof.Machine
end

