-- ==== Sys2Proof/Machine/LoadChecks.lean ====
section
/-!
DEFINITION. The checks of LOAD (R154, Table 6.7, R487) on a container's header, tile table and tiles. A check answers
nothing when it passes, and its code and tile index when it fails.
-/

namespace Sys2Proof.Machine

/-- A check that failed: its code (Table 6.7) and the tile's index, 0xFFFFFF for the header. -/
abbrev Fail := Option (Nat × Nat)

/-- The first failure of a list of checks, each with whether it passes. -/
def firstFail : List (Bool × Nat × Nat) → Fail
  | [] => none
  | (ok, code, i) :: r => if ok then firstFail r else some (code, i)

/-- A tile's length rounded up to granules (R487). -/
def granLen (n : Nat) : Nat := (n + 2047) / 2048 * 2048
/-- Is a number a multiple of 32? -/
def al32 (n : Nat) : Bool := n % 32 == 0
/-- Are `n` bytes from offset `o` zero? -/
def zeros (b : Bytes) (o n : Nat) : Bool := leNat (slice b o n) == 0

/-! ### Header and tile table -/

/-- Tile table entry `i`, as a tile still to be placed. -/
def tableTile (tab : Bytes) (i : Nat) : Tile :=
  let e := slice tab (32 * i) 32
  { kind := fieldAt e 0 1, place := fieldAt e 1 1, owner := fieldAt e 2 2, crc := fieldAt e 4 4, off := fieldAt e 8 8, len := fieldAt e 16 8 }
/-- NTILES. -/
def hdrTiles (h : Bytes) : Nat := fieldAt h 0x0C 4
/-- TILE_TABLE_OFFSET. -/
def hdrTable (h : Bytes) : Nat := fieldAt h 0x10 8
/-- CONTAINER_LENGTH. -/
def hdrLen (h : Bytes) : Nat := fieldAt h 0x18 8
/-- CLUSTER_MASK. -/
def hdrMask (h : Bytes) : Nat := fieldAt h 0x20 16
/-- NSCALE_GROUPS. -/
def hdrScale (h : Bytes) : Nat := fieldAt h 0x34 2
/-- NPROJ. -/
def hdrProj (h : Bytes) : Nat := fieldAt h 0x36 2
/-- NSTREAMS. -/
def hdrStreams (h : Bytes) : Nat := fieldAt h 0x38 1
/-- NREADOUT. -/
def hdrReadout (h : Bytes) : Nat := fieldAt h 0x3A 2
/-- The core-mask section as masks by cluster. -/
def maskMap (sec : Bytes) : SMap Nat := (List.range 128).foldl (fun m c => mset dZero m c (fieldAt sec (2 * c) 2)) []

/-- FORMAT of the header (R147), with CONTAINER_LENGTH against IMAGE_LENGTH (R164). -/
def headerOk (h : Bytes) (imageLen : Nat) : Bool :=
  let f := hdrFlags h
  fieldAt h 0 4 == 0x49434C4B && fieldAt h 4 1 == 1 && fieldAt h 5 1 == 0 && fieldAt h 6 2 == 256 && decide (f < 8) &&
  decide (1 ≤ hdrTiles h) && decide (hdrTiles h ≤ 1048576) && decide (0x200 ≤ hdrTable h) && al32 (hdrTable h) &&
  al32 (hdrLen h) && decide (hdrLen h ≤ imageLen) && decide (hdrTable h + 32 * hdrTiles h ≤ hdrLen h) &&
  (hdrWoe h || fieldAt h 0x30 4 == 0) && decide (1 ≤ hdrScale h) && decide (hdrScale h ≤ 4096) && decide (hdrProj h ≤ 4095) &&
  (hdrPlastic h || hdrProj h == 0) && decide (hdrStreams h ≤ 32) && decide (hdrReadout h ≤ 256) && zeros h 0x39 1 && zeros h 0x48 8 &&
  zeros h 0x80 96 && (hdrDelta h || zeros h 0x60 32)

/-- FORMAT of one tile table entry (Table 6.4). -/
def entryOk (tab : Bytes) (clen i : Nat) : Bool :=
  let t := tableTile tab i
  let e := slice tab (32 * i) 32
  decide (1 ≤ t.kind) && decide (t.kind ≤ 5) && decide (t.place ≤ 1) && al32 t.off && al32 t.len && decide (64 ≤ t.len) &&
  decide (t.off + t.len ≤ clen) && zeros e 0x18 8 &&
  decide (t.owner < (if t.kind ≤ 3 then 2048 else if t.kind = 4 then 288 else 4096))

/-- The LIMIT conditions of R204 on a converter tile: its stream or group is present and no other partition holds it. -/
def State.convFree (s : State) (n : Nat) (t : Tile) : Bool :=
  t.kind != 4 || ((if t.owner < 32 then bit s.streamsPresent t.owner else bit s.groupsPresent (t.owner - 32)) &&
    (match s.holder t.owner with
      | none => true
      | some m => m == n))

/-- The BASE conditions of R167 on the header. -/
def baseOk (h : Bytes) (masks : SMap Nat) (other : Slot) : Bool :=
  (other.state == SlotState.loaded || other.state == SlotState.active) && slice h 0x60 32 == hdrDigest other.hdr &&
  hdrMask h == hdrMask other.hdr && masks == other.masks && hdrScale h == hdrScale other.hdr && hdrProj h == hdrProj other.hdr &&
  hdrStreams h == hdrStreams other.hdr && hdrReadout h == hdrReadout other.hdr && hdrWoe h == hdrWoe other.hdr &&
  hdrPlastic h == hdrPlastic other.hdr

/-- The LPDDR6 set in which a tile must lie (R265): 0 ALL, 1 WEST, 2 EAST. -/
def tileSet (t : Tile) : Nat :=
  if t.place = 1 ∨ t.kind = 5 then 0
  else
    let half := if t.kind ≤ 3 then halfOf (clusterOf t.owner)
      else if t.owner < 32 then 2 * t.owner / 32 else (t.owner - 32) % 64 / 32
    half + 1
/-- The free frames of a set, ascending. -/
def State.freeFrames (s : State) (k : Nat) : List Nat :=
  (List.range s.frameCount).filter (fun f => s.frameSet f == k && s.frameOwner f == 0xFF)
/-- Granules that the tiles of a set need. -/
def needGran (l : List Tile) (k : Nat) : Nat := ((l.filter (fun t => tileSet t == k)).map (fun t => (t.len + 2047) / 2048)).foldl (· + ·) 0
/-- Have the sets the room (R487)? -/
def State.roomOk (s : State) (l : List Tile) : Bool :=
  (List.range 3).all (fun k => decide (needGran l k ≤ 524288 * (s.freeFrames k).length))
/-- Granule `i` of the free frames of a set, as a space address. -/
def granAddr (frames : List Nat) (i : Nat) : Nat := frames.getD (i / 524288) 0 * 2 ^ 30 + i % 524288 * 2048
/-- Tiles placed in order into the free frames of their sets (R487, assumption 21 [DESIGN CHOICE, unsafe]): granules in use per set so far. -/
def placeTiles (frames : Nat → List Nat) : List Tile → (Nat × Nat × Nat) → List Tile
  | [], _ => []
  | t :: r, u =>
    let k := tileSet t
    let at' := if k = 0 then u.1 else if k = 1 then u.2.1 else u.2.2
    let n := (t.len + 2047) / 2048
    let u' := if k = 0 then (u.1 + n, u.2) else if k = 1 then (u.1, u.2.1 + n, u.2.2) else (u.1, u.2.1, u.2.2 + n)
    { t with granules := (List.range n).map (fun i => granAddr (frames k) (at' + i)) } :: placeTiles frames r u'

/-! ### Tiles alone -/

/-- TILE_HEADER (Table 6.5). -/
def tileHdrOk (h : Bytes) (t : Tile) : Bool :=
  fieldAt h 0 2 == 0x4C54 && fieldAt h 2 1 == t.kind && fieldAt h 3 1 == 1 && fieldAt h 4 2 == t.owner && fieldAt h 8 8 == t.len - 64 &&
  fieldAt h 0x3C 4 == crc32c (slice h 0 0x3C)
/-- TILE_CRC. -/
def tileCrcOk (b : Bytes) (t : Tile) : Bool := crc32c b == t.crc && fieldAt b 0x10 4 == crc32c (b.drop 64)

/-- The extents of the rows of a SYNAPSE tile, in 32-byte units: start and length; `twice` says which rows count with both
copies (R93). -/
def State.rowExtents (s : State) (t : Tile) (twice : Nat → Bool) : List (Nat × Nat) :=
  (List.range t.count).map (fun r =>
    let d := s.rowDir t r
    (rdOff d, if twice r then 2 * rdLen d else rdLen d))
/-- R93: the rows lie in the body, after the directory, and none overlaps another. An entry of LEN32 0 holds no row and overlaps none (assumption 93 [DEDUCED, unsafe]). -/
def extentsOk (l : List (Nat × Nat)) (count bodyLen : Nat) : Bool :=
  l.all (fun e => decide ((4 * count + 31) / 32 ≤ e.1) && decide (32 * (e.1 + e.2) ≤ bodyLen)) &&
  (let o := sortBy (·.1) (l.filter (fun e => e.2 != 0))
   (o.zip (o.drop 1)).all (fun p => decide (p.1.1 + p.1.2 ≤ p.2.1)))

/-- The state words of a NEURON tile. -/
def State.ntWord (s : State) (t : Tile) (q : Nat) : BitVec 64 := BitVec.ofNat 64 (s.tileField t (8 * q) 8)
/-- The record indices that enabled positions use. -/
def State.ntUsed (s : State) (t : Tile) : List Nat :=
  (List.range 32).filter (fun i => (List.range 16384).any (fun q => let w := s.ntWord t q; !swDis w && swPop w == i))
/-- FORMAT of a NEURON tile's body (Table 6.6). -/
def State.neuronFormat (s : State) (t : Tile) : Bool :=
  let n := s.tileField t 0x21C00 4
  decide (1 ≤ t.count) && decide (t.count ≤ 32) && decide (n ≤ 16384) && t.len - 64 == 0x21C20 + (4 * n + 31) / 32 * 32 &&
  s.tileField t 0x21C04 28 == 0 && s.tileField t (0x20000 + 32 * t.count) (32 * (32 - t.count)) == 0 &&
  s.tileField t (0x20400 + 64 * t.count) (64 * (32 - t.count)) == 0 &&
  (List.range n).all (fun i => decide (s.tileField t (0x21C20 + 4 * i) 4 < 2 ^ 24)) &&
  s.tileField t (0x21C20 + 4 * n) (t.len - 64 - (0x21C20 + 4 * n)) == 0
/-- NEURON (R69). -/
def State.neuronOk (s : State) (t : Tile) : Bool :=
  (List.range 16384).all (fun q =>
    let w := s.ntWord t q
    swOk w t.count (s.tileField t (0x20000 + 32 * swPop w) 32)) &&
  (List.range (min 32 t.count)).all (fun i => popOk (s.tileField t (0x20000 + 32 * i) 32))
/-- OUTLIER_MAP (R100). -/
def State.outlierOk (s : State) (t : Tile) : Bool :=
  omapOk ((List.range 2048).map (fun i => BitVec.ofNat 16 (s.tileField t (0x20C00 + 2 * i) 2)))
/-- The rescale records that enabled positions use. -/
def State.ntResc (s : State) (t : Tile) : List Nat := (s.ntUsed t).map (fun i => s.tileField t (0x20400 + 64 * i) 64)

/-- FORMAT of a stream's tile (R210, R220). -/
def State.streamTileOk (s : State) (t : Tile) : Bool :=
  let body := t.len - 64
  let nch := s.stNch t
  let nsets := s.tileField t 4 1
  let nt := s.tileField t 8 4
  let ch := s.tileField t 0x0C 4
  let st := s.tileField t 0x10 4
  let tg := s.tileField t 0x14 4
  s.tileField t 0 1 == t.owner && decide (s.tileField t 1 1 ≤ 3) && decide (1 ≤ nch) && decide (nch ≤ 256) && decide (1 ≤ nsets) &&
  decide (nsets ≤ 4) && s.tileField t 5 3 == 0 && decide (1 ≤ nt) && decide (nt ≤ 65536) && t.count == nt && al32 ch && al32 st && al32 tg &&
  decide (ch + 32 * nch ≤ body) && decide (st + 16 * nsets * nch ≤ body) && decide (tg + 8 * nt ≤ body) && s.tileField t 0x18 40 == 0 &&
  (List.range nch).all (fun c =>
    let mode := s.chField t c 0 1
    let hyst : F16 := BitVec.ofNat 16 (s.chField t c 2 2)
    decide (mode ≤ 3) && s.chField t c 1 1 == 0 &&
    (if mode = 2 then hisFin hyst && fle 0#32 (fwiden hyst) && flt (fwiden hyst) 0x3F000000#32 else hyst == 0) &&
    decide (s.chField t c 4 4 < 2 ^ 25) && decide (s.chField t c 8 4 < 2 ^ 25) &&
    decide (s.chField t c 0x0C 4 + s.chField t c 0x14 2 ≤ nt) && decide (s.chField t c 0x10 4 + s.chField t c 0x16 2 ≤ nt) &&
    s.chField t c 0x18 8 == 0 &&
    (List.range nsets).all (fun k =>
      let hi := s.setField t k c 8
      let lo := s.setField t k c 12
      fisFin (s.setField t k c 0) && fNormalPos (s.setField t k c 4) && fPos hi && fisFin lo && fle 0#32 lo && flt lo hi)) &&
  (List.range nt).all (fun i => decide (s.stTarget t i < 2 ^ 35))

/-- Tap `i` of a group's tile (Table 8.6). -/
def State.tapAt (s : State) (t : Tile) (i : Nat) : Nat := s.tileField t (s.tileField t 0x0C 4 + 8 * i) 8
/-- GID of a tap. -/
def tapGid (v : Nat) : Nat := bits v 24 0
/-- CH of a tap. -/
def tapCh (v : Nat) : Nat := bits v 47 42
/-- W of a tap. -/
def tapW (v : Nat) : F16 := BitVec.ofNat 16 (bits v 63 48)
/-- A field of channel decode record `c`. -/
def State.cdField (s : State) (t : Tile) (c o n : Nat) : Nat := s.tileField t (s.tileField t 8 4 + 16 * c + o) n

/-- FORMAT of a readout group's tile (R219, R220). -/
def State.groupTileOk (s : State) (t : Tile) : Bool :=
  let body := t.len - 64
  let nch := s.tileField t 1 1
  let nt := s.tileField t 4 4
  let cd := s.tileField t 8 4
  let tp := s.tileField t 0x0C 4
  let taps := (List.range nt).map (s.tapAt t)
  s.tileField t 0 1 + 32 == t.owner && decide (1 ≤ nch) && decide (nch ≤ 64) && decide (s.tileField t 2 1 ≤ 1) && decide (s.tileField t 3 1 ≤ 1) &&
  decide (1 ≤ nt) && decide (nt ≤ 262144) && t.count == nt && al32 cd && al32 tp && decide (cd + 16 * nch ≤ body) && decide (tp + 8 * nt ≤ body) &&
  s.tileField t 0x10 48 == 0 &&
  (List.range nch).all (fun c =>
    let win := s.cdField t c 0 1
    let wl := s.cdField t c 1 1
    let dec : F32 := BitVec.ofNat 32 (s.cdField t c 4 4)
    decide (win ≤ 2) && decide (1 ≤ wl) && decide (wl ≤ 64) && (win == 1 || wl == 1) && s.cdField t c 2 2 == 0 &&
    (if win = 2 then fIn 0#32 0x3F800000#32 dec else feq dec 0#32) &&
    fisFin (BitVec.ofNat 32 (s.cdField t c 8 4)) && fisFin (BitVec.ofNat 32 (s.cdField t c 12 4))) &&
  taps.all (fun v => hisFin (tapW v) && decide (tapCh v < nch) && bits v 41 25 == 0) &&
  (taps.zip (taps.drop 1)).all (fun p => decide (tapGid p.1 * 64 + tapCh p.1 < tapGid p.2 * 64 + tapCh p.2))

/-- Do index ranges not overlap? -/
def rangesApart (l : List (Nat × Nat)) : Bool :=
  let o := sortBy (·.1) l
  (o.zip (o.drop 1)).all (fun p => decide (p.1.1 + p.1.2 ≤ p.2.1))

/-- FORMAT of a PLASTIC tile's body: the parts of R183 and R185 that read no other tile. -/
def State.plasticTileOk (s : State) (t : Tile) (nproj : Nat) : Bool :=
  let body := t.len - 64
  let nruns := s.tileField t 4 2
  let nrows := s.tileField t 8 4
  let npost := s.tileField t 0x0C 4
  let nsyn := s.tileField t 0x10 4
  let runs := s.runsOf t
  let area (f n w : Nat) : Bool := decide (s.areaOff t f + n * w ≤ body)
  let cds := (List.range npost).map (fun k => s.tileField t (s.areaOff t 0x2C + 8 * k) 8)
  s.tileField t 0 2 == t.owner && decide (t.owner < nproj) && decide (s.tileField t 2 1 ≤ 1) && s.tileField t 3 1 == 0 &&
  decide (1 ≤ nruns) && decide (nruns ≤ 2048) && t.count == nruns && s.tileField t 6 2 == 0 && decide (1 ≤ nrows) && decide (1 ≤ npost) &&
  decide (1 ≤ nsyn) && hIn 0#16 0x7BFF#16 (s.tileHalf t 0x14) && hIn 0#16 0x7BFF#16 (s.tileHalf t 0x16) &&
  hIn 0#16 0x3C00#16 (s.tileHalf t 0x18) && hIn 0#16 0x3C00#16 (s.tileHalf t 0x1A) &&
  decide (s.tileField t 0x1C 1 < s.tileField t 0x1D 1) && decide (s.tileField t 0x1D 1 ≤ if s.tileField t 2 1 = 0 then 15 else 255) &&
  s.tileField t 0x1E 2 == 0 && s.tileField t 0x3C 4 == 0 &&
  area 0x20 nruns 32 && area 0x24 nrows 16 && area 0x28 npost 8 && area 0x2C npost 8 && area 0x30 nsyn 8 && area 0x34 nsyn 8 && area 0x38 nsyn 8 &&
  (List.range nruns).all (fun i =>
    let e := s.tileRead t (s.areaOff t 0x20 + 32 * i) 32
    decide (fieldAt e 0 2 < 2048) && zeros e 2 2 && decide (fieldAt e 4 4 < 2 ^ 24) && decide (1 ≤ fieldAt e 8 4) && decide (fieldAt e 0x10 2 < 16384) &&
    decide (1 ≤ fieldAt e 0x12 2) && decide (fieldAt e 0x10 2 + fieldAt e 0x12 2 ≤ 16384) && zeros e 0x18 8) &&
  (runs.map (·.nRow)).foldl (· + ·) 0 == nrows && (runs.map (·.postCount)).foldl (· + ·) 0 == npost &&
  rangesApart (runs.map (fun u => (u.rowBase, u.nRow))) && rangesApart (runs.map (fun u => (u.postBase, u.postCount))) &&
  runs.all (fun u => decide (u.rowBase + u.nRow ≤ nrows) && decide (u.postBase + u.postCount ≤ npost)) &&
  cds.all (fun v => decide (bits v 63 32 + bits v 31 16 ≤ nsyn) && bits v 15 0 == 0) &&
  (cds.map (fun v => bits v 31 16)).foldl (· + ·) 0 == nsyn &&
  (List.range nsyn).all (fun i =>
    let e := s.tileField t (s.areaOff t 0x30 + 8 * i) 8
    decide (bits e 63 32 < nsyn) && decide (bits e 31 0 < nrows))

/-- The checks of one landed tile, in the order of R487 phase 3; `b` holds its bytes, `i` its index. Assumption 42 [DEDUCED, unsafe]. -/
def State.tileCheck (s : State) (h : Bytes) (t : Tile) (b : Bytes) (i : Nat) : Fail :=
  let hdr := firstFail [(tileHdrOk b t, 5, i), (tileCrcOk b t, 6, i), (zeros b 0x18 36 && zeros b 0x06 2, 1, i)]
  if hdr.isSome then hdr
  else if t.kind = 1 then firstFail [(extentsOk (s.rowExtents t (fun _ => false)) t.count (t.len - 64), 1, i)]
  else if t.kind = 2 then
    firstFail [(s.neuronFormat t, 1, i), (s.neuronOk t, 7, i), (s.outlierOk t, 8, i), ((s.ntResc t).all rescOk, 9, i)]
  else if t.kind = 3 then firstFail [(decide (65536 ≤ t.len - 64), 1, i)]
  else if t.kind = 4 then firstFail [(if t.owner < 32 then s.streamTileOk t else s.groupTileOk t, 1, i)]
  else firstFail [(s.plasticTileOk t (hdrProj h), 1, i)]

/-! ### Tiles against each other (R487 phase 4); `sl` holds every tile of the image -/

/-- Is a destination entry admitted (R11, R23, R116)? -/
def State.destOk (s : State) (n : Nat) (sl : Slot) (e : Nat) : Bool :=
  deDelay e != 0 && bits e 35 24 == 0 &&
  (if deRemote e then decide (2 ≤ deDelay e) && peerValid (s.peer n (dePeer e))
   else dePeer e == 0 && s.corePresent (deCore e) && bit (s.part n).mask (clusterOf (deCore e)) && decide (deRow e < rowCount sl (deCore e)))
/-- DESTINATION of a DESTINATION tile. -/
def State.pricksOk (s : State) (n : Nat) (sl : Slot) (t : Tile) : Bool :=
  let entries := (t.len - 64 - 65536) / 8
  (List.range 16384).all (fun q =>
    let d := s.tileField t (4 * q) 4
    (pdCount d == 0 || decide (pdOff d + pdCount d ≤ entries)) &&
    (List.range (pdCount d)).all (fun i => s.destOk n sl (s.tileField t (65536 + 8 * (pdOff d + i)) 8)))
/-- DESTINATION of a converter's targets or taps (R220). -/
def State.convDestOk (s : State) (sl : Slot) (t : Tile) : Bool :=
  if t.owner < 32 then
    (List.range (s.tileField t 8 4)).all (fun i =>
      let e := s.stTarget t i
      usesCore sl (bits e 34 24) && decide (bits e 23 0 < rowCount sl (bits e 34 24)))
  else (List.range (s.tileField t 4 4)).all (fun i => usesCore sl (tapGid (s.tapAt t i) / 16384))

/-- The rescale records in use over the NEURON tiles of an image. -/
def State.allResc (s : State) (l : List Tile) : List Nat := (l.filter (fun t => t.kind == 2)).flatMap s.ntResc
/-- RESCALE agreement (R103): records of one group are equal from NSETS on. -/
def rescAgree (l : List Nat) : Bool := l.all (fun a => l.all (fun b => rsGroup a != rsGroup b || a == b))

/-- A row of a run keeps R181 in its header (WFMT of the projection, PLASTIC set, no outlier), its weights within bounds and its
update indices within NSYN (R185); its positions are the compiler's concern. -/
def State.runRowOk (s : State) (pt syn : Tile) (u : Run) (r : Nat) : Bool :=
  let d := s.rowDir syn r
  let bs := s.tileRead syn (32 * rdOff d) (32 * rdLen d)
  let h := fieldAt bs 0 8
  let wf := s.tileField pt 2 1
  let ws := rowWeightSlots wf bs (bits h 60 52) 8
  bits h 63 62 == wf && bit h 61 && bits h 51 44 == 0 &&
  ws.all (fun e => decide (s.tileField pt 0x1C 1 ≤ e.2.2) && decide (e.2.2 ≤ s.tileField pt 0x1D 1)) &&
  decide (s.tileField pt (s.areaOff pt 0x24 + 16 * (u.rowBase + (r - u.firstRow)) + 12) 4 + rowMaskBits wf bs (bits h 60 52) 8 ≤ s.tileField pt 0x10 4)
/-- FORMAT of the runs of a PLASTIC tile against the SYNAPSE tiles (R185). -/
def State.runsOk (s : State) (sl : Slot) (t : Tile) : Bool :=
  (s.runsOf t).all (fun u => match synTile sl u.core with
    | none => false
    | some syn => decide (u.firstRow + u.nRow ≤ syn.count) && (List.range u.nRow).all (fun i => s.runRowOk t syn u (u.firstRow + i)))
/-- Every run of an image. -/
def State.allRuns (s : State) (l : List Tile) : List Run := (l.filter (fun t => t.kind == 5)).flatMap s.runsOf
/-- LIMIT of R185 on the runs of the tiles so far: at most 16 in a core, and no shared row. -/
def runsLimit (runs : List Run) : Bool :=
  runs.all (fun u => decide ((runs.filter (fun v => v.core == u.core)).length ≤ 16) &&
    rangesApart ((runs.filter (fun v => v.core == u.core)).map (fun v => (v.firstRow, v.nRow))))
/-- Is the last of the tiles the only one of its kind and owner? -/
def onlyOne (l : List Tile) (t : Tile) : Bool := (l.filter (fun u => u.kind == t.kind && u.owner == t.owner)).length == 1
/-- LIMIT of R151 on one tile of a complete image: a core tile belongs to a core that the image uses, no tile comes twice, and none is
too long. -/
def tileLimit (sl : Slot) (l : List Tile) (t : Tile) : Bool :=
  onlyOne l t && (decide (3 < t.kind) || usesCore sl t.owner)
/-- LIMIT by a tile's own size (R151), which binds delta images too (R167). -/
def tileSize (t : Tile) : Bool := (t.kind != 1 || decide (t.len - 64 ≤ 2 ^ 27)) && (t.kind != 3 || decide (t.len - 64 ≤ 65536 + 2 ^ 23))
/-- LIMIT of R151 on a complete image: the tiles that it must hold, and the numbers of its header. -/
def countOk (sl : Slot) : Bool :=
  let n (k o : Nat) : Nat := (sl.tiles.filter (fun t => t.kind == k && t.owner == o)).length
  (List.range 2048).all (fun c => !usesCore sl c || (n 2 c == 1 && n 3 c == 1)) &&
  (sl.tiles.filter (fun t => t.kind == 4 && decide (t.owner < 32))).length == hdrStreams sl.hdr &&
  (sl.tiles.filter (fun t => t.kind == 4 && decide (32 ≤ t.owner))).length == hdrReadout sl.hdr &&
  (sl.tiles.filter (fun t => t.kind == 5)).length == hdrProj sl.hdr
/-- BASE of a delta's tile (R167). -/
def State.deltaTileOk (s : State) (base : Slot) (t : Tile) : Bool :=
  if t.kind = 4 then slotHolds base t.owner
  else if t.kind = 1 then match synTile base t.owner with
    | none => false
    | some o => o.count == t.count &&
      (List.range o.count).all (fun r => !bit (s.tileField o (32 * rdOff (s.rowDir o r)) 8) 61)
  else false

/-- The checks of phase 4 on tile `t`, which ends the list `l` of the image's own tiles so far, in the order of the rules that state
them: R11, R23, R93, R103, R116, R151, R153, R167, R185, R220. `runs` are those of the whole image. -/
def State.tileCross (s : State) (n : Nat) (sl base : Slot) (runs : List Run) (l : List Tile) (t : Tile) : List (Bool × Nat) :=
  let delta := hdrDelta sl.hdr
  let limit := ((delta || tileLimit sl l t) && tileSize t, 0x0D)
  let onBase := (!delta || s.deltaTileOk base t, 0x0E)
  if t.kind = 1 then
    let inRun := fun r => runs.any (fun u => u.core == t.owner && decide (u.firstRow ≤ r) && decide (r < u.firstRow + u.nRow))
    [(extentsOk (s.rowExtents t inRun) t.count (t.len - 64), 1), limit, onBase]
  else if t.kind = 2 then
    [(rescAgree (s.allResc l), 9), limit, ((s.residentRows sl t.owner).all (fun r => decide (r < rowCount sl t.owner)), 7), onBase]
  else if t.kind = 3 then [(s.pricksOk n sl t, 0x0A), limit, onBase]
  else if t.kind = 4 then [limit, onBase, (s.convDestOk sl t, 0x0A)]
  else [onBase, (onlyOne l t, 0x0D), (s.runsOk sl t, 1), (runsLimit (s.allRuns l), 0x0D)]
/-- The checks of phase 4 on slot content `sl` (own tiles first, `own` of them), the base image of a delta beside it: tile by tile, then
the numbers of a complete image, which concern its header. -/
def State.crossCheck (s : State) (n : Nat) (sl base : Slot) (own : Nat) : Fail :=
  let mine := sl.tiles.take own
  let runs := s.allRuns sl.tiles
  let delta := hdrDelta sl.hdr
  firstFail (
    (List.range mine.length).flatMap (fun i => match mine[i]? with
      | some t => (s.tileCross n sl base runs (mine.take (i + 1)) t).map (fun e => (e.1, e.2, i))
      | none => []) ++
    [(delta || hdrScale sl.hdr == max 1 ((s.allResc sl.tiles).map rsGroup).eraseDups.length, 9, 0xFFFFFF), (delta || countOk sl, 0x0D, 0xFFFFFF)])

end Sys2Proof.Machine
end

