-- ==== Sys2Proof/Machine/Operands.lean ====
section
/-!
DEFINITION. The operands that commands carry: status codes, the rights of a requester (R351), the access codes and locks of
entries (R350, R366), the values an entry accepts (R349), and what the part answers in its present state (R380, R406).
-/

namespace Sys2Proof.Machine

/-! ### Status codes (Table 13.7) -/

/-- OK. -/
def stOk : Nat := 0
/-- OBJECT_ABSENT. -/
def stAbsent : Nat := 1
/-- ACCESS. -/
def stAccess : Nat := 2
/-- RANGE. -/
def stRange : Nat := 3
/-- STATE. -/
def stState : Nat := 4
/-- ARGUMENT. -/
def stArgument : Nat := 5
/-- LENGTH. -/
def stLength : Nat := 6
/-- UNKNOWN_TYPE. -/
def stUnknownType : Nat := 7
/-- MALFORMED. -/
def stMalformed : Nat := 8
/-- BUSY. -/
def stBusy : Nat := 9
/-- SNAPSHOT. -/
def stSnapshot : Nat := 10
/-- HARDWARE. -/
def stHardware : Nat := 11
/-- VERSION. -/
def stVersion : Nat := 12

/-- A request counted as performed (Table 13.22). -/
def State.counted (s : State) : State := s.dadd64 kDictRequests 1
/-- A command's answer leaves the part: the entry concerned and its status; the request counts as performed. Firmware's own writes are
answered to nobody. -/
def State.answer (s : State) (r : Requester) (k code : Nat) : State := match r with
  | .restore => s
  | _ => s.counted.out (.status r k code)

/-! ### Responses (R354, R359, R361, R363, R365) -/

/-- A response reaches mailbox `k` (R363), when it is the one of the request that is in progress there: a mailbox that a host loss
has orphaned discards it (R365). -/
def State.toMailbox (s : State) (k tag : Nat) (msg : Bytes) : State :=
  let m := s.mailbox k
  if !m.busy || fieldAt m.taken 8 4 != tag then s
  else if m.orphaned then s.modMailbox k (fun m => { m with busy := false })
  else
    let s := s.modMailbox k (fun m => { m with
      response := msg
      rspLen := msg.length
      busy := false
      rspReady := true })
    if m.rspInt then s.raiseCause (if k < 8 then 0 else (k - 8) / 3 + 1) 0 else s
/-- A response leaves, on the rope from the address at which the request of its TAG arrived (R345, R361). -/
def State.respond (s : State) (r : Requester) (msg : Bytes) : State :=
  s.out (.response r (((s.req r).via.find? (fun e => e.1 == fieldAt msg 8 4)).elim 0 (·.2)) msg)
/-- A response sent to a requester; that of an orphaned mailbox is discarded (R365). The part keeps a rope requester's last response with its TAG (R361). -/
def State.send (s : State) (r : Requester) (tag : Nat) (msg : Bytes) : State := match r with
  | .mailbox k => if (s.mailbox k).orphaned then s.toMailbox k tag msg else (s.toMailbox k tag msg).respond r msg
  | .rope _ _ => (s.modReq r (fun q => if q.lastTag == some tag then { q with
      lastRsp := msg
      lastAt := s.now } else q)).respond r msg
  | .restore => s
/-- The response to a dictionary request of a type, with its body. -/
def State.reply (s : State) (r : Requester) (type status tag : Nat) (body : Bytes) : State :=
  s.send r tag (msgHeader type (16 + body.length) 1 status tag ++ body)
/-- INDEX, SUB and the reserved byte of a body. -/
def entryHead (k : Nat) : Bytes := natLe 2 (k / 256) ++ natLe 1 k ++ [0#8]
/-- The answer to a write of entry `k`: the response to a WRITE with its TAG, or the status alone for a command that is a write. -/
def State.writeAnswer (s : State) (r : Requester) (tag : Option Nat) (k total code : Nat) : State := match tag with
  | none => s.answer r k code
  | some g => s.reply r 2 code g (entryHead k ++ if code = stOk then natLe 2 total ++ natLe 2 0 else [])
/-- A snapshot kept for a requester (R354): a value, or every readable value of an index. Its number is not 0 and differs from the
one before it; no rule says which it is (assumption 11 [DESIGN CHOICE, safe]). Assumption 59 [DESIGN CHOICE, safe]. -/
def State.keepSnap (s : State) (r : Requester) (key : Nat × Option Nat) (val : Bytes) (idx : List (Nat × Bytes)) : Nat × State :=
  let f := s.takeFree
  let n := ((s.req r).snapNo + f.1.toNat % 65534) % 65535 + 1
  (n, f.2.modReq r (fun q => { q with
    snapNo := n
    snapKey := some key
    snapVal := val
    snapIdx := idx
    snapAt := s.now }))
/-- The response to a READ of a segment of a value, from the snapshot numbered `snap`. -/
def State.segment (s : State) (r : Requester) (tag k off maxlen snap : Nat) (val : Bytes) : State :=
  if val.length < off then s.reply r 1 stArgument tag (entryHead k)
  else
    let d := (val.drop off).take maxlen
    s.reply r 1 stOk tag (entryHead k ++ natLe 2 off ++ natLe 2 val.length ++ natLe 2 snap ++ natLe 2 d.length ++ d)
/-- The response to a READ that takes a new snapshot of a value. -/
def State.readNew (s : State) (r : Requester) (tag k off maxlen : Nat) (val : Bytes) : State :=
  let q := s.keepSnap r (k / 256, some (k % 256)) val []
  q.2.segment r tag k off maxlen q.1 val

/-- The length of an item's value in a READ_INDEX response, and its bytes: nothing for a write-only entry or a value above 64
bytes. -/
def itemBytes (sub : Nat) (v : Option Bytes) : Bytes := match v with
  | none => natLe 2 sub ++ natLe 2 0xFFFF
  | some b => if 64 < b.length then natLe 2 sub ++ natLe 2 0xFFFF
    else natLe 2 sub ++ natLe 2 b.length ++ b ++ List.replicate ((4 - b.length % 4) % 4) 0#8
/-- Items up to the last that fits into `room` bytes, how many they are, and the first subindex not returned (0: none). -/
def packItems : Nat → List (Nat × Option Bytes) → Bytes × Nat × Nat
  | _, [] => ([], 0, 0)
  | room, e :: r =>
    let b := itemBytes e.1 e.2
    if room < b.length then ([], 0, e.1)
    else
      let q := packItems (room - b.length) r
      (b ++ q.1, q.2.1 + 1, q.2.2)
/-- The response to a READ_INDEX: a snapshot of the index's readable values `vals`, and items from FIRST_SUB, those of the write-only
entries `wo` among them (Table 13.6). -/
def State.readIndexNew (s : State) (r : Requester) (tag index first : Nat) (vals : List (Nat × Bytes)) (wo : List Nat) : State :=
  let q := s.keepSnap r (index, none) [] vals
  let items := sortBy (·.1) (vals.map (fun e => (e.1, some e.2)) ++ wo.map (fun i => (i, none)))
  let p := packItems (1452 - 24) (items.filter (fun e => decide (first ≤ e.1)))
  q.2.reply r 3 stOk tag (natLe 2 index ++ natLe 1 p.2.2 ++ natLe 1 p.2.1 ++ natLe 2 q.1 ++ natLe 2 0 ++ p.1)

/-! ### Who may read and write what (R351) -/

/-- The virtual function partition of a requester: mailboxes 8 + 3n to 10 + 3n; nothing for the physical function, the rope
master and firmware. -/
def reqVf : Requester → Option Nat
  | .mailbox k => if k < 8 then none else some ((k - 8) / 3)
  | .rope _ _ => none
  | .restore => none
/-- The PCIe function of a mailbox (R362). -/
def mailboxFunc (k : Nat) : Nat := if k < 8 then 0 else (k - 8) / 3 + 1
/-- The indices of the streams that partition `n` holds (0x40xx and 0x40yy). -/
def State.heldStreamIndex (s : State) (n index : Nat) : Bool :=
  (decide (0x4010 ≤ index) && decide (index < 0x4030) && s.holder (index - 0x4010) == some n)
/-- The status indices of the streams that partition `n` holds. -/
def State.heldStatusIndex (s : State) (n index : Nat) : Bool :=
  (decide (0x4040 ≤ index) && decide (index < 0x4060) && s.holder (index - 0x4040) == some n)
/-- Is the entry read only? -/
def entryAccess (k : Nat) : Access := match entryRow (k / 256) (k % 256) with
  | some r => r.acc
  | none => .ro
/-- May the requester read the entry (Table 13.3)? -/
def State.reqReads (s : State) (r : Requester) (k : Nat) : Bool := match reqVf r with
  | none => true
  | some n =>
    let i := k / 256
    (decide (0x1000 ≤ i) && decide (i < 0x1100)) || (i == 0x2000 && entryAccess k == .ro) || i == 0x2110 + n || i == 0x2120 + n ||
    (decide (0x3000 + 0x100 * n ≤ i) && decide (i < 0x3100 + 0x100 * n)) || s.heldStreamIndex n i || s.heldStatusIndex n i || i == 0x1130 + n
/-- May the requester write value `v` to the entry (Table 13.3)? -/
def State.reqWrites (s : State) (r : Requester) (k v : Nat) : Bool := match reqVf r with
  | none => true
  | some n =>
    let i := k / 256
    i == 0x2110 + n || s.heldStreamIndex n i || i == 0x1130 + n ||
    (decide (0x3000 + 0x100 * n ≤ i) && decide (i < 0x3100 + 0x100 * n) && k != kClusterMask n &&
      !(k == kPartitionCommand n && (v == 1 || v == 8)))

/-! ### Locks (R366) -/

/-- The lock group of an entry, by the bit of LOCK_STATE (R414, R470). -/
def lockBit (k : Nat) : Option Nat :=
  if entryAccess k != .lk then none
  else if k / 65536 = 0x22 then some 0
  else if k = kJtagMode then some 1 else some 3
/-- Is the entry locked? -/
def State.locked (s : State) (k : Nat) : Bool := match lockBit k with
  | some b => bit (s.dget kLockState) b
  | none => false

/-! ### What is answered in a device state -/

/-- DEVICE_STATE values. -/
def devBringup : Nat := 0
/-- OPERATIONAL. -/
def devOperational : Nat := 1
/-- LOW_POWER. -/
def devLowPower : Nat := 2
/-- FAILED. -/
def devFailed : Nat := 3
/-- Indices answered during bring-up (R380). -/
def earlyIndex (i : Nat) : Bool :=
  (decide (0x1000 ≤ i) && decide (i < 0x1200)) || (decide (0x2000 ≤ i) && decide (i < 0x2004)) || (decide (0x2020 ≤ i) && decide (i < 0x2025))

/-! ### Wakes (R407 to R411) -/

/-- The first abort point at or after instant `t`, with its instant. -/
def nextPoint (aps : List Nat) (t : Nat) : Option (Nat × Nat) :=
  ((List.range aps.length).map (fun i => (i + 1, aps.getD i 0))).find? (fun e => decide (t ≤ e.2))
/-- The longest undoing of an entry in ns: the cumulative times of Table 15.6. -/
def undoMax (target : PowerState) : Nat := if target = .drowse then 80000 else 142000
/-- The entry `e` abandoned at point `pt` at instant `a`, unless an earlier point abandons it already. -/
def abandon (e : Entry) (pt a ident f : Nat) : Entry :=
  if (e.abort.map (·.1)).getD 5 ≤ pt then e
  else { e with abort := some (pt, ident), endAt := a + f % (undoMax e.target + 1) }
/-- A wake event with its identity of Table 15.4: it abandons an entry at its next abort point, or follows it; in a lower-power
state, it starts a wake to ACTIVE. -/
def State.wakeEvent (s : State) (ident : Nat) : State := match s.pow.entry with
  | some e =>
    let f := s.takeFree
    let e' := match nextPoint e.aps s.now with
      | some q => abandon e q.1 q.2 ident f.1.toNat
      | none => e
    f.2.modPow (fun p => { p with entry := some { e' with woken := true } })
  | none => if s.pow.state = .active then s else s.modPow (fun p => { p with waking := some .active })

/-- Is the CMP domain of the halves on (Table 15.3)? -/
def State.cmpOn (s : State) : Bool := s.pow.state == .active
/-- Is the MEM domain on? -/
def State.memOn (s : State) : Bool := s.pow.state == .active || s.pow.state == .drowse
/-- Is the IOD domain on? -/
def State.iodOn (s : State) : Bool := s.memOn && !s.dead
/-- Can the host reach function `f`: it is present and in D0, the I/O die runs and the link is up (R316, R405)? -/
def State.hostSees (s : State) (f : Nat) : Bool := (s.func f).present && !(s.func f).conf.d3 && s.iodOn && s.dget kPcieState == 2
/-- ISLANDS_GATED (R418): in ACTIVE, the islands none of whose clusters a partition holds; below it, the CMP domain is off. -/
def State.islandsGated (s : State) : Nat :=
  bitsOf 16 (fun i => !s.cmpOn || (s.dget kIslandGating == 1 && (List.range 8).all (fun j => (s.partOf (8 * i + j)).isNone)))
/-- Is cluster `cl` switched on (R405, R418)? -/
def State.clusterOn (s : State) (cl : Nat) : Bool := !bit s.islandsGated (cl / 8)
/-- Is the entry's value in cores (Table 6.15), or does a write of it act on cores or leaf switches? -/
def coreEntry (k : Nat) : Bool := (List.range 8).any (fun n => [kNaState n, kNaPopRecord n, kNaRescaleRecord n, kNaOutlierMap n, kCoreCounters n, kCounterClear n].contains k) ||
  [kTestCommand, kRouteCommand, kRouteWeights].contains k
/-- Is the entry's value in slices or LPDDR6? -/
def memEntry (k : Nat) : Bool :=
  [kQueueGrants, kSyncGrants, kPageGrants, kQueueRecord, kQueueUsed, kQueueWaiters, kSyncKind, kSyncOwner, kSyncValue, kSyncPhase,
    kSyncWaiters, kConflictCounters, kConflictClear, kFrameAll, kSubchState, kSubchCe, kSubchUe, kSubchLastError, kSubchRetrains, kSubchTemp, kReadoutRecord].contains k ||
    k / 256 == 0x5000 || (List.range 8).any (fun n => k == kLedgerRecord n || k == kKeepCommand n) ||
    (List.range 32).any (fun q => k == kStreamSample q)
/-- Does a write of value `v` to the entry need a domain that is off (R406)? Image slots, queues, grants and frames lie in memory-side
units; neuron access, core counters, CREATE and SWAP reach cores. ENABLE and LOAD are wakes. -/
def State.domainOff (s : State) (k v : Nat) : Bool :=
  (List.range 8).any (fun n => k == kPartitionCommand n && ((!s.memOn && v != 2 && v != 3) || (!s.cmpOn && (v == 1 || v == 6)))) ||
    (!s.cmpOn && coreEntry k) || (!s.memOn && memEntry k)

/-- The common checks of a write to an entry, before its own: rights, access code, lock. The status and the state after. Assumption 56 [DEDUCED, unsafe]. -/
def State.writeCheck (s : State) (r : Requester) (k v : Nat) : Nat × State :=
  if !s.reqWrites r k v then (stAccess, s)
  else if s.locked k then (stAccess, s.dadd kLockedWrites 1)
  else if entryAccess k == .ro then (stAccess, s)
  else if s.domainOff k v then (stState, s)
  else (stOk, s)

/-- Does the management core answer dictionary requests (R415, R447)? -/
def State.answers (s : State) : Bool := s.rel.mgmtUp && !s.dead
/-- Is a request of type `op` (Table 13.5) for entry `k` performed in the present state? The boot ROM's recovery mode, bring-up and
FAILED each perform some (R380, R382, R459). -/
def State.gate (s : State) (op k : Nat) : Bool :=
  let i := k / 256
  let dev := s.dget kDeviceState
  if s.sec.recovery then (op == 1 && [0x1000, 0x2600, 0x2601].contains i) || (op == 2 && k == kFwChunk)
  else if dev = devBringup then op == 5 || (op != 2 && earlyIndex i)
  else if dev = devFailed then op == 5 || (op != 2 && earlyIndex i) || ((op == 1 || op == 3) && i / 256 == 0x23)
  else true
/-- Does the part answer the requester at all? The boot ROM serves mailboxes 0 to 7 and the rope (R459); firmware answers from step 3 of bring-up on, and in
mailboxes once the functions are up (R380, R381). -/
def State.hears (s : State) (r : Requester) : Bool := s.answers && (!s.sec.recovery || (reqVf r).isNone) &&
  (match s.floor.boot with
    | some b => decide (3 ≤ s.bootStep b) && (match r with
      | .mailbox _ => s.funcsUp
      | _ => true)
    | none => true)
/-- A write of value `v` to entry `k`: the common checks, then its own meaning `f`, which gives a status and a state; a refused write
changes nothing but the counters of its refusal. -/
def State.checked (s : State) (r : Requester) (k v : Nat) (f : State → Nat × State) : Nat × State :=
  let c := s.writeCheck r k v
  if c.1 = stOk then f c.2 else c
/-- A command that is a write of value `v` to entry `k`: the write, and its status answered. While the management core does not run,
nothing happens. -/
def State.typed (s : State) (r : Requester) (k v : Nat) (f : State → Nat × State) : State :=
  if !s.hears r then s
  else if !s.gate 2 k then s.answer r k stState
  else
    let o := s.checked r k v f
    o.2.answer r k o.1

end Sys2Proof.Machine
end

