-- ==== Sys2Proof/Machine/Image.lean ====
section
/-!
DEFINITION. Partitions and image slots (chapter 6): CREATE, LOAD, ENABLE, the disables, SWAP, UNLOAD, DESTROY, function
control, neuron access and counter clears; and the keep set (chapter 7).
-/

namespace Sys2Proof.Machine

/-- The other image slot. -/
def otherSlot (i : Nat) : Nat := 1 - i
/-- A partition's slot changed. -/
def State.setSlot (s : State) (n i : Nat) (f : Slot → Slot) : State := s.modPart n (fun p => modSlot p i f)
/-- Frames of partition `n` that hold no tile of its slots are free again (R273). -/
def State.sweepFrames (s : State) (n : Nat) : State :=
  let used := ((s.part n).slot0.tiles ++ (s.part n).slot1.tiles).flatMap (fun t => t.granules.map (· / 2 ^ 30))
  s.modMem (fun m => { m with owners := m.owners.filter (fun e => e.2 != n || used.contains e.1) })
/-- A slot emptied, its unshared memory freed (R169). -/
def State.emptySlot (s : State) (n i : Nat) (st : SlotState) : State :=
  (s.setSlot n i (fun _ => { state := st })).sweepFrames n
/-- May partition `n` take commands of a state (R162)? -/
def State.partIs (s : State) (n : Nat) (l : List PartState) : Bool := decide (n < 8) && l.contains (s.part n).state

/-! ### CREATE (R163, R418) -/

/-- A core that is switched on (R418): its memories have lost their contents. That they read as reset is the model's choice (assumption 2 [DESIGN CHOICE,
unsafe]); a LOAD writes them anew. -/
def State.coldCore (s : State) (c : Nat) : State :=
  ((s.clearAcc c).modCm (fun m => { m with
    neurons := mclear m.neurons (c * 16384) 16384
    omap := mclear m.omap (c * 2048) 2048
    pop := mclear m.pop (c * 32) 32
    resc := mclear m.resc (c * 32) 32
    guard := mclear m.guard (c * 512) 512
    counters := mclear m.counters (c * 256) 256 })).modCore c (fun k => { mode := k.mode })
/-- The clusters of the islands that a CREATE of these clusters switches on. -/
def State.wokenClusters (s : State) (cls : List Nat) : List Nat := (List.range 128).filter (fun cl => !s.clusterOn cl && cls.any (fun x => x / 8 == cl / 8))
/-- The islands are switched on, and their cores tested before the part answers (R418). -/
def State.switchIslands (s : State) (cls fails : List Nat) : State :=
  let s := s.each cls (fun s cl => (s.each (s.clCores cl) (fun s c => s.coldCore c)).modCluster cl (fun _ => {}))
  s.each cls (fun s cl => s.each (s.clCores cl) (fun s c => s.testCore c (!fails.contains c)))
/-- CREATE: the clusters of CLUSTER_MASK become the partition's, once their islands are on; `fails` are the cores that then fail their test. -/
def State.doCreate (s : State) (n : Nat) (fails : List Nat) : Nat × State :=
  let mask := s.dget (kClusterMask n)
  let cls := maskList 128 mask
  if !s.partIs n [.absent] then (stState, s)
  else if mask = 0 ∨ cls.any (fun c => (s.partOf c).isSome || (s.clCores c).isEmpty) then (stArgument, s)
  else (stOk, (s.switchIslands (s.wokenClusters cls) fails).modPart n (fun p =>
    { p with state := .created, mask := mask, active := none, slot0 := {}, slot1 := {} }))
/-- CREATE. -/
def execCreate (r : Requester) (n : CreateOp) (t : Nat) (s : State) : Res :=
  .next ((s.at t).typed r (kPartitionCommand n.part) 1 (fun s => s.doCreate n.part n.fails))

/-! ### Restarts at ENABLE and SWAP -/

/-- A scale group back on set 0 in the FIT state; what its last decided window showed stays. -/
def ScaleGroup.restart (g : ScaleGroup) : ScaleGroup := { g with cur := 0, next := [], nofit := false, last := 0 }
/-- The scale guard restarts (R109): set 0, FIT, counts and window from zero. The window starts again at a SWAP too, with a written GUARD_WINDOW: assumption 98 [DEDUCED, unsafe]. -/
def State.restartGuard (s : State) (n : Nat) : State :=
  let s := s.each (s.partCores n) (fun s c => s.clearGuard c)
  (s.modPart n (fun p => { p with win := { p.win with
    pos := 0
    len := s.eff (kGuardWindow n)
    first := 0
    fresh := true
    groups := p.win.groups.map (fun e => (e.1, e.2.restart)) } })).dset (kGroupsNofit n) 0
/-- A stream back on set 0 (R212, R217): its channels unanchored at an ENABLE or with a replaced tile; else its LEVEL and
DELTA channels, when it stood on another set, as after a scale-set switch. -/
def State.restartStream (s : State) (k : Nat) (fresh : Bool) (t : Tile) : State :=
  let back := decide ((s.stream k).grp.cur ≠ 0)
  let chans := if fresh then []
    else if back then (List.range (s.stNch t)).foldl (fun m c =>
      if 2 ≤ s.chField t c 0 1 then mmod dChannel m c (fun ch => { ch with anchored := false, switched := true }) else m) (s.stream k).chans
    else (s.stream k).chans
  s.modStream k (fun q => { q with grp := q.grp.restart, guard := [], chans := chans })
/-- Window state of a readout group at zero (R221). -/
def State.restartGroup (s : State) (g : Nat) : State := s.modGroup g (fun q => { q with window := [], rings := [], past := [] })
/-- Streams and groups of the ACTIVE slot restart; `fresh w` says which converters start anew. -/
def State.restartConverters (s : State) (n : Nat) (fresh : Nat → Bool) : State :=
  ((activeSlot (s.part n)).tiles.filter (fun t => t.kind == 4)).foldl (fun s t =>
    if t.owner < 32 then s.restartStream t.owner (fresh t.owner) t
    else if fresh t.owner then s.restartGroup (t.owner - 32) else s) s

/-- A slot of a partition without an ACTIVE one becomes ACTIVE: its image's core memory is loaded (R165). -/
def State.activate (s : State) (n i : Nat) : State :=
  let s := s.modPart n (fun p => { (modSlot p i (fun q => { q with state := .active })) with active := some i })
  s.each (s.imageCores n) (fun s c => s.loadCore (activeSlot (s.part n)) c)

/-! ### LOAD (R164, R487) -/

/-- A LOAD refused (R155): the slot goes to FAILED, its memory is freed, LOAD_ERROR tells why. -/
def State.failLoad (s : State) (n i code idx : Nat) : State :=
  let s := s.emptySlot n i .failed
  (s.modPart n (fun p => { p with loading := p.loading.filter (fun l => l.slot != i) })).dset (kLoadError n) (code * 2 ^ 24 + idx % 2 ^ 24)

/-- The staging check of R164. An IMAGE_LENGTH of 0 lies in no staging region: assumption 106 [DEDUCED, safe]. -/
def State.stagingOk (s : State) (r : Requester) (n a len : Nat) : Bool :=
  (framesOf a len).all (fun f => s.frameOwner f == 8 + n || ((reqVf r).isNone && s.frameOwner f == 0x10)) && decide (0 < len) &&
  decide (a + len ≤ s.frameCount * 2 ^ 30)

/-- The checks of phases 1 and 2 of R487, in order; `r` has asked. -/
def State.loadCheck (s : State) (r : Requester) (n i a len : Nat) : Fail :=
  if !s.stagingOk r n a len then some (0x10, 0xFFFFFF)
  else
    let h := s.lpRead a 256
    if !headerOk h len then some (1, 0xFFFFFF)
    else
      let sec := s.lpRead (a + 0x100) 256
      let tab := s.lpRead (a + hdrTable h) (32 * hdrTiles h)
      let tiles := (List.range (hdrTiles h)).map (tableTile tab)
      let p := s.part n
      let masks := maskMap sec
      let cores := (List.range 2048).filter (fun c => (mget dZero masks (c / 16)).testBit (c % 16))
      firstFail (
        (List.range (hdrTiles h)).map (fun j => (entryOk tab (hdrLen h) j, 1, j)) ++
        [(fieldAt h 0x40 8 == (tiles.map (fun t => granLen t.len)).foldl (· + ·) 0, 1, 0xFFFFFF),
         (hdrDigest h == shake256 (Machine.slice h 0 0xE0 ++ sec ++ tab), 2, 0xFFFFFF),
         (hdrMask h == p.mask && (List.range 128).all (fun c => bit (hdrMask h) c || mget dZero masks c == 0), 3, 0xFFFFFF),
         (cores.all s.corePresent, 4, 0xFFFFFF),
         (!hdrPlastic h || s.plasticLicensed, 0x0C, 0xFFFFFF),
         (decide (hdrStreams h ≤ (maskList 32 s.streamsPresent).length) && decide (hdrReadout h ≤ (maskList 256 s.groupsPresent).length), 0x0D, 0xFFFFFF)] ++
        (List.range (hdrTiles h)).map (fun j => (s.convFree n (tableTile tab j), 0x0D, j)) ++
        [(!hdrDelta h || baseOk h masks (slotAt p (otherSlot i)), 0x0E, 0xFFFFFF), (s.roomOk tiles, 0x0B, 0xFFFFFF)])

/-- The tiles placed and their frames taken; the slot LOADING, its first tile to land next. -/
def State.startLoad (s : State) (n i a : Nat) : State :=
  let h := s.lpRead a 256
  let tab := s.lpRead (a + hdrTable h) (32 * hdrTiles h)
  let tiles := placeTiles s.freeFrames ((List.range (hdrTiles h)).map (tableTile tab)) (0, 0, 0)
  let masks := maskMap (s.lpRead (a + 0x100) 256)
  let s := s.each (tiles.flatMap (fun t => t.granules.map (· / 2 ^ 30))).eraseDups (fun s f => s.setOwner f n)
  s.modPart n (fun p =>
    { (modSlot p i (fun _ => { state := .loading, hdr := h, masks := masks, tiles := tiles })) with loading := p.loading ++ [⟨i, a, 0⟩] })

/-- LOAD by a requester: accepted only for a slot that is EMPTY, LOADED or FAILED (R162), then checked and started. -/
def State.doLoad (s : State) (r : Requester) (n : Nat) : Nat × State :=
  let i := s.sel r (kImageSlot n)
  let st := (slotAt (s.part n) i).state
  if !s.partIs n [.created, .ready, .enabled] ∨ ¬ (st = .empty ∨ st = .loaded ∨ st = .failed) then (stState, s)
  else
    let a := s.dget (kImageAddr n)
    let s := (((s.emptySlot n i .loading).dset (kLoadError n) 0).dset (kLoadProgress n) 0)
    match s.loadCheck r n i a (s.dget (kImageLength n)) with
    | some f => (stOk, s.failLoad n i f.1 f.2)
    | none => (stOk, s.startLoad n i a)

/-- In a lower-power state and during the entry to one, ENABLE and LOAD are wakes: the command is performed, and answered, once the
part is ACTIVE (R406, R407, Table 15.4). -/
def State.orWake (s : State) (r : Requester) (tag : Option Nat) (n cmd : Nat) (f : State → Nat × State) : Option Nat × State :=
  let k := kPartitionCommand n
  let c := s.writeCheck r k cmd
  if c.1 ≠ stOk then (some c.1, c.2)
  else if s.pow.state = .active ∧ s.pow.entry = none then
    let o := f c.2
    (some o.1, o.2)
  else (none, (c.2.modPow (fun p => { p with deferred := p.deferred ++ [(r, n, cmd, tag)] })).wakeEvent (0x1400 + n))
/-- ENABLE or LOAD as a command, with its answer. -/
def State.wakeTyped (s : State) (r : Requester) (n cmd : Nat) (f : State → Nat × State) : State :=
  if !s.hears r then s
  else if !s.gate 2 (kPartitionCommand n) then s.answer r (kPartitionCommand n) stState
  else
    let o := s.orWake r none n cmd f
    match o.1 with
    | some code => o.2.answer r (kPartitionCommand n) code
    | none => o.2

/-- LOAD. -/
def execLoad (r : Requester) (n t : Nat) (s : State) : Res := .next ((s.at t).wakeTyped r n 2 (fun s => s.doLoad r n))

/-- Do the resident rows of a slot's cores exceed CACHE_RESIDENT_LIMIT (R153)? -/
def State.trims (s : State) (n : Nat) (sl : Slot) : Bool :=
  (List.range 2048).any (fun c => usesCore sl c && decide (1024 * s.eff (kCacheResidentLimit n) <
    32 * ((s.residentRows sl c).map (s.rowUnits sl c)).foldl (· + ·) 0))
/-- The slot reaches LOADED (R164, R167, R184): shared tiles of a delta's base beside its own, plastic rows with equal
copies, projections at generation 0, and the flags of R153 and R156. The first one of a partition becomes ACTIVE. -/
def State.finishLoad (s : State) (n i : Nat) : State :=
  let sl := slotAt (s.part n) i
  let base := slotAt (s.part n) (otherSlot i)
  let delta := hdrDelta sl.hdr
  let runs := if delta then [] else s.allRuns sl.tiles
  let s := runs.foldl (fun s u => match synTile sl u.core with
    | none => s
    | some t => s.each (List.range u.nRow) (fun s j =>
        let d := s.rowDir t (u.firstRow + j)
        s.tileWrite t (copyOff d 1) (s.tileRead t (copyOff d 0) (32 * rdLen d)))) s
  let trimmed := s.trims n sl
  let s := s.setSlot n i (fun q => { q with
    state := .loaded
    projs := if delta then base.projs else []
    origin := if delta then base.origin else hdrDigest q.hdr
    mismatch := Machine.slice q.hdr 0x50 16 != s.fpDigest.take 16
    trimmed := trimmed
    fresh := true })
  let s := s.modPart n (fun p => { p with loading := p.loading.filter (fun l => l.slot != i) })
  if (s.part n).state = .created then (s.activate n i).modPart n (fun p => { p with state := .ready }) else s

/-- A slot's own tiles with those of the base that a delta leaves in place (R167). -/
def withBase (sl base : Slot) : Slot :=
  if hdrDelta sl.hdr then
    { sl with tiles := sl.tiles ++ (base.tiles.filter (fun t => !sl.tiles.any (fun u => u.kind == t.kind && u.owner == t.owner))) }
  else sl

/-- TILE_LANDED (R487): the next tile of the oldest LOAD in progress is copied and checked; the last one brings the checks of
tiles against each other. `memErr` is a MEMORY_ERROR of its descriptor. -/
def State.landTile (s : State) (n : Nat) (l : Loading) (memErr : Bool) : State :=
  let sl := slotAt (s.part n) l.slot
  match sl.tiles[l.next]? with
  | none => s
  | some t =>
    let src := l.addr + t.off
    if memErr || (List.range ((t.len + 31) / 32)).any (fun j => s.wordBad (src + 32 * j)) || t.granules.any s.addrOut then s.failLoad n l.slot 0x0F l.next
    else
      let b := s.lpRead src t.len
      let s := (List.range t.granules.length).foldl (fun s j => s.lpWrite (t.granules.getD j 0) ((b.drop (2048 * j)).take 2048)) s
      let s := if t.kind = 4 ∧ 32 ≤ t.owner ∧ !slotHolds (slotAt (s.part n) (otherSlot l.slot)) t.owner then s.createCombine (t.owner - 32) else s
      let t := { t with count := fieldAt b 0x14 4 }
      let s := (s.setSlot n l.slot (fun q => { q with tiles := q.tiles.set l.next t })).dadd64 (kLoadProgress n) t.len
      match s.tileCheck sl.hdr t b l.next with
      | some f => s.failLoad n l.slot f.1 f.2
      | none =>
        if l.next + 1 < sl.tiles.length then
          s.modPart n (fun p => { p with loading := p.loading.map (fun q => if q.slot = l.slot then { q with next := l.next + 1 } else q) })
        else
          let mine := slotAt (s.part n) l.slot
          let base := slotAt (s.part n) (otherSlot l.slot)
          let full := withBase mine base
          match s.crossCheck n full base mine.tiles.length with
          | some f => s.failLoad n l.slot f.1 f.2
          | none => (s.setSlot n l.slot (fun _ => full)).finishLoad n l.slot
/-- TILE_LANDED. -/
def execTileLanded (n : Nat) (memErr : Bool) (t : Nat) (s : State) : Res :=
  let s := s.at t
  .next (match (s.part n).loading with
    | [] => s
    | l :: _ => s.landTile n l memErr)

/-! ### The keep set (R196 to R200) -/

/-- WBYTES of a kept projection (Table 7.9). -/
def keptBytes (wfmt nsyn : Nat) : Nat := ((if wfmt = 0 then (nsyn + 1) / 2 else nsyn) + 15) / 16 * 16
/-- LENGTH of a section (Table 7.8). -/
def sectLength (k : KeepSection) : Nat := 64 + (k.projs.map (fun p => 16 + keptBytes p.2.1 p.2.2.2.length)).foldl (· + ·) 0
/-- LENGTH of a bank (Table 7.7). -/
def bankLength (l : List KeepSection) : Nat := 64 + (l.map sectLength).foldl (· + ·) 0
/-- The weight bytes of a kept projection, in update-index order (Table 7.9). -/
def keptWeights (wfmt : Nat) (ws : List Nat) : Bytes := (List.range (keptBytes wfmt ws.length)).map (fun i =>
  if wfmt = 0 then BitVec.ofNat 8 (ws.getD (2 * i) 0 % 16 + 16 * (ws.getD (2 * i + 1) 0 % 16)) else BitVec.ofNat 8 (ws.getD i 0))
/-- A kept projection record with its weights (Table 7.9). -/
def keptRecord (p : Nat × Nat × Nat × List Nat) : Bytes :=
  natLe 2 p.1 ++ natLe 1 p.2.1 ++ [0#8] ++ natLe 2 p.2.2.1 ++ natLe 2 0 ++ natLe 4 p.2.2.2.length ++ natLe 4 (keptBytes p.2.1 p.2.2.2.length) ++
    keptWeights p.2.1 p.2.2.2
/-- A section (Table 7.8). -/
def sectBytes (k : KeepSection) : Bytes :=
  let h := natLe 1 k.part ++ [0#8] ++ natLe 2 k.projs.length ++ natLe 4 (sectLength k) ++ natLe 8 k.pitch ++ slice k.origin 0 32 ++ List.replicate 12 0#8
  let body := k.projs.flatMap keptRecord
  h ++ natLe 4 (crc32c (h ++ body)) ++ body
/-- SECT_OFFSET of partition `n` in a bank that holds the sections in the order of the list (Table 7.7); 0 for none. -/
def sectOffset (n : Nat) : Nat → List KeepSection → Nat
  | _, [] => 0
  | o, k :: r => if k.part = n then o else sectOffset n (o + sectLength k) r
/-- A keep-set bank (Table 7.7). -/
def bankBytes (seq : Nat) (l : List KeepSection) : Bytes :=
  let h := natLe 4 0x5045454B ++ natLe 2 1 ++ natLe 1 l.length ++ [0#8] ++ natLe 4 seq ++ natLe 4 (bankLength l) ++
    (List.range 8).flatMap (fun n => natLe 4 (sectOffset n 64 l)) ++ List.replicate 12 0#8
  h ++ natLe 4 (crc32c h) ++ l.flatMap sectBytes
/-- The kept projection record that bytes hold. -/
def recordOf (b : Bytes) : Nat × Nat × Nat × List Nat :=
  let wf := fieldAt b 2 1
  (fieldAt b 0 2, wf, fieldAt b 4 2, (List.range (fieldAt b 8 4)).map (fun u =>
    if wf = 0 then fieldAt b (16 + u / 2) 1 / 16 ^ (u % 2) % 16 else fieldAt b (16 + u) 1))
/-- The records of a section's body, as many as NPROJ says. -/
def recordsOf : Nat → Bytes → List (Nat × Nat × Nat × List Nat)
  | 0, _ => []
  | n + 1, b => recordOf b :: recordsOf n (b.drop (16 + fieldAt b 0x0C 4))
/-- The section that bytes hold, when SECT_CRC matches (R196). -/
def sectOf (b : Bytes) : Option KeepSection :=
  if crc32c (slice b 0 60 ++ b.drop 64) = fieldAt b 60 4 then
    some { part := fieldAt b 0 1, pitch := fieldAt b 8 8, origin := slice b 16 32, projs := recordsOf (fieldAt b 2 2) (b.drop 64) }
  else none
/-- Where bank `b` lies in the MRAM (Table 10.9). -/
def bankBase (b : Nat) : Nat := if b = 0 then 0x1000000 else 0x2800000
/-- Bytes of the MRAM. -/
def State.mramRead (s : State) (a n : Nat) : Bytes := readRange dByte s.mem.mram a n
/-- Bytes written to the MRAM. -/
def State.mramWrite (s : State) (a : Nat) (bs : Bytes) : State := s.modMem (fun m => { m with mram := writeRange dByte m.mram a bs })
/-- SEQUENCE and sections of bank `b`, when KMAGIC, HDR_CRC and every SECT_CRC match (R196). -/
def State.bankAt (s : State) (b : Nat) : Option (Nat × List KeepSection) :=
  let h := s.mramRead (bankBase b) 64
  if fieldAt h 0 4 ≠ 0x5045454B ∨ crc32c (Machine.slice h 0 60) ≠ fieldAt h 60 4 then none
  else
    let offs := ((List.range 8).map (fun n => fieldAt h (16 + 4 * n) 4)).filter (· != 0)
    let l := offs.filterMap (fun o => sectOf (s.mramRead (bankBase b + o) (fieldAt (s.mramRead (bankBase b + o) 64) 4 4)))
    if l.length = offs.length then some (fieldAt h 8 4, l) else none
/-- The current bank: the valid one with the higher SEQUENCE (R196). -/
def State.currentBank (s : State) : Option Nat := match s.bankAt 0, s.bankAt 1 with
  | some a, some b => if a.1 < b.1 then some 1 else some 0
  | some _, none => some 0
  | none, some _ => some 1
  | none, none => none
/-- The sections of the current bank. -/
def State.keepSections (s : State) : List KeepSection := match s.currentBank with
  | some b => ((s.bankAt b).map (·.2)).getD []
  | none => []
/-- SEQUENCE of the current bank. -/
def State.keepSequence (s : State) : Nat := match s.currentBank with
  | some b => ((s.bankAt b).map (·.1)).getD 0
  | none => 0
/-- The section of partition `n` in the current bank. -/
def State.keepSection (s : State) (n : Nat) : Option KeepSection := s.keepSections.find? (fun k => k.part == n)

/-- The stored weights of a projection in update-index order, read from the copy of a generation (Table 7.9). -/
def State.projWeights (s : State) (sl : Slot) (t : Tile) (g : Nat) : List Nat :=
  let m : SMap Nat := (s.runsOf t).foldl (fun m u => match synTile sl u.core with
    | none => m
    | some syn => (List.range u.nRow).foldl (fun m j =>
        let d := s.rowDir syn (u.firstRow + j)
        let bs := s.tileRead syn (copyOff d g) (32 * rdLen d)
        let ws := rowWeightSlots (s.tileField t 2 1) bs (bits (fieldAt bs 0 8) 60 52) 8
        let ub := s.tileField t (s.areaOff t 0x24 + 16 * (u.rowBase + j) + 12) 4
        (List.range ws.length).foldl (fun m i => mset dZero m (ub + i) (ws.getD i (0, 0, 0)).2.2) m) m) []
  (List.range (s.tileField t 0x10 4)).map (mget dZero m)
/-- The section that a commit of partition `n` writes. -/
def State.makeSection (s : State) (n : Nat) : KeepSection :=
  let sl := activeSlot (s.part n)
  { part := n
    pitch := (s.part n).seq.pitch
    origin := sl.origin
    projs := (projList sl).filterMap (fun p => (findTile sl 5 p).map (fun t =>
      (p, s.tileField t 2 1, projGen sl p, s.projWeights sl t (projGen sl p)))) }

/-- May partition `n` commit now (R198, R201)? The status. -/
def State.keepAllowed (s : State) (n : Nat) : Nat :=
  let sl := activeSlot (s.part n)
  let soon := match s.keep.lastAt with
    | some t => decide (s.now < t + s.eff (kKeepMinInterval n) * 1000000000)
    | none => false
  if !s.plasticLicensed then stAccess
  else if (s.part n).active.isNone || !hdrPlastic sl.hdr || s.keep.commit.isSome || soon then stState else stOk
/-- A commit of partition `n` started with new sections (R197); one that is too long is abandoned (R198). `reads` says that it reads the
partition's projections, as an erasure does not (R200). -/
def State.startCommit (s : State) (n : Nat) (reads : Bool) (l : List KeepSection) : State :=
  if 25165824 < bankLength l then s.dset (kKeepState n) 3
  else ({ s with keep := { s.keep with commit := some (n, l), reading := if reads then some n else none, read := 0 } }).dset (kKeepState n) 2
/-- The sections with partition `n`'s replaced. -/
def State.newSections (s : State) (n : Nat) (add : List KeepSection) : List KeepSection :=
  sortBy (·.part) (s.keepSections.filter (fun k => k.part != n) ++ add)
/-- A write of KEEP_COMMAND: 1 COMMIT (R197), 2 ERASE (R200). -/
def State.doKeep (s : State) (n v : Nat) : Nat × State :=
  let c := s.keepAllowed n
  if c = stOk then (stOk, s.startCommit n (v == 1) (s.newSections n (if v = 1 then [s.makeSection n] else []))) else (c, s)
/-- KEEP_COMMIT (R197). -/
def execKeepCommit (r : Requester) (n t : Nat) (s : State) : Res :=
  .next ((s.at t).typed r (kKeepCommand n) 1 (fun s => s.doKeep n 1))
/-- KEEP_ERASE (R200). -/
def execKeepErase (r : Requester) (n t : Nat) (s : State) : Res :=
  .next ((s.at t).typed r (kKeepCommand n) 2 (fun s => s.doKeep n 2))
/-- Does a keep-set commit of partition `n` still read projection `p` (R197, Table 7.4)? It reads them one by one. -/
def State.keepReads (s : State) (n p : Nat) : Bool :=
  s.keep.reading == some n && !((projList (activeSlot (s.part n))).take s.keep.read).contains p
/-- The commit that reads the projections of partition `n` has gone on: how many more it has read the spec leaves to its timing, so a
free value (assumption 11 [DESIGN CHOICE, safe]; assumption 86 [DESIGN CHOICE, safe]). -/
def State.readOn (s : State) (n : Nat) : State :=
  if s.keep.reading ≠ some n then s
  else
    let f := s.takeFree
    let left := (projList (activeSlot (s.part n))).length - s.keep.read
    { f.2 with keep := { f.2.keep with read := s.keep.read + f.1.toNat % (left + 1) } }
/-- The switches of the projections whose APPLY is complete (R194); one that a commit still reads waits (Table 7.4). -/
def State.applySwitches (s : State) (n : Nat) : State :=
  (s.readOn n).each (projList (activeSlot (s.part n))) (fun s p =>
    if (mget dProj (activeSlot (s.part n)).projs p).done && !s.keepReads n p then s.switchProj n p else s)
/-- KEEP_COMMIT_DONE (R197): the header of the bank that was not current is written, and that bank is current. -/
def execKeepCommitDone (t : Nat) (s : State) : Res :=
  let s := s.at t
  .next (match s.keep.commit with
    | none => s
    | some (n, l) =>
      let b := match s.currentBank with
        | some c => 1 - c
        | none => 0
      let s := s.mramWrite (bankBase b) (bankBytes (s.keepSequence + 1) l)
      let s := { s with keep := { s.keep with
        commit := none
        reading := none
        lastAt := some s.now } }
      let s := s.each (List.range 8) (fun s m => s.dadd (kKeepCommits m) 1)
      let s := s.dset (kKeepState n) 1
      if running (s.part n) then s else s.applySwitches n)
/-- A commit in progress is abandoned (R395, R197). -/
def State.abandonCommit (s : State) (n : Nat) : State := match s.keep.commit with
  | some (m, _) => if m = n then ({ s with keep := { s.keep with commit := none, reading := none } }).dset (kKeepState n) 3 else s
  | none => s

/-- Does a kept projection match the image's (R199)? -/
def State.keptMatches (s : State) (sl : Slot) (p : Nat × Nat × Nat × List Nat) : Bool := match findTile sl 5 p.1 with
  | none => false
  | some t => s.tileField t 2 1 == p.2.1 && s.tileField t 0x10 4 == p.2.2.2.length &&
      p.2.2.2.all (fun w => decide (s.tileField t 0x1C 1 ≤ w) && decide (w ≤ s.tileField t 0x1D 1))
/-- The weights of one projection restored into both copies, generation 0 (R199). -/
def State.restoreProj (s : State) (n i : Nat) (p : Nat × Nat × Nat × List Nat) : State :=
  let sl := slotAt (s.part n) i
  match findTile sl 5 p.1 with
  | none => s
  | some t =>
    let wf := s.tileField t 2 1
    let s := (s.runsOf t).foldl (fun s u => match synTile sl u.core with
      | none => s
      | some syn => s.each (List.range u.nRow) (fun s j =>
          let d := s.rowDir syn (u.firstRow + j)
          let bs := s.tileRead syn (copyOff d 0) (32 * rdLen d)
          let ws := rowWeightSlots wf bs (bits (fieldAt bs 0 8) 60 52) 8
          let ub := s.tileField t (s.areaOff t 0x24 + 16 * (u.rowBase + j) + 12) 4
          let out := (List.range ws.length).foldl (fun b k =>
            let e := ws.getD k (0, 0, 0)
            putWeight wf b e.1 e.2.1 (p.2.2.2.getD (ub + k) 0)) bs
          (s.tileWrite syn (copyOff d 0) out).tileWrite syn (copyOff d 1) out)) s
    (s.tileWriteHdr t 0x06 [0, 0]).setSlot n i (fun q => { q with projs := mmod dProj q.projs p.1 (fun x => { x with gen := 0, moved := true, told := true, ranges := [] }) })
/-- The restore of the keep set at the first ENABLE of a slot (R199). -/
def State.keepRestore (s : State) (n i : Nat) : State :=
  let sl := slotAt (s.part n) i
  if !sl.fresh || !hdrPlastic sl.hdr then s
  else if s.eff (kKeepRestore n) = 0 then s.dset (kKeepRestoreResult n) 4
  else match s.keepSection n with
    | none => s.dset (kKeepRestoreResult n) 3
    | some k =>
      if k.origin == sl.origin && k.projs.length == (projList sl).length && k.projs.all (s.keptMatches sl) then
        (k.projs.foldl (fun s p => s.restoreProj n i p) s).dset (kKeepRestoreResult n) 1
      else s.dset (kKeepRestoreResult n) 2

/-! ### ENABLE (R165) -/

/-- The clock of wake-on-event mode (R177): clamped by the profile of the partition's halves. One half in the efficiency profile bounds the clock of all its clusters: assumption 107 [DEDUCED, unsafe]. -/
def State.woeActual (s : State) (n : Nat) : Nat :=
  let eff := (partClusters (s.part n)).any (fun c => (if halfOf c = 0 then s.pow.west.profile else s.pow.east.profile) == 1)
  min (s.eff (kWoeClock n)) (if eff then 200 else 500)
/-- Core memory lost in retention is refilled (R277). -/
def State.refill (s : State) (n : Nat) : State :=
  let lost := s.pow.retLost.filter (fun c => (s.part n).mask.testBit c)
  let s := s.each ((s.imageCores n).filter (fun c => lost.contains (clusterOf c))) (fun s c => s.loadSpare c)
  s.modPow (fun p => { p with retLost := p.retLost.filter (fun c => !lost.contains c) })

/-- The readout groups that the ACTIVE slot of partition `n` holds. -/
def State.partGroups (s : State) (n : Nat) : List Nat :=
  ((activeSlot (s.part n)).tiles.filter (fun t => t.kind == 4 && decide (32 ≤ t.owner))).map (fun t => t.owner - 32)
/-- Does a hold keep the outputs of partition `n` (R62, R450)? -/
def State.holding (s : State) (n : Nat) : Bool := (s.part n).hold || (s.part n).hostHold
/-- GROUP_ENABLE bit of group `g`. -/
def State.groupWanted (s : State) (g : Nat) : Bool := bit (s.dget kGroupEnable) g
/-- The enables of the streams that partition `n` holds take effect (R227). -/
def State.forceStreams (s : State) (n : Nat) : State :=
  s.each ((List.range 32).filter (fun k => s.holder k == some n)) (fun s k =>
    let on := s.dget (kStreamEnable k) == 1
    if (s.stream k).force = on then s
    else s.modStream k (fun q => if on then { q with force := true, chans := [], staleRun := 0, mode := .waiting, heldSeq := none }
      else { q with force := false, pending := none, before := none }))
/-- The enables of the readout groups that partition `n` holds take effect as it stops (R229, R231). -/
def State.forceGroups (s : State) (n : Nat) : State :=
  s.each ((List.range 256).filter (fun g => s.holder (32 + g) == some n)) (fun s g =>
    let on := s.groupWanted g
    if (s.rgroup g).force = on then s
    else s.modGroup g (fun q => if on then { q with force := true, since := 0, upTo := none, window := [], rings := [] }
      else { q with force := false, upTo := some (s.pitchOf n) }))
/-- ENABLE of a READY partition (R28, R165): the schedule, windows, cairn cycle and converters start, and the first pitch opens
at the first tick. -/
def State.startPart (s : State) (n : Nat) : State :=
  let p := s.part n
  let i := p.active.getD 0
  let s := (s.keepRestore n i).refill n
  let s := s.release (fun k => k == kWoeClock n || (k / 256 == 0x2110 + n && k != kEpochLength n && k != kEpochOrigin n))
  let s := s.setSlot n i (fun q => { q with fresh := false })
  let woe := hdrWoe (activeSlot p).hdr
  let st0 := s.dget (kStationEnable n)
  let st := if s.plasticLicensed then st0 else st0 / 4 * 4
  let s := (s.dset (kStationEnable n) st).dset (kCoreMode n) (if woe then 1 else 0)
  let clk := s.woeActual n
  let s := s.dset (kWoeClockActual n) (if woe then clk else 0)
  let s := s.each (s.partCores n) (fun s c => s.modCore c (fun k => { k with led := {} }))
  let s := s.modPart n (fun p => { p with
    state := .enabled
    disable := none
    stations := st
    woe := woe
    woeClock := clk
    hold := false
    quiesced := false
    contLeft := none
    seq := { p.seq with
      isOpen := false
      ticks := 0
      enabledAt := s.now
      lastTick := s.now
      everOpen := false
      pendTick := none
      pendMerge := []
      merged := []
      quadP0 := s.clk.quadExt
      quadJ := 1
      quadAbs := 0
      slew := 0 }
    ledger := { p.ledger with depth := s.dget kLedgerDepth }
    win := { p.win with cycle := none, cycleDue := true, interval := s.dget kCairnInterval } })
  let s := ((s.restartGuard n).restartConverters n (fun _ => true)).dset (kCadenceState n) 1
  let s := if s.holding n then s.each (s.partGroups n) (fun s g => s.modGroup g (fun q => { q with held := q.held.or q.last })) else s
  let s := s.each (partHalves p) (fun s h => s.joinHalf n h)
  s.each ((activeSlot p).tiles.filter (fun t => t.kind == 4) |>.map (·.owner)) (fun s k =>
    if k < 32 then s.modStream k (fun q => { q with staleRun := 0, lostDue := false })
    else s.modGroup (k - 32) (fun q => { q with since := 0, upTo := none }))

/-- ENABLE as a command. -/
def State.doEnable (s : State) (n : Nat) : Nat × State :=
  let src := s.dget (kCadenceSource n)
  if !s.partIs n [.ready] ∨ src = 0 ∨ (src = 3 ∧ s.dget (kQuadCounts n) = 0) then (stState, s) else (stOk, s.startPart n)
/-- ENABLE. -/
def execEnable (r : Requester) (n t : Nat) (s : State) : Res := .next ((s.at t).wakeTyped r n 3 (fun s => s.doEnable n))

/-! ### Swaps (R166 to R168) -/

/-- Pending event records of core `c` discarded and counted (R173, R168). -/
def State.discardPending (s : State) (c : Nat) : State :=
  let cl := clusterOf c
  let l := (s.cluster cl).lds.filter (fun e => e.core == c % 16)
  let s := s.absorbCount c 0x8C ((s.core c).ring.length + l.length)
  (s.modCore c (fun k => { k with ring := [] })).modCluster cl (fun q => { q with lds := q.lds.filter (fun e => e.core != c % 16) })

/-- An APPLY of the partition in progress (R191). -/
def applying (sl : Slot) : Bool := sl.projs.any (fun e => e.2.apply)

/-- A core declared failed in the pitch whose belay swaps to a complete image (R452): its spare takes its place for the copy to load, and nothing is replayed.
While its cluster controller restarts (R446) the takeover waits, and is cold. -/
def State.swapTakes (s : State) (c : Nat) : State := match (s.core c).catchUp with
  | none => s
  | some u =>
    if (s.cluster (clusterOf c)).restarting.isSome then s.modCore c (fun k => { k with catchUp := some { u with cold := true } })
    else ((s.spareTakes c u.slot).dadd kTakeovers 1).modCore c (fun k => { k with mode := .live, catchUp := none })
/-- The swap takes effect (R166 to R168): the inactive LOADED slot is ACTIVE. A delta keeps core memory and pending events and
drops what replaced tiles left in caches; a complete image is copied into the cores, which holds the next OPEN of an ENABLED
partition (`copy`). A pending SWAP finds the image that its slot then holds: assumption 103 [DEDUCED, unsafe]. -/
def State.swapNow (s : State) (n : Nat) (copy : Bool) : State :=
  match (s.part n).active with
  | none => s
  | some i =>
    let j := otherSlot i
    let sl := slotAt (s.part n) j
    if sl.state ≠ .loaded ∨ ((s.part n).state = .enabled ∧ hdrWoe sl.hdr ≠ (s.part n).woe) then s.modPart n (fun p => { p with pendSwap := false })
    else
      let delta := hdrDelta sl.hdr
      let old := slotAt (s.part n) i
      let replaced := fun (k o : Nat) => (findTile sl k o).map (·.granules) != (findTile old k o).map (·.granules)
      let shared := (projList sl).filter (fun p => !replaced 5 p)
      let s := s.modPart n (fun p =>
        { (modSlot (modSlot p i (fun q => { q with state := .loaded })) j (fun q => { q with
            state := .active
            trimmed := s.trims n sl
            projs := shared.foldl (fun m p => mset dProj m p (mget dProj old.projs p)) q.projs })) with active := some j, pendSwap := false })
      let s := s.restartGuard n
      if delta then
        let s := s.each (s.imageCores n) (fun s c => if replaced 1 c then s.modCore c (fun k => { k with
          cache := k.cache.filter (fun o => o.kind == CacheKind.prick)
          awaited := s.residentRows sl c
          reads := []
          deferred := [] }) else s)
        s.restartConverters n (fun w => replaced 4 w)
      else
        let s := s.each (s.partCores n) (fun s c => (s.discardPending c).modCore c (fun k => { k with
          reads := []
          deferred := []
          cairn := {}
          catchUp := if k.mode = .failed then k.catchUp else none
          mode := if k.mode = .excused then .live else k.mode }))
        let s := (s.each (s.partCores n) (fun s c => s.swapTakes c)).modRel (fun r => { r with
          replays := r.replays.filter (fun c => !(s.partCores n).contains c) })
        let s := s.each (s.imageCores n) (fun s c => s.loadCore sl c)
        let s := s.restartConverters n (fun _ => true)
        s.modPart n (fun p => { p with swapCopy := copy, win := { p.win with cycle := none, cycleDue := true, interval := s.dget kCairnInterval } })

/-- SWAP as a command (R166, R176): at once in READY, pending in ENABLED; a later SWAP cancels one that waits. A SWAP in READY waits while an APPLY is in progress (Table 7.4): assumption 102 [DEDUCED, unsafe]. -/
def State.doSwap (s : State) (n : Nat) : Nat × State :=
  let p := s.part n
  match p.active with
  | none => (stState, s)
  | some i =>
    let sl := slotAt p (otherSlot i)
    if !s.partIs n [.ready, .enabled] then (stState, s)
    else if p.pendSwap then (stOk, s.modPart n (fun p => { p with pendSwap := false }))
    else if sl.state ≠ .loaded ∨ (p.state = .enabled ∧ hdrWoe sl.hdr ≠ hdrWoe (slotAt p i).hdr) then (stState, s)
    else if p.state = .ready ∧ !applying (activeSlot p) then (stOk, s.swapNow n false)
    else (stOk, s.modPart n (fun p => { p with pendSwap := true }))
/-- SWAP. -/
def execSwap (r : Requester) (n t : Nat) (s : State) : Res := .next ((s.at t).typed r (kPartitionCommand n) 6 (fun s => s.doSwap n))

/-- May a pending swap take effect outside a belay: the partition READY and no APPLY in progress (R166)? -/
def State.swapDue (s : State) (n : Nat) : Bool :=
  (s.part n).pendSwap && (s.part n).state == PartState.ready && !applying (activeSlot (s.part n))
/-- SWAP_TAKE_EFFECT (R166): with the partition disabled, once no APPLY is in progress; at belays the swap is part of the
belay. -/
def execSwapTakeEffect (n t : Nat) (s : State) : Res :=
  let s := s.at t
  .next (if s.swapDue n then s.swapNow n false else s)
/-- SWAP_COPY_DONE (R168): the held OPEN may proceed. -/
def execSwapCopyDone (n t : Nat) (s : State) : Res := .next ((s.at t).modPart n (fun p => { p with swapCopy := false }))

/-! ### UNLOAD, DESTROY (R169) -/

/-- UNLOAD of the slot that the requester selects: refused for an ACTIVE slot of a running partition; the ACTIVE slot of a READY
partition leaves it CREATED. A SWAP that waits for the slot is dropped: assumption 103 [DEDUCED, unsafe]. -/
def State.doUnload (s : State) (r : Requester) (n : Nat) : Nat × State :=
  let i := s.sel r (kImageSlot n)
  let p := s.part n
  if !s.partIs n [.created, .ready, .enabled] ∨ (p.active = some i ∧ p.state = .enabled) then (stState, s)
  else
    let act := p.active == some i
    let s := (s.emptySlot n i .empty).modPart n (fun p => { p with loading := p.loading.filter (fun l => l.slot != i) })
    (stOk, if act then s.modPart n (fun p => { p with active := none, state := .created, pendSwap := false })
      else s.modPart n (fun p => { p with pendSwap := false }))
/-- UNLOAD. -/
def execUnload (r : Requester) (n t : Nat) (s : State) : Res := .next ((s.at t).typed r (kPartitionCommand n) 7 (fun s => s.doUnload r n))

/-- DESTROY: both slots and the clusters are freed, and CLUSTER_MASK reads zero. -/
def State.doDestroy (s : State) (n : Nat) : Nat × State :=
  if !s.partIs n [.created, .ready] then (stState, s)
  else
    let s := (s.emptySlot n 0 .empty).emptySlot n 1 .empty
    let s := s.modPart n (fun p => { p with state := .absent, mask := 0, active := none, loading := [], pendSwap := false, waiting := [], clears := [] })
    (stOk, s.dset (kClusterMask n) 0)
/-- DESTROY. -/
def execDestroy (r : Requester) (n t : Nat) (s : State) : Res := .next ((s.at t).typed r (kPartitionCommand n) 8 (fun s => s.doDestroy n))

/-! ### Disables (R170 to R173) -/

/-- Is the entry one whose written value waits for the belay of partition `n` (R29, R144, R202, R231)? -/
def State.belayKey (s : State) (n k : Nat) : Bool :=
  let i := k / 256
  (i == 0x2110 + n && k != kEpochLength n && k != kEpochOrigin n) || i == 0x3050 + 0x100 * n || i == 0x3060 + 0x100 * n ||
    s.heldStreamIndex n i
/-- Is the entry one whose written value still waits for partition `n` when it stops (R29, R113, R144, R202, R231)? With no pitch to come it is
in force at once; EPOCH_LENGTH and EPOCH_ORIGIN wait for their boundary (R61). Assumption 82 [DEDUCED, unsafe]. -/
def State.stopKey (s : State) (n k : Nat) : Bool := s.belayKey n k || k / 256 == 0x3040 + 0x100 * n || k == kWoeClock n
/-- A disable takes effect (R173, R175): pending events are discarded, a catch-up is abandoned with its spare in service, and
the partition is READY. -/
def State.disableEffect (s : State) (n : Nat) : State :=
  let p := s.part n
  let s := s.each (s.partCores n) (fun s c => (s.discardPending c).modCore c (fun k => { k with
    isOpen := false
    intake := []
    mode := if k.mode = .excused then .live else k.mode
    catchUp := if k.mode = .excused then none else k.catchUp }))
  let s := s.modRel (fun r => { r with replays := r.replays.filter (fun c => !(s.partCores n).contains c) })
  let s := s.dset (kDisablePitch n) p.seq.pitch
  let s := if s.dget (kCadenceState n) = 2 then s.dset (kCadenceState n) 1 else s
  let s := s.modPart n (fun p => { p with
    state := .ready
    disable := none
    hold := false
    swapCopy := false
    contLeft := none
    seq := { p.seq with isOpen := false, pendTick := none, pendMerge := [], merged := [], absorbAt := none, truncAt := none } })
  let adapt := s.eff (kCacheAdapt n)
  let limit := s.eff (kCacheResidentLimit n)
  ((((s.release (s.stopKey n)).settleCaches n adapt limit).forceStreams n).forceGroups n).applySwitches n
/-- A belay-form disable accepted: at once with no pitch open (R170). -/
def State.disableBelay (s : State) (n : Nat) : State :=
  if (s.part n).seq.isOpen then s.modPart n (fun p => { p with state := .disabling, disable := some (p.disable.getD .belay) }) else s.disableEffect n
/-- DISABLE accepted or refused (R162). -/
def State.doDisable (s : State) (n : Nat) : Nat × State := if s.partIs n [.enabled] then (stOk, s.disableBelay n) else (stState, s)
/-- DISABLE. -/
def execDisable (r : Requester) (n t : Nat) (s : State) : Res :=
  .next ((s.at t).typed r (kPartitionCommand n) 4 (fun s => s.doDisable n))
/-- An immediate-form disable accepted (R171): ABSORB goes to every cluster. -/
def State.disableAbsorb (s : State) (n : Nat) : State :=
  if (s.part n).seq.isOpen then
    (s.modPart n (fun p => { p with state := .disabling, disable := some .now, seq := { p.seq with absorbAt := some (p.seq.absorbAt.getD s.now) } })).ledgerFlag n 2
  else s.disableEffect n
/-- DISABLE_NOW accepted or refused (R162). -/
def State.doDisableNow (s : State) (n : Nat) : Nat × State :=
  if s.partIs n [.enabled, .disabling] then (stOk, s.disableAbsorb n) else (stState, s)
/-- DISABLE_NOW. -/
def execDisableNow (r : Requester) (n t : Nat) (s : State) : Res :=
  .next ((s.at t).typed r (kPartitionCommand n) 5 (fun s => s.doDisableNow n))

/-! ### Function control (R174, R201) -/

/-- A write of STATION_ENABLE (R170, R174): it takes effect at the next belay; at once while the partition does not run; between
pitches a cleared bit stops its function at once. Bits above 3 are reserved (R6). A bit set while the partition does not run acts at once: assumption 104 [DEDUCED, unsafe]. -/
def State.doStationEnable (s : State) (n v : Nat) : Nat × State :=
  let old := s.dget (kStationEnable n)
  let v := v % 16
  if !s.plasticLicensed && ((bit v 0 && !bit old 0) || (bit v 1 && !bit old 1)) then (stAccess, s)
  else
    let s := s.dset (kStationEnable n) v
    (stOk, s.modPart n (fun p => { p with stations := if !running p then v else if p.seq.isOpen then p.stations else p.stations &&& v }))
/-- STATION_ENABLE. -/
def execStationEnable (r : Requester) (n v t : Nat) (s : State) : Res :=
  .next ((s.at t).typed r (kStationEnable n) v (fun s => s.doStationEnable n v))

/-- Remote records of partition `n` at EMIT and in the edge routers discarded (Table 6.11). Spike words that still wait at EMIT, and hauls already launched: assumption 105 [DEDUCED, unsafe]. -/
def State.dropRemoteOut (s : State) (n : Nat) : State :=
  let atEmit := fun e => ((s.partCores n).map (fun c => (((s.core c).openHauls.map (fun o => if o.dst = 2048 + e then o.remotes.length else 0)).foldl (· + ·) 0))).foldl (· + ·) 0
  let gone := fun e => atEmit e + (s.remBuf e n).out.length
  let g1 := gone 1
  let g2 := gone 2
  let s := s.each (s.partCores n) (fun s c => s.modCore c (fun k => { k with openHauls := k.openHauls.filter (fun o => decide (o.dst < 2048)) }))
  (((s.modRem 1 n (fun b => { b with out := [] })).countRem 1 n 5 g1).modRem 2 n (fun b => { b with out := [] })).countRem 2 n 5 g2
/-- Buffered remote records not yet injected discarded. -/
def State.dropRemoteIn (s : State) (n : Nat) : State :=
  let k1 := (s.remBuf 1 n).inb.length
  let k2 := (s.remBuf 2 n).inb.length
  (((s.modRem 1 n (fun b => { b with inb := [] })).countRem 1 n 5 k1).modRem 2 n (fun b => { b with inb := [] })).countRem 2 n 5 k2
/-- TRACE of partition `n` stops at once: the updates of the spikes that wait at EMIT are discarded and counted (Table 6.11, R195). -/
def State.dropTrace (s : State) (n : Nat) : State :=
  if !bit (s.part n).stations 0 then s
  else s.each (s.partCores n) (fun s c =>
    s.absorbCount c 0x88 (((s.core c).emitQ.map (fun e => s.postUpdates (activeSlot (s.part n)) c e.q)).foldl (· + ·) 0))
/-- A write of STATION_DISABLE_NOW (Table 6.11). Bits above 3 name no function and do nothing: assumption 77 [DEDUCED, safe]. -/
def State.doStationNow (s : State) (n v : Nat) : Nat × State :=
  let v := v % 16
  let old := s.dget (kStationEnable n)
  let s := if bit v 0 then s.dropTrace n else s
  let s := s.dset (kStationEnable n) (old - (old &&& v))
  let s := s.modPart n (fun p => { p with stations := p.stations - (p.stations &&& v) })
  let s := if bit v 1 then s.each (projList (activeSlot (s.part n))) (fun s p => s.abandonApply n p) else s
  let s := if bit v 2 then s.dropRemoteOut n else s
  (stOk, if bit v 3 then s.dropRemoteIn n else s)
/-- STATION_DISABLE_NOW. -/
def execStationDisableNow (r : Requester) (n v t : Nat) (s : State) : Res :=
  .next ((s.at t).typed r (kStationDisableNow n) v (fun s => s.doStationNow n v))

/-! ### Neuron access (R178, R70, R104, R439) -/

/-- Is NA_TARGET in a core of the partition's image? -/
def State.naTargetOk (s : State) (n g : Nat) : Bool :=
  decide (g < 2 ^ 25) && (s.part n).mask.testBit (clusterOf (g / 16384)) && usesCore (activeSlot (s.part n)) (g / 16384)
/-- COUNT of a core's NEURON tile. -/
def State.popCountOf (s : State) (n c : Nat) : Nat := match neuTile (activeSlot (s.part n)) c with
  | some t => t.count
  | none => 0
/-- Do enabled positions of the core use record `i`? -/
def State.recUsed (s : State) (c i : Nat) : Bool := (s.enabledPos c).any (fun q => swPop (s.neuron (c * 16384 + q)) == i)
/-- The value that a neuron access reads. -/
def State.naRead (s : State) (sub g : Nat) : Bytes :=
  let c := g / 16384
  let i := c * 32 + swPop (s.neuron g)
  if sub = 2 then natLe 8 (s.neuron g).toNat
  else if sub = 3 then natLe 32 (mget dZero s.cm.pop i)
  else if sub = 4 then natLe 64 (rsClear (mget dZero s.cm.resc i))
  else (List.range 2048).flatMap (fun k => natLe 2 (s.omapAt c k).toNat)
/-- How many scale groups the records that enabled positions use name (R103), with record `i` of core `c` replaced by `v`. -/
def State.groupsAfter (s : State) (n c i v : Nat) : Nat :=
  ((s.imageCores n).flatMap (fun d => ((List.range 32).filter (fun j => s.recUsed d j)).map (fun j =>
    rsGroup (if d == c && j == i then v else mget dZero s.cm.resc (d * 32 + j))))).eraseDups.length
/-- May the written value stand (R69, R70, R100, R103)? -/
def State.naWriteOk (s : State) (n sub g : Nat) (b : Bytes) : Bool :=
  let c := g / 16384
  let i := swPop (s.neuron g)
  let v := leNat b
  if sub = 2 then
    let w := BitVec.ofNat 64 v
    swOk w (s.popCountOf n c) (mget dZero s.cm.pop (c * 32 + swPop w))
  else if sub = 3 then decide (i < s.popCountOf n c) && popOk v &&
    (s.enabledPos c).all (fun q => swPop (s.neuron (c * 16384 + q)) != i || fle (fwiden (swAdapt (s.neuron (c * 16384 + q)))) (fwiden (popMax v)))
  else if sub = 4 then decide (i < s.popCountOf n c) && (!s.recUsed c i || (rescOk v &&
    (s.imageCores n).all (fun d => (List.range 32).all (fun j => (d == c && j == i) || !s.recUsed d j ||
      rsGroup (mget dZero s.cm.resc (d * 32 + j)) != rsGroup v || mget dZero s.cm.resc (d * 32 + j) == v)) &&
    s.groupsAfter n c i v == hdrScale (activeSlot (s.part n)).hdr))
  else omapOk ((List.range 2048).map (fun k => BitVec.ofNat 16 (fieldAt b (2 * k) 2)))
/-- A write into the NEURON tile of the ACTIVE slot, which keeps the records in force (R439). -/
def State.tileKeep (s : State) (n c o : Nat) (b : Bytes) : State := match neuTile (activeSlot (s.part n)) c with
  | some t => s.tileWrite t o b
  | none => s
/-- The write of a neuron access; reserved bytes of an unused rescale record, which R103 does not check, are ignored (R6). -/
def State.naWrite (s : State) (n sub g : Nat) (b : Bytes) : State :=
  let c := g / 16384
  let i := swPop (s.neuron g)
  if sub = 2 then s.setNeuron g (BitVec.ofNat 64 (leNat b))
  else if sub = 3 then (s.modCm (fun m => { m with pop := mset dZero m.pop (c * 32 + i) (leNat b) })).tileKeep n c (0x20000 + 32 * i) b
  else if sub = 4 then (s.modCm (fun m => { m with resc := mset dZero m.resc (c * 32 + i) (rsClear (leNat b)) })).tileKeep n c (0x20400 + 64 * i)
    (natLe 64 (rsClear (leNat b)))
  else (s.each (List.range 2048) (fun s k => s.modCm (fun m => { m with
      omap := mset dOmap m.omap (c * 2048 + k) (BitVec.ofNat 16 (fieldAt b (2 * k) 2)) }))).tileKeep n c 0x20C00 b

/-- Length of an accessed value. -/
def naLength (sub : Nat) : Nat := if sub = 2 then 8 else if sub = 3 then 32 else if sub = 4 then 64 else 4096
/-- Key of a neuron-access entry. -/
def naKey (n sub : Nat) : Nat := kNaTarget n - 1 + sub
/-- Is the target's core one whose memory no slot holds any more: it has failed, or is lost? -/
def State.naGone (s : State) (g : Nat) : Bool := (s.core (g / 16384)).mode == CoreMode.failed || (s.core (g / 16384)).mode == CoreMode.lost
/-- An internal error of the dictionary, met at core `c` (status HARDWARE, R360): it is counted, and reported to fault handling with the code, severity
and detail that no rule gives (assumption 11 [DESIGN CHOICE, safe]). -/
def State.internalError (s : State) (n c : Nat) : State :=
  let a := s.takeFree
  let b := a.2.takeFree
  (b.2.dadd kDictErrors 1).reportUnit (a.1.toNat % 2 ^ 16) (b.1.toNat % 4) 1 (s.physCore c) (some n) (b.1.toNat / 4 % 2 ^ 32)
/-- The refusal of a neuron access. -/
def State.naRefuse (s : State) (n : Nat) (q : NeuronReq) (code : Nat) : State :=
  let s := s.dset (kNaStatus n) 3
  match q.data with
  | none => s.reply q.req (if q.sub = 0 then 3 else 1) code (q.tag.getD 0) (entryHead (naKey n q.sub))
  | some _ => s.writeAnswer q.req q.tag (naKey n q.sub) 0 code
/-- A neuron access performed (R178): checked, done, answered; NA_STATUS tells the outcome. An access to a core that has failed is the
internal error that status HARDWARE names: assumption 113 [DESIGN CHOICE, unsafe]. -/
def State.naPerform (s : State) (n : Nat) (q : NeuronReq) : State :=
  let k := naKey n q.sub
  if !s.naTargetOk n q.target then s.naRefuse n q stArgument
  else if s.naGone q.target then (s.internalError n (q.target / 16384)).naRefuse n q stHardware
  else match q.data with
    | none =>
      let s := s.dset (kNaStatus n) 2
      if q.sub = 0 then s.readIndexNew q.req (q.tag.getD 0) (k / 256) q.off
        ([(0, natLe 1 6), (1, natLe 4 q.target)] ++ [2, 3, 4, 5].map (fun i => (i, s.naRead i q.target)) ++ [(6, natLe 1 2)]) []
      else s.readNew q.req (q.tag.getD 0) k q.off q.maxlen (s.naRead q.sub q.target)
    | some b =>
      if s.naWriteOk n q.sub q.target b then ((s.naWrite n q.sub q.target b).dset (kNaStatus n) 2).writeAnswer q.req q.tag k b.length stOk
      else s.naRefuse n q stArgument
/-- A neuron access requested: it waits for the gap while the partition runs, and is performed at once otherwise. -/
def State.naRequest (s : State) (n : Nat) (q : NeuronReq) : State :=
  if running (s.part n) then
    (s.modPart n (fun p => { p with waiting := p.waiting ++ [q] })).dset (kNaStatus n) 1
  else s.naPerform n q
/-- NEURON_ACCESS (R178): a request through 0x3n04. -/
def execNeuronAccess (r : Requester) (n sub : Nat) (data : Option Bytes) (t : Nat) (s : State) : Res :=
  let s := s.at t
  let k := naKey n sub
  .next (if !s.hears r then s
    else if !s.gate (if data.isSome then 2 else 1) k then s.answer r k stState
    else if sub < 2 ∨ 5 < sub ∨ 8 ≤ n then s.answer r k stAbsent
    else if !s.reqReads r k then s.answer r k stAccess
    else if data.any (fun b => b.length != naLength sub) then s.answer r k stLength
    else if s.domainOff k 0 then s.answer r k stState
    else (if data.isSome then s else s.counted).naRequest n { req := r, sub := sub, target := s.sel r (kNaTarget n), data := data })
/-- NEURON_ACCESS_PERFORM (R70): in the gap, the oldest waiting access is checked and performed. -/
def execNeuronAccessPerform (n t : Nat) (s : State) : Res :=
  let s := s.at t
  .next (match (s.part n).waiting with
    | [] => s
    | q :: r => if (s.part n).seq.isOpen then s else (s.modPart n (fun p => { p with waiting := r })).naPerform n q)

/-! ### Counter clears (R179) -/

/-- The counters of a core cleared. -/
def State.clearCounters (s : State) (c : Nat) : State := s.modCm (fun m => { m with counters := mclear m.counters (c * 256) 256 })
/-- A clear performed: one core, or every core of the partition. -/
def State.clearWhat (s : State) (n : Nat) (c : Option Nat) : State := match c with
  | some c => s.clearCounters c
  | none => (s.each (s.partCores n) (fun s c => s.clearCounters c)).each (partClusters (s.part n)) (fun s cl =>
    s.modCluster cl (fun q => { q with dropLds := 0, ldsPeak := 0 }))
/-- COUNTER_CLEAR: value 1 the core that CORE_SELECT names, 2 all; at the next belay, or at once while not running. A core outside the partition answers ARGUMENT: assumption 108 [DEDUCED, unsafe]. -/
def State.doCounterClear (s : State) (r : Requester) (n v : Nat) : Nat × State :=
  if v ≠ 1 ∧ v ≠ 2 then (stRange, s)
  else
    let c := if v = 1 then some (s.sel r (kCoreSelect n)) else none
    if v = 1 ∧ !(s.part n).mask.testBit (clusterOf (s.sel r (kCoreSelect n))) then (stArgument, s)
    else (stOk, if running (s.part n) then s.modPart n (fun p => { p with clears := p.clears ++ [c] }) else s.clearWhat n c)
/-- COUNTER_CLEAR. -/
def execCounterClear (r : Requester) (n v t : Nat) (s : State) : Res :=
  .next ((s.at t).typed r (kCounterClear n) v (fun s => s.doCounterClear r n v))

end Sys2Proof.Machine
end

