-- ==== Sys2Proof/Machine/Supply.lean ====
section
/-!
DEFINITION. The compute supplies and fabric clocks of the two halves (R400 to R404, R413, R414) and the emergency flags
(R416): what the governor lets a half have, as every family reads it.
-/

namespace Sys2Proof.Machine

/-- An emergency object whose severity the spec does not give (Table 16.6): a free value of two bits (assumption 11 [DESIGN CHOICE, safe]). -/
def State.warn (s : State) (ecode n detail : Nat) : State :=
  let f := s.takeFree
  f.2.emergency ecode (f.1.toNat % 4) n detail

/-- The EMERGENCY_FLAGS bit of R416. -/
def State.flag (s : State) (b : Nat) : Bool := bit (s.dget kEmergencyFlags) b
/-- A flag bit rises: it is counted and issues an emergency object (R416); SMB_ALERT_N is asserted when it is the first (R483). -/
def State.raiseFlag (s : State) (b : Nat) : State :=
  if s.flag b then s
  else
    let first := s.dget kEmergencyFlags == 0
    let s := s.modPins (fun p => { p with smbAlert := p.smbAlert || first })
    ((s.dset kEmergencyFlags (setBit (s.dget kEmergencyFlags) b true)).dadd kEmergencies 1).warn 0x000A 0xFF b
/-- A flag bit falls; with the last one, EMERGENCY_CLEAR_TIME is recorded. -/
def State.dropFlag (s : State) (b : Nat) : State :=
  if !s.flag b then s
  else
    let s := s.dset kEmergencyFlags (setBit (s.dget kEmergencyFlags) b false)
    let s := if s.dget kEmergencyFlags = 0 ∧ !s.pins.faultN then s.modPins (fun p => { p with smbAlert := false }) else s
    if s.dget kEmergencyFlags = 0 then (s.dset kEmergencyClearTime s.tsnNow).modPow (fun p => { p with clearAt := some s.now }) else s

/-- Does a junction throttle act on half `h` (Table 15.9)? -/
def State.throttled (s : State) (h : Nat) : Bool := s.flag h || s.flag 2
/-- Is the supply of half `h` held at its profile floor (Table 15.9, R474)? -/
def State.floored (s : State) (h : Nat) : Bool := s.throttled h || (s.half h).currentAt.isSome || s.pow.vinLow
/-- The top of the effective window of half `h` (R403). -/
def State.effTop (s : State) (h : Nat) : Nat :=
  let q := s.half h
  let lo := profFloor q.profile
  let lim := match q.limitBase with
    | some b => b - 10 * (s.pow.limitHeld / 100)
    | none => profTop q.profile
  if s.floored h then lo else max lo (min (min (profTop q.profile) q.ceiling) lim)
/-- The compute supply of half `h` in mV (R50, R52): what the requirements have set, within the effective window. -/
def State.volt (s : State) (h : Nat) : Nat := max (profFloor (s.half h).profile) (min (s.effTop h) (s.half h).supply)
/-- The supply of half `h` follows the highest requirement of its partitions (R50, R52): it rises at once and falls by at most one
step; with no partition it stays. -/
def State.follow (s : State) (h : Nat) : State := match (s.halfParts h).map (fun n => s.needOf n h) with
  | [] => s
  | l =>
    let want := l.foldl max 0
    s.modHalf h (fun q => { q with supply := max want (q.supply - 10) })
/-- The governor requires a voltage of half `h` for partition `n`, and the supply follows. Assumption 60 [DESIGN CHOICE, safe]. -/
def State.setNeed (s : State) (n h v : Nat) : State :=
  (s.modPart n (fun p => { p with needVolt := (h, v) :: p.needVolt.filter (fun e => e.1 != h) })).follow h
/-- The requirement that R50 gives partition `n` of half `h` for the next pitch: the lowest voltage of the window that keeps
the slack, which depends on measured times, so a free value of the window (assumption 11 [DESIGN CHOICE, safe]); it falls by at most one step. With
DEADLINE_ADAPT 0 it is nominal; while the management core restarts it stays (R447). -/
def State.setVoltage (s : State) (n h : Nat) : State :=
  if !s.rel.mgmtUp then s
  else if s.eff (kDeadlineAdapt n) = 0 then s.setNeed n h (profNominal (s.half h).profile)
  else
    let f := s.takeFree
    let lo := profFloor (s.half h).profile
    let v := lo + 10 * (f.1.toNat % ((s.effTop h - lo) / 10 + 1))
    f.2.setNeed n h (max v (s.needOf n h - 10))

/-- FABRIC_CLOCK_REQ of half `h`. -/
def kClockReq (h : Nat) : Nat := if h = 0 then kFabricClockReqWest else kFabricClockReqEast
/-- The fabric clock that half `h` should have (R404): the request, lowered by the loop and by the hardware limits. -/
def State.clockTarget (s : State) (h : Nat) : Nat :=
  if s.throttled h || s.pow.limitOff then 500 else min (s.dget (kClockReq h)) (s.half h).clockCap

end Sys2Proof.Machine
end

