-- ==== Sys2Proof/Machine/Readout.lean ====
section
/-!
DEFINITION. Readout groups (chapter 8): DECODE of one pitch (R221), and the record as it leaves the part now (R223 to R226).
-/

namespace Sys2Proof.Machine

/-! ### The group's tile (Table 8.6) -/

/-- The CONVERTER tile of group `g` in the ACTIVE slot of its holder, with the holder. -/
def State.groupOf (s : State) (g : Nat) : Option (Nat × Tile) := s.convOf (32 + g)
/-- NCH of a group tile. -/
def State.grNch (s : State) (t : Tile) : Nat := s.tileField t 1 1
/-- A field of the decode record of channel `c`. -/
def State.chdField (s : State) (t : Tile) (c o n : Nat) : Nat := s.tileField t (s.tileField t 0x08 4 + 16 * c + o) n
/-- The taps of a group as numbers. -/
def State.taps (s : State) (t : Tile) : List Nat :=
  (List.range (s.tileField t 0x04 4)).map (fun i => s.tileField t (s.tileField t 0x0C 4 + 8 * i) 8)

/-- An unlisted ring of a BOX window: empty. -/
def dRing (_ : Nat) : List F32 := []

/-! ### DECODE (R221) -/

/-- The spikes of pitch `p` in the journals of partition `n` that a group takes, with their counts. -/
def State.pitchSpikes (s : State) (n p : Nat) (withheld : Bool) : List (Nat × Nat) :=
  (partClusters (s.part n)).flatMap (fun cl => ((s.cluster cl).journal.filter (fun e => e.1 == p)).flatMap (fun e =>
    e.2.filterMap (fun j => match j with
      | .spike k w src => if w && !withheld then none else some (src, k)
      | _ => none)))
/-- The contributions of pitch `p` to a group: channel and W × n. -/
def State.contributions (s : State) (n : Nat) (t : Tile) (p : Nat) : List (Nat × F32) :=
  let taps := s.taps t
  (s.pitchSpikes n p (bit (s.tileField t 3 1) 0)).flatMap (fun e =>
    (taps.filter (fun w => w % 2 ^ 25 == e.1)).map (fun w =>
      (bits w 47 42, fmul (fwiden (BitVec.ofNat 16 (bits w 63 48))) (fofNat e.2))))
/-- A list in the order of free keys (assumption 11 [DESIGN CHOICE, safe]): the arrival order at the combiner, which the spec leaves open. Assumption 73 [DESIGN CHOICE, safe]. -/
def State.shuffle {α : Type} (s : State) (l : List α) : List α × State :=
  let keyed := (List.range l.length).zip l |>.map (fun e => ((Config.freeBits (s.clk.free + e.1)).toNat, e.2))
  ((sortBy (·.1) keyed).map (·.2), s.modClk (fun c => { c with free := c.free + l.length }))

/-- push_window of R221 on y and the ring of a channel. -/
def pushWindow (win wlen : Nat) (decay : F32) (st : F32 × List F32) (c : F32) : F32 × List F32 :=
  if win = 0 then (c, st.2)
  else if win = 2 then (fadd (fmul st.1 decay) c, st.2)
  else
    let r := (List.replicate (wlen - st.2.length) 0#32 ++ st.2).drop 1 ++ [c]
    (r.foldl fadd 0#32, r)

/-- The output word of a value, and whether it was clamped. -/
def outWord (fmt : Nat) (v : F32) : BitVec 32 × Nat :=
  if fmt = 0 then (v, 0)
  else if fisNan v then (0, 1)
  else
    let big := flt (fofNat 32767) (fabs (fround v))
    if big then (BitVec.ofNat 32 (if v.toNat.testBit 31 then 65536 - 32767 else 32767), 1)
    else (BitVec.ofNat 32 (ofInt 16 (numNearest (f32 v))), 0)

/-! ### Parity of slice SRAM (R259, R260) -/

/-- Even parity of a 32-bit word: the bit that makes the number of ones in the 33 bits even. -/
def evenParity (w : Nat) : Bool := (List.range 32).foldl (fun (a : Bool) i => a ^^ w.testBit i) false
/-- Word `w` of the slice SRAM. -/
def State.sramWord (s : State) (w : Nat) : Nat := leNat (readRange dByte s.mem.sram (4 * w) 4)
/-- The parity bit that the word carries: written with it, and wrong since where `sramBad` lists the word. -/
def State.sramParity (s : State) (w : Nat) : Bool := evenParity (s.sramWord w) ^^ s.mem.sramBad.contains w
/-- Does a read of the word find a parity error? -/
def State.sramFails (s : State) (w : Nat) : Bool := s.sramParity w != evenParity (s.sramWord w)
/-- The physical slice identifier of a logical slice (Table 1.5). -/
def State.physSlice (s : State) (i : Nat) : Nat := i / 16 * 32 + mget dSliceMap s.floor.sliceMap i

/-- A persistent parity error in slice data: counted, the word marked, and the unit and word reported (R260). Under which code the spec does
not say: assumption 88 [DEDUCED, unsafe]. -/
def State.sramError (s : State) (w : Nat) : State :=
  let i := 4 * w / sramSize
  let s := (s.dadd kParityPersistent 1).modMem (fun m => { m with sramBad := m.sramBad.filter (· != w) ++ [w] })
  s.reportUnit 0x0301 1 2 (s.physSlice i) none (w % (sramSize / 4))

/-- The SRAM word of a channel of the combining queue of group `g`. -/
def combineSram (g c : Nat) : Nat := combineBase g / 4 + c
/-- The combiner adds a contribution into the word of its channel (R248); to one that it cannot read it adds nothing. -/
def State.contribute (s : State) (g : Nat) (e : Nat × F32) : State :=
  if s.sramFails (combineSram g e.1) then s
  else
  let v := fadd (s.combineWord g e.1) e.2
  (s.setCombine g e.1 [v]).qadd (g % 64) kCombineNonfinite (if fisFin v then 0 else 1)
/-- One channel decoded: its sum taken from the combining queue and pushed, its value formed. The sum of a word that cannot be read is lost with the round
(R253, R260; assumption 88 [DEDUCED, unsafe]). -/
def State.decodeChannel (s : State) (g : Nat) (t : Tile) (km c : Nat) : State × BitVec 32 × Nat :=
  let q := s.rgroup g
  let bad := s.sramFails (combineSram g c)
  let sum := if bad then 0#32 else s.combineWord g c
  let s := (if bad then s.sramError (combineSram g c) else s).setCombine g c [0#32]
  let win := s.chdField t c 0 1
  let wlen := s.chdField t c 1 1
  let decay := BitVec.ofNat 32 (s.chdField t c 4 4)
  let st := (List.range (km - 1)).foldl (fun st _ => pushWindow win wlen decay st 0#32) (mget dF32 q.window c, mget dRing q.rings c)
  let st := pushWindow win wlen decay st sum
  let v := fadd (fmul st.1 (BitVec.ofNat 32 (s.chdField t c 8 4))) (BitVec.ofNat 32 (s.chdField t c 12 4))
  let w := outWord (s.tileField t 2 1) v
  (s.modGroup g (fun q => { q with
    window := mset dF32 q.window c st.1
    rings := mset dRing q.rings c (if win = 1 then st.2 else []) }), w)

/-- Every channel decoded, in order; the queue's round starts again. -/
def State.decodeChannels (s : State) (g : Nat) (t : Tile) (km : Nat) : State × List (BitVec 32 × Nat) :=
  (List.range (s.grNch t)).foldl (fun st c =>
    let r := st.1.decodeChannel g t km c
    (r.1, st.2 ++ [r.2])) (s.newRound g, [])
/-- The tapped spikes of pitch `p` (R222). -/
def State.tappedSpikes (s : State) (n : Nat) (t : Tile) (p : Nat) : List (Nat × Nat) :=
  let taps := s.taps t
  (s.pitchSpikes n p (bit (s.tileField t 3 1) 0)).filter (fun e => taps.any (fun w => w % 2 ^ 25 == e.1))

/-- DECODE of the oldest pitch due to group `g`: its contributions join what slice stations have added to the queue (R221); a pitch whose tile is gone is not decoded. -/
def State.decodeNext (s : State) (g : Nat) : State := match (s.rgroup g).due with
  | [] => s
  | (p, km, flags) :: rest =>
    let s := s.modGroup g (fun q => { q with due := rest })
    match s.groupOf g with
    | none => s
    | some (n, t) =>
      let all := if bit flags 5 then [] else s.contributions n t p
      let late := !bit flags 5 && decide (65536 < (s.tappedSpikes n t p).length)
      let hurt := (List.range (s.grNch t)).any (fun c => s.sramFails (combineSram g c))
      let o := s.shuffle all
      let r := (o.1.foldl (fun s e => s.contribute g e) o.2).decodeChannels g t km
      let clamps : Nat := (r.2.map (fun e => e.2)).foldl (· + ·) 0
      let fl := (if hurt then setBit flags 4 true else flags) % 32 + (if 0 < clamps then 4 else 0) + (if late then 8 else 0)
      r.1.modGroup g (fun q => { q with
        decoded := q.decoded ++ [{ flags := fl, pitch := p, vals := r.2.map (·.1) }]
        counts := { q.counts with
          clamps := satAdd 32 q.counts.clamps clamps
          late := satAdd 32 q.counts.late (if late then 1 else 0) } })
/-- DECODE of every pitch due to group `g`. -/
def State.decodeAll (s : State) (g : Nat) : State := (List.range (s.rgroup g).due.length).foldl (fun s _ => s.decodeNext g) s

/-- DECODE (R221). -/
def execDecode (g t : Nat) (s : State) : Res := .next ((s.at t).decodeNext g)

/-- The partition that holds group `g` in its ACTIVE slot; 8 for none. -/
def State.groupPart (s : State) (g : Nat) : Nat := match s.groupOf g with
  | some (n, _) => n
  | none => 8
/-! ### Output objects that list a group (R343) -/

/-- The groups that object `j` lists. -/
def State.objGroups (s : State) (j : Nat) : List Nat :=
  ((natLe 16 (s.dget (kObjGroups j))).map (·.toNat)).filter (· != 0xFF)
/-- Is object `j` configured for transmission: a destination, and a group? -/
def State.objSet (s : State) (j : Nat) : Bool := decide (j < 32) && s.dget (kObjDest j) != 0 && !(s.objGroups j).isEmpty

/-- READOUT_PUBLISH (R222): the next decoded record, in pitch order, with the next SEQ; after a hold it makes the outputs current
(R225). Assumption 116 [DEDUCED, unsafe]. -/
def execReadoutPublish (g t : Nat) (s : State) : Res :=
  let s := s.at t
  let hold := s.holding (s.groupPart g)
  .next (match (s.rgroup g).decoded with
    | [] => s
    | r :: rest => s.modGroup g (fun q => { q with
        decoded := rest
        past := if (List.range 32).any (fun j => s.objSet j && (s.objGroups j).contains g) then q.past ++ q.last.toList else []
        last := some { r with seq := q.seq }
        seq := (q.seq + 1) % 256
        held := if hold then q.held else none
        counts := { q.counts with published := wrapAdd 64 q.counts.published 1 } }))

/-! ### The record as it leaves (R223 to R226) -/

/-- May a record of group `g` with PITCH `p` leave live (R223)? `mapped` says that an enabled output mapping carries it. -/
def State.liveOut (s : State) (g p : Nat) (mapped : Bool) : Bool :=
  let q := s.rgroup g
  let on := decide (q.since ≤ p) && (q.force || (match q.upTo with
    | some u => decide (p ≤ u)
    | none => false))
  let part := match s.groupOf g with
    | some (n, _) => running (s.part n) && !(s.part n).quiesced
    | none => false
  part && on && mapped && !s.pins.estop && s.dget kOutputEnable == 1
/-- The bytes of a readout record (Table 8.7). -/
def readoutBytes (g : Nat) (r : Readout) : Bytes :=
  natLe 1 g ++ natLe 1 r.flags ++ natLe 1 r.vals.length ++ natLe 1 r.seq ++ natLe 4 0 ++ natLe 8 r.pitch ++
    r.vals.flatMap (fun v => natLe 4 v.toNat)
/-- The last record published; before the first one, a record of zeros with the tile's channels. -/
def State.lastRecord (s : State) (g : Nat) : Readout := match (s.rgroup g).last with
  | some r => r
  | none => { vals := List.replicate (match s.groupOf g with
      | some (_, t) => s.grNch t
      | none => 0) 0 }
/-- A record of group `g` as it leaves the part now (R223 to R226): inert, live, or, from the declaration of a hold to the first
publication after its end, held. During a hold that began before any record was published it is inert. Assumption 116 [DEDUCED, unsafe]. -/
def State.recordAs (s : State) (g : Nat) (r : Readout) (mapped : Bool) : Readout :=
  let inert : Readout := { r with flags := r.flags / 4 * 4, vals := r.vals.map (fun _ => 0) }
  if !s.liveOut g r.pitch mapped || (s.rgroup g).last.isNone then inert
  else match (s.rgroup g).held with
    | some h => { r with flags := r.flags / 4 * 4 + 3, pitch := h.pitch, vals := h.vals }
    | none => if s.holding (s.groupPart g) then inert else { r with flags := r.flags / 4 * 4 + 1 }
/-- The last record of group `g` as it leaves the part now. -/
def State.recordNow (s : State) (g : Nat) (mapped : Bool) : Readout := s.recordAs g (s.lastRecord g) mapped

end Sys2Proof.Machine
end

