-- ==== Sys2Proof/Machine/Pitch.lean ====
section
/-!
DEFINITION. Pitches (chapter 2): ticks and the time base, the opening of a pitch, its deadline, watch point and truncation,
the belay of the last cluster, and everything that the part does at a belay.
-/

namespace Sys2Proof.Machine

/-- The pitch counter's bound (R46). -/
def pitchEnd : Nat := 2 ^ 48
/-- PERIOD in force, in ns. -/
def State.periodNs (s : State) (n : Nat) : Nat := s.eff (kPeriod n) * 1000
/-- GUARD in force, in ns. -/
def State.guardNs (s : State) (n : Nat) : Nat := s.eff (kGuard n) * 1000
/-- The deadline of the open pitch (R48). -/
def State.deadlineOf (s : State) (n : Nat) : Nat := (s.part n).seq.openAt + s.periodNs n - s.guardNs n
/-- The partitions that a source ticks now: ENABLED or DISABLING, and bound to it (R488). -/
def State.bound (s : State) (src : Nat) : List Nat :=
  (List.range 8).filter (fun n => running (s.part n) && s.dget (kCadenceSource n) == src)

/-! ### Holds of outputs (R225) -/

/-- At the start of a hold, each group keeps the last record published before it; one that a hold keeps already keeps it. -/
def State.startHold (s : State) (n : Nat) (was : Bool) : State :=
  s.each (s.partGroups n) (fun s g => s.modGroup g (fun q => { q with held := if was then q.held.or q.last else q.last }))

/-! ### Ticks (R32 to R38, R44, R45) -/

/-- A tick of partition `n` with its number and instant: it waits for its pitch, and passes over one that already waits. -/
def State.tick (s : State) (n num inst : Nat) : State :=
  if pitchEnd ≤ num then s
  else
    let q := (s.part n).seq
    let s := match q.pendTick with
      | some _ => s.dadd (kTicksMerged n) 1
      | none => s
    let s := s.modPart n (fun p => { p with
      hold := false
      seq := { p.seq with
        ticks := p.seq.ticks + 1
        lastTick := s.now
        pendTick := some (num, inst)
        pendMerge := match p.seq.pendTick with
          | some (k, _) => p.seq.pendMerge ++ [k]
          | none => p.seq.pendMerge } })
    s.dset (kCadenceState n) 2
/-- A tick numbered by PITCH_BASE and the ticks since the enable (Table 2.1). -/
def State.tickCounted (s : State) (n : Nat) : State := s.tick n (s.dget (kPitchBase n) + (s.part n).seq.ticks) s.now

/-- The number of the last tick since the enable. -/
def lastTickNo (q : Seq) : Option Nat := match q.pendTick with
  | some (k, _) => some k
  | none => if q.everOpen then some q.pitch else none
/-- The numbers between two ticks that a re-anchor has skipped (R34): merged. -/
def skipped (last : Option Nat) (k : Nat) : List Nat := match last with
  | some a => (List.range (k - a - 1)).map (fun i => a + 1 + i)
  | none => []

/-- The time of a partition's own schedule (R34): 802.1AS time less the offset that slewing has yet to remove. -/
def State.schedNow (s : State) (n : Nat) : Int := (s.now : Int) + s.clk.tsn - (s.part n).seq.slew
/-- The offset moves toward zero by at most 1 % of PERIOD (R34); by how much within that the spec leaves open: a free value
(assumption 11 [DESIGN CHOICE, safe]). -/
def State.slewStep (s : State) (n : Nat) : State :=
  let o := (s.part n).seq.slew
  if o = 0 then s
  else
    let f := s.takeFree
    let d : Int := (f.1.toNat % (min o.natAbs (s.periodNs n / 100) + 1) : Nat)
    f.2.modPart n (fun p => { p with seq := { p.seq with slew := if 0 < o then o - d else o + d } })

/-- Ticks that a re-anchor skipped (R34) are merged, with the one that waits. -/
def State.passOver (s : State) (n : Nat) (gone : List Nat) : State :=
  if gone.isEmpty then s
  else
    let old := match (s.part n).seq.pendTick with
      | some (a, _) => [a]
      | none => []
    (s.dadd (kTicksMerged n) (old.length + gone.length)).modPart n (fun p => { p with seq := { p.seq with
      pendMerge := p.seq.pendMerge ++ old ++ gone
      pendTick := none } })

/-- TSN_TICK (R32): tick `k` of the partition's schedule, at its instant; the first one lies at least 50 µs after the enable.
Numbers that a re-anchor skipped are merged. -/
def execTsnTick (n k t : Nat) (s : State) : Res :=
  let s := s.at t
  let q := (s.part n).seq
  let late := s.schedNow n - (s.dget (kOriginTime n) + k * s.periodNs n : Nat)
  let last := lastTickNo q
  .next (if (s.bound 1).contains n && decide (0 ≤ late) && decide (late < s.periodNs n) && decide (k < pitchEnd) &&
      (match last with
        | some a => decide (a < k)
        | none => decide (q.enabledAt + 50000 + late.toNat ≤ s.now)) then
    let s := s.passOver n (skipped last k)
    (s.tick n k (s.now - late.toNat)).slewStep n
  else s)

/-- CADENCE_IN_EDGE (R35): the selected edge is a tick unless it follows the last accepted one too soon. -/
def execCadenceInEdge (rising : Bool) (t : Nat) (s : State) : Res :=
  let s := s.at t
  let soon := match s.clk.cinAt with
    | some a => decide (s.now < a + s.dget kCinMinInterval * 1000)
    | none => false
  .next (if rising != (s.dget kCinEdge == 0) then s
    else if soon then s.dadd kCinRejected 1
    else
      let s := ((s.modClk (fun c => { c with cinAt := some s.now })).dadd64 kCinCount 1).dset kCinLastTime s.tsnNow
      s.each (s.bound 2) (fun s n => s.tickCounted n))

/-- What a legal count means for partition `n` (R37). A threshold is passed once, in whichever mode the position first reaches it; the
counts of ABSOLUTE are those made in that mode. Assumption 22 [DEDUCED, unsafe]. -/
def State.quadTick (s : State) (n : Nat) : State :=
  let q := (s.part n).seq
  let cpp := s.dget (kQuadCounts n)
  let passed := decide (q.quadP0 + (q.quadJ * cpp : Nat) ≤ s.clk.quadExt)
  let s := if passed then s.modPart n (fun p => { p with seq := { p.seq with quadJ := p.seq.quadJ + 1 } }) else s
  if s.dget kQuadMode = 0 then (if passed then s.tickCounted n else s)
  else if cpp ≤ q.quadAbs + 1 then (s.modPart n (fun p => { p with seq := { p.seq with quadAbs := 0 } })).tickCounted n
  else s.modPart n (fun p => { p with seq := { p.seq with quadAbs := p.seq.quadAbs + 1 } })

/-- The position of the two phases in the quadrature cycle; the count rises when PHASE_A leads (assumption 22 [DEDUCED, unsafe]). -/
def quadState (a b : Bool) : Nat := if a then (if b then 2 else 1) else (if b then 3 else 0)
/-- Does an edge follow the last one faster than one count every 2 × QUAD_FILTER (R36)? -/
def State.quadFast (s : State) : Bool := match s.clk.quadAt with
  | some a => decide (s.now < a + 2 * s.dget kQuadFilter)
  | none => false
/-- QUAD_TRANSITION (R36, R37): an edge on both phases, or one that comes too fast, is illegal. Assumption 22 [DEDUCED, unsafe]. -/
def execQuadTransition (a b : Bool) (t : Nat) (s : State) : Res :=
  let s := s.at t
  let d := (quadState a b + 4 - quadState s.clk.phaseA s.clk.phaseB) % 4
  let fast := s.quadFast
  let s := s.modClk (fun c => { c with phaseA := a, phaseB := b, quadAt := if d = 0 then c.quadAt else some s.now })
  .next (if d = 0 then s
    else if d = 2 || fast then s.dadd kQuadErrors 1
    else
      let s := s.modClk (fun c => { c with quadExt := c.quadExt + (if d = 1 then 1 else -1) })
      let s := s.dset kQuadPosition (ofInt 32 s.clk.quadExt)
      s.each (s.bound 3) (fun s n => s.quadTick n))

/-- The partitions on whose TRIGGER bits function `f` acts (Table 13.17): the physical function on every one, a virtual function
on its own. -/
def mayTrigger (f n : Nat) : Bool := f == 0 || f == n + 1
/-- PITCH_TRIGGER (R38): a set bit is a tick for its partition, or is counted when that is not bound to HOST_TICK. -/
def execPitchTrigger (f w t : Nat) (s : State) : Res :=
  let s := s.at t
  .next (if !s.hostSees f then s
    else s.each ((maskList 8 w).filter (mayTrigger f)) (fun s n =>
      if (s.bound 4).contains n then s.tickCounted n
      else if s.dget (kCadenceSource n) = 4 then s else s.dadd kTriggerIgnored 1))

/-! ### Time (R33, R34, R342) -/

/-- Ticks that wait although the schedule, set back, has not reached them yet (R34): they come again. The last one that it has
reached waits on, from its instant on the schedule as it now stands. -/
def State.untick (s : State) (n : Nat) : State :=
  let due := fun k => decide (((s.dget (kOriginTime n) + k * s.periodNs n : Nat) : Int) ≤ s.schedNow n)
  s.modPart n (fun p => match p.seq.pendTick with
    | none => p
    | some (k, _) =>
      let l := (p.seq.pendMerge ++ [k]).filter due
      { p with seq := { p.seq with
        pendMerge := l.dropLast
        pendTick := l.getLast?.map (fun k => (k, s.now - (s.schedNow n - (s.dget (kOriginTime n) + k * s.periodNs n : Nat)).toNat)) } })
/-- The offset of a synchronisation reaches the schedule of partition `n` (R34): it is slewed, or the schedule re-anchored; after a step
back no pitch opens until the time reaches its tick. -/
def State.retime (s : State) (n : Nat) (o : Int) : State :=
  let d := (s.part n).seq.slew + o
  if s.periodNs n < 2 * d.natAbs then
    let s := (s.modPart n (fun p => { p with seq := { p.seq with slew := 0 } })).dadd kTimeSteps 1
    if d < 0 then s.untick n else s
  else s.modPart n (fun p => { p with seq := { p.seq with slew := d } })
/-- Is the port that a TIME_PORT code names up: 0 F0, 1 F1, 2 and 3 subport 0 of A and B (Table 12.13)? Assumption 53 [DEDUCED, unsafe]. -/
def State.timeUp (s : State) (port : Nat) : Bool := if port < 2 then s.fieldUp port else s.subUp (port - 2) 0
/-- Is a sync message one that the part uses (R341, Table 12.13): gPTP domain 0, the peer-to-peer delay mechanism, a log sync interval from −7 to 0, and on a
data port subport 0? -/
def syncOk (m : SyncInfo) : Bool := m.domain == 0 && m.p2p && decide (-7 ≤ m.log) && decide (m.log ≤ 0) && (decide (m.port < 2) || m.sub == 0)
/-- SYNC_MESSAGE (R342): on the port that TIME_PORT names, the counter is set to the synchronised time; after eight messages
running with an offset below 1 µs, TIME_STATE is SYNCED. -/
def execSyncMessage (port : SyncInfo) (offset : Int) (t : Nat) (s : State) : Res :=
  let s := s.at t
  .next (if s.dget kTimePort ≠ port.port ∨ 4 ≤ port.port ∨ !syncOk port ∨ !s.timeUp port.port then s
    else
      let good := if offset.natAbs < 1000 then min 8 (s.clk.goodSync + 1) else 0
      let s := s.modClk (fun c => { c with tsn := c.tsn + offset, goodSync := good, syncAt := s.now, syncLog := port.log })
      let s := if good = 8 then s.dset kTimeState 1 else s
      if offset = 0 then s else s.each (s.bound 1) (fun s n => s.retime n offset))
/-- The time counter loses its source: HOLDOVER, unless it has never been synchronised. -/
def State.holdover (s : State) : State :=
  if s.dget kTimeState = 1 then
    (s.dset kTimeState 2).modClk (fun c => { c with goodSync := 0, holdSince := s.now, lostSaid := false })
  else s
/-- SYNC_TIMEOUT (R342): three sync intervals have passed without a sync message. -/
def execSyncTimeout (t : Nat) (s : State) : Res :=
  let s := s.at t
  .next (if s.clk.syncAt + 3 * 1000000000 / 2 ^ (-s.clk.syncLog).toNat ≤ s.now then s.holdover else s)
/-- HOLDOVER_LIMIT (R33): TIME_LOST in every partition that runs on TSN_TIME when the limit passes, with an emergency object each; it is
not set again, nor in a partition that is enabled later in the same HOLDOVER. Assumption 61 [DEDUCED, unsafe]. -/
def execHoldoverLimit (t : Nat) (s : State) : Res :=
  let s := s.at t
  .next (if s.dget kTimeState = 2 && !s.clk.lostSaid && decide (s.clk.holdSince + s.dget kHoldoverLimit * 1000000 < s.now) then
    (s.modClk (fun c => { c with lostSaid := true })).each
      ((List.range 8).filter (fun n => running (s.part n) && s.dget (kCadenceSource n) == 1))
      (fun s n => (s.dset (kTimeLost n) 1).warn 0x0001 n 0)
  else s)
/-- CADENCE_LOSS (R62, Table 2.5). -/
def execCadenceLoss (n t : Nat) (s : State) : Res :=
  let s := s.at t
  let p := s.part n
  .next (if running p && decide (2 ≤ s.dget (kCadenceSource n)) && decide (s.dget (kCadenceState n) ≠ 3) &&
      decide (p.seq.lastTick + s.eff (kCadenceTimeout n) * s.periodNs n ≤ s.now) then
    let s := (s.dset (kCadenceState n) 3).warn 0x0002 n 0
    if s.eff (kCadenceLossAction n) = 0 then (s.modPart n (fun p => { p with hold := true })).startHold n (s.holding n)
    else
      let s := s.modPart n (fun p => { p with quiesced := true })
      if p.state = .enabled then s.disableBelay n else s
  else s)

/-! ### Opening a pitch (R39, R49) -/

/-- EPOCH_NUMBER of a pitch (R60). -/
def State.epochOf (s : State) (n p : Nat) : Nat :=
  let o := s.eff (kEpochOrigin n)
  if p < o then 0 else (p - o) / s.eff (kEpochLength n)
/-- A scale group at the opening of pitch `p` (R108): a set decided at the belay before last takes effect. -/
def openScale (p : Nat) (g : ScaleGroup) : ScaleGroup := match g.next with
  | (k, 0) :: r => { g with cur := k, next := r.map (fun e => (e.1, e.2 - 1)), last := p }
  | l => { g with next := l.map (fun e => (e.1, e.2 - 1)) }
/-- Does the group take its next set at this opening? -/
def scaleDue (g : ScaleGroup) : Bool := match g.next with
  | (_, 0) :: _ => true
  | _ => false
/-- LEVEL and DELTA channels unanchored by a scale-set switch (R212). -/
def State.switchStream (s : State) (k : Nat) (t : Tile) : State :=
  s.modStream k (fun q => { q with chans := (List.range (s.stNch t)).foldl (fun m c =>
    if 2 ≤ s.chField t c 0 1 then mmod dChannel m c (fun ch => { ch with anchored := false, switched := true }) else m) q.chans })
/-- Scale sets of groups and streams at the opening of pitch `p`, with their ledger marks. -/
def State.openScales (s : State) (n p : Nat) : State :=
  let gs := (s.part n).win.groups
  let w := (s.part n).win
  let sets := (if w.fresh then [(p, (none : Option Nat), 0)] else []) ++
    (gs.filter (fun e => scaleDue e.2)).map (fun e => (p, some e.1, (openScale p e.2).cur))
  let s := s.modPart n (fun q => { q with win := { q.win with
    first := if w.fresh then p else w.first
    fresh := false
    sets := w.sets ++ sets } })
  let s := (gs.filter (fun e => scaleDue e.2)).foldl (fun s e => s.mark n 1 e.1 (openScale p e.2).cur p) s
  let s := s.modPart n (fun q => { q with win := { q.win with groups := q.win.groups.map (fun e => (e.1, openScale p e.2)) } })
  ((activeSlot (s.part n)).tiles.filter (fun t => t.kind == 4 && decide (t.owner < 32))).foldl (fun s t =>
    let g := (s.stream t.owner).grp
    let s := if scaleDue g then (s.mark n 1 (t.owner + 2 ^ 15) (openScale p g).cur p).switchStream t.owner t else s
    s.modStream t.owner (fun q => { q with grp := openScale p q.grp })) s
/-- The first pitch that opens under a projection's present generation is noted, also in what reads show of the last belay, and a switch that led to that
generation is recorded (R194). -/
def State.openProjs (s : State) (n p : Nat) : State :=
  let note := fun (x : Proj) => if x.moved then { x with moved := false, told := true, last := p, ranges := x.ranges ++ [(p, x.gen)] } else x
  let due := (activeSlot (s.part n)).projs.filter (fun e => e.2.moved && !e.2.told)
  let moved := (activeSlot (s.part n)).projs.filter (fun e => e.2.moved)
  let s := due.foldl (fun s e => s.mark n 2 e.1 e.2.gen p) s
  let s := s.each (moved.map (·.1)) (fun s k => s.modProj n k note)
  s.modPart n (fun q => { q with snap := { q.snap with projs := q.snap.projs.map (fun e => (e.1, note e.2)) } })
/-- The instant before which the pending pitch does not open: its tick, and the guard after the last belay. -/
def State.openFrom (s : State) (n inst : Nat) : Nat :=
  let q := (s.part n).seq
  max inst (if q.everOpen then q.belayAt + s.guardNs n else 0)
/-- No haul injected into partition `n` is in flight (R140). -/
def State.injectDone (s : State) (n : Nat) : Bool := s.hauls.all (fun e => match e.2 with
  | some h => !(h.kind == .injected && h.part == n)
  | none => true)
/-- May the pending pitch open now (R39, R140, R168, R402)? -/
def State.mayOpen (s : State) (n inst : Nat) : Bool :=
  let p := s.part n
  p.state == PartState.enabled && !p.seq.isOpen && !p.swapCopy && decide (s.openFrom n inst ≤ s.now) &&
    (s.partCores n).all (fun c => !(s.core c).isOpen) && s.injectDone n &&
    (partHalves p).all (fun h => !(s.half h).held.contains n || (!(s.half h).holding && decide ((s.half h).settleAt ≤ s.now)))
/-- The pitch opens: its slip is noted, its marks start empty, journals and encoders take up the pitch. -/
def State.openPitch (s : State) (n num inst : Nat) : State :=
  let p := s.part n
  let free := s.openFrom n inst
  let wasHeld := (partHalves p).any (fun h => (s.half h).held.contains n)
  let s := ((s.dset (kLastOpenTime n) s.tsnNow).dset (kSlipLast n) (min (s.now - inst) (2 ^ 32 - 1))).dadd64 (kSlipTotal n) (s.now - inst)
  let s := if wasHeld then s.dadd64 kProfileHoldSlip (s.now - free) else s
  let s := s.each [0, 1] (fun s h => s.modHalf h (fun q => { q with held := q.held.filter (· != n) }))
  let s := (s.dset (kPitchNumber n) num).dset (kEpochNumber n) (s.epochOf n num)
  let s := s.modPart n (fun p => { p with seq := { p.seq with
    isOpen := true
    prevPitch := p.seq.pitch
    pitch := num
    openAt := s.now
    everOpen := true
    pendTick := none
    merged := p.seq.pendMerge
    pendMerge := []
    belays := []
    westAt := 0
    eastAt := 0
    overrun := false
    watched := false
    truncAt := none
    absorbAt := none
    timedOut := [] } })
  let s := (s.openScales n num).openProjs n num
  let s := s.each (partClusters p) (fun s cl =>
    let keep := s.localArea cl
    s.modCluster cl (fun q => { q with
      belaySent := false
      encDone := []
      encFwd := false
      journal := if keep then trimJournal (q.journal ++ [(num, [])]) else q.journal }))
  s.each (s.partStreams n) (fun s k => match convTile (activeSlot (s.part n)) k with
    | some t => s.encodeStream n k num (p.seq.pendMerge.length + 1) t
    | none => s)
/-- PITCH_OPEN (R39). -/
def execPitchOpen (n t : Nat) (s : State) : Res :=
  let s := s.at t
  .next (match (s.part n).seq.pendTick with
    | none => s
    | some (num, inst) => if s.mayOpen n inst then s.openPitch n num inst else s)

/-! ### During a pitch (R43, R51, R56 to R58) -/

/-- The cores of partition `n` that have not met their drain condition in the open pitch. -/
def State.undrained (s : State) (n : Nat) : List Nat :=
  (s.partCores n).filter (fun c => !(s.core c).belaySent && !((s.core c).isOpen && s.liveCore c && s.drained c))
/-- WATCH_POINT (R51). -/
def execWatchPoint (n t : Nat) (s : State) : Res :=
  let s := s.at t
  let q := (s.part n).seq
  let dl := s.periodNs n - s.guardNs n
  .next (if q.isOpen && !q.watched && decide (q.openAt * 100 + s.eff (kWatchFraction n) * dl ≤ s.now * 100) then
    let s := s.modPart n (fun p => { p with seq := { p.seq with watched := true } })
    let hs := ((s.undrained n).map (fun c => halfOf (clusterOf c))).eraseDups
    if s.eff (kDeadlineAdapt n) = 0 || !s.rel.mgmtUp || hs.isEmpty then s
    else (s.each hs (fun s h => s.setNeed n h (max (s.needOf n h) (s.effTop h)))).dadd (kVoltageRaises n) 1
  else s)
/-- The pitch has overrun: it is counted and marked once (R56). -/
def State.overran (s : State) (n : Nat) : State :=
  if (s.part n).seq.overrun then s
  else ((s.modPart n (fun p => { p with seq := { p.seq with overrun := true } })).dadd (kOverrunCount n) 1).ledgerFlag n 0
/-- DEADLINE (R56). -/
def execDeadline (n t : Nat) (s : State) : Res :=
  let s := s.at t
  .next (if (s.part n).seq.isOpen && decide (s.deadlineOf n < s.now) then s.overran n else s)
/-- The truncate instant of the open pitch under its policy (Table 2.3). -/
def State.truncDue (s : State) (n : Nat) : Option Nat :=
  let pol := s.eff (kOverrunPolicy n)
  if pol = 1 then some (s.deadlineOf n) else if pol = 2 then some (s.deadlineOf n + s.eff (kStretchLimit n) * 1000) else none
/-- TRUNCATE_INSTANT (R57). -/
def execTruncateInstant (n t : Nat) (s : State) : Res :=
  let s := s.at t
  let q := (s.part n).seq
  .next (match s.truncDue n with
    | none => s
    | some d =>
      if q.isOpen && q.truncAt.isNone && decide (d ≤ s.now) then
        ((s.modPart n (fun p => { p with seq := { p.seq with truncAt := some s.now } })).dadd (kTruncateCount n) 1).ledgerFlag n 1
      else s)
/-- Has the bound of R58 passed since the truncate instant `a`: 18 µs and the sweep bound of the slowest half, or of the
wake-on-event clock? -/
def State.truncLate (s : State) (n a : Nat) : Bool :=
  let p := s.part n
  if p.woe then decide ((a + 18000) * p.woeClock + 4096000 ≤ s.now * p.woeClock)
  else decide (a + 18000 + (if (partHalves p).any (fun h => (s.half h).profile == 1) then 48000 else 16000) ≤ s.now)
/-- BELAY_TIMEOUT (R43, R58, R172): core `c` has not sent its belay picot in time. -/
def execBelayTimeout (n c t : Nat) (s : State) : Res :=
  let s := s.at t
  let q := (s.part n).seq
  let late := decide (q.openAt + 10 * s.periodNs n ≤ s.now) || (match q.truncAt with
    | some a => s.truncLate n a
    | none => false) || (match q.absorbAt with
    | some a => decide (a + 60000 ≤ s.now)
    | none => false)
  .next (if q.isOpen && late && (s.partCores n).contains c && !(s.core c).belaySent && !q.timedOut.contains c then
    (s.modPart n (fun p => { p with seq := { p.seq with timedOut := p.seq.timedOut ++ [c] } })).failCore c 0x0101 0
  else s)

/-! ### APPLY (R193, R194) -/

/-- Does a projection of a lower number that began at the same boundary still wait for its APPLY to be complete (R193)? -/
def applyBehind (sl : Slot) (p : Nat) : Bool := sl.projs.any (fun e =>
  decide (e.1 < p) && e.2.apply && !e.2.done && e.2.began == (mget dProj sl.projs p).began)
/-- APPLY_COMPLETE (R193): every row and update word is written, of the projections of one boundary in ascending number; outside a run the
switch follows at once (R194). -/
def execApplyComplete (n p t : Nat) (s : State) : Res :=
  let s := s.at t
  let sl := activeSlot (s.part n)
  let pr := mget dProj sl.projs p
  .next (match findTile sl 5 p with
    | none => s
    | some tl =>
      if !pr.apply || pr.done || applyBehind sl p then s
      else
        let s := (s.applyProj n sl tl pr).modProj n p (fun q => { q with done := true })
        if running (s.part n) then s else s.applySwitches n)

/-! ### Work after a belay -/

/-- Is `p` the last pitch of an epoch (R60)? -/
def State.epochEnd (s : State) (n p : Nat) : Bool :=
  let o := s.eff (kEpochOrigin n)
  decide (o ≤ p) && (p - o + 1) % s.eff (kEpochLength n) == 0
/-- One projection at an epoch boundary (R191). -/
def State.boundaryProj (s : State) (n p : Nat) : State :=
  let pr := mget dProj (activeSlot (s.part n)).projs p
  if bit (s.part n).stations 1 && !pr.apply then s.modProj n p (fun q => { q with bank := 1 - q.bank, apply := true, done := false, began := (s.part n).seq.executed })
  else (s.dadd (kApplySkipped n) 1).mark n 3 p 0 (s.pitchOf n)
/-- A commit that firmware requests at every KEEP_AUTO_EPOCHS-th boundary (R198). -/
def State.autoKeep (s : State) (n : Nat) : State :=
  let e := s.eff (kKeepAutoEpochs n)
  let c := (s.part n).keepCount + 1
  if e = 0 then s
  else if c < e then s.modPart n (fun p => { p with keepCount := c })
  else
    let s := s.modPart n (fun p => { p with keepCount := 0 })
    if s.keepAllowed n = stOk then s.startCommit n true (s.newSections n [s.makeSection n]) else s
/-- The epoch boundary, when the pitch or one of the numbers merged into it ends an epoch (R60, R61, R191). -/
def State.boundary (s : State) (n : Nat) : State :=
  let q := (s.part n).seq
  if (q.merged ++ [q.pitch]).any (s.epochEnd n) then
    let s := s.each (projList (activeSlot (s.part n))) (fun s p => s.boundaryProj n p)
    (s.release (fun k => k == kEpochLength n || k == kEpochOrigin n)).autoKeep n
  else s

/-- A sum over the cores' records of one scale group of the guard counts at an offset. -/
def State.guardSum (s : State) (recs : List Nat) (o : Nat) : Nat := (recs.map (fun r => mget dZero s.cm.guard (r * 16 + o))).foldl (· + ·) 0
/-- The decision of R108 for one group: `act` active, and the counts of each set. The set decided last is the one judged; the
fractions shown are those of the set that ran. Assumption 52 [DEDUCED, unsafe]. -/
def State.decide108 (s : State) (n nsets minAct act : Nat) (sat und : Nat → Nat) (g : ScaleGroup) : State × ScaleGroup × Bool :=
  let sf := s.dget (kSatFraction n)
  let uf := s.dget (kUnderFraction n)
  let fits := fun k => fitsSet act (sat k) (und k) sf uf
  if act < minAct then (s, g, false)
  else
    let cur := setIn nsets ((g.next.map (·.1)).getLastD g.cur)
    let flags := s.dget (kGuardFlags n)
    let flags := setBit flags 0 (bit flags 0 || decide (sf * act < sat cur * 10000))
    let flags := setBit flags 1 (bit flags 1 || decide (uf * act < und cur * 10000))
    let g := { g with sat := sat (setIn nsets g.cur) * 10000 / act, under := und (setIn nsets g.cur) * 10000 / act }
    if fits cur then (s.dset (kGuardFlags n) flags, { g with nofit := false }, false)
    else match if s.dget (kGuardAction n) = 2 then (List.range nsets).find? fits else none with
      | some k => (s.dset (kGuardFlags n) (setBit flags 3 true), { g with nofit := false, next := g.next ++ [(k, 1)] }, true)
      | none => (s.dset (kGuardFlags n) (setBit flags 2 true), { g with nofit := true }, false)
/-- The rescale records of the partition's cores that enabled positions use (R103) or whose positions have counted in the window, with their scale
group, as core × 32 + index: first those in use. -/
def State.groupRecs (s : State) (n : Nat) : List (Nat × Nat) :=
  let all := (s.imageCores n).flatMap (fun c => mrange s.cm.resc (c * 32) 32)
  let used := fun (e : Nat × Nat) => s.recUsed (e.1 / 32) (e.1 % 32)
  let counted := fun (e : Nat × Nat) => !used e && !(mrange s.cm.guard (e.1 * 16) 16).isEmpty
  (all.filter used ++ all.filter counted).map (fun e => (rsGroup e.2, e.1))
/-- The window's decision for scale group `g`. Records that disagree on NSETS: assumption 99 [DESIGN CHOICE, unsafe]. -/
def State.windowGroup (s : State) (n : Nat) (all : List (Nat × Nat)) (g : Nat) : State :=
  let recs := (all.filter (fun e => e.1 == g)).map (·.2)
  let ns := rsNsets (mget dZero s.cm.resc (recs.headD 0))
  let r := s.decide108 n ns (s.dget (kGuardMinActive n)) (s.guardSum recs 0) (fun k => s.guardSum recs (1 + k)) (fun k => s.guardSum recs (5 + k))
    (mget dScale (s.part n).win.groups g)
  let s := r.1.modPart n (fun p => { p with win := { p.win with groups := mset dScale p.win.groups g r.2.1 } })
  if r.2.2 then s.dadd (kGroupsSwitched n) 1 else s
/-- The window's decision for stream `t.owner` (R217). -/
def State.windowStream (s : State) (n : Nat) (t : Tile) : State :=
  let k := t.owner
  let q := s.stream k
  let r := s.decide108 n (s.tileField t 4 1) (s.eff (kEncMinActive k)) (mget dZero q.guard 0) (fun i => mget dZero q.guard (1 + i))
    (fun i => mget dZero q.guard (5 + i)) q.grp
  r.1.modStream k (fun q => { q with grp := r.2.1, guard := [] })
/-- The guard window at a belay (R108, R113, R217). -/
def State.windowBelay (s : State) (n : Nat) : State :=
  let w := (s.part n).win
  if w.pos + 1 < w.len then s.modPart n (fun p => { p with win := { p.win with pos := p.win.pos + 1 } })
  else
    let all := s.groupRecs n
    let s := s.each (all.map (·.1)).eraseDups (fun s g => s.windowGroup n all g)
    let s := s.each (s.partCores n) (fun s c => s.clearGuard c)
    let s := ((activeSlot (s.part n)).tiles.filter (fun t => t.kind == 4 && decide (t.owner < 32))).foldl (fun s t => s.windowStream n t) s
    let s := s.dset (kGroupsNofit n) ((s.part n).win.groups.filter (fun e => e.2.nofit)).length
    let s := s.release (fun k => k / 256 == 0x3040 + 0x100 * n)
    s.modPart n (fun p => { p with win := { p.win with pos := 0, len := s.dget (kGuardWindow n) } })

/-- Does logical core number `j` of a cluster take a cairn at the belay that is `c` executed pitches after the cycle's first
(R430)? -/
def cairnDue (i j c : Nat) : Bool := c == 0 || (decide (j * i / 16 ≤ c) && (c - j * i / 16) % i == 0)
/-- The cairn schedule at a belay (R430, R446): a cairn due while the controller restarts is taken late. -/
def State.cairnBelay (s : State) (n : Nat) : State :=
  let w := (s.part n).win
  let i := if w.cycleDue then s.dget kCairnInterval else w.interval
  let c := if w.cycleDue then 0 else w.cycle.getD 0 + 1
  let p := s.pitchOf n
  let s := s.modPart n (fun q => { q with win := { q.win with cycle := some c, cycleDue := false, interval := i } })
  s.each (s.imageCores n) (fun s k =>
    let q := s.core k
    let due := cairnDue i (k % 16) c || q.cairn.late
    if q.mode != CoreMode.live || !due then s
    else if (s.cluster (clusterOf k)).restarting.isSome then s.modCore k (fun q => { q with cairn := { q.cairn with late := true } })
    else s.modCore k (fun q => { q with cairn := { q.cairn with late := false, due := some p, writing := none } }))

/-- Streams at a belay of their partition (R209, R227): a lost stream is reported, and enables take effect. -/
def State.streamBelay (s : State) (n : Nat) : State :=
  let s := s.each ((List.range 32).filter (fun k => s.holder k == some n)) (fun s k =>
    if (s.stream k).lostDue then (s.modStream k (fun q => { q with lostDue := false, mode := StreamMode.lost })).warn 0x0004 n k else s)
  s.forceStreams n
/-- DECODE of the pitches due to group `g` before pitch `p`. -/
def State.decodeBefore (s : State) (g p : Nat) : State :=
  (List.range ((s.rgroup g).due.filter (fun d => decide (d.1 < p))).length).foldl (fun s _ => s.decodeNext g) s
/-- Groups at a belay of their partition (R229): one enabled at the belay of pitch `p` starts with a window of zeros, and its first live
record is that of `p`. Assumption 116 [DEDUCED, unsafe]. -/
def State.groupBelay (s : State) (n : Nat) : State :=
  let p := s.pitchOf n
  s.each ((List.range 256).filter (fun g => s.holder (32 + g) == some n)) (fun s g =>
    let on := s.groupWanted g
    if (s.rgroup g).force = on then s
    else if on then (s.decodeBefore g p).modGroup g (fun q => { q with force := true, since := p, upTo := none, window := [], rings := [] })
    else s.modGroup g (fun q => { q with force := false, upTo := some p }))
/-- DECODE is due for every readout group of the partition (R221); PARTIAL marks what R222 names. -/
def State.decodeDue (s : State) (n : Nat) : State :=
  let q := (s.part n).seq
  let dropped := bit (s.part n).ledger.flags 4
  let partial_ := (q.overrun && q.truncAt.isSome) || q.absorbAt.isSome || dropped
  s.each ((s.partGroups n).filter (fun g => s.slicePresent (g % 64))) (fun s g =>
    s.modGroup g (fun r => { r with due := r.due ++ [(q.pitch, q.merged.length + 1, if partial_ then 16 else 0)] }))

/-! ### The ledger (R449) -/

/-- The drops marked for target pitches to `p` join the counts of their cores. -/
def State.foldDrops (s : State) (n p : Nat) : State :=
  let due := (s.part n).ledger.drops.filter (fun d => decide (d.1 ≤ p))
  let s := s.modPart n (fun q => { q with ledger := { q.ledger with drops := q.ledger.drops.filter (fun d => !decide (d.1 ≤ p)) } })
  due.foldl (fun s d => s.ledgerDrop n d.2.1 d.2.2) s
/-- MODE of a core entry (Table 16.13). -/
def modeCode (k : Core) : Nat := match k.mode with
  | .failed => 1
  | .excused => 2
  | .lost => 3
  | .live => if k.led.cold then 4 else 0
/-- STATIONS of a core entry. -/
def stationsOf (k : Core) : Nat := match k.led.stations with
  | some v => v
  | none => if k.mode = .live then stationsLive k else 0
/-- Has a core something to tell in the ledger? -/
def ledgerSpeaks (k : Core) : Bool := k.mode != CoreMode.live || k.truncated || k.absorbed || k.led != {}
/-- Bytes of a record. -/
def ledgerLen (r : LedgerRec) : Nat := 32 + 32 * r.cores.length + 16 * r.events.length
/-- Bytes of a ledger's ring (R273). -/
def ledgerRing : Nat := 2 ^ 27
/-- The newest records that LEDGER_DEPTH and the ring of 128 MiB keep. -/
def trimLedger (depth : Nat) : List LedgerRec → List LedgerRec
  | [] => []
  | e :: r => if depth < r.length + 1 ∨ ledgerRing < ((e :: r).map ledgerLen).foldl (· + ·) 0 then trimLedger depth r else e :: r
/-- Records entered in the ledger's ring. -/
def pushRecs (l : Ledger) (rs : List LedgerRec) : Ledger :=
  { l with recs := trimLedger l.depth (l.recs ++ rs), next := (l.next + (rs.map ledgerLen).foldl (· + ·) 0) % ledgerRing }
/-- The ledger record of the pitch that closes; while the management core restarts it waits, 64 at most (R447). The counts of the cores start again, so that what is counted before the next OPEN stands in the next record. -/
def State.writeLedger (s : State) (n : Nat) (slack : Int) : State :=
  let p := s.part n
  let l := p.ledger
  let cs := (s.partCores n).filter (fun c => ledgerSpeaks (s.core c))
  let flags := setBit l.flags 3 (bit l.flags 3 || !p.seq.merged.isEmpty)
  let flags := setBit flags 7 (bit flags 7 || (s.partCores n).any (fun c => (s.core c).mode == CoreMode.excused))
  let rec_ : LedgerRec := {
    pitch := p.seq.pitch
    openTime := s.dget (kLastOpenTime n)
    slack := slack
    flags := flags
    merged := p.seq.merged.length
    cores := cs.map (fun c => ⟨c, stationsOf (s.core c), modeCode (s.core c), (s.core c).led⟩)
    events := l.events.take 1024 }
  let s := s.modPart n (fun p => { p with ledger := { p.ledger with flags := 0, events := p.ledger.events.drop 1024 } })
  let s := s.each (s.partCores n) (fun s c => s.modCore c (fun k => { k with led := {} }))
  if s.rel.mgmtUp then s.modPart n (fun p => { p with ledger := pushRecs p.ledger [rec_] })
  else if l.queued.length < 64 then s.modPart n (fun p => { p with ledger := { p.ledger with queued := p.ledger.queued ++ [rec_] } })
  else s.dadd (kLedgerGaps n) 1

/-! ### The cache review (R134) -/

/-- The resident rows without a hit and the hot cached rows that change places, at most 64, while resident bytes allow
(assumption 23 [DESIGN CHOICE, unsafe]). -/
def reviewPairs (limit : Nat) : Nat → Nat → List CacheObj → List CacheObj → List (CacheObj × CacheObj)
  | 0, _, _, _ => []
  | _ + 1, _, [], _ => []
  | _ + 1, _, _, [] => []
  | f + 1, used, a :: as, b :: bs =>
    if used - a.units + b.units ≤ limit then (a, b) :: reviewPairs limit f (used - a.units + b.units) as bs
    else reviewPairs limit f used (a :: as) bs
/-- The review of one core's cache. -/
def State.reviewCore (s : State) (n c : Nat) : State :=
  let l := (s.core c).cache
  let cold := l.filter (fun o => o.cls == CacheClass.resident && !o.hit)
  let hot := l.filter (fun o => o.kind == CacheKind.row && o.cls == CacheClass.cached && o.score == 3)
  let ps := (reviewPairs (32 * s.eff (kCacheResidentLimit n)) (64 + hot.length) (residentUnits l) cold hot).take 64
  s.modCore c (fun k => { k with cache := k.cache.map (fun o =>
    let o := if ps.any (fun p => p.1.idx == o.idx && o.cls == CacheClass.resident) then { o with cls := CacheClass.cached }
      else if ps.any (fun p => p.2.idx == o.idx && o.kind == CacheKind.row && o.cls == CacheClass.cached) then { o with cls := CacheClass.resident }
      else o
    { o with hit := false }) })
/-- The review at every 1,024th executed pitch. -/
def State.reviewBelay (s : State) (n : Nat) : State :=
  if (s.part n).seq.executed % 1024 = 0 ∧ s.eff (kCacheAdapt n) = 1 then
    s.each ((s.imageCores n).filter (fun c => (s.cluster (clusterOf c)).restarting.isNone)) (fun s c => s.reviewCore n c)
  else s

/-! ### The belay -/

/-- Is the index one whose reads return the last belay's values for partition `n` (R65, R113, R144, R202, R231)? -/
def State.snapIndex (s : State) (n i : Nat) : Bool :=
  i == 0x2120 + n || i == 0x3041 + 0x100 * n || i == 0x3051 + 0x100 * n || i == 0x3061 + 0x100 * n || s.heldStatusIndex n i
/-- The snapshot of a belay (R353). -/
def State.takeSnap (s : State) (n : Nat) : State :=
  let vals := mset dZero (s.dict.filter (fun e => s.snapIndex n (e.1 / 256))) (kLicensed n) (if s.plasticLicensed then 1 else 0)
  let cs := (s.partCores n).foldl (fun m c => m ++ mrange s.cm.counters (c * 256) 256) []
  let outs := (s.groups.filter (fun e => s.holder (32 + e.1) == some n)).map (fun e => (e.1, e.2.counts))
  let grps := (s.part n).win.groups ++ ((List.range 32).filter (fun k => s.holder k == some n)).map (fun k => (2 ^ 15 + k, (s.stream k).grp))
  s.modPart n (fun p => { p with snap := { vals := vals, counters := cs, groups := grps, first := p.win.first, projs := (activeSlot p).projs, outs := outs, convs := (List.range 288).filter (fun w => s.holder w == some n) } })
/-- The slack of R48, R54 and the counts of R56, R59 at the belay instant. -/
def State.noteSlack (s : State) (n : Nat) : State × Int :=
  let p := s.part n
  let dl : Int := s.deadlineOf n
  let slack := dl - s.now
  let s := if slack < 0 then s.overran n else s
  let s := s.dset (kLastSlack n) (ofInt 32 slack)
  let s := if slack < toInt 32 (s.dget (kMinSlack n)) then s.dset (kMinSlack n) (ofInt 32 slack) else s
  let s := if (partHalves p).length = 2 then
      (s.dset (kSlackWest n) (ofInt 32 (dl - p.seq.westAt))).dset (kSlackEast n) (ofInt 32 (dl - p.seq.eastAt)) else s
  let cs := s.partCores n
  let s := s.dadd64 (kEventsTruncated n) ((cs.map (fun c => (s.core c).led.truncIn)).foldl (· + ·) 0)
  (s.dadd64 (kSpikesWithheld n) ((cs.map (fun c => (s.core c).led.withheld)).foldl (· + ·) 0), slack)
/-- A pending swap at a belay (R166); DECODE of the pitches before it uses the tiles before it. Assumption 116 [DEDUCED, unsafe]. -/
def State.swapBelay (s : State) (n : Nat) : State :=
  if (s.part n).pendSwap && !applying (activeSlot (s.part n)) then (s.each (s.partGroups n) (fun s g => s.decodeAll g)).swapNow n true
  else s
/-- What ends a run at a belay: a disable that waits, or the last pitch number (R46, R170). -/
def State.endBelay (s : State) (n : Nat) : State :=
  let s := if (s.part n).seq.pitch + 1 = pitchEnd then (s.warn 0x0003 n 0).modPart n (fun p => { p with state := .disabling }) else s
  if (s.part n).state = .disabling then s.disableEffect n else s
/-- A logical core moves to its cluster's spare (R448): its neuron state, ring and overflow list are copied, records, outlier
map and resident list are loaded, and its old slot is isolated for the test. -/
def State.swapOutNow (s : State) (c : Nat) : State := match s.spareOf (clusterOf c) with
  | none => (s.modRel (fun r => { r with swapWait := r.swapWait.filter (· != c) })).dset kTestResult 4
  | some sp =>
    let old := s.slotOf c
    let s := s.modFloor (fun f => { f with
      coreSlots := mset dCoreSlot f.coreSlots (clusterOf c * 32 + sp) 0
      slotMap := mset dSlotMap f.slotMap c sp })
    let s := s.modRel (fun r => { r with swapWait := r.swapWait.filter (· != c), testCore := r.testCore ++ [(c, old)] })
    let s := ((s.freshSlot c).seqRestart c).modCore c (fun k => { k with cache := [] })
    (s.enterResident (activeSlot (s.coreP c)) c).1
/-- The swap-outs that wait for a belay of this partition. -/
def State.swapOutBelay (s : State) (n : Nat) : State := s.each (s.rel.swapWait.filter (fun c => s.coreN c == n)) (fun s c => s.swapOutNow c)
/-- Firmware holds the partition for a profile change of a half (R402). -/
def State.holdBelay (s : State) (n : Nat) : State :=
  s.each (partHalves (s.part n)) (fun s h => if (s.half h).holding then
    s.modHalf h (fun q => { q with held := q.held.filter (· != n) ++ [n] }) else s)
/-- The belay of the open pitch (R41, R42) and the work that follows it, in its order: schedule settings, function control,
switches, guard window (of the slot that ran, Table 8.8), cairns, enables of the groups that the slot held, swap (whose cycle starts at the next belay, R168), epoch boundary, converters, voltages, clears, ledger, snapshot, disable. -/
def State.closePitch (s : State) (n : Nat) : State :=
  let k := s.noteSlack n
  let s := (k.1.switchUnits n).modPart n (fun p => { p with seq := { p.seq with isOpen := false, belayAt := s.now, executed := p.seq.executed + 1 } })
  let adapt := s.eff (kCacheAdapt n)
  let s := (s.release (s.belayKey n)).settleCaches n adapt (s.eff (kCacheResidentLimit n))
  let s := s.modPart n (fun p => { p with stations := s.dget (kStationEnable n) })
  let s := (((((((s.foldDrops n (s.pitchOf n)).decodeDue n).applySwitches n).windowBelay n).cairnBelay n).groupBelay n).swapBelay n).boundary n
  let s := (s.streamBelay n).groupBelay n
  let s := s.each (partHalves (s.part n)) (fun s h => s.setVoltage n h)
  let s := ((s.part n).clears.foldl (fun s c => s.clearWhat n c) s).modPart n (fun p => { p with
    clears := []
    contLeft := p.contLeft.map (· - 1) })
  (((((s.writeLedger n k.2).reviewBelay n).swapOutBelay n).holdBelay n).takeSnap n).endBelay n
/-- CLUSTER_BELAY (R41): the sequencer holds a cluster belay; with the last one the pitch closes. -/
def execClusterBelay (n cl t : Nat) (s : State) : Res :=
  let s := s.at t
  let p := s.part n
  .next (if p.seq.isOpen && p.mask.testBit cl && (s.cluster cl).belaySent && !p.seq.belays.contains cl then
    let s := s.modPart n (fun p => { p with seq := { p.seq with
      belays := p.seq.belays ++ [cl]
      westAt := if halfOf cl = 0 then s.now else p.seq.westAt
      eastAt := if halfOf cl = 0 then p.seq.eastAt else s.now } })
    let s := s.dset kVc0Peak (max (s.dget kVc0Peak) (min (2 ^ 32 - 1) (s.now - (s.cluster cl).pathFrom)))
    if (partClusters p).all (fun c => c == cl || p.seq.belays.contains c) then s.closePitch n else s
  else s)

end Sys2Proof.Machine
end

