-- ==== Sys2Proof/Machine/Takeover.lean ====
section
/-!
DEFINITION. Continuity (chapter 16): cairns, takeovers and replay, store rebuilds, the restarts of cluster controllers and of
the management core, swap-outs, and fault acknowledgement.
-/

namespace Sys2Proof.Machine

/-! ### Cairns and takeovers (R431, R438 to R442) -/

/-- CAIRN_COMPLETE (R431): the cairn being written replaces the older one. -/
def execCairnComplete (c : Nat) (s : State) : Res :=
  .next (match (s.core c).cairn.writing with
    | none => s
    | some k =>
      if (s.core c).mode != CoreMode.live then s
      else s.modCore c (fun q => { q with cairn := { q.cairn with writing := none, latest := some k, slot := 1 - q.cairn.slot } }))

/-- The copies that sources hold for port `a` are released from their count and sent again at once (R299, R443). -/
def State.resendTo (s : State) (a : Nat) : State :=
  let mine := s.fab.unacked.filter (fun u => u.pkt.dst == a)
  let s := s.modFab (fun f => { f with unacked := f.unacked.map (fun u => if u.pkt.dst == a then { u with resends := 0, lost := false } else u) })
  mine.foldl (fun s u => s.resend { u with resends := 0, lost := false } false) s

/-- The last closed pitch of a partition. -/
def lastClosed (q : Seq) : Nat := if q.isOpen then q.prevPitch else q.pitch
/-- May a takeover of core `c` proceed now: declared failed, its partition between pitches, its controller running (R446)? -/
def State.takeoverReady (s : State) (c : Nat) : Bool :=
  (s.core c).mode == CoreMode.failed && !(s.coreP c).seq.isOpen && (s.cluster (clusterOf c)).restarting.isNone
/-- The spare takes the failed slot's place and is loaded (R438). -/
def State.spareIn (s : State) (c sp : Nat) : State := (s.spareTakes c sp).loadSpare c
/-- TAKEOVER (R438): step 2 of Table 16.9. -/
def execTakeover (c t : Nat) (s : State) : Res :=
  let s := s.at t
  .next (match (s.core c).catchUp with
    | none => s
    | some u =>
      if !s.takeoverReady c || u.cold then s
      else
        let s := (s.spareIn c u.slot).modCore c (fun k => { k with mode := .excused, ring := [] })
        (s.modRel (fun r => { r with replays := r.replays ++ [c] })).dadd kTakeovers 1)
/-- COLD_TAKEOVER (R442): no replay; the spare joins at the next OPEN. -/
def execColdTakeover (c t : Nat) (s : State) : Res :=
  let s := s.at t
  .next (match (s.core c).catchUp with
    | none => s
    | some u =>
      if !s.takeoverReady c || !u.cold then s
      else
        let s := s.ledgerDrop (s.coreN c) c (s.core c).ring.length
        let s := (s.spareIn c u.slot).modCore c (fun k => { k with
          mode := .excused
          ring := []
          catchUp := some { u with ready := true, next := pitchEnd } })
        s.dadd kColdTakeovers 1)

/-! ### The replay input (R439) -/

/-- Every spike of the partition's journals from pitch `lo` to `hi`, with its pitch. -/
def State.journalSpikes (s : State) (n lo hi : Nat) : List (Nat × Nat × Nat) :=
  (partClusters (s.part n)).flatMap (fun cl => ((s.cluster cl).journal.filter (fun e => decide (lo ≤ e.1) && decide (e.1 ≤ hi))).flatMap (fun e =>
    e.2.filterMap (fun j => match j with
      | .spike k w src => if w then none else some (e.1, src, k)
      | _ => none)))
/-- The records that a spike of pitch `q` sends to core `x` of this module with a target pitch of [lo, hi] and a delay
that `ok` accepts. -/
def State.reEmit (s : State) (sl : Slot) (x lo hi : Nat) (ok : Nat → Bool) (e : Nat × Nat × Nat) : List EvRec :=
  (s.destRead sl (e.2.1 / 16384) (e.2.1 % 16384)).filterMap (fun d =>
    let t := e.1 + deDelay d
    if !deRemote d && deCore d == x && ok (deDelay d) && decide (lo ≤ t) && decide (t ≤ hi) then
      some { word := evMk e.2.2 (t % 1024) false e.2.1 (deRow d), target := t }
    else none)
/-- The full target pitch of a stored record written in pitch `q`: the latest one to q + 32 with its TGT. -/
def fullTarget (q w : Nat) : Nat := q + 32 - (q + 32 + 1024 - w % 1024) % 1024
/-- Item 3: the RELEASE and INJECT entries that name core `x`. -/
def State.journalRecs (s : State) (x lo hi qlo qhi : Nat) : List EvRec :=
  ((s.cluster (clusterOf x)).journal.filter (fun e => decide (qlo ≤ e.1) && decide (e.1 ≤ qhi))).flatMap (fun e =>
    e.2.filterMap (fun j =>
      let one := fun (c : Nat) (w : BitVec 64) =>
        let t := fullTarget e.1 (evDelay w)
        if c == x % 16 && decide (lo ≤ t) && decide (t ≤ hi) then some ({ word := w, target := t } : EvRec) else none
      match j with
      | .spike _ _ _ => none
      | .release c w => one c w
      | .inject c w => one c w))
/-- Item 4: the stream-journal events of pitch `p` that name core `x`. -/
def State.journalStreams (s : State) (n x lo p : Nat) : List EvRec :=
  ((List.range 32).filter (fun k => s.holder k == some n)).flatMap (fun k =>
    ((s.stream k).journal.filter (fun e => decide (lo ≤ e.1) && decide (e.1 ≤ p))).flatMap (fun e =>
      (e.2.filter (fun r => r.1 == x)).map (fun r => { word := r.2, target := e.1, stream := some k })))
/-- Items 2 to 4 of the replay input of core `x` for the pitches from `lo` to `p`, in ascending target pitch. A record that the journal also holds as
RELEASE is taken once (assumption 24 [DEDUCED, unsafe]). -/
def State.replayItems (s : State) (n x lo p : Nat) (u : CatchUp) : List EvRec :=
  let sl := activeSlot (s.part n)
  let q := u.k - 31
  let spikes := (s.journalSpikes n q u.d).filter (fun e => !(e.1 == u.d && e.2.1 / 16384 == x))
  sortBy (·.target) (spikes.flatMap (s.reEmit sl x lo p (fun d => decide (d ≤ 32))) ++ s.journalRecs x lo p q u.d ++ s.journalStreams n x lo p)
/-- Items 2 to 4 in ascending target pitch, items 1 and 5 before and after them: the replay input of executed pitch `p` of
core `x`, with the numbers merged into it from `lo`. -/
def State.replayInput (s : State) (n x lo p : Nat) (u : CatchUp) : List EvRec :=
  let sl := activeSlot (s.part n)
  let own := (s.core x).ring.filter (fun e => decide (lo ≤ e.target) && decide (e.target ≤ p))
  let mine := ((u.own.filter (fun e => decide (u.d ≤ e.1))).map (fun e => (e.1, x * 16384 + e.2.q, e.2.n))).flatMap (s.reEmit sl x lo p (fun _ => true))
  own ++ s.replayItems n x lo p u ++ mine

/-! ### Prefetch (R131, R440) -/

/-- Does the spare that stands for core `c` replay? -/
def State.replaying (s : State) (c : Nat) : Bool := (s.core c).mode == CoreMode.excused && (s.core c).catchUp.any (fun u => !u.cold && !u.ready)
/-- May FETCH of core `c` issue a row read now? -/
def State.mayRead (s : State) (c : Nat) : Bool :=
  ((s.liveCore c && !(s.core c).truncated && !(s.core c).absorbed && !(s.core c).belaySent) || s.replaying c) && decide ((s.core c).reads.length < 64)
/-- The rows that FETCH of core `c` looks ahead to: of the lookahead slots, or of the whole replay input. -/
def State.aheadRows (s : State) (c : Nat) : List Nat := match (s.core c).catchUp with
  | some u => if s.replaying c then (s.replayItems (s.coreN c) c u.next (lastClosed (s.coreP c).seq) u).map (fun e => evRow e.word) else []
  | none => lookahead (s.core c) (s.eff (kPrefetchDepth (s.coreN c)))
/-- The next row to prefetch. -/
def State.nextPrefetch (s : State) (c : Nat) : Option Nat :=
  let k := s.core c
  let sl := activeSlot (s.coreP c)
  (s.aheadRows c).find? (fun r =>
    (cacheFind k.cache .row r).isNone && !k.reads.any (fun q => q.row == r) && !k.deferred.contains r && decide (r < rowCount sl c))

/-- PREFETCH (R131, R440): a prefetch for a row that a lookahead record names; with every such row cached, the ones that are named
are pinned. -/
def execPrefetch (c : Nat) (s : State) : Res :=
  .next (if !s.mayRead c then s else match s.nextPrefetch c with
    | none => s.modCore c repin
    | some r => (s.issuePrefetch (activeSlot (s.coreP c)) c r).modCore c repin)

/-- PREFETCH_RETRY (R133): the first deferred prefetch, once space frees. -/
def execPrefetchRetry (c : Nat) (s : State) : Res :=
  .next (if !s.mayRead c then s else match (s.core c).deferred with
    | [] => s
    | r :: _ =>
      let sl := activeSlot (s.coreP c)
      match s.roomIn c (s.core c).cache (s.rowUnits sl c r + 1) with
      | none => s
      | some _ => s.issuePrefetch sl c r)

/-! ### Replay (R440) -/

/-- The scale set that a group had in pitch `p` (R109). -/
def State.setAt (s : State) (n p g : Nat) : Nat :=
  match (((s.part n).win.sets.filter (fun e => decide (e.1 ≤ p) && (e.2.1 == none || e.2.1 == some g))).getLast?) with
  | some e => e.2.2
  | none => 0
/-- The generation of a projection in pitch `p`, if a copy still holds it (R440). -/
def genAt (pr : Proj) (p : Nat) : Option Nat :=
  let g := match (pr.ranges.filter (fun r => decide (r.1 ≤ p))).getLast? with
    | some r => r.2
    | none => match pr.ranges with
      | r :: _ => (r.2 + 65535) % 65536
      | [] => if pr.moved && !pr.told then (pr.gen + 65535) % 65536 else pr.gen
  if g = pr.gen then some g
  else if (g + 1) % 65536 = pr.gen ∧ !pr.apply then some g else none
/-- The projections of the ACTIVE slot set to the generations of pitch `p`; where the copy is gone, the present one. -/
def projsAt (m : SMap Proj) (p : Nat) : SMap Proj := m.map (fun e => (e.1, { e.2 with gen := (genAt e.2 p).getD e.2.gen }))
/-- Is a generation of pitch `p` gone? -/
def genDiff (m : SMap Proj) (p : Nat) : Bool := m.any (fun e => (genAt e.2 p).isNone)
/-- The ACTIVE slot's projections replaced. -/
def State.setProjs (s : State) (n : Nat) (m : SMap Proj) : State :=
  s.modPart n (fun q => match q.active with
    | some i => modSlot q i (fun sl => { sl with projs := m })
    | none => q)
/-- The next executed pitch from `lo` on that is closed, by the cluster's journal. -/
def State.nextReplay (s : State) (c lo : Nat) : Option Nat :=
  ((s.cluster (clusterOf c)).journal.map (·.1)).find? (fun p => decide (lo ≤ p) && decide (p ≤ lastClosed (s.coreP c).seq))
/-- One pitch replayed (R440). -/
def State.replayOne (s : State) (c p : Nat) (u : CatchUp) : State :=
  let n := s.coreN c
  let input := s.replayInput n c u.next p u
  let kept := (activeSlot (s.part n)).projs
  let s := if genDiff kept p then s.ledgerFlag n 8 else s
  let s := if (partClusters (s.part n)).any (fun cl => !s.localArea cl) then s.ledgerFlag n 9 else s
  let s := (((s.setProjs n (projsAt kept p)).clearAcc c).noteLate c input).modCore c (fun k => { k with
    ring := k.ring.filter (fun e => !(decide (u.next ≤ e.target) && decide (e.target ≤ p))) })
  let sl := activeSlot (s.part n)
  let s := input.foldl (fun s e => s.accumulateEvent sl c p false e.word) s
  let r := s.sweep c true false (fun g => s.setAt n p g)
  let u' := { u with next := p + 1, own := u.own ++ r.2.map (fun sp => (p, sp)), total := u.total + input.length }
  let s := (r.1.setProjs n kept).modCore c (fun k => { k with catchUp := some u' })
  if (s.nextReplay c (p + 1)).isNone then s.modCore c (fun k => { k with catchUp := some { u' with ready := true } }) else s
/-- REPLAY_PITCH (R440): the next closed pitch; with none left the spare is ready to rejoin. -/
def execReplayPitch (c t : Nat) (s : State) : Res :=
  let s := s.at t
  .next (match (s.core c).catchUp with
    | none => s
    | some u =>
      if (s.core c).mode != CoreMode.excused || u.cold then s
      else match s.nextReplay c u.next with
        | some p => s.replayOne c p u
        | none => s.modCore c (fun k => { k with catchUp := some { u with ready := true } }))

/-! ### The long-delay store's rebuild (R444) and a lost leaf -/

/-- The long-delay store of a cluster is cleared, and a rebuild is due. -/
def State.clearStore (s : State) (cl : Nat) : State :=
  s.modCluster cl (fun q => { q with lds := [], rebuild := some (q.lds, s.pitchOf ((s.partOf cl).getD 8)) })
/-- A long-delay store error (R444). -/
def State.failStore (s : State) (cl detail : Nat) : State := (s.reportUnit 0x0201 2 5 cl (s.partOf cl) detail).clearStore cl
/-- What the journals yield for the store of cluster `cl`, in the order of the journals: core, record and target pitch of every event with a DELAY above 32
and a target pitch later than `p0`. -/
def State.yielded (s : State) (n cl p0 : Nat) : List (Nat × BitVec 64 × Nat) :=
  let sl := activeSlot (s.part n)
  (s.journalSpikes n 0 (s.pitchOf n)).flatMap (fun e =>
    (s.destRead sl (e.2.1 / 16384) (e.2.1 % 16384)).filterMap (fun d =>
      let t := e.1 + deDelay d
      if !deRemote d && clusterOf (deCore d) == cl && decide (32 < deDelay d) && decide (p0 < t) then
        some (deCore d % 16, evMk e.2.2 (t % 1024) false e.2.1 (deRow d), t)
      else none))
/-- The records of a store cleared in pitch `p0` that a rebuild re-enters (R444): those it held that the journals yield. One that fell due meanwhile is
overdue. An event that had not reached the store at the clear reaches it by itself (assumption 25 [DEDUCED, unsafe]). -/
def State.rebuilt (s : State) (n cl : Nat) (old : List LdsRec) (p0 : Nat) : List LdsRec :=
  let y := s.yielded n cl p0
  (old.filter (fun r => !r.remote && y.contains (r.core, r.word, r.target))).map (fun r => { r with late := bucketDue r.target (s.pitchOf n) })
/-- STORE_REBUILD (R444). -/
def execStoreRebuild (cl t : Nat) (s : State) : Res :=
  let s := s.at t
  .next (match (s.cluster cl).rebuild with
    | none => s
    | some (old, p0) =>
      let recs := s.rebuilt ((s.partOf cl).getD 8) cl old p0
      let loss := old.length - recs.length
      let s := s.modCluster cl (fun q => { q with lds := q.lds ++ recs, rebuild := none })
      let s := (s.dadd kStoreRebuilds 1).dadd64 kStoreLoss loss
      if loss = 0 then s else s.reportUnit 0x0806 2 5 cl (s.partOf cl) loss)
/-- The cores of a cluster whose leaf switch has failed (Table 16.1) are lost, and its links are excluded (R307). -/
def State.loseLeaf (s : State) (cl : Nat) : State :=
  (s.dropLinks cl (List.range 38)).each (s.clCores cl) (fun s c => if (s.core c).mode == CoreMode.lost then s else s.loseCore c)
/-- A leaf switch has failed. -/
def State.failLeaf (s : State) (cl : Nat) : State := (s.reportUnit 0x0203 2 6 cl (s.partOf cl) 0).loseLeaf cl

/-! ### Restarts (R446, R447) -/

/-- A cluster controller restarts: guard counts of its cores for the open window are lost. -/
def State.restartController (s : State) (cl : Nat) : State :=
  if (s.cluster cl).restarting.isSome then s
  else
    let s := s.each (s.clCores cl) (fun s c => s.clearGuard c)
    (s.modCluster cl (fun q => { q with restarting := some s.now })).dadd kControllerRestarts 1
/-- A fault of a cluster controller. -/
def State.startController (s : State) (cl detail : Nat) : State := (s.reportUnit 0x0202 1 4 cl (s.partOf cl) detail).restartController cl
/-- CONTROLLER_RESTART (R446). -/
def execControllerRestart (cl detail t : Nat) (s : State) : Res := .next ((s.at t).startController cl detail)
/-- CONTROLLER_RESTART_DONE (R446). -/
def execControllerRestartDone (cl t : Nat) (s : State) : Res :=
  .next ((s.at t).modCluster cl (fun q => { q with restarting := none }))
/-- The management core restarts (R447). -/
def State.restartMgmt (s : State) : State :=
  if !s.rel.mgmtUp then s
  else ((if s.dget kAttestState = 1 then (s.dset kAttestState 0).modSec (fun x => { x with signing := [] }) else s).modRel (fun r =>
    { r with mgmtUp := false })).dadd kMgmtRestarts 1
/-- A fault of the management core; its record is written after the restart. -/
def State.startMgmt (s : State) (detail : Nat) : State := s.restartMgmt.report ⟨0x0701, 1, 8, 0, none, 0, detail⟩
/-- MGMT_RESTART (R447). -/
def execMgmtRestart (detail t : Nat) (s : State) : Res := .next ((s.at t).startMgmt detail)
/-- The ledger records that waited are written (R447). -/
def flushLedger (p : Part) : Part :=
  { p with ledger := { pushRecs p.ledger p.ledger.queued with queued := [] } }
/-- The emergency objects that have waited for the management core. -/
def State.flushObjects (s : State) : State :=
  let l := s.rel.objects
  l.foldl (fun s e => s.emergency e.1 e.2.1 e.2.2.1 e.2.2.2) (s.modRel (fun r => { r with objects := [] }))
/-- MGMT_RESTART_DONE (R447). -/
def execMgmtRestartDone (t : Nat) (s : State) : Res :=
  let s := s.at t
  .next (if s.rel.mgmtUp || s.dead then s
    else
      let w := s.rel.withheld
      let s := s.modRel (fun r => { r with mgmtUp := true, withheld := [] })
      let s := w.foldl (fun s r => s.report r) s
      (s.each (List.range 8) (fun s n => s.modPart n flushLedger)).flushObjects)

/-! ### Swap-out and test (R448) -/

/-- Is a takeover in progress in a cluster? -/
def State.takeoverBusy (s : State) (cl : Nat) : Bool := (s.clCores cl).any (fun c => (s.core c).catchUp.isSome || (s.core c).mode == CoreMode.failed)
/-- SWAP_OUT of core `c`: refused without a spare or with a takeover in progress. -/
def State.doSwapOut (s : State) (c : Nat) : Nat × State :=
  if !s.corePresent c then (stArgument, s)
  else if (s.spareOf (clusterOf c)).isNone || s.takeoverBusy (clusterOf c) then (stState, s.dset kTestResult 4)
  else
    let s := (s.modRel (fun r => { r with swapWait := r.swapWait.filter (· != c) ++ [c] })).dset kTestResult 1
    (stOk, if running (s.coreP c) then s else s.swapOutNow c)
/-- SWAP_OUT. -/
def execSwapOut (r : Requester) (c t : Nat) (s : State) : Res :=
  .next ((s.at t).typed r kTestCommand (2 ^ 28 + c) (fun s => s.doSwapOut c))
/-- The test of slot `slot`, which core `c` has left, ends (R448): the slot is the cluster's spare, or stays out of service like that of a declared
failure (R436). -/
def State.testEnds (s : State) (c slot : Nat) (pass : Bool) : State :=
  let cl := clusterOf c
  let s := s.modRel (fun r => { r with testCore := r.testCore.erase (c, slot) })
  if pass then (s.modFloor (fun f => { f with coreSlots := mset dCoreSlot f.coreSlots (cl * 32 + slot) 1 })).dset kTestResult 2
  else ((s.reportUnit 0x0103 1 1 (cl * 32 + slot) (s.partOf cl) 0xFFFFFFFF).retireSlot cl slot).dset kTestResult 3
/-- SWAP_OUT_TEST_DONE (R448). Assumption 70 [DEDUCED, unsafe]. -/
def execSwapOutTestDone (c : Nat) (pass : Bool) (t : Nat) (s : State) : Res :=
  let s := s.at t
  .next (match s.rel.testCore.find? (fun e => e.1 == c) with
    | none => s
    | some e => s.testEnds c e.2 pass)

/-! ### Fault acknowledgement (R428) -/

/-- FAULT_ACK of `v`. -/
def State.doFaultAck (s : State) (v : Nat) : Nat × State :=
  if s.dget kFaultSeq < v then (stRange, s)
  else (stOk, (s.modRel (fun r => { r with acked := max r.acked v })).updateFaultN)
/-- FAULT_ACK. -/
def execFaultAck (r : Requester) (v t : Nat) (s : State) : Res := .next ((s.at t).typed r kFaultAck v (fun s => s.doFaultAck v))

end Sys2Proof.Machine
end

