-- ==== Sys2Proof/Machine/Areas.lean ====
section
/-!
DEFINITION. What the state keeps in the local areas and in the system reserve, as the bytes that lie there: cairns, spike and stream journals
(R432 to R435, Tables 16.7 and 16.8), the rings of the pitch ledgers and the replay buffers (R273, R439, R449).
-/

namespace Sys2Proof.Machine

/-- Byte `j` of a little-endian number. -/
def byteOf (v j : Nat) : Byte := BitVec.ofNat 8 (v / 256 ^ j)

/-! ### Journals (R433, R435) -/

/-- Bit `b` of byte 1 and above of an entry's word: the number of a flag. -/
def flagNat (b : Bool) : Nat := if b then 1 else 0
/-- The words of a journal entry (Table 16.8). -/
def jEntryWords : JEntry → List Nat
  | .spike k w src => [2 ^ 62 + k * 2 ^ 58 + flagNat w * 2 ^ 57 + src]
  | .release c w => [2 ^ 63 + c * 2 ^ 58, w.toNat]
  | .inject c w => [2 ^ 63 + 2 ^ 62 + c * 2 ^ 58, w.toNat]
/-- The words of a stream journal's entry (R435). -/
def streamWords (e : Nat × BitVec 64) : List Nat := [e.1, e.2.toNat]
/-- The pitches of a journal with the place of their first word in a ring of `ring` words and their words, oldest first; the next word goes to
place `next`. -/
def jPlaces (ring next : Nat) (l : List (Nat × List Nat)) : List (Nat × Nat × List Nat) :=
  (l.foldr (fun e (a : Nat × List (Nat × Nat × List Nat)) =>
    let o := (a.1 + ring - e.2.length % ring) % ring
    (o, (e.1, o, e.2) :: a.2)) (next % ring, [])).2
/-- Byte `o` of a journal area: a 4 KiB index, then the ring (R433). -/
def jByte (ring next : Nat) (l : List (Nat × List Nat)) (o : Nat) : Byte :=
  let ps := jPlaces ring next l
  if o < 4096 then
    match (ps.filter (fun e => e.1 % 256 == o / 16)).getLast? with
    | some e => (natLe 8 e.1 ++ natLe 4 e.2.1 ++ natLe 4 e.2.2.length).getD (o % 16) 0
    | none => 0
  else
    let w := (o - 4096) / 8
    match ps.find? (fun e => decide ((w + ring - e.2.1) % ring < e.2.2.length)) with
    | some e => byteOf (e.2.2.getD ((w + ring - e.2.1) % ring) 0) (o % 8)
    | none => 0
/-- Byte `o` of the journal area of a cluster. -/
def State.clusterJournal (s : State) (cl o : Nat) : Byte :=
  let q := s.cluster cl
  jByte journalRing q.jNext (q.journal.map (fun e => (e.1, e.2.flatMap jEntryWords))) o
/-- Byte `o` of the stream journal of stream `k`. -/
def State.streamJournal (s : State) (k o : Nat) : Byte :=
  let q := s.stream k
  jByte streamRing q.jNext (q.journal.map (fun e => (e.1, e.2.flatMap streamWords))) o

/-! ### Local areas (Table 16.7) -/

/-- Byte `o` of the cairn slots of slice `i`: nothing in a slot that holds no cairn. -/
def State.cairnByte (s : State) (i o : Nat) : Option Byte :=
  let c := 32 * i + o / 0x40000
  let base := (c * 2 + o / 0x20000 % 2) * 16384
  if (mrange s.cm.cairns base 16384).isEmpty then none
  else some (byteOf (mget dNeuron s.cm.cairns (base + o % 0x20000 / 8)).toNat (o % 8))
/-- Byte `o` of the local area of slice `i`, where the state's records lie there; the bytes of the mirror the spec does not lay out. -/
def State.localByte (s : State) (i o : Nat) : Option Byte :=
  if o < 0x800000 then s.cairnByte i o
  else if o < 0x900000 then none
  else if o < 0xD00000 then (if i % 2 = 0 then some (s.streamJournal (i / 2) (o - 0x900000)) else none)
  else if o < 0x2680000 then some (s.clusterJournal (2 * i) (o - 0xD00000))
  else some (s.clusterJournal (2 * i + 1) (o - 0x2680000))

/-! ### The system reserve (R273) -/

/-- A core entry of the ledger (Table 16.13). -/
def ledgerCoreBytes (c : LedgerCore) : Bytes :=
  natLe 2 c.core ++ natLe 1 c.stations ++ natLe 1 c.mode ++ natLe 4 c.led.truncIn ++ natLe 4 c.led.withheld ++ natLe 4 c.led.absorbed ++
    natLe 4 c.led.dropped ++ natLe 4 c.led.replayed ++ natLe 2 (min c.led.late 65535) ++ natLe 6 c.led.cairn
/-- A ledger record (Tables 16.12 to 16.14). -/
def ledgerBytes (l : LedgerRec) : Bytes :=
  natLe 8 l.pitch ++ natLe 8 l.openTime ++ natLe 4 (ofInt 32 l.slack) ++ natLe 2 l.flags ++ natLe 2 (min l.merged 65535) ++
    natLe 2 l.cores.length ++ natLe 2 l.events.length ++ natLe 4 (ledgerLen l) ++ l.cores.flatMap ledgerCoreBytes ++
    l.events.flatMap (fun e => natLe 1 e.type ++ natLe 1 0 ++ natLe 2 e.arg0 ++ natLe 4 e.arg1 ++ natLe 8 e.arg2)
/-- The records of a ledger with the places of their first bytes in the ring. -/
def ledgerPlaces (l : Ledger) : List (Nat × LedgerRec) :=
  (l.recs.foldr (fun e (a : Nat × List (Nat × LedgerRec)) =>
    let o := (a.1 + ledgerRing - ledgerLen e % ledgerRing) % ledgerRing
    (o, (o, e) :: a.2)) (l.next % ledgerRing, [])).2
/-- Byte `o` of the ledger ring of partition `n`: records one after the other (assumption 112 [DEDUCED, unsafe]). -/
def State.ledgerByte (s : State) (n o : Nat) : Option Byte :=
  ((ledgerPlaces (s.part n).ledger).find? (fun e => decide ((o + ledgerRing - e.1) % ledgerRing < ledgerLen e.2))).map
    (fun e => (ledgerBytes e.2).getD ((o + ledgerRing - e.1) % ledgerRing) 0)
/-- What the controllers have written into the replay buffer of core `c`: items 2 to 4 of the pitches that it has yet to replay (R439). -/
def State.replayWords (s : State) (c : Nat) : List (BitVec 64) := match (s.core c).catchUp with
  | some u => (s.replayItems (s.coreN c) c u.next (lastClosed (s.coreP c).seq) u).map (·.word)
  | none => []
/-- Byte `o` of the reserve's replay buffers: one for each takeover in progress, in the order in which they began (assumption 112 [DEDUCED, unsafe]). -/
def State.replayByte (s : State) (o : Nat) : Option Byte := match s.rel.replays[o / 0x1000000]? with
  | some c => some (byteOf ((s.replayWords c).getD (o % 0x1000000 / 8) 0).toNat (o % 8))
  | none => none
/-- Byte `o` of the system reserve, where the state's records lie there. -/
def State.reserveByte (s : State) (o : Nat) : Option Byte :=
  if o < 0x40000000 then s.ledgerByte (o / 0x8000000) (o % 0x8000000)
  else if o < 0x80000000 then s.replayByte (o - 0x40000000)
  else none

/-- A byte of the LPDDR6 space as a read finds it: where a record of the state lies, its byte, else what has been written there. -/
def State.lpByte (s : State) (a : Nat) : Byte :=
  let res := (s.frameAll - 4) * 2 ^ 30
  let r := if localBase ≤ a then s.localByte ((a - localBase) / 0x4000000) (a % 0x4000000)
    else if res ≤ a ∧ a < s.frameAll * 2 ^ 30 then s.reserveByte (a - res)
    else none
  match r with
  | some b => b
  | none => (s.lpRead a 1).getD 0 0
/-- A range of the LPDDR6 space as a read finds it. -/
def State.lpBytes (s : State) (a n : Nat) : Bytes := (List.range n).map (fun i => s.lpByte (a + i))

end Sys2Proof.Machine
end

