-- ==== Sys2Proof/Machine/Spaces.lean ====
section
/-!
DEFINITION. The address spaces of descriptors, queue records and landing buffers (R255, R258, R160, R273, R323): which
addresses exist, who may reach them, and the reads and writes of queue and tile engines.
-/

namespace Sys2Proof.Machine

/-- The codes of Table 10.2: LPDDR6. -/
def spLp : Nat := 0
/-- Slice SRAM. -/
def spSram : Nat := 1
/-- Host memory. -/
def spHost : Nat := 2
/-- MRAM. -/
def spMram : Nat := 3
/-- Where the general queue memory begins (Table 10.4). -/
def queueMem : Nat := 0x190000

/-- An unlisted grant (R234, R258): none, but for the last block of queues and of sync objects, which firmware holds. -/
def dGrant (k : Nat) : Nat :=
  if k / 16384 = 0 ∧ k % 256 = 255 then 0x10 else if k / 16384 = 1 ∧ k % 256 = 15 then 0x10 else 0x30
/-- The key of block `b` of a slice: kind 0 queues, 1 sync objects, 2 pages. -/
def grantKey (kind i b : Nat) : Nat := (kind * 64 + i) * 256 + b
/-- The grantee of a block. -/
def State.grant (s : State) (kind i b : Nat) : Nat := mget dGrant s.mem.grants (grantKey kind i b)

/-- The blocks of `size` bytes that a range of `n` bytes from `a` reaches. -/
def blocksOf (size a n : Nat) : List Nat := (List.range ((a + (n - 1)) / size + 1 - a / size)).map (fun i => a / size + i)
/-- Does the range lie in its space, in slices that are present (R255)? -/
def State.spaceOk (s : State) (sp a n : Nat) : Bool :=
  if sp = spLp then
    if a < 0x3B00000000 then decide (a + n ≤ s.frameCount * 2 ^ 30)
    else decide (a + n ≤ 0x3C00000000) && (blocksOf 0x4000000 (a - 0x3B00000000) n).all (fun i => (s.addrMap (0x3B00000000 + i * 0x4000000)).isSome)
  else if sp = spSram then
    decide (a + n ≤ 64 * sramSize) && (blocksOf sramSize a n).all s.slicePresent
  else if sp = spHost then decide (a + n ≤ 2 ^ 64)
  else if sp = spMram then decide (a + n ≤ 0x4000000) else false

/-- Does the range touch a tile of an ACTIVE slot (R160)? -/
def State.touchesActive (s : State) (a n : Nat) : Bool :=
  (List.range 8).any (fun p => (activeSlot (s.part p)).tiles.any (fun t => t.granules.any (fun g => decide (g < a + n) && decide (a < g + 2048))))

/-- May the endpoint reach the range (R160, R258, R273, R323)? The physical function reaches every frame but firmware's, a virtual
function its partition's; neither writes what an ACTIVE slot holds. Host memory
opens to a function with its Bus Master Enable. -/
def State.spaceMay (s : State) (ep : Nat) (write : Bool) (sp a n : Nat) : Bool :=
  if ep = 0x10 then true
  else if sp = spLp then
    if ep = 0 then decide (a + n ≤ 0x3B00000000) && (framesOf a n).all (fun f => s.frameOwner f != 0x20) && !(write && s.touchesActive a n)
    else if ep ≤ 8 then
      decide (a + n ≤ 0x3B00000000) && (framesOf a n).all (fun f => s.frameOwner f == ep - 1 || s.frameOwner f == 7 + ep) &&
        !(write && s.touchesActive a n)
    else true
  else if sp = spSram then
    let o := a % sramSize
    decide (queueMem ≤ o) && decide (o + n ≤ sramSize) &&
      (List.range ((o + (n - 1) - queueMem) / 65536 + 1 - (o - queueMem) / 65536)).all (fun i =>
        s.grant 2 (a / sramSize) ((o - queueMem) / 65536 + i) == ep)
  else if sp = spHost then decide (ep ≤ 8) && (s.func ep).conf.master else false

/-- Does the range hold a word that cannot be read (R260, R269, R445)? -/
def State.spaceBad (s : State) (sp a n : Nat) : Bool :=
  (sp == spLp && (List.range ((a + n + 31) / 32 - a / 32)).any (fun i => s.wordBad (32 * (a / 32 + i)))) ||
    (sp == spSram && s.mem.sramBad.any (fun w => decide (4 * w < a + n) && decide (a < 4 * w + 4)))
/-- Does the range lie in a subchannel that has gone out of service (R445)? -/
def State.spaceOut (s : State) (sp a n : Nat) : Bool :=
  sp == spLp && (List.range ((a + n + 2047) / 2048 - a / 2048)).any (fun i => s.addrOut (2048 * (a / 2048 + i)))
/-- Does a write of the range reach only a part of a slice SRAM word that cannot be read? It reads the word first (R259). -/
def State.narrowBad (s : State) (sp a n : Nat) : Bool :=
  sp == spSram && s.mem.sramBad.any (fun w => decide (4 * w < a + n) && decide (a < 4 * w + 4) && !(decide (a ≤ 4 * w) && decide (4 * w + 4 ≤ a + n)))
/-- `n` free bytes: what host memory holds, which no rule gives (assumption 11 [DESIGN CHOICE, safe]). -/
def State.freeBytes (s : State) (n : Nat) : Bytes × State :=
  ((List.range n).map (fun i => Config.freeByte s.clk.free i), s.modClk (fun c => { c with free := c.free + 1 }))
/-- A read of a space by an endpoint. -/
def State.spaceRead (s : State) (sp a n : Nat) : Bytes × State :=
  if sp = spLp then (s.lpBytes a n, s)
  else if sp = spSram then (readRange dByte s.mem.sram a n, s)
  else if sp = spMram then (s.mramBytes a n, s)
  else s.freeBytes n
/-- A write to a space; what goes to host memory leaves the part as the function's. -/
def State.spaceWrite (s : State) (ep sp a : Nat) (bs : Bytes) : State :=
  if sp = spLp then s.lpWrite a bs
  else if sp = spSram then s.modMem (fun m => { m with
    sram := writeRange dByte m.sram a bs
    sramBad := m.sramBad.filter (fun w => !(decide (a ≤ 4 * w) && decide (4 * w + 4 ≤ a + bs.length))) })
  else if sp = spMram then s.mramPut a bs
  else s.out (.hostWrite ep a bs)

end Sys2Proof.Machine
end

