-- ==== Sys2Proof/Machine/Queues.lean ====
section
/-!
DEFINITION. Queues, combining queues and sync objects (chapter 9): permissions, rings in memory, waiting operations,
completion records, and the operations of Table 9.4.
-/

namespace Sys2Proof.Machine

/-! ### Status codes (Table 9.5) -/

/-- OK. -/
def qOk : Nat := 0
/-- ADDRESS. -/
def qAddress : Nat := 1
/-- ACCESS. -/
def qAccess : Nat := 2
/-- MEMORY_ERROR. -/
def qMemError : Nat := 5
/-- ABORTED. -/
def qAborted : Nat := 6
/-- OPCODE. -/
def qOpcode : Nat := 7
/-- FULL. -/
def qFull : Nat := 8
/-- ORPHAN. -/
def qOrphan : Nat := 9
/-- EMPTY. -/
def qEmpty : Nat := 10
/-- TIMEOUT. -/
def qTimeout : Nat := 11
/-- SIZE. -/
def qSize : Nat := 12
/-- STATE. -/
def qState : Nat := 13
/-- BUSY. -/
def qBusy : Nat := 14
/-- BROKEN. -/
def qBroken : Nat := 15
/-- RCQ of no completion queue. -/
def noQueue : Nat := 0xFFFFF

/-! ### Endpoints (Table 9.2) -/

/-- Is the endpoint code listed? -/
def epListed (c : Nat) : Bool :=
  decide (c ≤ 8) || c == 0x10 || (decide (0x20 ≤ c) && decide (c ≤ 0x23)) || c == 0x30 || (decide (0x40 ≤ c) && decide (c < 0x100))
/-- The SEND_MASK bit of an endpoint. -/
def epBit (c : Nat) : Nat :=
  if c ≤ 8 then c else if c = 0x10 then 9 else if 0x80 ≤ c then 10 else if 0x40 ≤ c then 12 else if c = 0x30 then 16 else 11

/-! ### Queues and sync objects -/

/-- Queue `q`: a readout group's combining queue exists while a partition holds the group; a stream's ingest queue takes the
virtual function of the holding partition (Table 9.1). -/
def State.queue (s : State) (q : Nat) : Queue :=
  let l := q % 16384
  let i := q / 16384
  if 16376 ≤ l ∧ l < 16380 then
    match s.holder (32 + (64 * (l - 16376) + i)) with
    | some _ => mget dQueue s.queues q
    | none => { overrun := (mget dQueue s.queues q).overrun }
  else
    let r := mget dQueue s.queues q
    if l = 16382 ∧ i % 2 = 0 then match s.holder (i / 2) with
      | some n => { r with sendMask := r.sendMask ||| 2 ^ (n + 1) }
      | none => r
    else r
/-- A queue's record changed. -/
def State.modQueue (s : State) (q : Nat) (f : Queue → Queue) : State := { s with queues := mmod dQueue s.queues q f }
/-- Sync object `j`. -/
def State.sync (s : State) (j : Nat) : SyncObj := mget dSync s.syncs j
/-- A sync object changed. -/
def State.modSync (s : State) (j : Nat) (f : SyncObj → SyncObj) : State := { s with syncs := mmod dSync s.syncs j f }
/-- Is the queue there (R232)? -/
def State.qThere (s : State) (q : Nat) : Bool := decide (q < 2 ^ 20) && s.slicePresent (q / 16384)
/-- Is the sync object there? -/
def State.yThere (s : State) (j : Nat) : Bool := decide (j < 2 ^ 16) && s.slicePresent (j / 1024)
/-- May the endpoint send to the queue? -/
def maySend (r : Queue) (ep : Nat) : Bool := bit r.sendMask (epBit ep)

/-! ### Rings (R240, R241, R244) -/

/-- Capacity in 8-byte units. -/
def ringUnits (r : Queue) : Nat := 2 ^ r.sizeLog2 / 8
/-- Units in use. -/
def ringUsed (r : Queue) : Nat := (r.tail + 2 * ringUnits r - r.head) % (2 * ringUnits r)
/-- The address of a position of the ring. -/
def ringAddr (r : Queue) (u : Nat) : Nat := r.base + 8 * (u % ringUnits r)
/-- TYPE of a record header (Table 9.8). -/
def rhType (h : Nat) : Nat := bits h 63 62
/-- NDESC. -/
def rhDescs (h : Nat) : Nat := bits h 61 59
/-- LEN. -/
def rhLen (h : Nat) : Nat := bits h 58 47
/-- SENDER. -/
def rhSender (h : Nat) : Nat := bits h 46 39
/-- RCQ. -/
def rhRcq (h : Nat) : Nat := bits h 38 19
/-- TAG. -/
def rhTag (h : Nat) : Nat := h % 2 ^ 16
/-- A record header. -/
def rhMk (type descs len sender rcq tag : Nat) : Nat :=
  type % 4 * 2 ^ 62 + descs % 8 * 2 ^ 59 + len % 4096 * 2 ^ 47 + sender % 256 * 2 ^ 39 + rcq % 2 ^ 20 * 2 ^ 19 + tag % 2 ^ 16
/-- Bytes of the ring's memory. -/
def State.ringRead (s : State) (r : Queue) (u n : Nat) : Bytes := (s.spaceRead r.space (ringAddr r u) n).1
/-- The header of the record at a position. -/
def State.ringHdr (s : State) (r : Queue) (u : Nat) : Nat := leNat (s.ringRead r u 8)
/-- A position moved on. -/
def ringOn (r : Queue) (u n : Nat) : Nat := (u + n) % (2 * ringUnits r)
/-- The records from a position to the tail, with their positions. -/
def State.ringRecs (s : State) (r : Queue) : Nat → Nat → List (Nat × Nat)
  | 0, _ => []
  | fuel + 1, u =>
    if u = r.tail then []
    else
      let h := s.ringHdr r u
      if rhLen h < 8 then [] else (u, h) :: s.ringRecs r fuel (ringOn r u (rhLen h / 8))
/-- The messages that a ring holds. -/
def State.messages (s : State) (r : Queue) : List (Nat × Nat) :=
  if r.kind ≠ 0 then [] else (s.ringRecs r (ringUnits r) r.head).filter (fun e => rhType e.2 == 0)

/-- What placing a message comes to; `err` where the ring's subchannel has gone out of service (R272). -/
inductive Placed where
  | ok | size | full | err
  deriving DecidableEq, Repr

/-- R244: where the record goes, the queue's positions after it, and whether a PAD of `e` bytes precedes it. -/
def placing (r : Queue) (len : Nat) : Placed × Queue × Nat × Nat :=
  let cap := 8 * ringUnits r
  let used := 8 * ringUsed r
  let e0 := cap - 8 * (r.tail % ringUnits r)
  if r.maxMsg < len ∨ cap < len then (.size, r, 0, 0)
  else
    let r := if used = 0 ∧ e0 < len then { r with head := ringOn r r.tail (e0 / 8), tail := ringOn r r.tail (e0 / 8) } else r
    let e := if used = 0 ∧ e0 < len then cap else e0
    if len ≤ e then
      if cap - used < len then (.full, r, 0, 0) else (.ok, { r with tail := ringOn r r.tail (len / 8) }, r.tail, 0)
    else if e + len ≤ cap - used then
      (.ok, { r with tail := ringOn r r.tail ((e + len) / 8) }, ringOn r r.tail (e / 8), e)
    else (.full, r, 0, 0)

/-- The functions whose QNOTIFY names the queue are told (R320, R321). -/
def State.notify (s : State) (q : Nat) : State :=
  s.each (List.range 9) (fun s f => s.each (List.range 8) (fun s k =>
    if mget dZero (s.func f).notify k = 2 ^ 31 + q then s.raiseCause f (4 + k) else s))
/-- The record `rec` placed in the ring of queue `q`, if it fits. -/
def State.place (s : State) (q : Nat) (rec : Bytes) : Placed × State :=
  let r := s.queue q
  let p := placing r rec.length
  if p.1 ≠ .ok then (p.1, s)
  else if s.spaceOut r.space (ringAddr r p.2.2.1) rec.length || (p.2.2.2 != 0 && s.spaceOut r.space (ringAddr r r.tail) 8) then (.err, s)
  else
    let s := if p.2.2.2 = 0 then s
      else (s.spaceWrite 0x10 r.space (ringAddr r r.tail) (natLe 8 (rhMk 1 0 p.2.2.2 0 0 0))).qadd64 (q / 16384) kPadRecords 1
    let s := s.spaceWrite 0x10 r.space (ringAddr r p.2.2.1) rec
    let s := s.modQueue q (fun x => { x with head := p.2.1.head, tail := p.2.1.tail })
    (.ok, (s.qadd64 (q / 16384) kMessagesSent 1).notify q)

/-! ### Outcomes (R237 to R239) -/

/-- A completion record (Table 9.6) as a message. -/
def completion (i op status obj value tag : Nat) (descs : Bytes) : Bytes :=
  natLe 8 (rhMk 0 0 (40 + descs.length) (0x40 + i) noQueue tag) ++ natLe 2 tag ++ natLe 1 status ++ natLe 1 i ++ natLe 1 op ++
    natLe 1 (descs.length / 16) ++ natLe 2 0 ++ natLe 4 obj ++ natLe 4 0 ++ natLe 8 value ++ natLe 8 0 ++ descs
/-- A completion of slice `i` that no queue takes: the queue named is marked, an UNUSED one too (R239). -/
def State.loseCompletion (s : State) (i q : Nat) : State :=
  let s := s.qadd i kCqLost 1
  if s.qThere q then s.modQueue q (fun r => { r with overrun := true }) else s
/-- Can the queue take completions: an OPEN ring that slice stations may send to? -/
def State.takesCompletions (s : State) (q : Nat) : Bool :=
  let r := s.queue q
  s.qThere q && r.state == 1 && r.kind == 0 && bit r.sendMask 12
/-- Does a send wait for room in the queue? -/
def State.sendWaits (s : State) (q : Nat) : Bool := (s.slice (q / 16384)).waits.any (fun w => w.op == 5 && w.head.object == q)
/-- Slice `i` writes a completion record into queue `q` (R239). -/
def State.complete (s : State) (i q : Nat) (rec : Bytes) : State :=
  if !s.takesCompletions q then s.loseCompletion i q
  else
    let busy := (s.slice i).hold.any (fun e => e.1 == q) || s.sendWaits q
    let p := if busy then (.full, s) else s.place q rec
    match p.1 with
    | .ok => p.2
    | .size => s.loseCompletion i q
    | .err => s.loseCompletion i q
    | .full => if (s.slice i).hold.length < 256 then s.modSlice i (fun x => { x with hold := x.hold ++ [(q, rec)] }) else s.loseCompletion i q
/-- The outcome goes back on the path of issue (R237, R322). -/
def State.giveBack (s : State) (h : OpHead) (status value : Nat) : State := match h.slot with
  | some (f, k) =>
    let q := mget dSlot (s.func f).slots k
    if q.busy then s.modFunc f (fun g => { g with slots := mset dSlot g.slots k { q with result := some (status, value) } })
    else s
  | none => s.out (.opDone h.issuer h.tag status value)
/-- An operation finishes (R237): `i` is the slice of its object. -/
def State.finish (s : State) (h : OpHead) (i op obj status value : Nat) (descs : Bytes) : State :=
  let s := s.giveBack h status value
  if h.rcq = noQueue ∨ (status = qOk ∧ !h.always) then s else s.complete i h.rcq (completion i op status obj value h.tag descs)

/-! ### Waiting (R245) -/

/-- Payload descriptors of a message: at most four whole ones, which is all that a completion record holds. -/
def msgDescs (msg : Bytes) : Bytes :=
  let n := min (min 4 (rhDescs (fieldAt msg 0 8))) ((msg.length - 8) / 16)
  slice msg 8 (16 * n)
/-- The instant at which a wait that starts now ends. -/
def State.waitEnd (s : State) (timeout : Nat) : Option Nat := if timeout = 0xFFFF then none else some (s.now + timeout * 10000)
/-- A blocking operation enters the wait list of slice `i`, or finishes BUSY. -/
def State.wait (s : State) (i op : Nat) (h : OpHead) (arg arg2 : Nat) (msg : Bytes) : State :=
  let x := s.slice i
  if 1024 ≤ x.waits.length then (s.qadd i kWaitBusy 1).finish h i op h.object qBusy 0 (if op = 5 then msgDescs msg else [])
  else
    let s := s.modSlice i (fun x => { x with waits := x.waits ++ [⟨x.nextId, op, h, arg, arg2, msg, s.waitEnd h.timeout⟩], nextId := x.nextId + 1 })
    s.qmax i kWaitPeak (x.waits.length + 1)

/-- Why a landing buffer cannot be used: OK when it can. -/
def State.landing (s : State) (ep addr len : Nat) : Nat :=
  let sp := addr / 2 ^ 60
  let a := addr % 2 ^ 60
  if 2 < sp ∨ !s.spaceOk sp a len then qAddress
  else if !s.spaceMay ep true sp a len then qAccess
  else if s.spaceOut sp a len then qMemError else qOk
/-- The bad word that a landing of `n` bytes would write in part (R259). -/
def State.landBad (s : State) (addr n : Nat) : Option Nat :=
  if s.narrowBad (addr / 2 ^ 60) (addr % 2 ^ 60) n then
    [addr % 2 ^ 60 / 4, (addr % 2 ^ 60 + (n - 1)) / 4].find? (fun w => s.mem.sramBad.contains w)
  else none
/-- Bytes copied to a landing buffer. In host memory a write is posted and reports no error back (R323; assumption 97 [PRESUMED, unsafe]). -/
def State.land (s : State) (ep addr : Nat) (b : Bytes) : State := s.spaceWrite ep (addr / 2 ^ 60) (addr % 2 ^ 60) b

/-- HEAD advanced over a record, and over a PAD behind it (R244). -/
def State.popHead (s : State) (q len : Nat) : State :=
  let r := s.queue q
  let u := ringOn r r.head (len / 8)
  let h := s.ringHdr r u
  let u := if u ≠ r.tail ∧ rhType h = 1 then ringOn r u (rhLen h / 8) else u
  s.modQueue q (fun x => { x with head := u })
/-- The head record of queue `q` received (R246, R253); nothing on an empty ring. -/
def State.receiveHead (s : State) (h : OpHead) (op q addr len : Nat) : Option State :=
  let r := s.queue q
  let i := q / 16384
  if r.head = r.tail then none
  else
    let hd := s.ringHdr r r.head
    let n := rhLen hd
    if s.spaceBad r.space (ringAddr r r.head) 8 then
      let s := ((s.modQueue q (fun x => { x with head := x.tail })).qadd i kRingMemoryErrors 1).reportUnit 0x0303 0 2 (s.physSlice i) none q
      some (s.finish h i op q qMemError 0 [])
    else if s.spaceBad r.space (ringAddr r r.head) n then
      let s := ((s.popHead q n).qadd i kRingMemoryErrors 1).reportUnit 0x0303 0 2 (s.physSlice i) none q
      some (s.finish h i op q qMemError 0 [])
    else
      let c := s.landing h.issuer addr len
      if c ≠ qOk then some (s.finish h i op q c 0 [])
      else if len < n then some (s.finish h i op q qSize 0 [])
      else match s.landBad addr n with
        | some w => some ((s.sramError w).finish h i op q qMemError 0 [])
        | none => some (((s.land h.issuer addr (s.ringRead r r.head n)).popHead q n).finish h i op q qOk n [])

/-! ### Select groups (R247) -/

/-- An unlisted select group. -/
def dSel (_ : Nat) : SelGroup := {}
/-- The members of select group `g` of slice `i`: OPEN queues, ascending. -/
def State.members (s : State) (i g : Nat) : List (Nat × Queue) :=
  (s.queues.filter (fun e => e.1 / 16384 == i && e.2.state == 1 && e.2.inGroup && e.2.group == g))
/-- The first non-empty member after the one last served under a key, wrapping. -/
def rotate (last : Nat) (l : List (Nat × Queue)) : Option (Nat × Queue) :=
  match l.find? (fun e => decide (last ≤ e.1)) with
  | some e => some e
  | none => l.head?
/-- The member that the policy chooses among those that share the group's reader, with its rotation key. -/
def State.choose (s : State) (i g : Nat) : Option (Nat × Nat) :=
  let x := mget dSel (s.slice i).groups g
  let l := (s.members i g).filter (fun e => e.2.kind == 0 && e.2.head != e.2.tail && e.2.reader == x.reader)
  if x.policy = 0 then
    match listMin (l.map (·.2.prio)) with
    | none => none
    | some p => (rotate (mget dZero x.last p) (l.filter (fun e => e.2.prio == p))).map (fun e => (e.1, p))
  else (rotate (mget dZero x.last 8) l).map (fun e => (e.1, 8))
/-- A receive from the group `obj` (256 × slice + group); nothing when every member is empty. The rotation moves on from a member whose
head record has been taken. -/
def State.receiveFrom (s : State) (h : OpHead) (addr len : Nat) : Option State :=
  let i := h.object / 256
  let g := h.object % 256
  match s.choose i g with
  | none => none
  | some (q, key) =>
    (s.receiveHead h 7 q addr len).map (fun s' =>
      if (s'.queue q).head = (s.queue q).head then s'
      else s'.modSlice i (fun x => { x with groups := mmod dSel x.groups g (fun y => { y with last := mset dZero y.last key (q + 1) }) }))

/-! ### Combining queues (R248, R249) -/

/-- Is the round ready? -/
def roundReady (r : Queue) : Bool := r.expect == 0 || decide (r.expect ≤ r.head)
/-- READ_CLEAR of a ready round (R249); a word that cannot be read ends it with MEMORY_ERROR and clears the round (R253). -/
def State.readRound (s : State) (h : OpHead) (addr len : Nat) : State :=
  let q := h.object
  let r := s.queue q
  let i := q / 16384
  let n := 4 * r.maxMsg
  let c := s.landing h.issuer addr len
  if c ≠ qOk then s.finish h i 10 q c 0 []
  else if len < n then s.finish h i 10 q qSize 0 []
  else match s.landBad addr n with
  | some w => (s.sramError w).finish h i 10 q qMemError 0 []
  | none =>
    let b := (s.spaceRead r.space r.base n).1
    let bad := s.spaceBad r.space r.base n
    let s := if bad then s.spaceWrite 0x10 r.space r.base (List.replicate n 0) else (s.land h.issuer addr b).spaceWrite 0x10 r.space r.base (List.replicate n 0)
    (s.modQueue q (fun x => { x with head := 0, tail := 0 })).finish h i 10 q (if bad then qMemError else qOk) (if bad then 0 else r.head) []

/-! ### Waiting operations proceed -/

/-- The wait `w` of slice `i` with the waits before it: the state after it proceeds (its entry is already out of the list), or
nothing while it must still wait. -/
def State.proceed (s : State) (i : Nat) (before : List Waiter) (w : Waiter) : Option State :=
  let h := w.head
  let o := h.object
  let ahead := before.any (fun e => e.op == w.op && e.head.object == o)
  if w.op = 5 then
    let r := s.queue o
    if r.state ≠ 1 then some (s.finish h i 5 o qOrphan 0 (msgDescs w.msg))
    else if ahead then none
    else
      let p := s.place o w.msg
      match p.1 with
      | .ok => some (p.2.finish h i 5 o qOk (8 * (ringUnits r - ringUsed (p.2.queue o))) [])
      | .err => some (s.finish h i 5 o qMemError 0 (msgDescs w.msg))
      | _ => none
  else if w.op = 6 then
    let r := s.queue o
    if r.state = 0 then some (s.finish h i 6 o qState 0 [])
    else if r.state = 2 ∨ r.reader ≠ h.issuer then some (s.finish h i 6 o qAborted 0 [])
    else s.receiveHead h 6 o w.arg w.arg2
  else if w.op = 7 then
    if (mget dSel (s.slice (o / 256)).groups (o % 256)).reader ≠ h.issuer then some (s.finish h i 7 o qAborted 0 [])
    else s.receiveFrom h w.arg w.arg2
  else if w.op = 10 then
    let r := s.queue o
    if r.state = 0 then some (s.finish h i 10 o qState 0 [])
    else if r.state = 2 ∨ r.reader ≠ h.issuer then some (s.finish h i 10 o qAborted 0 [])
    else if roundReady r then some (s.readRound h w.arg w.arg2) else none
  else
    let y := s.sync o
    if y.kind = 0 then some (s.finish h i w.op o qOrphan 0 [])
    else if w.op = 0x15 then (if w.arg ≤ y.value then some (s.finish h i 0x15 o qOk y.value []) else none)
    else if w.op = 0x17 then
      if !ahead ∧ w.arg ≤ y.value then
        some ((s.modSync o (fun y => { y with value := y.value - w.arg })).finish h i 0x17 o qOk (y.value - w.arg) [])
      else none
    else if y.broken then some (s.finish h i 0x18 o qBroken 0 [])
    else if y.phase ≠ w.arg then some (s.finish h i 0x18 o qOk w.arg []) else none
/-- The first wait of a list that proceeds. -/
def State.proceedAny (s : State) (i : Nat) : List Waiter → List Waiter → Option State
  | _, [] => none
  | before, w :: r =>
    match (s.modSlice i (fun x => { x with waits := before ++ r })).proceed i before w with
    | some s => some s
    | none => s.proceedAny i (before ++ [w]) r
/-- One waiting operation of the part proceeds, if any may. -/
def State.settleOnce (s : State) : Option State := s.slices.findSome? (fun e => s.proceedAny e.1 [] e.2.waits)
/-- Waiting operations proceed until none may. -/
def State.settleN : Nat → State → State
  | 0, s => s
  | n + 1, s => match s.settleOnce with
    | some s => State.settleN n s
    | none => s
/-- Every waiting operation that may proceed does. -/
def State.settle (s : State) : State := s.settleN ((s.slices.map (fun e => e.2.waits.length)).foldl (· + ·) 0)

/-! ### Creating and destroying queues (R240, R242) -/

/-- The fields of a queue record in range (Table 9.7). -/
def recordOk (b : Bytes) : Bool :=
  let kind := fieldAt b 1 1
  let reader := fieldAt b 3 1
  let sp := fieldAt b 8 8 / 2 ^ 60
  let size := fieldAt b 0x10 1
  let mx := fieldAt b 0x12 2
  b.length == 32 && decide (kind ≤ 2) && epListed reader && reader != 0x30 && decide (fieldAt b 4 2 < 2 ^ 13) &&
    bits (fieldAt b 6 2) 11 8 == 0 && fieldAt b 0x11 1 == 0 && bits (fieldAt b 0x1E 2) 14 10 == 0 &&
    (if kind = 0 then decide (sp ≤ 1) && decide (8 ≤ size) && decide (size ≤ 24) && decide (16 ≤ mx) && decide (mx ≤ 2048) && mx % 8 == 0 && fieldAt b 0x1C 2 == 0
     else sp == 1 && size == 0 && decide (1 ≤ mx) && decide (mx ≤ 4096))
/-- The queue that a record asks for. -/
def recordQueue (b : Bytes) (owner : Nat) : Queue :=
  let g := fieldAt b 6 2
  let l := fieldAt b 0x1E 2
  { state := 1, kind := fieldAt b 1 1, owner := owner, reader := fieldAt b 3 1, sendMask := fieldAt b 4 2, inGroup := bit g 15,
    prio := bits g 14 12, group := g % 256, space := fieldAt b 8 8 / 2 ^ 60, base := fieldAt b 8 8 % 2 ^ 60, sizeLog2 := fieldAt b 0x10 1,
    maxMsg := fieldAt b 0x12 2, expect := fieldAt b 0x1C 2, linkOn := bit l 15, link := l % 1024 }
/-- Bytes of memory that a queue takes. -/
def queueBytes (r : Queue) : Nat := if r.kind = 0 then 2 ^ r.sizeLog2 else 4 * r.maxMsg
/-- The record that inspection shows (Table 9.7). -/
def queueRecord (r : Queue) : Bytes :=
  if r.state = 0 then List.replicate 32 0
  else
    natLe 1 r.state ++ natLe 1 r.kind ++ natLe 1 r.owner ++ natLe 1 r.reader ++ natLe 2 r.sendMask ++
      natLe 2 ((if r.inGroup then 2 ^ 15 else 0) + r.prio * 2 ^ 12 + r.group) ++ natLe 8 (r.space * 2 ^ 60 + r.base) ++ natLe 1 r.sizeLog2 ++ natLe 1 0 ++
      natLe 2 r.maxMsg ++ natLe 4 r.head ++ natLe 4 r.tail ++ natLe 2 r.expect ++ natLe 2 ((if r.linkOn then 2 ^ 15 else 0) + r.link)
/-- The status of a group membership: STATE for another reader, SIZE for a 65th member. -/
def State.groupStatus (s : State) (i : Nat) (r : Queue) : Nat :=
  if !r.inGroup then qOk
  else if (mget dSel (s.slice i).groups r.group).reader ≠ r.reader then qState
  else if 64 ≤ (s.members i r.group).length then qSize else qOk
/-- CREATE (R240): its status. A readout group's combining queue is created at LOAD alone (R232). -/
def State.createStatus (s : State) (h : OpHead) (b : Bytes) : Nat :=
  let q := h.object
  let i := q / 16384
  let r := recordQueue b h.issuer
  if s.barred h ∨ !s.qThere q ∨ (s.queue q).state ≠ 0 then qState
  else if s.grant 0 i (q % 16384 / 64) ≠ h.issuer ∨ (16376 ≤ q % 16384 ∧ q % 16384 < 16380) then qAccess
  else if !recordOk b then qOpcode
  else if r.base % (if r.kind = 0 then 2 ^ r.sizeLog2 else 32) ≠ 0 ∨ !s.spaceOk r.space r.base (queueBytes r) then qAddress
  else if !s.spaceMay h.issuer true r.space r.base (queueBytes r) then qAccess
  else s.groupStatus i r
/-- CREATE. -/
def State.doCreateQ (s : State) (h : OpHead) (b : Bytes) : State :=
  let q := h.object
  let i := q / 16384
  let c := s.createStatus h b
  if c ≠ qOk then s.finish h i 1 q c 0 []
  else
    let r := recordQueue b h.issuer
    let s := if r.kind = 0 then s else s.spaceWrite 0x10 r.space r.base (List.replicate (queueBytes r) 0)
    (s.modQueue q (fun _ => r)).finish h i 1 q qOk 0 []
/-- QUEUE_CREATE. -/
def execQueueCreate (h : OpHead) (rec : Bytes) (s : State) : Res := .next ((s.at h.t).doCreateQ h rec).settle

/-- A held message returned to its sender (R242). -/
def State.returnMsg (s : State) (q : Nat) (e : Nat × Nat) : State :=
  let i := q / 16384
  let r := s.queue q
  let descs := s.ringRead r (e.1 + 1) (16 * rhDescs e.2)
  let s := s.qadd64 i kOrphanReturns 1
  if rhRcq e.2 = noQueue then s else s.complete i (rhRcq e.2) (completion i 5 qOrphan q 0 (rhTag e.2) descs)
/-- Every held message returned; the ring is empty. -/
def State.returnAll (s : State) (q : Nat) : State :=
  let l := s.messages (s.queue q)
  (l.foldl (fun s e => s.returnMsg q e) s).modQueue q (fun r => if r.kind = 0 then { r with head := r.tail } else r)
/-- Notifications bound to a queue that leaves OPEN end (R321). -/
def State.unbind (s : State) (q : Nat) : State :=
  s.each (List.range 9) (fun s f => s.each (List.range 8) (fun s k =>
    if mget dZero (s.func f).notify k = 2 ^ 31 + q then s.modFunc f (fun g => { g with notify := mset dZero g.notify k q }) else s))
/-- The queue is destroyed: its messages returned, its record UNUSED (R242). -/
def State.dropQueue (s : State) (q : Nat) : State := ((s.returnAll q).unbind q).modQueue q (fun _ => {})
/-- DESTROY. -/
def State.doDestroyQ (s : State) (h : OpHead) : State :=
  let q := h.object
  let i := q / 16384
  let r := s.queue q
  if s.barred h ∨ !s.qThere q ∨ r.state = 0 then s.finish h i 2 q qState 0 []
  else if r.owner ≠ h.issuer then s.finish h i 2 q qAccess 0 []
  else
    let n := (s.messages r).length
    (s.dropQueue q).finish h i 2 q qOk n []
/-- QUEUE_DESTROY. -/
def execQueueDestroy (h : OpHead) (s : State) : Res := .next ((s.at h.t).doDestroyQ h).settle

/-- ATTACH. -/
def State.doAttach (s : State) (h : OpHead) (reader : Nat) (flush : Bool) : State :=
  let q := h.object
  let i := q / 16384
  let r := s.queue q
  if s.barred h ∨ !s.qThere q ∨ r.state = 0 then s.finish h i 3 q qState 0 []
  else if r.owner ≠ h.issuer then s.finish h i 3 q qAccess 0 []
  else if r.state ≠ 2 then s.finish h i 3 q qState 0 []
  else if !epListed reader ∨ reader = 0x30 then s.finish h i 3 q qOpcode 0 []
  else
    let c := s.groupStatus i { r with reader := reader }
    if c ≠ qOk then s.finish h i 3 q c 0 []
    else
      let s := if flush then s.returnAll q else s
      let n := (s.messages (s.queue q)).length
      (s.modQueue q (fun x => { x with state := 1, reader := reader })).finish h i 3 q qOk n []
/-- ATTACH. -/
def execAttach (h : OpHead) (reader : Nat) (flush : Bool) (s : State) : Res := .next ((s.at h.t).doAttach h reader flush).settle
/-- The queue has no reader any longer (R242). -/
def State.orphan (s : State) (q : Nat) : State := (s.unbind q).modQueue q (fun r => { r with state := 2, reader := 0x30 })
/-- DETACH. -/
def State.doDetach (s : State) (h : OpHead) : State :=
  let q := h.object
  let i := q / 16384
  let r := s.queue q
  if s.barred h ∨ !s.qThere q ∨ r.state = 0 then s.finish h i 4 q qState 0 []
  else if r.reader ≠ h.issuer then s.finish h i 4 q qAccess 0 []
  else (s.orphan q).settle.finish h i 4 q qOk 0 []
/-- DETACH. -/
def execDetach (h : OpHead) (s : State) : Res := .next ((s.at h.t).doDetach h).settle

/-! ### Messages (R241, R243 to R247) -/

/-- Is the message well formed (R241)? -/
def msgOk (msg : Bytes) (rcq : Nat) : Bool :=
  let h := fieldAt msg 0 8
  let n := rhLen h
  decide (8 ≤ msg.length) && rhType h == 0 && decide (rhDescs h ≤ 4) && n % 8 == 0 && decide (8 + 16 * rhDescs h ≤ n) && n == msg.length &&
    bits h 18 16 == 0 && (rhDescs h == 0 || rcq != noQueue) &&
    (List.range (rhDescs h)).all (fun j => fieldAt msg (8 + 16 * j + 12) 4 % 2 ^ 28 == 0)
/-- Does each payload descriptor name memory within its space (Table 9.9, R255)? -/
def State.descsOk (s : State) (msg : Bytes) : Bool :=
  (List.range (rhDescs (fieldAt msg 0 8))).all (fun j =>
    let sp := fieldAt msg (8 + 16 * j + 12) 4 / 2 ^ 28
    decide (sp ≤ 2) && s.spaceOk sp (fieldAt msg (8 + 16 * j) 8) (fieldAt msg (8 + 16 * j + 8) 4))
/-- A message with what the part writes into its header (R233, R241). -/
def msgStamp (msg : Bytes) (ep rcq tag : Nat) : Bytes :=
  let h := fieldAt msg 0 8
  natLe 8 (rhMk 0 (rhDescs h) (rhLen h) ep rcq tag) ++ msg.drop 8
/-- SEND. -/
def State.doSend (s : State) (h : OpHead) (msg : Bytes) : State :=
  let q := h.object
  let i := q / 16384
  let r := s.queue q
  let d := msgDescs msg
  if s.barred h ∨ !s.qThere q ∨ r.state = 0 ∨ r.kind ≠ 0 then s.finish h i 5 q qState 0 d
  else if !maySend r h.issuer then s.finish h i 5 q qAccess 0 d
  else if !msgOk msg h.rcq then s.finish h i 5 q qOpcode 0 d
  else if !s.descsOk msg then s.finish h i 5 q qAddress 0 d
  else if r.state = 2 then (s.qadd64 i kOrphanSends 1).finish h i 5 q qOrphan 0 d
  else
    let rec_ := msgStamp msg h.issuer h.rcq h.tag
    let p := if s.sendWaits q ∧ (placing r msg.length).1 ≠ .size then (.full, s) else s.place q rec_
    match p.1 with
    | .ok => p.2.finish h i 5 q qOk (8 * (ringUnits r - ringUsed (p.2.queue q))) []
    | .size => s.finish h i 5 q qSize 0 d
    | .err => s.finish h i 5 q qMemError 0 d
    | .full => if h.timeout = 0 then (s.qadd64 i kFullSends 1).finish h i 5 q qFull 0 d else s.wait i 5 h 0 0 rec_
/-- SEND (R244). -/
def execSend (h : OpHead) (msg : Bytes) (s : State) : Res := .next ((s.at h.t).doSend h msg).settle

/-- RECEIVE. -/
def State.doReceive (s : State) (h : OpHead) (addr len : Nat) : State :=
  let q := h.object
  let i := q / 16384
  let r := s.queue q
  if s.barred h ∨ !s.qThere q ∨ r.state = 0 ∨ r.kind ≠ 0 then s.finish h i 6 q qState 0 []
  else if r.reader ≠ h.issuer then s.finish h i 6 q qAccess 0 []
  else
    let c := s.landing h.issuer addr len
    if c ≠ qOk then s.finish h i 6 q c 0 []
    else match s.receiveHead h 6 q addr len with
      | some s => s
      | none => if h.timeout = 0 then s.finish h i 6 q qEmpty 0 [] else s.wait i 6 h addr len []
/-- RECEIVE (R246). -/
def execReceive (h : OpHead) (addr len : Nat) (s : State) : Res := .next ((s.at h.t).doReceive h addr len).settle

/-- RECEIVE_GROUP. -/
def State.doReceiveGroup (s : State) (h : OpHead) (addr len : Nat) : State :=
  let i := h.object / 256
  let g := h.object % 256
  if s.barred h ∨ 64 ≤ i ∨ !s.slicePresent i then s.finish h i 7 h.object qState 0 []
  else if (mget dSel (s.slice i).groups g).reader ≠ h.issuer then s.finish h i 7 h.object qAccess 0 []
  else
    let c := s.landing h.issuer addr len
    if c ≠ qOk then s.finish h i 7 h.object c 0 []
    else match s.receiveFrom h addr len with
      | some s => s
      | none => if h.timeout = 0 then s.finish h i 7 h.object qEmpty 0 [] else s.wait i 7 h addr len []
/-- RECEIVE_GROUP (R247). -/
def execReceiveGroup (h : OpHead) (addr len : Nat) (s : State) : Res := .next ((s.at h.t).doReceiveGroup h addr len).settle

/-- GROUP_SET: an unbound group is bound to its issuer, and a bound one changed by its reader (assumption 27 [DEDUCED, unsafe]). -/
def State.doGroupSet (s : State) (h : OpHead) (reader policy : Nat) : State :=
  let i := h.object / 256
  let g := h.object % 256
  let x := mget dSel (s.slice i).groups g
  if s.barred h ∨ 64 ≤ i ∨ !s.slicePresent i then s.finish h i 8 h.object qState 0 []
  else if !epListed reader ∨ 2 ≤ policy then s.finish h i 8 h.object qOpcode 0 []
  else if x.reader ≠ h.issuer ∧ ¬ (x.reader = 0x30 ∧ reader = h.issuer) then s.finish h i 8 h.object qAccess 0 []
  else (s.modSlice i (fun y => { y with groups := mset dSel y.groups g { reader := reader, policy := policy, last := [] } })).finish h i 8 h.object qOk 0 []
/-- GROUP_SET (R247). -/
def execGroupSet (h : OpHead) (reader policy : Nat) (s : State) : Res := .next ((s.at h.t).doGroupSet h reader policy).settle

/-! ### Sync objects (R250, R251) -/

/-- The operations any endpoint may issue to a sync object: there (R232), created, and of the kind asked for. -/
def State.syncStatus (s : State) (h : OpHead) (j kind : Nat) : Nat :=
  if s.barred h ∨ !s.yThere j ∨ (s.sync j).kind ≠ kind then qState else qOk
/-- CADD: the counter raised, wrapping. -/
def State.doCadd (s : State) (h : OpHead) (d : Nat) : Nat × State :=
  let j := h.object
  let c := s.syncStatus h j 1
  if c ≠ qOk then (c, s.finish h (j / 1024) 0x12 j c 0 [])
  else
    let v := ((s.sync j).value + d) % 2 ^ 64
    (qOk, (s.modSync j (fun y => { y with value := v })).finish h (j / 1024) 0x12 j qOk v [])
/-- CADD (R251). -/
def execCadd (h : OpHead) (delta : Nat) (s : State) : Res := .next ((s.at h.t).doCadd h delta).2.settle
/-- POST: the semaphore raised. -/
def State.doPost (s : State) (h : OpHead) (n : Nat) : Nat × State :=
  let j := h.object
  let v := (s.sync j).value
  let c := s.syncStatus h j 2
  let c := if c ≠ qOk then c else if n = 0 ∨ 2 ^ 32 ≤ n then qSize else if 2 ^ 32 ≤ v + n then qFull else qOk
  if c ≠ qOk then (c, s.finish h (j / 1024) 0x16 j c 0 [])
  else (qOk, (s.modSync j (fun y => { y with value := v + n })).finish h (j / 1024) 0x16 j qOk (v + n) [])
/-- POST (R251). -/
def execPost (h : OpHead) (n : Nat) (s : State) : Res := .next ((s.at h.t).doPost h n).2.settle
/-- ARRIVE: an arrival; with the last one the phase completes. -/
def State.doArrive (s : State) (h : OpHead) : Nat × State :=
  let j := h.object
  let i := j / 1024
  let y := s.sync j
  let c := s.syncStatus h j 3
  let c := if c ≠ qOk then c else if y.broken then qBroken else qOk
  if c ≠ qOk then (c, s.finish h i 0x18 j c 0 [])
  else if y.parts ≤ y.value + 1 then
    (qOk, ((s.modSync j (fun y => { y with value := 0, phase := (y.phase + 1) % 2 ^ 32 })).settle.finish h i 0x18 j qOk y.phase []))
  else if h.timeout = 0 then (qOk, (s.modSync j (fun y => { y with value := y.value + 1 })).finish h i 0x18 j qOk y.phase [])
  else if 1024 ≤ (s.slice i).waits.length then (qBusy, s.wait i 0x18 h y.phase 0 [])
  else (qOk, (s.modSync j (fun y => { y with value := y.value + 1 })).wait i 0x18 h y.phase 0 [])
/-- ARRIVE (R251). -/
def execArrive (h : OpHead) (s : State) : Res := .next ((s.at h.t).doArrive h).2.settle

/-- SYNC_CREATE. -/
def State.doSyncCreate (s : State) (h : OpHead) (kind init : Nat) : State :=
  let j := h.object
  let i := j / 1024
  if s.barred h ∨ !s.yThere j ∨ (s.sync j).kind ≠ 0 then s.finish h i 0x10 j qState 0 []
  else if s.grant 1 i (j % 1024 / 64) ≠ h.issuer then s.finish h i 0x10 j qAccess 0 []
  else if kind = 0 ∨ 3 < kind then s.finish h i 0x10 j qOpcode 0 []
  else if (kind = 2 ∧ 2 ^ 32 ≤ init) ∨ (kind = 3 ∧ (init = 0 ∨ 4096 < init)) ∨ 2 ^ 64 ≤ init then s.finish h i 0x10 j qSize 0 []
  else
    let y : SyncObj := { kind := kind, owner := h.issuer, value := if kind = 3 then 0 else init, parts := if kind = 3 then init else 0 }
    (s.modSync j (fun _ => y)).finish h i 0x10 j qOk 0 []
/-- SYNC_CREATE (R250). -/
def execSyncCreate (h : OpHead) (kind init : Nat) (s : State) : Res := .next ((s.at h.t).doSyncCreate h kind init).settle
/-- The status of an operation that only the owner of a created object may issue. -/
def State.ownerStatus (s : State) (h : OpHead) (kind : Nat) : Nat :=
  let y := s.sync h.object
  if s.barred h ∨ !s.yThere h.object ∨ y.kind = 0 then qState
  else if y.owner ≠ h.issuer then qAccess
  else if kind ≠ 0 ∧ y.kind ≠ kind then qState else qOk
/-- SYNC_DESTROY. -/
def State.doSyncDestroy (s : State) (h : OpHead) : State :=
  let j := h.object
  let c := s.ownerStatus h 0
  if c ≠ qOk then s.finish h (j / 1024) 0x11 j c 0 []
  else (s.modSync j (fun _ => {})).settle.finish h (j / 1024) 0x11 j qOk 0 []
/-- SYNC_DESTROY (R250). -/
def execSyncDestroy (h : OpHead) (s : State) : Res := .next ((s.at h.t).doSyncDestroy h).settle
/-- CREAD. -/
def State.doCread (s : State) (h : OpHead) : State :=
  let j := h.object
  let c := s.syncStatus h j 1
  s.finish h (j / 1024) 0x13 j c (if c = qOk then (s.sync j).value else 0) []
/-- CREAD (R251). -/
def execCread (h : OpHead) (s : State) : Res := .next ((s.at h.t).doCread h).settle
/-- CSET. -/
def State.doCset (s : State) (h : OpHead) (v : Nat) : State :=
  let j := h.object
  let c := s.ownerStatus h 1
  if c ≠ qOk then s.finish h (j / 1024) 0x14 j c 0 []
  else (s.modSync j (fun y => { y with value := v % 2 ^ 64 })).finish h (j / 1024) 0x14 j qOk (s.sync j).value []
/-- CSET (R251). -/
def execCset (h : OpHead) (v : Nat) (s : State) : Res := .next ((s.at h.t).doCset h v).settle
/-- A status other than OK from a free value (assumption 28 [DESIGN CHOICE, safe]). -/
def freeStatus (f : BitVec 64) : Nat := [1, 2, 5, 6, 7, 8, 9, 10, 11, 12, 13, 14, 15].getD (f.toNat % 13) 10
/-- CWAIT_GE; which status a non-blocking one has whose counter is too low, the spec does not say (assumption 28 [DESIGN CHOICE, safe]). -/
def State.doCwait (s : State) (h : OpHead) (target : Nat) : State :=
  let j := h.object
  let i := j / 1024
  let c := s.syncStatus h j 1
  if c ≠ qOk then s.finish h i 0x15 j c 0 []
  else if target ≤ (s.sync j).value then s.finish h i 0x15 j qOk (s.sync j).value []
  else if h.timeout = 0 then s.takeFree.2.finish h i 0x15 j (freeStatus s.takeFree.1) 0 []
  else s.wait i 0x15 h target 0 []
/-- CWAIT_GE (R251). -/
def execCwaitGe (h : OpHead) (target : Nat) (s : State) : Res := .next ((s.at h.t).doCwait h target).settle
/-- TAKE. -/
def State.doTake (s : State) (h : OpHead) (n : Nat) : State :=
  let j := h.object
  let i := j / 1024
  let v := (s.sync j).value
  let c := s.syncStatus h j 2
  let c := if c ≠ qOk then c else if n = 0 ∨ 2 ^ 32 ≤ n then qSize else qOk
  if c ≠ qOk then s.finish h i 0x17 j c 0 []
  else if !(s.slice i).waits.any (fun w => w.op == 0x17 && w.head.object == j) ∧ n ≤ v then
    (s.modSync j (fun y => { y with value := v - n })).finish h i 0x17 j qOk (v - n) []
  else if h.timeout = 0 then s.finish h i 0x17 j qFull 0 []
  else s.wait i 0x17 h n 0 []
/-- TAKE (R251). -/
def execTake (h : OpHead) (n : Nat) (s : State) : Res := .next ((s.at h.t).doTake h n).settle
/-- A barrier broken (R251): counted, its waiters BROKEN. -/
def State.breakSync (s : State) (j : Nat) : State := ((s.modSync j (fun y => { y with broken := true })).qadd (j / 1024) kBarriersBroken 1).settle
/-- BREAK. -/
def State.doBreak (s : State) (h : OpHead) : State :=
  let j := h.object
  let c := s.ownerStatus h 3
  if c ≠ qOk then s.finish h (j / 1024) 0x19 j c 0 [] else (s.breakSync j).finish h (j / 1024) 0x19 j qOk (s.sync j).phase []
/-- BREAK (R251). -/
def execBreakBarrier (h : OpHead) (s : State) : Res := .next ((s.at h.t).doBreak h).settle
/-- BARRIER_RESET. -/
def State.doBarrierReset (s : State) (h : OpHead) : State :=
  let j := h.object
  let c := s.ownerStatus h 3
  if c ≠ qOk then s.finish h (j / 1024) 0x1A j c 0 []
  else (s.modSync j (fun y => { y with broken := false, value := 0 })).finish h (j / 1024) 0x1A j qOk (s.sync j).phase []
/-- BARRIER_RESET (R251). -/
def execBarrierReset (h : OpHead) (s : State) : Res := .next ((s.at h.t).doBarrierReset h).settle

/-! ### Combining queues as operations (R248, R249) -/

/-- One contribution added into its word by slice `i`: the state, and what it counts. -/
def State.combine (s : State) (i : Nat) (r : Queue) (e : Nat × BitVec 32) : State :=
  if r.maxMsg ≤ e.1 then s.qadd i kCombineRange 1
  else
    let a := r.base + 4 * e.1
    let w := BitVec.ofNat 32 (leNat (s.spaceRead r.space a 4).1)
    if r.kind = 1 then
      let v := toInt 32 w.toNat + toInt 32 e.2.toNat
      let held := if 0x7FFFFFFF < v then 0x7FFFFFFF else if v < -0x7FFFFFFF then -0x7FFFFFFF else v
      (s.spaceWrite 0x10 r.space a (natLe 4 (ofInt 32 held))).qadd i kCombineSat (if held = v then 0 else 1)
    else
      let v := fadd w e.2
      (s.spaceWrite 0x10 r.space a (natLe 4 v.toNat)).qadd i kCombineNonfinite (if fisFin v then 0 else 1)
/-- The linked object signalled when a round becomes ready (R249). -/
def State.signalLink (s : State) (q : Nat) : State :=
  let r := s.queue q
  let i := q / 16384
  let h : OpHead := { issuer := 0x40 + i, object := 1024 * i + r.link, rcq := noQueue, tag := 0, timeout := 0, always := false, slot := none, t := s.now }
  if !r.linkOn then s
  else
    let y := s.sync (1024 * i + r.link)
    let o := if y.kind = 1 then s.doCadd h 1 else if y.kind = 2 then s.doPost h 1 else if y.kind = 3 then s.doArrive h else (qState, s)
    if o.1 = qOk then o.2 else o.2.qadd i kLinkFailed 1
/-- The first word of a round that the contributions name and that cannot be read (Table 10.5). -/
def State.addBad (s : State) (r : Queue) (l : List (Nat × BitVec 32)) : Option Nat :=
  (l.filter (fun e => decide (e.1 < r.maxMsg))).findSome? (fun e =>
    if s.mem.sramBad.contains (r.base / 4 + e.1) then some (r.base / 4 + e.1) else none)
/-- ADD. Assumption 63 [DEDUCED, unsafe]. -/
def State.doAdd (s : State) (h : OpHead) (done : Bool) (l : List (Nat × BitVec 32)) : State :=
  let q := h.object
  let i := q / 16384
  let r := s.queue q
  if s.barred h ∨ !s.qThere q ∨ r.state = 0 ∨ r.kind = 0 then s.finish h i 9 q qState 0 []
  else if !maySend r h.issuer then s.finish h i 9 q qAccess 0 []
  else if l.length = 0 ∨ 256 < l.length then s.finish h i 9 q qSize 0 []
  else if r.state = 2 then (s.qadd64 i kOrphanSends 1).finish h i 9 q qOrphan 0 []
  else match s.addBad r l with
  | some w => (s.sramError w).finish h i 9 q qMemError 0 []
  | none =>
    let late := r.expect != 0 && roundReady r
    let s := (l.foldl (fun s e => s.combine i r e) s).qadd i kCombineLate (if late then 1 else 0)
    let s := s.modQueue q (fun x => { x with head := x.head + (if done then 1 else 0), tail := x.tail + l.length })
    let s := if r.expect != 0 && !late && roundReady (s.queue q) then s.signalLink q else s
    s.finish h i 9 q qOk 0 []
/-- ADD (R248). -/
def execAddOp (h : OpHead) (done : Bool) (contribs : List (Nat × BitVec 32)) (s : State) : Res := .next ((s.at h.t).doAdd h done contribs).settle
/-- READ_CLEAR. -/
def State.doReadClear (s : State) (h : OpHead) (addr len : Nat) : State :=
  let q := h.object
  let i := q / 16384
  let r := s.queue q
  if s.barred h ∨ !s.qThere q ∨ r.state = 0 ∨ r.kind = 0 then s.finish h i 10 q qState 0 []
  else if r.reader ≠ h.issuer then s.finish h i 10 q qAccess 0 []
  else if roundReady r then s.readRound h addr len
  else if h.timeout = 0 then s.finish h i 10 q qEmpty 0 []
  else s.wait i 10 h addr len []
/-- READ_CLEAR (R249). -/
def execReadClear (h : OpHead) (addr len : Nat) (s : State) : Res := .next ((s.at h.t).doReadClear h addr len).settle

/-! ### Timeouts, the completion hold, resets of endpoints -/

/-- WAIT_TIMEOUT (R245): the wait `id` of slice `i` has reached its limit. -/
def execWaitTimeout (i id t : Nat) (s : State) : Res :=
  let s := s.at t
  .next (match (s.slice i).waits.find? (fun w => w.id == id && (match w.until_ with
      | some u => decide (u ≤ s.now)
      | none => false)) with
    | none => s
    | some w =>
      let s := s.modSlice i (fun x => { x with waits := x.waits.filter (fun e => e.id != id) })
      ((s.qadd i kTimeouts 1).finish w.head i w.op w.head.object qTimeout 0 (if w.op = 5 then msgDescs w.msg else [])).settle)
/-- One held record: placed, lost with its queue, or still held. -/
def State.holdOne (s : State) (i : Nat) (e : Nat × Bytes) : State :=
  if !s.takesCompletions e.1 then s.loseCompletion i e.1
  else
    let p := if (s.slice i).hold.any (fun x => x.1 == e.1) || s.sendWaits e.1 then (.full, s) else s.place e.1 e.2
    match p.1 with
    | .ok => p.2
    | .size => s.loseCompletion i e.1
    | .err => s.loseCompletion i e.1
    | .full => s.modSlice i (fun x => { x with hold := x.hold ++ [e] })
/-- COMPLETION_HOLD_PLACE (R239): records held are placed in order where room has appeared. -/
def execCompletionHoldPlace (i t : Nat) (s : State) : Res :=
  let s := s.at t
  let l := (s.slice i).hold
  .next (l.foldl (fun s e => s.holdOne i e) (s.modSlice i (fun x => { x with hold := [] }))).settle

/-- Waits that their slices have given up, each with its slice: they finish ABORTED. -/
def State.abortAll (s : State) (l : List (Nat × Waiter)) : State :=
  l.foldl (fun s e => s.finish e.2.head e.1 e.2.op e.2.head.object qAborted 0 (if e.2.op = 5 then msgDescs e.2.msg else [])) s
/-- The waits of an issuer removed: each finishes ABORTED, and a waiting ARRIVE breaks its barrier (R242, R251). -/
def State.abortWaits (s : State) (ep : Nat) : State :=
  let gone := s.slices.flatMap (fun e => (e.2.waits.filter (fun w => w.head.issuer == ep)).map (fun w => (e.1, w)))
  let s := s.each (s.slices.map (·.1)) (fun s i => s.modSlice i (fun x => { x with waits := x.waits.filter (fun w => w.head.issuer != ep) }))
  let s := s.abortAll gone
  s.each ((gone.filter (fun e => e.2.op == 0x18)).map (fun e => e.2.head.object)).eraseDups (fun s j =>
    if (s.sync j).broken then s else s.breakSync j)
/-- An endpoint is reset (R242, R250): its waits are aborted, the queues it owns destroyed, the queues it reads orphaned, its sync
objects destroyed. -/
def State.resetEndpoint (s : State) (ep : Nat) : State :=
  let s := s.abortWaits ep
  let s := ((s.queues.filter (fun e => e.2.state != 0 && e.2.owner == ep)).map (·.1)).foldl (fun s q => s.dropQueue q) s
  let s := ((s.queues.filter (fun e => e.2.state == 1 && e.2.reader == ep)).map (·.1)).foldl (fun s q => s.orphan q) s
  let s := ((s.syncs.filter (fun e => e.2.owner == ep)).map (·.1)).foldl (fun s j => s.modSync j (fun _ => {})) s
  s.settle

end Sys2Proof.Machine
end

