-- ==== Sys2Proof/Machine/Links.lean ====
section
/-!
DEFINITION. The data ports as every sender sees them: subports, the subport that a packet leaves on, and whether it can leave
(R328 to R330).
-/

namespace Sys2Proof.Machine

/-- The port event of the physical function (Table 12.6). -/
def State.portEvent (s : State) : State := s.raiseCause 0 3
/-- Data port `p` in `Output` and TIME_PORT numbering. -/
def dataCode (p : Nat) : Nat := 2 + p
/-- Subports of PORT_MODE. -/
def subports (mode : Nat) : Nat := if mode = 0 then 1 else if mode = 1 then 2 else 4
/-- The bytes of SUBPORT_ADDR of a port: four addresses with their prefix lengths. -/
def State.subAddr (s : State) (p k : Nat) : Bytes := natLe 17 (s.dget (kSubportAddr p) / 256 ^ (17 * k))
/-- Bit `i` of an address in network order, the most significant first. -/
def addrBit (a : Bytes) (i : Nat) : Bool := (a.getD (i / 8) 0).toNat.testBit (7 - i % 8)
/-- The length of the subport's prefix when it matches the address; an empty prefix matches nothing. -/
def State.prefixMatch (s : State) (p k : Nat) (a : Bytes) : Option Nat :=
  let x := s.subAddr p k
  let n := (x.getD 16 0).toNat
  if 1 ≤ n ∧ n ≤ 128 ∧ (List.range n).all (fun i => addrBit x i == addrBit a i) then some n else none
/-- The subport that a packet to address `a` leaves on (R328): the longest prefix that matches, else subport 0. Assumption 66 [DEDUCED, unsafe]. -/
def State.subportFor (s : State) (p a : Nat) : Nat :=
  let b := natLe 16 a
  let l := (List.range (subports (s.dget (kPortMode p)))).filterMap (fun k => (s.prefixMatch p k b).map (fun n => (k, n)))
  (l.foldl (fun best e => if best.2 < e.2 then e else best) (0, 0)).1
/-- Can a packet to address `a` leave through port `p`? -/
def State.canSend (s : State) (p a : Nat) : Bool := s.subUp p (s.subportFor p a)
/-- The part's answer to a packet of RoCEv2 that carries an ECN mark: a congestion notification packet for the queue pair (Table 12.11). -/
def State.ecnMarked (s : State) (ecn : Bool) (p qpn : Nat) : State := if ecn then s.out (.cnp p qpn) else s

/-! ### MAC addresses (R328, R456; assumption 36 [PRESUMED, unsafe]) -/

/-- The number of a MAC address of six bytes in network order. -/
def macNumber (v : Nat) : Nat := ((List.range 6).map (fun i => v / 256 ^ i % 256 * 256 ^ (5 - i))).foldl (· + ·) 0
/-- The MAC address of subport `k` of data port `p`: the part's ten follow MAC_BASE. -/
def subMac (p k : Nat) : Nat := (macNumber (Config.factory kMacBase) + 4 * p + k) % 2 ^ 48
/-- The MAC address of field port `p`. -/
def fieldMac (p : Nat) : Nat := (macNumber (Config.factory kMacBase) + 8 + p) % 2 ^ 48
/-- Is the MAC address one of the part's ten: eight subports and two field ports? -/
def ownMac (mac : Nat) : Bool := mac == fieldMac 0 || mac == fieldMac 1 || [0, 1].any (fun p => (List.range 4).any (fun k => mac == subMac p k))

end Sys2Proof.Machine
end

