-- ==== Sys2Proof/Machine/Converters.lean ====
section
/-!
DEFINITION. Samples, the enables of streams and readout groups (chapter 8), and the registers ESTOP_STATE and OUTPUT_ENABLE
with the emergency stop.
-/

namespace Sys2Proof.Machine

/-! ### Samples (R205 to R208) -/

/-- Is SEQ `a` newer than the SEQ held (R207)? -/
def seqNewer (a : Nat) : Option Nat → Bool
  | none => true
  | some h => decide ((a + 2 ^ 32 - h) % 2 ^ 32 ≠ 0) && decide ((a + 2 ^ 32 - h) % 2 ^ 32 < 2 ^ 31)
/-- Does a sample fit the stream's ACTIVE tile (R207)? -/
def State.sampleOk (s : State) (k : Nat) (b : Bytes) : Bool := match s.convOf k with
  | none => false
  | some (_, t) =>
    let nch := s.stNch t
    let fmt := s.tileField t 1 1
    b.length == 16 + nch * fmtBytes fmt && fieldAt b 0 1 == k && fieldAt b 1 1 == fmt && fieldAt b 2 2 == nch
/-- The home slice takes or discards a sample (R207, R208). -/
def State.takeSample (s : State) (k : Nat) (b : Bytes) : State :=
  if !s.streamPresent k then s
  else if !(s.stream k).force then s.dadd (kDisabledDrops k) 1
  else if !s.sampleOk k b then s.dadd (kSampleErrors k) 1
  else
    let q := fieldAt b 4 4
    if !seqNewer q (s.stream k).heldSeq then s.dadd (kSeqRejects k) 1
    else
      let s := if (s.stream k).pending.isSome then s.dadd (kSamplesSuperseded k) 1 else s
      (s.modStream k (fun st => { st with
        pending := some { seq := q, stamp := fieldAt b 8 8, vals := b.drop 16, came := s.now }
        before := match st.pending with
          | none => none
          | some x => if x.came < s.now then some x else st.before
        heldSeq := some q })).dadd64 (kSamplesAccepted k) 1
/-- The ingest queue of a stream (R203). -/
def ingestQueue (k : Nat) : Nat := 16384 * (2 * k) + 16382
/-- The inline bytes of the message at the head of a ring. -/
def State.headBody (s : State) (q : Nat) : Option Bytes :=
  let r := s.queue q
  if r.state = 0 ∨ r.head = r.tail then none
  else
    let h := s.ringHdr r r.head
    some (s.ringRead r (r.head + 1 + 2 * rhDescs h) (rhLen h - 8 - 16 * rhDescs h))
/-- ENCODE takes the message at the head of its ingest queue as a sample. -/
def State.takeIngest (s : State) (k : Nat) (b : Bytes) : State :=
  let q := ingestQueue k
  if s.headBody q = some b then
    ((s.popHead q (rhLen (s.ringHdr (s.queue q) (s.queue q).head))).takeSample k b).settle
  else s
/-- Can a sample of stream `k` reach the part on its data port, ETH_PORT (R206, R330): the port carries traffic, and for RoCEv2 the
stream's queue pair is connected there (R331)? -/
def State.samplePath (s : State) (src k : Nat) : Bool :=
  let p := s.dget (kEthPort k)
  (List.range 4).any (fun i => s.subUp p i) && (src != 2 || s.connected p (0x020000 + k))
/-- SAMPLE (R207): a sample on the path `src` of Table 8.2; a path that SOURCE does not name does not reach the stream, nor does one
over a data port that is down. On HOST_QUEUE it is the message at the head of the ingest queue. -/
def execSample (src : SamplePath) (k : Nat) (data : Bytes) (t : Nat) (s : State) : Res :=
  let s := s.at t
  let p := src.path
  .next (if 32 ≤ k ∨ s.dget (kSource k) ≠ p ∨ p = 0 ∨ ((p = 2 ∨ p = 3) ∧ !s.samplePath p k) then s
    else if p = 1 then s.takeIngest k data
    else (s.ecnMarked (src.ecn && p == 2) (s.dget (kEthPort k)) (0x020000 + k)).takeSample k data)
/-- A write of STREAM_SAMPLE (R206). -/
def State.doStreamSample (s : State) (k : Nat) (b : Bytes) : Nat × State :=
  if b.length < 16 ∨ 1040 < b.length then (stLength, s)
  else if s.dget (kSource k) ≠ 4 then (stState, s) else (stOk, s.takeSample k b)
/-- STREAM_SAMPLE. -/
def execStreamSample (r : Requester) (k : Nat) (data : Bytes) (t : Nat) (s : State) : Res :=
  .next ((s.at t).typed r (kStreamSample k) 0 (fun s => s.doStreamSample k data))

/-! ### Enables of streams (R227, R228) -/

/-- Does the partition that holds converter `w` run? -/
def State.heldRunning (s : State) (w : Nat) : Bool := match s.holder w with
  | some n => running (s.part n)
  | none => false
/-- Does another enabled stream take datagrams of the same port (R227)? -/
def State.udpTaken (s : State) (k : Nat) : Bool :=
  (List.range 32).any (fun j => j != k && s.dget (kStreamEnable j) == 1 && s.dget (kSource j) == 3 &&
    s.dget (kEthPort j) == s.dget (kEthPort k) && s.dget (kUdpPort j) == s.dget (kUdpPort k))
/-- A write of STREAM_ENABLE (R227). -/
def State.doStreamEnable (s : State) (k v : Nat) : Nat × State :=
  if 2 ≤ v then (stRange, s)
  else if v = 1 ∧ (s.dget (kSource k) = 0 ∨ (s.dget (kSource k) = 3 ∧ s.udpTaken k)) then (stState, s)
  else
    let s := s.dset (kStreamEnable k) v
    (stOk, if s.heldRunning k || (s.stream k).force == (v == 1) then s
      else s.modStream k (fun q => if v = 1 then { q with force := true, chans := [], staleRun := 0, mode := .waiting, heldSeq := none }
        else { q with force := false, pending := none, before := none }))
/-- STREAM_ENABLE. -/
def execStreamEnable (r : Requester) (k v t : Nat) (s : State) : Res :=
  .next ((s.at t).typed r (kStreamEnable k) v (fun s => s.doStreamEnable k v))
/-- The encoded events of stream `k` that INTAKE of core `c` has not yet handed to FETCH are discarded and counted (R228); those whose row
is being read complete. A truncated or absorbing core has none left. -/
def State.dropIntake (s : State) (k c : Nat) : State :=
  let mine := fun (e : EvRec) => e.stream == some k && !(s.core c).reads.any (fun q => q.row == evRow e.word)
  let gone := (s.core c).intake.filter mine
  if gone.isEmpty then s
  else (s.modCore c (fun q => { q with intake := q.intake.filter (fun e => !mine e) })).absorbCount c 0x7C (realRecs gone)
/-- A write of STREAM_DISABLE_NOW (R228). ENCODE_DONE goes at once; a haul already in flight holds the belay of its target core (R42). After the truncate instant the events not launched are truncated inputs (R175, R230). -/
def State.doStreamNow (s : State) (k v : Nat) : Nat × State :=
  if 2 ≤ v then (stRange, s)
  else if v = 0 then (stOk, s)
  else
    let st := s.stream k
    let cut := match s.holder k with
      | some n => (s.part n).seq.isOpen && (s.part n).seq.truncAt.isSome
      | none => false
    let gone := if cut then 0 else st.unlaunched.length
    let s := (s.dset (kStreamEnable k) 0).dadd (kAbsorbedEncode k) gone
    let s := if cut then st.unlaunched.foldl (fun s e => s.modCore e.1 (fun q => { q with led := { q.led with truncIn := q.led.truncIn + 1 } })) s else s
    let open_ := match s.holder k with
      | some n => (s.part n).seq.isOpen && st.force
      | none => false
    let s := match s.holder k with
      | some n =>
        let s := s.each (s.partCores n) (fun s c => s.dropIntake k c)
        if open_ then (s.mark n 9 (k + 2 ^ 15) 0 (s.pitchOf n)).dadd64 (kAbsorbTotal n) gone else s
      | none => s
    let s := s.modStream k (fun q => { q with force := false, pending := none, before := none, unlaunched := [], absorbed := open_ })
    (stOk, if st.encoding then s.sendEncodeDone k else s)
/-- STREAM_DISABLE_NOW. -/
def execStreamDisableNow (r : Requester) (k v t : Nat) (s : State) : Res :=
  .next ((s.at t).typed r (kStreamDisableNow k) v (fun s => s.doStreamNow k v))

/-! ### Enables of readout groups (R229) -/

/-- A write of GROUP_ENABLE: outside a run it acts at once; in a run a set bit waits for the next belay, and so does a cleared one while a
pitch is open. Between pitches a cleared bit lets out no record later than the last pitch's (R229). -/
def State.doGroupEnable (s : State) (mask : Nat) : Nat × State :=
  let s := s.dset kGroupEnable (mask % 2 ^ 256)
  (stOk, s.each (List.range 256) (fun s g =>
    let on := s.groupWanted g
    let n := (s.holder (32 + g)).getD 8
    if (s.rgroup g).force == on then s
    else if running (s.part n) then
      if on || (s.part n).seq.isOpen then s else s.modGroup g (fun q => { q with force := false, upTo := some (s.pitchOf n) })
    else s.modGroup g (fun q => if on then { q with force := true, since := 0, upTo := none, window := [], rings := [] } else { q with force := false, upTo := none })))
/-- GROUP_ENABLE. -/
def execGroupEnable (r : Requester) (mask t : Nat) (s : State) : Res :=
  .next ((s.at t).typed r kGroupEnable mask (fun s => s.doGroupEnable mask))
/-- The contributions of a group's pitches that are still to be decoded. -/
def State.dueContributions (s : State) (g : Nat) : Nat := match s.groupOf g with
  | none => 0
  | some (n, t) => (((s.rgroup g).due.filter (fun d => !bit d.2.2 5)).map (fun d => (s.contributions n t d.1).length)).foldl (· + ·) 0
/-- A write of GROUP_DISABLE_NOW. -/
def State.doGroupNow (s : State) (mask : Nat) : Nat × State :=
  let s := s.dset kGroupEnable (s.dget kGroupEnable - (s.dget kGroupEnable &&& mask % 2 ^ 256))
  (stOk, s.each (maskList 256 mask) (fun s g =>
    let a := s.dueContributions g + s.roundCount g
    (s.clearCombine g).modGroup g (fun q => { q with
      force := false
      upTo := none
      counts := { q.counts with absorbed := satAdd 32 q.counts.absorbed a }
      due := q.due.map (fun d => (d.1, d.2.1, setBit d.2.2 5 true)) })))
/-- GROUP_DISABLE_NOW. -/
def execGroupDisableNow (r : Requester) (mask t : Nat) (s : State) : Res :=
  .next ((s.at t).typed r kGroupDisableNow mask (fun s => s.doGroupNow mask))

/-! ### Emergency stop and output enable (R224, R370, Tables 13.13, 13.14) -/

/-- ESTOP_ASSERT (R224). -/
def execEstopAssert (t : Nat) (s : State) : Res :=
  let s := s.at t
  .next (if s.pins.estop then s
    else ((s.modPins (fun p => { p with estop := true, estopSeen := true })).dset kOutputEnable 0).dadd kEstopAssertions 1)
/-- ESTOP_RELEASE (R480). -/
def execEstopRelease (t : Nat) (s : State) : Res := .next ((s.at t).modPins (fun p => { p with estop := false }))
/-- ENABLE of OUTPUT_ENABLE written; a 1 is ignored while ESTOP_N is asserted. -/
def State.setOutput (s : State) (v : Nat) : State := if v % 2 = 1 ∧ s.pins.estop then s else s.dset kOutputEnable (v % 2)
/-- A write of entry OUTPUT_ENABLE. -/
def State.doOutputEnable (s : State) (v : Nat) : Nat × State := if 2 ≤ v then (stRange, s) else (stOk, s.setOutput v)
/-- OUTPUT_ENABLE (R224, Table 13.14): virtual functions and SMBus are ignored. -/
def execOutputEnable (src : RegSource) (w t : Nat) (s : State) : Res :=
  let s := s.at t
  .next (match src with
    | .func f => if f = 0 ∧ s.hostSees f = true then s.setOutput w else s
    | .smbus => s
    | .entry r => s.typed r kOutputEnable w (fun s => s.doOutputEnable w))
/-- ESTOP_STATE (Table 13.13): a 1 in SEEN clears it; the entry is read only, and so is SMBus (R369). -/
def execEstopState (src : RegSource) (w t : Nat) (s : State) : Res :=
  let s := s.at t
  .next (match src with
    | .func f => if s.hostSees f && bit w 1 then s.modPins (fun p => { p with estopSeen := false }) else s
    | .smbus => s
    | .entry r => s.answer r kEstopState stAccess)

end Sys2Proof.Machine
end

