-- ==== Sys2Proof/Machine/MemoryUnits.lean ====
section
/-!
DEFINITION. Tile engines (chapter 6), and the memories behind the slices (chapter 10): parity, check codes, scrub, training, the
background test, frames and their owners, the BAR2 window, grants, conflict counters, and the failure of a slice (chapter 16).
-/

namespace Sys2Proof.Machine

/-! ### Tile engines (R157 to R161) -/

/-- The tile submission queue of slice `i`. -/
def submitQueue (i : Nat) : Nat := 16384 * i + 16383
/-- The FUNCTION field for a sender's endpoint code. -/
def senderFunction (ep : Nat) : Nat := if ep ≤ 8 then ep else 0xFF
/-- The endpoint code that a FUNCTION acts as. -/
def functionEp (f : Nat) : Nat := if f ≤ 8 then f else 0x10
/-- OPCODE. -/
def dsOp (d : Bytes) : Nat := fieldAt d 0 1
/-- SRC_SPACE. -/
def dsSrcSpace (d : Bytes) : Nat := fieldAt d 2 1 % 16
/-- DST_SPACE. -/
def dsDstSpace (d : Bytes) : Nat := fieldAt d 2 1 / 16
/-- TAG. -/
def dsTag (d : Bytes) : Nat := fieldAt d 4 2
/-- SRC_ADDR. -/
def dsSrc (d : Bytes) : Nat := fieldAt d 8 8
/-- DST_ADDR. -/
def dsDst (d : Bytes) : Nat := fieldAt d 0x10 8
/-- LENGTH. -/
def dsLen (d : Bytes) : Nat := fieldAt d 0x18 4
/-- CQ. -/
def dsCq (d : Bytes) : Nat := fieldAt d 0x1C 4 % 2 ^ 20
/-- Does the descriptor read memory? -/
def dsReads (d : Bytes) : Bool := dsOp d != 2
/-- Does it write memory? -/
def dsWrites (d : Bytes) : Bool := dsOp d != 3

/-- A known opcode, a length of Table 6.8, and no reserved bit set (R159). -/
def dsFormOk (d : Bytes) : Bool :=
  decide (1 ≤ dsOp d) && decide (dsOp d ≤ 4) && decide (fieldAt d 1 1 < 4) && fieldAt d 6 2 == 0 && decide (fieldAt d 0x1C 4 < 2 ^ 20) &&
    (dsReads d || decide (dsSrc d < 2 ^ 32)) && (dsWrites d || dsDst d == 0) && dsLen d % 32 == 0 && decide (32 ≤ dsLen d) && decide (dsLen d ≤ 0xFFFFFFE0)
/-- Aligned addresses in their spaces, and no overlap of a COPY (R159). -/
def State.dsAddrOk (s : State) (d : Bytes) : Bool :=
  (!dsReads d || (dsSrc d % 32 == 0 && s.spaceOk (dsSrcSpace d) (dsSrc d) (dsLen d))) &&
  (!dsWrites d || (dsDst d % 32 == 0 && s.spaceOk (dsDstSpace d) (dsDst d) (dsLen d))) &&
  !(dsReads d && dsWrites d && dsSrcSpace d == dsDstSpace d && decide (dsSrc d < dsDst d + dsLen d) && decide (dsDst d < dsSrc d + dsLen d))
/-- May a descriptor of function `f` name the space (R160)? A virtual function's reaches LPDDR6 and its host memory alone. -/
def dsSpaceMay (f sp : Nat) : Bool := f == 0 || f == 0xFF || sp == spLp || sp == spHost
/-- The access rules of R159 and R160. -/
def State.dsMay (s : State) (f : Nat) (d : Bytes) : Bool :=
  let ep := functionEp f
  (dsOp d != 4 || f == 0xFF) &&
    (!dsReads d || (dsSpaceMay f (dsSrcSpace d) && s.spaceMay ep false (dsSrcSpace d) (dsSrc d) (dsLen d))) &&
    (!dsWrites d || (dsSpaceMay f (dsDstSpace d) && s.spaceMay ep true (dsDstSpace d) (dsDst d) (dsLen d)))
/-- The status of the checks before a move: OK, OPCODE, ADDRESS or ACCESS. -/
def State.dsCheck (s : State) (f : Nat) (d : Bytes) : Nat :=
  if !dsFormOk d then qOpcode else if !s.dsAddrOk d then qAddress else if !s.dsMay f d then qAccess else qOk
/-- A tile descriptor completes (Table 6.9): its record goes to its CQ, unless ERROR_ONLY keeps back an OK. -/
def State.dsFinish (s : State) (i : Nat) (d : Bytes) (status crc done : Nat) : State :=
  if dsCq d = noQueue ∨ (status = qOk ∧ bit (fieldAt d 1 1) 1) then s
  else s.complete i (dsCq d) (natLe 8 (rhMk 0 0 24 (0x40 + i) noQueue (dsTag d)) ++ natLe 2 (dsTag d) ++ natLe 1 status ++ natLe 1 i ++
    natLe 4 crc ++ natLe 4 done ++ natLe 4 0)
/-- DESCRIPTOR_SUBMIT (R158, R159, R161): the tile engine takes the descriptor at the head of its submission queue, when fewer
than 64 are in flight and its FENCE allows, and checks it. -/
def State.submitDescriptor (s : State) (i : Nat) : State :=
  let q := submitQueue i
  match s.headBody q with
  | none => s
  | some b =>
    let d := Machine.slice b 0 32
    let h := s.ringHdr (s.queue q) (s.queue q).head
    let f := senderFunction (rhSender h)
    if 64 ≤ (s.slice i).descs.length ∨ (bit (fieldAt d 1 1) 0 ∧ (s.slice i).descs.any (fun e => e.owner == f)) then s
    else
      let s := s.popHead q (rhLen h)
      let c := s.dsCheck f d
      if c = qOk then s.modSlice i (fun x => { x with descs := x.descs ++ [⟨d, f⟩] }) else s.dsFinish i d c 0 0
/-- DESCRIPTOR_SUBMIT. -/
def execDescriptorSubmit (i t : Nat) (s : State) : Res := .next (if s.slicePresent i then ((s.at t).submitDescriptor i).settle else s.at t)

/-- Bytes from `a` of a space before the first 32-byte word that cannot be read. -/
def State.goodBytes (s : State) (sp a n : Nat) : Nat :=
  match (List.range (n / 32)).find? (fun j => s.spaceBad sp (a + 32 * j) 32) with
  | some j => 32 * j
  | none => n
/-- A request of function `f` on the host link met an error: its uncorrectable error status takes the bits of that error, which are the
host's kind and no number of the spec (R316; assumption 11 [DESIGN CHOICE, safe]). -/
def State.hostError (s : State) (f : Nat) : State :=
  if 8 < f then s
  else
    let r := s.takeFree
    r.2.modFunc f (fun x => { x with aer := x.aer ||| r.1.toNat % 2 ^ 32 })
/-- The move of a descriptor: bytes done, their CRC-32C, and the status. `err` gives the bytes moved before an error that the move
meets beside those the state shows. Assumption 32 [DESIGN CHOICE, unsafe]. -/
def State.dsMove (s : State) (f : Nat) (d : Bytes) (err : Option Nat) : State × Nat × Nat × Nat :=
  let n := dsLen d
  let good := if dsReads d then s.goodBytes (dsSrcSpace d) (dsSrc d) n else n
  let good := if dsWrites d && s.spaceOut (dsDstSpace d) (dsDst d) n then 0 else good
  let good := match err with
    | some e => min good (e / 32 * 32)
    | none => good
  let bad := decide (good < n) || err.isSome
  let host := (dsReads d && dsSrcSpace d == 2) || (dsWrites d && dsDstSpace d == 2)
  let s := if err.isSome && host then (s.dadd kHostDmaErrors 1).hostError (functionEp f) else s
  let r := if dsReads d then s.spaceRead (dsSrcSpace d) (dsSrc d) good
    else ((List.range good).map (fun j => BitVec.ofNat 8 (dsSrc d / 256 ^ (j % 4))), s)
  let s := if dsWrites d then r.2.spaceWrite (functionEp f) (dsDstSpace d) (dsDst d) r.1 else r.2
  let crc := if dsReads d then crc32c r.1 else 0
  let hdr := Machine.slice r.1 0 64
  let c := if bad then qMemError
    else if dsOp d = 4 then
      (if fieldAt hdr 0 2 ≠ 0x4C54 ∨ fieldAt hdr 3 1 ≠ 1 ∨ fieldAt hdr 8 8 + 64 ≠ n ∨ fieldAt hdr 0x3C 4 ≠ crc32c (Machine.slice hdr 0 0x3C) then 3
       else if fieldAt hdr 0x10 4 ≠ crc32c (r.1.drop 64) then 4 else qOk)
    else qOk
  (s, good, crc, c)
/-- DESCRIPTOR_COMPLETE (R157, R159): descriptor `j` in flight at slice `i` completes. -/
def execDescriptorComplete (i j : Nat) (memErr : Option Nat) (t : Nat) (s : State) : Res :=
  let s := s.at t
  .next (match (s.slice i).descs[j]? with
    | none => s
    | some e =>
      let s := s.modSlice i (fun x => { x with descs := x.descs.eraseIdx j })
      let m := s.dsMove e.owner e.raw memErr
      (m.1.dsFinish i e.raw m.2.2.2 m.2.2.1 m.2.1).settle)
/-- Descriptors in flight of the submitters that `p` names finish ABORTED (R161); none of their bytes has moved. -/
def State.abortDescs (s : State) (p : Nat → Bool) : State :=
  s.slices.foldl (fun s e =>
    let gone := e.2.descs.filter (fun d => p d.owner)
    gone.foldl (fun s d => s.dsFinish e.1 d.raw qAborted 0 0) (s.modSlice e.1 (fun x => { x with descs := x.descs.filter (fun d => !p d.owner) }))) s

/-! ### Slices that fail (R443, Table 10.5) -/

/-- A slice has failed: its slot is marked and logged, its links are excluded (R307), and a spare is awaited. -/
def State.markSlice (s : State) (i detail origin : Nat) : State :=
  if !s.slicePresent i || (s.slice i).failed then s
  else
    let u := s.physSlice i
    let s := s.modFloor (fun f => { f with sliceSlots := mset dSliceSlot f.sliceSlots u 5 })
    ((s.logDefect 2 origin u detail).modSlice i (fun x => { x with failed := true })).dropLinks (0x300 + i) (List.range 18)
/-- A slice failure found by the part itself: it is reported and marked. -/
def State.failSlice (s : State) (i code detail origin : Nat) : State :=
  if !s.slicePresent i || (s.slice i).failed then s
  else (s.reportUnit code 1 2 (s.physSlice i) none detail).markSlice i detail origin
/-- A subchannel out of service until the next device reset (R445): its clusters have no cairn or journal. -/
def State.loseSubchannel (s : State) (i : Nat) : State :=
  let s := (s.modSlice i (fun x => { x with subOut := true })).modStream (if i % 2 = 0 then i / 2 else 32) (fun q => { q with journal := [] })
  s.each [2 * i, 2 * i + 1] (fun s cl =>
    let s := s.modCluster cl (fun q => { q with journal := [] })
    s.each (s.clCores cl) (fun s c => s.modCore c (fun k => { k with cairn := { due := none, writing := none, latest := none, slot := k.cairn.slot } })))
/-- Overflow records in the SRAM of slice `i` are lost (R443). -/
def State.loseOverflow (s : State) (i : Nat) : State :=
  s.each [2 * i, 2 * i + 1] (fun s cl => s.each (s.clCores cl) (fun s c =>
    let n := ovfCount (s.core c)
    (s.modCore c (fun k => { k with ring := k.ring.filter (fun e => !e.ovf) })).ledgerDrop (s.coreN c) c n))
/-- Rings and combining rounds in the SRAM of slice `i` are lost (R443). -/
def State.loseRings (s : State) (i : Nat) : State :=
  let here := (s.queues.filter (fun e => e.2.state != 0 && e.2.space == 1 && e.2.base / sramSize == i)).map (·.1)
  let s := here.foldl (fun s q =>
    let n := (s.messages (s.queue q)).length
    (s.modQueue q (fun r => { r with head := 0, tail := 0 })).qadd (q / 16384) kRingMemoryErrors n) s
  let s := s.each ((List.range 256).filter (fun g => g % 64 == i)) (fun s g => s.modGroup g (fun q =>
    { q with due := q.due.map (fun d => (d.1, d.2.1, setBit d.2.2 4 true)) }))
  s.modMem (fun m => { m with
    sram := mclear m.sram (i * sramSize) sramSize
    sramBad := m.sramBad.filter (fun w => w * 4 / sramSize != i) })
/-- What the mirror of slice `i` would have given back, when its local area is out of service (R443, R445): queue records, sync objects, wait list and
SEQ marks. Assumption 111 [DEDUCED, unsafe]. -/
def State.loseMirror (s : State) (i : Nat) : State :=
  let ws := (s.slice i).waits
  let s := { (s.modSlice i (fun x => { x with waits := [], groups := [] })) with
    queues := s.queues.filter (fun e => e.1 / 16384 != i)
    syncs := s.syncs.filter (fun e => e.1 / 1024 != i) }
  let s := s.modFab (fun f => { f with recv := f.recv.filter (fun e => e.1 % 512 != 128 + i) })
  ws.foldl (fun s w => s.finish w.head i w.op w.head.object qAborted 0 (if w.op = 5 then msgDescs w.msg else [])) s
/-- SLICE_TAKEOVER (R443): a spare of the die takes over the failed slice with the mirror's contents, or the slice is lost. -/
def State.takeSlice (s : State) (i : Nat) : State :=
  let old := s.physSlice i
  let die := i / 16
  let s := ((s.loseRings i).loseOverflow i).modSlice i (fun x => { x with failed := false })
  let gone := (s.slice i).descs
  let s := s.modSlice i (fun x => { x with descs := [] })
  let s := gone.foldl (fun s d => s.dsFinish i d.raw qAborted 0 0) s
  match (List.range 17).find? (fun k => mget dSliceSlot s.floor.sliceSlots (die * 32 + k) == 1) with
  | some k =>
    let s := s.modMem (fun m => { m with heldReg := m.heldReg.filter (fun e => !(e.1 == 3 && e.2.1 == i)) })
    let s := if (s.slice i).subOut then s.loseMirror i else s
    let s := s.modFloor (fun f => { f with
      sliceSlots := mset dSliceSlot f.sliceSlots (die * 32 + k) 0
      sliceMap := mset dSliceMap f.sliceMap i k })
    let s := ((s.dadd kSliceTakeovers 1).reportUnit 0x0804 1 2 old none (die * 32 + k)).wantGen.resendTo (0x4000 + i)
    s.each ((List.range 8).filter (fun n => running (s.part n))) (fun s n => s.mark n 11 i (die * 32 + k) (s.pitchOf n))
  | none =>
    let ws := (s.slice i).waits
    let s := s.modSlice i (fun x => { x with waits := [], lost := true })
    let s := ws.foldl (fun s w => s.finish w.head i w.op w.head.object qAborted 0 (if w.op = 5 then msgDescs w.msg else [])) s
    (s.loseSubchannel i).reportUnit 0x0805 2 2 old none 0
/-- SLICE_TAKEOVER. -/
def execSliceTakeover (i t : Nat) (s : State) : Res :=
  let s := s.at t
  .next (if s.slicePresent i && (s.slice i).failed then (s.takeSlice i).settle else s)

/-! ### Parity (R260, Table 10.5) -/

/-- A persistent error in the synapse cache of core `c`: the object of that unit is invalidated (which one lies there is free,
assumption 30 [DESIGN CHOICE, safe]), and the unit withdrawn. -/
def State.cacheParity (s : State) (c addr : Nat) : State :=
  let f := s.takeFree
  let i := f.1.toNat % ((s.core c).cache.length + 1)
  let s := f.2.modCore c (fun k => { k with cache := k.cache.eraseIdx i })
  let s := s.modMem (fun m => { m with withdrawn := mmod dZero m.withdrawn c (fun n => min 8192 (n + 1)) })
  s.reportUnit 0x0105 0 1 (s.physCore c) (s.partOf (clusterOf c)) (addr / 8)
/-- The action of Table 10.5 for a persistent error, which is counted; units are logical cores, clusters and logical slices. -/
def State.parityAction (s : State) (m : ParityMem) (unit addr : Nat) : State :=
  let c := s.dadd kParityPersistent 1
  match m with
  | .neuronState => c.failCore unit 0x0102 (2 ^ 28 + addr)
  | .accumulator => c.failCore unit 0x0102 (2 ^ 29 + addr)
  | .bobbinRing => c.failCore unit 0x0102 (2 ^ 29 + 2 ^ 28 + addr)
  | .synapseCache => c.cacheParity unit addr
  | .longDelayStore => (c.logDefect 5 3 unit addr).failStore unit addr
  | .sliceData => s.sramError (unit * (sramSize / 4) + addr)
  | .sliceControl => c.failSlice unit 0x0301 addr 3
  | .controllerSram => (c.logDefect 4 3 unit addr).startController unit addr
  | .mgmtSram => c.startMgmt addr
/-- PARITY_ERROR (R260). -/
def execParityError (mem : ParityMem) (unit addr : Nat) (cured : Bool) (t : Nat) (s : State) : Res :=
  let s := s.at t
  .next (if cured then s.dadd kParityReplays 1 else s.parityAction mem unit addr)

/-! ### LPDDR6 words (R269, R270) -/

/-- The space address of a word at offset `o` of subchannel `i`, if the space holds it (R264, R266). -/
def State.addrBack (s : State) (i o : Nat) : Option Nat :=
  let k := o / 2048
  let back := fun (set first per frames : Nat) =>
    let l := s.setSlices set
    let j := k - first
    let g := (j % per) * l.length + l.idxOf i
    if j / per < frames ∧ g < 524288 ∧ l.contains i then some ((if set = 0 then 0 else if set = 1 then s.frameAll else s.frameAll + s.framesHalf 1) * 2 ^ 30 +
      j / per * 2 ^ 30 + g * 2048 + o % 2048) else none
  let all := perFrame (s.setSlices 0).length
  if 0xEC000000 ≤ o then (if o < 0xF0000000 then some (0x3B00000000 + i * 0x4000000 + (o - 0xEC000000)) else none)
  else if k < s.frameAll * all then back 0 0 all s.frameAll
  else
    let h := if i < 32 then 1 else 2
    back h (s.frameAll * all) (perFrame (s.setSlices h).length) (s.framesHalf h)
/-- A corrected error of subchannel `i`: counted; each one by which the count has risen by more than CE_ALERT in 24 h issues an emergency object
(R270; assumption 89 [DEDUCED, unsafe]). -/
def State.corrected (s : State) (i : Nat) : State :=
  let near := (s.slice i).ces.filter (fun a => decide (s.now < a + 86400000000000))
  let s := (s.modSlice i (fun x => { x with ce := satAdd 32 x.ce 1, ces := near ++ [s.now] })).dadd64 kCeTotal 1
  if s.dget kCeAlert ≤ near.length then s.warn 0x0009 0xFF i else s
/-- Is the word at offset `o` of subchannel `i` poisoned? -/
def State.poisoned (s : State) (i o : Nat) : Bool := match s.addrBack i o with
  | some a => s.mem.poison.contains (a / 32)
  | none => s.mem.poisonOff.contains (i, o / 32)
/-- The poison code written into a word's check code (R269). -/
def State.poisonWord (s : State) (i o : Nat) : State := match s.addrBack i o with
  | some a => s.modMem (fun m => { m with poison := m.poison.filter (· != a / 32) ++ [a / 32] })
  | none => s.modMem (fun m => { m with poisonOff := m.poisonOff.filter (· != (i, o / 32)) ++ [(i, o / 32)] })
/-- What a slice does with a word that it reads at offset `o` (R269); `keep` says that a write has reached the word since, which is then left
as it is (R270). A poisoned word is found so, and not counted again. -/
def State.readWord (s : State) (i o : Nat) (e : WordError) (keep : Bool) : State :=
  if s.poisoned i o then s
  else match e with
  | .clean => s
  | .poisoned => s
  | .correctable => s.corrected i
  | .uncorrectable =>
    let s := if keep then s else s.poisonWord i o
    let s := (s.modSlice i (fun x => { x with ue := satAdd 32 x.ue 1, lastErr := o })).dadd kUeTotal 1
    s.reportUnit 0x0401 0 3 i none o
/-- Does slice `i` serve a subchannel? -/
def State.subServes (s : State) (i : Nat) : Bool := s.memOn && s.slicePresent i && mget dSub s.floor.subch i && !(s.slice i).subOut
/-- LPDDR6_READ_ERROR (R269). -/
def execLpddr6ReadError (i off : Nat) (e : WordError) (t : Nat) (s : State) : Res :=
  let s := s.at t
  .next (if s.subServes i then s.readWord i off e false else s)
/-- PATROL_SCRUB (R270): the next data word; what a write has reached since is left as it is. -/
def execPatrolScrub (i : Nat) (e : WordError) (written : Bool) (t : Nat) (s : State) : Res :=
  let s := s.at t
  .next (if !s.subServes i then s
    else
      let o := (s.slice i).scrub
      let s := s.readWord i o e written
      let last := decide (0xF0000000 ≤ o + 32)
      s.modSlice i (fun x => { x with scrub := if last then 0 else o + 32, passes := if last then satAdd 32 x.passes 1 else x.passes }))
/-- RETRAIN (R272): due every 200 ms or after 4 °C; a failed one takes the subchannel out of service. -/
def execRetrain (i temp : Nat) (ok : Bool) (t : Nat) (s : State) : Res :=
  let s := s.at t
  let x := s.slice i
  let due := decide (x.trainAt + 200000000 ≤ s.now) || decide (4 ≤ max temp x.trainTemp - min temp x.trainTemp)
  .next (if !s.subServes i then s
    else
      let s := s.modSlice i (fun x => { x with temp := temp })
      if !due then s
      else if ok then s.modSlice i (fun x => { x with retrains := satAdd 32 x.retrains 1, trainAt := s.now, trainTemp := temp })
      else ((s.logDefect 3 5 i 0).reportUnit 0x0402 2 3 i none 0).loseSubchannel i)

/-! ### Background test (R278, R279) -/

/-- Regions of a memory by kind: 0 core, 1 long-delay store, 2 cluster controller, 3 slice (Table 10.11). -/
def testRegions (kind : Nat) : Nat := if kind = 0 ∨ kind = 1 then 256 else if kind = 2 then 128 else 2048
/-- The unit kind and number of a tested unit in a report. -/
def State.testedUnit (s : State) (kind unit : Nat) : Nat × Nat :=
  if kind = 0 then (1, s.physCore unit) else if kind = 1 then (5, unit) else if kind = 2 then (4, unit) else (2, s.physSlice unit)
/-- The defect-log KIND of a tested unit (Table 14.2). -/
def testedDefect (kind : Nat) : Nat := if kind = 0 then 1 else if kind = 1 then 5 else if kind = 2 then 4 else 2
/-- Is the unit there to be tested? -/
def State.testable (s : State) (kind unit : Nat) : Bool :=
  (if kind = 3 then s.memOn else s.clusterOn (if kind = 0 then clusterOf unit else unit)) &&
    (if kind = 0 then s.corePresent unit else if kind = 3 then s.slicePresent unit else decide (kind < 4) && decide (unit < 128))
/-- BGTEST_REGION (R278, R279). -/
def execBgtestRegion (kind unit : Nat) (pass : Bool) (t : Nat) (s : State) : Res :=
  let s := s.at t
  let k := kind * 4096 + unit
  let held := s.mem.heldReg.any (fun e => e.1 == kind && e.2.1 == unit)
  let soon := match mget dNone (s.mem.bgAt.map (fun e => (e.1, some e.2))) k with
    | some a => decide (s.now < a + s.dget kBgtestInterval * 1000)
    | none => false
  .next (if s.dget kBgtestEnable = 0 || held || soon || !s.testable kind unit then s
    else
      let r := mget dZero s.mem.regions k
      let s := s.modMem (fun m => { m with
        regions := mset dZero m.regions k ((r + 1) % testRegions kind)
        bgAt := mset dZero m.bgAt k s.now })
      if pass then s.dadd64 kBgtestRegions 1
      else
        let u := s.testedUnit kind unit
        let n := if kind = 0 then s.partOf (clusterOf unit) else if kind = 3 then none else s.partOf unit
        let s := (s.dadd kBgtestFails 1).modMem (fun m => { m with heldReg := m.heldReg ++ [(kind, unit, r)] })
        (s.logDefect (testedDefect kind) 2 u.2 r).reportUnit 0x0601 1 u.1 u.2 n r)

/-! ### Frames (R265, R273) -/

/-- A write of FRAME_ALL: refused unless every partition is ABSENT; the frames' contents are then undefined, so free;
the local areas keep theirs. -/
def State.doFrameAll (s : State) (v : Nat) : Nat × State :=
  if v < 4 ∨ s.frameAllMax < v then (stRange, s)
  else if (List.range 8).any (fun n => (s.part n).state != PartState.absent) then (stState, s)
  else
    let s := s.dset kFrameAll v
    let s := s.modMem (fun m => { m with
      lp := m.lp.filter (fun e => decide (localBase ≤ e.1))
      lpFree := some s.clk.free
      owners := []
      poison := m.poison.filter (fun w => decide (localBase ≤ 32 * w))
      poisonOff := [] })
    let s := s.each (List.range 8) (fun s n => s.modPart n (fun p => { p with ledger := { p.ledger with recs := [] } }))
    (stOk, s.modClk (fun c => { c with free := c.free + 1 }))
/-- FRAME_ALL. -/
def execFrameAll (r : Requester) (v t : Nat) (s : State) : Res := .next ((s.at t).typed r kFrameAll v (fun s => s.doFrameAll v))
/-- May software give and take this owner code (R273)? -/
def softOwner (c : Nat) : Bool := c == 0xFF || c == 0x10 || (decide (8 ≤ c) && decide (c ≤ 15))
/-- A write of FRAME_OWNER: whole, or not at all. -/
def State.doFrameOwner (s : State) (b : Bytes) : Nat × State :=
  let new := fun f => (b.getD f 0).toNat
  if b.length ≠ 236 then (stLength, s)
  else if (List.range 236).all (fun f => new f == s.frameOwner f || (decide (f < s.frameCount) && softOwner (s.frameOwner f) && softOwner (new f))) then
    (stOk, s.each (List.range 236) (fun s f => if new f = s.frameOwner f then s else s.setOwner f (new f)))
  else (stState, s)
/-- FRAME_OWNER. -/
def execFrameOwner (r : Requester) (data : Bytes) (t : Nat) (s : State) : Res :=
  .next ((s.at t).typed r kFrameOwner 0 (fun s => s.doFrameOwner data))

/-! ### BAR2 (R274) -/

/-- The size of a function's BAR2, as the host has set it through the Resizable BAR capability. Assumption 29 [DESIGN CHOICE, unsafe]. -/
def State.barBytes (s : State) (f : Nat) : Nat := 2 ^ (28 + (s.func f).conf.bar % 11)
/-- BASE of a window. -/
def winBase (lo hi : Nat) : Nat := hi % 64 * 2 ^ 32 + bits lo 31 28 * 2 ^ 28
/-- Does the range touch a frame of an ACTIVE slot? -/
def State.activeFrame (s : State) (a n : Nat) : Bool :=
  (List.range 8).any (fun p => (activeSlot (s.part p)).tiles.any (fun t => t.granules.any (fun g => (framesOf a n).contains (g / 2 ^ 30))))
/-- BAR2_ACCESS: a read, or a write of `data`, of `len` bytes at offset `off`. -/
def execBar2Access (f off len : Nat) (data : Option Bytes) (t : Nat) (s : State) : Res :=
  let s := s.at t
  let g := s.func f
  let a := winBase g.winLo g.winHi + off
  let n := match data with
    | some b => b.length
    | none => len
  let ok := bit g.winLo 0 && decide (off + n ≤ s.barBytes f) && s.spaceOk spLp a n && s.spaceMay f false spLp a n
  .next (if !s.hostSees f || decide (8 < f) || n = 0 then s
    else match data with
      | some b => if ok && !s.activeFrame a n then s.lpWrite a b else s.dadd kBar2Discards 1
      | none =>
        if !ok then (s.out (.readData f false (List.replicate n 0xFF#8))).dadd kBar2Discards 1
        else if s.spaceBad spLp a n then s.out (.readData f true (List.replicate n 0xFF#8))
        else s.out (.readData f false (s.lpRead a n)))
/-- BAR2_WINDOW (Tables 10.8a, 10.8b): a base that is no multiple of the window size is ignored. -/
def execBar2Window (f : Nat) (hi : Bool) (w t : Nat) (s : State) : Res :=
  let s := s.at t
  let g := s.func f
  let lo' := if hi then g.winLo else w % 2 + bits w 31 28 * 2 ^ 28
  let hi' := if hi then w % 64 else g.winHi
  .next (if !s.hostSees f || decide (8 < f) || winBase lo' hi' % s.barBytes f ≠ 0 then s
    else s.modFunc f (fun g => { g with winLo := lo', winHi := hi' }))

/-! ### Conflicts and grants (R257, R234, R258) -/

/-- The masters counted for a conflict target (Table 10.17). -/
def conflictMasters (target : Nat) : Nat := if target < 2048 then 15 else 6
/-- The count of master `i` at a target: the masters of a long-delay store (12 to 14) are counted once for the cores of its cluster (R257). -/
def conflictKey (target i : Nat) : Nat := if target < 2048 ∧ 12 ≤ i then (4096 + clusterOf target) * 16 + i else target * 16 + i
/-- A write of CONFLICT_CLEAR: 1 the target that the requester has named, 2 every unit. -/
def State.doConflictClear (s : State) (v : Nat) : Nat × State :=
  if v = 1 then (stOk, s.modMem (fun m => { m with
    conflicts := (List.range 16).foldl (fun r i => mset dZero r (conflictKey (s.dget kConflictTarget) i) 0) m.conflicts }))
  else if v = 2 then (stOk, s.modMem (fun m => { m with conflicts := [] }))
  else (stRange, s)
/-- CONFLICT_CLEAR. -/
def execConflictClear (r : Requester) (v t : Nat) (s : State) : Res :=
  .next ((s.at t).typed r kConflictClear v (fun s => s.doConflictClear v))
/-- The conflict counters of a target as a read shows them: conflicts since the last read are a matter of timing, so each count has
risen by a free amount (assumption 31 [DESIGN CHOICE, safe]). -/
def State.readConflicts (s : State) (target : Nat) : Bytes × State :=
  let s := s.each (List.range (conflictMasters target)) (fun s i =>
    let f := s.takeFree
    f.2.modMem (fun m => { m with conflicts := mmod dZero m.conflicts (conflictKey target i) (fun c => satAdd 32 c (f.1.toNat % 2 ^ 32)) }))
  ((List.range 16).flatMap (fun i => natLe 4 (mget dZero s.mem.conflicts (conflictKey target i))), s)

/-- Blocks of a grant: 0 queues, 1 sync objects, 2 pages. -/
def grantBlocks (kind : Nat) : Nat := if kind = 0 then 256 else if kind = 1 then 16 else 39
/-- The grants of a slice as bytes. -/
def State.grantBytes (s : State) (kind i : Nat) : Bytes := (List.range (grantBlocks kind)).map (fun b => BitVec.ofNat 8 (s.grant kind i b))
/-- Is every object of a block unused? -/
def State.blockFree (s : State) (kind i b : Nat) : Bool :=
  if kind = 0 then (List.range 64).all (fun j => (s.queue (i * 16384 + b * 64 + j)).state == 0)
  else if kind = 1 then (List.range 64).all (fun j => (s.sync (i * 1024 + b * 64 + j)).kind == 0)
  else
    let lo := i * sramSize + queueMem + b * 65536
    s.queues.all (fun e => !(e.2.state != 0 && e.2.space == 1 && decide (e.2.base < lo + 65536) && decide (lo < e.2.base + queueBytes e.2)))
/-- A write of a grant entry: the last block of queues and sync objects is firmware's. -/
def State.doGrantWrite (s : State) (kind : Nat) (data : Bytes) : Nat × State :=
  let i := s.dget (if kind = 2 then kPageSlice else kGrantSlice)
  let n := grantBlocks kind
  let new := fun b => (data.getD b 0).toNat
  if data.length ≠ n then (stLength, s)
  else if !(List.range n).all (fun b => epListed (new b)) then (stRange, s)
  else if !s.slicePresent i || !(List.range n).all (fun b => new b == s.grant kind i b || (s.blockFree kind i b && (kind == 2 || b + 1 != n))) then (stState, s)
  else (stOk, s.modMem (fun m => { m with grants := (List.range n).foldl (fun g b => mset dGrant g (grantKey kind i b) (new b)) m.grants }))
/-- The entry of a kind of grant. -/
def grantEntry (kind : Nat) : Nat := if kind = 0 then kQueueGrants else if kind = 1 then kSyncGrants else kPageGrants
/-- GRANT_WRITE (R234, R258). -/
def execGrantWrite (r : Requester) (kind : Nat) (data : Bytes) (t : Nat) (s : State) : Res :=
  .next (if 3 ≤ kind then s.at t else (s.at t).typed r (grantEntry kind) 0 (fun s => s.doGrantWrite kind data))

end Sys2Proof.Machine
end

