-- ==== Sys2Proof/Machine/Fabric.lean ====
section
/-!
DEFINITION. The fabric (chapter 11): packets as endpoints receive them, acknowledgement and re-send, exclusion of links, routing
generations, weights and congestion records; and what firmware does with a fault report (R426).
-/

namespace Sys2Proof.Machine

/-! ### Changing generations (R308, R309) -/

/-- REBUILD: refused outside IDLE. -/
def State.doRebuild (s : State) : Nat × State := if s.dget kRouteState = rsIdle then (stOk, s.startGen) else (stState, s)
/-- REBUILD (R308). -/
def execRebuild (r : Requester) (t : Nat) (s : State) : Res := .next ((s.at t).typed r kRouteCommand 1 (fun s => s.doRebuild))
/-- What has fallen due by now in the fabric: the commit of tables that have been written, and re-sends after BUSY (R295). -/
def State.fabricDue (s : State) : State :=
  let s := if s.dget kRouteState = rsStaged ∧ s.fab.stagedAt < s.now then s.commitGen else s
  (s.fab.unacked.filter (fun u => match u.busyAt with
    | some b => decide (b ≤ s.now)
    | none => false)).foldl (fun s u => s.resend u false) s
/-- Does core `c` still send with the old generation? A failed core sends nothing. -/
def State.oldSource (s : State) (c : Nat) : Bool := running (s.coreP c) && (s.core c).mode == CoreMode.live
/-- Do the units of cluster `cl` beside its cores still send with the old generation? -/
def State.oldUnits (s : State) (cl : Nat) : Bool := running (s.part ((s.partOf cl).getD 8))
/-- The leaf-stage switches that answer GEN_DRAIN. -/
def State.genSwitches (s : State) : List Nat :=
  (List.range 196).filter (fun i => decide (i < 128) || decide (192 ≤ i) || s.slicePresent (i - 128))
/-- A leaf-stage switch's own port address. -/
def leafPort (i : Nat) : Nat := if i < 128 then 0x2000 + i else if i < 192 then 0x4000 + (i - 128) else 0x6000 + (i - 192)
/-- GEN_DRAIN (R308): every source has switched. -/
def execGenDrain (t : Nat) (s : State) : Res :=
  let s := (s.at t).fabricDue
  .next (if s.dget kRouteState != rsSwitching || s.fab.toSwitch.any s.oldSource || s.fab.unitsLeft.any s.oldUnits then s
    else ((s.dset kRouteState rsDraining).modFab (fun f => { f with toSwitch := [], unitsLeft := [] })).outs (s.genSwitches.map (fun i =>
      Output.picot 0x16 0xA000 (leafPort i) (s.dget kRouteGen))))
/-- The old generation is retired. -/
def State.retireGen (s : State) : State :=
  let s := (((s.dset kRouteState rsIdle).dset kRouteGen (1 - s.dget kRouteGen)).dadd kRouteChanges 1).modFab (fun f => { f with doneFrom := [] })
  if s.fab.rebuildDue then s.startGen else s
/-- GEN_DONE (R308): leaf-stage switch `i` holds no flit of the old generation. -/
def execGenDone (i t : Nat) (s : State) : Res :=
  let s := s.at t
  .next (if s.dget kRouteState != rsDraining || !s.genSwitches.contains i || s.fab.doneFrom.contains i then s
    else
      let s := s.modFab (fun f => { f with doneFrom := f.doneFrom ++ [i] })
      if s.genSwitches.all (fun j => s.fab.doneFrom.contains j) then s.retireGen else s)
/-- GEN_SWITCH_TIMEOUT (R309): the sources of partition `n` switch at once. -/
def execGenSwitchTimeout (n t : Nat) (s : State) : Res :=
  let s := (s.at t).fabricDue
  .next (if s.dget kRouteState = rsSwitching ∧ s.fab.commitAt + 10 * s.dget (kPeriod n) * 1000 ≤ s.now then
    (s.switchUnits n).modFab (fun f => { f with toSwitch := f.toSwitch.filter (fun c => s.partOf (clusterOf c) != some n) })
  else s)

/-! ### Exclusion of links (R306, R307) -/

/-- Both ends stop using the link; it is logged and counted, and the tables are changed. -/
def State.excludeEnds (s : State) (sw port : Nat) : State :=
  if s.linkOut sw port || decide (switchPorts sw ≤ port) then s
  else
    let s := s.modFab (fun f => { f with excluded := f.excluded ++ [s.linkKey sw port] })
    ((s.dset kLinksExcluded (satAdd 16 (s.dget kLinksExcluded) 1)).logDefect 7 6 sw port).wantGen
/-- A link that the part itself finds bad: excluded and reported. -/
def State.excludeLink (s : State) (sw port : Nat) : State :=
  if s.linkOut sw port || decide (switchPorts sw ≤ port) then s else (s.excludeEnds sw port).reportUnit 0x0501 0 7 sw none port
/-- CREDIT_TIMEOUT (R295). -/
def execCreditTimeout (sw link t : Nat) (s : State) : Res :=
  .next (((s.at t).dadd kCreditTimeouts 1).excludeLink sw link)
/-- The parity error of one word on a link (R296): counted, and beyond LINK_ERR_LIMIT in one second the link is excluded. -/
def State.hopError (s : State) (hop : Nat) : State :=
  let sec := s.now / 1000000000
  let s := (s.dadd64 kHopParityErrors 1).modFab (fun f => { f with
    linkErrs := if f.errSecond = sec then f.linkErrs else []
    errSecond := sec })
  let n := mget dZero s.fab.linkErrs hop + 1
  let s := s.modFab (fun f => { f with linkErrs := mset dZero f.linkErrs hop n })
  if s.dget kLinkErrLimit < n then s.excludeLink (hop / 256) (hop % 256) else s

/-! ### Flits (Table 11.2, R296, R298) -/

/-- A header flit as a number, with `crc` in its CRC field. -/
def packetHeader (p : Packet) (crc : Nat) : Nat :=
  crc * 2 ^ 224 + p.seq * 2 ^ 208 + p.src * 2 ^ 192 + p.dst * 2 ^ 176 + p.kind * 2 ^ 170 + p.vc * 2 ^ 168 + p.haul.toNat * 2 ^ 167 + p.gen * 2 ^ 166 +
    p.ordered.toNat * 2 ^ 165 + p.npay * 2 ^ 158 + p.partValid.toNat * 2 ^ 157 + p.partition * 2 ^ 154 + p.resv * 2 ^ 128 + p.args
/-- The CRC of a packet (R298): over the header flit with CRC 0 and every payload flit. -/
def packetCrc (p : Packet) : Nat := crc32c (natLe 32 (packetHeader p 0) ++ p.payload)
/-- The flits of a packet as bytes. -/
def packetWire (p : Packet) : Bytes := natLe 32 (packetHeader p (packetCrc p)) ++ p.payload
/-- The packet that flits hold. -/
def wirePacket (w : Bytes) : Packet :=
  let h := fieldAt w 0 32
  { src := bits h 207 192
    dst := bits h 191 176
    kind := bits h 175 170
    vc := bits h 169 168
    haul := bit h 167
    gen := bits h 166 166
    ordered := bit h 165
    npay := bits h 164 158
    seq := bits h 223 208
    partValid := bit h 157
    partition := bits h 156 154
    resv := bits h 153 128
    args := bits h 127 0
    payload := w.drop 32 }
/-- Does the CRC field of the flits hold the CRC of the rest? -/
def wireCrcOk (w : Bytes) : Bool := fieldAt w 28 4 == crc32c (w.take 28 ++ natLe 4 0 ++ w.drop 32)
/-- Flits with the wrong bits of one error. -/
def flipWire (w : Bytes) (e : FlitError) : Bytes :=
  let o := 32 * e.flit + 4 * e.word
  w.take o ++ ((w.drop o).take 4).zipWith (· ^^^ ·) (natLe 4 e.xor) ++ w.drop (o + 4)
/-- The packet that the endpoint finds when its CRC is good: what was sent, or what the flits hold that errors have changed. -/
def arrives (p : Packet) (l : List FlitError) : Option Packet :=
  let w := l.foldl flipWire (packetWire p)
  if w = packetWire p then some p else if wireCrcOk w then some (wirePacket w) else none
/-- Does the parity of the word show the error: is an odd number of its 33 bits wrong? -/
def parityShows (e : FlitError) : Bool := ((List.range 32).foldl (fun (a : Bool) i => a ^^ e.xor.testBit i) e.parity)

/-! ### Packets at their endpoints (R290, R297, R300, R301) -/

/-- The virtual channels, class and ordering of a kind (Table 11.4); a PCIe function orders its writes too. -/
def kindRow (k : Nat) : Option (List Nat × Bool × Bool) :=
  if 1 ≤ k ∧ k ≤ 7 then some ([0], false, false)
  else if 0x10 ≤ k ∧ k ≤ 0x14 then some ([1], false, false)
  else if k = 0x15 then some ([1], false, true)
  else if k = 0x16 ∨ k = 0x17 then some ([1], false, false)
  else if 0x20 ≤ k ∧ k ≤ 0x23 then some ([2], true, false)
  else if k = 0x24 then some ([2, 3], true, false)
  else if k = 0x25 then some ([2], true, false)
  else if k = 0x30 then some ([3], true, false)
  else if k = 0x31 then some ([3], true, true)
  else if k = 0x32 ∨ k = 0x33 then some ([3], true, false) else none
/-- The format checks of R290. -/
def State.formatOk (s : State) (p : Packet) : Bool := match kindRow p.kind with
  | none => false
  | some (vcs, haul, _) =>
    vcs.contains p.vc && p.haul == haul && (if haul then decide (1 ≤ p.npay) && decide (p.npay ≤ 64) else p.npay == 0) && p.resv == 0 &&
      portForm p.src && s.portExists p.dst
/-- Has the packet the ordering that Table 11.4 gives its kind? The PCIe functions, whose writes are ordered, send from EDGE0 (Table 1.4). -/
def orderOk (p : Packet) : Bool := match kindRow p.kind with
  | none => true
  | some (_, _, o) => p.ordered == o || (p.kind == 0x30 && p.src == 0x6000)
/-- Is the kind never acknowledged? -/
def isAck (k : Nat) : Bool := k == 0x10 || k == 0x11
/-- A NACK leaves the endpoint (Table 11.4). -/
def State.sendNack (s : State) (p : Packet) (reason expected : Nat) : State :=
  (s.dadd64 kNacks 1).out (.picot 0x11 p.dst p.src (p.seq + 65536 * reason + 2 ^ 32 * expected))
/-- Has its source not sent the packet before: is its number at or above the source's SEQ count (R300)? -/
def State.isNew (s : State) (p : Packet) : Bool := decide (seqAbove p.seq (mget dZero s.fab.sent (s.marksKey p)) < 32768)
/-- Is it a FAULT picot of a source that sent one less than 1 µs ago (R293)? -/
def State.faultSoon (s : State) (p : Packet) : Bool := p.kind == 7 && (match mget dNone s.fab.faultAt p.src with
  | some a => decide (s.now < a + 1000)
  | none => false)
/-- A packet that its source has not sent: its ordering is not that of its kind (R290), there are 64 unacknowledged ones for its destination (R299), or
FAULT picots come too close. -/
def State.unsent (s : State) (p : Packet) : Bool :=
  !orderOk p || (s.isNew p && !isAck p.kind && (s.faultSoon p ||
    decide (64 ≤ (s.fab.unacked.filter (fun u => u.pkt.src == p.src && s.leafIndex u.pkt.dst == s.leafIndex p.dst)).length)))
/-- The source of a packet that it has not sent before counts it (R300) and holds a copy of it (R299; assumption 34 [DESIGN CHOICE, unsafe]). -/
def State.noteCopy (s : State) (p : Packet) : State :=
  if isAck p.kind || !s.isNew p then s
  else s.modFab (fun f => { f with
    unacked := f.unacked ++ [{ pkt := p, sentAt := some s.now }]
    sent := mset dZero f.sent (s.marksKey p) ((p.seq + 1) % 65536)
    faultAt := if p.kind = 7 then mset dNone f.faultAt p.src (some s.now) else f.faultAt })
/-- Is the packet's generation retired (R309)? -/
def State.staleGen (s : State) (g : Nat) : Bool :=
  g % 2 != s.dget kRouteGen && (s.dget kRouteState == rsIdle || s.dget kRouteState == rsStaged)
/-- A duplicate (R300): acknowledged again if its original has been. -/
def State.duplicate (s : State) (p : Packet) : State :=
  let s := s.dadd64 kDupDiscards 1
  if (mget dMarks s.fab.recv (s.marksKey p)).held.contains p.seq then s else s.sendAck p
/-- Kinds that the endpoint accepts once it has done something with them (R138, R297): event and REMOTE hauls, writes and queue operations; any other
packet is accepted on receipt. -/
def slowKind (p : Packet) : Bool :=
  p.kind == 0x20 || p.kind == 0x21 || p.kind == 0x22 || p.kind == 0x25 || p.kind == 0x30 || p.kind == 0x31
/-- Is the packet accepted as it arrives? -/
def acceptedAtOnce (p : Packet) (acc : Acceptance) : Bool := acc == .atOnce || !slowKind p
/-- Is a haul for a block at an edge router (R310)? REMOTE hauls go to the record buffer. -/
def edgeHaul (p : Packet) : Bool := p.haul && p.kind != 0x21 && (portType p.dst == 3 || portType p.dst == 5)
/-- Has the 1 MiB buffer of its block room for it (R310)? Blocks are told apart by port address (assumption 95 [DESIGN CHOICE, safe]). -/
def State.edgeRoom (s : State) (p : Packet) : Bool :=
  decide (((s.fab.edgeHeld.filter (fun e => e.dst == p.dst)).map (·.bytes)).foldl (· + ·) 0 + 32 * p.npay ≤ 2 ^ 20)
/-- Is it a packet for a core that has failed or is lost, which its leaf accepts, acknowledges and discards (R436)? -/
def State.deadPort (s : State) (a : Nat) : Bool :=
  portType a == 0 && ((s.core (portBits a)).mode == CoreMode.failed || (s.core (portBits a)).mode == CoreMode.lost)
/-- What the endpoint does as it accepts a packet: the records of the haul that it carries are placed or buffered (R121, R138); what a failed or lost
core's leaf sinks is counted once. -/
def State.takePacket (s : State) (p : Packet) : State := match s.haulOf p with
  | some e => s.arriveHaul e.1 e.2
  | none => if s.deadPort p.dst then s.dadd64 kSunkAtFailed 1 else s
/-- A packet whose number is in order, or unordered and new: marked, taken and acknowledged as it is accepted; a haul that a block at an edge router does
not take at once lies in the block's buffer. When the endpoint accepts a write or a queue operation is the command's (assumption 110 [DEDUCED, safe]). -/
def State.acceptPacket (s : State) (p : Packet) (acc : Acceptance) : State :=
  let now := acceptedAtOnce p acc || s.deadPort p.dst
  let k := s.marksKey p
  let s := s.modMarks k (fun m => seqMark m p.seq now)
  let s := if edgeHaul p && acc == .later then s.modFab (fun f => { f with edgeHeld := f.edgeHeld ++ [⟨p.dst, k, p.seq, 32 * p.npay⟩] }) else s
  if now then (s.takePacket p).sendAck p else s
/-- Has the record buffer of R138 room for the records of a REMOTE haul? -/
def State.remoteRoomFor (s : State) (p : Packet) : Bool :=
  s.outRoom (portBits p.dst) (match s.haulOf p with
    | some e => e.2.remotes.length
    | none => 2 * p.npay)
/-- The endpoint accepts a packet that it holds (R297): its records are taken, and its ACK follows. A failed slice takes nothing. -/
def State.acceptHeld (s : State) (p : Packet) : State :=
  if portType p.dst == 2 && (s.slice (portBits p.dst)).failed then s
  else if (mget dMarks s.fab.recv (s.marksKey p)).held.contains p.seq then (s.takePacket p).completePacket p
  else s.completePacket p
/-- Is the port in a core or cluster under reset (R394)? -/
def State.resetPort (s : State) (a : Nat) : Bool :=
  (portType a == 0 && s.coreUnderReset (portBits a)) || (portType a == 1 && s.clusterUnderReset (portBits a % 128))
/-- An endpoint's handling of a packet that reached it whole (R290, R295, R297, R300, R301, R310). A slice cannot queue a READ_REQ that it would accept
only later; a core or cluster under reset answers BUSY (R394). -/
def State.receivePacket (s : State) (p : Packet) (acc : Acceptance) : State :=
  let m := mget dMarks s.fab.recv (s.marksKey p)
  if !s.formatOk p then s.sendNack p 5 0
  else if p.ordered && pktNewer p.seq m.expected then s.sendNack p 3 m.expected
  else if !seqNew m p.seq then s.duplicate p
  else if s.resetPort p.dst ∨ (p.kind = 0x12 ∧ acc = .later) then (s.dadd kReadBusy 1).sendNack p 4 0
  else if (edgeHaul p && !s.edgeRoom p) || (p.kind == 0x21 && !s.remoteRoomFor p) then s
  else s.acceptPacket p acc
/-- What an endpoint makes of a packet whose header no error has spoilt (R297): a NACK where the CRC fails or a flit is DAMAGED. -/
def State.endPacket (s : State) (p : Packet) (l : List FlitError) (acc : Acceptance) : State :=
  if isAck p.kind then s
  else match arrives p l with
    | none => (s.dadd kCrcErrors 1).sendNack p 1 0
    | some q => if l.any parityShows then s.sendNack p 2 0 else s.receivePacket q acc
/-- The links of a packet's path, over a spine-stage switch where it crosses one (Table 11.1). -/
def State.pathLinks (s : State) (p : Packet) (spine : Option Nat) : List Nat :=
  (s.endLink p.src).toList ++ (match spine with
    | some sp => [spineLink sp (s.stageOf p.src), spineLink sp (s.downStage p.gen p.dst)]
    | none => []) ++ (s.endLink p.dst).toList
/-- A packet on its way: parity errors are counted link by link (R296); it is sunk where one lies in its header, or where a link of its path is excluded,
be it now (R306). -/
def State.travel (s : State) (p : Packet) (e : Trip) (acc : Acceptance) (spine : Option Nat) : State :=
  let bad := e.errors.filter parityShows
  let s := bad.foldl (fun s x => s.hopError x.hop) s
  let out := (s.pathLinks p spine).any (fun k => s.fab.excluded.contains k)
  if bad.any (fun x => x.flit == 0) || out then s.dadd kWormDrops 1 else s.endPacket p e.errors acc
/-- The spine-stage switch that a packet crosses is noted: by its source, for a re-send, and as the uplink chosen last (R299, R303). -/
def State.tookUplink (s : State) (p : Packet) (x : LeafStage) (u : Nat) : State :=
  s.modFab (fun f => { f with
    lastUp := if p.ordered then f.lastUp else mset dLastUp f.lastUp (s.stageIndex x) u
    unacked := f.unacked.map (fun c => if s.isCopy p.src p.dst p.seq c then { c with via := some (uplinkSpine x u) } else c) })
/-- A packet that its source sends (R299): the switch where it enters routes it by the tables of its generation, or sinks it where that is retired
(R309). It waits where no candidate has a credit. -/
def State.sendPacket (s : State) (p : Packet) (e : Trip) (acc : Acceptance) : State :=
  let avoid := (s.fab.unacked.find? (s.isCopy p.src p.dst p.seq)).bind (·.via)
  let s := s.noteCopy p
  let x := s.stageOf p.src
  let y := s.downStage p.gen p.dst
  if s.staleGen p.gen then s.dadd kStaleGen 1
  else if !crossesSpine p x y then s.travel p e acc none
  else match s.uplinkFor p e avoid x y with
    | none => s
    | some u => (s.tookUplink p x u).travel p e acc (some (uplinkSpine x u))
/-- PACKET_ARRIVAL (R296 to R304, R306, R309): a packet goes its way and reaches its endpoint, or the endpoint completes the acceptance of one that it
holds. -/
def execPacketArrival (p : Arrival) (t : Nat) (s : State) : Res :=
  let s := (s.at t).fabricDue
  .next (if p.acc = .completes then s.acceptHeld p.pkt else if s.unsent p.pkt then s else s.sendPacket p.pkt p.trip p.acc)

/-! ### Sources: ACK, NACK and time-out (R299) -/

/-- The copy of a packet of JOURNAL has gone: the leaf may send its cluster belay (R41). -/
def State.journalAcked (s : State) (src : Nat) : State := if portType src = 1 then s.tryClusterBelay (portBits src % 128) s.now else s
/-- ACK (R299): the copy is released; a later ACK is ignored. -/
def execAck (src dst seq t : Nat) (s : State) : Res :=
  let s := s.at t
  .next ((s.modFab (fun f => { f with unacked := f.unacked.filter (fun u => !s.isCopy src dst seq u) })).journalAcked src)
/-- The part gives up a packet (R299): the destination port is reported, and a core, slice or leaf there has failed (Table 16.1). The
copy stays until that releases it. -/
def State.unreachable (s : State) (p : Packet) : State :=
  let s := (s.dadd kUnreachable 1).reportUnit 0x0502 1 10 p.dst none p.dst
  match portType p.dst with
  | 0 => if (s.core (portBits p.dst)).mode == CoreMode.failed then s else s.failCore (portBits p.dst) 0x0104 p.src
  | 1 => if portBits p.dst < 128 then s.failLeaf (portBits p.dst) else s
  | 2 => s.failSlice (portBits p.dst) 0x0302 p.src 4
  | _ => s
/-- One more send of a copy, or UNREACHABLE after RESEND_LIMIT of them, once. -/
def State.again (s : State) (u : Unacked) : State :=
  if u.lost then s
  else if u.resends < s.dget kResendLimit then s.resend u true
  else (s.modFab (fun f => { f with unacked := f.unacked.map (fun x =>
      if s.isCopy u.pkt.src u.pkt.dst u.pkt.seq x then { x with lost := true } else x) })).unreachable u.pkt
/-- NACK (R295, R299, R301): the packet is sent again at once; ORDER re-sends from the expected number in order; BUSY re-sends after 1 µs without
counting. -/
def execNack (src dst seq reason expected t : Nat) (s : State) : Res :=
  let s := (s.at t).fabricDue
  .next (match s.fab.unacked.find? (s.isCopy src dst seq) with
    | none => s
    | some u =>
      if reason = 4 then s.modFab (fun f => { f with unacked := f.unacked.map (fun x =>
        if s.isCopy src dst seq x then { x with busyAt := some (s.now + 1000) } else x) })
      else if reason = 3 then
        let l := s.fab.unacked.filter (fun x => x.pkt.src == src && s.leafIndex x.pkt.dst == s.leafIndex dst && decide (seqAbove x.pkt.seq expected < 32768))
        (sortBy (fun x => seqAbove x.pkt.seq expected) l).foldl (fun s x => s.again x) s
      else s.again u)
/-- ACK_TIMEOUT (R299). -/
def execAckTimeout (src dst seq t : Nat) (s : State) : Res :=
  let s := (s.at t).fabricDue
  .next (match s.fab.unacked.find? (s.isCopy src dst seq) with
    | none => s
    | some u =>
      let due := match u.sentAt with
        | none => true
        | some a => decide (a + s.dget kAckTimeout * 1000 ≤ s.now)
      if due && u.busyAt.isNone then s.again u else s)

/-! ### Route weights (R305, R312) -/

/-- Uplinks of a leaf-stage switch: edge routers have 32, the others 18. -/
def uplinks (i : Nat) : Nat := if i < 192 then 18 else 32
/-- The weight of an uplink set. -/
def State.setWeight (s : State) (i u w : Nat) : State := s.modFab (fun f => { f with weights := mset dWeight f.weights (i * 32 + u) w })
/-- ROUTE_WEIGHTS of a leaf-stage switch as a read shows it. -/
def State.weightBytes (s : State) (i : Nat) : Bytes :=
  (List.range 32).map (fun u => if u < uplinks i then BitVec.ofNat 8 (s.weight i u) else 0)
/-- RESET_WEIGHTS. -/
def State.doResetWeights (s : State) : Nat × State := (stOk, s.modFab (fun f => { f with weights := [] }))
/-- RESET_WEIGHTS (R312). -/
def execResetWeights (r : Requester) (t : Nat) (s : State) : Res := .next ((s.at t).typed r kRouteCommand 2 (fun s => s.doResetWeights))
/-- A write of ROUTE_WEIGHTS of the switch that the requester has selected. -/
def State.doRouteWeights (s : State) (r : Requester) (b : Bytes) : Nat × State :=
  let i := s.sel r kWeightSelect
  let v := fun u => (b.getD u 0).toNat
  if s.dget kRouteAdapt = 1 then (stState, s)
  else if b.length ≠ 32 then (stLength, s)
  else if !(List.range 32).all (fun u => if u < uplinks i then decide (1 ≤ v u) && decide (v u ≤ 15) else v u == 0) then (stRange, s)
  else (stOk, s.each (List.range (uplinks i)) (fun s u => s.setWeight i u (v u)))
/-- ROUTE_WEIGHTS (R305). -/
def execRouteWeights (r : Requester) (data : Bytes) (t : Nat) (s : State) : Res :=
  .next ((s.at t).typed r kRouteWeights 0 (fun s => s.doRouteWeights r data))

/-! ### Congestion records (R311 to R313) -/

/-- The leaf-stage index of a switch, with its first uplink's port. -/
def leafStage (sw : Nat) : Option (Nat × Nat) :=
  if sw < 128 then some (sw, 17) else if 0x300 ≤ sw ∧ sw < 0x340 then some (128 + (sw - 0x300), 0)
  else if 0x400 ≤ sw ∧ sw < 0x404 then some (192 + (sw - 0x400), 0) else none
/-- A total over a count as a whole number; which way it is rounded is free (assumption 94 [DESIGN CHOICE, safe]). -/
def cmapShare (total count : Nat) : Nat := total / count + (if total % count ≠ 0 ∧ Config.cmapRoundUp total count then 1 else 0)
/-- The mean of one VC over the samples of an interval, saturated at 255. -/
def meanOf (l : List PortSample) (f : PortSample → Nat) : Nat := min 255 (cmapShare ((l.map f).foldl (· + ·) 0) l.length)
/-- The highest occupancy of VC1, VC2 or VC3, saturated at 255. -/
def peakOf (l : List PortSample) : Nat := min 255 ((l.map (fun x => max x.vc1 (max x.vc2 x.vc3))).foldl max 0)
/-- The percentage of samples with a flit waiting and no credit. -/
def starvedOf (l : List PortSample) : Nat := cmapShare (100 * (l.filter (·.starved)).length) l.length
/-- The port entry of a switch from the samples of the interval, one each µs (R311, Table 11.9). -/
def State.cmapEntry (s : State) (sw port : Nat) (l : List PortSample) : Nat :=
  meanOf l (·.vc2) * 2 ^ 24 + meanOf l (·.vc3) * 2 ^ 16 + peakOf l * 2 ^ 8 + (if s.linkOut sw port then 128 else 0) + starvedOf l
/-- A congestion record (Table 11.9). -/
def cmapBytes (sw time : Nat) (ports : List Nat) : Bytes :=
  natLe 2 sw ++ natLe 2 ports.length ++ natLe 4 0 ++ natLe 8 time ++ ports.flatMap (natLe 4)
/-- CMAP_RECORD of a switch: all zero before its first record. -/
def State.cmapRecord (s : State) (sw : Nat) : Bytes := match mget dNone s.fab.cmap sw with
  | some (time, ports) => cmapBytes sw time ports
  | none => List.replicate (16 + 4 * max 1 (switchPorts sw)) 0
/-- The fabric manager's adjustment of one uplink (R312). -/
def State.adjust (s : State) (i u starved : Nat) : State :=
  let w := s.weight i u
  if 20 ≤ starved then s.setWeight i u (max 1 (w - 1))
  else if starved < 5 ∧ w < 8 then s.setWeight i u (w + 1) else s
/-- A congestion record as a UDP datagram (R313). -/
def State.telemetry (s : State) (rec : Bytes) : State :=
  if s.dget kTelemEnable = 0 then s
  else if !s.canSend (s.dget kTelemPort) (s.dget kTelemAddr) then s.dadd kTelemDrops 1
  else
    let hdr := natLe 1 1 ++ natLe 3 0 ++ natLe 4 s.fab.telemSeq ++ natLe 8 s.tsnNow
    let s' := s.out (.datagram (dataCode (s.dget kTelemPort)) (s.subportFor (s.dget kTelemPort) (s.dget kTelemAddr)) (s.dget kTelemAddr) (s.dget kTelemUdpPort) (hdr ++ rec))
    (s'.modFab (fun f => { f with telemSeq := wrapAdd 32 f.telemSeq 1 })).dadd kTelemSent 1
/-- What the fabric manager makes of a congestion record: CMAP_RECORD, the weights of a leaf-stage switch, and telemetry. -/
def State.takeCmap (s : State) (sw : Nat) (l : List Nat) : State :=
  let s := s.modFab (fun f => { f with cmap := mset dNone f.cmap sw (some (s.tsnNow, l)) })
  let s := match leafStage sw with
    | none => s
    | some (i, p0) =>
      if s.dget kRouteAdapt = 0 then s
      else s.each (List.range (uplinks i)) (fun s u => s.adjust i u (l.getD (p0 + u) 0 % 128))
  s.telemetry (cmapBytes sw s.tsnNow l)
/-- CMAP_INTERVAL (R311 to R313): at the end of an interval of CMAP_INTERVAL ms, switch `sw` sends the record of its ports' samples in a CMAP haul to the
management core. -/
def execCmapInterval (sw : Nat) (ports : List (List PortSample)) (t : Nat) (s : State) : Res :=
  let s := s.at t
  .next (if switchPorts sw = 0 ∨ s.now < mget dZero s.fab.cmapAt sw + s.dget kCmapInterval * 1000000 then s
    else
      let l := (List.range (switchPorts sw)).map (fun k => s.cmapEntry sw k (ports.getD k []))
      let s := (s.modFab (fun f => { f with cmapAt := mset dZero f.cmapAt sw s.now })).out (.cmapHaul sw (cmapBytes sw s.tsnNow l))
      if s.rel.mgmtUp then s.takeCmap sw l else s)

/-! ### Clocks of the halves (R286, R288) -/

/-- FABRIC_CLOCK_CHANGE (R285, R288, R404): half `h` takes the clock that it should have. -/
def execFabricClockChange (h mhz t : Nat) (s : State) : Res :=
  let s := s.at t
  .next (if h < 2 ∧ mhz = s.clockTarget h then s.modHalf h (fun q => { q with clock := mhz }) else s)
/-- COL_RATE (R286). -/
def State.colRate (s : State) : Nat := 8000 * min s.pow.west.clock s.pow.east.clock / 2000
/-- CR from half `a` to half `b` (R288). -/
def State.colCredits (s : State) (a b : Nat) : Nat := min 48 (max 8 (48 * (s.half b).clock / (s.half a).clock))

/-! ### Fault reports from units (R426) -/

/-- What firmware does on a report of a unit (Table 16.1), beside logging it. -/
def State.actOn (s : State) (rep : FaultReport) : State :=
  let core := s.logicalCore rep.unit
  let slice := s.logicalSlice rep.unit
  if rep.code = 0x0201 then s.clearStore rep.unit
  else if rep.code = 0x0202 then s.restartController rep.unit
  else if rep.code = 0x0203 then s.loseLeaf rep.unit
  else if 0x0101 ≤ rep.code ∧ rep.code ≤ 0x0104 then (match core with
    | some c => s.declareFailed c
    | none => s)
  else if rep.code = 0x0301 ∨ rep.code = 0x0302 then (match slice with
    | some i => s.markSlice i rep.detail 3
    | none => s)
  else if rep.code = 0x0402 then s.loseSubchannel rep.unit
  else if rep.code = 0x0501 then s.excludeEnds rep.unit rep.detail
  else s
/-- FAULT (R426): the report is numbered and logged as the picot has it, and acted on. One of the management core itself waits for its restart
(Table 16.15). -/
def State.doFault (s : State) (rep : FaultReport) : State :=
  if rep.code = 0x0701 then s.restartMgmt.report rep else (s.report rep).actOn rep
/-- FAULT. -/
def execFault (rep : FaultReport) (t : Nat) (s : State) : Res := .next ((s.at t).doFault rep)

end Sys2Proof.Machine
end

