-- ==== Sys2Proof/Machine/Remote.lean ====
section
/-!
DEFINITION. Delivery between modules (R138 to R142) and the peers that cannot be reached (R339, R451).
-/

namespace Sys2Proof.Machine

/-- The local queue pair of peer `k` of partition `n` (R331). -/
def peerQp (n k : Nat) : Nat := 0x010000 + 64 * n + k
/-- ADDRESS of a peer entry (Table 5.12). -/
def peerAddr (v : Nat) : Nat := v / 2 ^ 64
/-- The node address that PEER_NODE gives peer `k` of partition `n`; 0 for none. -/
def State.peerNode (s : State) (n k : Nat) : Nat := s.dget (kPeerNode n) / 256 ^ k % 256

/-! ### Peers that cannot be reached (R451) -/

/-- PEER_UNREACHABLE, once until a send succeeds. -/
def State.losePeer (s : State) (n k : Nat) : State :=
  if (s.part n).peerDown.contains k then s
  else (s.modPart n (fun p => { p with peerDown := p.peerDown ++ [k] })).warn 0x000B n k
/-- What an unlisted peer's failures are: none. -/
def dFails (_ : Nat) : Nat × Nat := (0, 0)
/-- The executed pitch before pitch `p` of partition `n`, as far as its ledger and its sequencer know. -/
def State.execBefore (s : State) (n p : Nat) : Option Nat :=
  (((s.part n).ledger.recs.map (·.pitch) ++ [(s.part n).seq.prevPitch]).filter (· < p)).max?
/-- Pitches of failed sends in a row, with one in pitch `p` after `f`, the count and the last pitch so far: the pitch goes on the row if the executed pitch
before it is its last one, and is noted once. -/
def State.failRow (s : State) (n p : Nat) (f : Nat × Nat) : Nat × Nat :=
  if f.1 = 0 then (1, p) else if p ≤ f.2 then f else if s.execBefore n p = some f.2 then (f.1 + 1, p) else (1, p)
/-- A send to peer `k` of pitch `p` has failed. -/
def State.peerFailed (s : State) (n k p : Nat) : State :=
  let f := s.failRow n p (mget dFails (s.part n).peerFails k)
  let c := f.1
  let s := s.modPart n (fun q => { q with peerFails := mset dFails q.peerFails k f })
  if s.dget kPeerLossPitches ≤ c then s.losePeer n k else s
/-- A successful send ends the condition. -/
def State.peerOk (s : State) (n k : Nat) : State :=
  s.modPart n (fun q => { q with
    peerFails := mset dFails q.peerFails k (0, 0)
    peerDown := q.peerDown.filter (· != k) })
/-- Records for peer `k` of pitch `p` discarded (R142): counted at the edge router of the peer's port, and the ledger marks the pitch. -/
def State.dropRemote (s : State) (n k p cnt : Nat) : State :=
  if cnt = 0 then s else (s.countRem (peerEdge (s.peer n k)) n 5 cnt).mark n 10 k cnt p
/-- Does R339 keep records of pitch `p` from peer `k`: its node is lost, or present again since that pitch? -/
def State.peerBarred (s : State) (n k p : Nat) : Bool := (s.part n).peerOut.any (fun e => e.1 == k && (match e.2 with
  | none => true
  | some q => decide (p ≤ q)))

/-! ### Outbound (R138, R142) -/

/-- REMOTE_HAUL (R138): edge router `e` buffers the records of a REMOTE haul and acknowledges it, while its buffer has room; padding is ignored, and record faults are
discarded and counted in the partition's sum (R119). Assumption 81 [DEDUCED, unsafe]. -/
def execRemoteHaul (e id t : Nat) (s : State) : Res :=
  let s := s.at t
  .next (match mget dNone s.hauls id with
    | none => s
    | some h =>
      if h.kind ≠ .remote ∨ h.dst ≠ 2048 + e ∨ !s.outRoom e h.remotes.length then s
      else (s.arriveHaul id h).ackHaul h)
/-- A remote record within a message (Table 5.7). -/
def remoteBytes (r : RemoteRec) : Bytes := natLe 8 r.event.toNat ++ natLe 4 (r.dcore * 2 ^ 15) ++ natLe 4 0
/-- A remote message (Table 5.6). -/
def State.remoteMsg (s : State) (n peer pitch : Nat) (l : List RemoteRec) : Bytes :=
  natLe 1 1 ++ natLe 1 0 ++ natLe 2 (s.dget (kLocalPeerId n)) ++ natLe 1 n ++ natLe 1 (peerPart (s.peer n peer)) ++ natLe 2 l.length ++
    natLe 8 pitch ++ l.flatMap remoteBytes
/-- Can a message to peer `k` leave (R142, R331)? -/
def State.peerReach (s : State) (n k p : Nat) : Bool :=
  let v := s.peer n k
  peerValid v && !s.peerBarred n k p && s.canSend (peerPort v) (peerAddr v) && s.connected (peerPort v) (peerQp n k)
/-- One message of a peer and pitch leaves, or is discarded. -/
def State.sendRemote (s : State) (e n k p : Nat) (l : List RemoteRec) : State :=
  if s.peerReach n k p then
    let s := s.out (.roce (peerPort (s.peer n k)) (s.subportFor (peerPort (s.peer n k)) (peerAddr (s.peer n k))) (peerQpn (s.peer n k)) (s.remoteMsg n k p l))
    (s.modRem e n (fun b => { b with sent := b.sent ++ [(k, p, l.length)] })).countRem e n 0 l.length
  else (s.dropRemote n k p l.length).peerFailed n k p
/-- REMOTE_TRANSMIT (R138): the oldest message of the peer, once it holds 255 records or its pitch has had its belay. -/
def execRemoteTransmit (e n peer t : Nat) (s : State) : Res :=
  let s := s.at t
  .next (match (s.remBuf e n).out.find? (fun r => r.1 == peer) with
    | none => s
    | some (_, p, _) =>
      let mine := (s.remBuf e n).out.filter (fun r => r.1 == peer && r.2.1 == p)
      let q := (s.part n).seq
      if mine.length < 255 ∧ q.isOpen ∧ q.pitch = p then s
      else
        let rest := (s.remBuf e n).out.filter (fun r => !(r.1 == peer && r.2.1 == p))
        let s := s.modRem e n (fun b => { b with out := mine.drop 255 ++ rest })
        s.sendRemote e n peer p ((mine.take 255).map (fun r => r.2.2)))
/-- REMOTE_SEND_FAILED (R142): RoCEv2 reports a SEND as failed. -/
def execRemoteSendFailed (n peer pitch nrec t : Nat) (s : State) : Res :=
  let s := s.at t
  let e := peerEdge (s.peer n peer)
  .next (if !(s.remBuf e n).sent.contains (peer, pitch, nrec) then s
    else ((s.modRem e n (fun b => { b with sent := b.sent.erase (peer, pitch, nrec) })).dropRemote n peer pitch nrec).peerFailed n peer pitch)
/-- ROCE_ACK (R451): the oldest SEND to the peer has been received. -/
def execRoceAck (n peer t : Nat) (s : State) : Res :=
  let s := s.at t
  let e := peerEdge (s.peer n peer)
  .next (match (s.remBuf e n).sent.find? (fun m => m.1 == peer) with
    | none => s
    | some m => (s.modRem e n (fun b => { b with sent := b.sent.erase m })).peerOk n peer)

/-! ### Inbound (R139 to R141) -/

/-- Records that edge router `e` has buffered for every partition. -/
def State.inbound (s : State) (e : Nat) : Nat := ((List.range 8).map (fun n => (s.remBuf e n).inb.length)).foldl (· + ·) 0
/-- NREC of a remote message. -/
def rmCount (m : Bytes) : Nat := fieldAt m 6 2
/-- VERSION 1, reserved fields 0, 1 to 255 records that the message holds whole (R139). Assumption 65 [DEDUCED, unsafe]. -/
def rmFormOk (m : Bytes) : Bool :=
  fieldAt m 0 1 == 1 && fieldAt m 1 1 == 0 && decide (fieldAt m 8 8 < 2 ^ 48) && decide (1 ≤ rmCount m) && decide (rmCount m ≤ 255) &&
    m.length == 16 + 16 * rmCount m &&
    (List.range (rmCount m)).all (fun i => fieldAt m (16 + 16 * i + 8) 4 % 2 ^ 15 == 0 && fieldAt m (16 + 16 * i + 12) 4 == 0)
/-- Does DST_PARTITION accept the message (R139)? From the gap after REMOTE_INTAKE is disabled it refuses (Table 6.12). -/
def State.rmTaken (s : State) (m : Bytes) : Bool :=
  let n := fieldAt m 5 1
  decide (n < 8) && running (s.part n) && bit (s.part n).stations 3 &&
    (List.range 64).any (fun k => peerValid (s.peer n k) && peerId (s.peer n k) == fieldAt m 2 2 && peerPart (s.peer n k) == fieldAt m 4 1)
/-- Is one record of a message for partition `n` accepted (R139)? -/
def State.rrOk (s : State) (n : Nat) (r : RemoteRec) : Bool :=
  let sl := activeSlot (s.part n)
  s.corePresent r.dcore && (s.part n).mask.testBit (clusterOf r.dcore) && usesCore sl r.dcore && decide (evRow r.event < rowCount sl r.dcore)
/-- Record `i` of a message. -/
def rmRecord (m : Bytes) (i : Nat) : RemoteRec :=
  let a := fieldAt m (16 + 16 * i + 8) 4
  ⟨BitVec.ofNat 64 (fieldAt m (16 + 16 * i) 8), bits a 31 26, bits a 25 15⟩
/-- A remote message whose packet carries an ECN mark: the answer goes out for the queue pair of the peer that sent it (R330). -/
def State.messageMarked (s : State) (path : MessagePath) (m : Bytes) : State :=
  let n := fieldAt m 5 1
  match (List.range 64).find? (fun k => peerValid (s.peer n k) && peerId (s.peer n k) == fieldAt m 2 2 && peerPart (s.peer n k) == fieldAt m 4 1) with
  | some k => s.ecnMarked path.ecn (peerPort (s.peer n k)) (peerQp n k)
  | none => s
/-- REMOTE_MESSAGE (R139). Padding is ignored, and a record fault is counted at the core that it names (R119). Assumption 81 [DEDUCED, unsafe]. Records for a partition above 7 are counted nowhere: assumption 100 [DESIGN CHOICE, unsafe]. -/
def execRemoteMessage (path : MessagePath) (msg : Bytes) (t : Nat) (s : State) : Res :=
  let e := path.edge
  let s := (s.at t).messageMarked path msg
  let n := fieldAt msg 5 1
  let cnt := rmCount msg
  .next (if !(rmFormOk msg && s.rmTaken msg) then (if n < 8 then s.countRem e n 5 cnt else s)
    else
      let recs := ((List.range cnt).map (rmRecord msg)).filter (fun r => r.event != 0)
      let ok := recs.filter (s.rrOk n)
      let bad := ok.filter (fun r => inFlightBad r.event)
      let kept := (ok.filter (fun r => inFlightOk r.event)).take (32768 - s.inbound e)
      let s := s.modRem e n (fun b => { b with inb := b.inb ++ kept.map (fun r => (fieldAt msg 8 8, r)) })
      let s := bad.foldl (fun s r => s.bump r.dcore 0x6C 1) s
      (s.countRem e n 1 kept.length).countRem e n 5 (recs.length - bad.length - kept.length))
/-- One buffered record against the closed pitch `c` (R140, R141): the event to inject, if any. -/
def State.injectOne (s : State) (e n c : Nat) (x : Nat × RemoteRec) : State × Option (Nat × BitVec 64) :=
  let t := x.1 + evDelay x.2.event
  let w := x.2.event
  if t ≤ c then
    if s.eff (kLateAction n) = 0 then (s.countRem e n 2 1, none)
    else (s.countRem e n 3 1, some (x.2.dcore, evMk (evCount w) 1 true (evSrc w) (evRow w)))
  else if 1023 < t - c then (s.countRem e n 4 1, none)
  else (s, some (x.2.dcore, evSetDelay w (t - c)))
/-- Hauls of at most 256 events for one core. -/
def hauls256 (k : Nat) (l : List (BitVec 64)) : List (List (BitVec 64)) := (List.range k).map (fun i => (l.drop (256 * i)).take 256)
/-- REMOTE_INJECT (R140): every buffered record of the partition, between its CLOSE and 5 µs before the next open instant. -/
def execRemoteInject (e n t : Nat) (s : State) : Res :=
  let s := s.at t
  let q := (s.part n).seq
  .next (if !q.everOpen || q.isOpen || !running (s.part n) || decide (q.belayAt + s.guardNs n < s.now + 5000) then s
    else
      let l := (s.remBuf e n).inb
      let s := s.modRem e n (fun b => { b with inb := [] })
      let r := l.foldl (fun (a : State × List (Nat × BitVec 64)) x =>
        let o := a.1.injectOne e n q.pitch x
        (o.1, a.2 ++ o.2.toList)) (s, [])
      let cores := (r.2.map (·.1)).eraseDups
      cores.foldl (fun s c =>
        let ev := (r.2.filter (fun x => x.1 == c)).map (·.2)
        (hauls256 ((ev.length + 255) / 256) ev).foldl (fun s h => s.pushHaul ⟨.injected, 2048 + e, c, h, [], q.pitch, n⟩) s) r.1)

end Sys2Proof.Machine
end

