-- ==== Sys2Proof/Machine/Ports.lean ====
section
/-!
DEFINITION. Host link, data ports and the rope (chapter 12): function resets, host losses, operation slots, interrupts and
heartbeats, the data ports and their connections, the field ports and rope control, and cyclic output objects.
-/

namespace Sys2Proof.Machine

/-! ### Mailboxes and functions (R317 to R319) -/

/-- The mailboxes of function `f` (R319). -/
def funcMailboxes (f : Nat) : List Nat := if f = 0 then List.range 8 else (List.range 3).map (fun k => 8 + 3 * (f - 1) + k)
/-- Partitions that function `f` acts for (R324). -/
def funcParts (f : Nat) : List Nat := if f = 0 then List.range 8 else [f - 1]
/-- A slot whose operation is issued and not finished ends ABORTED (R318). -/
def abortSlot (q : OpSlot) : OpSlot :=
  if q.busy then { q with
    busy := false
    done := true
    status := qAborted
    value := 0
    result := none }
  else q
/-- The device identifier and class code of a function (Table 12.1). -/
def deviceId (f : Nat) : Nat := if f = 0 then 0x2048 else 0x2049
/-- The class code of every function (Table 12.1). -/
def classCode : Nat := 0x120000
/-- Does function `f` advertise a feature (R316, Table 12.1)? SR-IOV and Resizable BAR are capabilities of the physical function. -/
def advertised (f : Nat) : PcieFeature → Bool
  | .msix => true
  | .aer => true
  | .ecrc => true
  | .ari => true
  | .tags10 => true
  | .flr => true
  | .d3hot => true
  | .l1 => true
  | .sriov => f == 0
  | .resizableBar => f == 0
  | _ => false
/-- Is an optional feature enabled: the host has enabled it, and the function advertises it? Every other one stays disabled (R316). -/
def State.featureOn (s : State) (f : Nat) (x : PcieFeature) : Bool := advertised f x && (s.func f).conf.on.contains x
/-- Bytes of BAR0 (Table 12.1). -/
def bar0Bytes : Nat := 0x40000
/-- What a reset of a function does to it (R318): operations that the edge routers still hold for it end with its slots, and its configuration
space is reset. -/
def State.resetFunction (s : State) (f : Nat) : State :=
  let s := s.modPow (fun p => { p with heldOps := p.heldOps.filter (fun o => o.1 != f) })
  let busy := (s.func f).slots.any (fun e => e.2.busy)
  let s := s.resetEndpoint f
  let s := s.abortDescs (fun o => o == f)
  let s := s.modFunc f (fun g => { g with
    slots := g.slots.map (fun e => (e.1, abortSlot e.2))
    conf := {}
    aer := 0
    winLo := g.winLo / 2 * 2
    notify := []
    armed := false })
  let s := if busy then s.raiseCause f 1 else s
  let ks := funcMailboxes f
  let s := s.each (List.range 8) (fun s n => s.modPart n (fun p => { p with waiting := p.waiting.map (fun q => match q.req with
    | .mailbox k => if ks.contains k then { q with req := .restore } else q
    | _ => q) }))
  s.each ks (fun s k => (s.modMailbox k (fun _ => {})).forget (.mailbox k))
/-- FUNCTION_LEVEL_RESET (R318): no host loss; `f.conf` is what the host writes to the configuration space after it (assumption 91 [PRESUMED, unsafe]). -/
def execFunctionLevelReset (f : FuncReset) (t : Nat) (s : State) : Res :=
  let s := s.at t
  .next (if f.func < 9 ∧ (s.func f.func).present then (s.resetFunction f.func).modFunc f.func (fun g => { g with conf := f.conf }) else s)

/-! ### Host loss (R324, R325, R450) -/

/-- Is a host loss of partition `n` in effect? -/
def State.lossOf (s : State) (n : Nat) : Bool := (s.func 0).lost || (s.func (n + 1)).lost
/-- QUIESCE: outputs inert from now on, and the partition disabled in the belay form. -/
def State.quiesce (s : State) (n : Nat) : State :=
  let s := s.modPart n (fun p => { p with quiesced := true, contLeft := none })
  if (s.part n).state = .enabled then s.disableBelay n else s
/-- HOST_LOSS_POLICY of partition `n` at a loss. -/
def State.hostPolicy (s : State) (n : Nat) : State :=
  if (s.part n).hostLoss then s
  else
    let was := s.holding n
    let hold := s.dget (kHostLossPolicy n) == 1
    let s := s.modPart n (fun p => { p with hostLoss := true, hostHold := hold })
    if hold then s.startHold n was
    else if !running (s.part n) then s
    else if s.dget (kHostLossPolicy n) = 0 then s.modPart n (fun p => { p with contLeft := some (s.dget (kContinuePitches n)) })
    else s.quiesce n
/-- A host loss of function `f`: mailboxes orphaned, the endpoint reset, an emergency object, the partitions' policies. -/
def State.hostLossOf (s : State) (f : Nat) : State :=
  let s := s.modFunc f (fun g => { g with armed := false, lost := true })
  let s := s.each (funcMailboxes f) (fun s k => s.modMailbox k (fun m => { m with orphaned := true, notices := [] }))
  let s := ((s.resetEndpoint f).dadd kHostLosses 1).warn 0x0008 (if f = 0 then 0xFF else f - 1) f
  s.each (funcParts f) (fun s n => s.hostPolicy n)
/-- PERST_N asserted (`pin`), or the PCIe link lost without it (R318): every function is reset, and those with an armed heartbeat lose their host. The
functions' configuration is gone with it, so no virtual function is left. Assumption 54 [DEDUCED, unsafe]. -/
def execPerstN (pin : Bool) (t : Nat) (s : State) : Res :=
  let s := s.at t
  let armed := (List.range 9).filter (fun f => (s.func f).present && (s.func f).armed)
  let s := s.each ((List.range 9).filter (fun f => (s.func f).present)) (fun s f => s.resetFunction f)
  let s := s.each armed (fun s f => s.hostLossOf f)
  let s := s.each (List.range 8) (fun s n => s.modFunc (n + 1) (fun g => { g with present := false }))
  let s := (((s.dclear kPcieState).dclear kPcieWidth).dclear kPcieSpeed).dclear kNumVfs
  .next (s.modPorts (fun p => { p with perst := p.perst || pin, retry := none }))
/-- PCIE_LINK_UP (R326): the link runs as trained; `vfs` holds the NumVFs that the host then sets, and what it writes to the configuration
spaces of functions 0 on (assumption 35 [DESIGN CHOICE, safe]). Until firmware has set up the functions, they answer with Configuration Request
Retry Status, and the host repeats its requests (R381). -/
def execPcieLinkUp (width speed : Nat) (vfs : FuncSettings) (s : State) : Res :=
  .next (if !s.ports.perst ∧ s.iodOn ∧ vfs.vfs ≤ 8 ∧ [1, 2, 4].contains width ∧ 1 ≤ speed ∧ speed ≤ 5 then
    let s := ((s.dset kPcieState 2).dset kPcieWidth width).dset kPcieSpeed speed
    if s.funcsUp then s.setFuncs vfs else s.modPorts (fun p => { p with retry := some vfs })
  else s)
/-- HEARTBEAT_TIMEOUT (R324). -/
def execHeartbeatTimeout (f t : Nat) (s : State) : Res :=
  let s := s.at t
  let g := s.func f
  .next (if g.armed && decide (g.hbAt + s.dget kHeartbeatTimeout * 1000000 ≤ s.now) then s.hostLossOf f else s)
/-- The loss of function `f` ends; a partition whose other function is lost stays lost (R325, R450). -/
def State.endLoss (s : State) (f : Nat) : State :=
  if !(s.func f).lost then s
  else
    let s := s.modFunc f (fun g => { g with lost := false })
    s.each (funcParts f) (fun s n =>
      if s.lossOf n then s else s.modPart n (fun p => { p with hostLoss := false, hostHold := false, contLeft := none }))
/-- A write of HOST_HEARTBEAT. -/
def State.doHeartbeat (s : State) (f w : Nat) : State :=
  let s := s.modFunc f (fun g => { g with
    hbLast := if w % 2 ^ 32 = 0 then g.hbLast else w % 2 ^ 16
    armed := w % 2 ^ 32 != 0
    hbAt := s.now })
  if w % 2 ^ 32 = 0 then s else s.endLoss f
/-- CONTINUE_EXPIRY (R450). -/
def execContinueExpiry (n t : Nat) (s : State) : Res :=
  let s := s.at t
  .next (if (s.part n).hostLoss && (s.part n).contLeft == some 0 then s.quiesce n else s)

/-! ### Interrupts and queue notification (R320, R321) -/

/-- INT_CAUSE and INT_MASK (Table 12.6): writing 1 clears a cause; a mask bit that falls over a set cause sends the message. -/
def execIntCause (f : Nat) (mask : Bool) (w : Nat) (s : State) : Res :=
  let g := s.func f
  let w := w % 2 ^ 12
  .next (if !s.hostSees f || decide (8 < f) then s
    else if !mask then s.modFunc f (fun g => { g with cause := g.cause - (g.cause &&& w) })
    else
      let s := s.modFunc f (fun g => { g with imask := w })
      s.outs (((List.range 12).filter (fun i => bit g.imask i && !bit w i && bit g.cause i)).map (fun i => Output.msix f i)))
/-- May QNOTIFY of function `f` bind queue `q`? -/
def State.mayNotify (s : State) (f q : Nat) : Bool := s.qThere q && (s.queue q).state == 1 && (s.queue q).kind == 0 && (s.queue q).reader == f
/-- QNOTIFY (R321, Table 12.7): a QUEUE that does not qualify clears ENABLE, and the write has no other effect. -/
def execQnotify (f k w : Nat) (s : State) : Res :=
  let q := w % 2 ^ 20
  let old := mget dZero (s.func f).notify k
  .next (if !s.hostSees f || decide (8 < f) || decide (8 ≤ k) then s
    else
      let v := if s.mayNotify f q then (if bit w 31 then 2 ^ 31 + q else q) else old % 2 ^ 20
      s.modFunc f (fun g => { g with notify := mset dZero g.notify k v }))

/-! ### Operation slots (R322) -/

/-- Slot `k` of function `f`. -/
def State.slot (s : State) (f k : Nat) : OpSlot := mget dSlot (s.func f).slots k
/-- Slot `k` of function `f` changed. -/
def State.modOp (s : State) (f k : Nat) (g : OpSlot → OpSlot) : State := s.modFunc f (fun x => { x with slots := mmod dSlot x.slots k g })
/-- The operation of a block with the head `h` (Tables 9.3, 9.4); `rest` follows the block. -/
def State.runBlock (s : State) (h : OpHead) (b rest : Bytes) : State :=
  let op := fieldAt b 0 1
  let a0 := fieldAt b 0x10 8
  let a1 := fieldAt b 0x18 8
  let i := if op < 0x10 ∧ op ≠ 7 ∧ op ≠ 8 then h.object / 16384 else if op < 0x10 then h.object / 256 else h.object / 1024
  let bad := s.finish h i op h.object qOpcode 0 (if op = 5 then msgDescs rest else [])
  let none0 := rest.isEmpty
  let bare := none0 && a0 == 0 && a1 == 0
  if decide (8 ≤ fieldAt b 1 1) || fieldAt b 0x0E 2 != 0 || decide ((if op = 7 ∨ op = 8 then 2 ^ 14 else 2 ^ 20) ≤ fieldAt b 4 4) || decide (2 ^ 20 ≤ fieldAt b 8 4) then bad
  else match op with
    | 0x01 => if a0 == 0 && a1 == 0 then s.doCreateQ h rest else bad
    | 0x02 => if bare then s.doDestroyQ h else bad
    | 0x03 => if none0 && decide (a0 < 256) && a1 == 0 then s.doAttach h a0 (bit (fieldAt b 1 1) 1) else bad
    | 0x04 => if bare then s.doDetach h else bad
    | 0x05 => if a0 == 0 && a1 == 0 then s.doSend h rest else bad
    | 0x06 => if none0 then s.doReceive h a0 a1 else bad
    | 0x07 => if none0 then s.doReceiveGroup h a0 a1 else bad
    | 0x08 => if none0 && decide (a0 < 512) && a1 == 0 then s.doGroupSet h (a0 % 256) (a0 / 256) else bad
    | 0x09 =>
      let n := rest.length / 8
      let cs := (List.range n).map (fun j => (fieldAt rest (8 * j + 4) 2, BitVec.ofNat 32 (fieldAt rest (8 * j) 4)))
      if a1 == 0 && a0 == n && rest.length % 8 == 0 && (List.range n).all (fun j => fieldAt rest (8 * j + 6) 2 == 0) then
        s.doAdd h (bit (fieldAt b 1 1) 2) cs else bad
    | 0x0A => if none0 then s.doReadClear h a0 a1 else bad
    | 0x10 => if none0 && decide (a0 < 4) then s.doSyncCreate h a0 a1 else bad
    | 0x11 => if bare then s.doSyncDestroy h else bad
    | 0x12 => if none0 && a1 == 0 then (s.doCadd h a0).2 else bad
    | 0x13 => if bare then s.doCread h else bad
    | 0x14 => if none0 && a1 == 0 then s.doCset h a0 else bad
    | 0x15 => if none0 && a1 == 0 then s.doCwait h a0 else bad
    | 0x16 => if none0 && a1 == 0 then (s.doPost h a0).2 else bad
    | 0x17 => if none0 && a1 == 0 then s.doTake h a0 else bad
    | 0x18 => if bare then (s.doArrive h).2 else bad
    | 0x19 => if bare then s.doBreak h else bad
    | 0x1A => if bare then s.doBarrierReset h else bad
    | _ => bad
/-- An operation of the bytes `b` issued through slot `k` of function `f`. -/
def State.issueBlock (s : State) (f k : Nat) (b : Bytes) : State :=
  let h : OpHead := ⟨f, fieldAt b 4 4, fieldAt b 8 4 % 2 ^ 20, fieldAt b 0x0C 2, fieldAt b 2 2, bit (fieldAt b 1 1) 0, some (f, k), s.now⟩
  (s.runBlock h (b.take 32) (b.drop 32)).settle
/-- SLOT_DONE (R322): the part writes the outcome of an operation that has finished. -/
def execSlotDone (f k status value t : Nat) (s : State) : Res :=
  let s := s.at t
  .next (if (s.slot f k).busy && (s.slot f k).result == some (status, value) then
    (s.modOp f k (fun q => { q with
      busy := false
      done := true
      status := status
      value := value
      result := none })).raiseCause f 1
  else s)

/-! ### Data ports (R329 to R332) -/

/-- TIME_PORT names a port that goes down: HOLDOVER (R342). -/
def State.timePortDown (s : State) (code : Nat) : State := if s.dget kTimePort = code then s.holdover else s
/-- The communication manager sends a REQ for each valid peer entry on port `p` whose side this is, and that is not connected (R331). -/
def State.sendReqs (s : State) (p : Nat) : State :=
  let l := (List.range 512).filter (fun i =>
    let v := s.peer (i / 64) (i % 64)
    peerValid v && peerPort v == p && decide (s.dget (kLocalPeerId (i / 64)) < peerId v) && s.canSend p (peerAddr v) &&
      (mget dNone (s.dataPort p).conns (0x010000 + i)).isNone)
  s.outs (l.map (fun i => Output.cm p 1 (0x010000 + i)))
/-- A write of PORT_ENABLE (R329): training begins on four lanes, or the port goes down with its connections. -/
def State.doPortEnable (s : State) (p v : Nat) : Nat × State :=
  if 2 ≤ v then (stRange, s)
  else if v = s.dget (kPortEnable p) then (stOk, s)
  else
    let was := (List.range 4).any (fun k => s.subUp p k)
    let s := (((s.dset (kPortEnable p) v).dclear (kPortWidth p)).dclear (kPortLanes p)).modDataPort p (fun _ => { training := v == 1 })
    let s := if v = 0 then s.timePortDown (dataCode p) else s
    (stOk, if was then s.portEvent else s)
/-- PORT_ENABLE (R329). -/
def execPortEnable (r : Requester) (p v t : Nat) (s : State) : Res :=
  .next (if 2 ≤ p then s.at t else (s.at t).typed r (kPortEnable p) v (fun s => s.doPortEnable p v))
/-- The lanes that a subport runs on when the lanes of `m` train (R328, R329); none when it stays down. -/
def runLanes (mode sub m : Nat) : Nat :=
  if mode = 0 then
    (if m % 16 = 15 then 15 else if m % 4 = 3 then 3 else if m / 4 % 4 = 3 then 12 else match maskList 4 m with
      | l :: _ => 2 ^ l
      | [] => 0)
  else if mode = 1 then (if m / 4 ^ sub % 4 = 3 then 3 * 4 ^ sub else 0)
  else m / 2 ^ sub % 2 * 2 ^ sub
/-- DATA_PORT_LINK_UP (R329, R330): training of a subport ends; `lanes` are those that trained. After a retraining, no lane that the
port had given up comes back. Subport 0 is the end station of 802.1AS (Table 12.13). -/
def execDataPortLinkUp (p sub lanes : Nat) (s : State) : Res :=
  let mode := s.dget (kPortMode p)
  .next (if 2 ≤ p ∨ !s.iodOn ∨ subports mode ≤ sub ∨ s.dget (kPortEnable p) = 0 ∨ !((s.dataPort p).training || !mget dDown (s.dataPort p).up sub) then s
    else
      let was := s.subUp p sub
      let run := runLanes mode sub (lanes &&& (s.dataPort p).allowed)
      let mine := if mode = 0 then 15 else if mode = 1 then 3 * 4 ^ sub else 2 ^ sub
      let s := s.modDataPort p (fun q => { q with
        training := false
        up := mset dDown q.up sub (run != 0)
        lanes := q.lanes - (q.lanes &&& mine) + run
        allowed := if run = 0 then q.allowed else q.allowed - (q.allowed &&& mine) + run })
      let s := s.dset (kPortLanes p) (s.dataPort p).lanes
      let s := if sub = 0 then s.dset (kPortWidth p) (100 * (maskList 4 run).length) else s
      let s := if s.subUp p 0 then s else s.timePortDown (dataCode p)
      let s := s.sendReqs p
      if was = s.subUp p sub then s else s.portEvent)
/-- PORT_RETRAIN (R330): a lane has lost signal (`fec` 0), or `fec` uncorrectable codewords came within one second. -/
def execPortRetrain (p fec t : Nat) (s : State) : Res :=
  let s := s.at t
  .next (if 2 ≤ p ∨ (s.dataPort p).training ∨ !(List.range 4).any (fun k => s.subUp p k) then s
    else
      let s := s.dadd64 (kFecUncorrected p) fec
      if 1 ≤ fec ∧ fec ≤ 16 then s
      else ((s.modDataPort p (fun q => { q with training := true })).dadd (kRetrains p) 1).portEvent)

/-- Is a REQ for the fixed queue pair `q` at port `p` accepted from `id` (R331)? -/
def State.cmAccepts (s : State) (p q id : Nat) : Bool :=
  if 0x010000 ≤ q ∧ q < 0x010200 then
    let v := s.peer ((q - 0x010000) / 64) (q % 64)
    peerValid v && peerPort v == p && peerId v == id && decide (id < s.dget (kLocalPeerId ((q - 0x010000) / 64)))
  else if 0x020000 ≤ q ∧ q < 0x020020 then s.dget (kSource (q - 0x020000)) == 2 && s.dget (kEthPort (q - 0x020000)) == p
  else decide (0x030000 ≤ q) && decide (q ≤ 0x030008)
/-- Is a subport of data port `p` up, so that traffic reaches the part (R405)? -/
def State.portUp (s : State) (p : Nat) : Bool := s.iodOn && (List.range 4).any (fun k => s.subUp p k)
/-- CM_REQ (R331): accepted with a REP, or refused and counted. -/
def execCmReq (p service peerId qpn t : Nat) (s : State) : Res :=
  let s := s.at t
  .next (if 2 ≤ p ∨ !s.portUp p then s
    else if s.cmAccepts p service peerId then
      (s.modDataPort p (fun q => { q with conns := mset dNone q.conns service (some ⟨qpn, peerId, false⟩) })).out (.cm p 2 service)
    else (s.dadd (kCmRefused p) 1).out (.cm p 3 service))
/-- CM_MESSAGE (R331): REP and RTU establish a connection, DREQ and DREP end it. `qpn` is the local queue pair. -/
def execCmMessage (p : Nat) (kind : CmKind) (qpn : Nat) (s : State) : Res :=
  let set := fun (c : Option Conn) => s.modDataPort p (fun q => { q with
    conns := mset dNone q.conns qpn c
    slowed := q.slowed.filter (· != qpn) })
  let v := s.peer ((qpn - 0x010000) / 64) (qpn % 64)
  .next (if 2 ≤ p ∨ !s.portUp p then s
    else match kind, mget dNone (s.dataPort p).conns qpn with
      | .rep, none =>
        if 0x010000 ≤ qpn ∧ qpn < 0x010200 ∧ peerValid v ∧ peerPort v = p then (set (some ⟨peerQpn v, Machine.peerId v, true⟩)).out (.cm p 4 qpn) else s
      | .rtu, some c => set (some { c with up := true })
      | .dreq, some _ => (set none).out (.cm p 6 qpn)
      | .drep, some _ => set none
      | _, _ => s)
/-- CONGESTION_NOTIFICATION (R330): the part lowers the send rate of the queue pair (assumption 12 [DESIGN CHOICE, safe]). -/
def execCongestionNotification (p qpn : Nat) (s : State) : Res :=
  .next (if s.connected p qpn && !(s.dataPort p).slowed.contains qpn then s.modDataPort p (fun q => { q with slowed := q.slowed ++ [qpn] }) else s)
/-- Does a load queue pair take the write (R332)? -/
def State.rdmaOk (s : State) (p qpn rkey addr n : Nat) : Bool :=
  let k := qpn - 0x030000
  let key := s.dget (kLoadKeys p) / 2 ^ (32 * k) % 2 ^ 32
  decide (0x030000 ≤ qpn) && decide (k ≤ 8) && key != 0 && key == rkey && s.spaceOk spLp addr n &&
    (framesOf addr n).all (fun f => s.frameOwner f == (if k = 8 then 0x10 else 8 + k)) && decide (addr + n ≤ 0x3B00000000)
/-- RDMA_WRITE (R332). -/
def execRdmaWrite (p : Nat) (qpn : LoadPath) (rkey addr : Nat) (data : Bytes) (t : Nat) (s : State) : Res :=
  let s := s.at t
  let q := qpn.qpn
  .next (if 2 ≤ p ∨ !s.portUp p then s
    else
      let s := s.ecnMarked qpn.ecn p q
      if s.rdmaOk p q rkey addr data.length then s.lpWrite addr data
      else (s.dadd (kRdmaRefused p) 1).out (.roceNak p q 2))
/-- ICMPV6_MESSAGE (R327): an echo request is answered; a neighbour solicitation for an address of the port is answered. -/
def execIcmpv6Message (p : Nat) (kind : IcmpKind) (data : Bytes) (s : State) : Res :=
  let mine := (List.range (subports (s.dget (kPortMode p)))).any (fun k => s.subUp p k && (s.subAddr p k).take 16 == data.take 16)
  .next (if 2 ≤ p ∨ !s.portUp p then s
    else match kind with
      | .echoRequest => s.out (.icmp (dataCode p) 129 data)
      | .neighbourSolicitation => if mine then s.out (.icmp (dataCode p) 136 data) else s)

/-! ### Field ports and the rope (R333 to R339) -/

/-- A rope control message of this part (Table 12.12). -/
def ropeMsg (type node seq port : Nat) : Bytes :=
  natLe 1 1 ++ natLe 1 type ++ natLe 1 0 ++ natLe 1 node ++ natLe 4 seq ++ natLe 16 0 ++ natLe 1 0 ++ natLe 1 port ++ natLe 6 0
/-- A rope control message leaves by the listed ports that are up. -/
def State.ropeSend (s : State) (type port : Nat) (via : List Nat) : State :=
  let m := ropeMsg type (s.dget kNodeAddress) s.ports.ropeSeq port
  (s.outs ((via.filter s.fieldUp).map (fun p => Output.datagram p 0 allNodes 47102 m))).modPorts (fun p => { p with ropeSeq := wrapAdd 32 p.ropeSeq 1 })
/-- The queue of a frame (R334): 0 for 802.1AS and rope control, 1 for cyclic output objects, 2 for everything else. -/
def frameQueue : FrameClass → Nat
  | .time => 0
  | .rope => 0
  | .object => 1
  | .other => 2
/-- No frame waits by default. -/
def dFrames (_ : Nat) : List BridgeFrame := []
/-- What the bridge holds for port `p`. -/
def State.bridgeOf (s : State) (p : Nat) : List BridgeFrame := mget dFrames s.ports.bridge p
/-- Bytes of buffer for each direction (R334). -/
def bridgeBytes : Nat := 0x4000
/-- The bytes that a frame leaves with: a member increments HOPS of a rope control message as it forwards it (R335). -/
def forwarded (f : BridgeFrame) : BridgeFrame := if f.cls = .rope then { f with body := f.body.set 2 (f.body.getD 2 0 + 1#8) } else f
/-- Does a frame leave now: its time has come, or a frame that it precedes by its queue leaves? -/
def leavesNow (now : Nat) (l : List BridgeFrame) (f : BridgeFrame) : Bool :=
  decide (f.leaves ≤ now) || l.any (fun g => decide (g.leaves ≤ now) && decide (frameQueue f.cls < frameQueue g.cls) && decide (f.arrived ≤ g.leaves))
/-- The frames that have left on port `p` by now, in the order of their queues (R334); a frame of 802.1AS takes its residence into its correction (R341). -/
def State.bridgePort (s : State) (p : Nat) : State :=
  let l := s.bridgeOf p
  let go := sortBy (fun f => frameQueue f.cls) (l.filter (leavesNow s.now l))
  let s := s.modPorts (fun q => { q with bridge := mset dFrames q.bridge p (l.filter (fun f => !leavesNow s.now l f)) })
  if s.fieldUp p then s.outs (go.map (fun f => Output.frame p { forwarded f with residence := if f.cls = .time then f.leaves - f.arrived else 0 })) else s
/-- The rope bridge at the present instant. -/
def State.bridgeDue (s : State) : State := if s.ports.bridge.isEmpty then s else (s.bridgePort 0).bridgePort 1
/-- FIELD_FRAME (R334): a frame of `len` bytes to MAC `dst` has come in on field port `p`. One for the port's own MAC is consumed; a multicast one is also
forwarded, every other one only forwarded, unless the other direction's buffer has no room. It leaves within 5 µs, when a free value says (assumption 11
[DESIGN CHOICE, safe]). -/
def execFieldFrame (p dst : Nat) (cls : FrameClass) (len : Nat) (body : Bytes) (t : Nat) (s : State) : Res :=
  let s := (s.at t).bridgeDue
  let used := ((s.bridgeOf (1 - p)).map (·.len)).foldl (· + ·) 0
  .next (if 2 ≤ p ∨ !s.fieldUp p ∨ dst = fieldMac p ∨ !s.fieldUp (1 - p) then s
    else if bridgeBytes < used + len then s.dadd kRopeFwdDrops 1
    else
      let f := s.takeFree
      f.2.modPorts (fun q => { q with bridge := mmod dFrames q.bridge (1 - p) (· ++ [{ cls := cls, len := len, body := body, arrived := s.now, leaves := s.now + f.1.toNat % 5001 }]) }))
/-- FIELD_LINK_DOWN (R336). -/
def execFieldLinkDown (p t : Nat) (s : State) : Res :=
  let s := s.at t
  .next (if 2 ≤ p ∨ !s.fieldUp p then s
    else
      let s := (s.dset (if p = 0 then kF0Link else kF1Link) 0).dadd kLinkDowns 1
      ((s.ropeSend 2 p [1 - p]).timePortDown p).portEvent)
/-- FIELD_LINK_UP (R336). -/
def execFieldLinkUp (p t : Nat) (s : State) : Res :=
  let s := s.at t
  .next (if 2 ≤ p ∨ s.fieldUp p then s else (s.dset (if p = 0 then kF0Link else kF1Link) 1).portEvent)
/-- A node address taken; an address above 63, or 0, is none (R337). -/
def State.takeAddress (s : State) (a : Nat) : State :=
  if 1 ≤ a ∧ a ≤ 63 then (s.dset kNodeAddress a).dset kNodeState 0 else (s.dset kNodeAddress 0).dset kNodeState 1
/-- CHECK (R337): `primary` says that it came on the port that faces the rope master's primary port. -/
def execRopeCheck (primary : Bool) (hops t : Nat) (s : State) : Res :=
  let s := (s.at t).modPorts (fun p => { p with checkAt := max p.checkAt t })
  .next (if primary && s.ports.hops.isNone then
    let s := s.modPorts (fun p => { p with hops := some hops })
    if s.dget kAddrMode = 0 then s.takeAddress (hops + 2) else s
  else s)
/-- The address mode applied anew (R337, R338): a conflict ends. Under POSITION the next first CHECK gives the address. -/
def State.readdress (s : State) : State :=
  let s := (s.dset kAddrConflict 0).modPorts (fun p => { p with hops := none })
  s.takeAddress (if s.dget kAddrMode = 1 then s.dget kNodeAddressStored else 0)
/-- CHECK_TIMEOUT (R336). -/
def execCheckTimeout (t : Nat) (s : State) : Res :=
  let s := s.at t
  .next (if s.dget kRopeState ≠ 2 ∧ s.ports.checkAt + 3 * s.dget kRopeCheckInterval * 1000 ≤ s.now then
    ((s.dset kRopeState 2).warn 0x0007 0xFF 0).portEvent
  else s)
/-- The peers of node `a` cannot be reached any longer (R339). -/
def State.nodeLost (s : State) (a : Nat) : State :=
  let s := s.warn 0x0005 0xFF a
  s.each (List.range 8) (fun s n => s.each ((List.range 64).filter (fun k => s.peerNode n k == a)) (fun s k =>
    (s.modPart n (fun p => { p with peerOut := p.peerOut.filter (fun e => e.1 != k) ++ [(k, none)] })).losePeer n k))
/-- Node `a` is present again: sending resumes from the next pitch, and RoCEv2 connects anew (R339). -/
def State.nodeBack (s : State) (a : Nat) : State :=
  let s := s.each (List.range 8) (fun s n => s.each ((List.range 64).filter (fun k => s.peerNode n k == a)) (fun s k =>
    s.modPart n (fun p => { p with peerOut := p.peerOut.map (fun e => if e.1 == k && e.2.isNone then (k, some p.seq.pitch) else e) })))
  (s.sendReqs 0).sendReqs 1
/-- STATE (R336, R339): ROPE, PRESENT and LOST are mirrored; no member has node address 0 (R337). -/
def execRopeState (rope present lost t : Nat) (s : State) : Res :=
  let s := s.at t
  .next (if 1 < rope then s
    else
      let oldP := s.dget kPresentNodes
      let oldL := s.dget kLostNodes
      let changed := s.dget kRopeState != rope || oldP != present % 2 ^ 64 || oldL != lost % 2 ^ 64
      let s := ((s.dset kRopeState rope).dset kPresentNodes (present % 2 ^ 64)).dset kLostNodes (lost % 2 ^ 64)
      let s := s.each ((List.range 64).filter (fun a => a != 0 && bit lost a && !bit oldL a)) (fun s a => s.nodeLost a)
      let s := s.each ((List.range 64).filter (fun a => a != 0 && bit present a && !bit lost a && (!bit oldP a || bit oldL a))) (fun s a => s.nodeBack a)
      if changed then s.portEvent else s)
/-- ANNOUNCE_TIMER (R338): every 100 ms. -/
def execAnnounceTimer (t : Nat) (s : State) : Res :=
  let s := s.at t
  .next (if s.now < s.ports.lastAnn + 100000000 then s
    else (s.ropeSend 4 0 [0, 1]).modPorts (fun p => { p with lastAnn := s.now }))
/-- ANNOUNCE (R338). -/
def execAnnounce (node mac t : Nat) (s : State) : Res :=
  let s := s.at t
  .next (if s.dget kNodeAddress = 0 ∨ node ≠ s.dget kNodeAddress ∨ ownMac mac then s
    else ((s.dset kNodeState nodeConflict).dset kAddrConflict 1).warn 0x0006 0xFF mac)

/-! ### Cyclic output objects (R343, R344) -/

/-- Channels of a group by its tile; the tile of the inactive slot where the ACTIVE one has none. -/
def State.nchOf (s : State) (g : Nat) : Nat := match s.groupOf g with
  | some (_, t) => s.grNch t
  | none => match s.holder (32 + g) with
    | some n => (match convTile (s.part n).slot0 (32 + g), convTile (s.part n).slot1 (32 + g) with
      | some t, _ => s.grNch t
      | none, some t => s.grNch t
      | none, none => 0)
    | none => 0
/-- Bytes of object `j`. -/
def State.objSize (s : State) (j : Nat) : Nat := 16 + ((s.objGroups j).map (fun g => 16 + 4 * s.nchOf g)).foldl (· + ·) 0
/-- The size limit of its destination (Table 12.15). -/
def State.objLimit (s : State) (j : Nat) : Nat :=
  if s.dget (kObjDest j) = 1 then 1452 else if s.dget (kObjDest j) = 2 then (s.queue (s.dget (kObjQueue j))).maxMsg - 8 else 4152
/-- A write of OBJ_ENABLE (R343). -/
def State.doObjEnable (s : State) (j v : Nat) : Nat × State :=
  let bad := (s.objGroups j).isEmpty || s.dget (kObjDest j) == 0 ||
    (s.objGroups j).any (fun g => !s.slicePresent (g % 64) || s.holder (32 + g) != some (s.dget (kObjPartition j))) ||
    decide (s.objLimit j < s.objSize j)
  if 2 ≤ v then (stRange, s)
  else if v = 1 ∧ bad then (stState, s)
  else (stOk, (s.dset (kObjEnable j) v).dset kObjEnabled (setBit (s.dget kObjEnabled) j (v == 1)))
/-- OBJ_ENABLE. -/
def execObjEnable (r : Requester) (j v t : Nat) (s : State) : Res :=
  .next (if 32 ≤ j then s.at t else (s.at t).typed r (kObjEnable j) v (fun s => s.doObjEnable j v))
/-- A record of group `g` in an object, that of pitch `p` or the last one: before the first publication, GROUP and NCH alone. -/
def State.objRecord (s : State) (g : Nat) (p : Option Nat) (mapped : Bool) : Bytes :=
  if (s.rgroup g).last.isNone then readoutBytes g { vals := List.replicate (s.nchOf g) 0 }
  else match (s.rgroup g).past.find? (fun r => some r.pitch == p) with
    | some r => readoutBytes g (s.recordAs g r mapped)
    | none => readoutBytes g (s.recordNow g mapped)
/-- The bytes of object `j` as they leave now (Table 12.14), with the records of pitch `p`, or with the last ones. -/
def State.objBytes (s : State) (j : Nat) (p : Option Nat) : Bytes :=
  let l := s.objGroups j
  natLe 1 1 ++ natLe 1 j ++ natLe 1 (s.dget kNodeAddress) ++ natLe 1 l.length ++ natLe 4 (s.obj j).seq ++ natLe 8 s.tsnNow ++
    l.flatMap (fun g => s.objRecord g p (s.dget (kObjEnable j) == 1))
/-- A non-blocking SEND of the object from EDGE0 to its queue (Table 12.15); whether it was placed. -/
def State.objSend (s : State) (q : Nat) (b : Bytes) : Bool × State :=
  let r := s.queue q
  let body := b ++ List.replicate ((8 - b.length % 8) % 8) 0
  if !s.qThere q ∨ r.state = 0 ∨ r.kind ≠ 0 ∨ !bit r.sendMask 11 then (false, s)
  else if r.state = 2 then (false, s.qadd64 (q / 16384) kOrphanSends 1)
  else
    let rec_ := natLe 8 (rhMk 0 0 (8 + body.length) 0x20 noQueue 0) ++ body
    let p := if s.sendWaits q then (.full, s) else s.place q rec_
    match p.1 with
    | .ok => (true, p.2.settle)
    | .size => (false, s)
    | .err => (false, s)
    | .full => (false, s.qadd64 (q / 16384) kFullSends 1)
/-- Object `j` leaves by its destination, or is discarded and counted; its SEQ advances. -/
def State.deliver (s : State) (j : Nat) (p : Option Nat) : State :=
  let b := s.objBytes j p
  let s := s.modObj j (fun o => { o with seq := wrapAdd 32 o.seq 1 })
  let udp := s.dget (kObjUdpPort j)
  let r : Bool × State :=
    if s.dget (kObjDest j) = 1 then
      (if s.dget kNodeState = nodeConflict then (false, s)
       else (true, s.outs [.datagram portF0 0 allNodes udp b, .datagram portF1 0 allNodes udp b]))
    else if s.dget (kObjDest j) = 2 then s.objSend (s.dget (kObjQueue j)) b
    else
      let p := s.dget (kObjPort j)
      if s.canSend p (s.dget (kObjAddr j)) then (true, s.out (.datagram (dataCode p) (s.subportFor p (s.dget (kObjAddr j))) (s.dget (kObjAddr j)) udp b)) else (false, s)
  if r.1 then (r.2.out (.object j (s.dget (kObjDest j)) b)).dadd64 (kObjSent j) 1
  else (r.2.dadd (kObjDrops j) 1).dadd kObjDropsTotal 1
/-- The pitches of which group `g` has published a record that an object may still carry, in order. -/
def State.outPitches (s : State) (g : Nat) : List Nat := ((s.rgroup g).past ++ (s.rgroup g).last.toList).map (·.pitch)
/-- The earliest pitch for which object `j` is due (R344): every group of it that its partition holds has published that record, and the object has not
carried it yet. -/
def State.objPitch (s : State) (j : Nat) : Option Nat :=
  match (s.objGroups j).filter (fun g => s.holder (32 + g) == some (s.dget (kObjPartition j))) with
  | [] => none
  | g :: r =>
    let ps := s.outPitches g
    let ps := match (s.obj j).sentFor with
      | some q => if ps.contains q then (ps.dropWhile (· != q)).drop 1 else ps
      | none => ps
    ps.find? (fun p => r.all (fun h => (s.outPitches h).contains p))
/-- A group keeps no record that every object listing it has carried. -/
def State.trimPast (s : State) (g : Nat) : State := s.modGroup g (fun q => { q with past := q.past.filter (fun r =>
  (List.range 32).any (fun j => s.objSet j && (s.objGroups j).contains g && (match (s.obj j).sentFor with
    | some p => decide (p < r.pitch)
    | none => true))) })
/-- Does the destination of object `j` take objects in the present power state (R406)? Below ACTIVE the management core sends those of the rope alone. -/
def State.objMay (s : State) (j : Nat) : Bool := s.pow.state == .active || (s.dget (kObjDest j) == 1 && s.rel.mgmtUp)
/-- OBJECT_TRANSMIT (R344). -/
def execObjectTransmit (j t : Nat) (s : State) : Res :=
  let s := s.at t
  .next (match s.objPitch j with
    | none => s
    | some p =>
      if !s.objSet j || !s.objMay j || !running (s.part (s.dget (kObjPartition j))) then s
      else ((s.deliver j (some p)).modObj j (fun o => { o with sentFor := some p, lastSent := s.now })).each (s.objGroups j) (fun s g => s.trimPast g))
/-- OBJECT_IDLE_TRANSMIT (R344): every OBJ_IDLE_PERIOD while OBJ_PARTITION is not ENABLED. -/
def execObjectIdleTransmit (j t : Nat) (s : State) : Res :=
  let s := s.at t
  .next (if !s.objSet j || !s.objMay j || running (s.part (s.dget (kObjPartition j))) || decide (s.now < (s.obj j).lastSent + s.dget (kObjIdlePeriod j) * 1000000) then s
    else (s.deliver j none).modObj j (fun o => { o with sentFor := none, lastSent := s.now }))

end Sys2Proof.Machine
end

