-- ==== Sys2Proof/Machine/Power.lean ====
section
/-!
DEFINITION. Power, thermal control and coolant (chapter 15): power states with entry, abort and wake; profiles and fabric clocks;
the firmware loop, the governor's limits and the thermal trip; coolant loss.
-/

namespace Sys2Proof.Machine

/-! ### Requests (R407 to R412) -/

/-- DONE. -/
def resDone : Nat := 2
/-- REFUSED. -/
def resRefused : Nat := 3
/-- ABORTED. -/
def resAborted : Nat := 4
/-- The state of a code of Table 15.3. -/
def powerOf (c : Nat) : PowerState := if c = 0 then .active else if c = 1 then .drowse else if c = 2 then .standby else .parked

/-- A refusal or abort at instant `at_` recorded, newest first, 16 at most (R412). -/
def State.powerNote (s : State) (at_ target outcome point ident : Nat) : State :=
  s.modPow (fun p => { p with log := (⟨((at_ : Int) + s.clk.tsn).toNat, target, outcome, point, ident⟩ :: p.log).take 16 })
/-- Is a keep-set commit for partition `n` in progress? -/
def State.committing (s : State) (n : Nat) : Bool := match s.keep.commit with
  | some c => c.1 == n
  | none => false
/-- The condition that refuses an entry to the state of code `c`, in the order of Table 15.4, whose last row is a code that names no state. -/
def State.refuser (s : State) (c : Nat) : Option Nat :=
  let parts := List.range 8
  ((parts.filter (fun n => running (s.part n))).map (0x0100 + ·) ++
    (if c = 2 ∨ c = 3 then ((List.range 9).filter (fun f => (s.func f).armed)).map (0x0200 + ·) else []) ++
    (parts.filter (fun n => !(s.part n).loading.isEmpty)).map (0x0300 + ·) ++
    (parts.filter (fun n => applying (activeSlot (s.part n)) || s.committing n)).map (0x0400 + ·) ++
    ((List.range 64).filter (fun i => !(s.slice i).descs.isEmpty)).map (0x0500 + ·) ++
    (if s.mem.storeWr.isSome then [0x0600] else []) ++ (if s.dget kFwState = 5 then [0x0700] else []) ++
    (if 3 < c then [0x0800 + c % 256] else [])).head?
/-- A request refused. -/
def State.refusePower (s : State) (c ident : Nat) : State := (((s.dset kPowerResult resRefused).dadd kPowerRefusals 1).powerNote s.now c 3 0 ident)

/-- The most that an entry step takes in ns (Table 15.5): E1 to E5. -/
def entryMax (target : PowerState) : List Nat :=
  [20000, 100000, 50000, (match target with
    | .standby => 200000
    | .parked => 20000000
    | _ => 0), 100000]
/-- Durations of steps, each a free value up to its maximum (assumption 11 [DESIGN CHOICE, safe]). -/
def State.freeUpTo (s : State) : List Nat → List Nat × State
  | [] => ([], s)
  | m :: r =>
    let f := s.takeFree
    let q := f.2.freeUpTo r
    (f.1.toNat % (m + 1) :: q.1, q.2)
/-- An entry begins: its abort points and its end, and the point at which a domain that fails abandons it (kind INTERNAL). -/
def State.startEntry (s : State) (target : PowerState) (fail : Option Nat) : State :=
  let d := s.freeUpTo (entryMax target ++ [undoMax target])
  let pts := (List.range 5).map (fun i => s.now + (d.1.take (i + 1)).foldl (· + ·) 0)
  let e : Entry := ⟨target, pts.take 4, pts.getD 4 0, none, false⟩
  let e := match fail with
    | some dom => if dom < 4 then abandon e (if dom = 0 then 3 else 4) (pts.getD (if dom = 0 then 2 else 3) 0) (0x1500 + dom) (d.1.getD 5 0) else e
    | none => e
  d.2.modPow (fun p => { p with entry := some e })
/-- A power request with its TAG, for the state of code `c` (R407, R408); `fail` names a domain that will fail to enter its new
state. Assumption 67 [DEDUCED, unsafe]. -/
def State.powerRequest (s : State) (tag c : Nat) (fail : Option Nat) : State :=
  let s := s.modPow (fun p => { p with tag := tag })
  let cur := powerCode s.pow.state
  if 3 < c then s.refusePower c ((s.refuser c).getD 0)
  else
    let go := (s.dset kPowerResult resPending).modPow (fun p => { p with target := c })
    if s.pow.waking.isSome then go.modPow (fun p => { p with next := some (tag, c) })
    else if c = cur then go.dset kPowerResult resDone
    else if c < cur then go.modPow (fun p => { p with waking := some (powerOf c) })
    else match s.refuser c with
      | some ident => s.refusePower c ident
      | none => go.startEntry (powerOf c) fail

/-! ### Entry (R406 to R410) -/

/-- A low state takes the part's links and retained state as Table 15.5 says: accumulators are lost; in STANDBY and PARKED, host
operations finish ABORTED, PCIe and the data ports go down. -/
def State.enterLow (s : State) (target : PowerState) : State :=
  let s := (s.modCm (fun m => { m with acc := [] })).modPow (fun p => { p with state := target })
  let s := (s.dset kDeviceState devLowPower).dset kPowerResult resDone
  if target = .drowse then s
  else
    let s := s.each (List.range 9) (fun s f =>
      let busy := (s.func f).slots.any (fun e => e.2.busy)
      let s := (s.abortWaits f).modFunc f (fun g => { g with slots := g.slots.map (fun e => (e.1, abortSlot e.2)) })
      if busy then s.raiseCause f 1 else s)
    let s := s.modPow (fun p => { p with heldOps := [] })
    let s := ((s.dset kPcieState 0).dset kPcieWidth 0).dset kPcieSpeed 0
    let s := s.each [0, 1] (fun s p => (((s.dclear (kPortWidth p)).dclear (kPortLanes p)).modDataPort p (fun _ => {})).timePortDown (dataCode p))
    if target = .parked then s.modPins (fun p => { p with pwrEnD := false }) else s
/-- Held host operations pass on in their order of arrival (R410). -/
def State.releaseOps (s : State) : State :=
  s.pow.heldOps.foldl (fun s o => s.issueBlock o.1 o.2.1 o.2.2) (s.modPow (fun p => { p with heldOps := [] }))
/-- What has waited for the end of an entry or a wake: a request, then ENABLE and LOAD commands in ACTIVE. -/
def State.afterPower (s : State) : State :=
  let s := match s.pow.next with
    | some q => if s.pow.waking.isSome then s else (s.modPow (fun p => { p with next := none })).powerRequest q.1 q.2 none
    | none => s
  if s.pow.state = .active ∧ s.pow.entry = none then
    s.pow.deferred.foldl (fun s d =>
      let k := kPartitionCommand d.2.1
      let o := s.checked d.1 k d.2.2.1 (fun s => if d.2.2.1 = 2 then s.doLoad d.1 d.2.1 else s.doEnable d.2.1)
      o.2.writeAnswer d.1 d.2.2.2 k 1 o.1) (s.modPow (fun p => { p with deferred := [] }))
  else s
/-- An entry ends, in its target or undone (R409, R410). A wake that has come goes on where the part is in a low state. -/
def State.finishEntry (s : State) (e : Entry) : State :=
  let s := s.modPow (fun p => { p with entry := none })
  let s := match e.abort with
    | some a => (((s.dset kPowerResult resAborted).dadd kPowerAborts 1).powerNote (e.aps.getD (a.1 - 1) s.now) (powerCode e.target) 4 a.1 a.2).releaseOps
    | none => s.enterLow e.target
  let s := if e.target = .drowse then s.releaseOps else s
  let s := if e.woken ∧ s.pow.state ≠ .active ∧ s.pow.next = none then s.modPow (fun p => { p with waking := some .active }) else s
  s.afterPower
/-- An entry whose end has come; and what a wake from PARKED has left to be performed once bring-up is complete (R407). -/
def State.powerDue (s : State) : State := match s.pow.entry with
  | some e => if e.endAt ≤ s.now then s.finishEntry e else s
  | none => if !s.pow.deferred.isEmpty ∧ s.pow.waking = none ∧ s.pow.state = .active ∧ s.floor.boot = none then s.afterPower else s
/-- Firmware's request for STANDBY at a coolant loss with QUIESCE, once the disables have completed and no request is PENDING
(R423, Table 15.11). Assumption 68 [DEDUCED, unsafe]. -/
def State.coolStandby (s : State) : State :=
  let p := s.pow
  if !p.standby || s.dget kPowerResult == resPending || p.entry.isSome || p.waking.isSome ||
      (List.range 8).any (fun n => running (s.part n)) then s
  else
    let s := s.modPow (fun p => { p with standby := false })
    if p.state = .standby ∨ p.state = .parked then s else s.powerRequest 0 2 none
/-- The state at instant `t`, with what has fallen due by then in the fabric and the end of a power entry. -/
def State.reach (s : State) (t : Nat) : State := (s.at t).bridgeDue.fabricDue.powerDue.coolStandby

/-- A write of POWER_REQUEST by the physical function or over SMBus (Table 13.16): ignored while PENDING, REFUSED while the
management core does not run (R371). -/
def State.doPowerReg (s : State) (w : Nat) (fail : Option Nat) : State :=
  let tag := bits w 23 16
  if s.dget kPowerResult = resPending ∨ s.dead then s
  else if !s.rel.mgmtUp then (s.dset kPowerResult resRefused).modPow (fun p => { p with tag := tag })
  else s.powerRequest tag (bits w 3 0) fail
/-- A write of POWER_TARGET (R407): refused while PENDING, but for a target above the state being entered, which is a wake. -/
def State.doPowerTarget (s : State) (r : Requester) (c : Nat) (fail : Option Nat) : Nat × State :=
  if 3 < c then (stRange, s)
  else if s.dget kPowerResult ≠ resPending then (stOk, s.powerRequest 0 c fail)
  else match s.pow.entry with
    | some e =>
      if c < powerCode e.target then
        (stOk, (s.modPow (fun p => { p with next := some (0, c) })).wakeEvent (0x1000 + (if (match r with
          | .rope _ _ => true
          | _ => false) then 0 else 1)))
      else (stState, s)
    | none => (stState, s)
/-- POWER_REQUEST (R407). -/
def execPowerRequest (src : RegSource) (w : Nat) (fail : Option Nat) (t : Nat) (s : State) : Res :=
  let s := s.reach t
  .next (match src with
    | .func f => if f = 0 ∧ s.hostSees 0 then s.doPowerReg w fail else s
    | .smbus => s.doPowerReg w fail
    | .entry r => s.typed r kPowerTarget w (fun s => s.doPowerTarget r w fail))

/-! ### Host operations and wake events -/

/-- Do the edge routers hold host operations: from AP1 to the end of the entry (R409)? -/
def State.holdsOps (s : State) : Bool := match s.pow.entry with
  | some e => decide (e.aps.getD 0 0 ≤ s.now)
  | none => false
/-- SLOT_GO (R322, Table 12.8): the bytes named are copied; a length out of range finishes OPCODE; a write while BUSY has no effect; during an entry the
operation is held. -/
def execSlotGo (f k w t : Nat) (s : State) : Res :=
  let s := s.reach t
  let n := w % 2 ^ 12
  .next (if !s.hostSees f || decide (8 < f) || decide (16 ≤ k) || (s.slot f k).busy then s
    else
      let s := s.modOp f k (fun q => { q with
        busy := true
        done := false
        result := none })
      if n < 32 ∨ 2080 < n ∨ n % 8 ≠ 0 ∨ w / 2 ^ 12 ≠ 0 then s.modOp f k (fun q => { q with result := some (qOpcode, 0) })
      else
        let b := Machine.slice (s.slot f k).buffer 0 n
        if s.holdsOps then s.modPow (fun p => { p with heldOps := p.heldOps ++ [(f, k, b)] }) else s.issueBlock f k b)
/-- HOST_HEARTBEAT (R324, Table 13.15); a heartbeat armed during entry to STANDBY or PARKED is a wake (Table 15.11). -/
def execHostHeartbeat (f w t : Nat) (s : State) : Res :=
  let s := s.reach t
  .next (if !s.hostSees f || decide (8 < f) then s
    else
      let s := s.doHeartbeat f w
      match s.pow.entry with
      | some e => if w % 2 ^ 32 ≠ 0 ∧ e.target ≠ .drowse then s.wakeEvent (0x1100 + f) else s
      | none => s)
/-- PERST_N_RELEASE (R381, R407): the endpoint enters Detect; in STANDBY and PARKED, and on the way there, the release is a wake. -/
def execPerstNRelease (t : Nat) (s : State) : Res :=
  let s := s.reach t
  .next (if !s.ports.perst || s.dead then s
    else
      let s := s.modPorts (fun p => { p with perst := false })
      let s := if s.iodOn then s.dset kPcieState 1 else s
      match s.pow.entry with
      | some e => if e.target ≠ .drowse then s.wakeEvent 0x1300 else s
      | none => if s.memOn then s else s.wakeEvent 0x1300)
/-- WAKE_GPIO (R407): an edge of a pin; on the pin of WAKE_GPIO and with the polarity of WAKE_EDGE it is a wake. -/
def execWakeGpio (pin : Nat) (rising : Bool) (t : Nat) (s : State) : Res :=
  let s := s.reach t
  .next (if 8 ≤ pin ∨ s.dead then s
    else
      let s := s.modPins (fun p => { p with gpio := setBit p.gpio pin rising, gpioAt := mset dZero p.gpioAt pin s.now })
      if s.dget kWakeGpio = pin ∧ (s.dget kWakeEdge == 0) = rising then s.wakeEvent (0x1200 + pin) else s)
/-- RETENTION_LOST (R277): the retained contents of a half's CMP (0) or MEM (1) domain are lost. -/
def execRetentionLost (h dom : Nat) (s : State) : Res :=
  .next (if 2 ≤ h ∨ 2 ≤ dom then s
    else if dom = 0 ∧ s.pow.state ≠ .active then
      (s.dadd kRetentionLost 1).modPow (fun p => { p with retLost := ((List.range 64).map (64 * h + ·)) ++ p.retLost.filter (fun c => c / 64 != h) })
    else if dom = 1 ∧ s.pow.state = .standby then
      (s.dadd kRetentionLost 1).modPow (fun p => { p with memLost := h :: p.memLost.filter (· != h) })
    else s)

/-- Every queue and sync object of the slices of half `h`, UNUSED: the system's ones are listed so. -/
def unusedQueues (h : Nat) (m : SMap Queue) : SMap Queue :=
  m.filter (fun e => decide (e.1 / 16384 < 32 * h)) ++
    (List.range 32).flatMap (fun i => (List.range 64).map (fun j => (16384 * (32 * h + i) + 16320 + j, ({} : Queue)))) ++
    m.filter (fun e => decide (32 * h + 32 ≤ e.1 / 16384))
/-- The same for sync objects. -/
def unusedSyncs (h : Nat) (m : SMap SyncObj) : SMap SyncObj :=
  m.filter (fun e => decide (e.1 / 1024 < 32 * h)) ++
    (List.range 32).flatMap (fun i => (List.range 64).map (fun j => (1024 * (32 * h + i) + 960 + j, ({} : SyncObj)))) ++
    m.filter (fun e => decide (32 * h + 32 ≤ e.1 / 1024))
/-- The slice domain of half `h` has lost its contents (R277): its queues and sync objects are UNUSED, with the notifications bound to them
ended (R321), and the operations that waited there finish ABORTED; grants stay. -/
def State.loseSlices (s : State) (h : Nat) : State :=
  let mine := fun i => i / 32 == h
  let gone := (s.slices.filter (fun e => mine e.1)).flatMap (fun e => e.2.waits.map (fun w => (e.1, w)))
  let s := s.each ((s.slices.map (·.1)).filter mine) (fun s i => s.modSlice i (fun x => { x with waits := [], hold := [], groups := [] }))
  let s := { s with
    queues := unusedQueues h s.queues
    syncs := unusedSyncs h s.syncs }
  let s := s.each (List.range 9) (fun s f => s.each (List.range 8) (fun s k =>
    let v := mget dZero (s.func f).notify k
    if 2 ^ 31 ≤ v ∧ mine ((v - 2 ^ 31) / 16384) then s.modFunc f (fun g => { g with notify := mset dZero g.notify k (v - 2 ^ 31) }) else s))
  ((s.modMem (fun m => { m with sram := m.sram.filter (fun e => !mine (e.1 / sramSize)) })).abortAll gone).settle
/-- A wake completes (R411): the domains are on, the supplies nominal, links train; the request finishes DONE. -/
def State.wakeDone (s : State) (target : PowerState) : State :=
  let up := s.pow.state = .standby
  let s := s.modPow (fun p => { p with state := target, waking := none })
  let s := (s.dset kPowerResult resDone).dset kDeviceState (if target = .active then devOperational else devLowPower)
  let s := if !up then s
    else
      let s := (s.each s.pow.memLost (fun s h => s.loseSlices h)).modPow (fun p => { p with memLost := [] })
      let s := s.dset kPcieState (if s.ports.perst then 0 else 1)
      s.each [0, 1] (fun s p => if s.dget (kPortEnable p) = 1 then s.modDataPort p (fun q => { q with training := true }) else s)
  let s := if target = .active then
      (s.each (List.range 8) (fun s n => s.modPart n (fun p => { p with needVolt := [] }))).each [0, 1] (fun s h =>
        s.modHalf h (fun q => { q with supply := profNominal q.profile })) else s
  s.afterPower

/-! ### Profiles and clocks (R401 to R404) -/

/-- PROFILE_REQUEST of half `h`. -/
def kProfReq (h : Nat) : Nat := if h = 0 then kProfileRequestWest else kProfileRequestEast
/-- The profile that half `h` should run: the request, but efficiency during a coolant loss (R423). -/
def State.profWanted (s : State) (h : Nat) : Nat := if s.flag 4 then 1 else s.dget (kProfReq h)
/-- The wake-on-event clocks of the running partitions of half `h` are clamped by the profiles now in force (R177). -/
def State.clampWoe (s : State) (h : Nat) : State := s.each (s.halfParts h) (fun s n =>
  let clk := s.woeActual n
  (s.modPart n (fun p => { p with woeClock := clk })).dset (kWoeClockActual n) (if (s.part n).woe then clk else 0))
/-- Half `h` switches to profile `q` (R402): its window and ceiling, the nominal voltage, the clamp of the wake-on-event clocks, and
the instant it has settled (R400). -/
def State.switchProf (s : State) (h q : Nat) : State :=
  let v0 := s.volt h
  let f := s.takeFree
  let v1 := profNominal q
  let s := f.2.each (List.range 8) (fun s n => s.modPart n (fun p => { p with needVolt := p.needVolt.filter (fun e => e.1 != h) }))
  let settle := s.now + f.1.toNat % (50 * (max v0 v1 - min v0 v1) + 1) + 2000
  ((s.modHalf h (fun x => { x with
    profile := q
    supply := v1
    pendProf := none
    holding := false
    ceiling := profTop q
    settleAt := settle })).clampWoe h).dadd kProfileChanges 1
/-- The wanted profile of half `h` pursued: at once with no partition, else at a common gap. -/
def State.pursueProf (s : State) (h : Nat) : State :=
  let q := s.profWanted h
  if q = (s.half h).profile then s.modHalf h (fun x => { x with pendProf := none, holding := false })
  else if (s.halfParts h).isEmpty then s.switchProf h q
  else if (s.half h).pendProf.map (·.1) = some q then s
  else s.modHalf h (fun x => { x with pendProf := some (q, s.now) })
/-- A write of PROFILE_REQUEST. -/
def State.doProfReq (s : State) (h v : Nat) : Nat × State :=
  if 2 ≤ v then (stRange, s) else (stOk, (s.dset (kProfReq h) v).pursueProf h)
/-- PROFILE_REQUEST (R402). -/
def execProfileRequest (r : Requester) (h v t : Nat) (s : State) : Res :=
  let s := s.reach t
  .next (if 2 ≤ h then s else s.typed r (kProfReq h) v (fun s => s.doProfReq h v))
/-- PROFILE_WAIT_TIMEOUT (R402): firmware holds each partition of the half at its next belay. -/
def execProfileWaitTimeout (h t : Nat) (s : State) : Res :=
  let s := s.at t
  .next (match (s.half h).pendProf with
    | none => s
    | some q =>
      if 2 ≤ h ∨ !s.rel.mgmtUp ∨ s.now < q.2 + s.dget kProfileWait * 1000000 then s
      else
        let shut := (s.halfParts h).filter (fun n => !(s.part n).seq.isOpen)
        s.modHalf h (fun x => { x with
          holding := true
          held := x.held ++ shut.filter (fun n => !x.held.contains n) }))
/-- PROFILE_CHANGE (R402): at a common gap. -/
def execProfileChange (h t : Nat) (s : State) : Res :=
  let s := s.at t
  .next (match (s.half h).pendProf with
    | none => s
    | some q => if 2 ≤ h ∨ !s.rel.mgmtUp ∨ (s.halfParts h).any (fun n => (s.part n).seq.isOpen) then s else s.switchProf h q.1)

/-- A write of FABRIC_CLOCK_REQ (R404). -/
def State.doClockReq (s : State) (h v : Nat) : Nat × State :=
  if v < 500 ∨ 2000 < v ∨ v % 250 ≠ 0 then (stRange, s) else (stOk, s.dset (kClockReq h) v)
/-- FABRIC_CLOCK_REQ (R404): FABRIC_CLOCK_CHANGE then applies it. -/
def execFabricClockReq (r : Requester) (h v t : Nat) (s : State) : Res :=
  let s := s.reach t
  .next (if 2 ≤ h then s else s.typed r (kClockReq h) v (fun s => s.doClockReq h v))
/-- Both halves' clocks as the hardware limits leave them. -/
def State.setClocks (s : State) : State := s.each [0, 1] (fun s h => s.modHalf h (fun x => { x with clock := s.clockTarget h }))

/-! ### The firmware loop and the governor's limits (R413 to R416) -/

/-- The profile maximum of module power in W (Table 15.2). -/
def State.profMax (s : State) : Nat :=
  if s.pow.west.profile = 0 ∧ s.pow.east.profile = 0 then 320 else if s.pow.west.profile = 1 ∧ s.pow.east.profile = 1 then 140 else 230
/-- The hardware power limit (Table 15.9). -/
def State.limitW (s : State) : Nat := min (s.dget kPowerLimit) s.profMax
/-- The entry of a temperature: west, east, I/O die. -/
def kTj (d : Nat) : Nat := if d = 0 then kTjWest else if d = 1 then kTjEast else kTjIo
/-- A temperature noted, with its peak and bit 6 of EMERGENCY_FLAGS. -/
def State.noteTj (s : State) (d : Nat) (x : F32) : State :=
  let s := (s.dset (kTj d) x.toNat).modPow (fun p => { p with sensedAt := s.now })
  let s := if flt (BitVec.ofNat 32 (s.dget kTjPeak)) x then s.dset kTjPeak x.toNat else s
  if [0, 1, 2].any (fun d => flt (fofNat (s.dget kJunctionTarget + 5)) (BitVec.ofNat 32 (s.dget (kTj d)))) then s.raiseFlag 6 else s.dropFlag 6
/-- Is a reading, times `a`, below the integer `b`? -/
def below (a : Nat) (x : F32) (b : Int) : Bool := numLt (numMul (numInt a) (f32 x)) (numInt b)
/-- Is a reading above the integer `b`? -/
def above (x : F32) (b : Int) : Bool := numLt (numInt b) (f32 x)
/-- One run of the loop of R413 for a half: temperature `tj`, power `p`, power target, junction target, request, and whether this is
the half of the higher power. The clock bound 2,000 stands for none. -/
def loopHalf (x : Half) (tj p : F32) (target jt req : Nat) (hotter : Bool) : Half × Bool :=
  let lo := profFloor x.profile
  let top := profTop x.profile
  let calm := below 1 tj ((jt : Int) - 3)
  let down := above tj jt || (above p target && hotter)
  let up := calm && below 10 p (9 * target)
  let ceil := if down then max (x.ceiling - 10) lo else if up then min (x.ceiling + 10) top else x.ceiling
  let hot := if ceil = lo ∧ above tj (jt + 3) then x.hotMs + 1 else 0
  let f := min req x.clockCap
  let cut := decide (100 ≤ hot) && decide (1000 < f)
  let f1 := if cut then f - 250 else f
  let cool := if calm then x.coolMs + 1 else 0
  let rise := decide (1000 ≤ cool) && decide (f1 < req)
  let f2 := if rise then f1 + 250 else f1
  ({ x with
    ceiling := ceil
    hotMs := if cut then 0 else hot
    coolMs := if rise then 0 else cool
    clockCap := if cut || rise then (if f2 < req then f2 else 2000) else x.clockCap }, cut)
/-- THERMAL_LOOP (R413) with the readings of its instant; the loop stops while the management core does not run (R447). -/
def execThermalLoop (h : Nat) (tj : LoopTemps) (power : BitVec 32) (t : Nat) (hotter : Bool) (s : State) : Res :=
  let s := s.at t
  .next (if 2 ≤ h ∨ !s.answers then s
    else
      let s := ((s.noteTj h tj.half).noteTj 2 tj.io).dset kModulePower power.toNat
      let target := if s.flag 4 then s.dget kCoolantLossPower else 95 * s.limitW / 100
      let q := loopHalf (s.half h) tj.half power target (s.dget kJunctionTarget) (s.dget (kClockReq h)) hotter
      let s := s.modHalf h (fun _ => q.1)
      let s := if q.2 then s.dadd kFwClockReductions 1 else s
      s.modHalf h (fun x => { x with clock := s.clockTarget h }))

/-- POWER_LIMIT (R414, R421: whatever the coolant conditions): power has been over the limit for `held` µs since the limit engaged. -/
def execPowerLimit (held t : Nat) (s : State) : Res :=
  let s := s.at t
  .next (if s.dead then s
    else
      let fresh := s.pow.west.limitBase.isNone
      let vw := s.volt 0
      let ve := s.volt 1
      let s := if fresh then
          ((s.modHalf 0 (fun x => { x with limitBase := some vw })).modHalf 1 (fun x => { x with limitBase := some ve })).dadd kPowerLimitEvents 1
        else s
      let s := s.modPow (fun p => { p with limitHeld := max held p.limitHeld, limitOff := p.limitOff || decide (10000 ≤ held) })
      (s.raiseFlag 3).setClocks)
/-- HALF_CURRENT (R414, R421): the half's supply goes to its floor for 1 ms. -/
def execHalfCurrent (h t : Nat) (s : State) : Res :=
  let s := s.at t
  .next (if 2 ≤ h ∨ s.dead then s
    else
      let fresh := (s.half h).currentAt.isNone
      let s := s.modHalf h (fun x => { x with currentAt := some s.now })
      (if fresh then s.dadd kPowerLimitEvents 1 else s).raiseFlag 3)
/-- JUNCTION_THROTTLE (R414; R421: also with coolant flow or inlet outside its limits): a sensor of the west half (0), the east half (1) or the I/O die (2) reaches THROTTLE_TEMP. -/
def execJunctionThrottle (dom : Nat) (temp : BitVec 32) (t : Nat) (s : State) : Res :=
  let s := s.at t
  .next (if 3 ≤ dom ∨ s.dead ∨ below 1 temp (s.dget kThrottleTemp) then s
    else
      let s := s.noteTj dom temp
      ((if s.flag dom then s else s.dadd kThrottleEvents 1).raiseFlag dom).setClocks)
/-- Bit 3 falls once neither the power limit nor a half-current limit acts. -/
def State.limitsOver (s : State) : State :=
  if s.pow.west.limitBase.isNone && s.pow.west.currentAt.isNone && s.pow.east.currentAt.isNone then s.dropFlag 3 else s
/-- LIMIT_RELEASE (R414): the limit ends once its condition of Table 15.9 has held, for the power limit and the throttle over 10 ms, and the clock returns
to the request (R404). -/
def execLimitRelease (k : LimitKind) (t : Nat) (s : State) : Res :=
  let s := s.at t
  .next (if s.dead then s else match k with
    | .powerLimit p us =>
      if us < 10000 ∨ !below 10 p (9 * s.limitW) then s
      else
      let s := (s.modHalf 0 (fun x => { x with limitBase := none })).modHalf 1 (fun x => { x with limitBase := none })
      ((s.modPow (fun p => { p with limitHeld := 0, limitOff := false })).limitsOver).setClocks
    | .halfCurrent h => match (s.half h).currentAt with
      | some a => if h < 2 ∧ a + 1000000 ≤ s.now then (s.modHalf h (fun x => { x with currentAt := none })).limitsOver else s
      | none => s
    | .throttle d temp us =>
      if d < 3 ∧ 10000 ≤ us ∧ below 1 temp ((s.dget kThrottleTemp : Int) - 5) then ((s.noteTj d temp).dropFlag d).setClocks else s)

/-- What the clocks leave when they stop (R415): nothing that runs, and nothing but PORST_N follows. -/
def State.stopClocks (s : State) : State :=
  let s := { s with cores := [], clusters := [], parts := [], hauls := [], remote := [], streams := [], groups := [], queues := [], syncs := [], slices := [] }
  let s := s.modPorts (fun p => { p with funcs := [(0, { present := false })], data := [] })
  (s.modFab (fun f => { f with unacked := [] })).modRel (fun r => { r with mgmtUp := false })
/-- THERMAL_TRIP (R415; R421: also with coolant flow or inlet outside its limits): THERMTRIP_N and FAULT_N asserted, READY low, regulators and clocks off, the trip record written. -/
def execThermalTrip (sensor : Nat) (temp : BitVec 32) (t : Nat) (s : State) : Res :=
  let s := s.at t
  .next (if s.dead || below 1 temp 110 then s
    else
      let trip := natLe 8 s.tsnNow ++ natLe 2 sensor ++ natLe 2 0 ++ natLe 4 temp.toNat
      let s := ((s.dset kTripRecord (leNat trip)).dadd kLifeThermalTrips 1).modPins (fun p => { p with tripN := true, ready := false })
      (s.updateFaultN.modPow (fun p => { p with
        tripped := true
        entry := none
        waking := none
        next := none
        deferred := []
        heldOps := [] })).stopClocks)

/-! ### Coolant (R421 to R423) -/

/-- A source of coolant loss fires: the loss is declared, and the part acts by COOLANT_LOSS_ACTION. -/
def State.coolLoss (s : State) (src : CoolantSource) : State :=
  let s := s.modPow (fun p => { p with coolSrc := src :: p.coolSrc.filter (· != src), coolClear := none })
  if s.flag 4 then s
  else
    let s := ((s.raiseFlag 4).dadd kCoolantLosses 1).dset kCoolantState 1
    let s := (s.pursueProf 0).pursueProf 1
    if s.dget kCoolantLossAction = 0 then s
    else
      let s := s.each ((List.range 8).filter (fun n => (s.part n).state == PartState.enabled)) (fun s n => s.disableBelay n)
      (s.modPow (fun p => { p with standby := true })).coolStandby
/-- Does a report or its absence show a loss now? -/
def State.reportLoss (s : State) : Bool :=
  s.pow.coolSrc.contains .report || (s.pow.coolSrc.contains .timeout && s.dget kCoolantReportTimeout != 0)
/-- How long, in ns, the pin of COOLANT_OK_GPIO has shown a loss (`bad`) or none; nothing where no pin is named or it shows the other level. -/
def State.pinFor (s : State) (bad : Bool) : Option Nat :=
  let g := s.dget kCoolantOkGpio
  if g < 8 ∧ (bit s.pins.gpio g == (s.dget kCoolantOkLevel == 1)) = !bad then some (s.now - mget dZero s.pins.gpioAt g) else none
/-- The source that an event shows. -/
def eventSource : CoolantEvent → CoolantSource
  | .gpio => .gpio
  | .report => .report
  | .timeout => .timeout
  | .rise _ _ => .rise
/-- COOLANT_LOSS (R422): a source shows a loss; the sources of the dictionary show what was written. -/
def execCoolantLoss (src : CoolantEvent) (t : Nat) (s : State) : Res :=
  let s := s.reach t
  let due := match src with
    | .gpio => (match s.pinFor true with
      | some d => decide (10000000 ≤ d)
      | none => false)
    | .rise rate change => above rate (s.dget kRiseRateLimit) && !above (fabs change) 10
    | x => s.pow.coolSrc.contains (eventSource x)
  .next (if s.dead || !due then s else s.coolLoss (eventSource src))
/-- Has every source shown no loss for 10 s (R422)? The rise rate shows none below half of RISE_RATE_LIMIT. -/
def State.coolantCalm (s : State) (c : CoolantCalm) : Bool :=
  !s.reportLoss && (match s.pow.coolClear with
      | some a => decide (a + 10000000000 ≤ s.now)
      | none => true) &&
    (!s.pow.coolSrc.contains .gpio || decide (8 ≤ s.dget kCoolantOkGpio) || (match s.pinFor false with
      | some d => decide (10000000000 ≤ d)
      | none => false)) && (s.pinFor true).isNone &&
    (!s.pow.coolSrc.contains .rise || (decide (10000 ≤ c.ms) && below 2 c.rate (s.dget kRiseRateLimit)))
/-- COOLANT_LOSS_END (R422): every source has shown no loss for 10 s; the requested profiles return. -/
def execCoolantLossEnd (t : CoolantCalm) (s : State) : Res :=
  let s := s.reach t.t
  .next (if !s.flag 4 || !s.coolantCalm t || s.dead then s
    else
      let s := (s.modPow (fun p => { p with coolSrc := [], coolClear := none })).dset kCoolantState 0
      ((s.dropFlag 4).pursueProf 0).pursueProf 1)
/-- A write of COOLANT_REPORT: flow in mL/min and inlet temperature. -/
def State.doCoolReport (s : State) (flow inlet : Nat) : State :=
  let s := ((s.dset kLastFlow flow).dset kLastInlet inlet).modPow (fun p => { p with
    reportAt := s.now
    coolSrc := p.coolSrc.filter (· != .timeout) })
  if flow < 1200 ∨ flt (fofNat 45) (BitVec.ofNat 32 inlet) then s.coolLoss .report
  else
    s.modPow (fun p => { p with
      coolSrc := p.coolSrc.filter (· != .report)
      coolClear := some (p.coolClear.getD s.now) })
/-- COOLANT_REPORT (R422). -/
def execCoolantReport (r : Requester) (flow inlet t : Nat) (s : State) : Res :=
  let s := s.reach t
  .next (s.typed r kCoolantReport 0 (fun s => (stOk, s.doCoolReport (flow % 2 ^ 32) (inlet % 2 ^ 32))))
/-- COOLANT_REPORT_TIMEOUT (R422). -/
def execCoolantReportTimeout (t : Nat) (s : State) : Res :=
  let s := s.reach t
  let ms := s.dget kCoolantReportTimeout
  .next (if s.dead ∨ ms = 0 ∨ s.now < s.pow.reportAt + ms * 1000000 then s else s.coolLoss .timeout)

end Sys2Proof.Machine
end

