-- ==== Sys2Proof/Machine/Security.lean ====
section
/-!
DEFINITION. Identity, firmware, attestation, licences and debug (chapter 17, R390 to R392). What only the security engine knows is
opaque (assumption 10 [DESIGN CHOICE, safe]).
-/

namespace Sys2Proof.Machine

/-! ### Identity (R455, R456, R460) -/

/-- DEVICE_KEY_DIGEST. -/
def deviceKeyDigest : Bytes := shake256 idkPublic
/-- DBG: is debug open? -/
def State.dbg (s : State) : Nat := if s.sec.scopes = 0 then 0 else 1
/-- AK_PUBLIC (R455): AK's seeds are 48 bytes of SHAKE256 over the label, DS, the measurement of the image that the boot ROM started, and DBG. -/
def State.akPublic (s : State) : Bytes := slhPublic (shakeOut 6 (ascii "KGX-AK" ++ deviceSecret ++ slotMeas s.sec.runImg ++ natLe 1 s.dbg))
/-- AK_CERT (R460): signed at the boot, with the image that it started and BOOT_COUNT as it stood then (assumption 45 [DEDUCED, unsafe]). -/
def State.akCert (s : State) : Bytes :=
  let x := s.sec.runImg
  let body := natLe 4 0x54534C41 ++ natLe 2 1 ++ natLe 1 s.dbg ++ natLe 1 x.svn ++ natLe 4 x.version ++ natLe 4 bootRomVersion ++
    natLe 4 s.sec.certBoot ++ natLe 12 0 ++ s.akPublic ++ slotMeas x ++ natLe 32 0
  body ++ fixLen 17088 (Config.slhSign idkPublic body)

/-- Is the BOOT group locked? -/
def State.bootLocked (s : State) : Bool := bit (s.dget kLockState) 3

/-! ### Staging and activation (R465 to R468) -/

/-- Is staging refused for its state? -/
def State.stageBusy (s : State) (chunk : Bool) : Bool :=
  let st := s.dget kFwState
  s.bootMode != 0 || (st == 1 && !(chunk && s.sec.chunks.isSome)) || st == 2 || st == 5 || st == 6
/-- FW_STATE FAILED for a reason. -/
def State.fwFail (s : State) (code : Nat) : State :=
  ((s.dset kFwState 4).dset kFwError code).modSec (fun x => { x with chunks := none, copying := none })
/-- Slot B empties: its image is written only in part. -/
def State.eraseB (s : State) : State := (s.overClear 0xC00000 0x400000).modSec (fun x => { x with slotB := {}, rejected := false })
/-- FW_COMMAND STAGE: the image is copied from LPDDR6. -/
def State.doStage (s : State) : Nat × State :=
  let a := s.dget kFwStageAddr
  let n := s.dget kFwStageLength
  if s.bootLocked then (stAccess, s)
  else if s.stageBusy false ∨ !s.memOn then (stState, s)
  else if n < 30080 ∨ a % 32 ≠ 0 ∨ ¬ (framesOf a n).all (fun f => softOwner (s.frameOwner f) && s.frameOwner f != 0xFF) ∨ !s.spaceOk spLp a n then (stArgument, s)
  else
    let s := (s.eraseB.dset kFwState 1).dset kFwError 0
    (stOk, if s.spaceBad spLp a n then s.fwFail fwMemory else s.modSec (fun x => { x with copying := some (s.lpRead a n), chunks := none }))
/-- A write of FW_CHUNK. -/
def State.doFwChunk (s : State) (b : Bytes) : Nat × State :=
  let o := fieldAt b 0 4
  let total := fieldAt b 4 4
  let d := b.drop 8
  if b.length < 9 ∨ 1024 < b.length then (stLength, s)
  else if s.bootLocked then (stAccess, s)
  else if s.stageBusy true then (stState, s)
  else
    let old := if o = 0 then some (total, []) else s.sec.chunks
    let s := if o = 0 then (s.eraseB.dset kFwState 1).dset kFwError 0 else s
    match old with
    | none => (stOk, s.fwFail fwOrder)
    | some c =>
      if c.1 ≠ total ∨ c.2.length ≠ o ∨ total < o + d.length then (stOk, s.fwFail fwOrder)
      else
        let s := s.modSec (fun x => { x with chunks := some (total, c.2 ++ d) })
        (stOk, if o + d.length = total then s.dset kFwState 2 else s)
/-- FW_COMMAND ACTIVATE. -/
def State.doActivate (s : State) : Nat × State := if s.dget kFwState = 3 then (stOk, s.dset kFwState 5) else (stState, s)
/-- FW_COMMAND CANCEL. -/
def State.doCancel (s : State) : Nat × State := if s.dget kFwState = 5 then (stOk, s.dset kFwState 3) else (stState, s)
/-- FW_COMMAND CONFIRM. -/
def State.doConfirm (s : State) : Nat × State := if s.onTrial then (stOk, s.confirmTrial) else (stState, s)
/-- FW_COMMAND REJECT. -/
def State.doReject (s : State) : Nat × State :=
  if s.onTrial then (stOk, ((s.writeBoot 0).modSec (fun x => { x with rejected := true })).dset kTrialResult 3) else (stState, s)
/-- FW_COMMAND COMMIT_SVN. -/
def State.doCommitSvn (s : State) : Nat × State :=
  if s.bootMode = 0 ∧ s.sec.running = 0 then (stOk, (s.modSec (fun x => { x with svnDue := true })).svnTick) else (stState, s)
/-- A write of FW_COMMAND. -/
def State.doFwCommand (s : State) (v : Nat) : Nat × State :=
  if v = 1 then s.doStage else if v = 2 then s.doActivate else if v = 3 then s.doCancel else if v = 4 then s.doConfirm
  else if v = 5 then s.doReject else if v = 6 then s.doCommitSvn else (stRange, s)

/-- STAGE (R465). -/
def execStage (r : Requester) (t : Nat) (s : State) : Res := .next ((s.reach t).svnTick.typed r kFwCommand 1 State.doStage)
/-- FW_CHUNK (R465). -/
def execFwChunk (r : Requester) (data : Bytes) (t : Nat) (s : State) : Res :=
  .next ((s.reach t).svnTick.typed r kFwChunk 0 (fun s => s.doFwChunk data))
/-- STAGING_VERIFY (R465): slot B is complete and verified. In recovery mode the boot ROM's device reset is then due (R459). -/
def execStagingVerify (t : Nat) (s : State) : Res :=
  let s := (s.reach t).svnTick
  let img := match s.sec.copying with
    | some b => if s.dget kFwState = 1 then some b else none
    | none => if s.dget kFwState = 2 then s.sec.chunks.map (·.2) else none
  .next (match img with
    | none => s
    | some b =>
      let e := s.fwCheck b
      let s := s.modSec (fun x => { x with slotB := fwSlotOf b (e == 0), chunks := none, copying := none })
      let s := (s.dset kFwError e).dset kFwState (if e = 0 then 3 else 4)
      if s.sec.recovery ∧ e = 0 then s.modSec (fun x => { x with resetDue := true }) else s)
/-- ACTIVATE (R466). -/
def execActivate (r : Requester) (t : Nat) (s : State) : Res := .next ((s.reach t).typed r kFwCommand 2 State.doActivate)
/-- CANCEL (R466). -/
def execCancel (r : Requester) (t : Nat) (s : State) : Res := .next ((s.reach t).typed r kFwCommand 3 State.doCancel)
/-- CONFIRM (R467). -/
def execConfirm (r : Requester) (t : Nat) (s : State) : Res := .next ((s.reach t).typed r kFwCommand 4 State.doConfirm)
/-- REJECT (R467). -/
def execReject (r : Requester) (t : Nat) (s : State) : Res := .next ((s.reach t).typed r kFwCommand 5 State.doReject)
/-- COMMIT_SVN (R468). -/
def execCommitSvn (r : Requester) (t : Nat) (s : State) : Res := .next ((s.reach t).typed r kFwCommand 6 State.doCommitSvn)

/-! ### Attestation (R461) -/

/-- PART_STATE (Table 6.10). -/
def stateCode : PartState → Nat
  | .absent => 0
  | .created => 1
  | .ready => 2
  | .enabled => 3
  | .disabling => 4
/-- IMAGE_DIGEST of partition `n`: zero without an ACTIVE slot. -/
def State.imageDigest (s : State) (n : Nat) : Bytes :=
  if (s.part n).active.isSome then hdrDigest (activeSlot (s.part n)).hdr else List.replicate 32 0
/-- The 512 bytes that a quote signs (Table 17.5). -/
def State.quoteBody (s : State) : Bytes :=
  natLe 4 0x54554F51 ++ natLe 2 1 ++ natLe 2 (s.dbg + (if s.onTrial then 2 else 0)) ++ natLe 32 (s.dget kAttestNonce) ++
    natLe 8 s.tsnNow ++ serialBytes ++ slotMeas s.sec.runImg ++ natLe 4 s.sec.runImg.version ++ natLe 1 s.sec.runImg.svn ++
    natLe 1 s.sec.svnFused ++ natLe 1 (s.dget kLockState) ++ natLe 1 0 ++ natLe 4 bootRomVersion ++ natLe 4 (s.dget kFeaturesLicensed) ++
    s.fpDigest ++ (List.range 8).flatMap s.imageDigest ++ (List.range 8).flatMap (fun n => natLe 1 (stateCode (s.part n).state)) ++ natLe 104 0
/-- ATTEST_COMMAND QUOTE. -/
def State.doQuote (s : State) : Nat × State :=
  if s.dget kAttestState = 1 then (stState, s)
  else
    let b := s.quoteBody
    (stOk, (s.dset kAttestState 1).modSec (fun x => { x with signing := b, quote := [] }))
/-- QUOTE (R461). -/
def execQuote (r : Requester) (t : Nat) (s : State) : Res := .next ((s.reach t).svnTick.typed r kAttestCommand 1 State.doQuote)
/-- QUOTE_SIGNED (R461). -/
def execQuoteSigned (t : Nat) (s : State) : Res :=
  let s := s.reach t
  .next (if s.dget kAttestState ≠ 1 ∨ !s.answers then s
    else
      let q := s.sec.signing ++ fixLen 17088 (Config.slhSign s.akPublic s.sec.signing)
      ((s.dset kAttestState 2).dadd kQuotes 1).modSec (fun x => { x with quote := q, signing := [] }))

/-! ### Licences (R390 to R392) -/

/-- Is the licence valid on this part (R391)? -/
def licenceValid (b : Bytes) : Bool :=
  b.length == 30048 && fieldAt b 0 4 == 0x4E43494C && fieldAt b 4 2 == 1 && fieldAt b 6 2 == 0 && fieldAt b 8 4 != 0 &&
    decide (fieldAt b 0x0C 4 < 2) && fieldAt b 0x10 4 == 0x4B4C0800 && fieldAt b 0x14 4 == 0 && Machine.slice b 0x18 16 == serialBytes &&
    Machine.slice b 0x28 32 == deviceKeyDigest && fieldAt b 0x50 176 == 0 &&
    Config.slhVerify (Config.romKey 4) (Machine.slice b 0 256) (Machine.slice b 256 29792)
/-- Licence slot `k`. -/
def State.licence (s : State) (k : Nat) : Option Licence := mget dNone s.floor.licences k
/-- The licence slots as their bytes have them at bring-up: after a descriptor has written into a slot, it is occupied where LMAGIC stands
(assumption 96 [DESIGN CHOICE, unsafe]). -/
def State.loadLicences (s : State) : State := s.each ((List.range 32).filter (fun k => s.overIn (0x400000 + 0x8000 * k) 0x8000)) (fun s k =>
  let b := s.mramBytes (0x400000 + 0x8000 * k) 30048
  s.modFloor (fun f => { f with licences := mset dNone f.licences k (if fieldAt b 0 4 = 0x4E43494C then some ⟨fieldAt b 8 4, fieldAt b 0x0C 4, b⟩ else none) }))
/-- The entries that follow from the licence slots (R391). -/
def State.licenceEntries (s : State) : State :=
  let l := (List.range 32).filterMap s.licence
  let f := (l.filter (fun x => licenceValid x.raw)).foldl (fun a x => a ||| x.features) 0
  ((s.dset kLicencesInstalled l.length).dset kLicencesInvalid (l.filter (fun x => !licenceValid x.raw)).length).dset kFeaturesLicensed f
/-- A write of LICENCE_INSTALL. -/
def State.doLicenceInstall (s : State) (b : Bytes) : Nat × State :=
  let id := fieldAt b 8 4
  if b.length ≠ 30048 then (stLength, s)
  else if bit (s.dget kLockState) 2 then (stAccess, s)
  else if !licenceValid b then (stArgument, s)
  else match (List.range 32).find? (fun k => (s.licence k).isNone) with
    | none => (stState, s)
    | some k =>
      if ((List.range 32).filterMap s.licence).any (fun x => x.id == id) then (stState, s)
      else (stOk, ((s.overClear (0x400000 + 0x8000 * k) 0x8000).modFloor (fun f => { f with licences := mset dNone f.licences k (some ⟨id, fieldAt b 0x0C 4, b⟩) })).licenceEntries)
/-- A write of LICENCE_REMOVE. Assumption 69 [DEDUCED, unsafe]. -/
def State.doLicenceRemove (s : State) (id : Nat) : Nat × State :=
  if bit (s.dget kLockState) 2 then (stAccess, s)
  else match (List.range 32).find? (fun k => match s.licence k with
      | some x => x.id == id
      | none => false) with
    | none => (stArgument, s)
    | some k => (stOk, ((s.overClear (0x400000 + 0x8000 * k) 0x8000).modFloor (fun f => { f with licences := mset dNone f.licences k none })).licenceEntries)
/-- LICENCE_INSTALL (R392). -/
def execLicenceInstall (r : Requester) (data : Bytes) (t : Nat) (s : State) : Res :=
  .next ((s.reach t).typed r kLicenceInstall 0 (fun s => s.doLicenceInstall data))
/-- LICENCE_REMOVE (R392). -/
def execLicenceRemove (r : Requester) (id t : Nat) (s : State) : Res :=
  .next ((s.reach t).typed r kLicenceRemove id (fun s => s.doLicenceRemove id))

/-! ### Debug and JTAG (R463, R464) -/

/-- DEBUG_CHALLENGE: 32 bytes of the random source (assumption 11 [DESIGN CHOICE, safe]). -/
def State.debugChallenge (s : State) : Bytes := (List.range 32).map (Config.freeByte s.sec.challenge)
/-- A new challenge. -/
def State.newChallenge (s : State) : State :=
  (s.modSec (fun x => { x with challenge := s.clk.free })).modClk (fun c => { c with free := c.free + 1 })
/-- Is the debug token accepted? A token with a reserved field that is not 0 is not well formed: assumption 109 [DEDUCED, unsafe]. -/
def State.tokenOk (s : State) (b : Bytes) : Bool :=
  fieldAt b 0 4 == 0x4E4B5444 && fieldAt b 4 2 == 1 && fieldAt b 6 2 == 0 && decide (fieldAt b 8 4 < 8) && fieldAt b 0x0C 4 == 0 &&
    fieldAt b 0x40 192 == 0 && Machine.slice b 0x10 16 == serialBytes && Machine.slice b 0x20 32 == s.debugChallenge &&
    Config.slhVerify (Config.romKey 5) (Machine.slice b 0 256) (Machine.slice b 256 29792)
/-- A write of DEBUG_TOKEN: the challenge is renewed after it. -/
def State.doDebugToken (s : State) (b : Bytes) : Nat × State :=
  if b.length ≠ 30048 then (stLength, s)
  else if bit (s.dget kLockState) 1 then (stAccess, s.newChallenge)
  else if s.tokenOk b then (stOk, ((s.dset kDebugState 1).modSec (fun x => { x with armed := fieldAt b 8 4 })).newChallenge)
  else (stArgument, s.newChallenge)
/-- DEBUG_TOKEN (R464). -/
def execDebugToken (r : Requester) (data : Bytes) (t : Nat) (s : State) : Res :=
  .next ((s.reach t).typed r kDebugToken 0 (fun s => s.doDebugToken data))
/-- A write of JTAG_MODE: OPEN is refused. -/
def State.doJtagMode (s : State) (v : Nat) : Nat × State := if 2 ≤ v then (stRange, s) else (stOk, s.dset kJtagMode v)
/-- JTAG_MODE (R463); shifts through the TAP are left out: assumption 75 [DESIGN CHOICE, safe]. -/
def execJtagMode (r : Requester) (v t : Nat) (s : State) : Res := .next ((s.reach t).typed r kJtagMode v (fun s => s.doJtagMode v))
/-- A write of LOCK_SET (R366): bits set to 1 lock; the DEBUG lock ends an armed debug token (R464). -/
def State.doLockSet (s : State) (v : Nat) : Nat × State :=
  let s := s.dset kLockState (s.dget kLockState ||| v % 16)
  (stOk, if bit v 1 ∧ s.dget kDebugState = 1 then (s.dset kDebugState 0).modSec (fun x => { x with armed := 0 }) else s)
/-- LOCK_SET (R366). -/
def execLockSet (r : Requester) (v t : Nat) (s : State) : Res := .next ((s.reach t).typed r kLockSet v (fun s => s.doLockSet v))

end Sys2Proof.Machine
end

