-- ==== Sys2Proof/Machine/Resets.lean ====
section
/-!
DEFINITION. Core, cluster and partition resets (R393 to R395), and the request of a device reset (R396). What a reset clears is cleared as it begins;
it is then in progress for a free time up to that of Table 14.6 (assumption 37 [DEDUCED, unsafe]).
-/

namespace Sys2Proof.Machine

/-- A core's station state, accumulators, cache and counters cleared; its neuron state, records, outlier map, slot and part in
continuity stay (Table 14.6). -/
def State.resetCoreUnit (s : State) (c : Nat) : State :=
  ((s.clearAcc c).clearCounters c).modCore c (fun k => { mode := k.mode, cairn := k.cairn, catchUp := k.catchUp })
/-- A cluster's cores, leaf marks, long-delay store and controller (Table 14.6). -/
def State.resetClusterUnit (s : State) (cl : Nat) (fails : List Nat) : State :=
  let s := s.each (s.clCores cl) (fun s c => s.resetCoreUnit c)
  let s := s.modCluster cl (fun q => { journal := q.journal, jNext := q.jNext })
  let s := s.modFab (fun f => { f with recv := f.recv.filter (fun e => e.1 % 512 != cl) })
  s.each (s.clCores cl) (fun s c => s.testCore c (!fails.contains c))

/-- A reset refused (R393): counted. -/
def State.refuseReset (s : State) (code : Nat) : Nat × State := (code, s.dadd kResetsRefused 1)
/-- A reset begins: it is in progress for a free time of at most `ms` (Table 14.6). -/
def State.beginReset (s : State) (scope unit ms : Nat) : State :=
  let f := s.takeFree
  f.2.modFloor (fun x => { x with resets := [(scope, unit, s.now + f.1.toNat % (ms * 1000000 + 1))] })
/-- Does a reset of the scope contain one in progress (Table 14.7)? -/
def State.contains (s : State) (scope unit : Nat) (r : Nat × Nat × Nat) : Bool :=
  let cl := if r.1 = 1 then r.2.1 / 16 else r.2.1
  if scope = 2 then r.1 != 3 && cl == unit
  else scope == 3 && (if r.1 = 3 then r.2.1 == unit else s.partOf cl == some unit)
/-- A reset that its row accepts: it begins, or waits for one in progress that its scope contains, or is refused (Table 14.7). -/
def State.orQueue (s : State) (scope unit : Nat) (fails : List Nat) (go : State → State) : Nat × State :=
  if s.liveResets.isEmpty then (stOk, go s)
  else if s.liveResets.all (s.contains scope unit) then (stOk, s.modFloor (fun x => { x with queued := x.queued ++ [(scope, unit, fails)] }))
  else s.refuseReset stState
/-- CORE scope: the core's partition must not run. -/
def State.doCoreReset (s : State) (c : Nat) (pass : Bool) : Nat × State :=
  if !s.corePresent c then s.refuseReset stArgument
  else if running (s.coreP c) || !s.cmpOn then s.refuseReset stState
  else s.orQueue 1 c [] (fun s => ((s.beginReset 1 c 1).resetCoreUnit c).dadd kResetsCore 1 |>.testCore c pass)
/-- The work of a CLUSTER reset. -/
def State.clusterResetNow (s : State) (cl : Nat) (fails : List Nat) : State :=
  (((s.beginReset 2 cl 5).resetEndpoint (0x80 + cl)).resetClusterUnit cl fails).dadd kResetsCluster 1
/-- Does the partition of a cluster run? -/
def State.clusterRuns (s : State) (cl : Nat) : Bool := match s.partOf cl with
  | some n => running (s.part n)
  | none => false
/-- CLUSTER scope. -/
def State.doClusterReset (s : State) (cl : Nat) (fails : List Nat) : Nat × State :=
  if 128 ≤ cl ∨ (s.clCores cl).isEmpty then s.refuseReset stArgument
  else if s.clusterRuns cl || !s.cmpOn then s.refuseReset stState
  else s.orQueue 2 cl fails (fun s => s.clusterResetNow cl fails)

/-- The journal records that JOURNAL still holds are written (R136). -/
def State.flushJournal (s : State) (cl : Nat) : State :=
  let l := (s.cluster cl).journalBuf
  (s.modCluster cl (fun q => { q with journalBuf := [] })).journalPut cl l
/-- A core absorbs its work, and INTEGRATE finishes its sweep, whose spikes are withheld (R171). -/
def State.absorbOut (s : State) (c : Nat) : State :=
  let s := if s.mayAbsorb c then s.absorbCore c else s
  let s := if s.liveCore c && !(s.core c).sweepDone then (s.integrateAll c).flushJournal (clusterOf c) else s
  (s.emitWaiting (activeSlot (s.coreP c)) c ((s.core c).emitQ.length + 1)).flushJournal (clusterOf c)
/-- Step 1 of R395: an immediate disable carried to its end. A SWAP that has not taken effect is cancelled (Table 14.7), and a spare's replay is
abandoned: the spare stays in service. The cairns are of a run that is over, so a takeover that has not begun is cold. -/
def State.absorbPart (s : State) (n : Nat) : State :=
  let s := s.modPart n (fun p => { p with pendSwap := false, swapCopy := false })
  let s := (s.each (s.partCores n) (fun s c => s.modCore c (fun k => { k with
      catchUp := if k.mode = .failed then k.catchUp.map (fun u => { u with cold := true }) else none
      cairn := {}
      mode := if k.mode = .excused then .live else k.mode }))).modRel
    (fun r => { r with replays := r.replays.filter (fun c => !(s.partCores n).contains c) })
  if !running (s.part n) then s
  else if !(s.part n).seq.isOpen then s.disableEffect n
  else
    let s := s.disableAbsorb n
    let s := s.each (s.partCores n) (fun s c => s.absorbOut c)
    let s := s.each (partClusters (s.part n)) (fun s cl => s.flushJournal cl)
    (({ s with hauls := s.hauls.filter (fun e => match e.2 with
        | some h => h.part != n
        | none => true) }).closePitch n).disableEffect n
/-- Traces and update banks of a projection set to zero (step 6). -/
def State.zeroTraces (s : State) (t : Tile) : State :=
  let s := s.each (List.range (s.tileField t 0x08 4)) (fun s i => s.tileWrite t (s.areaOff t 0x24 + 16 * i) (List.replicate 8 0))
  let s := s.each (List.range (s.tileField t 0x0C 4)) (fun s i => s.tileWrite t (s.areaOff t 0x28 + 8 * i) (List.replicate 8 0))
  let z := List.replicate (8 * s.tileField t 0x10 4) (0 : Byte)
  (s.tileWrite t (s.updOff t 0 0) z).tileWrite t (s.updOff t 1 0) z
/-- An image slot after a partition reset: LOADING and FAILED slots are EMPTY (step 5). -/
def State.resetSlot (s : State) (n i : Nat) : State :=
  let st := (slotAt (s.part n) i).state
  if st = .loading ∨ st = .failed then s.emptySlot n i .empty else s
/-- Is the index one of the status indices that a partition reset clears (step 7)? -/
def resetStatus (n i : Nat) : Bool := i == 0x2120 + n || i == 0x3041 + 0x100 * n || i == 0x3051 + 0x100 * n || i == 0x3061 + 0x100 * n
/-- What the status indices show of the guard and of the projections returns to its defaults (step 7). -/
def State.clearStatus (s : State) (n : Nat) : State :=
  let s := { s with dict := s.dict.filter (fun e => !resetStatus n (e.1 / 256)) }
  let s := s.modPart n (fun p => { p with win := { p.win with groups := [] }, snap := {} })
  s.each (projList (activeSlot (s.part n))) (fun s k => s.modProj n k (fun q => { q with last := 0, moved := false, told := true }))
/-- The work of a PARTITION reset: the steps of R395. -/
def State.partitionResetNow (s : State) (n : Nat) (fails : List Nat) : State :=
  let s := s.beginReset 3 n 8
  let s := (s.each (projList (activeSlot (s.part n))) (fun s p => s.abandonApply n p)).absorbPart n
  let s := (s.each (projList (activeSlot (s.part n))) (fun s p => s.abandonApply n p)).abandonCommit n
  let eps := (n + 1) :: (partClusters (s.part n)).map (0x80 + ·)
  let s := (s.each eps (fun s e => s.resetEndpoint e)).abortDescs eps.contains
  let s := s.each (partClusters (s.part n)) (fun s cl => s.resetClusterUnit cl fails)
  let s := (s.modRem 1 n (fun b => { b with counts := [] })).modRem 2 n (fun b => { b with counts := [] })
  let s := (s.resetSlot n 0).resetSlot n 1
  let s := s.modPart n (fun p => { p with loading := [], pendSwap := false, swapCopy := false })
  let sl := activeSlot (s.part n)
  let s := s.each (s.imageCores n) (fun s c => s.loadCore sl c)
  let s := (sl.tiles.filter (fun t => t.kind == 5)).foldl (fun s t => s.zeroTraces t) s
  let s := match (s.part n).active with
    | some i => s.setSlot n i (fun q => { q with fresh := true })
    | none => s
  let s := (s.dset (kStationEnable n) 0).modPart n (fun p => { p with stations := 0 })
  let s := s.each ((List.range 32).filter (fun k => s.holder k == some n)) (fun s k => (s.doStreamEnable k 0).2)
  let mine := (List.range 256).filter (fun g => s.holder (32 + g) == some n)
  let s := (s.doGroupEnable (mine.foldl (fun m g => setBit m g false) (s.dget kGroupEnable))).2
  ((s.clearStatus n).modPart n (fun p => { p with state := if p.active.isSome then .ready else .created })).dadd kResetsPartition 1
/-- PARTITION scope. -/
def State.doPartitionReset (s : State) (n : Nat) (fails : List Nat) : Nat × State :=
  if 8 ≤ n ∨ (s.part n).state = .absent then s.refuseReset stArgument
  else if !s.cmpOn then s.refuseReset stState
  else s.orQueue 3 n fails (fun s => s.partitionResetNow n fails)
/-- A queued reset runs once none is in progress, if its row still accepts it (Table 14.7). -/
def State.runQueued (s : State) (q : Nat × Nat × List Nat) : State :=
  if !s.liveResets.isEmpty then s.modFloor (fun x => { x with queued := x.queued ++ [q] })
  else if q.1 = 2 then (if s.clusterRuns q.2.1 || !s.cmpOn then s else s.clusterResetNow q.2.1 q.2.2)
  else if (s.part q.2.1).state = .absent || !s.cmpOn then s else s.partitionResetNow q.2.1 q.2.2
/-- The queued resets whose turn has come. -/
def State.resetsDue (s : State) : State := s.floor.queued.foldl State.runQueued (s.modFloor (fun x => { x with queued := [] }))
/-- The state at instant `t` as the management core serves a request: queued resets have begun whose turn has come. -/
def State.serve (s : State) (t : Nat) : State := (s.reach t).resetsDue

/-- A write of RESET_COMMAND (Table 13.20) with the cores that fail their logic test; a DEVICE reset follows as DEVICE_RESET. -/
def State.doResetCommand (s : State) (w : Nat) (fails : List Nat) : Nat × State :=
  let x := bits w 10 0
  match bits w 31 28 with
  | 1 => s.doCoreReset x (!fails.contains x)
  | 2 => s.doClusterReset x fails
  | 3 => s.doPartitionReset x fails
  | 4 => (stOk, s.modFloor (fun f => { f with resetDue := true }))
  | _ => (stRange, s)
/-- CORE_RESET (R393). -/
def execCoreReset (r : Requester) (c : Nat) (pass : Bool) (t : Nat) (s : State) : Res :=
  .next ((s.serve t).typed r kResetCommand (2 ^ 28 + c) (fun s => s.doCoreReset c pass))
/-- CLUSTER_RESET (R393). -/
def execClusterReset (r : Requester) (cl : Nat) (fails : List Nat) (t : Nat) (s : State) : Res :=
  .next ((s.serve t).typed r kResetCommand (2 ^ 29 + cl) (fun s => s.doClusterReset cl fails))
/-- PARTITION_RESET (R395). -/
def execPartitionReset (r : Requester) (n : Nat) (fails : List Nat) (t : Nat) (s : State) : Res :=
  .next ((s.serve t).typed r kResetCommand (2 ^ 29 + 2 ^ 28 + n) (fun s => s.doPartitionReset n fails))

end Sys2Proof.Machine
end

