-- ==== Sys2Proof/Machine/Settings.lean ====
section
/-!
DEFINITION. A write of any entry of the dictionary (R349, R350, R352, R373): its checks, its effect at once or at the moment that its
entry's rule gives, and the configuration store (R374 to R376).
-/

namespace Sys2Proof.Machine

/-! ### Kinds of entries -/

/-- Is the entry held for each requester (R352)? -/
def perReq (k : Nat) : Bool :=
  (List.range 8).any (fun n => [kGuardGroupSelect n, kProjSelect n, kCoreSelect n, kNaTarget n, kImageSlot n, kLedgerSelect n].contains k) ||
    [kGroupSelect, kQueueSelect, kSyncSelect, kSubchSelect, kCmapSelect, kWeightSelect, kDefectSelect, kFaultSelect, kLicenceSelect].contains k

/-- Does a value satisfy the row's type and range (R349)? -/
def valueOk (e : EntryRow) (v : Nat) : Bool := match e.ty with
  | .str => true
  | .blob => true
  | .f32 => true
  | _ => e.alt.contains v || (decide (e.lo ≤ v) && decide (v ≤ e.hi) && (v - e.lo) % e.step == 0)

/-! ### Effects by index -/

/-- Do the entries whose ranges depend on PERIOD and GUARD keep them with `v` in entry `k` (R47): GUARD at most a quarter of PERIOD,
STRETCH_LIMIT at most PERIOD, SLACK_TARGET at most PERIOD − GUARD? -/
def State.schedFits (s : State) (n k v : Nat) : Bool :=
  let now := fun e => if e = k then v else s.dget e
  decide (4 * now (kGuard n) ≤ now (kPeriod n)) && decide (now (kStretchLimit n) ≤ now (kPeriod n)) &&
    decide (now (kSlackTarget n) + now (kGuard n) ≤ now (kPeriod n))
/-- A schedule entry of partition `n` (R29, R47, R61); what is written while the partition does not run is in force at once. -/
def State.writeSched (s : State) (n j k v : Nat) : Nat × State :=
  if running (s.part n) && [1, 2, 3, 4, 10].contains j then (stState, s)
  else if [kPeriod n, kGuard n, kStretchLimit n, kSlackTarget n].contains k && !s.schedFits n k v then (stRange, s)
  else (stOk, if running (s.part n) then s.dsetHeld k v else (s.dset k v).release (fun x => x == k))

/-- A setting whose new value waits while `busy` (R113, R144, R180, R202, R231). -/
def State.writeHeld (s : State) (busy : Bool) (k v : Nat) : Nat × State := (stOk, if busy then s.dsetHeld k v else (s.dset k v).release (fun x => x == k))

/-- A peer entry (Table 5.12): REMOTE_PARTITION below 8 and a queue pair number of 24 bits; its reserved bits read 0. -/
def State.writePeer (s : State) (n k v : Nat) : Nat × State :=
  if running (s.part n) then (stState, s)
  else if 7 < peerPart v ∨ 2 ^ 24 ≤ peerQpn v then (stRange, s)
  else
    let s := s.dset k (v - bits v 6 1 * 2)
    (stOk, (s.sendReqs 0).sendReqs 1)

/-- A command of partition `n` other than LOAD and ENABLE (R162). -/
def State.partCommand (s : State) (r : Requester) (n v : Nat) : Nat × State :=
  if v = 1 then s.doCreate n [] else if v = 4 then s.doDisable n else if v = 5 then s.doDisableNow n
  else if v = 6 then s.doSwap n else if v = 7 then s.doUnload r n else s.doDestroy n

/-- An entry of 0x3n00 to 0x3nFF: index `i` within the partition's range. A GUARD_ACTION written while the partition does not run governs
clamping from its next pitch on: assumption 82 [DEDUCED, unsafe]. -/
def State.writePart (s : State) (r : Requester) (n i j k v : Nat) : Nat × State :=
  let run := running (s.part n)
  if k = kPartitionCommand n then s.partCommand r n v
  else if k = kClusterMask n then if (s.part n).state = .absent then (stOk, s.dset k v) else (stState, s)
  else if k = kStationEnable n then s.doStationEnable n v
  else if k = kStationDisableNow n then s.doStationNow n v
  else if k = kWoeClock n then s.writeHeld run k v
  else if k = kCounterClear n then s.doCounterClear r n v
  else if k = kGuardAction n then s.writeHeld run k v
  else if i = 0x50 then if 4 ≤ j ∧ run then (stState, s) else
    let o := s.writeHeld run k v
    (o.1, o.2.settleCaches n (s.eff (kCacheAdapt n)) (s.eff (kCacheResidentLimit n)))
  else if i = 0x52 then s.writePeer n k v
  else if i = 0x60 then s.writeHeld run k v
  else if k = kKeepCommand n then s.doKeep n v
  else (stOk, s.dset k v)

/-- An entry of stream `m` (R227, R228, R231). -/
def State.writeStream (s : State) (m j k v : Nat) (b : Bytes) : Nat × State :=
  if j = 1 then s.doStreamEnable m v
  else if j = 2 then s.doStreamNow m v
  else if j = 0x0B then s.doStreamSample m b
  else if j ≤ 5 then if s.dget (kStreamEnable m) = 1 then (stState, s) else (stOk, s.dset k v)
  else s.writeHeld (s.heldRunning m) k v

/-- An entry of output object `m` (R343). -/
def State.writeObj (s : State) (m k v : Nat) : Nat × State :=
  if k = kObjEnable m then s.doObjEnable m v
  else if k = kObjDest m ∧ s.dget (kObjEnable m) = 1 then (stState, s)
  else (stOk, s.dset k v)

/-- An entry of data port `p` (R328, R329, R331). -/
def State.writePort (s : State) (p k v : Nat) : Nat × State :=
  if k = kPortEnable p then s.doPortEnable p v
  else if k = kPortMode p ∧ s.dget (kPortEnable p) = 1 then (stState, s)
  else if k = kSubportAddr p then
    if (List.range 4).any (fun q => decide (128 < v / 256 ^ (17 * q + 16) % 256)) then (stRange, s) else (stOk, (s.dset k v).sendReqs p)
  else (stOk, s.dset k v)

/-- STORE_COMMAND takes effect through the store below; every other entry of the device, memory, fabric and power ranges. -/
def State.writeDevice (s : State) (r : Requester) (k v : Nat) (b : Bytes) : Nat × State :=
  if k = kResetCommand then s.doResetCommand v []
  else if k = kOutputEnable then s.doOutputEnable v
  else if k = kProfileRequestWest then s.doProfReq 0 v
  else if k = kProfileRequestEast then s.doProfReq 1 v
  else if k = kLockSet then s.doLockSet v
  else if k = kPowerTarget then s.doPowerTarget r v none
  else if k = kWakeGpio then if v ≠ 255 ∧ v = s.dget kCoolantOkGpio then (stArgument, s) else (stOk, s.dset k v)
  else if k = kCoolantOkGpio then if v ≠ 255 ∧ v = s.dget kWakeGpio then (stArgument, s) else (stOk, s.dset k v)
  else if k = kFabricClockReqWest then s.doClockReq 0 v
  else if k = kFabricClockReqEast then s.doClockReq 1 v
  else if k = kCoolantReport then (stOk, s.doCoolReport (fieldAt b 0 4) (fieldAt b 4 4))
  else if k = kFaultNSeverity then (stOk, (s.dset k v).updateFaultN)
  else if k = kFaultAck then s.doFaultAck v
  else if k = kTestCommand then if v / 2 ^ 28 = 1 then s.doSwapOut (v % 2 ^ 11) else (stRange, s)
  else if k = kGroupEnable then s.doGroupEnable v
  else if k = kGroupDisableNow then s.doGroupNow v
  else if k = kQueueGrants then s.doGrantWrite 0 b
  else if k = kSyncGrants then s.doGrantWrite 1 b
  else if k = kPageGrants then s.doGrantWrite 2 b
  else if k = kFrameAll then s.doFrameAll v
  else if k = kFrameOwner then s.doFrameOwner b
  else if k = kConflictTarget then if 2048 ≤ v ∧ v < 2 ^ 15 then (stRange, s) else (stOk, s.dset k v)
  else if k = kConflictClear then s.doConflictClear v
  else if k = kRouteCommand then if v = 1 then s.doRebuild else s.doResetWeights
  else if k = kRouteWeights then s.doRouteWeights r b
  else if k = kAddrMode ∨ k = kNodeAddressStored then (stOk, ((s.dset k v).overClear 0x9000 256).readdress)
  else if k = kFwCommand then s.svnTick.doFwCommand v
  else if k = kFwChunk then s.svnTick.doFwChunk b
  else if k = kJtagMode then s.doJtagMode v
  else if k = kDebugToken then s.doDebugToken b
  else if k = kLicenceInstall then s.doLicenceInstall b
  else if k = kLicenceRemove then s.doLicenceRemove v
  else if k = kAttestCommand then s.svnTick.doQuote
  else (stOk, s.dset k v)

/-! ### The configuration store (R374 to R376) -/

/-- Does a name end in one of the words of R374? -/
def endsIn (name word : String) : Bool := word.toList.reverse.isPrefixOf name.toList.reverse
/-- Is the entry storable (R374)? JTAG_MODE reads BOUNDARY at every device reset (R463), so no stored value of it can apply. Assumption 71 [DEDUCED, unsafe]. -/
def storable (e : EntryRow) (index k : Nat) : Bool :=
  (e.acc == .rw || e.acc == .lk) && !perReq k &&
    !(["_ENABLE", "_COMMAND", "_SELECT", "_CLEAR", "_NOW"].any (endsIn e.name)) && !"NA_".toList.isPrefixOf e.name.toList &&
    !(["CADENCE_SOURCE", "CLUSTER_MASK", "IMAGE_ADDR", "IMAGE_LENGTH", "FRAME_OWNER", "STREAM_SAMPLE", "ADDR_MODE", "NODE_ADDRESS_STORED"].contains e.name) &&
    index != 0x5001 && index != 0x2505 && k != kJtagMode
/-- The storable entries, in the order of the tables, index by index. -/
def storableKeys : List Nat := entryRows.flatMap (fun e =>
  (List.range e.count).flatMap (fun i => ((List.range (e.subHi + 1 - e.subLo)).map (fun j => entryKey (e.base + i * e.stride) (e.subLo + j))).filter (fun k => storable e (k / 256) k)))
/-- The value in force of a storable entry, as bytes. -/
def State.storedValue (s : State) (k : Nat) : Bytes :=
  let n := match entryRow (k / 256) (k % 256) with
    | some e => e.maxLen
    | none => 0
  if k = kRouteWeights then s.weightBytes 0 else natLe n (s.eff k)
/-- Entry codes of STORE_STATE. -/
def storeWriting : Nat := 2
/-- The current copy: the valid one with the higher sequence number (R375). -/
def State.currentCopy (s : State) : Option StoreCopy := match s.storeCopy 0, s.storeCopy 1 with
  | some a, some b => if a.seq < b.seq then some b else some a
  | some a, none => some a
  | none, b => b
/-- STORE_COMMAND 1 STORE or 2 ERASE: the copy that is not current is being written (R376). -/
def State.doStore (s : State) (v : Nat) : Nat × State :=
  if s.dget kStoreState = storeWriting then (stState, s)
  else
    let recs := if v = 1 then storableKeys.map (fun k => (k, s.storedValue k)) else []
    let seq := match s.currentCopy with
      | some c => c.seq + 1
      | none => 1
    (stOk, (s.modMem (fun m => { m with storeWr := some ⟨seq % 2 ^ 32, recs⟩ })).dset kStoreState storeWriting)
/-- STORE (R376). -/
def execStore (r : Requester) (t : Nat) (s : State) : Res := .next ((s.reach t).typed r kStoreCommand 1 (fun s => s.doStore 1))
/-- STORE_ERASE (R376). -/
def execStoreErase (r : Requester) (t : Nat) (s : State) : Res := .next ((s.reach t).typed r kStoreCommand 2 (fun s => s.doStore 2))
/-- The entries that show the current copy (Table 13.21). -/
def State.storeEntries (s : State) : State := match s.currentCopy with
  | some c => (s.dset kStoreSequence c.seq).dset kStoreEntries (c.recs.length % 2 ^ 16)
  | none => (s.dset kStoreSequence 0).dset kStoreEntries 0
/-- STORE_WRITE_DONE (R376): the header is written and the copy is current, or an MRAM error leaves the other copy so. -/
def execStoreWriteDone (ok : Bool) (t : Nat) (s : State) : Res :=
  let s := s.reach t
  .next (match s.mem.storeWr with
    | none => s
    | some c =>
      if s.dead then s
      else if !ok then (s.modMem (fun m => { m with storeWr := none })).dset kStoreState 3
      else
        let second := match s.storeCopy 0, s.storeCopy 1 with
          | none, _ => false
          | some _, none => true
          | some a, some b => decide (b.seq ≤ a.seq)
        let s := s.overClear (if second then 0x88000 else 0x10000) 0x78000
        let s := s.modMem (fun m => if second then { m with store1 := some c, storeWr := none } else { m with store0 := some c, storeWr := none })
        (s.dset kStoreState 1).storeEntries)

/-! ### One write -/

/-- A write of a per-requester entry (R352); CMAP_SELECT names a switch of Table 11.8. -/
def State.writeSelect (s : State) (r : Requester) (k v : Nat) : Nat × State :=
  if k = kCmapSelect ∧ switchPorts v = 0 then (stRange, s)
  else (stOk, s.modReq r (fun q => { q with selects := mset entryDefault q.selects k v }))
/-- A count of a readout group is cleared, in the group and in the snapshots of the belays. -/
def State.clearOut (s : State) (g : Nat) (f : OutCounts → OutCounts) : State :=
  (s.modGroup g (fun x => { x with counts := f x.counts })).each (List.range 8) (fun s n =>
    s.modPart n (fun p => { p with snap := { p.snap with outs := mmod dCounts p.snap.outs g f } }))
/-- The write of an rwc entry: back to its default, and read so until the next snapshot of a belay (R350, R353). What a selector
chooses is cleared where it is kept. -/
def State.writeClear (s : State) (r : Requester) (k : Nat) : State :=
  let s := (s.dclear k).each (List.range 8) (fun s n => s.modPart n (fun p => { p with snap := { p.snap with vals := p.snap.vals.filter (fun e => e.1 != k) } }))
  let i := s.sel r kSubchSelect
  let g := s.sel r kGroupSelect
  if k / 256 = 0x5000 then s.each (List.range 64) (fun s i => s.modSlice i (fun x => { x with counts := mset dZero x.counts k 0 }))
  else if k = kSubchCe then s.modSlice i (fun x => { x with ce := 0 })
  else if k = kSubchUe then s.modSlice i (fun x => { x with ue := 0 })
  else if k = kSubchRetrains then s.modSlice i (fun x => { x with retrains := 0 })
  else if k = kPublished then s.clearOut g (fun x => { x with published := 0 })
  else if k = kDecodeLate then s.clearOut g (fun x => { x with late := 0 })
  else if k = kOutClamps then s.clearOut g (fun x => { x with clamps := 0 })
  else if k = kAbsorbedDecode then s.clearOut g (fun x => { x with absorbed := 0 })
  else if k = kCqOverrun then s.modQueue (s.sel r kQueueSelect) (fun x => { x with overrun := false })
  else s
/-- The effect of an accepted value. -/
def State.writeEffect (s : State) (r : Requester) (k v : Nat) (b : Bytes) : Nat × State :=
  let i := k / 256
  let j := k % 256
  if perReq k then s.writeSelect r k v
  else if 0x2110 ≤ i ∧ i < 0x2118 then s.writeSched (i - 0x2110) j k v
  else if 0x3000 ≤ i ∧ i < 0x3800 then s.writePart r (i / 256 - 0x30) (i % 256) j k v
  else if 0x4010 ≤ i ∧ i < 0x4030 then s.writeStream (i - 0x4010) j k v b
  else if 0x1210 ≤ i ∧ i < 0x1230 then s.writeObj (i - 0x1210) k v
  else if 0x1120 ≤ i ∧ i < 0x1122 then s.writePort (i - 0x1120) k v
  else if 0x1130 ≤ i ∧ i < 0x1138 then
    if (List.range 64).any (fun q => decide (63 < v / 256 ^ q % 256)) then (stRange, s) else (stOk, s.dset k v)
  else if k = kStoreCommand then s.doStore v
  else s.writeDevice r k v b
/-- The partition whose 0x3n04 an index is, if one. -/
def naIndex (i : Nat) : Option Nat := if 0x3000 ≤ i ∧ i < 0x3800 ∧ i % 256 = 4 then some (i / 256 - 0x30) else none
/-- A whole value written to an entry by a requester: the status and the state after. No status: the answer waits, for the gap of a
pitch (R178) or for a wake (R406). `tag` is the request's. -/
def State.writeEntry (s : State) (r : Requester) (tag : Option Nat) (k : Nat) (b : Bytes) : Option Nat × State :=
  let v := leNat b
  match entryRow (k / 256) (k % 256) with
  | none => (some (if k % 256 = 0 ∧ entryNsub (k / 256) ≠ 0 then stAccess else stAbsent), s)
  | some e =>
    let c := s.writeCheck r k v
    if c.1 ≠ stOk then (some c.1, c.2)
    else if b.length < e.minLen ∨ e.maxLen < b.length then (some stLength, s)
    else if e.acc == .rwc then (some stOk, s.writeClear r k)
    else if !valueOk e v then (some stRange, s)
    else
      let n := k / 65536 % 16
      if k = kPartitionCommand n ∧ v = 2 then s.orWake r tag n 2 (fun s => s.doLoad r n)
      else if k = kPartitionCommand n ∧ v = 3 then s.orWake r tag n 3 (fun s => s.doEnable n)
      else match naIndex (k / 256) with
        | some m =>
          if k = kNaTarget m then
            let o := s.writeSelect r k v
            (some o.1, o.2)
          else (none, s.naRequest m { req := r, sub := k % 256, target := s.sel r (kNaTarget m), data := some b, tag := tag })
        | none =>
          let o := s.writeEffect r k v b
          (some o.1, o.2)

end Sys2Proof.Machine
end

