-- ==== Sys2Proof/Machine/Readings.lean ====
section
/-!
DEFINITION. What a read of a dictionary entry returns (R353, R373): the value held, the snapshot of the last belay, a copy of the
requester, or a value computed from the state at the moment of the read.
-/

namespace Sys2Proof.Machine

/-! ### Small readings -/

/-- A truth value as a number. -/
def b2n (b : Bool) : Nat := if b then 1 else 0
/-- The phase of a core within the open pitch (R489). -/
def corePhase (k : Core) : Nat :=
  if k.belaySent then 5
  else if !k.isOpen || k.encWait then 1
  else if !k.sweepDone then 2
  else if !k.emitQ.isEmpty || !k.openHauls.isEmpty then 3 else 4
/-- PITCH_PHASE of partition `n` (R489): the least advanced of its cores. -/
def State.pitchPhase (s : State) (n : Nat) : Nat :=
  if (s.part n).seq.isOpen then ((s.partCores n).map (fun c => corePhase (s.core c))).foldl min 5 else 0
/-- TIME_OFFSET (R34): the largest remaining offset of the partitions that run on TSN_TIME. -/
def State.timeOffset (s : State) : Int :=
  (((List.range 8).filter (fun n => running (s.part n) && s.dget (kCadenceSource n) == 1)).map (fun n => (s.part n).seq.slew)).foldl
    (fun a b => if a.natAbs < b.natAbs then b else a) 0
/-- The code of a slot's state (Table 6.15). -/
def slotCode : SlotState → Nat
  | .empty => 0
  | .loading => 1
  | .loaded => 2
  | .active => 3
  | .failed => 4
/-- A slot's bits of SLOT_FLAGS. -/
def slotBits (x : Slot) : Nat := b2n x.mismatch + 2 * b2n x.trimmed + 4 * b2n (x.state != SlotState.empty && hdrDelta x.hdr)
/-- APPLY_STATE: RUNNING while a projection's APPLY works, SWITCH_PENDING while a complete one waits (R192 to R194). -/
def State.applyState (s : State) (n : Nat) : Nat :=
  let l := (activeSlot (s.part n)).projs
  if l.any (fun e => e.2.apply && !e.2.done) then 1 else if l.any (fun e => e.2.apply) then 2 else 0
/-- STREAM_STATE (Table 8.11). -/
def State.streamState (s : State) (k : Nat) : Nat :=
  let q := s.stream k
  if !s.streamPresent k then 4 else if !q.force then 0 else match q.mode with
    | .waiting => 1
    | .running => 2
    | .lost => 3
/-- Does an enabled output object of the holding partition carry group `g`? -/
def State.mappedNow (s : State) (g : Nat) : Bool := (List.range 32).any (fun j =>
  s.dget (kObjEnable j) == 1 && s.holder (32 + g) == some (s.dget (kObjPartition j)) && (s.objGroups j).contains g)
/-- GROUP_STATE of a readout group (R223 to R226). -/
def State.readoutState (s : State) (g : Nat) : Nat :=
  if !s.slicePresent (g % 64) then 4
  else if !(s.rgroup g).force then 0
  else if !s.liveOut g (s.lastRecord g).pitch (s.mappedNow g) then 3
  else if (s.rgroup g).held.isSome then 2 else if s.holding ((s.holder (32 + g)).getD 8) then 3 else 1
/-- READOUT_RECORD: zeros before the first publication. -/
def State.readoutRecord (s : State) (g : Nat) : Bytes :=
  if (s.rgroup g).last.isNone then List.replicate 16 0 else readoutBytes g (s.recordNow g (s.mappedNow g))
/-- CORE_COUNTERS (Table 6.13) of a core as a store of counters holds them. -/
def counterBytes (m : SMap Nat) (c : Nat) : Bytes :=
  (List.range 6).flatMap (fun i => natLe 8 (mget dZero m (c * 256 + 8 * i))) ++
    (List.range 24).flatMap (fun i => natLe 4 (mget dZero m (c * 256 + 0x30 + 4 * i))) ++ natLe 48 0
/-- JOURNAL_COVER: the whole pitches that the journal of a cluster holds (R433). -/
def State.journalCover (s : State) (cl : Nat) : Nat :=
  let q := (s.part ((s.partOf cl).getD 8)).seq
  ((s.cluster cl).journal.filter (fun e => !(q.isOpen && e.1 == q.pitch))).length
/-- LEDGER_RECORD of a pitch: zeros where none is held. -/
def State.ledgerRecord (s : State) (n p : Nat) : Bytes := match (s.part n).ledger.recs.find? (fun l => l.pitch == p) with
  | some l => ledgerBytes l
  | none => List.replicate 32 0
/-- The pitch of a ledger record at an end of the ring; 0 where none is held. -/
def ledgerEnd (l : Option LedgerRec) : Nat := match l with
  | some x => x.pitch
  | none => 0
/-- POWER_LOG: 16 records, newest first (Table 15.7). -/
def State.powerLog (s : State) : Bytes :=
  fixLen 256 (s.pow.log.flatMap (fun e => natLe 8 e.time ++ natLe 1 e.target ++ natLe 1 e.outcome ++ natLe 1 e.point ++ natLe 1 0 ++ natLe 2 e.ident ++ natLe 2 0))
/-- Cores of a cluster in a mode, as a mask. -/
def State.modeMask (s : State) (cl : Nat) (m : CoreMode) : Nat := bitsOf 16 (fun k => (s.core (cl * 16 + k)).mode == m)
/-- Cores of the part in a mode. -/
def State.modeCount (s : State) (m : CoreMode) : Nat := (s.cores.filter (fun e => e.2.mode == m)).length
/-- CAIRN_AGE: the greatest age of a latest cairn among the cluster's cores that have one. -/
def State.cairnAge (s : State) (cl : Nat) : Nat := match s.partOf cl with
  | none => 0
  | some n => min 65535 (((s.clCores cl).filterMap (fun c => (s.core c).cairn.latest)).map (fun p => (s.part n).seq.pitch - p) |>.foldl max 0)
/-- SLOT_INFO of a firmware slot; a slot without an image shows zeros. -/
def State.slotInfo (s : State) (x : FwSlot) (empty : Bool) : Bytes :=
  if empty then List.replicate 16 0
  else natLe 4 x.version ++ natLe 1 x.svn ++ natLe 1 x.key ++ natLe 1 (b2n (s.slotOk x)) ++ natLe 1 0 ++ (slotMeas x).take 8
/-- LICENCE_INFO of licence slot `k`. -/
def State.licenceInfo (s : State) (k : Nat) : Bytes := match s.licence k with
  | some l => natLe 4 l.id ++ natLe 4 l.features ++ natLe 1 (b2n (licenceValid l.raw)) ++ natLe 7 0
  | none => List.replicate 16 0
/-- Operations that wait at a slice and satisfy `p`. -/
def State.waiters (s : State) (i : Nat) (p : Waiter → Bool) : Nat := ((s.slice i).waits.filter p).length
/-- Bytes of a queue's ring in use, or the contributions of a combining queue's round. -/
def queueUsed (q : Queue) : Nat := if q.kind = 0 then 8 * ringUsed q else q.tail
/-- Bytes without the zeros at their end: a string. -/
def strBytes (b : Bytes) : Bytes := (b.reverse.dropWhile (· == 0#8)).reverse
/-- INERT_REASON (Table 8.12). -/
def State.inertReason (s : State) : Nat := b2n s.pins.estop + 2 * (1 - s.dget kOutputEnable) + 4 * b2n (s.dget kObjEnabled == 0)

/-! ### Computed entries, by index -/

/-- 0x1000 (Table 13.19). -/
def State.readIdentity (s : State) (k : Nat) : Option Bytes :=
  if k = kSerialNumber then some (strBytes serialBytes)
  else if k = kSiliconStep then some (strBytes (factoryBytes k 4))
  else if k = kFwVersion then some (natLe 4 s.sec.runImg.version)
  else if k = kBootRomVersion then some (natLe 4 bootRomVersion)
  else if k = kMacBase then some (factoryBytes k 6)
  else none
/-- 0x2000 (Table 13.20). -/
def State.readControl (s : State) (k : Nat) : Option Nat :=
  if k = kEstopState then some (b2n s.pins.estop + 2 * b2n s.pins.estopSeen)
  else if k = kProfileWest then some (s.half 0).profile
  else if k = kProfileEast then some (s.half 1).profile
  else if k = kUptime then some ((s.now - s.clk.bootAt) / 1000000)
  else none
/-- 0x2020 to 0x2022 (Tables 14.6 to 14.8). -/
def State.readFloor (s : State) (r : Requester) (k : Nat) : Option Bytes :=
  if k = kFpRecord then some s.fpRecord
  else if k = kFpDigest then some s.fpDigest
  else if k = kPresentCores then some (natLe 2 s.fpCoreCount)
  else if k = kSpareCores then some (natLe 1 ((List.range 128).filter (fun c => (s.spareOf c).isSome)).length)
  else if k = kSliceMap then some ((List.range 64).map (fun i => if mget dSliceMap s.floor.sliceMap i = 255 then 0xFF#8 else BitVec.ofNat 8 (s.physSlice i)))
  else if k / 256 = 0x2021 then some ((List.range 17).map (fun i => BitVec.ofNat 8 (mget dSliceSlot s.floor.sliceSlots ((k % 256 - 1) * 32 + i))))
  else if k = kDefectEntry then some (s.defectEntry (s.sel r kDefectSelect))
  else none
/-- 0x2100 and 0x212n. -/
def State.readTime (s : State) (k : Nat) : Option Nat :=
  let n := k / 256 - 0x2120
  if k = kTimeNow then some s.tsnNow
  else if k = kTimeOffset then some (ofInt 32 s.timeOffset)
  else if k = kPitchPhase n then some (s.pitchPhase n)
  else if k = kCadenceState n then
    some (if s.dget (kCadenceSource n) = 0 then 0 else if s.dget k = 0 then 1 else s.dget k)
  else none
/-- 0x3n00 to 0x3nFF. -/
def State.readPart (s : State) (r : Requester) (n k : Nat) : Option Bytes :=
  let p := s.part n
  let run := running p
  let sl := activeSlot p
  let g := mget dScale (if run then p.snap.groups else p.win.groups) (s.sel r (kGuardGroupSelect n))
  let pr := mget dProj (if run then p.snap.projs else sl.projs) (s.sel r (kProjSelect n))
  if k = kPartState n then some (natLe 1 (stateCode p.state))
  else if k = kActiveSlot n then some (natLe 1 (p.active.getD 0xFF))
  else if k = kSlot0State n then some (natLe 1 (slotCode p.slot0.state))
  else if k = kSlot1State n then some (natLe 1 (slotCode p.slot1.state))
  else if k = kImageDigest n then some (s.imageDigest n)
  else if k = kSlotFlags n then some (natLe 4 (slotBits p.slot0 + 16 * slotBits p.slot1))
  else if k = kGroupActiveSet n then some (natLe 1 g.cur)
  else if k = kGuardGroupState n then some (natLe 1 (b2n g.nofit))
  else if k = kGroupSat n then some (natLe 2 g.sat)
  else if k = kGroupUnder n then some (natLe 2 g.under)
  else if k = kGroupLastSwitch n then some (natLe 8 (if g.last = 0 then (if run then p.snap.first else p.win.first) else g.last))
  else if k = kCoreCounters n then
    let c := s.sel r (kCoreSelect n)
    some (counterBytes (if run && p.mask.testBit (clusterOf c) then p.snap.counters else s.cm.counters) c)
  else if k = kApplyState n then some (natLe 1 (s.applyState n))
  else if k = kLicensed n then some (natLe 1 (if run then mget dZero p.snap.vals k else b2n s.plasticLicensed))
  else if k = kProjGeneration n then some (natLe 2 pr.gen)
  else if k = kProjOpenBank n then some (natLe 1 pr.bank)
  else if k = kProjLastSwitch n then some (natLe 8 pr.last)
  else if k = kKeepSequence n then some (natLe 4 s.keepSequence)
  else if k = kKeepBytes n then some (natLe 4 ((s.keepSection n).map sectLength |>.getD 0))
  else if k = kKeepDigest n then some (fixLen 32 ((s.keepSection n).map (·.origin) |>.getD []))
  else if k = kKeepCommitPitch n then some (natLe 8 ((s.keepSection n).map (·.pitch) |>.getD 0))
  else none
/-- HOLDING_PARTITION or GROUP_PARTITION of converter `w` (R231, R353): while a partition runs, as at its last belay. -/
def State.holderShown (s : State) (w : Nat) : Nat :=
  match (List.range 8).find? (fun n => running (s.part n) && (s.part n).snap.convs.contains w) with
  | some n => n
  | none => match s.holder w with
    | some n => if running (s.part n) then 0xFF else n
    | none => 0xFF
/-- 0x4000 and the streams. -/
def State.readStream (s : State) (k : Nat) : Option Nat :=
  let m := if k / 256 < 0x4040 then k / 256 - 0x4010 else k / 256 - 0x4040
  let g := match s.holder m with
    | some n => if running (s.part n) then mget dScale (s.part n).snap.groups (2 ^ 15 + m) else (s.stream m).grp
    | none => (s.stream m).grp
  if k = kStreamsPresent then some s.streamsPresent
  else if k = kStreamsRunning then some (bitsOf 32 (fun q => s.streamState q == 2))
  else if k = kStreamsLost then some (bitsOf 32 (fun q => s.streamState q == 3))
  else if k = kStreamQpn m then some (if s.dget (kSource m) = 2 then 0x020000 + m else 0)
  else if k = kStreamState m then some (s.streamState m)
  else if k = kHoldingPartition m then some (s.holderShown m)
  else if k = kEncActiveSet m then some g.cur
  else if k = kEncGuardState m then some (b2n g.nofit)
  else if k = kEncSat m then some g.sat
  else if k = kEncUnder m then some g.under
  else none
/-- 0x4100 to 0x4102. -/
def State.readGroups (s : State) (r : Requester) (k : Nat) : Option Bytes :=
  let g := s.sel r kGroupSelect
  let x := match s.holder (32 + g) with
    | some n => if running (s.part n) then mget dCounts (s.part n).snap.outs g else (s.rgroup g).counts
    | none => (s.rgroup g).counts
  if k = kGroupsPresent then some (natLe 32 s.groupsPresent)
  else if k = kInertReason then some (natLe 1 s.inertReason)
  else if k = kGroupState then some (natLe 1 (s.readoutState g))
  else if k = kGroupPartition then some (natLe 1 (s.holderShown (32 + g)))
  else if k = kPublished then some (natLe 8 x.published)
  else if k = kDecodeLate then some (natLe 4 x.late)
  else if k = kOutClamps then some (natLe 4 x.clamps)
  else if k = kAbsorbedDecode then some (natLe 4 x.absorbed)
  else if k = kReadoutRecord then some (s.readoutRecord g)
  else none
/-- 0x5000 to 0x5003. -/
def State.readQueues (s : State) (r : Requester) (k : Nat) : Option Bytes :=
  let general := s.queues.filter (fun e => decide (e.1 % 16384 < 16320) && s.slicePresent (e.1 / 16384))
  let qn := s.sel r kQueueSelect
  let q := if s.qThere qn then s.queue qn else {}
  let jn := s.sel r kSyncSelect
  let y := if s.yThere jn then s.sync jn else {}
  let each := fun (f : Nat → Nat → Nat) => s.slices.foldl (fun n e => f n (mget dZero e.2.counts k)) 0
  if k = kQueuesOpen then some (natLe 4 (general.filter (fun e => e.2.state == 1)).length)
  else if k = kQueuesOrphaned then some (natLe 4 (general.filter (fun e => e.2.state == 2)).length)
  else if k = kSyncInUse then some (natLe 4 (s.syncs.filter (fun e => decide (e.1 % 1024 < 960) && e.2.kind != 0 && s.slicePresent (e.1 / 1024))).length)
  else if k = kWaitPeak then some (natLe 2 (each max))
  else if k / 256 = 0x5000 then some (if [kMessagesSent, kFullSends, kOrphanSends, kOrphanReturns, kPadRecords].contains k then natLe 8 (each (wrapAdd 64))
    else natLe 4 (each (satAdd 32)))
  else if k = kQueueGrants then some (s.grantBytes 0 (s.dget kGrantSlice))
  else if k = kSyncGrants then some (s.grantBytes 1 (s.dget kGrantSlice))
  else if k = kQueueRecord then some (queueRecord q)
  else if k = kQueueUsed then some (natLe 4 (queueUsed q))
  else if k = kQueueWaiters then some (natLe 2 (s.waiters (qn / 16384) (fun w => decide (w.op < 0x10) && w.op != 7 && w.head.object == qn)))
  else if k = kCqOverrun then some (natLe 1 (b2n q.overrun))
  else if k = kSyncKind then some (natLe 1 y.kind)
  else if k = kSyncOwner then some (natLe 1 y.owner)
  else if k = kSyncValue then some (natLe 8 y.value)
  else if k = kSyncPhase then some (natLe 4 (y.phase % 2 ^ 31 + 2 ^ 31 * b2n y.broken))
  else if k = kSyncWaiters then some (natLe 2 (s.waiters (jn / 1024) (fun w => decide (0x10 ≤ w.op) && w.head.object == jn)))
  else none
/-- 0x2500 to 0x2505. -/
def State.readMemory (s : State) (r : Requester) (k : Nat) : Option Bytes :=
  let i := s.sel r kSubchSelect
  let x := s.slice i
  let out := !mget dSub s.floor.subch i || x.subOut
  if k = kFrameAll then some (natLe 1 s.frameAll)
  else if k = kFramesWest then some (natLe 1 (s.framesHalf 1))
  else if k = kFramesEast then some (natLe 1 (s.framesHalf 2))
  else if k = kLpddr6Usable then some (natLe 8 s.lpUsable)
  else if k = kSubchInService then some (natLe 8 (bitsOf 64 (fun j => mget dSub s.floor.subch j && !(s.slice j).subOut)))
  else if k = kFrameOwner then some ((List.range 236).map (fun f => BitVec.ofNat 8 (s.frameOwner f)))
  else if k = kFrameAllMax then some (natLe 1 s.frameAllMax)
  else if k = kScrubPasses then some (natLe 4 ((listMin ((s.inSet 0 64).map (fun j => (s.slice j).passes))).getD 0))
  else if k = kPoisonedWords then some (natLe 4 (s.mem.poison.length + s.mem.poisonOff.length))
  else if k = kSubchState then some (natLe 1 (b2n out))
  else if k = kSubchCe then some (natLe 4 x.ce)
  else if k = kSubchUe then some (natLe 4 x.ue)
  else if k = kSubchLastError then some (natLe 8 x.lastErr)
  else if k = kSubchRetrains then some (natLe 4 x.retrains)
  else if k = kSubchTemp then some (natLe 1 x.temp)
  else if k = kBgtestHeld then some (natLe 2 s.mem.heldReg.length)
  else if k = kPageGrants then some (s.grantBytes 2 (s.dget kPageSlice))
  else none
/-- 0x2400 to 0x2405. -/
def State.readFabric (s : State) (r : Requester) (k : Nat) : Option Bytes :=
  if k = kFabricClockWest then some (natLe 2 (s.half 0).clock)
  else if k = kFabricClockEast then some (natLe 2 (s.half 1).clock)
  else if k = kColRate then some (natLe 2 s.colRate)
  else if k = kColCreditsWe then some (natLe 1 (s.colCredits 0 1))
  else if k = kColCreditsEw then some (natLe 1 (s.colCredits 1 0))
  else if k = kCmapRecord then some (s.cmapRecord (s.sel r kCmapSelect))
  else if k = kRouteWeights then some (s.weightBytes (s.sel r kWeightSelect))
  else none
/-- 0x2200 to 0x2206. -/
def State.readPower (s : State) (k : Nat) : Option Bytes :=
  if k = kPowerState then some (natLe 1 (powerCode s.pow.state))
  else if k = kPowerLog then some s.powerLog
  else if k = kIslandsGated then some (natLe 2 s.islandsGated)
  else if k = kVoltWest then some (natLe 2 (s.volt 0))
  else if k = kVoltEast then some (natLe 2 (s.volt 1))
  else if k = kCeilingWest then some (natLe 2 (s.half 0).ceiling)
  else if k = kCeilingEast then some (natLe 2 (s.half 1).ceiling)
  else if k = kPowerLimitActive then some (natLe 1 (b2n (s.flag 3)))
  else none
/-- 0x2300 to 0x232n, the clusters and the lifetime counters. -/
def State.readRel (s : State) (r : Requester) (k : Nat) : Option Bytes :=
  let n := k / 256 % 16
  let c := k / 256 - 0x6000
  if k = kFaultRecord then some (s.faultRecord (s.sel r kFaultSelect))
  else if k = kCoresLost then some (natLe 2 (s.modeCount .lost))
  else if k = kCoresCatchingUp then some (natLe 2 (s.modeCount .excused))
  else if k = kSlicesLost then some (natLe 1 (s.slices.filter (fun e => e.2.lost)).length)
  else if k = kHostLossState n then some (natLe 1 (b2n (s.lossOf n)))
  else if k = kLedgerRecord n then some (s.ledgerRecord n (s.sel r (kLedgerSelect n)))
  else if k = kLedgerOldest n then some (natLe 8 (ledgerEnd (s.part n).ledger.recs.head?))
  else if k = kLedgerNewest n then some (natLe 8 (ledgerEnd (s.part n).ledger.recs.getLast?))
  else if k = kClusterPresent c then some (natLe 2 (s.fpCoreMask c))
  else if k = kSlotMap c then some ((List.range 16).map (fun j => BitVec.ofNat 8 (s.slotOf (c * 16 + j))))
  else if k = kSpareSlot c then some (natLe 1 ((s.spareOf c).getD 0xFF))
  else if k = kSlotState c then some ((List.range 17).map (fun j => BitVec.ofNat 8 (s.coreSlot c j)))
  else if k = kClusterUnits c then some (natLe 1 (mget dUnits s.floor.units c))
  else if k = kCatchingUp c then some (natLe 2 (s.modeMask c .excused))
  else if k = kLostCores c then some (natLe 2 (s.modeMask c .lost))
  else if k = kCairnAge c then some (natLe 2 (s.cairnAge c))
  else if k = kJournalCover c then some (natLe 2 (s.journalCover c))
  else if k = kLifeHours then some (natLe 4 (s.now / 3600000000000))
  else none
/-- 0x2600 to 0x2604. -/
def State.readSecurity (s : State) (r : Requester) (k : Nat) : Option Bytes :=
  if k = kIdkPublic then some idkPublic
  else if k = kIdkCert then some (idkCert)
  else if k = kDeviceKeyDigest then some deviceKeyDigest
  else if k = kAkPublic then some s.akPublic
  else if k = kAkCert then some s.akCert
  else if k = kFwRunningSlot then some (natLe 1 s.sec.running)
  else if k = kFwMeasurement then some (slotMeas s.sec.runImg)
  else if k = kFwSvn then some (natLe 1 s.sec.runImg.svn)
  else if k = kSvnFused then some (natLe 1 s.sec.svnFused)
  else if k = kSlotInfoA then some (s.slotInfo s.sec.slotA false)
  else if k = kSlotInfoB then some (s.slotInfo s.sec.slotB s.sec.slotB.meas.isNone)
  else if k = kActivationWait then some (natLe 1 (if s.dget kFwState = 5 then s.activationWait else 0))
  else if k = kBootMode then some (natLe 1 s.bootMode)
  else if k = kFwKeysRevoked then some (natLe 1 s.sec.revoked)
  else if k = kDebugChallenge then some s.debugChallenge
  else if k = kLicenceInfo then some (s.licenceInfo (s.sel r kLicenceSelect))
  else if k = kAttestQuote then some (fixLen 17600 s.sec.quote)
  else none
/-- A computed entry. -/
def State.computed (s : State) (r : Requester) (k : Nat) : Option Bytes :=
  let i := k / 256
  let len := match entryRow i (k % 256) with
    | some e => e.maxLen
    | none => 0
  let num := fun (v : Option Nat) => v.map (natLe len)
  if i = 0x1000 then s.readIdentity k
  else if i = 0x1110 then if k = kHeartbeatArmed then some (natLe 2 (bitsOf 9 (fun f => (s.func f).armed))) else none
  else if i = 0x2000 then num (s.readControl k)
  else if k = kBringupStep then num (some s.stepShown)
  else if 0x2020 ≤ i ∧ i < 0x2023 then s.readFloor r k
  else if 0x2100 ≤ i ∧ i < 0x2128 then num (s.readTime k)
  else if 0x3000 ≤ i ∧ i < 0x3800 then s.readPart r (i / 256 - 0x30) k
  else if 0x4000 ≤ i ∧ i < 0x4060 then num (s.readStream k)
  else if 0x4100 ≤ i ∧ i < 0x4103 then s.readGroups r k
  else if 0x5000 ≤ i ∧ i < 0x5004 then s.readQueues r k
  else if i / 256 = 0x25 then s.readMemory r k
  else if i / 256 = 0x24 then s.readFabric r k
  else if i / 256 = 0x22 then s.readPower k
  else if i / 256 = 0x23 ∨ i / 4096 = 6 ∨ i / 4096 = 7 then s.readRel r k
  else if i / 256 = 0x26 then s.readSecurity r k
  else none

/-! ### One read -/

/-- The partition whose belay snapshot a read of the index shows now (R353). -/
def State.snapOf (s : State) (i : Nat) : Option Nat := (List.range 8).find? (fun n => s.snapIndex n i && running (s.part n))
/-- Is the entry one that only a meter inside the part knows: a free value at each read (assumption 11 [DESIGN CHOICE, safe])? -/
def metered (k : Nat) : Bool := k == kPowerWest || k == kPowerEast
/-- Is the entry a reading of the governor's sensors (R425)? -/
def sensed (k : Nat) : Bool := k == kTjWest || k == kTjEast || k == kTjIo || k == kModulePower
/-- A reading at the read (R425): what the governor last showed, if no time has passed since, else a free value (assumption 11 [DESIGN CHOICE, safe]). -/
def State.readSensed (s : State) (k : Nat) : Bytes × State :=
  if s.now = s.pow.sensedAt then (natLe 4 (s.dget k), s)
  else
    let f := s.takeFree
    (natLe 4 (f.1.toNat % 2 ^ 32), f.2)
/-- ENERGY (Table 15.15) at the read: it has risen by a free amount since the last one (assumption 11 [DESIGN CHOICE, safe]). -/
def State.readEnergy (s : State) : Bytes × State :=
  let f := s.takeFree
  let v := min (2 ^ 64 - 1) (s.dget kEnergy + f.1.toNat % 2 ^ 32)
  (natLe 8 v, f.2.dset kEnergy v)
/-- The bytes of a readable entry for a requester, with the state that the read leaves. Entries that need a gap (R178) and PACK_MASK
are read elsewhere. -/
def State.entryBytes (s : State) (r : Requester) (k : Nat) : Bytes × State := match entryRow (k / 256) (k % 256) with
  | none => (natLe 1 (entryNsub (k / 256)), s)
  | some e =>
    if perReq k then (natLe e.maxLen (s.sel r k), s)
    else if metered k then
      let f := s.takeFree
      (natLe e.maxLen f.1.toNat, f.2)
    else if sensed k then s.readSensed k
    else if k = kEnergy then s.readEnergy
    else if k = kConflictCounters then s.readConflicts (s.dget kConflictTarget)
    else match s.computed r k with
      | some b => (b, s)
      | none =>
        let v := match s.snapOf (k / 256) with
          | some n => mget entryDefault (s.part n).snap.vals k
          | none => s.dget k
        (if e.ty == .str then strBytes (natLe e.maxLen v) else natLe e.maxLen v, s)

end Sys2Proof.Machine
end

