-- ==== Sys2Proof/Machine/Bringup.lean ====
section
/-!
DEFINITION. PORST_N, device resets, bring-up with its reconciliation, the boot ROM's choice of an image, and the restore of the
configuration store (chapters 13, 14 and 17). The command that starts bring-up computes what it finds; until the instant of step 10 the part is in
DEVICE_STATE BRINGUP (assumption 38 [DESIGN CHOICE, unsafe]).
-/

namespace Sys2Proof.Machine

/-! ### What a reset clears and keeps (R393, R396, R480) -/

/-- RESET_CAUSE values: POWER_ON. -/
def causePowerOn : Nat := 0
/-- PORST_N. -/
def causePorst : Nat := 1
/-- RESET_COMMAND. -/
def causeCommand : Nat := 2
/-- THERMAL_TRIP. -/
def causeTrip : Nat := 3
/-- FIRMWARE. -/
def causeFirmware : Nat := 4

/-- Entries that lie in MRAM (Table 14.6): lifetime counters, the trip record, the node address, the fault sequence and the boot
count. -/
def mramEntry (k : Nat) : Bool :=
  [kLifeFaults, kLifeTakeovers, kLifeCoresLost, kLifeThermalTrips, kTripRecord, kAddrMode, kNodeAddressStored, kFaultSeq, kBootCount].contains k ||
    (List.range 8).any (fun n => k == kKeepCommits n)
/-- Entries that the always-on island holds, which a device reset leaves unchanged (R396): the emergency flags, the coolant state,
the links of the field ports, RESULT of POWER_REQUEST (R371) and the state of the 802.1AS counter. Assumption 43 [DEDUCED, unsafe]. -/
def aonEntry (k : Nat) : Bool := [kEmergencyFlags, kEmergencyClearTime, kCoolantState, kF0Link, kF1Link, kPowerResult, kTimeState].contains k
/-- The governor's limits and supplies as a device reset leaves them (R396). -/
def keepPower (p : Power) : Power :=
  { west := { currentAt := p.west.currentAt, limitBase := p.west.limitBase }, east := { currentAt := p.east.currentAt, limitBase := p.east.limitBase },
    tag := p.tag, target := p.target, limitHeld := p.limitHeld, limitOff := p.limitOff, coolSrc := p.coolSrc, coolClear := p.coolClear,
    reportAt := p.reportAt, supplies := p.supplies, vinLow := p.vinLow, vinBack := p.vinBack, clearAt := p.clearAt, deferred := p.deferred }
/-- The part as a reset leaves it before bring-up: everything that is not in MRAM is cleared, READY is low and FAULT_N asserted. With
`aon`, as in a device reset, the always-on island is unchanged; without it, time starts again (Table 14.1, step 1). Every report
logged before counts as acknowledged (assumption 39 [DEDUCED, unsafe]). -/
def State.restart (s : State) (aon : Bool) : State :=
  let r := State.reset
  let seq := s.dget kFaultSeq
  { r with
    pending := s.pending
    outbox := s.outbox
    clk := if aon then { s.clk with bootAt := s.clk.now, quadExt := 0 }
      else { now := s.clk.now, tsn := -(s.clk.now : Int), phaseA := s.clk.phaseA, phaseB := s.clk.phaseB, free := s.clk.free, bootAt := s.clk.now }
    dict := s.dict.filter (fun e => mramEntry e.1 || (aon && aonEntry e.1))
    mem := { mram := s.mem.mram, patched := s.mem.patched, store0 := s.mem.store0, store1 := s.mem.store1 }
    keep := {}
    ports := { perst := s.ports.perst }
    pins := { porst := s.pins.porst, estop := s.pins.estop, estopSeen := s.pins.estop || (aon && s.pins.estopSeen), gpio := s.pins.gpio, gpioAt := s.pins.gpioAt, smbAddr := s.pins.smbAddr, faultN := true, ready := false,
              smbAlert := s.pins.smbAlert || !s.pins.faultN }
    floor := { fuses := s.floor.fuses, defects := s.floor.defects, licences := s.floor.licences }
    pow := if aon then keepPower s.pow else {}
    rel := { log := s.rel.log, records := s.rel.records, acked := seq }
    sec := { slotA := s.sec.slotA, slotB := s.sec.slotB, boot0 := s.sec.boot0, boot1 := s.sec.boot1, engine := true, svnFused := s.sec.svnFused, revoked := s.sec.revoked,
             rejected := s.sec.rejected, armed := s.sec.armed } }

/-! ### The boot ROM (R458, R459, R464) -/

/-- The slot that the boot ROM starts, 0 A or 1 B: the first verifiable one in the order of Table 17.4. -/
def State.bootPick (s : State) : Option Nat :=
  let a := s.slotOk (s.slotNow 0)
  let b := s.slotOk (s.slotNow 1)
  if s.bootMode = 1 ∨ s.bootMode = 2 then (if b then some 1 else if a then some 0 else none)
  else if a then some 0 else if b then some 1 else none
/-- The boot record's MODE once a slot has been chosen. -/
def bootModeAfter (mode slot : Nat) : Nat := if mode = 1 then (if slot = 1 then 3 else 0) else if mode = 3 then 0 else mode
/-- TRIAL_RESULT that the boot ROM sets: FAILED at the end of a trial that was not confirmed. -/
def trialAfter (mode slot : Nat) : Nat := if mode = 3 ∨ (mode = 1 ∧ slot = 0) then 2 else 0
/-- Debug as the boot ROM leaves it: the scopes of an accepted token open for this boot, and a new challenge. -/
def State.bootDebug (s : State) : State :=
  let s := if s.sec.armed = 0 then s
    else ((s.dset kDebugState 2).dset kJtagMode 2).modSec (fun x => { x with scopes := x.armed, armed := 0 })
  s.newChallenge
/-- The boot record written if its MODE changes. -/
def State.setBoot (s : State) (m : Nat) : State := if s.bootMode = m then s else s.writeBoot m
/-- Step 2: an image is started, or recovery mode entered, in which MODE is NORMAL. Before it starts the image, the boot ROM signs the alias certificate,
blocks every read of DS and erases the IDK private key (R455, R460). Assumption 45 [DEDUCED, unsafe]. -/
def State.bootRom (s : State) : State :=
  let s := s.bootDebug
  match s.bootPick with
  | none => (s.setBoot 0).modSec (fun x => { x with recovery := true })
  | some k =>
    let m := s.bootMode
    let s := (s.dset kTrialResult (trialAfter m k)).setBoot (bootModeAfter m k)
    let s := s.modSec (fun x => { x with running := k, runImg := { s.slotNow k with image := [] }, certBoot := s.dget kBootCount, engine := false })
    let s := if s.sec.rejected && s.slotOk (s.slotNow 1) then s.dset kFwState 3 else s
    let s := s.modSec (fun x => { x with rejected := false })
    if k = 1 ∧ s.bootMode = 0 then s.copyB else s

/-! ### Reconciliation (R384 to R386) -/

/-- A unit of the defect log: kind, unit, and the port of a link. -/
abbrev UnitId := Nat × Nat × Nat
/-- DETAIL of a defect-log entry of the start-up test. -/
def noDetail : Nat := 0xFFFFFFFF
/-- The unit of a defect-log entry. -/
def defectUnit (d : Defect) : UnitId := (d.kind, d.unit, if d.kind = 7 then d.detail else noDetail)
/-- Does the part hold such a unit? -/
def unitThere (u : UnitId) : Bool :=
  if u.1 = 1 then decide (u.2.1 / 32 < 128) && decide (u.2.1 % 32 < 17)
  else if u.1 = 2 then decide (u.2.1 / 32 < 4) && decide (u.2.1 % 32 < 17)
  else if u.1 = 3 then decide (u.2.1 < 64)
  else if u.1 = 7 then decide (u.2.2 < switchPorts u.2.1)
  else decide (4 ≤ u.1) && decide (u.1 ≤ 6) && decide (u.2.1 < 128)
/-- The units that fail at this bring-up. -/
def failedUnits (f : BringupFacts) : List UnitId :=
  f.failCores.map (fun c => (1, c, noDetail)) ++ f.failSlices.map (fun c => (2, c, noDetail)) ++ f.failCtrl.map (fun c => (4, c, noDetail)) ++
    f.failStore.map (fun c => (5, c, noDetail)) ++ f.failLeaf.map (fun c => (6, c, noDetail)) ++ f.failSubch.map (fun c => (3, c, noDetail)) ++
    f.failLinks.map (fun l => (7, l.1, l.2))
/-- The units that anything is known against: they fail, the fuses mark them, or the defect log names them. -/
def State.suspects (s : State) (f : BringupFacts) : List UnitId :=
  ((failedUnits f ++ s.floor.fuses.map (fun e => (e.1, e.2, noDetail)) ++ s.floor.defects.map defectUnit).filter unitThere).eraseDups
/-- ORIGIN and DETAIL of the entry for a unit that fails (Tables 14.2, 14.4): the region or word where its start-up memory test failed, all ones for the
logic test. -/
def failOrigin (f : BringupFacts) (u : UnitId) : Nat × Nat :=
  if u.1 = 3 then (5, 0) else if u.1 = 7 then (6, u.2.2)
  else (1, match f.details.find? (fun d => d.1 == u.1 && d.2.1 == u.2.1) with
    | some d => d.2.2
    | none => noDetail)
/-- Is a unit held bad by the log: a START_TEST entry, or two runtime entries (R385)? -/
def loggedPermanent (l : List Defect) : Bool := l.any (fun d => d.origin == 1) || decide (2 ≤ l.length)
/-- The judgement of a unit: 0 good, else its slot-state code of R398; a failure is logged, a return counted. -/
def State.judge (s : State) (f : BringupFacts) (u : UnitId) : Nat × State :=
  let old := s.floor.defects.filter (fun d => defectUnit d == u)
  if s.floor.fuses.contains (u.1, u.2.1) && u.1 != 7 then (2, s)
  else if loggedPermanent old then (4, s)
  else if (failedUnits f).contains u then (3, s.logDefect u.1 (failOrigin f u).1 u.2.1 (failOrigin f u).2)
  else (0, if old.isEmpty then s else s.dset kUnitsReturned (satAdd 16 (s.dget kUnitsReturned) 1))
/-- Every suspect judged: the codes of those that are bad. Assumption 44 [DESIGN CHOICE, unsafe]. -/
def State.judgeAll (s : State) (f : BringupFacts) : List (UnitId × Nat) × State :=
  (s.suspects f).foldl (fun a u =>
    let q := a.2.judge f u
    (if q.1 = 0 then a.1 else a.1 ++ [(u, q.1)], q.2)) ([], s)
/-- The code of a unit. -/
def codeOf (l : List (UnitId × Nat)) (kind unit : Nat) : Nat := match l.find? (fun e => e.1.1 == kind && e.1.2.1 == unit) with
  | some e => e.2
  | none => 0

/-- The good ones among 17 slots. -/
def goodSlots (code : Nat → Nat) : List Nat := (List.range 17).filter (fun i => code i == 0)
/-- A map entry for each of 16 logical units: the slot of its place among the good ones, or 255. -/
def assignSlots (d : Nat → Nat) (m : SMap Nat) (base : Nat) (good : List Nat) : SMap Nat :=
  (List.range 16).foldl (fun m k => mset d m (base + k) (good.getD k 255)) m
/-- A state for each of 17 slots: its code, IN_SERVICE for the first 16 good ones, SPARE for the 17th. -/
def slotStates (d : Nat → Nat) (m : SMap Nat) (base : Nat) (code : Nat → Nat) (good : List Nat) : SMap Nat :=
  (List.range 17).foldl (fun m i => mset d m (base + i) (if code i ≠ 0 then code i else if (good.take 16).contains i then 0 else 1)) m
/-- The logical cores of cluster `cl` assigned (R10, R11); a bad unit of the cluster makes every slot bad (R384). -/
def assignCluster (l : List (UnitId × Nat)) (f : Floor) (cl : Nat) : Floor :=
  let leaf := codeOf l 6 cl == 0
  let ctrl := codeOf l 4 cl == 0
  let store := codeOf l 5 cl == 0
  let all := leaf && ctrl && store
  let code := fun i => let c := codeOf l 1 (cl * 32 + i)
    if c ≠ 0 then c else if all then 0 else 6
  let good := goodSlots code
  { f with
    coreSlots := slotStates dCoreSlot f.coreSlots (cl * 32) code good
    slotMap := assignSlots dSlotMap f.slotMap (cl * 16) good
    fpCores := mset dFpCores f.fpCores cl (2 ^ min 16 good.length - 1)
    units := mset dUnits f.units cl (b2n leaf + 2 * b2n ctrl + 4 * b2n store) }
/-- The logical slices of die `m` assigned (R17, R18). -/
def assignDie (l : List (UnitId × Nat)) (f : Floor) (m : Nat) : Floor :=
  let code := fun i => codeOf l 2 (m * 32 + i)
  let good := goodSlots code
  { f with
    sliceSlots := slotStates dSliceSlot f.sliceSlots (m * 32) code good
    sliceMap := assignSlots dSliceMap f.sliceMap (m * 16) good }
/-- The clusters that the judgement touches. -/
def touchedClusters (l : List (UnitId × Nat)) : List Nat := (l.filterMap (fun e =>
  if e.1.1 = 1 then some (e.1.2.1 / 32) else if 4 ≤ e.1.1 ∧ e.1.1 ≤ 6 then some e.1.2.1 else none)).eraseDups
/-- Step 7: reconciliation, logical assignment, tables without the bad links, and the floor plan. -/
def State.reconcile (s : State) (f : BringupFacts) : State :=
  let before := s.floor.defects.length
  let q := s.judgeAll f
  let l := q.1
  let s := q.2.dset kNewDefects (q.2.floor.defects.length - before)
  let s := s.modFloor (fun x => (touchedClusters l).foldl (assignCluster l) x)
  let s := s.modFloor (fun x => ((l.filter (fun e => e.1.1 == 2)).map (fun e => e.1.2.1 / 32)).eraseDups.foldl (assignDie l) x)
  let s := s.modFloor (fun x =>
    let there := fun i => mget dSliceMap x.sliceMap i != 255
    let sub := (l.filter (fun e => e.1.1 == 3)).foldl (fun m e => mset dSub m e.1.2.1 false) x.subch
    let sub := ((List.range 64).filter (fun i => !there i)).foldl (fun m i => mset dSub m i false) sub
    { x with
      subch := sub
      fpSlices := bitsOf 64 there
      fpSubch := bitsOf 64 (mget dSub sub) })
  let links := (l.filter (fun e => e.1.1 == 7)).map (fun e => (e.1.2.1, e.1.2.2))
  let ends := (links.map (fun e => s.linkKey e.1 e.2)).eraseDups
  (s.modFab (fun x => { x with excluded := ends, leftOut0 := ends, slices0 := s.floor.sliceMap, slices1 := s.floor.sliceMap })).dset kLinksExcluded links.length

/-! ### The configuration store's restore (R377) -/

/-- Does an entry depend on a unit that the floor plan reports absent: a stream's? -/
def State.restAbsent (s : State) (k : Nat) : Bool :=
  decide (0x4010 ≤ k / 256) && decide (k / 256 < 0x4030) && !s.streamPresent (k / 256 - 0x4010)
/-- One record restored, as a write of the physical function; a record that is refused is counted and skipped. -/
def State.restoreOne (s : State) (e : Nat × Bytes) : State :=
  let ok := match entryRow (e.1 / 256) (e.1 % 256) with
    | some row => storable row (e.1 / 256) e.1 && !s.restAbsent e.1
    | none => false
  if !ok then s.dadd kStoreRejects 1
  else
    let o := s.writeEntry .restore none e.1 e.2
    if o.1 = some stOk then o.2 else s.dadd kStoreRejects 1
/-- Step 9: the records of the current copy, in order. -/
def State.restoreStore (s : State) : State := match s.currentCopy with
  | none => s
  | some c => c.recs.foldl State.restoreOne (s.dset kStoreState 1).storeEntries

/-! ### Bring-up (R379, R382) -/

/-- DEVICE_STATE FAILED at a step: READY stays low and FAULT_N asserted. -/
def State.bringFail (s : State) (step : Nat) : State := ((s.dset kDeviceState devFailed).dset kBringupStep step).updateFaultN
/-- ADDR_MODE and NODE_ADDRESS_STORED as the rope settings' bytes have them (R346): a descriptor may have written them. -/
def State.loadRope (s : State) : State :=
  if !s.overIn 0x9000 2 then s
  else (s.dset kAddrMode (fieldAt (s.mramBytes 0x9000 1) 0 1 % 2)).dset kNodeAddressStored (fieldAt (s.mramBytes 0x9001 1) 0 1)
/-- Has the boot ROM started the second slot of Table 17.4's order, from the MODE before (R458)? -/
def bootFallback (mode slot : Nat) : Bool := if mode = 1 ∨ mode = 2 then slot == 0 else slot == 1
/-- Milliseconds from the start of bring-up to READY at the latest (R379). -/
def bootLimit (fallback : Bool) : Nat := if fallback then 635 else 600
/-- Steps 3 to 9, once an image runs, and the instant of step 10. A bring-up that takes longer than R379 allows ends in FAILED. -/
def State.bringFirmware (s : State) (f : BringupFacts) (fallback : Bool) : State :=
  let s := s.openDefects.loadLicences.licenceEntries.readdress
  let s := s.each ((List.range 8).filter (fun n => (s.keepSection n).isSome)) (fun s n => s.dset (kKeepState n) 1)
  if !f.mgmtSramOk then s.bringFail 3
  else
    let s := s.reconcile f
    if s.fpCoreCount = 0 ∨ s.fpSliceCount = 0 then ((s.dset kDeviceState devFailed).report ⟨0x0F01, 3, 0, 0, none, 0, 0⟩).bringFail 7
    else
      let s := s.restoreStore
      if bootLimit fallback < f.time then s.bringFail 9
      else (s.modFloor (fun x => { x with boot := some ⟨s.now, s.now + f.time * 1000000, f.time, fallback⟩ })).bootEnd
/-- Bring-up from step 2, with the cause that RESET_CAUSE shows. The PCIe endpoint enters Detect without waiting for firmware (R381). In recovery mode
the boot ROM answers at the node address of the rope settings (R459). -/
def State.bringUp (s : State) (cause : Nat) (f : BringupFacts) : State :=
  let s := if s.ports.perst then s else s.dset kPcieState 1
  let m := s.bootMode
  let s := (s.dset kResetCause cause).loadRope.bootRom
  if s.sec.recovery then s.readdress.bringFail 2 else s.bringFirmware f (bootFallback m s.sec.running)
/-- A device reset (R393, R396). The limits of the governor act on through it (R378): the clocks stand as they leave them. -/
def State.deviceReset (s : State) (cause : Nat) (f : BringupFacts) : State := ((s.restart true).setClocks).bringUp cause f

/-! ### The commands -/

/-- Has a device reset of this cause become due: RESET_COMMAND accepted, or firmware's own? In recovery mode it is the boot ROM's, once a chunked image in slot B is verifiable (R459). After a thermal trip only PORST_N
follows (R415), and every other cause has a command of its own. -/
def State.resetIsDue (s : State) (cause : Nat) : Bool :=
  (cause == causeCommand && s.floor.resetDue) || (cause == causeFirmware && (if s.sec.recovery then s.sec.resetDue else s.rel.mgmtUp))
/-- DEVICE_RESET (R396). Assumption 46 [DEDUCED, unsafe]. -/
def execDeviceReset (cause : Nat) (f : BringupFacts) (t : Nat) (s : State) : Res :=
  let s := s.reach t
  .next (if s.dead || !s.resetIsDue cause then s else s.deviceReset cause f)
/-- PORST_N acts: the part stops and holds reset, and THERMTRIP_N is released; the next bring-up reports `cause`, unless the part is
held already. -/
def State.holdReset (s : State) (cause : Nat) : State :=
  let c := match s.floor.cause with
    | some c => c
    | none => if s.pow.tripped then causeTrip else cause
  let s := s.restart false
  ((s.modPins (fun p => { p with porst := true })).modFloor (fun x => { x with cause := some c })).modRel (fun r => { r with mgmtUp := false })
/-- PORST_N_ASSERT (R480): an assertion of 10 µs or more acts and one below 1 µs is ignored; between them the spec leaves it open, so
a free value decides (assumption 11 [DESIGN CHOICE, safe]). Assumption 47 [DESIGN CHOICE, safe]. -/
def execPorstNAssert (ns t : Nat) (s : State) : Res :=
  let s := s.at t
  .next (if ns < 1000 then s
    else if 10000 ≤ ns then s.holdReset causePorst
    else
      let f := s.takeFree
      if f.1.toNat % 2 = 1 then f.2.holdReset causePorst else f.2)
/-- BRINGUP (R378, R379): PORST_N is released. -/
def execBringup (f : BringupFacts) (t : Nat) (s : State) : Res :=
  let s := s.at t
  .next (if !s.pins.porst then s
    else
      let c := s.floor.cause.getD causePorst
      let s := (s.modPins (fun p => { p with porst := false })).modFloor (fun x => { x with cause := none })
      let s := s.modClk (fun k => { k with bootAt := k.now, tsn := -(k.now : Int) })
      (s.modRel (fun r => { r with mgmtUp := true })).bringUp c f)
/-- ACTIVATION (R466): the boot record is written with MODE TRIAL, and the device reset follows. -/
def execActivation (f : BringupFacts) (t : Nat) (s : State) : Res :=
  let s := (s.reach t).svnTick
  .next (if s.dget kFwState ≠ 5 ∨ s.activationWait ≠ 0 ∨ !s.answers then s
    else ((s.dset kFwState 6).writeBoot 1).deviceReset causeFirmware f)
/-- WAKE (R411): the wake that is under way completes; from PARKED it is a device reset (R396), at whose end the request finishes DONE. -/
def execWake (f : BringupFacts) (t : Nat) (s : State) : Res :=
  let s := s.reach t
  .next (match s.pow.waking with
    | none => s
    | some target =>
      if s.dead then s
      else if s.pow.state = .parked then s.deviceReset causeFirmware f
      else s.wakeDone target)

end Sys2Proof.Machine
end

