-- ==== Sys2Proof/Machine/Dictionary.lean ====
section
/-!
DEFINITION. The object dictionary's requests (chapter 13): READ, WRITE, READ_INDEX, DESCRIBE and ECHO, the messages that carry them on
the rope and in the mailboxes, and the timers of what the part keeps for a requester.
-/

namespace Sys2Proof.Machine

/-! ### PACK_MASK (R420) -/

/-- The choices of `k` elements of a list, in lexicographic order. -/
def choices : Nat → List Nat → List (List Nat)
  | 0, _ => [[]]
  | _ + 1, [] => []
  | k + 1, x :: r => (choices k r).map (x :: ·) ++ choices (k + 1) r
/-- Clusters that PACK_MASK may name: of no partition, with a present core. -/
def State.packable (s : State) : List Nat := (List.range 128).filter (fun cl => (s.partOf cl).isNone && !(s.clCores cl).isEmpty)
/-- How good a choice of islands is: those already on first, then those in PACK_HALF. -/
def State.packRank (s : State) (isl : List Nat) : Nat :=
  let on := (isl.filter (fun i => !bit s.islandsGated i)).length
  let half := s.dget kPackHalf
  on * 32 + (if half = 2 then 0 else (isl.filter (fun i => i / 8 == half)).length)
/-- The first of the best choices. -/
def State.packBest (s : State) : List (List Nat) → Option (List Nat)
  | [] => none
  | c :: r => match s.packBest r with
    | none => some c
    | some b => if s.packRank c < s.packRank b then some b else some c
/-- The islands of the fewest-island choice that holds `want` of the clusters `free`. -/
def State.packIslands (s : State) (free : List Nat) (want : Nat) : Option (List Nat) :=
  let size := fun i => (free.filter (fun c => c / 8 == i)).length
  let fits := fun (l : List Nat) => decide (want ≤ (l.map size).foldl (· + ·) 0)
  let used := (List.range 16).filter (fun i => 0 < size i)
  match (List.range 17).find? (fun k => (choices k used).any fits) with
  | none => none
  | some k => s.packBest ((choices k used).filter fits)
/-- PACK_MASK, as a number; zero when too few clusters are free. -/
def State.packMaskValue (s : State) : Nat :=
  let want := s.dget kPackClusters
  let free := s.packable
  match s.packIslands free want with
  | none => 0
  | some l => ((free.filter (fun c => l.contains (c / 8))).take want).foldl (fun a c => a + 2 ^ c) 0
/-- The bytes of a readable entry, PACK_MASK included. -/
def State.valueOf (s : State) (r : Requester) (k : Nat) : Bytes × State :=
  if k = kPackMask then (natLe 16 s.packMaskValue, s) else s.entryBytes r k

/-! ### Requests -/

/-- A refusal (R359): its body is INDEX, SUB and a reserved byte. -/
def State.refuse (s : State) (r : Requester) (type tag k code : Nat) : State := s.reply r type code tag (entryHead k)
/-- Does the dictionary define the entry (R347, R348)? -/
def defined (k : Nat) : Bool := (entryRow (k / 256) (k % 256)).isSome || (k % 256 == 0 && entryNsub (k / 256) != 0)
/-- The time that a snapshot or an assembly buffer is kept (R354, R355). -/
def keepNs : Nat := 100000000

/-- The value that a snapshot holds of entry `k`, if it is a snapshot of it. -/
def snapValue (q : ReqState) (k : Nat) : Option Bytes := match q.snapKey with
  | none => none
  | some (i, some sub) => if i = k / 256 ∧ sub = k % 256 then some q.snapVal else none
  | some (i, none) => if i = k / 256 then (q.snapIdx.find? (fun e => e.1 == k % 256)).map (·.2) else none
/-- A READ from the snapshot numbered `snap` (R354). -/
def State.readSnap (s : State) (r : Requester) (tag k off maxlen snap : Nat) : State :=
  let q := s.req r
  if q.snapNo ≠ snap ∨ q.snapKey = none ∨ q.snapAt + keepNs ≤ s.now then s.refuse r 1 tag k stSnapshot
  else match snapValue q k with
    | none => s.refuse r 1 tag k stArgument
    | some v => s.segment r tag k off maxlen snap v
/-- A READ (R353, R354). -/
def State.doRead (s : State) (r : Requester) (tag k off maxlen snap : Nat) : State :=
  if !s.hears r then s
  else if maxlen = 0 ∨ 1024 < maxlen then s.refuse r 1 tag k stMalformed
  else
    let s := s.counted
    if !s.gate 1 k then s.refuse r 1 tag k stState
    else if !defined k then s.refuse r 1 tag k stAbsent
    else if !s.reqReads r k || entryAccess k == .wo then s.refuse r 1 tag k stAccess
    else if snap ≠ 0 then s.readSnap r tag k off maxlen snap
    else if s.domainOff k 0 then s.refuse r 1 tag k stState
    else
      let plain := s.valueOf r k
      match naIndex (k / 256) with
      | some n =>
        if 2 ≤ k % 256 ∧ k % 256 ≤ 5 then
          s.naRequest n { req := r, sub := k % 256, target := s.sel r (kNaTarget n), tag := some tag, off := off, maxlen := maxlen }
        else plain.2.readNew r tag k off maxlen plain.1
      | none => plain.2.readNew r tag k off maxlen plain.1

/-- The subindices of an index that a requester may read (R353). -/
def State.readableSubs (s : State) (r : Requester) (index : Nat) : List Nat :=
  (List.range (entryNsub index + 1)).filter (fun j => defined (entryKey index j) && s.reqReads r (entryKey index j))
/-- A READ_INDEX (R353). -/
def State.doReadIndex (s : State) (r : Requester) (tag index first : Nat) : State :=
  if !s.hears r then s
  else
    let s := s.counted
    let k := entryKey index first
    let subs := s.readableSubs r index
    if !s.gate 3 k then s.refuse r 3 tag k stState
    else if entryNsub index = 0 then s.refuse r 3 tag k stAbsent
    else if subs.isEmpty then s.refuse r 3 tag k stAccess
    else if subs.any (fun j => entryAccess (entryKey index j) != .wo && s.domainOff (entryKey index j) 0) then s.refuse r 3 tag k stState
    else match naIndex index with
      | some n => s.naRequest n { req := r, sub := 0, target := s.sel r (kNaTarget n), tag := some tag, off := first }
      | none =>
        let wo := subs.filter (fun j => entryAccess (entryKey index j) == .wo)
        let q := (subs.filter (fun j => !wo.contains j)).foldl (fun (a : List (Nat × Bytes) × State) j =>
          let v := a.2.valueOf r (entryKey index j)
          (a.1 ++ [(j, v.1)], v.2)) ([], s)
        q.2.readIndexNew r tag index first q.1 wo

/-- The entries whose writes assemble in the security engine's staging buffer (R462). -/
def staged (k : Nat) : Bool := k == kLicenceInstall || k == kDebugToken
/-- Bytes of the assembly buffer of an entry. -/
def asmSize (k : Nat) : Nat := if staged k then 32768 else 4096
/-- Does another requester hold the staging buffer? -/
def State.stagingHeld (s : State) (r : Requester) : Bool :=
  s.reqs.any (fun q => q.req != r && decide (s.now < q.asmAt + keepNs) && (match q.asmKey with
    | some k => staged k
    | none => false))
/-- The requester's assembly buffer emptied. -/
def State.dropAsm (s : State) (r : Requester) : State := s.modReq r (fun q => { q with asmKey := none, asmBuf := [], asmTotal := 0 })
/-- A whole value written, and its answer: now, or when what it waits for has come. -/
def State.writeWhole (s : State) (r : Requester) (tag : Option Nat) (k : Nat) (b : Bytes) : State :=
  let o := s.writeEntry r tag k b
  match o.1 with
  | some code => o.2.writeAnswer r tag k b.length code
  | none => o.2
/-- A WRITE of a value or a segment of one (R355). -/
def State.doWrite (s : State) (r : Requester) (tag k off total : Nat) (data : Bytes) : State :=
  if !s.hears r then s
  else if 1024 < data.length then s.refuse r 2 tag k stMalformed
  else
    let s := s.counted
    let q := s.req r
    if !s.gate 2 k then s.refuse r 2 tag k stState
    else if !defined k then s.refuse r 2 tag k stAbsent
    else if off = 0 ∧ data.length = total then s.writeWhole r (some tag) k data
    else if off = 0 then
      if asmSize k < total ∨ total < data.length then (s.dropAsm r).refuse r 2 tag k stArgument
      else if staged k && s.stagingHeld r then s.refuse r 2 tag k stState
      else
        let s := s.modReq r (fun q => { q with asmKey := some k, asmTotal := total, asmBuf := data, asmAt := s.now })
        s.writeAnswer r (some tag) k data.length stOk
    else if q.asmKey ≠ some k ∨ q.asmTotal ≠ total ∨ q.asmBuf.length ≠ off ∨ q.asmAt + keepNs ≤ s.now ∨ total < off + data.length then
      (s.dropAsm r).refuse r 2 tag k stArgument
    else
      let buf := q.asmBuf ++ data
      if buf.length = total then (s.dropAsm r).writeWhole r (some tag) k buf
      else (s.modReq r (fun q => { q with asmBuf := buf, asmAt := s.now })).writeAnswer r (some tag) k buf.length stOk

/-- The code of a type (Table 13.2). -/
def typeCode : EntryType → Nat
  | .bool => 1
  | .u8 => 2
  | .u16 => 3
  | .u32 => 4
  | .u64 => 5
  | .i32 => 6
  | .f32 => 7
  | .enum => 8
  | .str => 9
  | .blob => 10
/-- The code of an access. -/
def accessCode : Access → Nat
  | .ro => 1
  | .rw => 2
  | .wo => 3
  | .rwc => 4
  | .lk => 5
/-- The bytes of a string, zero-padded or cut to `n`. -/
def strField (n : Nat) (t : String) : Bytes := ((t.toUTF8.toList.map (fun b => BitVec.ofNat 8 b.toNat)) ++ List.replicate n 0#8).take n
/-- The row that describes subindex 0 of an index (R348). -/
def nsubRow (index : Nat) : EntryRow :=
  ⟨index, 1, 1, 0, 0, .u8, .ro, 1, 1, 0, 255, 1, [], entryNsub index, 0, "NSUB", ""⟩
/-- The entries that R65, R202 and R231 except from the belay snapshots of their indices. -/
def liveEntry (k : Nat) : Bool :=
  (List.range 8).any (fun n => k == kPitchPhase n || k == kCadenceState n || k == kApplyState n) || k == kGroupState || k == kReadoutRecord ||
    (List.range 32).any (fun m => k == kStreamState m)
/-- Is the entry snapshotted at belays (R353)? -/
def belayEntry (k : Nat) : Bool :=
  let i := k / 256
  !liveEntry k && ((List.range 8).any (fun n => i == 0x2120 + n || i == 0x3041 + 0x100 * n || i == 0x3051 + 0x100 * n || i == 0x3061 + 0x100 * n || k == kCoreCounters n) ||
    (decide (0x4040 ≤ i) && decide (i < 0x4060)) || i == 0x4102)
/-- MIN and MAX of a row: of the type where the row states no range. No rule gives those of a binary32 entry (assumption 11 [DESIGN CHOICE, safe]). Assumption 58 [DESIGN CHOICE, unsafe]. -/
def State.rowRange (s : State) (e : EntryRow) : (Nat × Nat) × State := match e.ty with
  | .str => ((0, 0), s)
  | .blob => ((0, 0), s)
  | .i32 => ((2 ^ 31, 2 ^ 31 - 1), s)
  | .f32 =>
    let a := s.takeFree
    let b := a.2.takeFree
    ((a.1.toNat % 2 ^ 32, b.1.toNat % 2 ^ 32), b.2)
  | _ => ((e.alt.foldl min e.lo, e.alt.foldl max e.hi), s)
/-- The name of an entry; rows of several subindices number them from 0. -/
def entryName (e : EntryRow) (sub : Nat) : String := if e.subLo = e.subHi then e.name else e.name ++ toString (sub - e.subLo)
/-- Entries whose default is what the identity record, the fuses, the boot ROM or the running image hold, which stays as it is. -/
def sourced (k : Nat) : Bool :=
  [kSerialNumber, kSiliconStep, kFwVersion, kBootRomVersion, kMacBase, kFwRunningSlot, kFwSvn].contains k
/-- Entries for whose default the spec names a source, or a dash, and gives no value: bring-up, MRAM, the fuses, a level. -/
def unstated (k : Nat) : Bool :=
  (List.range 128).any (fun c => [kClusterPresent c, kSlotMap c, kSpareSlot c, kClusterUnits c].contains k) ||
    [kPresentCores, kSpareCores, kDefectCount, kBootCount, kTripRecord, kFaultSeq, kLifeFaults, kLifeTakeovers, kLifeCoresLost, kLifeHours,
      kLifeThermalTrips, kEstopState, kResetCause, kSvnFused, kFwKeysRevoked].contains k
/-- DEFAULT of a DESCRIBE response: the number that the table gives; of an entry that shows what the part was made with, that value; where
the spec names a source and no value, a free one (assumption 11 [DESIGN CHOICE, safe]). -/
def State.rowDefault (s : State) (e : EntryRow) (k : Nat) : Nat × State :=
  if 16 < e.maxLen then (0, s)
  else if sourced k then (leNat (s.valueOf .restore k).1, s)
  else if unstated k then
    let f := s.takeFree
    (f.1.toNat % 256 ^ e.maxLen, f.2)
  else (e.dflt + e.dstep * ((k / 256 - e.base) / e.stride), s)
/-- The body of a DESCRIBE response (Table 13.6). -/
def State.describeBody (s : State) (e : EntryRow) (k : Nat) : Bytes × State :=
  let sub := k % 256
  let m := s.rowRange e
  let d := m.2.rowDefault e k
  (natLe 2 (k / 256) ++ natLe 1 sub ++ natLe 1 (typeCode e.ty) ++ natLe 1 (accessCode e.acc) ++
    natLe 1 (b2n (storable e (k / 256) k) + 2 * b2n (s.locked k) + 4 * b2n (belayEntry k)) ++ natLe 2 e.minLen ++ natLe 2 e.maxLen ++ natLe 2 0 ++
    natLe 8 m.1.1 ++ natLe 8 m.1.2 ++ natLe 16 d.1 ++ strField 32 (entryName e sub) ++ strField 16 e.unit, d.2)
/-- A DESCRIBE (R359); every requester may ask it (assumption 41 [DEDUCED, unsafe]). -/
def State.doDescribe (s : State) (r : Requester) (tag k : Nat) : State :=
  if !s.hears r then s
  else
    let s := s.counted
    if !s.gate 4 k then s.refuse r 4 tag k stState
    else
      let row := match entryRow (k / 256) (k % 256) with
        | some e => some e
        | none => if k % 256 = 0 ∧ entryNsub (k / 256) ≠ 0 then some (nsubRow (k / 256)) else none
      match row with
      | none => s.refuse r 4 tag k stAbsent
      | some e =>
        let q := s.describeBody e k
        q.2.reply r 4 stOk tag q.1
/-- An ECHO (R359). -/
def State.doEcho (s : State) (r : Requester) (tag : Nat) (body : Bytes) : State :=
  if !s.hears r then s
  else if 1024 < body.length then s.reply r 5 stMalformed tag []
  else if !s.gate 5 0 then s.counted.reply r 5 stState tag []
  else s.counted.reply r 5 stOk tag body

/-- READ (R354). -/
def execReadEntry (r : Requester) (tag index sub off maxlen snap t : Nat) (s : State) : Res :=
  .next ((s.serve t).doRead r tag (entryKey index sub) off maxlen snap)
/-- WRITE (R355). -/
def execWriteEntry (r : Requester) (tag index sub off total : Nat) (data : Bytes) (t : Nat) (s : State) : Res :=
  .next ((s.serve t).doWrite r tag (entryKey index sub) off total data)
/-- READ_INDEX (R353). -/
def execReadIndex (r : Requester) (tag index first t : Nat) (s : State) : Res := .next ((s.serve t).doReadIndex r tag index first)
/-- DESCRIBE (R359). -/
def execDescribe (r : Requester) (tag index sub t : Nat) (s : State) : Res := .next ((s.serve t).doDescribe r tag (entryKey index sub))
/-- ECHO (R359). -/
def execEcho (r : Requester) (tag : Nat) (body : Bytes) (t : Nat) (s : State) : Res := .next ((s.serve t).doEcho r tag body)
/-- PACK_MASK (R420): a READ of the whole entry. -/
def execPackMask (r : Requester) (tag t : Nat) (s : State) : Res := .next ((s.serve t).doRead r tag kPackMask 0 1024 0)

/-! ### Messages (R357 to R359) -/

/-- A response that is not kept for a repeated TAG. -/
def State.sendOnce (s : State) (r : Requester) (tag : Nat) (msg : Bytes) : State := match r with
  | .mailbox k => if (s.mailbox k).orphaned then s.toMailbox k tag msg else (s.toMailbox k tag msg).respond r msg
  | .rope _ _ => s.respond r msg
  | .restore => s
/-- The refusal of another major version (R358). -/
def State.refuseVersion (s : State) (r : Requester) (msg : Bytes) : State :=
  let tag := if 12 ≤ msg.length then fieldAt msg 8 4 else 0
  let m := msgHeader 0x0081 20 1 stVersion tag ++ natLe 1 (fieldAt msg 0 1) ++ natLe 1 (fieldAt msg 1 1) ++ natLe 1 1 ++ natLe 1 2
  (s.dadd kVersionRefusals 1).sendOnce r tag m
/-- Is an arriving message dropped: RESPONSE, NOTICE or a reserved header bit set (R359)? -/
def msgDropped (msg : Bytes) : Bool := fieldAt msg 6 1 != 0 || fieldAt msg 12 4 != 0
/-- The entry that a body names. -/
def bodyKey (b : Bytes) : Nat := entryKey (fieldAt b 0 2) (fieldAt b 2 1)
/-- MALFORMED, with the body that the type's refusals have. -/
def State.malformed (s : State) (r : Requester) (type tag : Nat) (b : Bytes) : State :=
  if 1 ≤ type ∧ type ≤ 4 then s.refuse r type tag (bodyKey b) stMalformed else s.reply r type stMalformed tag []
/-- A message of MAJOR 2 that is not dropped, performed. -/
def State.perform (s : State) (r : Requester) (msg : Bytes) : State :=
  let type := fieldAt msg 2 2
  let tag := fieldAt msg 8 4
  let b := msg.drop 16
  if !s.hears r then s
  else if msg.length < 16 ∨ 1452 < msg.length ∨ fieldAt msg 4 2 ≠ msg.length then s.malformed r type tag b
  else if type = 1 then
    if b.length < 12 then s.malformed r type tag b
    else s.doRead r tag (bodyKey b) (fieldAt b 4 2) (fieldAt b 6 2) (fieldAt b 8 2)
  else if type = 2 then
    let n := fieldAt b 8 2
    if b.length < 12 + n ∨ 1024 < n then s.malformed r type tag b
    else s.doWrite r tag (bodyKey b) (fieldAt b 4 2) (fieldAt b 6 2) ((b.drop 12).take n)
  else if type = 3 then
    if b.length < 4 then s.malformed r type tag b else s.doReadIndex r tag (fieldAt b 0 2) (fieldAt b 2 1)
  else if type = 4 then
    if b.length < 4 then s.malformed r type tag b else s.doDescribe r tag (bodyKey b)
  else if type = 5 then s.doEcho r tag b
  else s.reply r type (if s.gate 6 0 then stUnknownType else stState) tag []

/-! ### The rope (R361) -/

/-- Is a request of the requester in progress: it waits for a gap or a wake? -/
def State.inProgress (s : State) (r : Requester) : Bool :=
  (List.range 8).any (fun n => (s.part n).waiting.any (fun q => q.req == r && q.tag.isSome)) ||
    s.pow.deferred.any (fun d => d.1 == r && d.2.2.2.isSome)
/-- Is the requester one on the rope? -/
def isRope : Requester → Bool
  | .rope _ _ => true
  | .mailbox _ => false
  | .restore => false
/-- Rope requests in progress. -/
def State.ropeCount (s : State) : Nat :=
  ((List.range 8).map (fun n => ((s.part n).waiting.filter (fun q => isRope q.req && q.tag.isSome)).length)).foldl (· + ·) 0 +
    (s.pow.deferred.filter (fun d => isRope d.1 && d.2.2.2.isSome)).length
/-- The 64 rope requesters heard from most recently are kept. -/
def trimReqs (l : List ReqState) : List ReqState :=
  let keep := ((l.filter (fun q => isRope q.req)).reverse.take 64).map (·.req)
  l.filter (fun q => !isRope q.req || keep.contains q.req)
/-- The time that a last response is kept (R361). -/
def cacheNs : Nat := 10000000000
/-- Is an IPv6 address link-local, in fe80::/10? -/
def linkLocal (a : Nat) : Bool := a / 2 ^ 118 == 0x3FA
/-- The link-local address fe80::4b47:0:0:a of node address `a` (R337). -/
def nodeIp (a : Nat) : Nat := 0xFE80 * 2 ^ 112 + 0x4B47 * 2 ^ 48 + a
/-- The EUI-64 link-local address of a MAC address (R337). -/
def euiIp (mac : Nat) : Nat :=
  let m := mac ^^^ 2 ^ 41
  0xFE80 * 2 ^ 112 + m / 2 ^ 24 * 2 ^ 40 + 0xFFFE * 2 ^ 24 + m % 2 ^ 24
/-- Is it an address at which the part answers the dictionary protocol (R337, R338, R340): an EUI-64 address of a field port, always, or the node address,
but in a conflict? -/
def State.ropeIp (s : State) (a : Nat) : Bool :=
  a == euiIp (fieldMac 0) || a == euiIp (fieldMac 1) ||
    (s.dget kNodeAddress != 0 && s.dget kNodeState != nodeConflict && a == nodeIp (s.dget kNodeAddress))
/-- A rope requester is heard from, with a request of TAG `tag` that arrived at the part's address `dst` (R361). -/
def State.heardFrom (s : State) (r : Requester) (tag dst : Nat) : State :=
  let s := s.modReq r (fun q => { q with via := ((tag, dst) :: q.via.filter (fun e => e.1 != tag)).take 16 })
  { s with reqs := trimReqs s.reqs }
/-- DICT_DATAGRAM (R361): from `addr` and `port` to address `dst`, UDP port `udp`. A datagram to another port or to an address that the part does not hold
does not reach the dictionary; one in a conflict to the node address is dropped so, too (R338). -/
def execDictDatagram (addr port dst udp : Nat) (msg : Bytes) (t : Nat) (s : State) : Res :=
  let s := s.serve t
  let r := Requester.rope addr port
  let tag := fieldAt msg 8 4
  .next (if !s.hears r || udp != s.dget kDictUdpPort then s
    else if !linkLocal addr || !s.ropeIp dst || decide (msg.length < 2) then s.dadd kDictDrops 1
    else if fieldAt msg 0 1 ≠ 2 then (s.heardFrom r tag dst).refuseVersion r msg
    else if fieldAt msg 4 2 ≠ msg.length ∨ msgDropped msg then s.dadd kDictDrops 1
    else
      let s := s.heardFrom r tag dst
      let q := s.req r
      if q.lastTag = some tag ∧ s.now < q.lastAt + cacheNs then
        if q.lastRsp.isEmpty then s else (s.dadd kDuplicateAnswers 1).respond r q.lastRsp
      else if 8 ≤ s.ropeCount then
        let s := s.dadd kBusyRefusals 1
        let type := fieldAt msg 2 2
        let body := if 1 ≤ type ∧ type ≤ 4 then entryHead (bodyKey (msg.drop 16)) else []
        s.sendOnce r tag (msgHeader type (16 + body.length) 1 stBusy tag ++ body)
      else (s.modReq r (fun q => { q with lastTag := some tag, lastRsp := [], lastAt := s.now })).perform r msg)
/-- What the part keeps for a requester, changed by a timer: the requester is not heard from. -/
def State.editReq (s : State) (r : Requester) (f : ReqState → ReqState) : State :=
  { s with reqs := s.reqs.map (fun q => if q.req == r then f q else q) }
/-- REQUESTER_CACHE_EXPIRY (R361). -/
def execRequesterCacheExpiry (addr port t : Nat) (s : State) : Res :=
  let s := s.serve t
  let r := Requester.rope addr port
  .next (if (s.req r).lastAt + cacheNs ≤ s.now then s.editReq r (fun q => { q with lastTag := none, lastRsp := [] }) else s)

/-! ### Timers of a requester -/

/-- SNAPSHOT_EXPIRY (R354). -/
def execSnapshotExpiry (r : Requester) (t : Nat) (s : State) : Res :=
  let s := s.serve t
  .next (if (s.req r).snapKey.isSome ∧ (s.req r).snapAt + keepNs ≤ s.now then
    s.editReq r (fun q => { q with snapKey := none, snapVal := [], snapIdx := [] }) else s)
/-- ASSEMBLY_TIMEOUT (R355). -/
def execAssemblyTimeout (r : Requester) (t : Nat) (s : State) : Res :=
  let s := s.serve t
  .next (if (s.req r).asmKey.isSome ∧ (s.req r).asmAt + keepNs ≤ s.now then s.editReq r (fun q => { q with asmKey := none, asmBuf := [], asmTotal := 0 }) else s)

end Sys2Proof.Machine
end

