-- ==== Sys2Proof/Machine/Package.lean ====
section
/-!
DEFINITION. The supply monitor and the SMBus sideband (chapter 18, R369 to R371).
-/

namespace Sys2Proof.Machine

/-! ### Supply monitor (R474, Table 18.5); supplies are numbered 0 VIN_C to 9 VDDQ_D in the order of Table 18.4 -/

/-- VIN_C. -/
def supVinC : Nat := 0
/-- SUPPLY_OUT_OF_TOLERANCE (R474): bit 5 of EMERGENCY_FLAGS. -/
def execSupplyOutOfTolerance (supply t : Nat) (s : State) : Res :=
  let s := s.reach t
  .next (if 10 ≤ supply ∨ s.dead then s
    else (s.modPow (fun p => { p with supplies := supply :: p.supplies.filter (· != supply) })).raiseFlag 5)
/-- VIN_C_LOW (R474): both compute supplies go to their profile floors. -/
def execVinCLow (t : Nat) (s : State) : Res :=
  let s := s.reach t
  .next (if s.dead then s else s.modPow (fun p => { p with vinLow := true, vinBack := none }))
/-- SUPPLY_IN_TOLERANCE (R474): for a low VIN_C, 1 ms in tolerance ends the floors; a further 9 ms, or for any other supply 10 ms, end
its part in bit 5 (assumption 40 [DEDUCED, unsafe]). -/
def execSupplyInTolerance (supply t : Nat) (s : State) : Res :=
  let s := s.reach t
  let wait := match s.pow.vinBack with
    | some b => supply == supVinC && decide (s.now < b + 9000000)
    | none => false
  .next (if s.dead || wait then s
    else if supply = supVinC ∧ s.pow.vinLow then s.modPow (fun p => { p with vinLow := false, vinBack := some s.now })
    else
      let s := s.modPow (fun p => { p with
        supplies := p.supplies.filter (· != supply)
        vinBack := if supply = supVinC then none else p.vinBack })
      if s.pow.supplies.isEmpty then s.dropFlag 5 else s)
/-- VIN_C_BROWNOUT (R474): a device reset with RESET_CAUSE POWER_ON. -/
def execVinCBrownout (f : BringupFacts) (t : Nat) (s : State) : Res :=
  let s := s.reach t
  .next (if s.dead then s else s.deviceReset causePowerOn f)
/-- VDD_AON_BROWNOUT (R474): as PORST_N, with RESET_CAUSE POWER_ON at the next bring-up. Assumption 48 [DEDUCED, unsafe]. -/
def execVddAonBrownout (t : Nat) (s : State) : Res :=
  let s := s.at t
  .next ((s.holdReset causePowerOn).modFloor (fun x => { x with cause := some causePowerOn }))

/-! ### SMBus (R481 to R483) -/

/-- The part's 7-bit address. -/
def State.smbOwn (s : State) : Nat := 0x40 + s.pins.smbAddr % 4
/-- CRC-8 with polynomial x^8 + x^2 + x + 1 and initial value 0. -/
def crc8 (b : Bytes) : Byte :=
  b.foldl (fun c x => (List.range 8).foldl (fun (v : Byte) _ => if v.msb then (v <<< 1) ^^^ 0x07#8 else v <<< 1) (c ^^^ x)) 0#8
/-- ESTOP_STATE (Table 13.13). -/
def State.estopReg (s : State) : Nat := s.inertReason * 256 + 2 * b2n s.pins.estopSeen + b2n s.pins.estop
/-- POWER_REQUEST (Table 13.16). -/
def State.powerReg (s : State) : Nat :=
  s.dget kPowerResult * 2 ^ 28 + powerCode s.pow.state * 2 ^ 24 + s.pow.tag * 2 ^ 16 + s.pow.target
/-- The register behind a command code (Table 13.12). -/
def State.smbReg (s : State) (code : Nat) : Option Nat :=
  if code = 0x20 then some s.estopReg
  else if code = 0x21 then some (s.dget kOutputEnable)
  else if code = 0x23 then some s.powerReg
  else if code = 0x28 then some (s.tsnNow % 2 ^ 32)
  else if code = 0x29 then some (s.tsnNow / 2 ^ 32)
  else none
/-- The island puts something on the bus, in every power state and after a trip (R371, R481). -/
def State.smbOut (s : State) (o : Output) : State := { s with outbox := s.outbox ++ [o] }
/-- Does the transaction reach the part: its address, and PORST_N released? Assumption 50 [DEDUCED, unsafe]. -/
def State.smbHears (s : State) (addr : Nat) : Bool := addr == s.smbOwn && !s.pins.porst
/-- SMBUS_BLOCK_READ (R482): count byte, four data bytes and PEC. -/
def execSmbusBlockRead (addr code t : Nat) (s : State) : Res :=
  let s := s.reach t
  .next (if !s.smbHears addr then s
    else match s.smbReg code with
      | none => s.smbOut .smbusNack
      | some v =>
        let body := natLe 1 4 ++ natLe 4 v
        s.smbOut (.smbus code (body ++ [crc8 (natLe 1 (2 * addr) ++ natLe 1 code ++ natLe 1 (2 * addr + 1) ++ body)])))
/-- SMBUS_BLOCK_WRITE (R482): only POWER_REQUEST with a count of 4 is taken; a PEC that fails discards it. -/
def execSmbusBlockWrite (addr code count : Nat) (data : Bytes) (pec : Option Byte) (t : Nat) (s : State) : Res :=
  let s := s.reach t
  let good := match pec with
    | some p => p == crc8 (natLe 1 (2 * addr) ++ natLe 1 code ++ natLe 1 count ++ data)
    | none => true
  .next (if !s.smbHears addr then s
    else if code ≠ 0x23 ∨ count ≠ 4 then s.smbOut .smbusNack
    else if data.length ≠ 4 then s
    else if !good then s.smbOut .smbusNack
    else s.doPowerReg (leNat data) none)
/-- SMBUS_TIMEOUT (R482): the part releases the bus. -/
def execSmbusTimeout (t : Nat) (s : State) : Res :=
  let s := s.reach t
  .next (if s.pins.porst then s else s.smbOut .smbusRelease)
/-- ALERT_RESPONSE (R483): the part answers the Alert Response Address with its own address. -/
def execAlertResponse (t : Nat) (s : State) : Res :=
  let s := s.reach t
  .next (if !s.pins.smbAlert || s.pins.porst then s
    else (s.modPins (fun p => { p with smbAlert := false })).smbOut (.smbus 0x0C (natLe 1 (2 * s.smbOwn))))

end Sys2Proof.Machine
end

