-- ==== Sys2Proof/Machine/Registers.lean ====
section
/-!
DEFINITION. The mailboxes and the registers of BAR0 as the host writes them (R319, R362 to R367, R369, Tables 12.2, 12.3, 12.8, 13.8 to
13.17), and a plain write of a dictionary entry (R352).
-/

namespace Sys2Proof.Machine

/-! ### Mailboxes (R362 to R367) -/

/-- Can the host reach mailbox `k`? -/
def State.mbxThere (s : State) (k : Nat) : Bool := decide (k < 32) && s.hostSees (mailboxFunc k)
/-- The REQUEST area: 1,452 bytes. -/
def requestSize : Nat := 1452
/-- SUBMIT (R363). -/
def execSubmit (k w t : Nat) (s : State) : Res :=
  let s := s.serve t
  let m := s.mailbox k
  .next (if !s.mbxThere k || !bit w 0 || m.busy || m.orphaned then s
    else s.modMailbox k (fun m => { m with taken := Machine.slice m.request 0 requestSize, busy := true, rspReady := false }))
/-- A request of a mailbox performed: its LENGTH names the message in the area, and one that is dropped is never answered. Assumption 57 [DEDUCED, unsafe]. -/
def State.performMailbox (s : State) (k : Nat) : State :=
  let a := (s.mailbox k).taken
  let len := fieldAt a 4 2
  let r := Requester.mailbox k
  if fieldAt a 0 1 ≠ 2 then s.refuseVersion r a
  else if msgDropped a then (s.dadd kDictDrops 1).modMailbox k (fun m => { m with busy := false })
  else if len < 16 ∨ requestSize < len then s.malformed r (fieldAt a 2 2) (fieldAt a 8 4) (a.drop 16)
  else s.perform r (a.take len)
/-- MAILBOX_RESPONSE (R363): the request of mailbox `k` is performed, unless it waits already. -/
def execMailboxResponse (k t : Nat) (s : State) : Res :=
  let s := s.serve t
  let r := Requester.mailbox k
  .next (if !(s.mailbox k).busy || s.inProgress r || !s.hears r || decide (32 ≤ k) then s else s.performMailbox k)
/-- NOTICE_STATUS (Table 13.11): writing 1 to NOTICE_READY removes the oldest notice. -/
def execNoticeRemove (k w : Nat) (s : State) : Res :=
  .next (if s.mbxThere k && bit w 31 then s.modMailbox k (fun m => { m with notices := m.notices.drop 1 }) else s)
/-- MBX_CONTROL (R367): the bits that the mask names; clearing NOTICE_ENABLE empties the queue (R364). -/
def execMbxControl (k w : Nat) (s : State) : Res :=
  .next (if !s.mbxThere k then s
    else s.modMailbox k (fun m =>
      let on := if bit w 17 then bit w 1 else m.noticeOn
      { m with
        noticeOn := on
        rspInt := if bit w 16 then bit w 0 else m.rspInt
        notices := if on then m.notices else [] }))
/-- MBX_STATUS (Table 13.9): writing 1 clears RSP_READY. -/
def State.writeMbxStatus (s : State) (k w : Nat) : State :=
  if bit w 30 then s.modMailbox k (fun m => { m with rspReady := false }) else s
/-- Bytes put into an area that is `size` bytes long, from offset `o`. -/
def putBytes (size o : Nat) (area data : Bytes) : Bytes :=
  let a := Machine.slice area 0 size
  (a.take o ++ data ++ a.drop (o + data.length)).take size
/-- A write into a mailbox frame at offset `o`. -/
def State.writeFrame (s : State) (k o : Nat) (data : Bytes) (t : Nat) : Res :=
  let w := leNat data
  if o < requestSize then .next (s.modMailbox k (fun m => { m with request := putBytes requestSize o m.request data }))
  else if o = 0xF00 then execSubmit k w t s
  else if o = 0xF04 then .next (s.writeMbxStatus k w)
  else if o = 0xF08 then execMbxControl k w s
  else if o = 0xF0C then execNoticeRemove k w s
  else .next s

/-! ### Operation slots (Tables 12.8, 12.9) -/

/-- Bytes of BUFFER. -/
def bufferSize : Nat := 2080
/-- A write into operation slot `k` of function `f` at offset `o`. -/
def State.writeSlot (s : State) (f k o : Nat) (data : Bytes) (t : Nat) : Res :=
  let w := leNat data
  if o < bufferSize then .next (s.modOp f k (fun q => { q with buffer := putBytes bufferSize o q.buffer data }))
  else if o = 0xF00 then execSlotGo f k w t s
  else if o = 0xF04 ∧ bit w 30 then .next (s.modOp f k (fun q => { q with done := false }))
  else .next s

/-! ### BAR0 (Tables 12.2, 12.3, 13.12) -/

/-- A write to the function registers and the emulated page. -/
def State.writeRegister (s : State) (f o w t : Nat) : Res :=
  if o = 0x008 then execIntCause f false w s
  else if o = 0x00C then execIntCause f true w s
  else if o = 0x010 then execBar2Window f false w t s
  else if o = 0x014 then execBar2Window f true w t s
  else if 0x100 ≤ o ∧ o < 0x120 then execQnotify f ((o - 0x100) / 4) w s
  else if o = 0x1000 then execEstopState (.func f) w t s
  else if o = 0x1004 then execOutputEnable (.func f) w t s
  else if o = 0x1008 then execHostHeartbeat f w t s
  else if o = 0x100C then execPowerRequest (.func f) w none t s
  else if o = 0x1010 then execPitchTrigger f w t s
  else .next s
/-- Mailbox frames that a function shows (R319). -/
def shownFrames (f : Nat) : Nat := if f = 0 then 8 else 3
/-- The mailbox in frame `k` of function `f`. -/
def frameMailbox (f k : Nat) : Nat := if f = 0 then k else 8 + 3 * (f - 1) + k
/-- A host write of `data` at offset `o` of BAR0 of function `f`; reserved offsets ignore it. -/
def State.writeBar0 (s : State) (f o : Nat) (data : Bytes) (t : Nat) : Res :=
  if !s.hostSees f || decide (8 < f) then .next s
  else if o < 0x2000 then s.writeRegister f o (leNat data) t
  else if 0x10000 ≤ o ∧ o < 0x18000 then
    let k := (o - 0x10000) / 4096
    if k < shownFrames f then s.writeFrame (frameMailbox f k) (o % 4096) data t else .next s
  else if 0x20000 ≤ o ∧ o < 0x30000 then s.writeSlot f ((o - 0x20000) / 4096) (o % 4096) data t
  else if 0x30000 ≤ o ∧ o < 0x300C0 then .next (s.modFunc f (fun g => { g with msix := putBytes 192 (o - 0x30000) g.msix data }))
  else .next s
/-! ### BAR0 as the host reads it (R319, R326, R362, R367 to R371)

A read takes no effect, and the table has no command for one: these definitions give the word that a read returns at its service.
R368 asks for no latch: the halves of a pair are read for themselves. -/

/-- FUNC_INFO (Table 12.4). -/
def funcInfo (f : Nat) : Nat := (if f = 0 then 0 else 8 + 3 * (f - 1)) * 2 ^ 16 + (if f = 0 then 0xFF else f - 1) * 2 ^ 8 + f
/-- LINK_STATUS (Table 12.5): DOWNGRADED when the link runs below ×4 at 32 GT/s (R326, R389). -/
def State.linkStatus (s : State) : Nat :=
  let w := s.dget kPcieWidth
  let v := s.dget kPcieSpeed
  if s.dget kPcieState = 2 then b2n (decide (w < 4) || decide (v < 5)) * 2 ^ 8 + w * 2 ^ 4 + v else 0
/-- A function register (Table 12.3). -/
def State.funcWord (s : State) (f o : Nat) : Nat :=
  let g := s.func f
  if o = 0x000 then funcInfo f
  else if o = 0x004 then (if f = 0 then s.linkStatus else 0)
  else if o = 0x008 then g.cause
  else if o = 0x00C then g.imask
  else if o = 0x010 then g.winLo
  else if o = 0x014 then g.winHi
  else if 0x100 ≤ o ∧ o < 0x120 then mget dZero g.notify ((o - 0x100) / 4)
  else 0
/-- HOST_HEARTBEAT (Table 13.15). -/
def State.heartbeatReg (s : State) (f : Nat) : Nat :=
  let g := s.func f
  b2n g.armed * 2 ^ 31 + b2n g.lost * 2 ^ 30 + g.hbLast % 2 ^ 16
/-- PITCH_TRIGGER (Table 13.17): the partitions that have a pending tick. -/
def State.triggerReg (s : State) : Nat :=
  ((List.range 8).map (fun n => b2n (s.part n).seq.pendTick.isSome * 2 ^ (8 + n))).foldl (· + ·) 0
/-- A register of the emulated page (Table 13.12), at page offset `o`. -/
def State.emuWord (s : State) (f o : Nat) : Nat :=
  if o = 0x000 then s.estopReg
  else if o = 0x004 then s.dget kOutputEnable
  else if o = 0x008 then s.heartbeatReg f
  else if o = 0x00C then s.powerReg
  else if o = 0x010 then s.triggerReg
  else if o = 0x020 then s.tsnNow % 2 ^ 32
  else if o = 0x024 then s.tsnNow / 2 ^ 32 % 2 ^ 32
  else 0
/-- The word at offset `o` of an area. -/
def areaWord (a : Bytes) (o : Nat) : Nat := leNat (Machine.slice a o 4)
/-- MBX_STATUS (Table 13.9). -/
def mbxStatus (m : Mailbox) : Nat := b2n m.busy * 2 ^ 31 + b2n m.rspReady * 2 ^ 30 + b2n m.orphaned * 2 ^ 29 + m.rspLen % 2 ^ 16
/-- MBX_CONTROL (Table 13.10): its mask half reads 0 (R367). -/
def mbxControl (m : Mailbox) : Nat := b2n m.noticeOn * 2 + b2n m.rspInt
/-- NOTICE_STATUS (Table 13.11). -/
def noticeStatus (m : Mailbox) : Nat := b2n (!m.notices.isEmpty) * 2 ^ 31 + m.notices.length % 2 ^ 8 * 2 ^ 16 + min m.lost 255 * 2 ^ 8
/-- A word of a mailbox frame (Table 13.8); MBX_DOORBELL reads 0. -/
def frameWord (m : Mailbox) (o : Nat) : Nat :=
  if o < requestSize then areaWord m.request o
  else if 0x600 ≤ o ∧ o < 0x600 + requestSize then areaWord m.response (o - 0x600)
  else if 0xC00 ≤ o ∧ o < 0xF00 then areaWord (m.notices.headD []) (o - 0xC00)
  else if o = 0xF04 then mbxStatus m
  else if o = 0xF08 then mbxControl m
  else if o = 0xF0C then noticeStatus m
  else 0
/-- A word of an operation slot (Tables 12.8, 12.9). -/
def slotWord (q : OpSlot) (o : Nat) : Nat :=
  if o < bufferSize then areaWord q.buffer o
  else if o = 0xF04 then b2n q.busy * 2 ^ 31 + b2n q.done * 2 ^ 30 + q.status % 2 ^ 8
  else if o = 0xF08 then q.value % 2 ^ 32
  else if o = 0xF0C then q.value / 2 ^ 32 % 2 ^ 32
  else 0
/-- The word that a host read at offset `o` of BAR0 of function `f` returns (Table 12.2), if the function answers the read. The MSI-X messages of
this model never wait, so its pending bit array reads 0 (assumption 49 [DEDUCED, unsafe]). -/
def State.readBar0 (s : State) (f o : Nat) : Option Nat :=
  let o := o / 4 * 4
  if !s.hostSees f || decide (8 < f) then none
  else if o < 0x1000 then some (s.funcWord f o)
  else if o < 0x2000 then some (s.emuWord f (o - 0x1000))
  else if 0x10000 ≤ o ∧ o < 0x18000 then
    let k := (o - 0x10000) / 4096
    some (if k < shownFrames f then frameWord (s.mailbox (frameMailbox f k)) (o % 4096) else 0)
  else if 0x20000 ≤ o ∧ o < 0x30000 then some (slotWord (s.slot f ((o - 0x20000) / 4096)) (o % 4096))
  else if 0x30000 ≤ o ∧ o < 0x300C0 then some (areaWord (s.func f).msix (o - 0x30000))
  else some 0

/-- REGISTER_WRITE (R352): a dictionary entry written by a requester, or a BAR0 offset of a function. -/
def execRegisterWrite (tgt : RegTarget) (data : Bytes) (t : Nat) (s : State) : Res :=
  let s := s.serve t
  match tgt with
  | .entry r index sub =>
    let k := entryKey index sub
    .next (if !s.hears r then s else if !s.gate 2 k then s.answer r k stState else s.writeWhole r none k data)
  | .bar0 f o => s.writeBar0 f o data t

end Sys2Proof.Machine
end

