-- ==== Sys2Proof/Machine/Dispatch.lean ====
section
/-!
DEFINITION. The meaning of every command, one arm each.
-/

namespace Sys2Proof.Machine

/-- A command's effect on the block: everything but the queue of waiting commands. Assumption 8 [DESIGN CHOICE, safe]. -/
def exec (i : Instr) (s : State) : Host.Outcome State Fault Refusal :=
  match i with
  | .tsnTick n k t => Sys2Proof.Machine.execTsnTick n k t s
  | .cadenceInEdge rising t => Sys2Proof.Machine.execCadenceInEdge rising t s
  | .quadTransition a b t => Sys2Proof.Machine.execQuadTransition a b t s
  | .pitchTrigger f w t => Sys2Proof.Machine.execPitchTrigger f w t s
  | .pitchOpen n t => Sys2Proof.Machine.execPitchOpen n t s
  | .openPicot c t => Sys2Proof.Machine.execOpenPicot c t s
  | .encodeDone k t => Sys2Proof.Machine.execEncodeDone k t s
  | .encodeDoneReceive cl => Sys2Proof.Machine.execEncodeDoneReceive cl s
  | .eventAccumulate c t => Sys2Proof.Machine.execEventAccumulate c t s
  | .prefetch c => Sys2Proof.Machine.execPrefetch c s
  | .prefetchRetry c => Sys2Proof.Machine.execPrefetchRetry c s
  | .readData c row ok => Sys2Proof.Machine.execReadData c row ok s
  | .integrateSweep c t => Sys2Proof.Machine.execIntegrateSweep c t s
  | .haulOpenTimeout c dst t => Sys2Proof.Machine.execHaulOpenTimeout c dst t s
  | .journalRecord cl => Sys2Proof.Machine.execJournalRecord cl s
  | .journalStallEnd c t => Sys2Proof.Machine.execJournalStallEnd c t s
  | .eventHaulArrival id t => Sys2Proof.Machine.execEventHaulArrival id t s
  | .drain c => Sys2Proof.Machine.execDrain c s
  | .belay c => Sys2Proof.Machine.execBelay c s
  | .clusterBelay n cl t => Sys2Proof.Machine.execClusterBelay n cl t s
  | .closePicot c t => Sys2Proof.Machine.execClosePicot c t s
  | .watchPoint n t => Sys2Proof.Machine.execWatchPoint n t s
  | .deadline n t => Sys2Proof.Machine.execDeadline n t s
  | .truncateInstant n t => Sys2Proof.Machine.execTruncateInstant n t s
  | .truncate c t => Sys2Proof.Machine.execTruncate c t s
  | .belayTimeout n c t => Sys2Proof.Machine.execBelayTimeout n c t s
  | .cadenceLoss n t => Sys2Proof.Machine.execCadenceLoss n t s
  | .holdoverLimit t => Sys2Proof.Machine.execHoldoverLimit t s
  | .syncMessage port offset t => Sys2Proof.Machine.execSyncMessage port offset t s
  | .syncTimeout t => Sys2Proof.Machine.execSyncTimeout t s
  | .create r n t => Sys2Proof.Machine.execCreate r n t s
  | .load r n t => Sys2Proof.Machine.execLoad r n t s
  | .tileLanded n memErr t => Sys2Proof.Machine.execTileLanded n memErr t s
  | .enable r n t => Sys2Proof.Machine.execEnable r n t s
  | .disable r n t => Sys2Proof.Machine.execDisable r n t s
  | .disableNow r n t => Sys2Proof.Machine.execDisableNow r n t s
  | .absorb c => Sys2Proof.Machine.execAbsorb c s
  | .swap r n t => Sys2Proof.Machine.execSwap r n t s
  | .swapTakeEffect n t => Sys2Proof.Machine.execSwapTakeEffect n t s
  | .swapCopyDone n t => Sys2Proof.Machine.execSwapCopyDone n t s
  | .unload r n t => Sys2Proof.Machine.execUnload r n t s
  | .destroy r n t => Sys2Proof.Machine.execDestroy r n t s
  | .stationEnable r n v t => Sys2Proof.Machine.execStationEnable r n v t s
  | .stationDisableNow r n v t => Sys2Proof.Machine.execStationDisableNow r n v t s
  | .neuronAccess r n sub data t => Sys2Proof.Machine.execNeuronAccess r n sub data t s
  | .neuronAccessPerform n t => Sys2Proof.Machine.execNeuronAccessPerform n t s
  | .counterClear r n v t => Sys2Proof.Machine.execCounterClear r n v t s
  | .descriptorSubmit u t => Sys2Proof.Machine.execDescriptorSubmit u t s
  | .descriptorComplete u v1 memErr t => Sys2Proof.Machine.execDescriptorComplete u v1 memErr t s
  | .applyComplete n p t => Sys2Proof.Machine.execApplyComplete n p t s
  | .keepCommit r n t => Sys2Proof.Machine.execKeepCommit r n t s
  | .keepErase r n t => Sys2Proof.Machine.execKeepErase r n t s
  | .keepCommitDone t => Sys2Proof.Machine.execKeepCommitDone t s
  | .sample src k data t => Sys2Proof.Machine.execSample src k data t s
  | .streamSample r k data t => Sys2Proof.Machine.execStreamSample r k data t s
  | .streamEnable r k v t => Sys2Proof.Machine.execStreamEnable r k v t s
  | .streamDisableNow r k v t => Sys2Proof.Machine.execStreamDisableNow r k v t s
  | .decode g t => Sys2Proof.Machine.execDecode g t s
  | .readoutPublish g t => Sys2Proof.Machine.execReadoutPublish g t s
  | .groupEnable r mask t => Sys2Proof.Machine.execGroupEnable r mask t s
  | .groupDisableNow r mask t => Sys2Proof.Machine.execGroupDisableNow r mask t s
  | .estopAssert t => Sys2Proof.Machine.execEstopAssert t s
  | .estopRelease t => Sys2Proof.Machine.execEstopRelease t s
  | .outputEnable src w t => Sys2Proof.Machine.execOutputEnable src w t s
  | .estopState src w t => Sys2Proof.Machine.execEstopState src w t s
  | .queueCreate h rec => Sys2Proof.Machine.execQueueCreate h rec s
  | .queueDestroy h => Sys2Proof.Machine.execQueueDestroy h s
  | .attach h reader flush => Sys2Proof.Machine.execAttach h reader flush s
  | .detach h => Sys2Proof.Machine.execDetach h s
  | .send h msg => Sys2Proof.Machine.execSend h msg s
  | .receive h addr len => Sys2Proof.Machine.execReceive h addr len s
  | .receiveGroup h addr len => Sys2Proof.Machine.execReceiveGroup h addr len s
  | .groupSet h reader policy => Sys2Proof.Machine.execGroupSet h reader policy s
  | .addOp h done contribs => Sys2Proof.Machine.execAddOp h done contribs s
  | .readClear h addr len => Sys2Proof.Machine.execReadClear h addr len s
  | .syncCreate h kind init => Sys2Proof.Machine.execSyncCreate h kind init s
  | .syncDestroy h => Sys2Proof.Machine.execSyncDestroy h s
  | .cadd h delta => Sys2Proof.Machine.execCadd h delta s
  | .cread h => Sys2Proof.Machine.execCread h s
  | .cset h v => Sys2Proof.Machine.execCset h v s
  | .cwaitGe h target => Sys2Proof.Machine.execCwaitGe h target s
  | .post h n => Sys2Proof.Machine.execPost h n s
  | .take h n => Sys2Proof.Machine.execTake h n s
  | .arrive h => Sys2Proof.Machine.execArrive h s
  | .breakBarrier h => Sys2Proof.Machine.execBreakBarrier h s
  | .barrierReset h => Sys2Proof.Machine.execBarrierReset h s
  | .waitTimeout u id t => Sys2Proof.Machine.execWaitTimeout u id t s
  | .completionHoldPlace u t => Sys2Proof.Machine.execCompletionHoldPlace u t s
  | .grantWrite r kind data t => Sys2Proof.Machine.execGrantWrite r kind data t s
  | .parityError mem unit addr cured t => Sys2Proof.Machine.execParityError mem unit addr cured t s
  | .lpddr6ReadError u off e t => Sys2Proof.Machine.execLpddr6ReadError u off e t s
  | .patrolScrub u e written t => Sys2Proof.Machine.execPatrolScrub u e written t s
  | .retrain u temp ok t => Sys2Proof.Machine.execRetrain u temp ok t s
  | .bgtestRegion kind unit pass t => Sys2Proof.Machine.execBgtestRegion kind unit pass t s
  | .retentionLost h dom => Sys2Proof.Machine.execRetentionLost h dom s
  | .frameAll r v t => Sys2Proof.Machine.execFrameAll r v t s
  | .frameOwner r data t => Sys2Proof.Machine.execFrameOwner r data t s
  | .bar2Access f off len data t => Sys2Proof.Machine.execBar2Access f off len data t s
  | .bar2Window f hi w t => Sys2Proof.Machine.execBar2Window f hi w t s
  | .conflictClear r v t => Sys2Proof.Machine.execConflictClear r v t s
  | .packetArrival p t => Sys2Proof.Machine.execPacketArrival p t s
  | .nack src dst seq reason expected t => Sys2Proof.Machine.execNack src dst seq reason expected t s
  | .ack src dst seq t => Sys2Proof.Machine.execAck src dst seq t s
  | .ackTimeout src dst seq t => Sys2Proof.Machine.execAckTimeout src dst seq t s
  | .creditTimeout sw link t => Sys2Proof.Machine.execCreditTimeout sw link t s
  | .rebuild r t => Sys2Proof.Machine.execRebuild r t s
  | .genDrain t => Sys2Proof.Machine.execGenDrain t s
  | .genDone v1 t => Sys2Proof.Machine.execGenDone v1 t s
  | .genSwitchTimeout n t => Sys2Proof.Machine.execGenSwitchTimeout n t s
  | .resetWeights r t => Sys2Proof.Machine.execResetWeights r t s
  | .routeWeights r data t => Sys2Proof.Machine.execRouteWeights r data t s
  | .cmapInterval sw ports t => Sys2Proof.Machine.execCmapInterval sw ports t s
  | .fabricClockChange h mhz t => Sys2Proof.Machine.execFabricClockChange h mhz t s
  | .remoteHaul e id t => Sys2Proof.Machine.execRemoteHaul e id t s
  | .remoteTransmit e n peer t => Sys2Proof.Machine.execRemoteTransmit e n peer t s
  | .remoteSendFailed n peer pitch nrec t => Sys2Proof.Machine.execRemoteSendFailed n peer pitch nrec t s
  | .remoteMessage e msg t => Sys2Proof.Machine.execRemoteMessage e msg t s
  | .remoteInject e n t => Sys2Proof.Machine.execRemoteInject e n t s
  | .functionLevelReset f t => Sys2Proof.Machine.execFunctionLevelReset f t s
  | .perstN pin t => Sys2Proof.Machine.execPerstN pin t s
  | .slotGo f k w t => Sys2Proof.Machine.execSlotGo f k w t s
  | .slotDone f k status value t => Sys2Proof.Machine.execSlotDone f k status value t s
  | .qnotify f k w => Sys2Proof.Machine.execQnotify f k w s
  | .intCause f mask w => Sys2Proof.Machine.execIntCause f mask w s
  | .hostHeartbeat f w t => Sys2Proof.Machine.execHostHeartbeat f w t s
  | .heartbeatTimeout f t => Sys2Proof.Machine.execHeartbeatTimeout f t s
  | .continueExpiry n t => Sys2Proof.Machine.execContinueExpiry n t s
  | .portEnable r p v t => Sys2Proof.Machine.execPortEnable r p v t s
  | .portRetrain p fec t => Sys2Proof.Machine.execPortRetrain p fec t s
  | .cmReq p service peerId qpn t => Sys2Proof.Machine.execCmReq p service peerId qpn t s
  | .rdmaWrite p qpn rkey addr data t => Sys2Proof.Machine.execRdmaWrite p qpn rkey addr data t s
  | .fieldFrame p own mcast len room t => Sys2Proof.Machine.execFieldFrame p own mcast len room t s
  | .fieldLinkDown p t => Sys2Proof.Machine.execFieldLinkDown p t s
  | .ropeCheck primary hops t => Sys2Proof.Machine.execRopeCheck primary hops t s
  | .checkTimeout t => Sys2Proof.Machine.execCheckTimeout t s
  | .ropeState rope present lost t => Sys2Proof.Machine.execRopeState rope present lost t s
  | .announceTimer t => Sys2Proof.Machine.execAnnounceTimer t s
  | .announce node mac t => Sys2Proof.Machine.execAnnounce node mac t s
  | .objectTransmit j t => Sys2Proof.Machine.execObjectTransmit j t s
  | .objectIdleTransmit j t => Sys2Proof.Machine.execObjectIdleTransmit j t s
  | .objEnable r j v t => Sys2Proof.Machine.execObjEnable r j v t s
  | .readEntry r tag index sub off maxlen snap t => Sys2Proof.Machine.execReadEntry r tag index sub off maxlen snap t s
  | .writeEntry r tag index sub off total data t => Sys2Proof.Machine.execWriteEntry r tag index sub off total data t s
  | .readIndex r tag index first t => Sys2Proof.Machine.execReadIndex r tag index first t s
  | .describe r tag index sub t => Sys2Proof.Machine.execDescribe r tag index sub t s
  | .echo r tag body t => Sys2Proof.Machine.execEcho r tag body t s
  | .dictDatagram addr port linkLocal toPart msg t => Sys2Proof.Machine.execDictDatagram addr port linkLocal toPart msg t s
  | .snapshotExpiry r t => Sys2Proof.Machine.execSnapshotExpiry r t s
  | .assemblyTimeout r t => Sys2Proof.Machine.execAssemblyTimeout r t s
  | .submit k w t => Sys2Proof.Machine.execSubmit k w t s
  | .mailboxResponse k t => Sys2Proof.Machine.execMailboxResponse k t s
  | .noticeRemove k w => Sys2Proof.Machine.execNoticeRemove k w s
  | .mbxControl k w => Sys2Proof.Machine.execMbxControl k w s
  | .lockSet r v t => Sys2Proof.Machine.execLockSet r v t s
  | .store r t => Sys2Proof.Machine.execStore r t s
  | .storeErase r t => Sys2Proof.Machine.execStoreErase r t s
  | .storeWriteDone ok t => Sys2Proof.Machine.execStoreWriteDone ok t s
  | .registerWrite tgt data t => Sys2Proof.Machine.execRegisterWrite tgt data t s
  | .coreReset r c pass t => Sys2Proof.Machine.execCoreReset r c pass t s
  | .clusterReset r cl fails t => Sys2Proof.Machine.execClusterReset r cl fails t s
  | .partitionReset r n fails t => Sys2Proof.Machine.execPartitionReset r n fails t s
  | .deviceReset cause facts t => Sys2Proof.Machine.execDeviceReset cause facts t s
  | .porstNAssert ns t => Sys2Proof.Machine.execPorstNAssert ns t s
  | .bringup facts t => Sys2Proof.Machine.execBringup facts t s
  | .licenceInstall r data t => Sys2Proof.Machine.execLicenceInstall r data t s
  | .licenceRemove r id t => Sys2Proof.Machine.execLicenceRemove r id t s
  | .powerRequest src w fail t => Sys2Proof.Machine.execPowerRequest src w fail t s
  | .wake facts t => Sys2Proof.Machine.execWake facts t s
  | .wakeGpio pin rising t => Sys2Proof.Machine.execWakeGpio pin rising t s
  | .profileRequest r h v t => Sys2Proof.Machine.execProfileRequest r h v t s
  | .profileWaitTimeout h t => Sys2Proof.Machine.execProfileWaitTimeout h t s
  | .profileChange h t => Sys2Proof.Machine.execProfileChange h t s
  | .fabricClockReq r h v t => Sys2Proof.Machine.execFabricClockReq r h v t s
  | .thermalLoop h tj power t hotter => Sys2Proof.Machine.execThermalLoop h tj power t hotter s
  | .powerLimit held t => Sys2Proof.Machine.execPowerLimit held t s
  | .halfCurrent h t => Sys2Proof.Machine.execHalfCurrent h t s
  | .junctionThrottle dom temp t => Sys2Proof.Machine.execJunctionThrottle dom temp t s
  | .limitRelease k t => Sys2Proof.Machine.execLimitRelease k t s
  | .thermalTrip sensor temp t => Sys2Proof.Machine.execThermalTrip sensor temp t s
  | .coolantLoss src t => Sys2Proof.Machine.execCoolantLoss src t s
  | .coolantLossEnd t => Sys2Proof.Machine.execCoolantLossEnd t s
  | .coolantReport r flow inlet t => Sys2Proof.Machine.execCoolantReport r flow inlet t s
  | .coolantReportTimeout t => Sys2Proof.Machine.execCoolantReportTimeout t s
  | .packMask r tag t => Sys2Proof.Machine.execPackMask r tag t s
  | .fault rep t => Sys2Proof.Machine.execFault rep t s
  | .faultAck r v t => Sys2Proof.Machine.execFaultAck r v t s
  | .takeover c t => Sys2Proof.Machine.execTakeover c t s
  | .replayPitch c t => Sys2Proof.Machine.execReplayPitch c t s
  | .coldTakeover c t => Sys2Proof.Machine.execColdTakeover c t s
  | .cairnComplete c => Sys2Proof.Machine.execCairnComplete c s
  | .sliceTakeover u t => Sys2Proof.Machine.execSliceTakeover u t s
  | .storeRebuild cl t => Sys2Proof.Machine.execStoreRebuild cl t s
  | .controllerRestart cl detail t => Sys2Proof.Machine.execControllerRestart cl detail t s
  | .mgmtRestart detail t => Sys2Proof.Machine.execMgmtRestart detail t s
  | .swapOut r c t => Sys2Proof.Machine.execSwapOut r c t s
  | .swapOutTestDone c pass t => Sys2Proof.Machine.execSwapOutTestDone c pass t s
  | .stage r t => Sys2Proof.Machine.execStage r t s
  | .fwChunk r data t => Sys2Proof.Machine.execFwChunk r data t s
  | .stagingVerify t => Sys2Proof.Machine.execStagingVerify t s
  | .activate r t => Sys2Proof.Machine.execActivate r t s
  | .activation facts t => Sys2Proof.Machine.execActivation facts t s
  | .cancel r t => Sys2Proof.Machine.execCancel r t s
  | .confirm r t => Sys2Proof.Machine.execConfirm r t s
  | .reject r t => Sys2Proof.Machine.execReject r t s
  | .commitSvn r t => Sys2Proof.Machine.execCommitSvn r t s
  | .quote r t => Sys2Proof.Machine.execQuote r t s
  | .quoteSigned t => Sys2Proof.Machine.execQuoteSigned t s
  | .debugToken r data t => Sys2Proof.Machine.execDebugToken r data t s
  | .jtagMode r v t => Sys2Proof.Machine.execJtagMode r v t s
  | .supplyOutOfTolerance supply t => Sys2Proof.Machine.execSupplyOutOfTolerance supply t s
  | .vinCLow t => Sys2Proof.Machine.execVinCLow t s
  | .vinCBrownout facts t => Sys2Proof.Machine.execVinCBrownout facts t s
  | .vddAonBrownout t => Sys2Proof.Machine.execVddAonBrownout t s
  | .smbusBlockRead addr code t => Sys2Proof.Machine.execSmbusBlockRead addr code t s
  | .smbusBlockWrite addr code count data pec t => Sys2Proof.Machine.execSmbusBlockWrite addr code count data pec t s
  | .smbusTimeout t => Sys2Proof.Machine.execSmbusTimeout t s
  | .alertResponse t => Sys2Proof.Machine.execAlertResponse t s
  | .fieldLinkUp p t => Sys2Proof.Machine.execFieldLinkUp p t s
  | .perstNRelease t => Sys2Proof.Machine.execPerstNRelease t s
  | .pcieLinkUp width speed vfs => Sys2Proof.Machine.execPcieLinkUp width speed vfs s
  | .dataPortLinkUp p sub lanes => Sys2Proof.Machine.execDataPortLinkUp p sub lanes s
  | .supplyInTolerance supply t => Sys2Proof.Machine.execSupplyInTolerance supply t s
  | .mgmtRestartDone t => Sys2Proof.Machine.execMgmtRestartDone t s
  | .controllerRestartDone cl t => Sys2Proof.Machine.execControllerRestartDone cl t s
  | .icmpv6Message p kind data => Sys2Proof.Machine.execIcmpv6Message p kind data s
  | .roceAck n peer t => Sys2Proof.Machine.execRoceAck n peer t s
  | .cmMessage p kind qpn => Sys2Proof.Machine.execCmMessage p kind qpn s
  | .congestionNotification p qpn => Sys2Proof.Machine.execCongestionNotification p qpn s
  | .requesterCacheExpiry addr port t => Sys2Proof.Machine.execRequesterCacheExpiry addr port t s

end Sys2Proof.Machine
end

