-- ==== Sys2Proof/Safety.lean ====
section
/-!
DEFINITION. What a safe run is: every step answers a next state; the form that the memories and the dictionary of every
state of a run keep; and words of the statements: a tick that waits, a write that is performed, a packet that has a path.
-/

namespace Sys2Proof.Machine

/-- A step from `s` answers a next state: neither a fault nor a refusal. -/
def safeStep (s : State) : Bool :=
  match step s with
  | .next _ => true
  | .fault _ => false
  | .refused _ => false

/-- The memories are in their one canonical form: addresses rising, no byte listed that an unlisted address reads as. -/
def Memory.wf (m : Mem) : Bool := mwf (dLp m.lpFree) m.lp && mwf dByte m.sram && mwf dByte m.mram

/-- A state in canonical form: its memories are, and no dictionary entry is listed at its default. -/
def State.wf (s : State) : Bool := Memory.wf s.mem && mwf entryDefault s.dict

/-- What a tick of partition `n` numbered `num` at instant `inst` leaves in the sequencer (R39, R44, R45): it waits; a tick that
already waited, and the ticks `gone` of the schedule that it passes over, are merged, TICKS_MERGED counts them, and the cadence runs. -/
abbrev Ticked (a u : State) (n num inst : Nat) (gone : List Nat) : Prop :=
  let old := ((a.part n).seq.pendTick.map (·.1)).toList ++ gone
  (u.part n).seq.pendTick = some (num, inst) ∧
  (u.part n).seq.pendMerge = (a.part n).seq.pendMerge ++ old ∧
  (u.part n).seq.ticks = (a.part n).seq.ticks + 1 ∧ (u.part n).seq.lastTick = a.now ∧
  u.dget (kTicksMerged n) = (if old = [] then a.dget (kTicksMerged n) else satAdd 32 (a.dget (kTicksMerged n)) old.length) ∧
  u.dget (kCadenceState n) = 2

/-- A write of `v` to entry `k` by requester `r` is performed: the part answers `r` (R352, R450), the entry can be written in the present
DEVICE_STATE (R383) and by `r` (R351), its lock group is open (R366), it is not read-only, and its power domain is on (R410). -/
abbrev State.Accepts (s : State) (r : Requester) (k v : Nat) : Prop :=
  s.hears r = true ∧ s.gate 2 k = true ∧ s.reqWrites r k v = true ∧ s.locked k = false ∧ (entryAccess k == Access.ro) = false ∧
    s.domainOff k v = false

/-- Packet `p`, which meets the errors `e` on its way, has a path from `s`, and `c` is the state in which it starts (R302 to R304): beside
the spine, or up the uplink that its source's stage chooses and over that uplink's spine switch. -/
abbrev State.Routed (s : State) (p : Packet) (e : Trip) (c : State) (spine : Option Nat) : Prop :=
  let b := s.noteCopy p
  let x := b.stageOf p.src
  let y := b.downStage p.gen p.dst
  s.unsent p = false ∧ b.staleGen p.gen = false ∧
    (crossesSpine p x y = false ∧ c = b ∧ spine = none ∨
      crossesSpine p x y = true ∧ ∃ u, b.uplinkFor p e ((s.fab.unacked.find? (s.isCopy p.src p.dst p.seq)).bind (·.via)) x y = some u ∧
        c = b.tookUplink p x u ∧ spine = some (uplinkSpine x u))

/-- No link of the packet's path from `c` over `spine` is excluded (R306). -/
abbrev State.PathClear (c : State) (p : Packet) (spine : Option Nat) : Prop :=
  ∀ k ∈ c.pathLinks p spine, k ∉ c.fab.excluded

end Sys2Proof.Machine
end

