-- ==== Sys2Proof/Certificates/Slice0/Obligations.lean ====
section
/-!
DEFINITION. The statements for the provers, from the spec's numbered rules. In each of them `a` is the state at the instant of the
command; a statement that a command answers `.next` of a written-out state says all that the command changes, and so its frame.
-/

open Sys2Proof Sys2Proof.Machine

/-! ### The machine as a whole -/

/-- A step takes the command at the front of the queue and answers what `exec` answers for it on the state with the rest of the
queue; with an empty queue the block idles (assumption 6). -/
def Obligations.StepRunsTheFrontCommand : Prop :=
  (∀ (c : Instr) (r : List Instr) (s : State), s.pending = c :: r → step s = exec c { s with pending := r }) ∧
    ∀ s : State, s.pending = [] → step s = .next s

/-- The state after reset is in canonical form: no stored byte or entry equals what an unlisted one reads as. -/
def Obligations.ResetIsCanonical : Prop := State.wf State.reset = true

/-- From every state in canonical form a step answers a next state in canonical form; it takes one command from the queue and adds
none, local time does not go back, no fuse of a bad unit changes, and the fused security version does not fall. -/
def Obligations.StepKeepsTheInvariant : Prop :=
  ∀ s : State, State.wf s = true → ∃ u, step s = .next u ∧ State.wf u = true ∧ u.pending = s.pending.drop 1 ∧
    s.clk.now ≤ u.clk.now ∧ u.floor.fuses = s.floor.fuses ∧ s.sec.svnFused ≤ u.sec.svnFused

/-! ### Pitches (chapter 2) -/

/-- A tick reaches the partitions bound to its source (R32, R34 to R38). TSN_TICK: tick `k`, at or after its instant ORIGIN_TIME +
k × PERIOD of the partition's schedule and before the next one, where `k` follows the last tick or is the first one at least 50 µs after
the enable; the ticks between them are merged (log 10). CADENCE_IN_EDGE: the selected edge, no sooner than CIN_MIN_INTERVAL after the
last accepted one. QUAD_TRANSITION: a legal count moves the extended position, an illegal one, or one within twice QUAD_FILTER of the
last, is counted. PITCH_TRIGGER: a set bit that the function may trigger is a tick or is counted. -/
def Obligations.TicksReachTheirPartitions : Prop :=
  (∀ (s : State) (n k t : Nat), let a := s.at t
    let late := a.schedNow n - ((a.dget (kOriginTime n) + k * a.periodNs n : Nat) : Int)
    n ∈ a.bound 1 → k < 2 ^ 48 → 0 ≤ late → late < a.periodNs n →
    (lastTickNo (a.part n).seq = none ∧ (a.part n).seq.enabledAt + 50000 + late.toNat ≤ a.now ∨
      ∃ j, lastTickNo (a.part n).seq = some j ∧ j < k) →
    ∃ u, exec (.tsnTick n k t) s = .next u ∧ Ticked a u n k (a.now - late.toNat) (skipped (lastTickNo (a.part n).seq) k) ∧
      (∀ m, m ≠ n → u.part m = a.part m) ∧ ((a.part n).seq.slew = 0 → u.clk = a.clk) ∧ u.clk.now = a.clk.now ∧ u.clk.tsn = a.clk.tsn ∧
      u = { a with clk := u.clk, parts := u.parts, dict := u.dict }) ∧
  (∀ (s : State) (rising : Bool) (t : Nat), let a := s.at t
    (rising = true ↔ a.dget kCinEdge = 0) → (∀ i, a.clk.cinAt = some i → i + a.dget kCinMinInterval * 1000 ≤ a.now) →
    ∃ u, exec (.cadenceInEdge rising t) s = .next u ∧ u.clk = { a.clk with cinAt := some a.now } ∧ u.dget kCinLastTime = a.tsnNow ∧
      u.dget kCinCount = wrapAdd 64 (a.dget kCinCount) 1 ∧
      (∀ n, if n ∈ a.bound 2 ∧ a.dget (kPitchBase n) + (a.part n).seq.ticks < 2 ^ 48 then
          Ticked a u n (a.dget (kPitchBase n) + (a.part n).seq.ticks) a.now [] else u.part n = a.part n) ∧
      u = { a with clk := u.clk, parts := u.parts, dict := u.dict }) ∧
  (∀ (s : State) (rising : Bool) (t i : Nat), let a := s.at t
    (rising = true ↔ a.dget kCinEdge = 0) → a.clk.cinAt = some i → a.now < i + a.dget kCinMinInterval * 1000 →
    exec (.cadenceInEdge rising t) s = .next (a.dadd kCinRejected 1)) ∧
  (∀ (s : State) (t : Nat) (x y : Bool), let a := s.at t
    let d := (quadState x y + 4 - quadState a.clk.phaseA a.clk.phaseB) % 4
    let legal := (d = 1 ∨ d = 3) ∧ a.quadFast = false
    let pos := a.clk.quadExt + (if ¬ legal then 0 else if d = 1 then 1 else -1)
    ∃ u, exec (.quadTransition x y t) s = .next u ∧
      u.clk = { a.clk with phaseA := x, phaseB := y, quadExt := pos, quadAt := if d = 0 then a.clk.quadAt else some a.now } ∧
      (legal → u.dget kQuadPosition = ofInt 32 pos) ∧
      u.dget kQuadErrors = (if d = 0 ∨ legal then a.dget kQuadErrors else satAdd 32 (a.dget kQuadErrors) 1) ∧
      (∀ n, n ∉ a.bound 3 ∨ ¬ legal → u.part n = a.part n) ∧
      (∀ n, n ∈ a.bound 3 → legal → a.dget (kPitchBase n) + (a.part n).seq.ticks < 2 ^ 48 →
        if (if a.dget kQuadMode = 0 then (a.part n).seq.quadP0 + ((a.part n).seq.quadJ * a.dget (kQuadCounts n) : Nat) ≤ pos
            else a.dget (kQuadCounts n) ≤ (a.part n).seq.quadAbs + 1) then
          Ticked a u n (a.dget (kPitchBase n) + (a.part n).seq.ticks) a.now [] else (u.part n).seq.pendTick = (a.part n).seq.pendTick) ∧
      u = { a with clk := u.clk, parts := u.parts, dict := u.dict }) ∧
  (∀ (s : State) (f w t : Nat), let a := s.at t
    a.hostSees f = true →
    ∃ u, exec (.pitchTrigger f w t) s = .next u ∧
      (∀ n, if bit w n = true ∧ mayTrigger f n = true ∧ n ∈ a.bound 4 ∧ a.dget (kPitchBase n) + (a.part n).seq.ticks < 2 ^ 48 then
          Ticked a u n (a.dget (kPitchBase n) + (a.part n).seq.ticks) a.now [] else u.part n = a.part n) ∧
      (let l := (List.range 8).filter (fun n => bit w n && mayTrigger f n && a.dget (kCadenceSource n) != 4);
        u.dget kTriggerIgnored = if l = [] then a.dget kTriggerIgnored else satAdd 32 (a.dget kTriggerIgnored) l.length) ∧
      u = { a with parts := u.parts, dict := u.dict })

/-- The opening of a pitch and the marks it gathers (R39, R51, R56, R57, R43, R62). PITCH_OPEN: the waiting tick becomes the open pitch
once the partition may open it. WATCH_POINT marks the pitch; with DEADLINE_ADAPT 1 and a core not drained it raises voltage, which is counted.
DEADLINE counts the pitch once and flags its ledger record. TRUNCATE_INSTANT under TRUNCATE or STRETCH does the same. BELAY_TIMEOUT
names the core once and fails it. CADENCE_LOSS sets CADENCE_STATE 3 and issues the warning; under HOLD it holds the outputs, under any other
action it quiesces the partition. -/
def Obligations.PitchOpensAndIsMarked : Prop :=
  (∀ (s : State) (n t num inst : Nat), let a := s.at t
    (a.part n).seq.pendTick = some (num, inst) → a.mayOpen n inst = true →
    ∃ u, exec (.pitchOpen n t) s = .next u ∧
      (u.part n).seq = { (a.part n).seq with
        isOpen := true, prevPitch := (a.part n).seq.pitch, pitch := num, openAt := a.now, everOpen := true, pendTick := none
        merged := (a.part n).seq.pendMerge, pendMerge := [], belays := [], westAt := 0, eastAt := 0, overrun := false, watched := false
        truncAt := none, absorbAt := none, timedOut := [] } ∧
      (∀ m, m ≠ n → (u.part m).seq = (a.part m).seq) ∧ u.mem = a.mem ∧ u.queues = a.queues ∧ u.syncs = a.syncs ∧ u.keep = a.keep ∧
      u.sec = a.sec ∧ u.pins = a.pins ∧ u.reqs = a.reqs) ∧
  (∀ (s : State) (n t : Nat), let a := s.at t
    (a.part n).seq.isOpen = true → (a.part n).seq.watched = false →
    (a.part n).seq.openAt * 100 + a.eff (kWatchFraction n) * (a.periodNs n - a.guardNs n) ≤ a.now * 100 →
    let raises := a.eff (kDeadlineAdapt n) ≠ 0 ∧ a.rel.mgmtUp = true ∧ a.undrained n ≠ []
    ∃ u, exec (.watchPoint n t) s = .next u ∧ (u.part n).seq = { (a.part n).seq with watched := true } ∧
      (¬ raises → u = a.modPart n (fun p => { p with seq := { p.seq with watched := true } })) ∧
      (raises → u.dget (kVoltageRaises n) = satAdd 32 (a.dget (kVoltageRaises n)) 1) ∧
      (∀ m, m ≠ n → u.part m = a.part m) ∧ u = { a with parts := u.parts, dict := u.dict, pow := u.pow }) ∧
  (∀ (s : State) (n t : Nat), let a := s.at t
    (a.part n).seq.isOpen = true → (a.part n).seq.openAt + a.periodNs n - a.guardNs n < a.now →
    exec (.deadline n t) s = .next (if (a.part n).seq.overrun = true then a
      else ((a.modPart n (fun p => { p with seq := { p.seq with overrun := true } })).dadd (kOverrunCount n) 1).ledgerFlag n 0)) ∧
  (∀ (s : State) (n t : Nat), let a := s.at t
    (a.part n).seq.isOpen = true → (a.part n).seq.truncAt = none → a.eff (kOverrunPolicy n) = 1 ∨ a.eff (kOverrunPolicy n) = 2 →
    (a.part n).seq.openAt + a.periodNs n - a.guardNs n + (if a.eff (kOverrunPolicy n) = 2 then a.eff (kStretchLimit n) * 1000 else 0) ≤ a.now →
    exec (.truncateInstant n t) s = .next
      (((a.modPart n (fun p => { p with seq := { p.seq with truncAt := some a.now } })).dadd (kTruncateCount n) 1).ledgerFlag n 1)) ∧
  (∀ (s : State) (n c t : Nat), let a := s.at t
    let q := (a.part n).seq
    q.isOpen = true → (q.openAt + 10 * a.periodNs n ≤ a.now ∨ (∃ x, q.truncAt = some x ∧ a.truncLate n x = true) ∨
      ∃ x, q.absorbAt = some x ∧ x + 60000 ≤ a.now) →
    c ∈ a.partCores n → (a.core c).belaySent = false → c ∉ q.timedOut →
    ∃ u, exec (.belayTimeout n c t) s = .next u ∧ (u.part n).seq = { q with timedOut := q.timedOut ++ [c] } ∧
      (∀ m, m ≠ n → (u.part m).seq = (a.part m).seq) ∧ u.queues = a.queues ∧ u.syncs = a.syncs ∧ u.keep = a.keep ∧ u.sec = a.sec ∧ u.reqs = a.reqs) ∧
  (∀ (s : State) (n t : Nat), let a := s.at t
    running (a.part n) = true → 2 ≤ a.dget (kCadenceSource n) → a.dget (kCadenceState n) ≠ 3 →
    (a.part n).seq.lastTick + a.eff (kCadenceTimeout n) * a.periodNs n ≤ a.now →
    ∃ u, exec (.cadenceLoss n t) s = .next u ∧
      (a.eff (kCadenceLossAction n) = 0 → (u.part n).hold = true ∧ (∀ m, (u.part m).seq = (a.part m).seq) ∧ u.cores = a.cores ∧
        u.mem = a.mem) ∧
      (a.eff (kCadenceLossAction n) ≠ 0 → (u.part n).quiesced = true) ∧ u.queues = a.queues ∧ u.syncs = a.syncs ∧ u.sec = a.sec)

/-- Time and belays (R33, R41, R342, R450). SYNC_MESSAGE of gPTP domain 0 with peer-to-peer delay and a log interval from −7 to 0 on the port that TIME_PORT names
(R341; on a data port, its subport 0) moves the counter by the offset, which each
partition on that time slews or steps to (R34); the eighth running with less than 1 µs makes TIME_STATE SYNCED. SYNC_TIMEOUT: SYNCED
becomes HOLDOVER once three sync intervals have passed since the last message. HOLDOVER_LIMIT is said once. CLUSTER_BELAY is noted with the instant of its half and raises VC0_PEAK; the last one is the
belay, and closes the pitch. CONTINUE_EXPIRY: the partition is quiesced, at its belay. -/
def Obligations.TimeAndBelaysAreNoted : Prop :=
  (∀ (s : State) (m : SyncInfo) (offset : Int) (t : Nat), let a := s.at t
    let good := if offset.natAbs < 1000 then min 8 (a.clk.goodSync + 1) else 0
    a.dget kTimePort = m.port → m.port < 4 → a.timeUp m.port = true → m.domain = 0 → m.p2p = true → -7 ≤ m.log → m.log ≤ 0 →
    m.port < 2 ∨ m.sub = 0 →
    ∃ u, exec (.syncMessage m offset t) s = .next u ∧
      u.clk = { a.clk with tsn := a.clk.tsn + offset, goodSync := good, syncAt := a.now, syncLog := m.log } ∧
      u.dget kTimeState = (if good = 8 then 1 else a.dget kTimeState) ∧
      (∀ n, if n ∈ a.bound 1 ∧ offset ≠ 0 then
          (u.part n).seq.slew = (if a.periodNs n < 2 * ((a.part n).seq.slew + offset).natAbs then 0 else (a.part n).seq.slew + offset)
        else u.part n = a.part n) ∧
      u = { a with clk := u.clk, dict := u.dict, parts := u.parts }) ∧
  (∀ (s : State) (t : Nat), let a := s.at t
    a.dget kTimeState = 1 → a.clk.syncAt + 3 * 1000000000 / 2 ^ (-a.clk.syncLog).toNat ≤ a.now →
    exec (.syncTimeout t) s = .next
      ((a.dset kTimeState 2).modClk (fun c => { c with goodSync := 0, holdSince := a.now, lostSaid := false }))) ∧
  (∀ (s : State) (t : Nat), let a := s.at t
    a.dget kTimeState = 2 → a.clk.lostSaid = false → a.clk.holdSince + a.dget kHoldoverLimit * 1000000 < a.now →
    ∃ u, exec (.holdoverLimit t) s = .next u ∧ u.clk.lostSaid = true ∧ u.clk.now = a.clk.now ∧
      (∀ n, n < 8 → running (a.part n) = true → a.dget (kCadenceSource n) = 1 → u.dget (kTimeLost n) = 1) ∧
      u = { a with clk := u.clk, dict := u.dict, ports := u.ports, rel := u.rel, outbox := u.outbox }) ∧
  (∀ (s : State) (n cl t : Nat), let a := s.at t
    (a.part n).seq.isOpen = true → (a.part n).mask.testBit cl = true → (a.cluster cl).belaySent = true → cl ∉ (a.part n).seq.belays →
    exec (.clusterBelay n cl t) s = .next (
      let b := (a.modPart n (fun p => { p with seq := { p.seq with
          belays := p.seq.belays ++ [cl]
          westAt := if halfOf cl = 0 then a.now else p.seq.westAt
          eastAt := if halfOf cl = 0 then p.seq.eastAt else a.now } })).dset kVc0Peak
        (max (a.dget kVc0Peak) (min (2 ^ 32 - 1) (a.now - (a.cluster cl).pathFrom)))
      if ∀ x ∈ partClusters (a.part n), x = cl ∨ x ∈ (a.part n).seq.belays then b.closePitch n else b)) ∧
  (∀ (s : State) (n t : Nat), let a := s.at t
    (a.part n).hostLoss = true → (a.part n).contLeft = some 0 →
    exec (.continueExpiry n t) s = .next (
      let b := a.modPart n (fun p => { p with quiesced := true, contLeft := none })
      if (a.part n).state ≠ .enabled then b
      else if (a.part n).seq.isOpen = true then b.modPart n (fun p => { p with state := .disabling, disable := some (p.disable.getD .belay) })
      else b.disableEffect n))

/-! ### Cores (chapters 3 to 5) -/

/-- The marks of a core in a pitch (R39, R40, R41, R57, R122, R171). OPEN at a used live core clears its accumulators and outlier sums and
opens the pitch; with no long-delay record due it detaches the slots due from the ring, and the other cores stand. DRAIN sends the belay
picot; BELAY, once no haul of the core is in flight and no packet of it is unacknowledged, is noted at the leaf, whose cluster belay follows when it is ready; CLOSE closes the
pitch. TRUNCATE discards what is not accumulated and counts it. ABSORB discards the work in flight. -/
def Obligations.CoresOpenDrainAndClose : Prop :=
  (∀ (s : State) (c t : Nat), let a := s.at t
    let p := (a.coreP c).seq.pitch
    a.corePresent c = true → (a.coreP c).seq.isOpen = true → (a.core c).isOpen = false → (a.core c).mode = .live →
    usesCore (activeSlot (a.coreP c)) c = true →
    ∃ u, exec (.openPicot c t) s = .next u ∧ (u.core c).isOpen = true ∧ (u.core c).pitch = p ∧ (u.core c).openedAt = a.now ∧
      (u.core c).sweepDone = false ∧ (u.core c).belaySent = false ∧ (u.core c).truncated = false ∧ (u.core c).absorbed = false ∧
      u.cm.acc = mclear a.cm.acc (c * 16384) 16384 ∧ u.cm.osum = mclear a.cm.osum (c * 2048) 2048 ∧ u.cm.neurons = a.cm.neurons ∧
      (∀ d, d ≠ c → u.core d = a.core d) ∧
      ((∀ e ∈ (a.cluster (clusterOf c)).lds, e.core = c % 16 → bucketDue e.target p = false) →
        (u.core c).intake = detach (a.core c).ring p ++ (a.core c).intake ∧
        (u.core c).ring = (a.core c).ring.filter (fun e => decide (p < e.target))) ∧
      u = { a with cores := u.cores, cm := u.cm, clusters := u.clusters, parts := u.parts, dict := u.dict }) ∧
  (∀ (s : State) (c : Nat), s.liveCore c = true → (s.core c).belaySent = false → s.drained c = true →
    exec (.drain c) s = .next (s.modCore c (fun k => { k with belaySent := true, belayAt := s.now }))) ∧
  (∀ (s : State) (c : Nat), (s.core c).isOpen = true → (s.core c).belaySent = true → s.noHauls c = true → s.noCopies c = true →
    exec (.belay c) s = .next (
      let b := s.modCore c (fun k => { k with belayRcvd := true })
      if b.clusterReady (clusterOf c) then
        b.modCluster (clusterOf c) (fun q => { q with belaySent := true, pathFrom := (s.core c).belayAt }) else b)) ∧
  (∀ (s : State) (c t : Nat), let a := s.at t
    (a.core c).isOpen = true → (a.coreP c).seq.isOpen = false →
    exec (.closePicot c t) s = .next ((a.modCore c (fun k => { k with isOpen := false, belaySent := false, belayRcvd := false })).modFab
      (fun f => { f with toSwitch := f.toSwitch.filter (· != c) }))) ∧
  (∀ (s : State) (c t : Nat), let a := s.at t
    (a.coreP c).seq.truncAt.isSome = true → a.liveCore c = true → (a.core c).belaySent = false → (a.core c).truncated = false →
    (a.core c).absorbed = false → a.drained c = false →
    exec (.truncate c t) s = .next (a.modCore c (fun k => { k with
      truncated := true, intake := [], deferred := [], openHauls := []
      led := { k.led with truncIn := k.led.truncIn + realRecs k.intake, withheld := k.led.withheld + haulEvents k.openHauls } }))) ∧
  (∀ (s : State) (c : Nat),
    (s.coreP c).seq.absorbAt.isSome = true → s.liveCore c = true → (s.core c).belaySent = false → (s.core c).absorbed = false →
    s.drained c = false →
    ∃ u, exec (.absorb c) s = .next u ∧
      u.core c = { s.core c with
        absorbed := true, intake := [], deferred := [], openHauls := [], led := (u.core c).led } ∧
      (∀ d, d ≠ c → u.core d = s.core d) ∧ u = { s with cores := u.cores, cm := u.cm, dict := u.dict })

/-- Row reads (R131 to R133). PREFETCH of a row whose directory entry is not cached reads the entry first; with no room it is
deferred, counted, and PREFETCH_RETRY issues it once there is room. READ_DATA of a row enters it, as resident where it waits to
reside again and there is room, and of a directory entry goes on to the row; a read that failed, or that comes too late, is dropped. -/
def Obligations.RowsArePrefetched : Prop :=
  (∀ (s : State) (c r : Nat) (l : List CacheObj), s.mayRead c = true → s.nextPrefetch c = some r →
    s.roomIn c (s.core c).cache (s.rowUnits (activeSlot (s.coreP c)) c r + 1) = some l →
    exec (.prefetch c) s = .next (
      let b := s.modCore c (fun k => { k with cache := l, deferred := k.deferred.filter (· != r) })
      (if cacheFind l .dir r = none then (b.modCore c (fun k => { k with reads := k.reads ++ [⟨r, false⟩] })).bump c 0x28 1
        else ((b.modCore c (fun k => { k with cache := cacheHit k.cache .dir r, reads := k.reads ++ [⟨r, true⟩] })).bump c 0x20 1).bump c
          0x28 1).modCore c repin)) ∧
  (∀ (s : State) (c r : Nat), s.mayRead c = true → s.nextPrefetch c = some r →
    s.roomIn c (s.core c).cache (s.rowUnits (activeSlot (s.coreP c)) c r + 1) = none → r ∉ (s.core c).deferred →
    exec (.prefetch c) s = .next (((s.modCore c (fun k => { k with
      deferred := if k.deferred.contains r then k.deferred else k.deferred ++ [r] })).bump c 0x74 1).modCore c repin)) ∧
  (∀ (s : State) (c r : Nat) (w : List Nat) (l : List CacheObj), s.mayRead c = true → (s.core c).deferred = r :: w →
    s.roomIn c (s.core c).cache (s.rowUnits (activeSlot (s.coreP c)) c r + 1) = some l →
    exec (.prefetchRetry c) s = .next (
      let b := s.modCore c (fun k => { k with cache := l, deferred := k.deferred.filter (· != r) })
      if cacheFind l .dir r = none then (b.modCore c (fun k => { k with reads := k.reads ++ [⟨r, false⟩] })).bump c 0x28 1
      else ((b.modCore c (fun k => { k with cache := cacheHit k.cache .dir r, reads := k.reads ++ [⟨r, true⟩] })).bump c 0x20 1).bump c
        0x28 1)) ∧
  (∀ (s : State) (c row : Nat) (ok : Bool) (l : List CacheObj),
    (s.core c).reads.find? (fun q => q.row == row) = some ⟨row, false⟩ → (s.core c).truncated = false → (s.core c).absorbed = false →
    s.roomIn c (s.core c).cache 1 = some l → ok = true → s.dirBad (activeSlot (s.coreP c)) c row = false →
    exec (.readData c row ok) s = .next (((s.modCore c (fun k => { k with cache := l ++ [⟨.dir, row, .cached, 0, 1, false⟩] })).modCore c (fun k =>
      { k with reads := k.reads.map (fun q => if q.row == row then { q with dirDone := true } else q) })).bump c 0x28 1)) ∧
  (∀ (s : State) (c row : Nat) (ok : Bool) (q : RowRead),
    (s.core c).reads.find? (fun q => q.row == row) = some q → (s.core c).truncated = true ∨ (s.core c).absorbed = true ∨
      q.dirDone = false ∧ (ok = false ∨ s.dirBad (activeSlot (s.coreP c)) c row = true) →
    exec (.readData c row ok) s = .next (s.modCore c (fun k => { k with reads := k.reads.filter (fun q => q.row != row) }))) ∧
  (∀ (s : State) (c row : Nat) (l : List CacheObj), let sl := activeSlot (s.coreP c)
    (s.core c).reads.find? (fun q => q.row == row) = some ⟨row, true⟩ → (s.core c).truncated = false → (s.core c).absorbed = false →
    cacheFind (s.core c).cache .row row = none → s.roomIn c (s.core c).cache (s.rowUnits sl c row) = some l → s.rowBad sl c row = false →
    exec (.readData c row true) s = .next (
      let b := s.modCore c (fun k => { k with reads := k.reads.filter (fun q => q.row != row) })
      let cls := if b.mayReside c row (s.rowUnits sl c row) then CacheClass.resident else .pinned
      b.modCore c (fun k => repin { k with
        cache := l ++ [⟨.row, row, cls, 0, s.rowUnits sl c row, false⟩], awaited := k.awaited.filter (· != row) })))

/-- Events, sweeps, hauls and journals (R72, R96, R120, R121, R136, R137, R188, R214). EVENT_ACCUMULATE of an event with COUNT 0 counts
it and of a padding word does nothing; of a row that was fetched and checked it adds the row, and where traces are on updates them; a row
fault is counted and reported. INTEGRATE_SWEEP ends the accumulation. HAUL_OPEN_TIMEOUT launches the haul. An arriving haul is taken; an
event of 1 to 32 pitches of delay goes to the ring of its target pitch. A journal record goes to the journal of the open pitch. At the end
of a stall the waiting spikes go on until none waits or the buffer is full. ENCODE_DONE reaches every cluster with a target of the stream. -/
def Obligations.EventsReachTheirPitch : Prop :=
  (∀ (s : State) (c t : Nat) (e : EvRec) (r : List EvRec) (row : Row) (b : State), let a := s.at t
    let i := a.modCore c (fun k => repin { k with intake := r })
    a.liveCore c = true → (a.core c).sweepDone = false → (a.core c).truncated = false → (a.core c).absorbed = false →
    (a.core c).intake = e :: r → e.word ≠ 0 → evCount e.word ≠ 0 →
    i.fetchRow (activeSlot (i.coreP c)) c e.word = (some row, b) →
    exec (.eventAccumulate c t) s = .next (
      let d := b.accumulateRow c (evCount e.word) row
      (if i.traceOn c = false then d else match d.rowRun (activeSlot (i.coreP c)) c (evRow e.word) with
        | none => d
        | some p => d.tracePre (d.coreN c) p.1 p.2 (mget dProj (activeSlot (i.coreP c)).projs p.2.proj).bank (evRow e.word) row (evCount e.word)
            (a.core c).pitch).modCore c repin)) ∧
  (∀ (s : State) (c t : Nat) (e : EvRec) (r : List EvRec) (b : State), let a := s.at t
    let i := a.modCore c (fun k => repin { k with intake := r })
    a.liveCore c = true → (a.core c).sweepDone = false → (a.core c).truncated = false → (a.core c).absorbed = false →
    (a.core c).intake = e :: r → e.word ≠ 0 → evCount e.word ≠ 0 →
    i.fetchRow (activeSlot (i.coreP c)) c e.word = (none, b) →
    exec (.eventAccumulate c t) s = .next (let d := b.bump c 0x60 1
      (d.reportUnit 0x0106 0 1 (d.physCore c) (d.partOf (clusterOf c)) (evRow e.word)).modCore c repin)) ∧
  (∀ (s : State) (c t : Nat) (e : EvRec) (r : List EvRec), let a := s.at t
    a.liveCore c = true → (a.core c).sweepDone = false → (a.core c).truncated = false → (a.core c).absorbed = false →
    (a.core c).intake = e :: r → e.word = 0 ∨ evCount e.word = 0 →
    exec (.eventAccumulate c t) s = .next (
      let i := a.modCore c (fun k => repin { k with intake := r })
      if e.word = 0 then i else i.bump c 0x6C 1)) ∧
  (∀ (s : State) (c t : Nat), let a := s.at t
    let groups := (a.coreP c).win.groups
    let x := (a.writeCairn c).sweep c false ((a.coreP c).seq.truncAt.isSome || (a.coreP c).seq.absorbAt.isSome)
      (fun g => (mget dScale groups g).cur)
    a.sweepDue c = true →
    ∃ u, exec (.integrateSweep c t) s = .next u ∧ (u.core c).sweepDone = true ∧ u.cm.neurons = x.1.cm.neurons ∧
      u.queues = a.queues ∧ u.syncs = a.syncs ∧ u.keep = a.keep ∧ u.sec = a.sec) ∧
  (∀ (s : State) (c dst t : Nat) (o : OpenHaul), let a := s.at t
    (a.core c).openHauls.find? (fun o => o.dst == dst) = some o → o.opened + 256 ≤ a.now →
    exec (.haulOpenTimeout c dst t) s = .next (
      let b := a.modCore c (fun k => { k with openHauls := k.openHauls.filter (fun q => q.dst != o.dst) })
      (State.bump { b with
        hauls := mset dNone b.hauls b.haulNext (some
          ⟨if o.dst < 2048 then .event else .remote, c, o.dst, o.events, o.remotes, (b.core c).pitch, b.coreN c⟩)
        haulNext := b.haulNext + 1 } c 0x10 (o.events.length + o.remotes.length)))) ∧
  (∀ (s : State) (id t : Nat) (h : Haul), let a := s.at t
    mget dNone a.hauls id = some h → h.kind = .event →
    ∃ u, exec (.eventHaulArrival id t) s = .next u ∧ mget dNone u.hauls id = none ∧ (∀ d, d ≠ h.dst → u.core d = a.core d) ∧
      u.queues = a.queues ∧ u.syncs = a.syncs ∧ u.mem = a.mem) ∧
  (∀ (s : State) (id t : Nat) (h : Haul) (w : BitVec 64), let a := s.at t
    let k := a.core h.dst
    let tgt := h.pitch + evDelay w
    mget dNone a.hauls id = some h → h.kind = .event → h.events = [w] → k.mode = .live ∨ k.mode = .excused → w ≠ 0 → evCount w ≠ 0 →
    1 ≤ evDelay w → evDelay w ≤ 32 → ringCount k (tgt % 32) % 32 ≠ 0 ∨ segsUsed k < 256 →
    ∃ u, exec (.eventHaulArrival id t) s = .next u ∧ (u.core h.dst).ring = k.ring ++ [{ word := evSetDelay w (tgt % 1024), target := tgt }] ∧
      mget dNone u.hauls id = none ∧ (∀ d, d ≠ h.dst → u.core d = a.core d) ∧
      u = { a with hauls := u.hauls, cores := u.cores, cm := u.cm, dict := u.dict, fab := u.fab, outbox := u.outbox }) ∧
  (∀ (s : State) (cl : Nat) (e : JEntry) (r : List JEntry),
    (s.cluster cl).journalBuf = e :: r → s.localArea cl = true →
    exec (.journalRecord cl) s = .next (
      let b := (s.modCluster cl (fun q => { q with journalBuf := r })).modCluster cl (fun q => { q with
        journal := trimJournal (journalAdd q.journal (s.pitchOf ((s.partOf cl).getD 8)) [e]), jNext := (q.jNext + jSum [e]) % journalRing })
      if b.clusterReady cl then b.modCluster cl (fun q => { q with belaySent := true, pathFrom := s.now }) else b)) ∧
  (∀ (s : State) (c t : Nat), let a := s.at t
    (a.core c).stalled = true → (a.cluster (clusterOf c)).journalBuf.length < 512 →
    ∃ u, exec (.journalStallEnd c t) s = .next u ∧
      ((u.core c).stalled = false ∧ (u.core c).emitQ = [] ∨ (u.core c).stalled = true ∧ 512 ≤ (u.cluster (clusterOf c)).journalBuf.length) ∧
      ((a.core c).emitQ = [] → (a.core c).sweepDone = false → u = a.modCore c (fun k => { k with stalled := false }))) ∧
  (∀ (s : State) (k t n : Nat) (tl : Tile), let a := s.at t
    (a.stream k).encoding = true → (a.stream k).unlaunched = [] → a.noEncoded k = true → a.noEncodedCopies k = true → a.convOf k = some (n, tl) →
    ∃ u, exec (.encodeDone k t) s = .next u ∧ (u.stream k).encoding = false ∧
      (∀ c ∈ a.stCores tl, k ∈ (u.cluster (clusterOf c)).encDone) ∧ u = { a with streams := u.streams, clusters := u.clusters }) ∧
  (∀ (s : State) (cl : Nat), (∀ k ∈ s.clusterStreams ((s.partOf cl).getD 8) cl, k ∈ (s.cluster cl).encDone) →
    exec (.encodeDoneReceive cl) s = .next ((s.modCluster cl (fun q => { q with encFwd := true })).each (s.clCores cl)
      (fun s c => s.modCore c (fun k => { k with settleAt := if k.encWait then s.now else k.settleAt, encWait := false }))))

/-! ### Partitions and images (chapter 6) -/

/-- PARTITION_COMMAND (R163, R165, R166, R169 to R171), written by a requester whose write is performed. CREATE takes free clusters with
cores, whose gated islands are switched on and their cores tested (R394, R418); LOAD with every check passed starts the load, and with a check failed leaves the slot FAILED; ENABLE starts a READY partition whose
source is bound; DISABLE and DISABLE_NOW of an open pitch wait for its belay; SWAP of an ENABLED partition waits, in READY acts at once, and
cancels a SWAP that waits; UNLOAD, of the ACTIVE slot outside ENABLED alone, and DESTROY free the slots. -/
def Obligations.PartitionCommandsTakeEffect : Prop :=
  (∀ (s : State) (r : Requester) (m : CreateOp) (t : Nat), let a := s.at t
    let n := m.part
    a.Accepts r (kPartitionCommand n) 1 → n < 8 → (a.part n).state = .absent → a.dget (kClusterMask n) ≠ 0 →
    (∀ c ∈ maskList 128 (a.dget (kClusterMask n)), a.partOf c = none ∧ a.clCores c ≠ []) →
    exec (.create r m t) s = .next (((a.switchIslands (a.wokenClusters (maskList 128 (a.dget (kClusterMask n)))) m.fails).modPart n (fun p =>
      { p with state := .created, mask := a.dget (kClusterMask n), active := none, slot0 := {}, slot1 := {} })).answer r (kPartitionCommand n) stOk)) ∧
  (∀ (s : State) (r : Requester) (n t : Nat), let a := s.at t
    let i := a.sel r (kImageSlot n)
    let addr := a.dget (kImageAddr n)
    let b := ((a.emptySlot n i .loading).dset (kLoadError n) 0).dset (kLoadProgress n) 0
    a.Accepts r (kPartitionCommand n) 2 → a.pow.state = .active → a.pow.entry = none → n < 8 →
    (a.part n).state = .created ∨ (a.part n).state = .ready ∨ (a.part n).state = .enabled →
    (slotAt (a.part n) i).state = .empty ∨ (slotAt (a.part n) i).state = .loaded ∨ (slotAt (a.part n) i).state = .failed →
    ∃ u, exec (.load r n t) s = .next u ∧
      (b.loadCheck r n i addr (b.dget (kImageLength n)) = none →
        (slotAt (u.part n) i).state = .loading ∧ (u.part n).loading = (a.part n).loading ++ [⟨i, addr, 0⟩] ∧
        u.dget (kLoadError n) = 0 ∧ u.dget (kLoadProgress n) = 0) ∧
      (∀ f, b.loadCheck r n i addr (b.dget (kImageLength n)) = some f → u = (b.failLoad n i f.1 f.2).answer r (kPartitionCommand n) stOk) ∧
      (∀ m, m ≠ n → u.part m = a.part m) ∧ u.mem.lp = a.mem.lp ∧
      u.mem.sram = a.mem.sram ∧ u = { a with parts := u.parts, dict := u.dict, mem := u.mem, outbox := u.outbox }) ∧
  (∀ (s : State) (r : Requester) (n t : Nat), let a := s.at t
    a.Accepts r (kPartitionCommand n) 3 → a.pow.state = .active → a.pow.entry = none → n < 8 → (a.part n).state = .ready →
    a.dget (kCadenceSource n) ≠ 0 → a.dget (kCadenceSource n) ≠ 3 ∨ a.dget (kQuadCounts n) ≠ 0 →
    ∃ u, exec (.enable r n t) s = .next u ∧ (u.part n).state = .enabled ∧ (u.part n).seq.isOpen = false ∧ (u.part n).seq.ticks = 0 ∧
      (u.part n).seq.enabledAt = a.now ∧ (u.part n).seq.everOpen = false ∧ (u.part n).seq.pendTick = none ∧ u.dget (kCadenceState n) = 1 ∧
      (∀ m, m ≠ n → u.part m = a.part m) ∧ u.queues = a.queues ∧ u.syncs = a.syncs ∧ u.sec = a.sec ∧ u.clk = a.clk) ∧
  (∀ (s : State) (r : Requester) (n t : Nat), let a := s.at t
    a.Accepts r (kPartitionCommand n) 4 → n < 8 → (a.part n).state = .enabled → (a.part n).seq.isOpen = true →
    exec (.disable r n t) s = .next ((a.modPart n (fun p => { p with state := .disabling, disable := some (p.disable.getD .belay) })).answer r
      (kPartitionCommand n) stOk)) ∧
  (∀ (s : State) (r : Requester) (n t : Nat), let a := s.at t
    a.Accepts r (kPartitionCommand n) 5 → n < 8 → (a.part n).state = .enabled ∨ (a.part n).state = .disabling → (a.part n).seq.isOpen = true →
    exec (.disableNow r n t) s = .next (((a.modPart n (fun p => { p with
      state := .disabling, disable := some .now, seq := { p.seq with absorbAt := some (p.seq.absorbAt.getD a.now) } })).ledgerFlag n 2).answer r
      (kPartitionCommand n) stOk)) ∧
  (∀ (s : State) (r : Requester) (n t i : Nat), let a := s.at t
    let p := a.part n
    a.Accepts r (kPartitionCommand n) 6 → n < 8 → p.state = .enabled → p.active = some i → p.pendSwap = false →
    (slotAt p (otherSlot i)).state = .loaded → hdrWoe (slotAt p (otherSlot i)).hdr = hdrWoe (slotAt p i).hdr →
    exec (.swap r n t) s = .next ((a.modPart n (fun p => { p with pendSwap := true })).answer r (kPartitionCommand n) stOk)) ∧
  (∀ (s : State) (r : Requester) (n t i : Nat), let a := s.at t
    let p := a.part n
    a.Accepts r (kPartitionCommand n) 6 → n < 8 → p.state = .ready → p.active = some i → p.pendSwap = false →
    (slotAt p (otherSlot i)).state = .loaded →
    exec (.swap r n t) s = .next ((if applying (activeSlot p) then a.modPart n (fun p => { p with pendSwap := true })
      else a.swapNow n false).answer r (kPartitionCommand n) stOk)) ∧
  (∀ (s : State) (r : Requester) (n t i : Nat), let a := s.at t
    let p := a.part n
    a.Accepts r (kPartitionCommand n) 6 → n < 8 → p.state = .ready ∨ p.state = .enabled → p.active = some i → p.pendSwap = true →
    exec (.swap r n t) s = .next ((a.modPart n (fun p => { p with pendSwap := false })).answer r (kPartitionCommand n) stOk)) ∧
  (∀ (s : State) (r : Requester) (n t : Nat), let a := s.at t
    let i := a.sel r (kImageSlot n)
    a.Accepts r (kPartitionCommand n) 7 → n < 8 → (a.part n).state = .created ∨ (a.part n).state = .ready ∨ (a.part n).state = .enabled →
    (a.part n).active ≠ some i ∨ (a.part n).state ≠ .enabled →
    exec (.unload r n t) s = .next (
      let b := (a.emptySlot n i .empty).modPart n (fun p => { p with loading := p.loading.filter (fun l => l.slot != i) })
      ((if (a.part n).active = some i then b.modPart n (fun p => { p with active := none, state := .created, pendSwap := false })
        else b.modPart n (fun p => { p with pendSwap := false }))).answer r (kPartitionCommand n) stOk)) ∧
  (∀ (s : State) (r : Requester) (n t : Nat), let a := s.at t
    a.Accepts r (kPartitionCommand n) 8 → n < 8 → (a.part n).state = .created ∨ (a.part n).state = .ready →
    exec (.destroy r n t) s = .next (((((a.emptySlot n 0 .empty).emptySlot n 1 .empty).modPart n (fun p => { p with
      state := .absent, mask := 0, active := none, loading := [], pendSwap := false, waiting := [], clears := [] })).dset
      (kClusterMask n) 0).answer r (kPartitionCommand n) stOk))

/-- A load goes on and a swap takes effect (R166, R168, R487). TILE_LANDED with its bytes readable: they are in its granules, a first
converter tile of a group has made its combining queue, and LOAD_PROGRESS has grown; then the tile's check fails, the next tile is due, or
after the last one the check of the whole image fails or the load ends. SWAP_TAKE_EFFECT in READY: the loaded slot becomes ACTIVE and the
old one LOADED. SWAP_COPY_DONE lets a held OPEN proceed. -/
def Obligations.LoadsAndSwapsGoOn : Prop :=
  (∀ (s : State) (n t i addr k : Nat) (tl : Tile) (w : List Loading), let a := s.at t
    let sl := slotAt (a.part n) i
    let bytes := a.lpRead (addr + tl.off) tl.len
    let b := (List.range tl.granules.length).foldl (fun s j => s.lpWrite (tl.granules.getD j 0) ((bytes.drop (2048 * j)).take 2048)) a
    let c := if tl.kind = 4 ∧ 32 ≤ tl.owner ∧ slotHolds (slotAt (b.part n) (otherSlot i)) tl.owner = false then b.createCombine (tl.owner - 32) else b
    let tl' := { tl with count := fieldAt bytes 0x14 4 }
    let d := (c.setSlot n i (fun q => { q with tiles := q.tiles.set k tl' })).dadd64 (kLoadProgress n) tl.len
    let full := withBase (slotAt (d.part n) i) (slotAt (d.part n) (otherSlot i))
    (a.part n).loading = ⟨i, addr, k⟩ :: w → sl.tiles[k]? = some tl →
    (∀ j, j < (tl.len + 31) / 32 → a.wordBad (addr + tl.off + 32 * j) = false) → (∀ g ∈ tl.granules, a.addrOut g = false) →
    exec (.tileLanded n false t) s = .next (match d.tileCheck sl.hdr tl' bytes k with
      | some f => d.failLoad n i f.1 f.2
      | none =>
        if k + 1 < sl.tiles.length then
          d.modPart n (fun p => { p with loading := p.loading.map (fun q => if q.slot = i then { q with next := k + 1 } else q) })
        else match d.crossCheck n full (slotAt (d.part n) (otherSlot i)) (slotAt (d.part n) i).tiles.length with
          | some f => d.failLoad n i f.1 f.2
          | none => (d.setSlot n i (fun _ => full)).finishLoad n i)) ∧
  (∀ (s : State) (n t i : Nat), let a := s.at t
    (a.part n).pendSwap = true → (a.part n).state = .ready → applying (activeSlot (a.part n)) = false → (a.part n).active = some i → i < 2 →
    (slotAt (a.part n) (otherSlot i)).state = .loaded →
    ∃ u, exec (.swapTakeEffect n t) s = .next u ∧ (u.part n).active = some (otherSlot i) ∧ (slotAt (u.part n) (otherSlot i)).state = .active ∧
      (slotAt (u.part n) i).state = .loaded ∧ (u.part n).pendSwap = false ∧ (u.part n).state = .ready ∧ (u.part n).seq = (a.part n).seq ∧
      (∀ m, m ≠ n → u.part m = a.part m) ∧ u.queues = a.queues ∧ u.syncs = a.syncs ∧ u.keep = a.keep ∧ u.sec = a.sec) ∧
  (∀ (s : State) (n t : Nat), let a := s.at t
    exec (.swapCopyDone n t) s = .next (a.modPart n (fun p => { p with swapCopy := false })))

/-- Stations, neuron accesses and counters (R174, R178, R70, R179). STATION_ENABLE acts at the belay of the open pitch, and between pitches
clears at once and sets at the next belay; STATION_DISABLE_NOW acts at once; bits above 3 are ignored (log 77). A neuron access of a running
partition waits for the gap, and of another is performed at once; a read of a present neuron is answered, an acceptable write is stored, and one of a core that is failed or lost
answers HARDWARE (R360; log 113: the model's choice).
COUNTER_CLEAR of a running partition waits for the belay and is otherwise done at once. -/
def Obligations.StationsAndNeuronsAreReached : Prop :=
  (∀ (s : State) (r : Requester) (n v t : Nat), let a := s.at t
    let w := v % 16
    a.Accepts r (kStationEnable n) v → a.plasticLicensed = true ∨ bit w 0 = false ∧ bit w 1 = false →
    exec (.stationEnable r n v t) s = .next (((a.dset (kStationEnable n) w).modPart n (fun p => { p with
      stations := if running p = false then w else if p.seq.isOpen = true then p.stations else p.stations &&& w })).answer r
        (kStationEnable n) stOk)) ∧
  (∀ (s : State) (r : Requester) (n v t : Nat), let a := s.at t
    let old := a.dget (kStationEnable n)
    let w := v % 16
    a.Accepts r (kStationDisableNow n) v → bit w 1 = false → bit w 2 = false → bit w 3 = false →
    exec (.stationDisableNow r n v t) s = .next ((((if bit w 0 = true then a.dropTrace n else a).dset (kStationEnable n) (old - (old &&& w))).modPart n (fun p =>
      { p with stations := p.stations - (p.stations &&& w) })).answer r (kStationDisableNow n) stOk)) ∧
  (∀ (s : State) (r : Requester) (n v t : Nat), let a := s.at t
    let old := a.dget (kStationEnable n)
    let w := v % 16
    a.Accepts r (kStationDisableNow n) v → n < 8 →
    ∃ u, exec (.stationDisableNow r n v t) s = .next u ∧ u.dget (kStationEnable n) = old - (old &&& w) ∧
      (u.part n).stations = (a.part n).stations - ((a.part n).stations &&& w) ∧ (∀ m, m ≠ n → (u.part m).stations = (a.part m).stations) ∧
      u.queues = a.queues ∧ u.syncs = a.syncs ∧ u.keep = a.keep ∧ u.sec = a.sec) ∧
  (∀ (s : State) (r : Requester) (n sub t : Nat) (data : Option Bytes), let a := s.at t
    let k := naKey n sub
    a.hears r = true → a.gate (if data.isSome then 2 else 1) k = true → 2 ≤ sub → sub ≤ 5 → n < 8 → a.reqReads r k = true →
    (∀ b, data = some b → b.length = naLength sub) → a.domainOff k 0 = false →
    exec (.neuronAccess r n sub data t) s = .next (
      let q : NeuronReq := { req := r, sub := sub, target := a.sel r (kNaTarget n), data := data }
      let b := if data.isSome then a else a.counted
      if running (a.part n) then (b.modPart n (fun p => { p with waiting := p.waiting ++ [q] })).dset (kNaStatus n) 1 else b.naPerform n q)) ∧
  (∀ (s : State) (n t : Nat) (q : NeuronReq) (w : List NeuronReq), let a := s.at t
    let b := a.modPart n (fun p => { p with waiting := w })
    (a.part n).waiting = q :: w → (a.part n).seq.isOpen = false → b.naTargetOk n q.target = true → b.naGone q.target = false →
    q.data = none → q.sub ≠ 0 →
    exec (.neuronAccessPerform n t) s = .next (
      let d := b.dset (kNaStatus n) 2
      d.readNew q.req (q.tag.getD 0) (naKey n q.sub) q.off q.maxlen (d.naRead q.sub q.target))) ∧
  (∀ (s : State) (n t : Nat) (q : NeuronReq) (w : List NeuronReq) (x : Bytes), let a := s.at t
    let b := a.modPart n (fun p => { p with waiting := w })
    (a.part n).waiting = q :: w → (a.part n).seq.isOpen = false → b.naTargetOk n q.target = true → b.naGone q.target = false →
    q.data = some x →
    b.naWriteOk n q.sub q.target x = true →
    exec (.neuronAccessPerform n t) s = .next
      (((b.naWrite n q.sub q.target x).dset (kNaStatus n) 2).writeAnswer q.req q.tag (naKey n q.sub) x.length stOk)) ∧
  (∀ (s : State) (n t : Nat) (q : NeuronReq) (w : List NeuronReq), let a := s.at t
    let b := a.modPart n (fun p => { p with waiting := w })
    (a.part n).waiting = q :: w → (a.part n).seq.isOpen = false → b.naTargetOk n q.target = true → b.naGone q.target = true →
    exec (.neuronAccessPerform n t) s = .next ((b.internalError n (q.target / 16384)).naRefuse n q stHardware)) ∧
  (∀ (s : State) (r : Requester) (n v t : Nat), let a := s.at t
    let c := if v = 1 then some (a.sel r (kCoreSelect n)) else none
    a.Accepts r (kCounterClear n) v → v = 1 ∨ v = 2 → (v = 1 → (a.part n).mask.testBit (clusterOf (a.sel r (kCoreSelect n))) = true) →
    exec (.counterClear r n v t) s = .next ((if running (a.part n) then a.modPart n (fun p => { p with clears := p.clears ++ [c] })
      else a.clearWhat n c).answer r (kCounterClear n) stOk))

/-- Tile descriptors, APPLY and the keep set (R157, R159, R193, R197, R200). A descriptor that its checks pass starts; one that completes
leaves the engine and gives its record. APPLY_COMPLETE writes the projection's rows. KEEP_COMMIT and KEEP_ERASE start a commit, and its end
writes the other bank, whose SEQUENCE is one higher. -/
def Obligations.DescriptorsAndKeepSetsComplete : Prop :=
  (∀ (s : State) (i t : Nat) (b : Bytes), let a := s.at t
    let q := submitQueue i
    let h := a.ringHdr (a.queue q) (a.queue q).head
    let f := senderFunction (rhSender h)
    let c := a.popHead q (rhLen h)
    let d := Machine.slice b 0 32
    a.slicePresent i = true → a.headBody q = some b → (a.slice i).descs.length < 64 →
    bit (fieldAt d 1 1) 0 = false ∨ (∀ e ∈ (a.slice i).descs, e.owner ≠ f) →
    exec (.descriptorSubmit i t) s = .next (if c.dsCheck f d = qOk then c.modSlice i (fun x => { x with descs := x.descs ++ [⟨d, f⟩] })
      else c.dsFinish i d (c.dsCheck f d) 0 0).settle) ∧
  (∀ (s : State) (i j t : Nat) (e : Desc) (memErr : Option Nat), let a := s.at t
    let m := (a.modSlice i (fun x => { x with descs := x.descs.eraseIdx j })).dsMove e.owner e.raw memErr
    (a.slice i).descs[j]? = some e →
    exec (.descriptorComplete i j memErr t) s = .next (m.1.dsFinish i e.raw m.2.2.2 m.2.2.1 m.2.1).settle) ∧
  (∀ (s : State) (n p t : Nat) (tl : Tile), let a := s.at t
    let sl := activeSlot (a.part n)
    let b := (a.applyProj n sl tl (mget dProj sl.projs p)).modProj n p (fun q => { q with done := true })
    findTile sl 5 p = some tl → (mget dProj sl.projs p).apply = true → (mget dProj sl.projs p).done = false → applyBehind sl p = false →
    exec (.applyComplete n p t) s = .next (if running (b.part n) then b else b.applySwitches n)) ∧
  (∀ (s : State) (r : Requester) (n t : Nat), let a := s.at t
    let l := a.newSections n [a.makeSection n]
    a.Accepts r (kKeepCommand n) 1 → a.keepAllowed n = stOk → bankLength l ≤ 25165824 →
    exec (.keepCommit r n t) s = .next ((State.dset { a with keep := { a.keep with commit := some (n, l), reading := some n, read := 0 } }
      (kKeepState n) 2).answer r
      (kKeepCommand n) stOk)) ∧
  (∀ (s : State) (r : Requester) (n t : Nat), let a := s.at t
    let l := a.newSections n []
    a.Accepts r (kKeepCommand n) 2 → a.keepAllowed n = stOk → bankLength l ≤ 25165824 →
    exec (.keepErase r n t) s = .next ((State.dset { a with keep := { a.keep with commit := some (n, l), reading := none, read := 0 } }
      (kKeepState n) 2).answer r
      (kKeepCommand n) stOk)) ∧
  (∀ (s : State) (n t : Nat) (l : List KeepSection), let a := s.at t
    let bank := (a.currentBank.map (1 - ·)).getD 0
    a.keep.commit = some (n, l) →
    ∃ u, exec (.keepCommitDone t) s = .next (if running (a.part n) then u else u.applySwitches n) ∧
      u.mem = (a.mramWrite (bankBase bank) (bankBytes (a.keepSequence + 1) l)).mem ∧
      u.keep = { a.keep with commit := none, reading := none, lastAt := some a.now } ∧
      u.dget (kKeepState n) = 1 ∧ (∀ m, m < 8 → u.dget (kKeepCommits m) = satAdd 32 (a.dget (kKeepCommits m)) 1) ∧
      u = { a with keep := u.keep, mem := u.mem, dict := u.dict })

/-! ### Converters (chapter 8) -/

/-- Input streams (R206, R207, R210, R227, R228). A sample of the configured source, on a data port that carries it, whose header is the
stream's own and whose sequence number is newer becomes the pending one and is counted, a pending one that it replaces is counted as
superseded, and one for a stream that is not in force is dropped and counted; a packet with a congestion mark over RoCEv2 is answered with a
congestion notification (R330). STREAM_ENABLE 1 with a source puts a stream of a partition that
does not run in force with nothing held; 0 takes it out; of one that runs it waits. STREAM_DISABLE_NOW discards what was encoded and not
launched. -/
def Obligations.StreamsTakeTheirSamples : Prop :=
  (∀ (s : State) (src : SamplePath) (k t : Nat) (data : Bytes), let e := s.at t
    let a := e.ecnMarked (src.ecn && src.path == 2) (e.dget (kEthPort k)) (0x020000 + k)
    let q := fieldAt data 4 4
    k < 32 → a.dget (kSource k) = src.path → 2 ≤ src.path → (src.path = 2 ∨ src.path = 3 → a.samplePath src.path k = true) → a.streamPresent k = true →
    (a.stream k).force = true → a.sampleOk k data = true →
    (∀ h, (a.stream k).heldSeq = some h → 0 < (q + 2 ^ 32 - h) % 2 ^ 32 ∧ (q + 2 ^ 32 - h) % 2 ^ 32 < 2 ^ 31) →
    exec (.sample src k data t) s = .next (
      let b := if (a.stream k).pending.isSome then a.dadd (kSamplesSuperseded k) 1 else a
      (b.modStream k (fun st => { st with
        pending := some { seq := q, stamp := fieldAt data 8 8, vals := data.drop 16, came := a.now }, heldSeq := some q
        before := match st.pending with
          | none => none
          | some x => if x.came < a.now then some x else st.before })).dadd64 (kSamplesAccepted k) 1)) ∧
  (∀ (s : State) (src : SamplePath) (k t : Nat) (data : Bytes), let e := s.at t
    let a := e.ecnMarked (src.ecn && src.path == 2) (e.dget (kEthPort k)) (0x020000 + k)
    k < 32 → a.dget (kSource k) = src.path → 2 ≤ src.path → (src.path = 2 ∨ src.path = 3 → a.samplePath src.path k = true) → a.streamPresent k = true →
    (a.stream k).force = false →
    exec (.sample src k data t) s = .next (a.dadd (kDisabledDrops k) 1)) ∧
  (∀ (s : State) (ecn : Bool) (k t : Nat) (data : Bytes), let a := s.at t
    let q := ingestQueue k
    k < 32 → a.dget (kSource k) = 1 → a.headBody q = some data →
    exec (.sample ⟨1, ecn⟩ k data t) s = .next
      (((a.popHead q (rhLen (a.ringHdr (a.queue q) (a.queue q).head))).takeSample k data).settle)) ∧
  (∀ (s : State) (r : Requester) (k t : Nat) (data : Bytes), let a := s.at t
    a.Accepts r (kStreamSample k) 0 → 16 ≤ data.length → data.length ≤ 1040 → a.dget (kSource k) = 4 →
    exec (.streamSample r k data t) s = .next ((a.takeSample k data).answer r (kStreamSample k) stOk)) ∧
  (∀ (s : State) (r : Requester) (k v t : Nat), let a := s.at t
    a.Accepts r (kStreamEnable k) v → v < 2 → (v = 1 → a.dget (kSource k) ≠ 0 ∧ (a.dget (kSource k) = 3 → a.udpTaken k = false)) →
    exec (.streamEnable r k v t) s = .next (
      let b := a.dset (kStreamEnable k) v
      (if a.heldRunning k = true ∨ ((a.stream k).force = true ↔ v = 1) then b else b.modStream k (fun q =>
        if v = 1 then { q with force := true, chans := [], staleRun := 0, mode := .waiting, heldSeq := none }
        else { q with force := false, pending := none, before := none })).answer r (kStreamEnable k) stOk)) ∧
  (∀ (s : State) (r : Requester) (k t : Nat), let a := s.at t
    a.Accepts r (kStreamDisableNow k) 1 → a.holder k = none →
    exec (.streamDisableNow r k 1 t) s = .next (
      let b := ((a.dset (kStreamEnable k) 0).dadd (kAbsorbedEncode k) (a.stream k).unlaunched.length).modStream k
        (fun q => { q with force := false, pending := none, before := none, unlaunched := [], absorbed := false })
      (if (a.stream k).encoding = true then b.sendEncodeDone k else b).answer r (kStreamDisableNow k) stOk)) ∧
  (∀ (s : State) (r : Requester) (k n t : Nat), let a := s.at t
    k < 32 → a.Accepts r (kStreamDisableNow k) 1 → a.holder k = some n →
    ∃ u, exec (.streamDisableNow r k 1 t) s = .next u ∧ u.dget (kStreamEnable k) = 0 ∧ (u.stream k).force = false ∧
      (u.stream k).pending = none ∧ (u.stream k).unlaunched = [] ∧ (u.stream k).absorbed = ((a.part n).seq.isOpen && (a.stream k).force) ∧
      (∀ j, j ≠ k → u.stream j = a.stream j) ∧ u.queues = a.queues ∧ u.syncs = a.syncs ∧ u.keep = a.keep ∧ u.sec = a.sec)

/-- Readout groups and outputs (R221, R222, R224, R225, R229, R370, R480). DECODE takes the oldest pitch due of the group, combines it in
the group's queue and leaves one readout of it to publish; READOUT_PUBLISH gives it the next readout number and counts it, and ends what a
hold that is over kept. GROUP_ENABLE acts at once on the groups of partitions that do not run, and between pitches takes a group of one that
runs out of force; GROUP_DISABLE_NOW acts at once on every group and marks what is still due. ESTOP_N clears OUTPUT_ENABLE, is seen and is
counted once; its release changes the pin only; OUTPUT_ENABLE is not set while it is asserted. -/
def Obligations.ReadoutsAndOutputsAreDriven : Prop :=
  (∀ (s : State) (g t n p km flags : Nat) (tl : Tile) (rest : List (Nat × Nat × Nat)), let a := s.at t
    (a.rgroup g).due = (p, km, flags) :: rest → a.groupOf g = some (n, tl) →
    ∃ (u : State) (e : Readout), exec (.decode g t) s = .next u ∧ (u.rgroup g).due = rest ∧
      (u.rgroup g).decoded = (a.rgroup g).decoded ++ [e] ∧ e.pitch = p ∧ e.vals.length = a.grNch tl ∧ (u.rgroup g).seq = (a.rgroup g).seq ∧
      (u.rgroup g).last = (a.rgroup g).last ∧ (∀ h, h ≠ g → u.rgroup h = a.rgroup h) ∧
      u = { a with groups := u.groups, clk := u.clk, mem := u.mem, queues := u.queues, slices := u.slices } ∧
      u.mem = { a.mem with sram := u.mem.sram, sramBad := u.mem.sramBad } ∧ u.clk = { a.clk with free := u.clk.free }) ∧
  (∀ (s : State) (g t : Nat) (r : Readout) (rest : List Readout), let a := s.at t
    (a.rgroup g).decoded = r :: rest →
    exec (.readoutPublish g t) s = .next (a.modGroup g (fun q => { q with
      decoded := rest, last := some { r with seq := q.seq }
      past := if ∃ j, j < 32 ∧ a.objSet j = true ∧ g ∈ a.objGroups j then q.past ++ q.last.toList else []
      seq := (q.seq + 1) % 256
      held := if a.holding (a.groupPart g) then q.held else none
      counts := { q.counts with published := wrapAdd 64 q.counts.published 1 } }))) ∧
  (∀ (s : State) (r : Requester) (mask t : Nat), let a := s.at t
    a.Accepts r kGroupEnable mask →
    ∃ u, exec (.groupEnable r mask t) s = .next u ∧ u.dget kGroupEnable = mask % 2 ^ 256 ∧
      (∀ g, g < 256 →
        let p := a.part ((a.holder (32 + g)).getD 8)
        (u.rgroup g).force = if running p = true ∧ (bit mask g = true ∨ p.seq.isOpen = true) then (a.rgroup g).force else bit mask g) ∧
      (∀ g, 256 ≤ g → u.rgroup g = a.rgroup g) ∧ (∀ k, k ≠ kGroupEnable → k ≠ kDictRequests → u.dget k = a.dget k) ∧
      u = { a with dict := u.dict, groups := u.groups, outbox := u.outbox }) ∧
  (∀ (s : State) (r : Requester) (mask t : Nat), let a := s.at t
    a.Accepts r kGroupDisableNow mask →
    ∃ u, exec (.groupDisableNow r mask t) s = .next u ∧ u.dget kGroupEnable = a.dget kGroupEnable - (a.dget kGroupEnable &&& mask % 2 ^ 256) ∧
      (∀ g, g < 256 → bit mask g = true → (u.rgroup g).force = false ∧
        (u.rgroup g).due = (a.rgroup g).due.map (fun d => (d.1, d.2.1, setBit d.2.2 5 true)) ∧ (u.rgroup g).decoded = (a.rgroup g).decoded) ∧
      (∀ g, bit mask g = false → u.rgroup g = a.rgroup g) ∧ (∀ k, k ≠ kGroupEnable → k ≠ kDictRequests → u.dget k = a.dget k) ∧
      u = { a with dict := u.dict, groups := u.groups, mem := u.mem, queues := u.queues, outbox := u.outbox } ∧
      u.mem = { a.mem with sram := u.mem.sram, sramBad := u.mem.sramBad }) ∧
  (∀ (s : State) (t : Nat), let a := s.at t
    exec (.estopAssert t) s = .next (if a.pins.estop then a else
      ((a.modPins (fun p => { p with estop := true, estopSeen := true })).dset kOutputEnable 0).dadd kEstopAssertions 1)) ∧
  (∀ (s : State) (t : Nat), let a := s.at t
    exec (.estopRelease t) s = .next (a.modPins (fun p => { p with estop := false }))) ∧
  (∀ (s : State) (w t : Nat), let a := s.at t
    a.hostSees 0 = true →
    exec (.outputEnable (.func 0) w t) s = .next (if w % 2 = 1 ∧ a.pins.estop then a else a.dset kOutputEnable (w % 2))) ∧
  (∀ (s : State) (r : Requester) (w t : Nat), let a := s.at t
    a.Accepts r kOutputEnable w → w < 2 →
    exec (.outputEnable (.entry r) w t) s = .next
      ((if w = 1 ∧ a.pins.estop then a else a.dset kOutputEnable w).answer r kOutputEnable stOk)) ∧
  (∀ (s : State) (f w t : Nat), let a := s.at t
    a.hostSees f = true →
    exec (.estopState (.func f) w t) s = .next (if bit w 1 then a.modPins (fun p => { p with estopSeen := false }) else a)) ∧
  (∀ (s : State) (r : Requester) (w t : Nat), let a := s.at t
    exec (.estopState (.entry r) w t) s = .next (a.answer r kEstopState stAccess))

/-! ### Queues, combining queues and sync objects (chapter 9) -/

/-- Queues come and go (R240, R242, R247). QUEUE_CREATE with its conditions met opens the queue, a combining one with its memory
cleared; QUEUE_DESTROY and DETACH by the owner and the reader; ATTACH of an orphan gives it a reader, with FLUSH after its messages are
returned; GROUP_SET by the group's reader binds it. Each finishes with OK, and operations that waited are settled.
(`barred`: a reset of the issuer's partition is in progress, R397.) -/
def Obligations.QueuesAreMadeAndBound : Prop :=
  (∀ (s : State) (h : OpHead) (rec : Bytes), let a := s.at h.t
    let r := recordQueue rec h.issuer
    a.barred h = false → a.createStatus h rec = qOk →
    exec (.queueCreate h rec) s = .next ((((if r.kind = 0 then a else a.spaceWrite 0x10 r.space r.base (List.replicate (queueBytes r) 0)).modQueue
      h.object (fun _ => r)).finish h (h.object / 16384) 1 h.object qOk 0 []).settle)) ∧
  (∀ (s : State) (h : OpHead), let a := s.at h.t
    let r := a.queue h.object
    a.barred h = false → a.qThere h.object = true → r.state ≠ 0 → r.owner = h.issuer →
    exec (.queueDestroy h) s = .next
      (((a.dropQueue h.object).finish h (h.object / 16384) 2 h.object qOk (a.messages r).length []).settle)) ∧
  (∀ (s : State) (h : OpHead) (reader : Nat) (flush : Bool), let a := s.at h.t
    let r := a.queue h.object
    let b := if flush then a.returnAll h.object else a
    a.barred h = false → a.qThere h.object = true → r.state = 2 → r.owner = h.issuer → epListed reader = true → reader ≠ 0x30 →
    a.groupStatus (h.object / 16384) { r with reader := reader } = qOk →
    exec (.attach h reader flush) s = .next (((b.modQueue h.object (fun x => { x with state := 1, reader := reader })).finish h
      (h.object / 16384) 3 h.object qOk (b.messages (b.queue h.object)).length []).settle)) ∧
  (∀ (s : State) (h : OpHead), let a := s.at h.t
    a.barred h = false → a.qThere h.object = true → (a.queue h.object).state ≠ 0 → (a.queue h.object).reader = h.issuer →
    exec (.detach h) s = .next (((a.orphan h.object).settle.finish h (h.object / 16384) 4 h.object qOk 0 []).settle)) ∧
  (∀ (s : State) (h : OpHead) (reader policy : Nat), let a := s.at h.t
    let i := h.object / 256
    let g := h.object % 256
    a.barred h = false → a.slicePresent i = true → epListed reader = true → policy < 2 →
    (mget dSel (a.slice i).groups g).reader = h.issuer ∨ ((mget dSel (a.slice i).groups g).reader = 0x30 ∧ reader = h.issuer) →
    exec (.groupSet h reader policy) s = .next (((a.modSlice i (fun y =>
      { y with groups := mset dSel y.groups g { reader := reader, policy := policy, last := [] } })).finish h i 8 h.object qOk 0 []).settle))

/-- Messages and rounds (R239, R244 to R249). SEND of a fitting message to an open ring places it; one that finds the ring full
finishes FULL, or waits. RECEIVE and RECEIVE_GROUP by the reader take the head, or finish EMPTY, or wait. ADD combines each contribution,
counts one that comes after its round is complete, and signals the linked object when it completes the round; READ_CLEAR of a ready round
gives its words to the reader and clears them. WAIT_TIMEOUT finishes the waiting operation with TIMEOUT. Held completions are placed, the
oldest first. -/
def Obligations.MessagesAndRoundsMove : Prop :=
  (∀ (s : State) (h : OpHead) (msg : Bytes), let a := s.at h.t
    let q := h.object
    let r := a.queue q
    let b := (a.place q (msgStamp msg h.issuer h.rcq h.tag)).2
    a.barred h = false → a.qThere q = true → r.state = 1 → r.kind = 0 → maySend r h.issuer = true → msgOk msg h.rcq = true → a.descsOk msg = true →
    a.sendWaits q = false →
    (a.place q (msgStamp msg h.issuer h.rcq h.tag)).1 = .ok →
    exec (.send h msg) s = .next ((b.finish h (q / 16384) 5 q qOk (8 * (ringUnits r - ringUsed (b.queue q))) []).settle)) ∧
  (∀ (s : State) (h : OpHead) (msg : Bytes), let a := s.at h.t
    let q := h.object
    let r := a.queue q
    a.barred h = false → a.qThere q = true → r.state = 1 → r.kind = 0 → maySend r h.issuer = true → msgOk msg h.rcq = true → a.descsOk msg = true →
    a.sendWaits q = false →
    (a.place q (msgStamp msg h.issuer h.rcq h.tag)).1 = .full →
    exec (.send h msg) s = .next (if h.timeout = 0 then (a.qadd64 (q / 16384) kFullSends 1).finish h (q / 16384) 5 q qFull 0 (msgDescs msg)
      else a.wait (q / 16384) 5 h 0 0 (msgStamp msg h.issuer h.rcq h.tag)).settle) ∧
  (∀ (s b : State) (h : OpHead) (addr len : Nat), let a := s.at h.t
    let q := h.object
    let r := a.queue q
    a.barred h = false → a.qThere q = true → r.state ≠ 0 → r.kind = 0 → r.reader = h.issuer → a.landing h.issuer addr len = qOk →
    a.receiveHead h 6 q addr len = some b → exec (.receive h addr len) s = .next b.settle) ∧
  (∀ (s : State) (h : OpHead) (addr len : Nat), let a := s.at h.t
    let q := h.object
    let r := a.queue q
    a.barred h = false → a.qThere q = true → r.state ≠ 0 → r.kind = 0 → r.reader = h.issuer → a.landing h.issuer addr len = qOk →
    a.receiveHead h 6 q addr len = none → exec (.receive h addr len) s = .next (if h.timeout = 0 then a.finish h (q / 16384) 6 q qEmpty 0 []
      else a.wait (q / 16384) 6 h addr len []).settle) ∧
  (∀ (s : State) (h : OpHead) (addr len : Nat), let a := s.at h.t
    let q := h.object
    let r := a.queue q
    let n := rhLen (a.ringHdr r r.head)
    a.barred h = false → a.qThere q = true → r.state ≠ 0 → r.kind = 0 → r.reader = h.issuer → a.landing h.issuer addr len = qOk → r.head ≠ r.tail →
    n ≤ len → a.landBad addr n = none → a.spaceBad r.space (ringAddr r r.head) 8 = false → a.spaceBad r.space (ringAddr r r.head) n = false →
    exec (.receive h addr len) s = .next
      ((((a.land h.issuer addr (a.ringRead r r.head n)).popHead q n).finish h (q / 16384) 6 q qOk n []).settle)) ∧
  (∀ (s : State) (h : OpHead) (addr len : Nat), let a := s.at h.t
    let i := h.object / 256
    a.barred h = false → a.slicePresent i = true → (mget dSel (a.slice i).groups (h.object % 256)).reader = h.issuer → a.landing h.issuer addr len = qOk →
    exec (.receiveGroup h addr len) s = .next (((a.receiveFrom h addr len).getD
      (if h.timeout = 0 then a.finish h i 7 h.object qEmpty 0 [] else a.wait i 7 h addr len [])).settle)) ∧
  (∀ (s : State) (h : OpHead) (done : Bool) (l : List (Nat × BitVec 32)), let a := s.at h.t
    let q := h.object
    let r := a.queue q
    let late := r.expect ≠ 0 ∧ r.expect ≤ r.head
    let b := ((l.foldl (fun s e => s.combine (q / 16384) r e) a).qadd (q / 16384) kCombineLate (if late then 1 else 0)).modQueue q (fun x =>
      { x with head := x.head + (if done then 1 else 0), tail := x.tail + l.length })
    a.barred h = false → a.qThere q = true → r.state = 1 → r.kind ≠ 0 → maySend r h.issuer = true → l ≠ [] → l.length ≤ 256 → a.addBad r l = none →
    exec (.addOp h done l) s = .next (((if r.expect ≠ 0 ∧ ¬ late ∧ roundReady (b.queue q) = true then b.signalLink q else b).finish h
      (q / 16384) 9 q qOk 0 []).settle)) ∧
  (∀ (s : State) (h : OpHead) (addr len : Nat), let a := s.at h.t
    let q := h.object
    let r := a.queue q
    a.barred h = false → a.qThere q = true → r.state ≠ 0 → r.kind ≠ 0 → r.reader = h.issuer → r.expect ≤ r.head →
    a.landing h.issuer addr len = qOk → 4 * r.maxMsg ≤ len → a.landBad addr (4 * r.maxMsg) = none →
    a.spaceBad r.space r.base (4 * r.maxMsg) = false →
    exec (.readClear h addr len) s = .next
      (((((a.land h.issuer addr (a.spaceRead r.space r.base (4 * r.maxMsg)).1).spaceWrite 0x10 r.space r.base
        (List.replicate (4 * r.maxMsg) 0)).modQueue q (fun x => { x with head := 0, tail := 0 })).finish h (q / 16384) 10 q qOk r.head []).settle)) ∧
  (∀ (s : State) (h : OpHead) (addr len : Nat), let a := s.at h.t
    let q := h.object
    let r := a.queue q
    a.barred h = false → a.qThere q = true → r.state ≠ 0 → r.kind ≠ 0 → r.reader = h.issuer → r.head < r.expect →
    exec (.readClear h addr len) s = .next (if h.timeout = 0 then a.finish h (q / 16384) 10 q qEmpty 0 []
      else a.wait (q / 16384) 10 h addr len []).settle) ∧
  (∀ (s : State) (i id t : Nat) (w : Waiter), let a := s.at t
    (a.slice i).waits.find? (fun w => w.id == id && (match w.until_ with
      | some u => decide (u ≤ a.now)
      | none => false)) = some w →
    exec (.waitTimeout i id t) s = .next ((((a.modSlice i (fun x => { x with waits := x.waits.filter (fun e => e.id != id) })).qadd i kTimeouts 1).finish
      w.head i w.op w.head.object qTimeout 0 (if w.op = 5 then msgDescs w.msg else [])).settle)) ∧
  (∀ (s : State) (i t q : Nat) (rec : Bytes), let a := s.at t
    let b := a.modSlice i (fun x => { x with hold := [] })
    (a.slice i).hold = [(q, rec)] → b.takesCompletions q = true → b.sendWaits q = false → (b.place q rec).1 = .ok →
    exec (.completionHoldPlace i t) s = .next (b.place q rec).2.settle) ∧
  (∀ (s : State) (i t : Nat), let a := s.at t
    exec (.completionHoldPlace i t) s = .next
      ((a.slice i).hold.foldl (fun s e => s.holdOne i e) (a.modSlice i (fun x => { x with hold := [] }))).settle)

/-- Sync objects (R250, R251). An operation whose permission and kind are right does what Table 9.9 says, answers with its value,
and settles what waited. TAKE that cannot be met, or finds others waiting, finishes FULL or waits, and so does a CWAIT_GE with a
timeout wait; the last ARRIVE opens the barrier's next phase, and an earlier one is counted and may wait for it. -/
def Obligations.SyncObjectsCountAndRelease : Prop :=
  (∀ (s : State) (h : OpHead) (kind init : Nat), let a := s.at h.t
    let j := h.object
    a.barred h = false → a.yThere j = true → (a.sync j).kind = 0 → a.grant 1 (j / 1024) (j % 1024 / 64) = h.issuer →
    (kind = 1 ∧ init < 2 ^ 64) ∨ (kind = 2 ∧ init < 2 ^ 32) ∨ (kind = 3 ∧ 1 ≤ init ∧ init ≤ 4096) →
    exec (.syncCreate h kind init) s = .next (((a.modSync j (fun _ =>
      { kind := kind, owner := h.issuer, value := if kind = 3 then 0 else init, parts := if kind = 3 then init else 0 })).finish h (j / 1024) 0x10 j qOk 0 []).settle)) ∧
  (∀ (s : State) (h : OpHead), let a := s.at h.t
    let j := h.object
    a.barred h = false → a.yThere j = true → (a.sync j).kind ≠ 0 → (a.sync j).owner = h.issuer →
    exec (.syncDestroy h) s = .next (((a.modSync j (fun _ => {})).settle.finish h (j / 1024) 0x11 j qOk 0 []).settle)) ∧
  (∀ (s : State) (h : OpHead) (d : Nat), let a := s.at h.t
    let j := h.object
    let v := ((a.sync j).value + d) % 2 ^ 64
    a.barred h = false → a.yThere j = true → (a.sync j).kind = 1 →
    exec (.cadd h d) s = .next (((a.modSync j (fun y => { y with value := v })).finish h (j / 1024) 0x12 j qOk v []).settle)) ∧
  (∀ (s : State) (h : OpHead), let a := s.at h.t
    let j := h.object
    a.barred h = false → a.yThere j = true → (a.sync j).kind = 1 →
    exec (.cread h) s = .next ((a.finish h (j / 1024) 0x13 j qOk (a.sync j).value []).settle)) ∧
  (∀ (s : State) (h : OpHead) (v : Nat), let a := s.at h.t
    let j := h.object
    a.barred h = false → a.yThere j = true → (a.sync j).kind = 1 → (a.sync j).owner = h.issuer →
    exec (.cset h v) s = .next
      (((a.modSync j (fun y => { y with value := v % 2 ^ 64 })).finish h (j / 1024) 0x14 j qOk (a.sync j).value []).settle)) ∧
  (∀ (s : State) (h : OpHead) (target : Nat), let a := s.at h.t
    let j := h.object
    a.barred h = false → a.yThere j = true → (a.sync j).kind = 1 → target ≤ (a.sync j).value ∨ h.timeout ≠ 0 →
    exec (.cwaitGe h target) s = .next ((if target ≤ (a.sync j).value then a.finish h (j / 1024) 0x15 j qOk (a.sync j).value []
      else a.wait (j / 1024) 0x15 h target 0 []).settle)) ∧
  (∀ (s : State) (h : OpHead) (n : Nat), let a := s.at h.t
    let j := h.object
    let v := (a.sync j).value
    a.barred h = false → a.yThere j = true → (a.sync j).kind = 2 → 0 < n → v + n < 2 ^ 32 →
    exec (.post h n) s = .next (((a.modSync j (fun y => { y with value := v + n })).finish h (j / 1024) 0x16 j qOk (v + n) []).settle)) ∧
  (∀ (s : State) (h : OpHead) (n : Nat), let a := s.at h.t
    let j := h.object
    let v := (a.sync j).value
    a.barred h = false → a.yThere j = true → (a.sync j).kind = 2 → 0 < n → n < 2 ^ 32 →
    exec (.take h n) s = .next (if n ≤ v ∧ ∀ w ∈ (a.slice (j / 1024)).waits, w.op = 0x17 → w.head.object ≠ j then
        (a.modSync j (fun y => { y with value := v - n })).finish h (j / 1024) 0x17 j qOk (v - n) []
      else if h.timeout = 0 then a.finish h (j / 1024) 0x17 j qFull 0 [] else a.wait (j / 1024) 0x17 h n 0 []).settle) ∧
  (∀ (s : State) (h : OpHead), let a := s.at h.t
    let j := h.object
    let y := a.sync j
    a.barred h = false → a.yThere j = true → y.kind = 3 → y.broken = false → y.parts ≤ y.value + 1 ∨ h.timeout = 0 ∨ (a.slice (j / 1024)).waits.length < 1024 →
    exec (.arrive h) s = .next ((if y.parts ≤ y.value + 1 then
        (a.modSync j (fun y => { y with value := 0, phase := (y.phase + 1) % 2 ^ 32 })).settle.finish h (j / 1024) 0x18 j qOk y.phase []
      else if h.timeout = 0 then (a.modSync j (fun y => { y with value := y.value + 1 })).finish h (j / 1024) 0x18 j qOk y.phase []
      else (a.modSync j (fun y => { y with value := y.value + 1 })).wait (j / 1024) 0x18 h y.phase 0 []).settle)) ∧
  (∀ (s : State) (h : OpHead), let a := s.at h.t
    let j := h.object
    a.barred h = false → a.yThere j = true → (a.sync j).kind = 3 → (a.sync j).owner = h.issuer →
    exec (.breakBarrier h) s = .next ((((a.modSync j (fun y => { y with broken := true })).qadd (j / 1024) kBarriersBroken 1).settle.finish h
      (j / 1024) 0x19 j qOk (a.sync j).phase []).settle)) ∧
  (∀ (s : State) (h : OpHead), let a := s.at h.t
    let j := h.object
    a.barred h = false → a.yThere j = true → (a.sync j).kind = 3 → (a.sync j).owner = h.issuer →
    exec (.barrierReset h) s = .next (((a.modSync j (fun y => { y with broken := false, value := 0 })).finish h
      (j / 1024) 0x1A j qOk (a.sync j).phase []).settle))

/-! ### Memory (chapters 9 and 10) -/

/-- Memory and its units (R234, R257, R260, R265, R269, R270, R272 to R274, R277, R278). Each row with its conditions met does what its
rule says: a write of grants or frame owners changes those of its data, a parity error is counted and acted on, a word that cannot be
corrected is poisoned and reported, a scrub moves on, a retraining is counted, a test region passes or is held, lost retention is
noted, FRAME_ALL takes a new value with no partition, and CONFLICT_CLEAR zeroes one target's counts. -/
def Obligations.MemoryUnitsAreServed : Prop :=
  (∀ (s : State) (r : Requester) (kind t : Nat) (data : Bytes), let a := s.at t
    let i := a.dget (if kind = 2 then kPageSlice else kGrantSlice)
    let n := grantBlocks kind
    let new := fun b => (data.getD b 0).toNat
    kind < 3 → a.Accepts r (grantEntry kind) 0 → data.length = n → (∀ b, b < n → epListed (new b) = true) → a.slicePresent i = true →
    (∀ b, b < n → new b = a.grant kind i b ∨ (a.blockFree kind i b = true ∧ (kind = 2 ∨ b + 1 ≠ n))) →
    exec (.grantWrite r kind data t) s = .next ((a.modMem (fun m => { m with
      grants := (List.range n).foldl (fun g b => mset dGrant g (grantKey kind i b) (new b)) m.grants })).answer r (grantEntry kind) stOk)) ∧
  (∀ (s : State) (m : ParityMem) (unit addr t : Nat) (cured : Bool), let a := s.at t
    exec (.parityError m unit addr cured t) s = .next
      (if cured then a.dadd kParityReplays 1 else a.parityAction m unit addr)) ∧
  (∀ (s : State) (unit addr t : Nat), let a := s.at t
    let b := a.dadd kParityPersistent 1
    let w := unit * (sramSize / 4) + addr
    addr < sramSize / 4 →
    exec (.parityError .sliceData unit addr false t) s = .next ((b.modMem (fun m =>
      { m with sramBad := m.sramBad.filter (· != w) ++ [w] })).reportUnit 0x0301 1 2 (b.physSlice unit) none addr)) ∧
  (∀ (s : State) (c addr t : Nat), let a := s.at t
    exec (.parityError .neuronState c addr false t) s = .next ((a.dadd kParityPersistent 1).failCore c 0x0102 (2 ^ 28 + addr))) ∧
  (∀ (s : State) (i off t x : Nat), let a := s.at t
    a.subServes i = true → a.poisoned i off = false → a.addrBack i off = some x →
    exec (.lpddr6ReadError i off .uncorrectable t) s = .next (((((a.modMem (fun m =>
      { m with poison := m.poison.filter (· != x / 32) ++ [x / 32] })).modSlice i (fun y =>
      { y with ue := satAdd 32 y.ue 1, lastErr := off })).dadd kUeTotal 1).reportUnit 0x0401 0 3 i none off))) ∧
  (∀ (s : State) (i t : Nat) (e : WordError) (w : Bool), let a := s.at t
    let o := (a.slice i).scrub
    a.subServes i = true →
    exec (.patrolScrub i e w t) s = .next ((a.readWord i o e w).modSlice i (fun x =>
      { x with scrub := if 0xF0000000 ≤ o + 32 then 0 else o + 32, passes := if 0xF0000000 ≤ o + 32 then satAdd 32 x.passes 1 else x.passes }))) ∧
  (∀ (s : State) (i temp t : Nat), let a := s.at t
    a.subServes i = true → (a.slice i).trainAt + 200000000 ≤ a.now →
    exec (.retrain i temp true t) s = .next ((a.modSlice i (fun x => { x with temp := temp })).modSlice i (fun x =>
      { x with retrains := satAdd 32 x.retrains 1, trainAt := a.now, trainTemp := temp }))) ∧
  (∀ (s : State) (i temp t : Nat), let a := s.at t
    a.subServes i = true → (a.slice i).trainAt + 200000000 ≤ a.now →
    exec (.retrain i temp false t) s = .next ((((a.modSlice i (fun x => { x with temp := temp })).logDefect 3 5 i 0).reportUnit
      0x0402 2 3 i none 0).loseSubchannel i)) ∧
  (∀ (s : State) (kind unit t : Nat), let a := s.at t
    let k := kind * 4096 + unit
    a.dget kBgtestEnable ≠ 0 → (∀ e ∈ a.mem.heldReg, e.1 = kind → e.2.1 ≠ unit) → (∀ x, (k, x) ∈ a.mem.bgAt → x + a.dget kBgtestInterval * 1000 ≤ a.now) →
    a.testable kind unit = true →
    exec (.bgtestRegion kind unit true t) s = .next ((a.modMem (fun m => { m with
      regions := mset dZero m.regions k ((mget dZero a.mem.regions k + 1) % testRegions kind), bgAt := mset dZero m.bgAt k a.now })).dadd64
      kBgtestRegions 1)) ∧
  (∀ (s : State) (h : Nat), h < 2 → s.pow.state ≠ .active →
    exec (.retentionLost h 0) s = .next ((s.dadd kRetentionLost 1).modPow (fun p =>
      { p with retLost := ((List.range 64).map (64 * h + ·)) ++ p.retLost.filter (fun c => c / 64 != h) }))) ∧
  (∀ (s : State) (h : Nat), h < 2 → s.pow.state = .standby →
    exec (.retentionLost h 1) s = .next ((s.dadd kRetentionLost 1).modPow (fun p => { p with memLost := h :: p.memLost.filter (· != h) }))) ∧
  (∀ (s : State) (r : Requester) (v t : Nat), let a := s.at t
    a.Accepts r kFrameAll v → 4 ≤ v → v ≤ a.frameAllMax → (∀ n, n < 8 → (a.part n).state = .absent) →
    ∃ u, exec (.frameAll r v t) s = .next u ∧ u.dget kFrameAll = v ∧ u.mem = { a.mem with
        lp := a.mem.lp.filter (fun e => decide (localBase ≤ e.1)), lpFree := some a.clk.free, owners := []
        poison := a.mem.poison.filter (fun w => decide (localBase ≤ 32 * w)), poisonOff := [] } ∧
      u.clk = { a.clk with free := a.clk.free + 1 } ∧ (∀ k, k ≠ kFrameAll → k ≠ kDictRequests → u.dget k = a.dget k) ∧ (∀ n, n < 8 → (u.part n).ledger.recs = []) ∧
      u = { a with dict := u.dict, mem := u.mem, clk := u.clk, parts := u.parts, outbox := u.outbox }) ∧
  (∀ (s : State) (r : Requester) (data : Bytes) (t : Nat), let a := s.at t
    let new := fun f => (data.getD f 0).toNat
    a.Accepts r kFrameOwner 0 → data.length = 236 →
    (∀ f, f < 236 → new f = a.frameOwner f ∨ (f < a.frameCount ∧ softOwner (a.frameOwner f) = true ∧ softOwner (new f) = true)) →
    ∃ u, exec (.frameOwner r data t) s = .next u ∧ (∀ f, f < 236 → u.frameOwner f = new f) ∧ (∀ x, u.lpRead x 1 = a.lpRead x 1) ∧
      (∀ k, k ≠ kDictRequests → u.dget k = a.dget k) ∧ u = { a with dict := u.dict, mem := u.mem, outbox := u.outbox }) ∧
  (∀ (s : State) (f w t : Nat), let a := s.at t
    let g := a.func f
    a.hostSees f = true → f ≤ 8 → winBase (w % 2 + bits w 31 28 * 2 ^ 28) g.winHi % a.barBytes f = 0 →
    exec (.bar2Window f false w t) s = .next (a.modFunc f (fun g => { g with winLo := w % 2 + bits w 31 28 * 2 ^ 28, winHi := g.winHi }))) ∧
  (∀ (s : State) (f w t : Nat), let a := s.at t
    let g := a.func f
    a.hostSees f = true → f ≤ 8 → winBase g.winLo (w % 64) % a.barBytes f = 0 →
    exec (.bar2Window f true w t) s = .next (a.modFunc f (fun g => { g with winLo := g.winLo, winHi := w % 64 }))) ∧
  (∀ (s : State) (r : Requester) (t : Nat), let a := s.at t
    a.Accepts r kConflictClear 1 →
    exec (.conflictClear r 1 t) s = .next ((a.modMem (fun m =>
      { m with conflicts := (List.range 16).foldl (fun r i => mset dZero r (conflictKey (a.dget kConflictTarget) i) 0) m.conflicts })).answer r
        kConflictClear stOk)) ∧
  (∀ (s : State) (r : Requester) (t : Nat), let a := s.at t
    a.Accepts r kConflictClear 2 →
    exec (.conflictClear r 2 t) s = .next ((a.modMem (fun m => { m with conflicts := [] })).answer r kConflictClear stOk))

/-- BAR2 (R274). An access inside an enabled window to LPDDR6 that the function may reach reads or writes the bytes there: after a
write, the bytes of the window are the data and every other byte reads as before; a read changes nothing. One that is not allowed
is counted, and a read then answers all ones. -/
def Obligations.Bar2ReachesMemory : Prop :=
  (∀ (s : State) (f off t : Nat) (data : Bytes), let a := s.at t
    let x := winBase (a.func f).winLo (a.func f).winHi + off
    a.hostSees f = true → f ≤ 8 → 0 < data.length → bit (a.func f).winLo 0 = true → off + data.length ≤ a.barBytes f →
    a.spaceOk spLp x data.length = true → a.spaceMay f false spLp x data.length = true → a.activeFrame x data.length = false →
    ∃ u, exec (.bar2Access f off 0 (some data) t) s = .next u ∧ (∀ j, j < data.length → u.lpRead (x + j) 1 = [data.getD j 0]) ∧
      (∀ y, y < x ∨ x + data.length ≤ y → u.lpRead y 1 = a.lpRead y 1) ∧ u = { a with mem := u.mem } ∧
      u.mem = { a.mem with lp := u.mem.lp, poison := u.mem.poison }) ∧
  (∀ (s : State) (f off len t : Nat), let a := s.at t
    let x := winBase (a.func f).winLo (a.func f).winHi + off
    a.hostSees f = true → f ≤ 8 → 0 < len → bit (a.func f).winLo 0 = true → off + len ≤ a.barBytes f →
    a.spaceOk spLp x len = true → a.spaceMay f false spLp x len = true → a.spaceBad spLp x len = false →
    exec (.bar2Access f off len none t) s = .next (a.out (.readData f false (a.lpRead x len)))) ∧
  (∀ (s : State) (f off len t : Nat), let a := s.at t
    a.hostSees f = true → f ≤ 8 → 0 < len → bit (a.func f).winLo 0 = false →
    exec (.bar2Access f off len none t) s = .next ((a.out (.readData f false (List.replicate len 0xFF#8))).dadd kBar2Discards 1))

/-! ### The network (chapters 10 and 11) -/

/-- Packets (R295 to R301, R303, R306, R310). One that its source may not send yet waits. One with a header word whose parity shows an
error, or over an excluded link, is sunk and counted, and each parity error is counted at its hop; of a retired generation it is sunk; one
whose CRC-32C does not match is negatively acknowledged with reason 1, and one that a hop marked with reason 2; a new one in order, with
room for it, is accepted, and acknowledged at once where its kind is accepted at once; one accepted later is acknowledged then. NACK
with reason 4 has the copy sent again after 1 µs without counting, any other reason but 3 resends it, ACK_TIMEOUT resends up to
RESEND_LIMIT, ACK takes the copy away. CREDIT_TIMEOUT counts and excludes the link. -/
def Obligations.PacketsAreAcknowledgedOrResent : Prop :=
  (∀ (s : State) (p : Packet) (e : Trip) (acc : Acceptance) (t : Nat), let a := (s.at t).fabricDue
    acc ≠ .completes → a.unsent p = true → exec (.packetArrival ⟨p, e, acc⟩ t) s = .next a) ∧
  (∀ (s : State) (p : Packet) (e : Trip) (acc : Acceptance) (t : Nat), let a := (s.at t).fabricDue
    acc ≠ .completes → a.unsent p = false → (a.noteCopy p).staleGen p.gen = true →
    exec (.packetArrival ⟨p, e, acc⟩ t) s = .next ((a.noteCopy p).dadd kStaleGen 1)) ∧
  (∀ (s c : State) (p : Packet) (e : Trip) (acc : Acceptance) (t : Nat) (spine : Option Nat), let a := (s.at t).fabricDue
    acc ≠ .completes → a.Routed p e c spine → (∃ x ∈ e.errors, parityShows x = true ∧ x.flit = 0) →
    exec (.packetArrival ⟨p, e, acc⟩ t) s = .next (((e.errors.filter parityShows).foldl (fun s x => s.hopError x.hop) c).dadd kWormDrops 1)) ∧
  (∀ (s c : State) (p : Packet) (e : Trip) (acc : Acceptance) (t : Nat) (spine : Option Nat), let a := (s.at t).fabricDue
    acc ≠ .completes → a.Routed p e c spine → e.errors = [] → (∃ k ∈ c.pathLinks p spine, k ∈ c.fab.excluded) →
    exec (.packetArrival ⟨p, e, acc⟩ t) s = .next (c.dadd kWormDrops 1)) ∧
  (∀ (s c : State) (p : Packet) (e : Trip) (acc : Acceptance) (t : Nat) (spine : Option Nat), let a := (s.at t).fabricDue
    acc ≠ .completes → a.Routed p e c spine → c.PathClear p spine → (∀ x ∈ e.errors, parityShows x = false) → isAck p.kind = false →
    arrives p e.errors = none →
    exec (.packetArrival ⟨p, e, acc⟩ t) s = .next (((c.dadd kCrcErrors 1).dadd64 kNacks 1).out (.picot 0x11 p.dst p.src (p.seq + 65536)))) ∧
  (∀ (s c : State) (p q : Packet) (e : Trip) (acc : Acceptance) (t : Nat) (spine : Option Nat) (x : FlitError), let a := (s.at t).fabricDue
    acc ≠ .completes → a.Routed p e c spine → c.PathClear p spine → e.errors = [x] → parityShows x = true → x.flit ≠ 0 →
    (c.hopError x.hop).PathClear p spine → isAck p.kind = false → arrives p e.errors = some q →
    exec (.packetArrival ⟨p, e, acc⟩ t) s = .next (((c.hopError x.hop).dadd64 kNacks 1).out (.picot 0x11 p.dst p.src (p.seq + 65536 * 2)))) ∧
  (∀ (s c : State) (p : Packet) (e : Trip) (acc : Acceptance) (t : Nat) (spine : Option Nat), let a := (s.at t).fabricDue
    let m := mget dMarks c.fab.recv (c.marksKey p)
    acc ≠ .completes → a.Routed p e c spine → c.PathClear p spine → e.errors = [] → isAck p.kind = false → c.formatOk p = true →
    (p.ordered = true → pktNewer p.seq m.expected = false) → seqNew m p.seq = true → (p.kind = 0x12 → acc ≠ .later) →
    c.resetPort p.dst = false → (p.kind = 0x21 → c.remoteRoomFor p = true) → (edgeHaul p = true → c.edgeRoom p = true) →
    exec (.packetArrival ⟨p, e, acc⟩ t) s = .next (c.acceptPacket p acc)) ∧
  (∀ (s c : State) (p : Packet) (e : Trip) (acc : Acceptance) (t : Nat) (spine : Option Nat), let a := (s.at t).fabricDue
    let m := mget dMarks c.fab.recv (c.marksKey p)
    acc ≠ .completes → a.Routed p e c spine → c.PathClear p spine → e.errors = [] → isAck p.kind = false → c.formatOk p = true →
    (p.ordered = true → pktNewer p.seq m.expected = false) → seqNew m p.seq = true → (p.kind = 0x12 → acc ≠ .later) →
    c.resetPort p.dst = false → (p.kind = 0x21 → c.remoteRoomFor p = true) → (edgeHaul p = true → c.edgeRoom p = true) → acceptedAtOnce p acc = true →
    (edgeHaul p = true → acc ≠ .later) →
    exec (.packetArrival ⟨p, e, acc⟩ t) s = .next (((c.modMarks (c.marksKey p) (fun m => seqMark m p.seq true)).takePacket p).sendAck p)) ∧
  (∀ (s : State) (p : Packet) (e : Trip) (t : Nat), let a := (s.at t).fabricDue
    p.seq ∈ (mget dMarks a.fab.recv (a.marksKey p)).held → (portType p.dst = 2 → (a.slice (portBits p.dst)).failed = false) →
    exec (.packetArrival ⟨p, e, .completes⟩ t) s = .next ((a.takePacket p).completePacket p)) ∧
  (∀ (s : State) (src dst seq expected t : Nat) (v : Unacked), let a := (s.at t).fabricDue
    a.fab.unacked.find? (a.isCopy src dst seq) = some v →
    exec (.nack src dst seq 4 expected t) s = .next (a.modFab (fun f => { f with unacked := f.unacked.map (fun x =>
      if a.isCopy src dst seq x then { x with busyAt := some (a.now + 1000) } else x) }))) ∧
  (∀ (s : State) (src dst seq reason expected t : Nat) (v : Unacked), let a := (s.at t).fabricDue
    let p : Packet := { v.pkt with gen := a.sourceGen v.pkt.src }
    a.fab.unacked.find? (a.isCopy src dst seq) = some v → reason ≠ 3 → reason ≠ 4 → v.lost = false → v.resends < a.dget kResendLimit →
    exec (.nack src dst seq reason expected t) s = .next (((a.modFab (fun f => { f with unacked := f.unacked.map (fun x =>
      if a.isCopy p.src p.dst p.seq x then { x with pkt := p, resends := x.resends + 1, sentAt := some a.now, busyAt := none } else x) })).dadd64
      kResends 1).out (.packet p))) ∧
  (∀ (s : State) (src dst seq t : Nat), let a := s.at t
    exec (.ack src dst seq t) s = .next ((a.modFab (fun f =>
      { f with unacked := f.unacked.filter (fun x => !a.isCopy src dst seq x) })).journalAcked src)) ∧
  (∀ (s : State) (src dst seq t i : Nat) (v : Unacked), let a := (s.at t).fabricDue
    let p : Packet := { v.pkt with gen := a.sourceGen v.pkt.src }
    a.fab.unacked.find? (a.isCopy src dst seq) = some v → v.sentAt = some i → i + a.dget kAckTimeout * 1000 ≤ a.now → v.busyAt = none →
    v.lost = false → v.resends < a.dget kResendLimit →
    exec (.ackTimeout src dst seq t) s = .next (((a.modFab (fun f => { f with unacked := f.unacked.map (fun x =>
      if a.isCopy p.src p.dst p.seq x then { x with pkt := p, resends := x.resends + 1, sentAt := some a.now, busyAt := none } else x) })).dadd64
      kResends 1).out (.packet p))) ∧
  (∀ (s : State) (sw link t : Nat), let a := s.at t
    exec (.creditTimeout sw link t) s = .next ((a.dadd kCreditTimeouts 1).excludeLink sw link)) ∧
  (∀ (s : State) (sw link t : Nat), let a := s.at t
    (a.dadd kCreditTimeouts 1).linkOut sw link = false → link < switchPorts sw →
    exec (.creditTimeout sw link t) s = .next (((a.dadd kCreditTimeouts 1).excludeEnds sw link).reportUnit 0x0501 0 7 sw none link))

/-- Routing generations, weights and clocks (R288, R305, R308, R309, R311, R312). REBUILD when idle stages a generation; GEN_DRAIN once
no source is left on the old one; GEN_DONE of the last switch retires it. Weights are reset, or written as the rule bounds them.
CMAP_INTERVAL sends the haul of its switch, and notes its entries while the management core runs; a clock change to its target is made. -/
def Obligations.RoutesAreRebuilt : Prop :=
  (∀ (s : State) (r : Requester) (t : Nat), let a := s.at t
    a.Accepts r kRouteCommand 1 → a.dget kRouteState = rsIdle →
    exec (.rebuild r t) s = .next (((a.dset kRouteState rsStaged).modFab (fun f => { f with
      leftOut0 := if a.dget kRouteGen = 1 then f.excluded else f.leftOut0
      leftOut1 := if a.dget kRouteGen = 1 then f.leftOut1 else f.excluded
      slices0 := if a.dget kRouteGen = 1 then a.floor.sliceMap else f.slices0
      slices1 := if a.dget kRouteGen = 1 then f.slices1 else a.floor.sliceMap
      stagedAt := a.now, doneFrom := [], rebuildDue := false })).answer r kRouteCommand stOk)) ∧
  (∀ (s : State) (t : Nat), let a := (s.at t).fabricDue
    a.dget kRouteState = rsSwitching → (∀ c ∈ a.fab.toSwitch, a.oldSource c = false) → (∀ c ∈ a.fab.unitsLeft, a.oldUnits c = false) →
    ∃ u, exec (.genDrain t) s = .next u ∧ u.dget kRouteState = rsDraining ∧ u.fab = { a.fab with toSwitch := [], unitsLeft := [] } ∧
      (∀ k, k ≠ kRouteState → u.dget k = a.dget k) ∧ u = { a with dict := u.dict, fab := u.fab, outbox := u.outbox }) ∧
  (∀ (s : State) (i t : Nat), let a := s.at t
    let b := a.modFab (fun f => { f with doneFrom := f.doneFrom ++ [i] })
    a.dget kRouteState = rsDraining → a.genSwitches.contains i = true → a.fab.doneFrom.contains i = false →
    exec (.genDone i t) s = .next (if b.genSwitches.all (fun j => b.fab.doneFrom.contains j) then b.retireGen else b)) ∧
  (∀ (s : State) (n t : Nat), let a := (s.at t).fabricDue
    a.dget kRouteState = rsSwitching → a.fab.commitAt + 10 * a.dget (kPeriod n) * 1000 ≤ a.now →
    exec (.genSwitchTimeout n t) s = .next ((a.modFab (fun f => { f with
      unitsLeft := f.unitsLeft.filter (fun cl => a.partOf cl != some n) })).modFab (fun f => { f with
      toSwitch := f.toSwitch.filter (fun c => a.partOf (clusterOf c) != some n) }))) ∧
  (∀ (s : State) (r : Requester) (t : Nat), let a := s.at t
    a.Accepts r kRouteCommand 2 →
    exec (.resetWeights r t) s = .next ((a.modFab (fun f => { f with weights := [] })).answer r kRouteCommand stOk)) ∧
  (∀ (s : State) (r : Requester) (data : Bytes) (t : Nat), let a := s.at t
    let i := a.sel r kWeightSelect
    let v := fun u => (data.getD u 0).toNat
    a.Accepts r kRouteWeights 0 → a.dget kRouteAdapt ≠ 1 → data.length = 32 → (∀ u, u < uplinks i → 1 ≤ v u ∧ v u ≤ 15) →
    (∀ u, uplinks i ≤ u → u < 32 → v u = 0) →
    exec (.routeWeights r data t) s = .next
      ((a.each (List.range (uplinks i)) (fun s u => s.setWeight i u (v u))).answer r kRouteWeights stOk)) ∧
  (∀ (s : State) (sw t : Nat) (ports : List (List PortSample)), let a := s.at t
    let l := (List.range (switchPorts sw)).map (fun k => a.cmapEntry sw k (ports.getD k []))
    let b := (a.modFab (fun f => { f with cmapAt := mset dZero f.cmapAt sw a.now })).out (.cmapHaul sw (cmapBytes sw a.tsnNow l))
    switchPorts sw ≠ 0 → mget dZero a.fab.cmapAt sw + a.dget kCmapInterval * 1000000 ≤ a.now →
    ∃ u, exec (.cmapInterval sw ports t) s = .next u ∧ (a.rel.mgmtUp = false → u = b) ∧
      (a.rel.mgmtUp = true → u.fab.cmap = mset dNone a.fab.cmap sw (some (a.tsnNow, l))) ∧
      (a.rel.mgmtUp = true → a.dget kRouteAdapt = 0 → a.dget kTelemEnable = 0 →
        u = b.modFab (fun f => { f with cmap := mset dNone f.cmap sw (some (a.tsnNow, l)) }))) ∧
  (∀ (s : State) (h t : Nat), let a := s.at t
    h < 2 → exec (.fabricClockChange h (a.clockTarget h) t) s = .next (a.modHalf h (fun q => { q with clock := a.clockTarget h })))

/-! ### Remote delivery (chapter 5) -/

/-- Remote delivery (R119, R138 to R142, R451). A remote haul at its edge router, with room for it, is buffered by peer and pitch but for its
record faults, which are counted, and acknowledged; a pitch's records of one peer are transmitted when the pitch is over; a failed send is dropped and counted;
a message, answered with a congestion notification where it is marked (R330), that its form and its
peer check pass is buffered, record by record, without record faults; INJECT after the belay takes what is
buffered; an acknowledged message resets the peer's count. -/
def Obligations.RemoteEventsTravel : Prop :=
  (∀ (s : State) (e id t : Nat) (h : Haul), let a := s.at t
    mget dNone a.hauls id = some h → h.kind = .remote → h.dst = 2048 + e → a.outRoom e h.remotes.length = true →
    exec (.remoteHaul e id t) s = .next ((State.modRem (State.dadd { a with hauls := mset dNone a.hauls id none } (kRecordFaults h.part)
      (h.remotes.filter (fun r => inFlightBad r.event)).length) e h.part (fun b =>
      { b with out := b.out ++ (h.remotes.filter (fun r => inFlightOk r.event)).map (fun r => (r.peer, h.pitch, r)) })).ackHaul h)) ∧
  (∀ (s : State) (e n peer t p k : Nat) (r : RemoteRec), let a := s.at t
    let mine := (a.remBuf e n).out.filter (fun r => r.1 == peer && r.2.1 == p)
    let rest := (a.remBuf e n).out.filter (fun r => !(r.1 == peer && r.2.1 == p))
    let b := a.modRem e n (fun b => { b with out := mine.drop 255 ++ rest })
    (a.remBuf e n).out.find? (fun r => r.1 == peer) = some (k, p, r) → (a.part n).seq.isOpen = false ∨ (a.part n).seq.pitch ≠ p ∨ 255 ≤ mine.length →
    exec (.remoteTransmit e n peer t) s = .next (
      let x := (mine.take 255).map (fun r => r.2.2)
      if b.peerReach n peer p then
        ((b.out (.roce (peerPort (b.peer n peer)) (b.subportFor (peerPort (b.peer n peer)) (peerAddr (b.peer n peer)))
          (peerQpn (b.peer n peer)) (b.remoteMsg n peer p x))).modRem e n (fun q =>
          { q with sent := q.sent ++ [(peer, p, x.length)] })).countRem e n 0 x.length
      else (b.dropRemote n peer p x.length).peerFailed n peer p)) ∧
  (∀ (s : State) (n peer pitch nrec t : Nat), let a := s.at t
    let e := peerEdge (a.peer n peer)
    (peer, pitch, nrec) ∈ (a.remBuf e n).sent → 0 < nrec →
    exec (.remoteSendFailed n peer pitch nrec t) s = .next (
      ((((a.modRem e n (fun b => { b with sent := b.sent.erase (peer, pitch, nrec) })).countRem e n 5 nrec).mark n 10 peer nrec
        pitch).peerFailed n peer pitch))) ∧
  (∀ (s : State) (m : MessagePath) (t : Nat) (msg : Bytes), let a := (s.at t).messageMarked m msg
    let e := m.edge
    let n := fieldAt msg 5 1
    let recs := ((List.range (rmCount msg)).map (rmRecord msg)).filter (fun r => r.event != 0)
    let bad := (recs.filter (a.rrOk n)).filter (fun r => inFlightBad r.event)
    let kept := ((recs.filter (a.rrOk n)).filter (fun r => inFlightOk r.event)).take (32768 - a.inbound e)
    rmFormOk msg = true → a.rmTaken msg = true →
    exec (.remoteMessage m msg t) s = .next (((bad.foldl (fun s r => s.bump r.dcore 0x6C 1) (a.modRem e n (fun b =>
      { b with inb := b.inb ++ kept.map (fun r => (fieldAt msg 8 8, r)) }))).countRem e n 1 kept.length).countRem e n 5
      (recs.length - bad.length - kept.length))) ∧
  (∀ (s : State) (m : MessagePath) (t : Nat) (msg : Bytes), let a := (s.at t).messageMarked m msg
    let e := m.edge
    rmFormOk msg = false ∨ a.rmTaken msg = false →
    exec (.remoteMessage m msg t) s = .next (if fieldAt msg 5 1 < 8 then a.countRem e (fieldAt msg 5 1) 5 (rmCount msg) else a)) ∧
  (∀ (s : State) (e n t : Nat), let a := s.at t
    (a.part n).seq.everOpen = true → (a.part n).seq.isOpen = false → running (a.part n) = true →
    a.now + 5000 ≤ (a.part n).seq.belayAt + a.guardNs n →
    ∃ u, exec (.remoteInject e n t) s = .next u ∧ (u.remBuf e n).inb = [] ∧ (u.remBuf e n).out = (a.remBuf e n).out ∧
      (∀ i h, i < a.haulNext → mget dNone a.hauls i = some h → mget dNone u.hauls i = some h) ∧
      u = { a with remote := u.remote, dict := u.dict, hauls := u.hauls, haulNext := u.haulNext }) ∧
  (∀ (s : State) (e n t : Nat), let a := s.at t
    (a.part n).seq.everOpen = true → (a.part n).seq.isOpen = false → running (a.part n) = true →
    a.now + 5000 ≤ (a.part n).seq.belayAt + a.guardNs n → (a.remBuf e n).inb = [] →
    exec (.remoteInject e n t) s = .next (a.modRem e n (fun b => { b with inb := [] }))) ∧
  (∀ (s : State) (n peer t : Nat) (x : Nat × Nat × Nat), let a := s.at t
    let e := peerEdge (a.peer n peer)
    (a.remBuf e n).sent.find? (fun m => m.1 == peer) = some x →
    exec (.roceAck n peer t) s = .next ((a.modRem e n (fun b => { b with sent := b.sent.erase x })).modPart n (fun q => { q with
      peerFails := mset dFails q.peerFails peer (0, 0), peerDown := q.peerDown.filter (· != peer) })))

/-! ### Ports (chapter 12) -/

/-- PCIe (R318 to R324, R326). FUNCTION_LEVEL_RESET and PERST_N reset the functions and close their windows, and an operation of theirs that
waits for power is gone; PERST_N takes the VFs away; a link that comes up, with bring-up past step 4 (R381), gives its width and speed, and what the host wrote to configuration
space. SLOT_GO of a block of a legal length issues it; SLOT_DONE hands the result back and raises cause 1. QNOTIFY names only a queue the
function may be told of; INT_CAUSE clears by ones; INT_MASK sends what was held back. A heartbeat arms the function, one of 0 disarms it; its
timeout is a host loss. -/
def Obligations.HostFunctionsAreServed : Prop :=
  (∀ (s : State) (f t : Nat) (conf : PcieConf), let a := s.at t
    f < 9 → (a.func f).present = true →
    ∃ u, exec (.functionLevelReset ⟨f, conf⟩ t) s = .next u ∧ (u.func f).conf = conf ∧ (∀ o ∈ u.pow.heldOps, o.1 ≠ f) ∧ bit (u.func f).winLo 0 = false ∧ (u.func f).notify = [] ∧ (u.func f).armed = false ∧
      (u.func f).winHi = (a.func f).winHi ∧ (u.func f).present = true ∧ (∀ k ∈ funcMailboxes f, u.mailbox k = {}) ∧
      u.clk.now = a.clk.now ∧ u.keep = a.keep ∧ u.sec = a.sec) ∧
  (∀ (s : State) (pin : Bool) (t : Nat), let a := s.at t
    ∃ u, exec (.perstN pin t) s = .next u ∧ u.ports.perst = (a.ports.perst || pin) ∧ (∀ n, n < 8 → (u.func (n + 1)).present = false) ∧
      (∀ f, f < 9 → (a.func f).present = true → (u.func f).armed = false ∧ (u.func f).notify = []) ∧
      u.dget kPcieState = 0 ∧ u.dget kNumVfs = 0 ∧ u.keep = a.keep ∧ u.sec = a.sec) ∧
  (∀ (s : State) (t : Nat), let a := s.reach t
    a.ports.perst = true → a.dead = false →
    exec (.perstNRelease t) s = .next (
      let b := if a.iodOn = true then (a.modPorts (fun p => { p with perst := false })).dset kPcieState 1
        else a.modPorts (fun p => { p with perst := false })
      match a.pow.entry with
      | some e => if e.target ≠ .drowse then b.wakeEvent 0x1300 else b
      | none => if a.memOn = true then b else b.wakeEvent 0x1300)) ∧
  (∀ (s : State) (width speed vfs : Nat) (conf : List PcieConf),
    s.ports.perst = false → s.iodOn = true → s.funcsUp = true → vfs ≤ 8 → width = 1 ∨ width = 2 ∨ width = 4 → 1 ≤ speed → speed ≤ 5 →
    ∃ u, exec (.pcieLinkUp width speed ⟨vfs, conf⟩) s = .next u ∧ u.dget kPcieState = 2 ∧ u.dget kPcieWidth = width ∧ u.dget kPcieSpeed = speed ∧
      u.dget kNumVfs = vfs ∧
      (∀ n, n < 8 → u.func (n + 1) = { s.func (n + 1) with present := decide (n < vfs), conf := conf.getD (n + 1) {} }) ∧
      u.func 0 = { s.func 0 with conf := conf.getD 0 {} } ∧
      u = { s with dict := u.dict, ports := u.ports }) ∧
  (∀ (s : State) (f k w t : Nat), let a := s.reach t
    let b := a.modOp f k (fun q => { q with busy := true, done := false, result := none })
    a.hostSees f = true → f ≤ 8 → k < 16 → (a.slot f k).busy = false → w < 32 ∨ 2080 < w ∨ w % 8 ≠ 0 →
    exec (.slotGo f k w t) s = .next (b.modOp f k (fun q => { q with result := some (qOpcode, 0) }))) ∧
  (∀ (s : State) (f k w t : Nat), let a := s.reach t
    let b := a.modOp f k (fun q => { q with busy := true, done := false, result := none })
    a.hostSees f = true → f ≤ 8 → k < 16 → (a.slot f k).busy = false → 32 ≤ w → w ≤ 2080 → w % 8 = 0 →
    exec (.slotGo f k w t) s = .next (
      let x := Machine.slice (b.slot f k).buffer 0 w
      if b.holdsOps then b.modPow (fun p => { p with heldOps := p.heldOps ++ [(f, k, x)] }) else b.issueBlock f k x)) ∧
  (∀ (s : State) (f k status value t : Nat), let a := s.at t
    (a.slot f k).busy = true → (a.slot f k).result = some (status, value) →
    exec (.slotDone f k status value t) s = .next ((a.modOp f k (fun q =>
      { q with busy := false, done := true, status := status, value := value, result := none })).raiseCause f 1)) ∧
  (∀ (s : State) (f k w : Nat),
    let q := w % 2 ^ 20
    let v := if s.mayNotify f q then (if bit w 31 then 2 ^ 31 + q else q) else mget dZero (s.func f).notify k % 2 ^ 20
    s.hostSees f = true → f ≤ 8 → k < 8 →
    exec (.qnotify f k w) s = .next (s.modFunc f (fun g => { g with notify := mset dZero g.notify k v }))) ∧
  (∀ (s : State) (f w : Nat), s.hostSees f = true → f ≤ 8 →
    exec (.intCause f false w) s = .next (s.modFunc f (fun g => { g with cause := g.cause - (g.cause &&& w % 2 ^ 12) }))) ∧
  (∀ (s : State) (f w : Nat), s.hostSees f = true → f ≤ 8 →
    exec (.intCause f true w) s = .next (
      let b := s.modFunc f (fun g => { g with imask := w % 2 ^ 12 })
      b.outs (((List.range 12).filter (fun i => bit (s.func f).imask i && !bit (w % 2 ^ 12) i && bit (s.func f).cause i)).map (fun i => Output.msix f i)))) ∧
  (∀ (s : State) (f w t : Nat), let a := s.reach t
    a.hostSees f = true → f ≤ 8 → w % 2 ^ 32 ≠ 0 →
    exec (.hostHeartbeat f w t) s = .next (
      let b := (a.modFunc f (fun g => { g with hbLast := w % 2 ^ 16, armed := true, hbAt := a.now })).endLoss f
      match b.pow.entry with
      | some e => if e.target ≠ .drowse then b.wakeEvent (0x1100 + f) else b
      | none => b)) ∧
  (∀ (s : State) (f w t : Nat), let a := s.reach t
    a.hostSees f = true → f ≤ 8 → w % 2 ^ 32 = 0 →
    exec (.hostHeartbeat f w t) s = .next (a.modFunc f (fun g => { g with armed := false, hbAt := a.now }))) ∧
  (∀ (s : State) (f t : Nat), let a := s.at t
    (a.func f).armed = true → (a.func f).hbAt + a.dget kHeartbeatTimeout * 1000000 ≤ a.now →
    ∃ u, exec (.heartbeatTimeout f t) s = .next u ∧ (u.func f).armed = false ∧ (u.func f).lost = true ∧
      u.dget kHostLosses = satAdd 32 (a.dget kHostLosses) 1 ∧ u.clk.now = a.clk.now ∧ u.keep = a.keep ∧ u.sec = a.sec)

/-- Data ports (R327, R329 to R332). PORT_ENABLE starts training with no subport up, or takes the port out; 17 or more uncorrectable codewords in
an interval, or a lost lock, retrain the port, and fewer are counted. A connection request that the rule accepts is connected and answered, another is refused and counted; RDMA
within its key writes LPDDR6 and nothing else, outside it is refused; a congestion notification slows its connection. -/
def Obligations.DataPortsConnectAndWrite : Prop :=
  (∀ (s : State) (r : Requester) (p t : Nat), let a := s.at t
    p < 2 → a.Accepts r (kPortEnable p) 1 → a.dget (kPortEnable p) = 0 →
    exec (.portEnable r p 1 t) s = .next (
      let b := (((a.dset (kPortEnable p) 1).dclear (kPortWidth p)).dclear (kPortLanes p)).modDataPort p (fun _ => { training := true })
      (if (List.range 4).any (fun k => a.subUp p k) = true then b.raiseCause 0 3 else b).answer r (kPortEnable p) stOk)) ∧
  (∀ (s : State) (r : Requester) (p t : Nat), let a := s.at t
    p < 2 → a.Accepts r (kPortEnable p) 0 → a.dget (kPortEnable p) = 1 →
    ∃ u, exec (.portEnable r p 0 t) s = .next u ∧ u.dget (kPortEnable p) = 0 ∧ u.dataPort p = {} ∧ u.dataPort (1 - p) = a.dataPort (1 - p) ∧
      (a.dget kTimePort ≠ dataCode p ∨ a.dget kTimeState ≠ 1 → u.clk = a.clk) ∧ (a.dget kTimePort = dataCode p → u.dget kTimeState ≠ 1) ∧
      (∀ k, k ≠ kPortEnable p → k ≠ kPortWidth p → k ≠ kPortLanes p → k ≠ kTimeState → k ≠ kDictRequests → u.dget k = a.dget k) ∧
      u = { a with clk := u.clk, dict := u.dict, ports := u.ports, outbox := u.outbox }) ∧
  (∀ (s : State) (r : Requester) (p v t : Nat), let a := s.at t
    p < 2 → v < 2 → a.Accepts r (kPortEnable p) v → a.dget (kPortEnable p) = v →
    exec (.portEnable r p v t) s = .next (a.answer r (kPortEnable p) stOk)) ∧
  (∀ (s : State) (p fec t : Nat), let a := s.at t
    p < 2 → (a.dataPort p).training = false → (∃ k, k < 4 ∧ a.subUp p k = true) → fec = 0 ∨ 16 < fec →
    exec (.portRetrain p fec t) s = .next
      ((((a.dadd64 (kFecUncorrected p) fec).modDataPort p (fun q => { q with training := true })).dadd (kRetrains p) 1).raiseCause 0 3)) ∧
  (∀ (s : State) (p fec t : Nat), let a := s.at t
    p < 2 → (a.dataPort p).training = false → (∃ k, k < 4 ∧ a.subUp p k = true) → 1 ≤ fec → fec ≤ 16 →
    exec (.portRetrain p fec t) s = .next (a.dadd64 (kFecUncorrected p) fec)) ∧
  (∀ (s : State) (p service peerId qpn t : Nat), let a := s.at t
    p < 2 → a.portUp p = true → a.cmAccepts p service peerId = true →
    exec (.cmReq p service peerId qpn t) s = .next ((a.modDataPort p (fun q => { q with
      conns := mset dNone q.conns service (some ⟨qpn, peerId, false⟩) })).out (.cm p 2 service))) ∧
  (∀ (s : State) (p service peerId qpn t : Nat), let a := s.at t
    p < 2 → a.portUp p = true → a.cmAccepts p service peerId = false →
    exec (.cmReq p service peerId qpn t) s = .next ((a.dadd (kCmRefused p) 1).out (.cm p 3 service))) ∧
  (∀ (s : State) (p qpn : Nat) (c : Conn),
    p < 2 → s.portUp p = true → mget dNone (s.dataPort p).conns qpn = some c →
    exec (.cmMessage p .rtu qpn) s = .next (s.modDataPort p (fun q => { q with
      conns := mset dNone q.conns qpn (some { c with up := true }), slowed := q.slowed.filter (· != qpn) })) ∧
    exec (.cmMessage p .dreq qpn) s = .next ((s.modDataPort p (fun q => { q with
      conns := mset dNone q.conns qpn none, slowed := q.slowed.filter (· != qpn) })).out (.cm p 6 qpn)) ∧
    exec (.cmMessage p .drep qpn) s = .next (s.modDataPort p (fun q => { q with
      conns := mset dNone q.conns qpn none, slowed := q.slowed.filter (· != qpn) }))) ∧
  (∀ (s : State) (p qpn : Nat), let v := s.peer ((qpn - 0x010000) / 64) (qpn % 64)
    p < 2 → s.portUp p = true → mget dNone (s.dataPort p).conns qpn = none → 0x010000 ≤ qpn → qpn < 0x010200 → peerValid v = true → peerPort v = p →
    exec (.cmMessage p .rep qpn) s = .next ((s.modDataPort p (fun q => { q with
      conns := mset dNone q.conns qpn (some ⟨peerQpn v, peerId v, true⟩), slowed := q.slowed.filter (· != qpn) })).out (.cm p 4 qpn))) ∧
  (∀ (s : State) (p : Nat) (m : LoadPath) (rkey addr t : Nat) (data : Bytes), let a := (s.at t).ecnMarked m.ecn p m.qpn
    p < 2 → a.portUp p = true → a.rdmaOk p m.qpn rkey addr data.length = true →
    ∃ u, exec (.rdmaWrite p m rkey addr data t) s = .next u ∧ (∀ j, j < data.length → u.lpRead (addr + j) 1 = [data.getD j 0]) ∧
      (∀ y, y < addr ∨ addr + data.length ≤ y → u.lpRead y 1 = a.lpRead y 1) ∧ u = { a with mem := u.mem } ∧
      u.mem = { a.mem with lp := u.mem.lp, poison := u.mem.poison }) ∧
  (∀ (s : State) (p : Nat) (m : LoadPath) (rkey addr t : Nat) (data : Bytes), let a := (s.at t).ecnMarked m.ecn p m.qpn
    p < 2 → a.portUp p = true → a.rdmaOk p m.qpn rkey addr data.length = false →
    exec (.rdmaWrite p m rkey addr data t) s = .next ((a.dadd (kRdmaRefused p) 1).out (.roceNak p m.qpn 2))) ∧
  (∀ (s : State) (p qpn : Nat), s.connected p qpn = true → qpn ∉ (s.dataPort p).slowed →
    exec (.congestionNotification p qpn) s = .next (s.modDataPort p (fun q => { q with slowed := q.slowed ++ [qpn] }))) ∧
  (∀ (s : State) (p : Nat) (data : Bytes), p < 2 → s.portUp p = true →
    exec (.icmpv6Message p .echoRequest data) s = .next (s.out (.icmp (dataCode p) 129 data))) ∧
  (∀ (s : State) (p k : Nat) (data : Bytes), p < 2 → s.portUp p = true → k < subports (s.dget (kPortMode p)) → k < 4 → s.subUp p k = true →
    (s.subAddr p k).take 16 = data.take 16 →
    exec (.icmpv6Message p .neighbourSolicitation data) s = .next (s.out (.icmp (dataCode p) 136 data))) ∧
  (∀ (s : State) (p sub lanes : Nat), let mode := s.dget (kPortMode p)
    let run := runLanes mode sub (lanes &&& (s.dataPort p).allowed)
    p < 2 → s.iodOn = true → sub < subports mode → s.dget (kPortEnable p) ≠ 0 → (s.dataPort p).training = true →
    ∃ u, exec (.dataPortLinkUp p sub lanes) s = .next u ∧ (u.dataPort p).training = false ∧
      (∀ k, mget dDown (u.dataPort p).up k = if k = sub then (run != 0) else mget dDown (s.dataPort p).up k) ∧
      u.dget (kPortLanes p) = (u.dataPort p).lanes ∧ (sub = 0 → u.dget (kPortWidth p) = 100 * (maskList 4 run).length) ∧
      (u.dataPort p).conns = (s.dataPort p).conns ∧ u.dataPort (1 - p) = s.dataPort (1 - p) ∧
      u = { s with dict := u.dict, clk := u.clk, ports := u.ports, outbox := u.outbox })

/-- The field ring and process objects (R334, R336 to R339, R343, R344). A frame for others goes into the buffer of the other port, which
it leaves within 5 µs (R334; the delay is a free value), and is dropped and counted where that has no room; a link
that goes down is counted; the first check frame gives the address, if there is one; a lost check is ROPE_STATE UNMANAGED with its warning; STATE gives
the present and lost nodes; ANNOUNCE is sent each 100 ms, and one of another device with this address is a conflict. OBJ_ENABLE of a
well-formed object enables it, and it is transmitted once for a pitch, or each idle period. -/
def Obligations.FieldAndObjectsAreServed : Prop :=
  (∀ (s : State) (p dst len t : Nat) (cls : FrameClass) (body : Bytes), let a := (s.at t).bridgeDue
    let used := ((a.bridgeOf (1 - p)).map (·.len)).foldl (· + ·) 0
    p < 2 → a.fieldUp p = true → a.fieldUp (1 - p) = true → dst ≠ fieldMac p →
    (bridgeBytes < used + len → exec (.fieldFrame p dst cls len body t) s = .next (a.dadd kRopeFwdDrops 1)) ∧
    (used + len ≤ bridgeBytes → ∃ (u : State) (d : Nat), exec (.fieldFrame p dst cls len body t) s = .next u ∧ d ≤ 5000 ∧
      u.ports = { a.ports with bridge := mmod dFrames a.ports.bridge (1 - p) (fun l =>
        l ++ [{ cls := cls, len := len, body := body, arrived := a.now, leaves := a.now + d }]) } ∧
      u = { a with ports := u.ports, clk := { a.clk with free := a.clk.free + 1 } })) ∧
  (∀ (s : State) (p t : Nat), let a := s.at t
    p < 2 → a.fieldUp p = true →
    exec (.fieldLinkDown p t) s = .next (((((a.dset (if p = 0 then kF0Link else kF1Link) 0).dadd kLinkDowns 1).ropeSend 2 p
      [1 - p]).timePortDown p).raiseCause 0 3)) ∧
  (∀ (s : State) (p t : Nat), let a := s.at t
    p < 2 → a.fieldUp p = false →
    exec (.fieldLinkUp p t) s = .next ((a.dset (if p = 0 then kF0Link else kF1Link) 1).raiseCause 0 3)) ∧
  (∀ (s : State) (hops t : Nat), let a := (s.at t).modPorts (fun p => { p with checkAt := max p.checkAt t })
    exec (.ropeCheck true hops t) s = .next (
      let b := a.modPorts (fun p => { p with hops := some hops })
      if a.ports.hops ≠ none then a else if a.dget kAddrMode ≠ 0 then b
      else if hops ≤ 61 then (b.dset kNodeAddress (hops + 2)).dset kNodeState 0 else (b.dset kNodeAddress 0).dset kNodeState 1)) ∧
  (∀ (s : State) (hops t : Nat),
    exec (.ropeCheck false hops t) s = .next ((s.at t).modPorts (fun p => { p with checkAt := max p.checkAt t }))) ∧
  (∀ (s : State) (t : Nat), let a := s.at t
    a.dget kRopeState ≠ 2 → a.ports.checkAt + 3 * a.dget kRopeCheckInterval * 1000 ≤ a.now →
    exec (.checkTimeout t) s = .next (((a.dset kRopeState 2).warn 0x0007 0xFF 0).raiseCause 0 3)) ∧
  (∀ (s : State) (rope present lost t : Nat), let a := s.at t
    rope ≤ 1 → present < 2 ^ 64 → lost < 2 ^ 64 →
    ∃ u, exec (.ropeState rope present lost t) s = .next u ∧ u.dget kRopeState = rope ∧ u.dget kPresentNodes = present ∧
      u.dget kLostNodes = lost ∧ (∀ n, (u.part n).seq = (a.part n).seq) ∧ u.queues = a.queues ∧ u.syncs = a.syncs ∧ u.mem = a.mem ∧
      u.keep = a.keep ∧ u.sec = a.sec) ∧
  (∀ (s : State) (t : Nat), let a := s.at t
    a.ports.lastAnn + 100000000 ≤ a.now →
    exec (.announceTimer t) s = .next ((a.ropeSend 4 0 [0, 1]).modPorts (fun p => { p with lastAnn := a.now }))) ∧
  (∀ (s : State) (mac t : Nat), let a := s.at t
    a.dget kNodeAddress ≠ 0 → ownMac mac = false →
    exec (.announce (a.dget kNodeAddress) mac t) s = .next (((a.dset kNodeState nodeConflict).dset kAddrConflict 1).warn 0x0006 0xFF mac)) ∧
  (∀ (s : State) (r : Requester) (j t : Nat), let a := s.at t
    j < 32 → a.Accepts r (kObjEnable j) 1 → a.objGroups j ≠ [] → a.dget (kObjDest j) ≠ 0 →
    (∀ g ∈ a.objGroups j, a.slicePresent (g % 64) = true ∧ a.holder (32 + g) = some (a.dget (kObjPartition j))) →
    a.objSize j ≤ a.objLimit j →
    exec (.objEnable r j 1 t) s = .next (((a.dset (kObjEnable j) 1).dset kObjEnabled (setBit (a.dget kObjEnabled) j true)).answer r
      (kObjEnable j) stOk)) ∧
  (∀ (s : State) (r : Requester) (j t : Nat), let a := s.at t
    j < 32 → a.Accepts r (kObjEnable j) 0 →
    exec (.objEnable r j 0 t) s = .next (((a.dset (kObjEnable j) 0).dset kObjEnabled (setBit (a.dget kObjEnabled) j false)).answer r
      (kObjEnable j) stOk)) ∧
  (∀ (s : State) (j t p : Nat), let a := s.at t
    a.objPitch j = some p → a.objSet j = true → a.objMay j = true → running (a.part (a.dget (kObjPartition j))) = true →
    exec (.objectTransmit j t) s = .next (((a.deliver j (some p)).modObj j (fun o => { o with sentFor := some p, lastSent := a.now })).each
      (a.objGroups j) (fun s g => s.trimPast g))) ∧
  (∀ (s : State) (j t : Nat), let a := s.at t
    a.objSet j = true → a.objMay j = true → running (a.part (a.dget (kObjPartition j))) = false →
    (a.obj j).lastSent + a.dget (kObjIdlePeriod j) * 1000000 ≤ a.now →
    exec (.objectIdleTransmit j t) s = .next ((a.deliver j none).modObj j (fun o => { o with sentFor := none, lastSent := a.now })))

/-! ### The object dictionary (chapter 13) -/

/-- READ, READ_INDEX, DESCRIBE, ECHO and PACK_MASK (R352 to R354, R359, R420). Each request that is heard is counted. A READ of an entry
that the requester may read answers the segment of its value and keeps a snapshot; one of an entry that does not exist answers
ABSENT, one that it may not read ACCESS. READ_INDEX answers the subindices that it may read, DESCRIBE the row, ECHO the body. -/
def Obligations.DictionaryAnswersItsReads : Prop :=
  (∀ (s : State) (r : Requester) (tag index sub off maxlen t : Nat), let a := (s.serve t).counted
    let k := entryKey index sub
    let p := a.valueOf r k
    (s.serve t).hears r = true → 1 ≤ maxlen → maxlen ≤ 1024 → a.gate 1 k = true → defined k = true → a.reqReads r k = true →
    entryAccess k ≠ .wo → a.domainOff k 0 = false → naIndex (k / 256) = none → off ≤ p.1.length →
    exec (.readEntry r tag index sub off maxlen 0 t) s = .next (
      let q := p.2.keepSnap r (k / 256, some (k % 256)) p.1 []
      let d := (p.1.drop off).take maxlen
      q.2.reply r 1 stOk tag (entryHead k ++ natLe 2 off ++ natLe 2 p.1.length ++ natLe 2 q.1 ++ natLe 2 d.length ++ d))) ∧
  (∀ (s : State) (r : Requester) (tag index sub off maxlen snap t : Nat), let a := (s.serve t).counted
    let k := entryKey index sub
    (s.serve t).hears r = true → 1 ≤ maxlen → maxlen ≤ 1024 → a.gate 1 k = true → defined k = false →
    exec (.readEntry r tag index sub off maxlen snap t) s = .next (a.reply r 1 stAbsent tag (entryHead k))) ∧
  (∀ (s : State) (r : Requester) (tag index sub off maxlen snap t : Nat), let a := (s.serve t).counted
    let k := entryKey index sub
    (s.serve t).hears r = true → 1 ≤ maxlen → maxlen ≤ 1024 → a.gate 1 k = true → defined k = true →
    a.reqReads r k = false ∨ entryAccess k = .wo →
    exec (.readEntry r tag index sub off maxlen snap t) s = .next (a.reply r 1 stAccess tag (entryHead k))) ∧
  (∀ (s : State) (r : Requester) (tag index sub off maxlen snap t : Nat) (v : Bytes), let a := (s.serve t).counted
    let k := entryKey index sub
    (s.serve t).hears r = true → 1 ≤ maxlen → maxlen ≤ 1024 → a.gate 1 k = true → defined k = true → a.reqReads r k = true →
    entryAccess k ≠ .wo → snap ≠ 0 → (a.req r).snapNo = snap → a.now < (a.req r).snapAt + keepNs → snapValue (a.req r) k = some v → off ≤ v.length →
    exec (.readEntry r tag index sub off maxlen snap t) s = .next (
      let d := (v.drop off).take maxlen
      a.reply r 1 stOk tag (entryHead k ++ natLe 2 off ++ natLe 2 v.length ++ natLe 2 snap ++ natLe 2 d.length ++ d))) ∧
  (∀ (s : State) (r : Requester) (tag t : Nat), let a := (s.serve t).counted
    let v := natLe 16 a.packMaskValue
    (s.serve t).hears r = true → a.gate 1 kPackMask = true → a.reqReads r kPackMask = true → a.domainOff kPackMask 0 = false →
    exec (.packMask r tag t) s = .next (
      let q := a.keepSnap r (kPackMask / 256, some (kPackMask % 256)) v []
      q.2.reply r 1 stOk tag (entryHead kPackMask ++ natLe 2 0 ++ natLe 2 16 ++ natLe 2 q.1 ++ natLe 2 16 ++ v))) ∧
  (∀ (s : State) (r : Requester) (tag index first t : Nat), let a := (s.serve t).counted
    let k := entryKey index first
    let subs := a.readableSubs r index
    let q := (subs.filter (fun j => entryAccess (entryKey index j) != .wo)).foldl (fun (x : List (Nat × Bytes) × State) j =>
      let v := x.2.valueOf r (entryKey index j)
      (x.1 ++ [(j, v.1)], v.2)) ([], a)
    (s.serve t).hears r = true → a.gate 3 k = true → entryNsub index ≠ 0 → subs ≠ [] → naIndex index = none →
    (∀ j ∈ subs, entryAccess (entryKey index j) = .wo ∨ a.domainOff (entryKey index j) 0 = false) →
    exec (.readIndex r tag index first t) s = .next
      (q.2.readIndexNew r tag index first q.1 (subs.filter (fun j => entryAccess (entryKey index j) == .wo)))) ∧
  (∀ (s : State) (r : Requester) (tag index sub t : Nat) (e : EntryRow), let a := (s.serve t).counted
    let k := entryKey index sub
    (s.serve t).hears r = true → a.gate 4 k = true → entryRow (k / 256) (k % 256) = some e →
    exec (.describe r tag index sub t) s = .next ((a.describeBody e k).2.reply r 4 stOk tag (a.describeBody e k).1)) ∧
  (∀ (s : State) (r : Requester) (tag index sub t : Nat), let a := (s.serve t).counted
    let k := entryKey index sub
    (s.serve t).hears r = true → a.gate 4 k = true → entryRow (k / 256) (k % 256) = none → k % 256 ≠ 0 ∨ entryNsub (k / 256) = 0 →
    exec (.describe r tag index sub t) s = .next (a.reply r 4 stAbsent tag (entryHead k))) ∧
  (∀ (s : State) (r : Requester) (tag t : Nat) (body : Bytes), let a := s.serve t
    a.hears r = true → body.length ≤ 1024 → a.gate 5 0 = true →
    exec (.echo r tag body t) s = .next (a.counted.reply r 5 stOk tag body))

/-- WRITE and the requesters' timers (R354, R355, R361). A whole value is written at once; a first segment starts an assembly, a fitting
next one is appended, and the last one writes the value; a segment that does not fit drops the buffer with ARGUMENT. A datagram repeated
within the time kept is answered again and not performed, one to another UDP port (R340) changes nothing, one from or to an address that does
not fit (R337, R338) is dropped and counted; one with another MAJOR is answered VERSION_REFUSED. The timers drop what
was kept. -/
def Obligations.DictionaryTakesItsWrites : Prop :=
  (∀ (s : State) (r : Requester) (tag index sub t : Nat) (data : Bytes), let a := (s.serve t).counted
    let k := entryKey index sub
    (s.serve t).hears r = true → data.length ≤ 1024 → a.gate 2 k = true → defined k = true →
    exec (.writeEntry r tag index sub 0 data.length data t) s = .next (
      let o := a.writeEntry r (some tag) k data
      match o.1 with
      | some code => o.2.reply r 2 code tag (entryHead k ++ if code = stOk then natLe 2 data.length ++ natLe 2 0 else [])
      | none => o.2)) ∧
  (∀ (s : State) (r : Requester) (tag index sub total t : Nat) (data : Bytes), let a := (s.serve t).counted
    let k := entryKey index sub
    (s.serve t).hears r = true → data.length ≤ 1024 → a.gate 2 k = true → defined k = true → data.length < total → total ≤ asmSize k →
    (staged k = true → a.stagingHeld r = false) →
    exec (.writeEntry r tag index sub 0 total data t) s = .next ((a.modReq r (fun q => { q with
      asmKey := some k, asmTotal := total, asmBuf := data, asmAt := a.now })).reply r 2 stOk tag
        (entryHead k ++ (natLe 2 data.length ++ natLe 2 0)))) ∧
  (∀ (s : State) (r : Requester) (tag index sub off total t : Nat) (data : Bytes), let a := (s.serve t).counted
    let k := entryKey index sub
    let q := a.req r
    (s.serve t).hears r = true → data.length ≤ 1024 → a.gate 2 k = true → defined k = true → off ≠ 0 → q.asmKey = some k → q.asmTotal = total →
    q.asmBuf.length = off → a.now < q.asmAt + keepNs → off + data.length < total →
    exec (.writeEntry r tag index sub off total data t) s = .next ((a.modReq r (fun x => { x with
      asmBuf := q.asmBuf ++ data, asmAt := a.now })).reply r 2 stOk tag
        (entryHead k ++ (natLe 2 (q.asmBuf ++ data).length ++ natLe 2 0)))) ∧
  (∀ (s : State) (r : Requester) (tag index sub off total t : Nat) (data : Bytes), let a := (s.serve t).counted
    let k := entryKey index sub
    let q := a.req r
    (s.serve t).hears r = true → data.length ≤ 1024 → a.gate 2 k = true → defined k = true → off ≠ 0 → q.asmKey = some k → q.asmTotal = total →
    q.asmBuf.length = off → a.now < q.asmAt + keepNs → off + data.length = total →
    exec (.writeEntry r tag index sub off total data t) s = .next ((a.dropAsm r).writeWhole r (some tag) k (q.asmBuf ++ data))) ∧
  (∀ (s : State) (r : Requester) (tag index sub off total t : Nat) (data : Bytes), let a := (s.serve t).counted
    let k := entryKey index sub
    let q := a.req r
    (s.serve t).hears r = true → data.length ≤ 1024 → a.gate 2 k = true → defined k = true → off ≠ 0 →
    q.asmKey ≠ some k ∨ q.asmTotal ≠ total ∨ q.asmBuf.length ≠ off ∨ q.asmAt + keepNs ≤ a.now ∨ total < off + data.length →
    exec (.writeEntry r tag index sub off total data t) s = .next ((a.dropAsm r).reply r 2 stArgument tag (entryHead k))) ∧
  (∀ (s : State) (addr port dst udp t : Nat) (msg : Bytes), let a := s.serve t
    let r := Requester.rope addr port
    let b := a.heardFrom r (fieldAt msg 8 4) dst
    a.hears r = true → udp = a.dget kDictUdpPort → linkLocal addr = true → a.ropeIp dst = true → 2 ≤ msg.length → fieldAt msg 0 1 = 2 →
    fieldAt msg 4 2 = msg.length → msgDropped msg = false → (b.req r).lastTag = some (fieldAt msg 8 4) → b.now < (b.req r).lastAt + cacheNs →
    (b.req r).lastRsp ≠ [] →
    exec (.dictDatagram addr port dst udp msg t) s = .next ((b.dadd kDuplicateAnswers 1).respond r (b.req r).lastRsp)) ∧
  (∀ (s : State) (addr port dst udp t : Nat) (msg : Bytes), let a := s.serve t
    let r := Requester.rope addr port
    a.hears r = true → udp = a.dget kDictUdpPort → linkLocal addr = true → a.ropeIp dst = true → 2 ≤ msg.length → fieldAt msg 0 1 ≠ 2 →
    exec (.dictDatagram addr port dst udp msg t) s = .next (((a.heardFrom r (fieldAt msg 8 4) dst).dadd kVersionRefusals 1).respond r
      (msgHeader 0x0081 20 1 stVersion (if 12 ≤ msg.length then fieldAt msg 8 4 else 0) ++ natLe 1 (fieldAt msg 0 1) ++
        natLe 1 (fieldAt msg 1 1) ++ natLe 1 1 ++ natLe 1 2))) ∧
  (∀ (s : State) (addr port dst udp t : Nat) (msg : Bytes), let a := s.serve t
    let r := Requester.rope addr port
    let b := a.heardFrom r (fieldAt msg 8 4) dst
    a.hears r = true → udp = a.dget kDictUdpPort → linkLocal addr = true → a.ropeIp dst = true → 2 ≤ msg.length → fieldAt msg 0 1 = 2 →
    fieldAt msg 4 2 = msg.length → msgDropped msg = false → (b.req r).lastTag ≠ some (fieldAt msg 8 4) ∨ (b.req r).lastAt + cacheNs ≤ b.now →
    b.ropeCount < 8 →
    exec (.dictDatagram addr port dst udp msg t) s = .next
      ((b.modReq r (fun q => { q with lastTag := some (fieldAt msg 8 4), lastRsp := [], lastAt := b.now })).perform r msg)) ∧
  (∀ (s : State) (addr port dst udp t : Nat) (msg : Bytes), let a := s.serve t
    a.hears (.rope addr port) = true → udp = a.dget kDictUdpPort → linkLocal addr = false ∨ a.ropeIp dst = false →
    exec (.dictDatagram addr port dst udp msg t) s = .next (a.dadd kDictDrops 1)) ∧
  (∀ (s : State) (addr port dst udp t : Nat) (msg : Bytes), let a := s.serve t
    udp ≠ a.dget kDictUdpPort → exec (.dictDatagram addr port dst udp msg t) s = .next a) ∧
  (∀ (s : State) (r : Requester) (t : Nat), let a := s.serve t
    (a.req r).snapKey.isSome = true → (a.req r).snapAt + keepNs ≤ a.now →
    exec (.snapshotExpiry r t) s = .next (a.editReq r (fun q => { q with snapKey := none, snapVal := [], snapIdx := [] }))) ∧
  (∀ (s : State) (r : Requester) (t : Nat), let a := s.serve t
    (a.req r).asmKey.isSome = true → (a.req r).asmAt + keepNs ≤ a.now →
    exec (.assemblyTimeout r t) s = .next (a.editReq r (fun q => { q with asmKey := none, asmBuf := [], asmTotal := 0 }))) ∧
  (∀ (s : State) (addr port t : Nat), let a := s.serve t
    (a.req (.rope addr port)).lastAt + cacheNs ≤ a.now →
    exec (.requesterCacheExpiry addr port t) s = .next (a.editReq (.rope addr port) (fun q => { q with lastTag := none, lastRsp := [] })))

/-- Mailboxes, registers, locks and stored settings (R362, R363, R366, R367, R376, R352). SUBMIT takes the request; its answer comes
later; NOTICE and control bits act on the mailbox alone. LOCK_SET adds lock bits and, with the security group, disarms debug. STORE
and ERASE start a write of the copy, whose end makes it current, and whose failure says so. -/
def Obligations.MailboxesLocksAndCopiesAreKept : Prop :=
  (∀ (s : State) (k w t : Nat), let a := s.serve t
    a.mbxThere k = true → bit w 0 = true → (a.mailbox k).busy = false → (a.mailbox k).orphaned = false →
    exec (.submit k w t) s = .next (a.modMailbox k (fun m =>
      { m with taken := Machine.slice m.request 0 requestSize, busy := true, rspReady := false }))) ∧
  (∀ (s : State) (k t : Nat), let a := s.serve t
    let m := (a.mailbox k).taken
    k < 32 → (a.mailbox k).busy = true → a.inProgress (.mailbox k) = false → a.hears (.mailbox k) = true →
    exec (.mailboxResponse k t) s = .next (
      if fieldAt m 0 1 ≠ 2 then a.refuseVersion (.mailbox k) m
      else if msgDropped m then (a.dadd kDictDrops 1).modMailbox k (fun m => { m with busy := false })
      else if fieldAt m 4 2 < 16 ∨ requestSize < fieldAt m 4 2 then a.malformed (.mailbox k) (fieldAt m 2 2) (fieldAt m 8 4) (m.drop 16)
      else a.perform (.mailbox k) (m.take (fieldAt m 4 2)))) ∧
  (∀ (s : State) (k w : Nat), s.mbxThere k = true → bit w 31 = true →
    exec (.noticeRemove k w) s = .next (s.modMailbox k (fun m => { m with notices := m.notices.drop 1 }))) ∧
  (∀ (s : State) (k w : Nat), s.mbxThere k = true →
    ∃ u, exec (.mbxControl k w) s = .next u ∧ (u.mailbox k).noticeOn = (if bit w 17 then bit w 1 else (s.mailbox k).noticeOn) ∧
      (u.mailbox k).rspInt = (if bit w 16 then bit w 0 else (s.mailbox k).rspInt) ∧
      (u.mailbox k).notices = (if (u.mailbox k).noticeOn then (s.mailbox k).notices else []) ∧ (∀ j, j ≠ k → u.mailbox j = s.mailbox j) ∧
      u = { s with ports := u.ports } ∧ u.ports = { s.ports with mailboxes := u.ports.mailboxes }) ∧
  (∀ (s : State) (r : Requester) (v t : Nat), let a := s.reach t
    a.Accepts r kLockSet v → v < 16 →
    exec (.lockSet r v t) s = .next (
      let b := a.dset kLockState (a.dget kLockState ||| v)
      (if bit v 1 ∧ a.dget kDebugState = 1 then (b.dset kDebugState 0).modSec (fun x => { x with armed := 0 }) else b).answer r
        kLockSet stOk)) ∧
  (∀ (s : State) (r : Requester) (t : Nat), let a := s.reach t
    let seq := (match a.currentCopy with
      | some c => c.seq + 1
      | none => 1)
    a.Accepts r kStoreCommand 1 → a.dget kStoreState ≠ storeWriting →
    exec (.store r t) s = .next (((a.modMem (fun m => { m with
      storeWr := some ⟨seq % 2 ^ 32, storableKeys.map (fun k => (k, a.storedValue k))⟩ })).dset kStoreState storeWriting).answer r
        kStoreCommand stOk)) ∧
  (∀ (s : State) (r : Requester) (t : Nat), let a := s.reach t
    let seq := (match a.currentCopy with
      | some c => c.seq + 1
      | none => 1)
    a.Accepts r kStoreCommand 2 → a.dget kStoreState ≠ storeWriting →
    exec (.storeErase r t) s = .next (((a.modMem (fun m => { m with storeWr := some ⟨seq % 2 ^ 32, []⟩ })).dset kStoreState
      storeWriting).answer r kStoreCommand stOk)) ∧
  (∀ (s : State) (t : Nat) (c : StoreCopy), let a := s.reach t
    a.mem.storeWr = some c → a.dead = false →
    exec (.storeWriteDone false t) s = .next ((a.modMem (fun m => { m with storeWr := none })).dset kStoreState 3)) ∧
  (∀ (s : State) (t : Nat) (c : StoreCopy), let a := s.reach t
    a.mem.storeWr = some c → a.dead = false → (∀ x, a.currentCopy = some x → x.seq < c.seq) →
    ∃ u, exec (.storeWriteDone true t) s = .next u ∧ u.mem.storeWr = none ∧ u.currentCopy = some c ∧ u.dget kStoreState = 1 ∧
      u.dget kStoreSequence = c.seq ∧ u.dget kStoreEntries = c.recs.length % 2 ^ 16 ∧
      u = { a with mem := u.mem, dict := u.dict } ∧ u.mem = { a.mem with
        store0 := u.mem.store0, store1 := u.mem.store1, storeWr := none, patched := u.mem.patched }) ∧
  (∀ (s : State) (r : Requester) (index sub t : Nat) (data : Bytes), let a := s.serve t
    let k := entryKey index sub
    a.hears r = true → a.gate 2 k = true →
    exec (.registerWrite (.entry r index sub) data t) s = .next (
      let o := a.writeEntry r none k data
      match o.1 with
      | some code => o.2.answer r k code
      | none => o.2)) ∧
  (∀ (s : State) (f o t : Nat) (data : Bytes), let a := s.serve t
    a.hostSees f = true → f ≤ 8 → 0x30000 ≤ o → o < 0x300C0 →
    exec (.registerWrite (.bar0 f o) data t) s = .next (a.modFunc f (fun g => { g with msix := putBytes 192 (o - 0x30000) g.msix data })))

/-! ### Resets and licences (chapters 14 and 17) -/

/-- Resets (R393 to R397, R242, R480, R379). A core or cluster reset, of no running partition and with no other reset in progress, clears
what Table 14.6 says, is in progress and counts, the latter with the queues and sync objects of the cluster's endpoint; a wider one waits for
those in progress that it contains, and any other is refused while one is in progress; a partition reset leaves the partition READY or CREATED with no load and no station; a device reset leaves everything outside MRAM and
the always-on island as after power-on and restarts the part; PORST_N holds the part in reset, and its release brings it up. -/
def Obligations.ResetsClearTheirScope : Prop :=
  (∀ (s : State) (r : Requester) (c t : Nat), let a := s.serve t
    a.Accepts r kResetCommand (2 ^ 28 + c) → a.corePresent c = true → running (a.coreP c) = false → a.cmpOn = true → a.liveResets = [] →
    exec (.coreReset r c true t) s = .next ((((((a.beginReset 1 c 1).clearAcc c).clearCounters c).modCore c (fun k =>
      { mode := k.mode, cairn := k.cairn, catchUp := k.catchUp })).dadd kResetsCore 1).answer r kResetCommand stOk)) ∧
  (∀ (s : State) (r : Requester) (cl t : Nat), let a := s.serve t
    a.Accepts r kResetCommand (2 ^ 29 + cl) → cl < 128 → a.clCores cl ≠ [] → (∀ n, a.partOf cl = some n → running (a.part n) = false) →
    a.cmpOn = true → a.liveResets = [] →
    let b := (a.beginReset 2 cl 5).resetEndpoint (0x80 + cl)
    ∃ u, exec (.clusterReset r cl [] t) s = .next u ∧ u.cluster cl = { journal := (b.cluster cl).journal, jNext := (b.cluster cl).jNext } ∧
      (∀ c ∈ a.clCores cl, u.core c = { mode := (b.core c).mode, cairn := (b.core c).cairn, catchUp := (b.core c).catchUp }) ∧
      (∀ c, c ∉ a.clCores cl → u.core c = b.core c) ∧ u.dget kResetsCluster = satAdd 32 (b.dget kResetsCluster) 1 ∧
      u.cm.neurons = b.cm.neurons ∧ u.fab.recv = b.fab.recv.filter (fun e => e.1 % 512 != cl) ∧
      u = { b with cores := u.cores, cm := u.cm, clusters := u.clusters, fab := u.fab, dict := u.dict, outbox := u.outbox }) ∧
  (∀ (s : State) (r : Requester) (n t : Nat), let a := s.serve t
    a.Accepts r kResetCommand (2 ^ 29 + 2 ^ 28 + n) → n < 8 → (a.part n).state ≠ .absent → a.cmpOn = true → a.liveResets = [] →
    ∃ u, exec (.partitionReset r n [] t) s = .next u ∧ (u.part n).state = (if (u.part n).active.isSome then .ready else .created) ∧
      (u.part n).loading = [] ∧ (u.part n).pendSwap = false ∧ (u.part n).stations = 0 ∧ (u.part n).snap = {}) ∧
  (∀ (s : State) (r : Requester) (n t : Nat), let a := s.serve t
    a.Accepts r kResetCommand (2 ^ 29 + 2 ^ 28 + n) → n < 8 → (a.part n).state ≠ .absent → a.cmpOn = true → a.liveResets ≠ [] →
    a.liveResets.all (a.contains 3 n) = true →
    exec (.partitionReset r n [] t) s = .next ((a.modFloor (fun x => { x with queued := x.queued ++ [(3, n, [])] })).answer r
      kResetCommand stOk)) ∧
  (∀ (s : State) (r : Requester) (c t : Nat), let a := s.serve t
    a.Accepts r kResetCommand (2 ^ 28 + c) → a.corePresent c = true → running (a.coreP c) = false → a.cmpOn = true → a.liveResets ≠ [] →
    exec (.coreReset r c true t) s = .next ((a.dadd kResetsRefused 1).answer r kResetCommand stState)) ∧
  (∀ (s : State) (cause t : Nat) (f : BringupFacts), let a := s.reach t
    let b := (a.restart true).setClocks
    let b := if b.ports.perst then b else b.dset kPcieState 1
    a.dead = false → (cause = causeCommand ∧ a.floor.resetDue = true) ∨
      (cause = causeFirmware ∧ (if a.sec.recovery then a.sec.resetDue else a.rel.mgmtUp) = true) →
    exec (.deviceReset cause f t) s = .next (
      let c := (b.dset kResetCause cause).loadRope.bootRom
      if c.sec.recovery then c.readdress.bringFail 2 else c.bringFirmware f (bootFallback b.bootMode c.sec.running))) ∧
  (∀ (s : State) (t : Nat) (f : BringupFacts), let a := s.reach t
    a.dead = false → (if a.sec.recovery then a.sec.resetDue else a.rel.mgmtUp) = true → a.currentCopy = none →
    ∃ u, exec (.deviceReset causeFirmware f t) s = .next u ∧
      u.mem = { mram := a.mem.mram, patched := u.mem.patched, store0 := a.mem.store0, store1 := a.mem.store1 } ∧
      u.keep = {} ∧ u.parts = [] ∧ u.cores = [] ∧ u.cm = {} ∧ u.queues = [] ∧ u.syncs = [] ∧
      u.streams = [] ∧ u.hauls = [] ∧ u.floor.fuses = a.floor.fuses ∧ (a.mem.patched = [] → u.floor.licences = a.floor.licences) ∧
      u.dget kResetCause = causeFirmware ∧ u.pending = a.pending) ∧
  (∀ (s : State) (ns t : Nat), let a := s.at t
    10000 ≤ ns → a.floor.cause = none → a.pow.tripped = false →
    exec (.porstNAssert ns t) s = .next ((((a.restart false).modPins (fun p => { p with porst := true })).modFloor (fun x =>
      { x with cause := some causePorst })).modRel (fun r => { r with mgmtUp := false }))) ∧
  (∀ (s : State) (ns t : Nat), ns < 1000 → exec (.porstNAssert ns t) s = .next (s.at t)) ∧
  (∀ (s : State) (t : Nat) (f : BringupFacts), let a := s.at t
    let b := (((a.modPins (fun p => { p with porst := false })).modFloor (fun x => { x with cause := none })).modClk (fun k =>
      { k with bootAt := k.now, tsn := -(k.now : Int) })).modRel (fun r => { r with mgmtUp := true })
    a.pins.porst = true →
    exec (.bringup f t) s = .next (
      let b := if b.ports.perst then b else b.dset kPcieState 1
      let c := (b.dset kResetCause (a.floor.cause.getD causePorst)).loadRope.bootRom
      if c.sec.recovery then c.readdress.bringFail 2 else c.bringFirmware f (bootFallback b.bootMode c.sec.running)))

/-- Licences (R391, R392, R454). LICENCE_INSTALL of a valid licence with a new identity takes the first free record, an
invalid one is refused, and
LICENCE_REMOVE of an installed one frees its record; both bring the licence entries up to date, and nothing else changes. -/
def Obligations.LicencesAreKept : Prop :=
  (∀ (s : State) (r : Requester) (data : Bytes) (t k : Nat), let a := s.reach t
    let id := fieldAt data 8 4
    a.Accepts r kLicenceInstall 0 → data.length = 30048 → bit (a.dget kLockState) 2 = false →
    (List.range 32).find? (fun k => (a.licence k).isNone) = some k → (∀ j x, j < 32 → a.licence j = some x → x.id ≠ id) →
    exec (.licenceInstall r data t) s = .next (if licenceValid data then (((a.overClear (0x400000 + 0x8000 * k) 0x8000).modFloor (fun f => { f with
      licences := mset dNone f.licences k (some ⟨id, fieldAt data 0x0C 4, data⟩) })).licenceEntries).answer r kLicenceInstall stOk
      else a.answer r kLicenceInstall stArgument)) ∧
  (∀ (s : State) (r : Requester) (id t k : Nat) (x : Licence), let a := s.reach t
    a.Accepts r kLicenceRemove id → bit (a.dget kLockState) 2 = false → k < 32 → a.licence k = some x → x.id = id →
    (∀ j y, j < 32 → a.licence j = some y → y.id = id → j = k) →
    exec (.licenceRemove r id t) s = .next ((((a.overClear (0x400000 + 0x8000 * k) 0x8000).modFloor (fun f => { f with
      licences := mset dNone f.licences k none })).licenceEntries).answer r kLicenceRemove stOk)) ∧
  (∀ (s : State) (r : Requester) (id t : Nat), let a := s.reach t
    a.Accepts r kLicenceRemove id → bit (a.dget kLockState) 2 = false → (∀ j y, j < 32 → a.licence j = some y → y.id ≠ id) →
    exec (.licenceRemove r id t) s = .next (a.answer r kLicenceRemove stArgument))

/-! ### Power, temperature and coolant (chapters 15 and 16) -/

/-- Power states (R402, R404, R407, R411). A request for the present state completes, a deeper one that nothing refuses starts an entry, and
one that is refused says why; a wake completes; the edge that WAKE_EDGE names on WAKE_GPIO's pin wakes the part. A profile is pursued,
waits for the gap and is then changed; a clock request of Table 15.3 is kept. -/
def Obligations.PowerStatesAreEnteredAndLeft : Prop :=
  (∀ (s : State) (w t : Nat), let a := s.reach t
    let b := a.modPow (fun p => { p with tag := bits w 23 16 })
    a.hostSees 0 = true → a.dget kPowerResult ≠ resPending → a.dead = false → a.rel.mgmtUp = true → a.pow.waking = none →
    bits w 3 0 = powerCode a.pow.state → bits w 3 0 ≤ 3 →
    exec (.powerRequest (.func 0) w none t) s = .next
      (((b.dset kPowerResult resPending).modPow (fun p => { p with target := bits w 3 0 })).dset kPowerResult resDone)) ∧
  (∀ (s : State) (w t : Nat) (fail : Option Nat), let a := s.reach t
    let c := bits w 3 0
    let b := a.modPow (fun p => { p with tag := bits w 23 16 })
    a.dget kPowerResult ≠ resPending → a.dead = false → a.rel.mgmtUp = true → a.pow.waking = none → powerCode a.pow.state < c → c ≤ 3 →
    exec (.powerRequest .smbus w fail t) s = .next (match b.refuser c with
      | some ident => (((b.dset kPowerResult resRefused).dadd kPowerRefusals 1).powerNote b.now c 3 0 ident)
      | none => ((b.dset kPowerResult resPending).modPow (fun p => { p with target := c })).startEntry (powerOf c) fail)) ∧
  (∀ (s : State) (r : Requester) (c t : Nat) (fail : Option Nat), let a := s.reach t
    a.Accepts r kPowerTarget c → c ≤ 3 → a.dget kPowerResult ≠ resPending →
    exec (.powerRequest (.entry r) c fail t) s = .next ((a.powerRequest 0 c fail).answer r kPowerTarget stOk)) ∧
  (∀ (s : State) (p : Nat) (c t : Nat) (fail : Option Nat) (e : Entry), let a := s.reach t
    a.Accepts (.mailbox p) kPowerTarget c → c ≤ 3 → a.dget kPowerResult = resPending → a.pow.entry = some e →
    exec (.powerRequest (.entry (.mailbox p)) c fail t) s = .next (
      if c < powerCode e.target then ((a.modPow (fun p => { p with next := some (0, c) })).wakeEvent 0x1001).answer (.mailbox p) kPowerTarget stOk
      else a.answer (.mailbox p) kPowerTarget stState)) ∧
  (∀ (s : State) (w t : Nat) (fail : Option Nat), let a := s.reach t
    let b := a.modPow (fun p => { p with tag := bits w 23 16 })
    a.dget kPowerResult ≠ resPending → a.dead = false → a.rel.mgmtUp = true → a.pow.waking = none → bits w 3 0 < powerCode a.pow.state →
    bits w 3 0 ≤ 3 →
    exec (.powerRequest .smbus w fail t) s = .next (((b.dset kPowerResult resPending).modPow (fun p => { p with target := bits w 3 0 })).modPow
      (fun p => { p with waking := some (powerOf (bits w 3 0)) }))) ∧
  (∀ (s : State) (w t : Nat) (fail : Option Nat), let a := s.reach t
    let b := a.modPow (fun p => { p with tag := bits w 23 16 })
    a.dget kPowerResult ≠ resPending → a.dead = false → a.rel.mgmtUp = true → 3 < bits w 3 0 →
    exec (.powerRequest .smbus w fail t) s = .next (((b.dset kPowerResult resRefused).dadd kPowerRefusals 1).powerNote b.now (bits w 3 0) 3 0
      ((b.refuser (bits w 3 0)).getD 0))) ∧
  (∀ (s : State) (t : Nat) (x : PowerState) (f : BringupFacts), let a := s.reach t
    a.pow.waking = some x → a.dead = false → a.pow.state ≠ .parked → exec (.wake f t) s = .next (a.wakeDone x)) ∧
  (∀ (s : State) (t : Nat) (x : PowerState) (f : BringupFacts), let a := s.reach t
    a.pow.waking = some x → a.dead = false → a.pow.state = .drowse → a.pow.next = none → x ≠ .active ∨ a.pow.deferred = [] →
    ∃ u, exec (.wake f t) s = .next u ∧ u.pow.state = x ∧ u.pow.waking = none ∧ u.dget kPowerResult = resDone ∧
      u.dget kDeviceState = (if x = .active then devOperational else devLowPower) ∧ u = { a with pow := u.pow, dict := u.dict, parts := u.parts }) ∧
  (∀ (s : State) (t : Nat) (x : PowerState) (f : BringupFacts), let a := s.reach t
    a.pow.waking = some x → a.dead = false → a.pow.state = .parked →
    exec (.wake f t) s = .next (a.deviceReset causeFirmware f)) ∧
  (∀ (s : State) (pin t : Nat) (rising : Bool), let a := s.reach t
    let b := a.modPins (fun p => { p with gpio := setBit p.gpio pin rising, gpioAt := mset dZero p.gpioAt pin a.now })
    pin < 8 → a.dead = false →
    exec (.wakeGpio pin rising t) s = .next
      (if b.dget kWakeGpio = pin ∧ (b.dget kWakeEdge = 0 ↔ rising = true) then b.wakeEvent (0x1200 + pin) else b)) ∧
  (∀ (s : State) (r : Requester) (h v t : Nat), let a := s.reach t
    h < 2 → a.Accepts r (kProfReq h) v → v < 2 →
    exec (.profileRequest r h v t) s = .next (((a.dset (kProfReq h) v).pursueProf h).answer r (kProfReq h) stOk)) ∧
  (∀ (s : State) (h t : Nat) (q : Nat × Nat), let a := s.at t
    let shut := (a.halfParts h).filter (fun n => !(a.part n).seq.isOpen)
    (a.half h).pendProf = some q → h < 2 → a.rel.mgmtUp = true → q.2 + a.dget kProfileWait * 1000000 ≤ a.now →
    exec (.profileWaitTimeout h t) s = .next (a.modHalf h (fun x => { x with
      holding := true, held := x.held ++ shut.filter (fun n => !x.held.contains n) }))) ∧
  (∀ (s : State) (h t : Nat) (q : Nat × Nat), let a := s.at t
    (a.half h).pendProf = some q → h < 2 → a.rel.mgmtUp = true → (∀ n ∈ a.halfParts h, (a.part n).seq.isOpen = false) →
    ∃ u, exec (.profileChange h t) s = .next u ∧ (u.half h).profile = q.1 ∧ (u.half h).pendProf = none ∧ (u.half h).holding = false ∧ (u.half h).supply = profNominal q.1 ∧
      (u.half h).ceiling = profTop q.1 ∧ u.half (1 - h) = a.half (1 - h) ∧ u.dget kProfileChanges = satAdd 32 (a.dget kProfileChanges) 1 ∧
      u = { a with pow := u.pow, parts := u.parts, clk := u.clk, dict := u.dict }) ∧
  (∀ (s : State) (r : Requester) (h v t : Nat), let a := s.reach t
    h < 2 → a.Accepts r (kClockReq h) v → 500 ≤ v → v ≤ 2000 → v % 250 = 0 →
    exec (.fabricClockReq r h v t) s = .next ((a.dset (kClockReq h) v).answer r (kClockReq h) stOk))

/-- Limits and trips (R413 to R415). The loop notes the temperature and the power, sets the ceiling and the clock of the half; POWER_LIMIT,
HALF_CURRENT and JUNCTION_THROTTLE raise their flags, count, and set the clocks; their end releases them. THERMAL_TRIP records the
trip, asserts THERMTRIP_N and drops the volatile state. -/
def Obligations.LimitsAndTripsAct : Prop :=
  (∀ (s : State) (h t : Nat) (tj : LoopTemps) (power : BitVec 32) (hotter : Bool), let a := s.at t
    let b := ((a.noteTj h tj.half).noteTj 2 tj.io).dset kModulePower power.toNat
    let target := if b.flag 4 then b.dget kCoolantLossPower else 95 * b.limitW / 100
    let q := loopHalf (b.half h) tj.half power target (b.dget kJunctionTarget) (b.dget (kClockReq h)) hotter
    h < 2 → a.answers = true →
    exec (.thermalLoop h tj power t hotter) s = .next (
      let c := if q.2 then (b.modHalf h (fun _ => q.1)).dadd kFwClockReductions 1 else b.modHalf h (fun _ => q.1)
      c.modHalf h (fun x => { x with clock := c.clockTarget h }))) ∧
  (∀ (s : State) (held t : Nat), let a := s.at t
    a.dead = false → a.pow.west.limitBase.isSome = true →
    exec (.powerLimit held t) s = .next (((a.modPow (fun p => { p with
      limitHeld := max held p.limitHeld, limitOff := p.limitOff || decide (10000 ≤ held) })).raiseFlag 3).setClocks)) ∧
  (∀ (s : State) (held t : Nat), let a := s.at t
    let b := (((a.modHalf 0 (fun x => { x with limitBase := some (a.volt 0) })).modHalf 1 (fun x => { x with limitBase := some (a.volt 1) })).dadd
      kPowerLimitEvents 1)
    a.dead = false → a.pow.west.limitBase = none →
    exec (.powerLimit held t) s = .next (((b.modPow (fun p => { p with
      limitHeld := max held p.limitHeld, limitOff := p.limitOff || decide (10000 ≤ held) })).raiseFlag 3).setClocks)) ∧
  (∀ (s : State) (h t : Nat), let a := s.at t
    let b := a.modHalf h (fun x => { x with currentAt := some a.now })
    h < 2 → a.dead = false →
    exec (.halfCurrent h t) s = .next ((if (a.half h).currentAt = none then b.dadd kPowerLimitEvents 1 else b).raiseFlag 3)) ∧
  (∀ (s : State) (dom t : Nat) (temp : BitVec 32), let a := s.at t
    let b := a.noteTj dom temp
    dom < 3 → a.dead = false → below 1 temp (a.dget kThrottleTemp) = false →
    exec (.junctionThrottle dom temp t) s = .next (((if b.flag dom then b else b.dadd kThrottleEvents 1).raiseFlag dom).setClocks)) ∧
  (∀ (s : State) (p : BitVec 32) (us t : Nat), let a := s.at t
    a.dead = false → 10000 ≤ us → below 10 p (9 * a.limitW) = true →
    exec (.limitRelease (.powerLimit p us) t) s = .next (((((a.modHalf 0 (fun x => { x with limitBase := none })).modHalf 1 (fun x =>
      { x with limitBase := none })).modPow (fun p => { p with limitHeld := 0, limitOff := false })).limitsOver).setClocks)) ∧
  (∀ (s : State) (h t i : Nat), let a := s.at t
    a.dead = false → h < 2 → (a.half h).currentAt = some i → i + 1000000 ≤ a.now →
    exec (.limitRelease (.halfCurrent h) t) s = .next (a.modHalf h (fun x => { x with currentAt := none })).limitsOver) ∧
  (∀ (s : State) (d us t : Nat) (temp : BitVec 32), let a := s.at t
    a.dead = false → d < 3 → 10000 ≤ us → below 1 temp ((a.dget kThrottleTemp : Int) - 5) = true →
    exec (.limitRelease (.throttle d temp us) t) s = .next ((a.noteTj d temp).dropFlag d).setClocks) ∧
  (∀ (s : State) (sensor t : Nat) (temp : BitVec 32), let a := s.at t
    a.dead = false → below 1 temp 110 = false →
    ∃ u, exec (.thermalTrip sensor temp t) s = .next u ∧ u.pow.tripped = true ∧ u.pins.tripN = true ∧ u.pins.ready = false ∧
      u.dget kTripRecord = leNat (natLe 8 a.tsnNow ++ natLe 2 sensor ++ natLe 2 0 ++ natLe 4 temp.toNat) ∧
      u.dget kLifeThermalTrips = satAdd 32 (a.dget kLifeThermalTrips) 1 ∧ u.pow.entry = none ∧ u.rel.mgmtUp = false ∧ u.parts = [] ∧
      u.queues = [] ∧ u.cores = [] ∧ u.keep = a.keep ∧ u.sec = a.sec ∧ u.floor = a.floor ∧ u.mem = a.mem ∧ u.clk = a.clk)

/-- Coolant (R422, R423). A coolant loss that has become due is noted; the end of one, 10 s after every source has cleared, drops the
flag and pursues the profiles; a report is kept, and one below the limits is a loss; so is a missing report. -/
def Obligations.CoolantIsWatched : Prop :=
  (∀ (s : State) (src : CoolantEvent) (t : Nat), let a := s.reach t
    a.dead = false → (match src with
      | .gpio => ∃ d, a.pinFor true = some d ∧ 10000000 ≤ d
      | .rise rate change => above rate (a.dget kRiseRateLimit) = true ∧ above (fabs change) 10 = false
      | src => eventSource src ∈ a.pow.coolSrc) →
    exec (.coolantLoss src t) s = .next (a.coolLoss (eventSource src))) ∧
  (∀ (s : State) (rate change : BitVec 32) (t : Nat), let a := s.reach t
    above rate (a.dget kRiseRateLimit) = false ∨ above (fabs change) 10 = true →
    exec (.coolantLoss (.rise rate change) t) s = .next a) ∧
  (∀ (s : State) (rate change : BitVec 32) (t : Nat), let a := s.reach t
    let b := a.modPow (fun p => { p with coolSrc := .rise :: p.coolSrc.filter (· != .rise), coolClear := none })
    a.dead = false → above rate (a.dget kRiseRateLimit) = true → above (fabs change) 10 = false → a.flag 4 = true →
    exec (.coolantLoss (.rise rate change) t) s = .next b) ∧
  (∀ (s : State) (rate change : BitVec 32) (t : Nat), let a := s.reach t
    let b := a.modPow (fun p => { p with coolSrc := .rise :: p.coolSrc.filter (· != .rise), coolClear := none })
    let c := (((((b.raiseFlag 4).dadd kCoolantLosses 1).dset kCoolantState 1).pursueProf 0).pursueProf 1)
    a.dead = false → above rate (a.dget kRiseRateLimit) = true → above (fabs change) 10 = false → a.flag 4 = false →
    exec (.coolantLoss (.rise rate change) t) s = .next (if c.dget kCoolantLossAction = 0 then c
      else ((c.each ((List.range 8).filter (fun n => (c.part n).state == PartState.enabled)) (fun s n => s.disableBelay n)).modPow
        (fun p => { p with standby := true })).coolStandby)) ∧
  (∀ (s : State) (t : CoolantCalm), let a := s.reach t.t
    a.flag 4 = true → a.reportLoss = false → (∀ i, a.pow.coolClear = some i → i + 10000000000 ≤ a.now) → a.pinFor true = none →
    (.gpio ∈ a.pow.coolSrc → 8 ≤ a.dget kCoolantOkGpio ∨ ∃ d, a.pinFor false = some d ∧ 10000000000 ≤ d) →
    (.rise ∈ a.pow.coolSrc → 10000 ≤ t.ms ∧ below 2 t.rate (a.dget kRiseRateLimit) = true) → a.dead = false →
    exec (.coolantLossEnd t) s = .next
      (((((a.modPow (fun p => { p with coolSrc := [], coolClear := none })).dset kCoolantState 0).dropFlag 4).pursueProf 0).pursueProf 1)) ∧
  (∀ (s : State) (r : Requester) (flow inlet t : Nat), let a := s.reach t
    a.Accepts r kCoolantReport 0 → flow < 2 ^ 32 → inlet < 2 ^ 32 →
    exec (.coolantReport r flow inlet t) s = .next (
      let b := ((a.dset kLastFlow flow).dset kLastInlet inlet).modPow (fun p => { p with
        reportAt := a.now, coolSrc := p.coolSrc.filter (· != .timeout) })
      (if flow < 1200 ∨ flt (fofNat 45) (BitVec.ofNat 32 inlet) then b.coolLoss .report
       else b.modPow (fun p => { p with
        coolSrc := p.coolSrc.filter (· != .report), coolClear := some (p.coolClear.getD a.now) })).answer r kCoolantReport stOk)) ∧
  (∀ (s : State) (t : Nat), let a := s.reach t
    a.dead = false → a.dget kCoolantReportTimeout ≠ 0 → a.pow.reportAt + a.dget kCoolantReportTimeout * 1000000 ≤ a.now →
    exec (.coolantReportTimeout t) s = .next (a.coolLoss .timeout))

/-! ### Faults and takeovers (chapter 16) -/

/-- Fault records (R426, R428, R444, R446, R447). A fault is reported and acted on: a long-delay store is cleared for its rebuild, a controller
or the management core restarts, the latter with its report withheld, a leaf switch is lost; while the management core
restarts, reports are withheld, and its return logs them; FAULT_ACK of a sequence number given out acknowledges up to it. A
controller's restart is reported, counted, and ends. -/
def Obligations.FaultsAreReportedAndAcknowledged : Prop :=
  (∀ (s : State) (rep : FaultReport) (t : Nat), let a := s.at t
    rep.code ≠ 0x0701 →
    exec (.fault rep t) s = .next ((a.report rep).actOn rep)) ∧
  (∀ (s : State) (rep : FaultReport) (t : Nat),
    let a := (s.at t).report rep
    rep.code = 0x0201 →
    exec (.fault rep t) s = .next (a.modCluster rep.unit (fun q => { q with
      lds := [], rebuild := some (q.lds, a.pitchOf ((a.partOf rep.unit).getD 8)) }))) ∧
  (∀ (s : State) (rep : FaultReport) (t : Nat), let a := s.at t
    (rep.code = 0x0202 → exec (.fault rep t) s = .next ((a.report rep).restartController rep.unit)) ∧
    (rep.code = 0x0203 → exec (.fault rep t) s = .next ((a.report rep).loseLeaf rep.unit)) ∧
    (rep.code = 0x0701 → exec (.fault rep t) s = .next (a.restartMgmt.report rep))) ∧
  (∀ (s : State) (r : Requester) (v t : Nat), let a := s.at t
    a.Accepts r kFaultAck v → a.dget kFaultSeq < v →
    exec (.faultAck r v t) s = .next (a.answer r kFaultAck stRange)) ∧
  (∀ (s : State) (r : Requester) (v t : Nat), let a := s.at t
    a.Accepts r kFaultAck v → v ≤ a.dget kFaultSeq →
    exec (.faultAck r v t) s = .next (((a.modRel (fun x => { x with acked := max x.acked v })).updateFaultN).answer r kFaultAck stOk)) ∧
  (∀ (s : State) (cl detail t : Nat), let a := s.at t
    let b := (a.reportUnit 0x0202 1 4 cl (a.partOf cl) detail)
    (a.cluster cl).restarting = none →
    exec (.controllerRestart cl detail t) s = .next (((b.each (b.clCores cl) (fun s c => s.clearGuard c)).modCluster cl (fun q =>
      { q with restarting := some (b.each (b.clCores cl) (fun s c => s.clearGuard c)).now })).dadd kControllerRestarts 1)) ∧
  (∀ (s : State) (cl t : Nat),
    exec (.controllerRestartDone cl t) s = .next ((s.at t).modCluster cl (fun q => { q with restarting := none }))) ∧
  (∀ (s : State) (detail t : Nat), let a := s.at t
    let b := if a.dget kAttestState = 1 then (a.dset kAttestState 0).modSec (fun x => { x with signing := [] }) else a
    a.rel.mgmtUp = true →
    exec (.mgmtRestart detail t) s = .next (((b.modRel (fun r => { r with mgmtUp := false })).dadd kMgmtRestarts 1).modRel (fun r =>
      { r with withheld := r.withheld ++ [⟨0x0701, 1, 8, 0, none, 0, detail⟩] }))) ∧
  (∀ (s : State) (t : Nat), let a := s.at t
    a.rel.mgmtUp = false → a.dead = false →
    ∃ u, exec (.mgmtRestartDone t) s = .next u ∧ u.rel.mgmtUp = true ∧ u.rel.withheld = [] ∧ u.rel.objects = [] ∧
      u.queues = a.queues ∧ u.syncs = a.syncs ∧ u.mem = { a.mem with patched := u.mem.patched } ∧ u.keep = a.keep ∧ u.sec = a.sec) ∧
  (∀ (s : State) (t : Nat), let a := s.at t
    a.rel.mgmtUp = false → a.dead = false → a.rel.withheld = [] →
    exec (.mgmtRestartDone t) s = .next (((a.modRel (fun r => { r with mgmtUp := true, withheld := [] })).each (List.range 8) (fun s n =>
      s.modPart n flushLedger)).flushObjects))

/-- Takeovers (R431, R438, R440, R442 to R444, R448). A ready takeover brings the spare in, excused, with an empty ring; REPLAY_PITCH
replays the next pitch the journal holds or makes the core ready; a cold one is ready at once, its records lost and counted; a complete
cairn becomes the latest; a failed slice is taken over; a lost store is rebuilt. SWAP_OUT of a live core with a spare is noted, its
test's end says what became of the old slot. -/
def Obligations.SparesTakeOver : Prop :=
  (∀ (s : State) (c t : Nat) (x : CatchUp), let a := s.at t
    (a.core c).catchUp = some x → a.takeoverReady c = true → x.cold = false →
    exec (.takeover c t) s = .next (((((a.spareIn c x.slot).modCore c (fun k => { k with mode := .excused, ring := [] })).modRel (fun r =>
      { r with replays := r.replays ++ [c] })).dadd kTakeovers 1))) ∧
  (∀ (s : State) (c t p : Nat) (x : CatchUp), let a := s.at t
    (a.core c).catchUp = some x → (a.core c).mode = .excused → x.cold = false → a.nextReplay c x.next = some p →
    exec (.replayPitch c t) s = .next (a.replayOne c p x)) ∧
  (∀ (s : State) (c t : Nat) (x : CatchUp), let a := s.at t
    (a.core c).catchUp = some x → (a.core c).mode = .excused → x.cold = false → a.nextReplay c x.next = none →
    exec (.replayPitch c t) s = .next (a.modCore c (fun k => { k with catchUp := some { x with ready := true } }))) ∧
  (∀ (s : State) (c t : Nat) (x : CatchUp), let a := s.at t
    (a.core c).catchUp = some x → a.takeoverReady c = true → x.cold = true →
    exec (.coldTakeover c t) s = .next ((((a.ledgerDrop (a.coreN c) c (a.core c).ring.length).spareIn c x.slot).modCore c (fun k =>
      { k with mode := .excused, ring := [], catchUp := some { x with ready := true, next := pitchEnd } })).dadd kColdTakeovers 1)) ∧
  (∀ (s : State) (c k : Nat),
    (s.core c).cairn.writing = some k → (s.core c).mode = .live →
    exec (.cairnComplete c) s = .next (s.modCore c (fun q => { q with
      cairn := { q.cairn with writing := none, latest := some k, slot := 1 - q.cairn.slot } }))) ∧
  (∀ (s : State) (i t : Nat), let a := s.at t
    a.slicePresent i = true → (a.slice i).failed = true →
    exec (.sliceTakeover i t) s = .next (a.takeSlice i).settle) ∧
  (∀ (s : State) (cl t p : Nat) (old : List LdsRec), let a := s.at t
    let recs := a.rebuilt ((a.partOf cl).getD 8) cl old p
    let b := ((a.modCluster cl (fun q => { q with lds := q.lds ++ recs, rebuild := none })).dadd kStoreRebuilds 1).dadd64
      kStoreLoss (old.length - recs.length)
    (a.cluster cl).rebuild = some (old, p) →
    exec (.storeRebuild cl t) s = .next
      (if old.length - recs.length = 0 then b else b.reportUnit 0x0806 2 5 cl (b.partOf cl) (old.length - recs.length))) ∧
  (∀ (s : State) (r : Requester) (c t : Nat), let a := s.at t
    let b := (a.modRel (fun x => { x with swapWait := x.swapWait.filter (· != c) ++ [c] })).dset kTestResult 1
    a.Accepts r kTestCommand (2 ^ 28 + c) → a.corePresent c = true → (a.spareOf (clusterOf c)).isSome = true →
    a.takeoverBusy (clusterOf c) = false →
    exec (.swapOut r c t) s = .next ((if running (b.coreP c) then b else b.swapOutNow c).answer r kTestCommand stOk)) ∧
  (∀ (s : State) (r : Requester) (c t : Nat), let a := s.at t
    a.Accepts r kTestCommand (2 ^ 28 + c) → a.corePresent c = false →
    exec (.swapOut r c t) s = .next (a.answer r kTestCommand stArgument)) ∧
  (∀ (s : State) (r : Requester) (c t : Nat), let a := s.at t
    a.Accepts r kTestCommand (2 ^ 28 + c) → a.corePresent c = true →
    (a.spareOf (clusterOf c) = none ∨ a.takeoverBusy (clusterOf c) = true) →
    exec (.swapOut r c t) s = .next ((a.dset kTestResult 4).answer r kTestCommand stState)) ∧
  (∀ (s : State) (c slot t : Nat), let a := s.at t
    let b := a.modRel (fun r => { r with testCore := r.testCore.erase (c, slot) })
    a.rel.testCore.find? (fun e => e.1 == c) = some (c, slot) →
    exec (.swapOutTestDone c true t) s = .next ((b.modFloor (fun f =>
      { f with coreSlots := mset dCoreSlot f.coreSlots (clusterOf c * 32 + slot) 1 })).dset kTestResult 2)) ∧
  (∀ (s : State) (c slot t : Nat), let a := s.at t
    let k := clusterOf c * 32 + slot
    let b := a.modRel (fun r => { r with testCore := r.testCore.erase (c, slot) })
    let d := ((b.reportUnit 0x0103 1 1 k (b.partOf (clusterOf c)) 0xFFFFFFFF).modFloor (fun f =>
      { f with coreSlots := mset dCoreSlot f.coreSlots k 5 })).logDefect 1 4 k 0xFFFFFFFF
    a.rel.testCore.find? (fun e => e.1 == c) = some (c, slot) →
    exec (.swapOutTestDone c false t) s = .next (((d.dropLinks (clusterOf c) [slot]).dadd (kCoreFailures (clusterOf c)) 1).dset
      kTestResult 3))

/-! ### Security (chapter 17) -/

/-- The firmware update (R464 to R468). STAGE and chunks fill the staging slot, its check accepts it or says why not; ACTIVATE waits for
the part to be quiet, and the activation restarts it in a trial; CANCEL, CONFIRM and REJECT end the waiting and the trial, the first with slot B copied into A and each with the boot record written; COMMIT_SVN
raises the fused version. -/
def Obligations.FirmwareIsUpdated : Prop :=
  (∀ (s : State) (r : Requester) (t : Nat), let a := (s.reach t).svnTick
    let x := a.dget kFwStageAddr
    let n := a.dget kFwStageLength
    let b := (a.eraseB.dset kFwState 1).dset kFwError 0
    a.Accepts r kFwCommand 1 → a.bootLocked = false → a.stageBusy false = false → a.memOn = true → 30080 ≤ n → x % 32 = 0 →
    (framesOf x n).all (fun f => softOwner (a.frameOwner f) && a.frameOwner f != 0xFF) = true → a.spaceOk spLp x n = true →
    exec (.stage r t) s = .next ((if b.spaceBad spLp x n then b.fwFail fwMemory
      else b.modSec (fun y => { y with copying := some (b.lpRead x n), chunks := none })).answer r kFwCommand stOk)) ∧
  (∀ (s : State) (r : Requester) (data : Bytes) (t : Nat), let a := (s.reach t).svnTick
    let b := ((a.eraseB.dset kFwState 1).dset kFwError 0).modSec (fun y => { y with chunks := some (fieldAt data 4 4, data.drop 8) })
    a.Accepts r kFwChunk 0 → 9 ≤ data.length → data.length ≤ 1024 → a.bootLocked = false → a.stageBusy true = false → fieldAt data 0 4 = 0 →
    data.length - 8 ≤ fieldAt data 4 4 →
    exec (.fwChunk r data t) s = .next ((if data.length - 8 = fieldAt data 4 4 then b.dset kFwState 2 else b).answer r kFwChunk stOk)) ∧
  (∀ (s : State) (r : Requester) (data d0 : Bytes) (t : Nat), let a := (s.reach t).svnTick
    let b := a.modSec (fun y => { y with chunks := some (fieldAt data 4 4, d0 ++ data.drop 8) })
    a.Accepts r kFwChunk 0 → 9 ≤ data.length → data.length ≤ 1024 → a.bootLocked = false → a.stageBusy true = false → fieldAt data 0 4 ≠ 0 →
    a.sec.chunks = some (fieldAt data 4 4, d0) → d0.length = fieldAt data 0 4 → d0.length + (data.length - 8) ≤ fieldAt data 4 4 →
    exec (.fwChunk r data t) s = .next
      ((if d0.length + (data.length - 8) = fieldAt data 4 4 then b.dset kFwState 2 else b).answer r kFwChunk stOk)) ∧
  (∀ (s : State) (r : Requester) (data : Bytes) (t : Nat), let a := (s.reach t).svnTick
    a.Accepts r kFwChunk 0 → 9 ≤ data.length → data.length ≤ 1024 → a.bootLocked = false → a.stageBusy true = false → fieldAt data 0 4 ≠ 0 →
    (∀ d0, a.sec.chunks = some (fieldAt data 4 4, d0) → d0.length ≠ fieldAt data 0 4 ∨ fieldAt data 4 4 < d0.length + (data.length - 8)) →
    exec (.fwChunk r data t) s = .next ((a.fwFail fwOrder).answer r kFwChunk stOk)) ∧
  (∀ (s : State) (t : Nat) (b : Bytes), let a := (s.reach t).svnTick
    let e := a.fwCheck b
    (a.sec.copying = some b ∧ a.dget kFwState = 1) ∨ (a.sec.copying = none ∧ a.dget kFwState = 2 ∧ ∃ n, a.sec.chunks = some (n, b)) →
    exec (.stagingVerify t) s = .next (
      let u := ((a.modSec (fun x => { x with slotB := fwSlotOf b (e == 0), chunks := none, copying := none })).dset
        kFwError e).dset kFwState (if e = 0 then 3 else 4)
      if u.sec.recovery ∧ e = 0 then u.modSec (fun x => { x with resetDue := true }) else u)) ∧
  (∀ (s : State) (r : Requester) (t : Nat), let a := s.reach t
    a.Accepts r kFwCommand 2 → a.dget kFwState = 3 →
    exec (.activate r t) s = .next ((a.dset kFwState 5).answer r kFwCommand stOk)) ∧
  (∀ (s : State) (t : Nat) (f : BringupFacts), let a := (s.reach t).svnTick
    a.dget kFwState = 5 → a.activationWait = 0 → a.answers = true →
    exec (.activation f t) s = .next (((a.dset kFwState 6).writeBoot 1).deviceReset causeFirmware f)) ∧
  (∀ (s : State) (r : Requester) (t : Nat), let a := s.reach t
    a.Accepts r kFwCommand 3 → a.dget kFwState = 5 →
    exec (.cancel r t) s = .next ((a.dset kFwState 3).answer r kFwCommand stOk)) ∧
  (∀ (s : State) (r : Requester) (t : Nat), let a := s.reach t
    let b := (((((a.writeBoot 2).overClear 0x800000 0x400000).modSec (fun x => { x with slotA := (a.writeBoot 2).slotNow 1 })).writeBoot 0).dset
      kTrialResult 1).dset kFwState 0
    a.Accepts r kFwCommand 4 → a.onTrial = true →
    exec (.confirm r t) s = .next ((if b.dget kAutoSvnCommit = 1 then (b.modSec (fun x => { x with svnDue := true })).svnTick else b).answer r
      kFwCommand stOk)) ∧
  (∀ (s : State) (r : Requester) (t : Nat), let a := s.reach t
    a.Accepts r kFwCommand 5 → a.onTrial = true →
    exec (.reject r t) s = .next ((((a.writeBoot 0).modSec (fun x => { x with rejected := true })).dset kTrialResult 3).answer r
      kFwCommand stOk)) ∧
  (∀ (s : State) (r : Requester) (t : Nat), let a := s.reach t
    a.Accepts r kFwCommand 6 → a.bootMode = 0 → a.sec.running = 0 →
    exec (.commitSvn r t) s = .next ((a.modSec (fun x => if a.activationWait % 2 = 0
      then { x with svnDue := false, svnFused := max x.svnFused x.runImg.svn }
      else { x with svnDue := true })).answer r kFwCommand stOk))

/-- Attestation and debug (R461, R463, R464). A quote is taken, then signed and counted; a debug token that its checks pass arms its
scopes, a refused one does not, and each token takes a new challenge; JTAG_MODE is written. -/
def Obligations.QuotesAndTokensAreTaken : Prop :=
  (∀ (s : State) (r : Requester) (t : Nat), let a := (s.reach t).svnTick
    a.Accepts r kAttestCommand 1 → a.dget kAttestState ≠ 1 →
    exec (.quote r t) s = .next (((a.dset kAttestState 1).modSec (fun x => { x with signing := a.quoteBody, quote := [] })).answer r
      kAttestCommand stOk)) ∧
  (∀ (s : State) (t : Nat), let a := s.reach t
    a.dget kAttestState = 1 → a.answers = true →
    exec (.quoteSigned t) s = .next (((a.dset kAttestState 2).dadd kQuotes 1).modSec (fun x => { x with
      quote := a.sec.signing ++ fixLen 17088 (Config.slhSign a.akPublic a.sec.signing), signing := [] }))) ∧
  (∀ (s : State) (r : Requester) (data : Bytes) (t : Nat), let a := s.reach t
    a.Accepts r kDebugToken 0 → data.length = 30048 → bit (a.dget kLockState) 1 = true →
    exec (.debugToken r data t) s = .next (a.newChallenge.answer r kDebugToken stAccess)) ∧
  (∀ (s : State) (r : Requester) (data : Bytes) (t : Nat), let a := s.reach t
    a.Accepts r kDebugToken 0 → data.length = 30048 → bit (a.dget kLockState) 1 = false →
    exec (.debugToken r data t) s = .next (if a.tokenOk data then ((a.dset kDebugState 1).modSec (fun x =>
      { x with armed := fieldAt data 8 4 })).newChallenge.answer r kDebugToken stOk
      else a.newChallenge.answer r kDebugToken stArgument)) ∧
  (∀ (s : State) (r : Requester) (v t : Nat), let a := s.reach t
    a.Accepts r kJtagMode v → v < 2 →
    exec (.jtagMode r v t) s = .next ((a.dset kJtagMode v).answer r kJtagMode stOk))

/-! ### The package (chapter 18) -/

/-- Supplies and the SMBus (R474, R482, R483). A supply out of tolerance is noted and raises its flag, and the last one back drops it;
VIN_C low, back and brown-out; a VDD_AON brown-out holds the part in reset as at power-on. A block read at the part's address answers its
register with a PEC, one of no register is not acknowledged; a block write of the power register with a right PEC is a power request; a
timeout releases the bus; an alert response names the address and releases the alert. -/
def Obligations.SuppliesAndSmbusAct : Prop :=
  (∀ (s : State) (x t : Nat), let a := s.reach t
    x < 10 → a.dead = false →
    exec (.supplyOutOfTolerance x t) s = .next ((a.modPow (fun p => { p with supplies := x :: p.supplies.filter (· != x) })).raiseFlag 5)) ∧
  (∀ (s : State) (x t : Nat), let a := s.reach t
    let b := a.modPow (fun p => { p with supplies := p.supplies.filter (· != x), vinBack := if x = 0 then none else p.vinBack })
    a.dead = false → (x = 0 → a.pow.vinLow = false ∧ ∀ i, a.pow.vinBack = some i → i + 9000000 ≤ a.now) →
    exec (.supplyInTolerance x t) s = .next (if b.pow.supplies = [] then b.dropFlag 5 else b)) ∧
  (∀ (s : State) (t : Nat), let a := s.reach t
    a.dead = false → a.pow.vinLow = true → a.pow.vinBack = none →
    exec (.supplyInTolerance 0 t) s = .next (a.modPow (fun p => { p with vinLow := false, vinBack := some a.now }))) ∧
  (∀ (s : State) (t : Nat), let a := s.reach t
    a.dead = false → exec (.vinCLow t) s = .next (a.modPow (fun p => { p with vinLow := true, vinBack := none }))) ∧
  (∀ (s : State) (t : Nat) (f : BringupFacts), let a := s.reach t
    a.dead = false → exec (.vinCBrownout f t) s = .next (a.deviceReset causePowerOn f)) ∧
  (∀ (s : State) (t : Nat), let a := s.at t
    exec (.vddAonBrownout t) s = .next ((a.holdReset causePowerOn).modFloor (fun x => { x with cause := some causePowerOn }))) ∧
  (∀ (s : State) (code t v : Nat), let a := s.reach t
    let addr := a.smbOwn
    let body := natLe 1 4 ++ natLe 4 v
    a.pins.porst = false → a.smbReg code = some v →
    exec (.smbusBlockRead addr code t) s = .next (a.smbOut (.smbus code (body ++ [crc8 (natLe 1 (2 * addr) ++ natLe 1 code ++ natLe 1 (2 * addr + 1) ++ body)])))) ∧
  (∀ (s : State) (code t : Nat), let a := s.reach t
    a.pins.porst = false → a.smbReg code = none → exec (.smbusBlockRead a.smbOwn code t) s = .next (a.smbOut .smbusNack)) ∧
  (∀ (s : State) (t : Nat) (data : Bytes) (pec : Option Byte), let a := s.reach t
    a.pins.porst = false → data.length = 4 →
    (∀ p, pec = some p → p = crc8 (natLe 1 (2 * a.smbOwn) ++ natLe 1 0x23 ++ natLe 1 4 ++ data)) →
    exec (.smbusBlockWrite a.smbOwn 0x23 4 data pec t) s = .next (a.doPowerReg (leNat data) none)) ∧
  (∀ (s : State) (code count t : Nat) (data : Bytes) (pec : Option Byte), let a := s.reach t
    a.pins.porst = false → code ≠ 0x23 ∨ count ≠ 4 →
    exec (.smbusBlockWrite a.smbOwn code count data pec t) s = .next (a.smbOut .smbusNack)) ∧
  (∀ (s : State) (t : Nat), let a := s.reach t
    a.pins.porst = false → exec (.smbusTimeout t) s = .next (a.smbOut .smbusRelease)) ∧
  (∀ (s : State) (t : Nat), let a := s.reach t
    a.pins.smbAlert = true → a.pins.porst = false →
    exec (.alertResponse t) s = .next ((a.modPins (fun p => { p with smbAlert := false })).smbOut (.smbus 0x0C (natLe 1 (2 * a.smbOwn)))))

/-! ### Rules of the spec -/

/-- R28: every partition's cadence source is UNBOUND after reset, and ENABLE of a partition whose source is UNBOUND is answered with a
state error and changes nothing. -/
def Obligations.UnboundSourcesAreRefused : Prop :=
  (∀ n, n < 8 → State.reset.dget (kCadenceSource n) = 0) ∧
  (∀ (s : State) (r : Requester) (n t : Nat), let a := s.at t
    a.Accepts r (kPartitionCommand n) 3 → a.pow.state = .active → a.pow.entry = none → a.dget (kCadenceSource n) = 0 →
    exec (.enable r n t) s = .next (a.answer r (kPartitionCommand n) stState))

/-- R47: GUARD's default is 40 µs; a write of GUARD outside 20 µs to a quarter of PERIOD, or that leaves SLACK_TARGET outside its range, and a
write of PERIOD that leaves GUARD, STRETCH_LIMIT or SLACK_TARGET outside its range, are answered with a range error and change no entry;
a write of GUARD inside them is taken. -/
def Obligations.GuardStaysInItsRange : Prop :=
  (∀ n, n < 8 → State.reset.dget (kGuard n) = 40) ∧
  (∀ (s : State) (r : Requester) (n v t : Nat), let a := s.serve t
    n < 8 → a.Accepts r (kGuard n) v → v < 2 ^ 32 →
    v < 20 ∨ a.dget (kPeriod n) < 4 * v ∨ a.dget (kPeriod n) < a.dget (kSlackTarget n) + v →
    exec (.registerWrite (.entry r (0x2110 + n) 5) (natLe 4 v) t) s = .next (a.answer r (kGuard n) stRange)) ∧
  (∀ (s : State) (r : Requester) (n v t : Nat), let a := s.serve t
    n < 8 → a.Accepts r (kPeriod n) v → v < 2 ^ 32 → running (a.part n) = false →
    v < 4 * a.dget (kGuard n) ∨ v < a.dget (kStretchLimit n) ∨ v < a.dget (kSlackTarget n) + a.dget (kGuard n) →
    exec (.registerWrite (.entry r (0x2110 + n) 2) (natLe 4 v) t) s = .next (a.answer r (kPeriod n) stRange)) ∧
  (∀ (s : State) (r : Requester) (n v t : Nat), let a := s.serve t
    n < 8 → a.Accepts r (kGuard n) v → 20 ≤ v → v ≤ 2500 → 4 * v ≤ a.dget (kPeriod n) → a.dget (kStretchLimit n) ≤ a.dget (kPeriod n) →
    a.dget (kSlackTarget n) + v ≤ a.dget (kPeriod n) →
    exec (.registerWrite (.entry r (0x2110 + n) 5) (natLe 4 v) t) s = .next
      ((if running (a.part n) then a.dsetHeld (kGuard n) v else (a.dset (kGuard n) v).release (fun k => k == kGuard n)).answer r (kGuard n)
        stOk))

/-- R78: a population whose REFRACT is greater than 0 emits at most one spike per neuron and pitch, and its count is 1. With it the bound of
the count by MAX_COUNT (R79) and the spike field of the new state word. -/
def Obligations.RefractoryNeuronsSpikeOnce : Prop :=
  ∀ (r : Nat) (w : BitVec 64) (x : F32), (0 < popRefract r → (integrate r w x).n = 0 ∨ (integrate r w x).n = 1) ∧
    (popSingle r = false → popRefract r = 0 → (integrate r w x).n ≤ popCount r) ∧ (popSingle r = true → (integrate r w x).n ≤ 1) ∧
    (0 < swRef w → (integrate r w x).n = 0)

/-- R163: CREATE of an ABSENT partition is refused with an argument error when the mask is zero or names a cluster that belongs to a
partition or holds no present core, and takes the clusters otherwise; CLUSTER_MASK is written in state ABSENT and in no other. -/
def Obligations.ClusterMasksAreChecked : Prop :=
  (∀ (s : State) (r : Requester) (n t : Nat) (fails : List Nat), let a := s.at t
    a.Accepts r (kPartitionCommand n) 1 → n < 8 → (a.part n).state = .absent →
    (a.dget (kClusterMask n) = 0 ∨ ∃ c ∈ maskList 128 (a.dget (kClusterMask n)), a.partOf c ≠ none ∨ a.clCores c = []) →
    exec (.create r ⟨n, fails⟩ t) s = .next (a.answer r (kPartitionCommand n) stArgument)) ∧
  (∀ (s : State) (r : Requester) (n t : Nat) (fails : List Nat), let a := s.at t
    a.Accepts r (kPartitionCommand n) 1 → n < 8 → (a.part n).state = .absent → a.dget (kClusterMask n) ≠ 0 →
    (∀ c ∈ maskList 128 (a.dget (kClusterMask n)), a.partOf c = none ∧ a.clCores c ≠ []) →
    ∃ u, exec (.create r ⟨n, fails⟩ t) s = .next u ∧ (u.part n).state = .created ∧ (u.part n).mask = a.dget (kClusterMask n)) ∧
  (∀ (s : State) (r : Requester) (n t : Nat) (data : Bytes), let a := s.serve t
    n < 8 → a.Accepts r (kClusterMask n) (leNat data) → data.length = 16 →
    exec (.registerWrite (.entry r (0x3000 + 0x100 * n) 2) data t) s = .next
      (if (a.part n).state = .absent then (a.dset (kClusterMask n) (leNat data)).answer r (kClusterMask n) stOk
       else a.answer r (kClusterMask n) stState))

/-- R321: a write of QNOTIFY with ENABLE binds only an OPEN RING queue whose READER is the function, and otherwise leaves the binding
disabled with its queue; a queue that DETACH or QUEUE_DESTROY takes out of OPEN has no binding left. -/
def Obligations.NotifyBindingsFollowTheirQueue : Prop :=
  (∀ (s : State) (f k w : Nat), let q := w % 2 ^ 20
    s.hostSees f = true → f ≤ 8 → k < 8 → bit w 31 = true →
    s.qThere q = true ∧ (s.queue q).state = 1 ∧ (s.queue q).kind = 0 ∧ (s.queue q).reader = f →
    exec (.qnotify f k w) s = .next (s.modFunc f (fun g => { g with notify := mset dZero g.notify k (2 ^ 31 + q) }))) ∧
  (∀ (s : State) (f k w : Nat), let q := w % 2 ^ 20
    s.hostSees f = true → f ≤ 8 → k < 8 → bit w 31 = true →
    s.qThere q = false ∨ (s.queue q).state ≠ 1 ∨ (s.queue q).kind ≠ 0 ∨ (s.queue q).reader ≠ f →
    exec (.qnotify f k w) s = .next
      (s.modFunc f (fun g => { g with notify := mset dZero g.notify k (mget dZero (s.func f).notify k % 2 ^ 20) }))) ∧
  (∀ (s : State) (h : OpHead), let a := s.at h.t
    let q := h.object
    a.barred h = false → a.qThere q = true → (a.queue q).state ≠ 0 → (a.queue q).reader = h.issuer →
    ∃ u, exec (.detach h) s = .next u ∧ ∀ f k, f < 9 → k < 8 → mget dZero (u.func f).notify k ≠ 2 ^ 31 + q) ∧
  (∀ (s : State) (h : OpHead), let a := s.at h.t
    let q := h.object
    a.barred h = false → a.qThere q = true → (a.queue q).state ≠ 0 → (a.queue q).owner = h.issuer →
    ∃ u, exec (.queueDestroy h) s = .next u ∧ ∀ f k, f < 9 → k < 8 → mget dZero (u.func f).notify k ≠ 2 ^ 31 + q)

/-- R325: after a host loss the next non-zero HOST_HEARTBEAT arms the heartbeat and ends the loss, and leaves every mailbox and every queue as
it stands; orphaned mailboxes return at FUNCTION_LEVEL_RESET, and an orphaned queue is OPEN again at ATTACH. -/
def Obligations.HostReturnsAfterALoss : Prop :=
  (∀ (s : State) (f w t : Nat), let a := s.reach t
    a.hostSees f = true → f ≤ 8 → w % 2 ^ 32 ≠ 0 →
    ∃ u, exec (.hostHeartbeat f w t) s = .next u ∧ (u.func f).armed = true ∧ (u.func f).lost = false ∧ (∀ k, u.mailbox k = a.mailbox k) ∧
      u.queues = a.queues) ∧
  (∀ (s : State) (f t : Nat) (conf : PcieConf), let a := s.at t
    f < 9 → (a.func f).present = true →
    ∃ u, exec (.functionLevelReset ⟨f, conf⟩ t) s = .next u ∧ ∀ k ∈ funcMailboxes f, (u.mailbox k).orphaned = false) ∧
  (∀ (s : State) (h : OpHead) (reader : Nat), let a := s.at h.t
    let r := a.queue h.object
    a.barred h = false → a.qThere h.object = true → r.state = 2 → r.owner = h.issuer → epListed reader = true → reader ≠ 0x30 →
    a.groupStatus (h.object / 16384) { r with reader := reader } = qOk →
    exec (.attach h reader false) s = .next (((a.modQueue h.object (fun x => { x with state := 1, reader := reader })).finish h
      (h.object / 16384) 3 h.object qOk (a.messages r).length []).settle))

/-- R348: subindex 0 of a defined index reads the highest subindex that the index defines, and takes no write. -/
def Obligations.SubindexZeroIsTheHighest : Prop :=
  (∀ index, entryNsub index ≠ 0 → (entryRow index (entryNsub index)).isSome = true ∧ entryRow index 0 = none ∧
    ∀ sub, (entryRow index sub).isSome = true → 1 ≤ sub ∧ sub ≤ entryNsub index) ∧
  (∀ (s : State) (r : Requester) (index : Nat), entryRow index 0 = none → s.entryBytes r (entryKey index 0) = (natLe 1 (entryNsub index), s)) ∧
  (∀ (s : State) (r : Requester) (index t : Nat) (data : Bytes), let a := s.serve t
    entryNsub index ≠ 0 → a.hears r = true → a.gate 2 (entryKey index 0) = true →
    exec (.registerWrite (.entry r index 0) data t) s = .next (a.answer r (entryKey index 0) stAccess))

/-- R243: a SEND of a well-formed message to an ORPHANED queue finishes ORPHAN with the message's descriptors and is counted, whatever its timeout, and so
does an ADD to an ORPHANED combining queue; neither leaves an operation waiting on it. -/
def Obligations.OrphanedQueuesRefuse : Prop :=
  (∀ (s : State) (h : OpHead) (msg : Bytes), let a := s.at h.t
    let r := a.queue h.object
    a.barred h = false → a.qThere h.object = true → r.state = 2 → r.kind = 0 → maySend r h.issuer = true → msgOk msg h.rcq = true →
    a.descsOk msg = true →
    exec (.send h msg) s = .next (((a.qadd64 (h.object / 16384) kOrphanSends 1).finish h (h.object / 16384) 5 h.object qOrphan 0 (msgDescs msg)).settle)) ∧
  (∀ (s : State) (h : OpHead) (done : Bool) (l : List (Nat × BitVec 32)), let a := s.at h.t
    let r := a.queue h.object
    a.barred h = false → a.qThere h.object = true → r.state = 2 → r.kind ≠ 0 → maySend r h.issuer = true → l ≠ [] → l.length ≤ 256 →
    exec (.addOp h done l) s = .next (((a.qadd64 (h.object / 16384) kOrphanSends 1).finish h (h.object / 16384) 9 h.object qOrphan 0 []).settle))

/-- What the part holds after reset (R5): no partition, no stream and no group enabled, outputs off, ports down, plasticity off, every
lock group open, the cadence sources unbound. -/
def Obligations.ResetLeavesThePartInert : Prop :=
  (∀ n, n < 8 → (State.reset.part n).state = .absent ∧ (State.reset.part n).mask = 0 ∧ (State.reset.part n).stations = 0 ∧
    State.reset.dget (kCadenceSource n) = 0 ∧ State.reset.dget (kStationEnable n) % 4 = 0) ∧
  (∀ k, k < 32 → State.reset.dget (kStreamEnable k) = 0 ∧ (State.reset.stream k).force = false) ∧
  State.reset.dget kGroupEnable = 0 ∧ (∀ g, (State.reset.rgroup g).force = false) ∧ State.reset.dget kOutputEnable = 0 ∧
  (∀ p, p < 2 → State.reset.dget (kPortEnable p) = 0) ∧ State.reset.dget kLockState = 0 ∧ State.reset.queues = [] ∧ State.reset.pending = []

/-! ### Rules over many commands -/

/-- A virtual function acts on its own partition only (R351): every command of another partition's that it writes is turned away, and
nothing but its answer, and the count of it, is left of it. -/
def Obligations.VirtualFunctionsAreIsolated : Prop :=
  ∀ (s : State) (r : Requester) (n m t : Nat) (fails : List Nat) (c : Instr), reqVf r = some n → n < 8 → m < 8 → m ≠ n →
    c ∈ [.create r ⟨m, fails⟩ t, .load r m t, .enable r m t, .disable r m t, .disableNow r m t, .swap r m t, .unload r m t, .destroy r m t,
      .keepCommit r m t, .keepErase r m t] ∨ (∃ v, c ∈ [.stationEnable r m v t, .stationDisableNow r m v t, .counterClear r m v t]) ∨
      (∃ sub data, c = .neuronAccess r m sub data t) →
    ∃ u, exec c s = .next u ∧ u = { s.at t with dict := u.dict, outbox := u.outbox } ∧
      ∀ k, k ≠ kDictRequests → u.dget k = (s.at t).dget k

/-- A locked lk entry takes no write from anyone (R350, R366): the write is answered ACCESS and counted, and nothing else changes. -/
def Obligations.LockedEntriesRefuseWrites : Prop :=
  ∀ (s : State) (r : Requester) (index sub t : Nat) (data : Bytes), let a := s.serve t
    let k := entryKey index sub
    (entryRow (k / 256) (k % 256)).isSome = true → a.hears r = true → a.gate 2 k = true → a.reqWrites r k (leNat data) = true → a.locked k = true →
    exec (.registerWrite (.entry r index sub) data t) s = .next ((a.dadd kLockedWrites 1).answer r k stAccess)

/-- The dictionary's reading requests leave everything alone but what the part keeps for a requester, the counter of requests and the
answers (R352 to R354, R359), and the bank conflicts and the energy that have gone on being counted (assumptions 31 and 11): no other byte of memory, no
partition, no core, no queue and nothing of the security or power state changes. -/
def Obligations.ReadsChangeNothingElse : Prop :=
  ∀ (s : State) (r : Requester) (tag t : Nat) (c : Instr),
    (∃ index sub off maxlen snap, naIndex (entryKey index sub / 256) = none ∧ c = .readEntry r tag index sub off maxlen snap t) ∨
      (∃ index first, naIndex index = none ∧ c = .readIndex r tag index first t) ∨ (∃ index sub, c = .describe r tag index sub t) ∨
      (∃ body, c = .echo r tag body t) ∨ c = .packMask r tag t →
    ∃ u, exec c s = .next u ∧ (let a := s.serve t
      u = { a with clk := u.clk, reqs := u.reqs, dict := u.dict, ports := u.ports, mem := u.mem, outbox := u.outbox } ∧
        u.clk = { a.clk with free := u.clk.free } ∧ u.mem = { a.mem with conflicts := u.mem.conflicts } ∧ ∀ k, k ≠ kDictRequests → k ≠ kEnergy →
          u.dget k = a.dget k)

/-- Faults of units leave the pitches alone (R426, R446, R447): a fault report, a restart of a controller or of the management core
changes no sequencer, no partition's state and no partition's clusters, and goes on. -/
def Obligations.FaultsLeaveThePitchesAlone : Prop :=
  ∀ (s : State) (t : Nat) (c : Instr), (∃ rep, c = .fault rep t) ∨ (∃ cl d, c = .controllerRestart cl d t) ∨ (∃ d, c = .mgmtRestart d t) →
    ∃ u, exec c s = .next u ∧ ∀ n, (u.part n).seq = ((s.at t).part n).seq ∧ (u.part n).state = ((s.at t).part n).state ∧
      (u.part n).mask = ((s.at t).part n).mask

/-- Semaphores and counters are exact (R251): with no operation waiting and none to be told, POST and TAKE of the same number leave the count
as it was, and CADD wraps at 2^64. -/
def Obligations.SyncArithmeticIsExact : Prop :=
  (∀ (s : State) (h : OpHead) (n : Nat), let a := s.at h.t
    a.yThere h.object = true → (a.sync h.object).kind = 2 → 0 < n → (a.sync h.object).value + n < 2 ^ 32 → (∀ e ∈ a.slices, e.2.waits = []) →
    h.rcq = noQueue →
    ∃ u v, exec (.post h n) s = .next u ∧ exec (.take h n) u = .next v ∧ (u.sync h.object).value = (a.sync h.object).value + n ∧
      v.sync h.object = a.sync h.object ∧ (∀ j, j ≠ h.object → v.sync j = a.sync j)) ∧
  (∀ (s : State) (h : OpHead) (d : Nat), let a := s.at h.t
    a.yThere h.object = true → (a.sync h.object).kind = 1 → (∀ e ∈ a.slices, e.2.waits = []) → h.rcq = noQueue →
    ∃ u, exec (.cadd h d) s = .next u ∧ (u.sync h.object).value = ((a.sync h.object).value + d) % 2 ^ 64 ∧
      (∀ j, j ≠ h.object → u.sync j = a.sync j) ∧ u.queues = a.queues ∧ u.mem = a.mem)

/-- R37: the extended position starts at 0, each legal count (R36: of one channel, no sooner than twice QUAD_FILTER after the last transition)
adds +1 or −1 to it and nothing else moves it at a transition, and QUAD_POSITION shows its low 32 bits; a device reset starts it at 0 again.
In FORWARD a partition ticks when the position reaches P0 + j × QUAD_COUNTS, once for each j, and in ABSOLUTE after each QUAD_COUNTS legal
counts; ENABLE sets P0 to the position and j to 1, and is refused while QUAD_COUNTS is 0; a write of QUAD_COUNTS outside 1 to 16,777,215 is a range
error. -/
def Obligations.ExtendedPositionFollowsTheCounts : Prop :=
  State.reset.clk.quadExt = 0 ∧ State.reset.dget kQuadPosition = 0 ∧
  (∀ (s : State) (t : Nat) (x y : Bool), let a := s.at t
    let d := (quadState x y + 4 - quadState a.clk.phaseA a.clk.phaseB) % 4
    a.dget kQuadPosition = ofInt 32 a.clk.quadExt →
    ∃ u, exec (.quadTransition x y t) s = .next u ∧
      u.clk.quadExt = a.clk.quadExt + (if a.quadFast = true then 0 else if d = 1 then 1 else if d = 3 then -1 else 0) ∧
      u.dget kQuadPosition = ofInt 32 u.clk.quadExt) ∧
  (∀ (s : State) (n t : Nat) (x y : Bool), let a := s.at t
    let d := (quadState x y + 4 - quadState a.clk.phaseA a.clk.phaseB) % 4
    let pos := a.clk.quadExt + (if d = 1 then 1 else -1)
    let q := (a.part n).seq
    let c := a.dget (kQuadCounts n)
    let reached := q.quadP0 + (q.quadJ * c : Nat) ≤ pos
    let ticks := if a.dget kQuadMode = 0 then reached else c ≤ q.quadAbs + 1
    n ∈ a.bound 3 → d = 1 ∨ d = 3 → a.quadFast = false → a.dget (kPitchBase n) + q.ticks < 2 ^ 48 →
    ∃ u, exec (.quadTransition x y t) s = .next u ∧ (u.part n).seq.quadP0 = q.quadP0 ∧
      (u.part n).seq.quadJ = (if reached then q.quadJ + 1 else q.quadJ) ∧
      (u.part n).seq.quadAbs = (if a.dget kQuadMode = 0 then q.quadAbs else if ticks then 0 else q.quadAbs + 1) ∧
      (u.part n).seq.ticks = (if ticks then q.ticks + 1 else q.ticks) ∧
      (u.part n).seq.pendTick = (if ticks then some (a.dget (kPitchBase n) + q.ticks, a.now) else q.pendTick)) ∧
  (∀ (s : State) (r : Requester) (n t : Nat), let a := s.at t
    a.Accepts r (kPartitionCommand n) 3 → a.pow.state = .active → a.pow.entry = none → a.dget (kCadenceSource n) = 3 →
    a.dget (kQuadCounts n) = 0 → exec (.enable r n t) s = .next (a.answer r (kPartitionCommand n) stState)) ∧
  (∀ (s : State) (r : Requester) (n t : Nat), let a := s.at t
    a.Accepts r (kPartitionCommand n) 3 → a.pow.state = .active → a.pow.entry = none → n < 8 → (a.part n).state = .ready →
    a.dget (kCadenceSource n) = 3 → a.dget (kQuadCounts n) ≠ 0 →
    ∃ u, exec (.enable r n t) s = .next u ∧ (u.part n).seq.quadP0 = a.clk.quadExt ∧ (u.part n).seq.quadJ = 1 ∧ (u.part n).seq.quadAbs = 0 ∧
      u.clk.quadExt = a.clk.quadExt) ∧
  (∀ (s : State) (r : Requester) (n v t : Nat), let a := s.serve t
    n < 8 → a.Accepts r (kQuadCounts n) v → v < 2 ^ 32 → v = 0 ∨ 16777215 < v →
    exec (.registerWrite (.entry r (0x2110 + n) 4) (natLe 4 v) t) s = .next (a.answer r (kQuadCounts n) stRange)) ∧
  (∀ (s : State) (t : Nat) (f : BringupFacts), let a := s.reach t
    a.dead = false → (if a.sec.recovery then a.sec.resetDue else a.rel.mgmtUp) = true →
    ∃ u, exec (.deviceReset causeFirmware f t) s = .next u ∧ u.clk.quadExt = 0)

/-- R169: UNLOAD of a slot leaves it EMPTY, and of the partition's frames only those that hold a tile of the other slot stay its own; it is
refused with a state error for the ACTIVE slot of an ENABLED partition. DESTROY frees both slots, every frame and every cluster, and
leaves the partition ABSENT with CLUSTER_MASK 0. -/
def Obligations.UnloadAndDestroyFreeMemory : Prop :=
  (∀ (s : State) (r : Requester) (n t : Nat), let a := s.at t
    let i := a.sel r (kImageSlot n)
    a.Accepts r (kPartitionCommand n) 7 → n < 8 → (a.part n).state = .created ∨ (a.part n).state = .ready ∨ (a.part n).state = .enabled →
    ¬ ((a.part n).active = some i ∧ (a.part n).state = .enabled) → i < 2 →
    ∃ u, exec (.unload r n t) s = .next u ∧ slotAt (u.part n) i = {} ∧ slotAt (u.part n) (otherSlot i) = slotAt (a.part n) (otherSlot i) ∧
      (∀ f, u.frameOwner f = n ↔ a.frameOwner f = n ∧ ∃ tl ∈ (slotAt (a.part n) (otherSlot i)).tiles, ∃ g ∈ tl.granules, f = g / 2 ^ 30) ∧
      (∀ f, a.frameOwner f ≠ n → u.frameOwner f = a.frameOwner f) ∧ (∀ m, m ≠ n → u.part m = a.part m)) ∧
  (∀ (s : State) (r : Requester) (n t : Nat), let a := s.at t
    a.Accepts r (kPartitionCommand n) 7 → (a.part n).active = some (a.sel r (kImageSlot n)) → (a.part n).state = .enabled →
    exec (.unload r n t) s = .next (a.answer r (kPartitionCommand n) stState)) ∧
  (∀ (s : State) (r : Requester) (n t : Nat), let a := s.at t
    a.Accepts r (kPartitionCommand n) 8 → n < 8 → (a.part n).state = .created ∨ (a.part n).state = .ready →
    ∃ u, exec (.destroy r n t) s = .next u ∧ (u.part n).state = .absent ∧ (u.part n).slot0 = {} ∧ (u.part n).slot1 = {} ∧
      (∀ c, u.partOf c ≠ some n) ∧ u.dget (kClusterMask n) = 0 ∧ (∀ f, u.frameOwner f ≠ n) ∧ (∀ m, m ≠ n → u.part m = a.part m))

/-! ### Commands complete -/

/-- Every command of time and of a pitch completes with its own effect wherever its rule has it act (R33 to R36, R38, R39, R41, R43, R51,
R56, R57, R62, R342, R450), whatever else the partition holds: the tick waits, the edge and the count are taken, the pitch opens, the mark
is set, the time moves. -/
def Obligations.PitchCommandsComplete : Prop :=
  (∀ (s : State) (n k t : Nat), let a := s.at t
    let late := a.schedNow n - ((a.dget (kOriginTime n) + k * a.periodNs n : Nat) : Int)
    n ∈ a.bound 1 → k < 2 ^ 48 → 0 ≤ late → late < a.periodNs n → (∀ j, lastTickNo (a.part n).seq = some j → j < k) →
    (lastTickNo (a.part n).seq = none → (a.part n).seq.enabledAt + 50000 + late.toNat ≤ a.now) →
    ∃ u, exec (.tsnTick n k t) s = .next u ∧ (u.part n).seq.pendTick = some (k, a.now - late.toNat)) ∧
  (∀ (s : State) (rising : Bool) (t : Nat), let a := s.at t
    (rising = true ↔ a.dget kCinEdge = 0) → (∀ i, a.clk.cinAt = some i → i + a.dget kCinMinInterval * 1000 ≤ a.now) →
    ∃ u, exec (.cadenceInEdge rising t) s = .next u ∧ u.dget kCinCount = wrapAdd 64 (a.dget kCinCount) 1 ∧
      ∀ n ∈ a.bound 2, a.dget (kPitchBase n) + (a.part n).seq.ticks < 2 ^ 48 →
        (u.part n).seq.pendTick = some (a.dget (kPitchBase n) + (a.part n).seq.ticks, a.now)) ∧
  (∀ (s : State) (t : Nat) (x y : Bool),
    ∃ u, exec (.quadTransition x y t) s = .next u ∧ u.clk.phaseA = x ∧ u.clk.phaseB = y) ∧
  (∀ (s : State) (f w t : Nat), let a := s.at t
    a.hostSees f = true →
    ∃ u, exec (.pitchTrigger f w t) s = .next u ∧ ∀ n ∈ a.bound 4, bit w n = true → mayTrigger f n = true →
      a.dget (kPitchBase n) + (a.part n).seq.ticks < 2 ^ 48 →
      (u.part n).seq.pendTick = some (a.dget (kPitchBase n) + (a.part n).seq.ticks, a.now)) ∧
  (∀ (s : State) (n t num inst : Nat), let a := s.at t
    (a.part n).seq.pendTick = some (num, inst) → a.mayOpen n inst = true →
    ∃ u, exec (.pitchOpen n t) s = .next u ∧ (u.part n).seq.isOpen = true ∧ (u.part n).seq.pitch = num ∧ (u.part n).seq.openAt = a.now) ∧
  (∀ (s : State) (n t : Nat), let a := s.at t
    (a.part n).seq.isOpen = true →
    (a.part n).seq.openAt * 100 + a.eff (kWatchFraction n) * (a.periodNs n - a.guardNs n) ≤ a.now * 100 →
    ∃ u, exec (.watchPoint n t) s = .next u ∧ (u.part n).seq.watched = true) ∧
  (∀ (s : State) (n t : Nat), let a := s.at t
    (a.part n).seq.isOpen = true → (a.part n).seq.openAt + a.periodNs n - a.guardNs n < a.now →
    ∃ u, exec (.deadline n t) s = .next u ∧ (u.part n).seq.overrun = true) ∧
  (∀ (s : State) (n d t : Nat), let a := s.at t
    (a.part n).seq.isOpen = true → a.truncDue n = some d → d ≤ a.now →
    ∃ u, exec (.truncateInstant n t) s = .next u ∧ (u.part n).seq.truncAt = some ((a.part n).seq.truncAt.getD a.now)) ∧
  (∀ (s : State) (n c t : Nat), let a := s.at t
    let q := (a.part n).seq
    q.isOpen = true → (q.openAt + 10 * a.periodNs n ≤ a.now ∨ (∃ x, q.truncAt = some x ∧ a.truncLate n x = true) ∨
      ∃ x, q.absorbAt = some x ∧ x + 60000 ≤ a.now) →
    c ∈ a.partCores n → (a.core c).belaySent = false →
    ∃ u, exec (.belayTimeout n c t) s = .next u ∧ c ∈ (u.part n).seq.timedOut) ∧
  (∀ (s : State) (n t : Nat), let a := s.at t
    running (a.part n) = true → 2 ≤ a.dget (kCadenceSource n) → a.dget (kCadenceState n) ≠ 3 →
    (a.part n).seq.lastTick + a.eff (kCadenceTimeout n) * a.periodNs n ≤ a.now →
    ∃ u, exec (.cadenceLoss n t) s = .next u ∧ if a.eff (kCadenceLossAction n) = 0 then (u.part n).hold = true else (u.part n).quiesced = true) ∧
  (∀ (s : State) (m : SyncInfo) (offset : Int) (t : Nat), let a := s.at t
    a.dget kTimePort = m.port → m.port < 4 → a.timeUp m.port = true → m.domain = 0 → m.p2p = true → -7 ≤ m.log → m.log ≤ 0 →
    m.port < 2 ∨ m.sub = 0 →
    ∃ u, exec (.syncMessage m offset t) s = .next u ∧ u.clk.tsn = a.clk.tsn + offset) ∧
  (∀ (s : State) (t : Nat), let a := s.at t
    a.dget kTimeState = 1 → a.clk.syncAt + 3 * 1000000000 / 2 ^ (-a.clk.syncLog).toNat ≤ a.now →
    ∃ u, exec (.syncTimeout t) s = .next u ∧ u.dget kTimeState = 2 ∧ u.clk.holdSince = a.now) ∧
  (∀ (s : State) (t : Nat), let a := s.at t
    a.dget kTimeState = 2 → a.clk.lostSaid = false → a.clk.holdSince + a.dget kHoldoverLimit * 1000000 < a.now →
    ∃ u, exec (.holdoverLimit t) s = .next u ∧ ∀ n, n < 8 → running (a.part n) = true → a.dget (kCadenceSource n) = 1 → u.dget (kTimeLost n) = 1) ∧
  (∀ (s : State) (n cl x t : Nat), let a := s.at t
    (a.part n).seq.isOpen = true → (a.part n).mask.testBit cl = true → (a.cluster cl).belaySent = true →
    x ∈ partClusters (a.part n) → x ≠ cl → x ∉ (a.part n).seq.belays →
    ∃ u, exec (.clusterBelay n cl t) s = .next u ∧ cl ∈ (u.part n).seq.belays) ∧
  (∀ (s : State) (n t : Nat), let a := s.at t
    (a.part n).hostLoss = true → (a.part n).contLeft = some 0 →
    ∃ u, exec (.continueExpiry n t) s = .next u ∧ (u.part n).quiesced = true ∧ (u.part n).contLeft = none)

/-- Every command of a core in its pitch completes with its own effect wherever its rule has it act (R39 to R41, R57, R72, R96, R120, R121,
R131 to R133, R136, R171, R214), whatever its mode and its cache hold: the pitch is open in the core, the belay is sent, the read is asked for
or deferred, the event has left INTAKE, the neurons are swept, the haul has arrived. -/
def Obligations.CoreCommandsComplete : Prop :=
  (∀ (s : State) (c t : Nat), let a := s.at t
    a.corePresent c = true → (a.coreP c).seq.isOpen = true → (a.core c).isOpen = false →
    ∃ u, exec (.openPicot c t) s = .next u ∧ (u.core c).isOpen = true ∧ (u.core c).pitch = (a.coreP c).seq.pitch) ∧
  (∀ (s : State) (c : Nat), s.liveCore c = true → s.drained c = true →
    ∃ u, exec (.drain c) s = .next u ∧ (u.core c).belaySent = true) ∧
  (∀ (s : State) (c : Nat), (s.core c).isOpen = true → (s.core c).belaySent = true → s.noHauls c = true → s.noCopies c = true →
    ∃ u, exec (.belay c) s = .next u ∧ (u.core c).belayRcvd = true) ∧
  (∀ (s : State) (c t : Nat), let a := s.at t
    (a.coreP c).seq.isOpen = false → ∃ u, exec (.closePicot c t) s = .next u ∧ (u.core c).isOpen = false) ∧
  (∀ (s : State) (c t : Nat), let a := s.at t
    (a.coreP c).seq.truncAt.isSome = true → a.liveCore c = true → (a.core c).belaySent = false → (a.core c).absorbed = false →
    a.drained c = false → ∃ u, exec (.truncate c t) s = .next u ∧ (u.core c).truncated = true) ∧
  (∀ (s : State) (c : Nat), (s.coreP c).seq.absorbAt.isSome = true → s.liveCore c = true → (s.core c).belaySent = false → s.drained c = false →
    ∃ u, exec (.absorb c) s = .next u ∧ (u.core c).absorbed = true) ∧
  (∀ (s : State) (c r : Nat), s.mayRead c = true → s.nextPrefetch c = some r →
    ∃ u, exec (.prefetch c) s = .next u ∧ ((∃ q ∈ (u.core c).reads, q.row = r) ∨ r ∈ (u.core c).deferred)) ∧
  (∀ (s : State) (c r : Nat) (w : List Nat), s.mayRead c = true → (s.core c).deferred = r :: w →
    ∃ u, exec (.prefetchRetry c) s = .next u ∧ ((∃ q ∈ (u.core c).reads, q.row = r) ∨ u = s)) ∧
  (∀ (s : State) (c row : Nat) (ok done : Bool), (s.core c).reads.find? (fun q => q.row == row) = some ⟨row, done⟩ →
    ∃ u, exec (.readData c row ok) s = .next u ∧ ∀ q ∈ (u.core c).reads, q.row = row →
      done = false ∧ q.dirDone = true ∧ (s.core c).truncated = false ∧ (s.core c).absorbed = false) ∧
  (∀ (s : State) (c t : Nat) (e : EvRec) (r : List EvRec), let a := s.at t
    a.liveCore c = true → (a.core c).sweepDone = false → (a.core c).truncated = false → (a.core c).absorbed = false →
    (a.core c).intake = e :: r → ∃ u, exec (.eventAccumulate c t) s = .next u ∧ (u.core c).intake = r) ∧
  (∀ (s : State) (c t : Nat), let a := s.at t
    a.sweepDue c = true → ∃ u, exec (.integrateSweep c t) s = .next u ∧ (u.core c).sweepDone = true) ∧
  (∀ (s : State) (c dst t : Nat) (o : OpenHaul), let a := s.at t
    (a.core c).openHauls.find? (fun o => o.dst == dst) = some o → o.opened + 256 ≤ a.now →
    ∃ u, exec (.haulOpenTimeout c dst t) s = .next u ∧ (∀ q ∈ (u.core c).openHauls, q.dst ≠ dst) ∧
      ∃ h, mget dNone u.hauls a.haulNext = some h ∧ h.src = c ∧ h.dst = dst ∧ h.events = o.events ∧ h.remotes = o.remotes) ∧
  (∀ (s : State) (id t : Nat) (h : Haul), let a := s.at t
    mget dNone a.hauls id = some h → h.kind ≠ .remote → id < a.haulNext →
    ∃ u, exec (.eventHaulArrival id t) s = .next u ∧ mget dNone u.hauls id = none) ∧
  (∀ (s : State) (cl : Nat) (e : JEntry) (r : List JEntry), (s.cluster cl).journalBuf = e :: r →
    ∃ u, exec (.journalRecord cl) s = .next u ∧ (u.cluster cl).journalBuf = r) ∧
  (∀ (s : State) (c t : Nat), let a := s.at t
    (a.core c).stalled = true → (a.cluster (clusterOf c)).journalBuf.length < 512 →
    ∃ u, exec (.journalStallEnd c t) s = .next u ∧ (∀ x r, (a.core c).emitQ = x :: r →
      (u.cluster (clusterOf c)).journalBuf[(a.cluster (clusterOf c)).journalBuf.length]? = some (.spike x.n x.withheld (c * 16384 + x.q)))) ∧
  (∀ (s : State) (k t : Nat), let a := s.at t
    (a.stream k).encoding = true → (a.stream k).unlaunched = [] → a.noEncoded k = true → a.noEncodedCopies k = true →
    ∃ u, exec (.encodeDone k t) s = .next u ∧ (u.stream k).encoding = false) ∧
  (∀ (s : State) (cl : Nat), (∀ k ∈ s.clusterStreams ((s.partOf cl).getD 8) cl, k ∈ (s.cluster cl).encDone) →
    ∃ u, exec (.encodeDoneReceive cl) s = .next u ∧ (u.cluster cl).encFwd = true)

/-- The loads, accesses, memory units and packets also complete where the first statements about them do not look (R159, R166, R178, R257,
R269, R272, R274, R295 to R299, R301): a tile that cannot be read or fits no granule fails the load; an access to a neuron that is not there is
answered; a correctable word is counted; a retraining that temperature makes due, or that is not due; a BAR2 access that is turned away; a
negative acknowledgement that names the order; a copy whose re-sends are used up. -/
def Obligations.LoadsMemoryAndPacketsComplete : Prop :=
  (∀ (s : State) (n t : Nat) (l : Loading) (w : List Loading) (tl : Tile), let a := s.at t
    (a.part n).loading = l :: w → (slotAt (a.part n) l.slot).tiles[l.next]? = some tl →
    exec (.tileLanded n true t) s = .next (a.failLoad n l.slot 0x0F l.next)) ∧
  (∀ (s : State) (n t : Nat) (l : Loading) (w : List Loading) (tl : Tile), let a := s.at t
    (a.part n).loading = l :: w → (slotAt (a.part n) l.slot).tiles[l.next]? = some tl →
    (∃ j, j < (tl.len + 31) / 32 ∧ a.wordBad (l.addr + tl.off + 32 * j) = true) ∨ (∃ g ∈ tl.granules, a.addrOut g = true) →
    exec (.tileLanded n false t) s = .next (a.failLoad n l.slot 0x0F l.next)) ∧
  (∀ (s : State) (n t : Nat) (q : NeuronReq) (w : List NeuronReq) (x : Bytes), let a := s.at t
    let b := a.modPart n (fun p => { p with waiting := w })
    (a.part n).waiting = q :: w → (a.part n).seq.isOpen = false → q.data = some x →
    b.naTargetOk n q.target = false ∨ b.naGone q.target = false ∧ b.naWriteOk n q.sub q.target x = false →
    exec (.neuronAccessPerform n t) s = .next ((b.dset (kNaStatus n) 3).writeAnswer q.req q.tag (naKey n q.sub) 0 stArgument)) ∧
  (∀ (s : State) (i off t : Nat), let a := s.at t
    a.subServes i = true → a.poisoned i off = false →
    exec (.lpddr6ReadError i off .correctable t) s = .next (a.corrected i)) ∧
  (∀ (s : State) (i off t : Nat) (e : WordError), let a := s.at t
    a.subServes i = true → a.poisoned i off = true → exec (.lpddr6ReadError i off e t) s = .next a) ∧
  (∀ (s : State) (i temp t : Nat), let a := s.at t
    a.subServes i = true → 4 ≤ max temp (a.slice i).trainTemp - min temp (a.slice i).trainTemp →
    exec (.retrain i temp true t) s = .next ((a.modSlice i (fun x => { x with temp := temp })).modSlice i (fun x =>
      { x with retrains := satAdd 32 x.retrains 1, trainAt := a.now, trainTemp := temp }))) ∧
  (∀ (s : State) (i temp t : Nat) (ok : Bool), let a := s.at t
    a.subServes i = true → max temp (a.slice i).trainTemp - min temp (a.slice i).trainTemp < 4 → a.now < (a.slice i).trainAt + 200000000 →
    exec (.retrain i temp ok t) s = .next (a.modSlice i (fun x => { x with temp := temp }))) ∧
  (∀ (s : State) (f off len t : Nat), let a := s.at t
    let x := winBase (a.func f).winLo (a.func f).winHi + off
    a.hostSees f = true → f ≤ 8 → 0 < len →
    bit (a.func f).winLo 0 = false ∨ a.barBytes f < off + len ∨ a.spaceOk spLp x len = false ∨ a.spaceMay f false spLp x len = false →
    exec (.bar2Access f off len none t) s = .next ((a.out (.readData f false (List.replicate len 0xFF#8))).dadd kBar2Discards 1)) ∧
  (∀ (s : State) (f off t : Nat) (data : Bytes), let a := s.at t
    let x := winBase (a.func f).winLo (a.func f).winHi + off
    let n := data.length
    a.hostSees f = true → f ≤ 8 → 0 < n →
    bit (a.func f).winLo 0 = false ∨ a.barBytes f < off + n ∨ a.spaceOk spLp x n = false ∨ a.spaceMay f false spLp x n = false ∨
      a.activeFrame x n = true →
    exec (.bar2Access f off 0 (some data) t) s = .next (a.dadd kBar2Discards 1)) ∧
  (∀ (s : State) (f off len t : Nat), let a := s.at t
    let x := winBase (a.func f).winLo (a.func f).winHi + off
    a.hostSees f = true → f ≤ 8 → 0 < len → bit (a.func f).winLo 0 = true → off + len ≤ a.barBytes f →
    a.spaceOk spLp x len = true → a.spaceMay f false spLp x len = true → a.spaceBad spLp x len = true →
    exec (.bar2Access f off len none t) s = .next (a.out (.readData f true (List.replicate len 0xFF#8)))) ∧
  (∀ (s : State) (src dst seq expected t : Nat) (v : Unacked), let a := (s.at t).fabricDue
    let l := a.fab.unacked.filter (fun x => x.pkt.src == src && a.leafIndex x.pkt.dst == a.leafIndex dst && decide (seqAbove x.pkt.seq expected < 32768))
    a.fab.unacked.find? (a.isCopy src dst seq) = some v →
    exec (.nack src dst seq 3 expected t) s = .next ((sortBy (fun x => seqAbove x.pkt.seq expected) l).foldl (fun s x => s.again x) a)) ∧
  (∀ (s : State) (src dst seq t : Nat) (v : Unacked), let a := (s.at t).fabricDue
    a.fab.unacked.find? (a.isCopy src dst seq) = some v → (∀ i, v.sentAt = some i → i + a.dget kAckTimeout * 1000 ≤ a.now) → v.busyAt = none →
    v.lost = false → a.dget kResendLimit ≤ v.resends →
    exec (.ackTimeout src dst seq t) s = .next ((a.modFab (fun f => { f with unacked := f.unacked.map (fun x =>
      if a.isCopy v.pkt.src v.pkt.dst v.pkt.seq x then { x with lost := true } else x) })).unreachable v.pkt)) ∧
  (∀ (s : State) (p : Packet) (e : Trip) (t : Nat), let a := (s.at t).fabricDue
    p.seq ∉ (mget dMarks a.fab.recv (a.marksKey p)).held →
    ∃ u, exec (.packetArrival ⟨p, e, .completes⟩ t) s = .next u ∧ (∀ k, mget dMarks u.fab.recv k = mget dMarks a.fab.recv k) ∧
      u = { a with fab := { a.fab with recv := u.fab.recv, edgeHeld := u.fab.edgeHeld } })
end

