-- ==== Sys2Proof/Laws/Map.lean ====
section
/-!
SUPPORT. Laws of the sparse stores: what a read answers after a write, and that every operation keeps the canonical form.
-/

namespace Sys2Proof.Machine

variable {α : Type}

@[simp] theorem mget_nil (d : Nat → α) (k : Nat) : mget d [] k = d k := rfl

theorem mget_cons (d : Nat → α) (e : Nat × α) (m : SMap α) (k : Nat) :
    mget d (e :: m) k = if e.1 = k then e.2 else mget d m k := by
  by_cases h : e.1 = k <;> simp [mget, List.find?_cons, h]

theorem mget_minsert (d : Nat → α) (k : Nat) (v : α) (m : SMap α) (h : ∀ e ∈ m, e.1 ≠ k) (j : Nat) :
    mget d (minsert k v m) j = if j = k then v else mget d m j := by
  induction m with
  | nil => simp only [minsert, mget_cons, mget_nil, eq_comm]
  | cons e r ih =>
    have ihr := ih (fun x hx => h x (List.mem_cons_of_mem _ hx))
    have he := h e List.mem_cons_self
    simp only [minsert]
    split
    · simp only [mget_cons, eq_comm]
    · rw [mget_cons, ihr, mget_cons]
      by_cases h1 : e.1 = j
      · subst h1
        simp [he]
      · simp [h1]

theorem mget_filter_ne (d : Nat → α) (m : SMap α) (k j : Nat) (h : j ≠ k) :
    mget d (m.filter (fun e => e.1 != k)) j = mget d m j := by
  induction m with
  | nil => rfl
  | cons e r ih =>
    rw [List.filter_cons]
    by_cases he : e.1 = k
    · have : ¬ e.1 = j := fun hj => h (hj.symm.trans he)
      simp only [he, bne_self_eq_false, Bool.false_eq_true, ite_false, ih, mget_cons, this]
      simp [Ne.symm h]
    · simp [he, mget_cons, ih]

theorem mget_filter_self (d : Nat → α) (m : SMap α) (k : Nat) : mget d (m.filter (fun e => e.1 != k)) k = d k := by
  induction m with
  | nil => rfl
  | cons e r ih =>
    rw [List.filter_cons]
    by_cases he : e.1 = k
    · simp [he, ih]
    · simp [he, mget_cons, ih]

/-- A read after a write: the value written at its key, what stood there at every other. -/
theorem mget_mset [DecidableEq α] (d : Nat → α) (m : SMap α) (k j : Nat) (v : α) :
    mget d (mset d m k v) j = if j = k then v else mget d m j := by
  simp only [mset]
  split
  · rename_i hv
    by_cases h : j = k
    · subst h
      simp [mget_filter_self, hv]
    · simp [h, mget_filter_ne]
  · rw [mget_minsert]
    · by_cases h : j = k
      · simp [h]
      · simp [h, mget_filter_ne]
    · simp

@[simp] theorem mget_mset_self [DecidableEq α] (d : Nat → α) (m : SMap α) (k : Nat) (v : α) : mget d (mset d m k v) k = v := by
  simp [mget_mset]

theorem mget_mset_ne [DecidableEq α] (d : Nat → α) (m : SMap α) {k j : Nat} (h : j ≠ k) (v : α) :
    mget d (mset d m k v) j = mget d m j := by
  simp [mget_mset, h]

/-- A read after a change of one key. -/
theorem mget_mmod [DecidableEq α] (d : Nat → α) (m : SMap α) (k j : Nat) (f : α → α) :
    mget d (mmod d m k f) j = if j = k then f (mget d m k) else mget d m j := mget_mset d m k j _

@[simp] theorem mget_mmod_self [DecidableEq α] (d : Nat → α) (m : SMap α) (k : Nat) (f : α → α) :
    mget d (mmod d m k f) k = f (mget d m k) := mget_mset_self d m k _

theorem mget_mmod_ne [DecidableEq α] (d : Nat → α) (m : SMap α) {k j : Nat} (h : j ≠ k) (f : α → α) :
    mget d (mmod d m k f) j = mget d m j := mget_mset_ne d m h _

/-! ### The canonical form -/

/-- The canonical form, said of the list's elements: keys pairwise rising, no entry at its default. -/
theorem mwf_iff [DecidableEq α] (d : Nat → α) (m : SMap α) :
    mwf d m = true ↔ m.Pairwise (fun a b => a.1 < b.1) ∧ ∀ e ∈ m, e.2 ≠ d e.1 := by
  induction m with
  | nil => simp [mwf]
  | cons e r ih =>
    cases r with
    | nil => simp [mwf]
    | cons f r =>
      simp only [mwf, Bool.and_eq_true, bne_iff_ne, decide_eq_true_eq, ih, List.pairwise_cons, List.mem_cons, forall_eq_or_imp]
      constructor
      · rintro ⟨⟨h1, h2⟩, ⟨h3, h4⟩, h5, h6⟩
        exact ⟨⟨⟨h2, fun x hx => Nat.lt_trans h2 (h3 x hx)⟩, h3, h4⟩, h1, h5, h6⟩
      · rintro ⟨⟨⟨h2, _⟩, h3, h4⟩, h1, h5, h6⟩
        exact ⟨⟨h1, h2⟩, ⟨h3, h4⟩, h5, h6⟩

theorem mem_minsert (k : Nat) (v : α) (m : SMap α) (e : Nat × α) : e ∈ minsert k v m ↔ e = (k, v) ∨ e ∈ m := by
  induction m with
  | nil => simp [minsert]
  | cons a r ih =>
    simp only [minsert]
    split
    · simp
    · simp only [List.mem_cons, ih]
      tauto

theorem pairwise_minsert (k : Nat) (v : α) (m : SMap α) (h : m.Pairwise (fun a b => a.1 < b.1)) (hk : ∀ e ∈ m, e.1 ≠ k) :
    (minsert k v m).Pairwise (fun a b => a.1 < b.1) := by
  induction m with
  | nil => simp [minsert]
  | cons a r ih =>
    rw [List.pairwise_cons] at h
    simp only [minsert]
    split
    · rename_i hl
      refine List.pairwise_cons.2 ⟨?_, List.pairwise_cons.2 h⟩
      intro e he
      rcases List.mem_cons.1 he with rfl | he
      · exact hl
      · exact Nat.lt_trans hl (h.1 e he)
    · rename_i hl
      refine List.pairwise_cons.2 ⟨?_, ih h.2 (fun e he => hk e (List.mem_cons_of_mem _ he))⟩
      intro e he
      rcases (mem_minsert k v r e).1 he with rfl | he
      · exact lt_of_le_of_ne (Nat.le_of_not_lt hl) (hk a List.mem_cons_self)
      · exact h.1 e he

/-- Taking entries out keeps the canonical form. -/
theorem mwf_filter [DecidableEq α] (d : Nat → α) (m : SMap α) (p : Nat × α → Bool) (h : mwf d m = true) :
    mwf d (m.filter p) = true := by
  rw [mwf_iff] at h ⊢
  exact ⟨h.1.filter p, fun e he => h.2 e (List.mem_filter.1 he).1⟩

/-- A write keeps the canonical form. -/
theorem mwf_mset [DecidableEq α] (d : Nat → α) (m : SMap α) (k : Nat) (v : α) (h : mwf d m = true) : mwf d (mset d m k v) = true := by
  have hf := mwf_filter d m (fun e => e.1 != k) h
  simp only [mset]
  split
  · exact hf
  · rename_i hv
    rw [mwf_iff] at hf ⊢
    refine ⟨pairwise_minsert k v _ hf.1 (fun e he => by simpa using (List.mem_filter.1 he).2), ?_⟩
    intro e he
    rcases (mem_minsert k v _ e).1 he with rfl | he
    · exact hv
    · exact hf.2 e he

theorem mwf_mmod [DecidableEq α] (d : Nat → α) (m : SMap α) (k : Nat) (f : α → α) (h : mwf d m = true) :
    mwf d (mmod d m k f) = true := mwf_mset d m k _ h

theorem mwf_mclear [DecidableEq α] (d : Nat → α) (m : SMap α) (lo n : Nat) (h : mwf d m = true) : mwf d (mclear m lo n) = true :=
  mwf_filter d m _ h

/-- Storing bytes keeps the canonical form. -/
theorem mwf_writeRange (d : Nat → Byte) (m : List Host.Cell) (a : Nat) (bs : Bytes) (h : mwf d m = true) :
    mwf d (writeRange d m a bs) = true := by
  induction bs generalizing m a with
  | nil => exact h
  | cons b r ih => exact ih _ _ (mwf_mset d m a b h)

/-- A byte read after bytes were stored: the byte stored there, or what stood there before. -/
theorem mget_writeRange (d : Nat → Byte) (m : List Host.Cell) (a : Nat) (bs : Bytes) (j : Nat) :
    mget d (writeRange d m a bs) j = if a ≤ j ∧ j < a + bs.length then bs.getD (j - a) 0 else mget d m j := by
  induction bs generalizing m a with
  | nil =>
    have : ¬ (a ≤ j ∧ j < a) := by omega
    simp [writeRange, this]
  | cons b r ih =>
    simp only [writeRange, ih, mget_mset, List.length_cons]
    by_cases h1 : j = a
    · subst h1
      have h2 : ¬ (j + 1 ≤ j ∧ j < j + 1 + r.length) := by omega
      have h3 : j ≤ j ∧ j < j + (r.length + 1) := by omega
      simp [h2]
    · by_cases h2 : a + 1 ≤ j ∧ j < a + 1 + r.length
      · have h3 : a ≤ j ∧ j < a + (r.length + 1) := by omega
        have h4 : j - a = (j - (a + 1)) + 1 := by omega
        rw [if_pos h2, if_pos h3, h4, List.getD_cons_succ]
      · have h3 : ¬ (a ≤ j ∧ j < a + (r.length + 1)) := by omega
        rw [if_neg h2, if_neg h3, if_neg h1]

/-- The bytes just stored are the bytes read. -/
theorem readRange_writeRange (d : Nat → Byte) (m : List Host.Cell) (a : Nat) (bs : Bytes) :
    readRange d (writeRange d m a bs) a bs.length = bs := by
  apply List.ext_getElem
  · simp [readRange]
  · intro i h1 h2
    simp only [readRange, List.getElem_map, List.getElem_range, mget_writeRange]
    have : a ≤ a + i ∧ a + i < a + bs.length := by omega
    simp [this, h2]

end Sys2Proof.Machine
end

