-- ==== Sys2Proof/Laws/State.lean ====
section
/-!
SUPPORT. What each update of the state leaves and changes, field by field, so that no later proof unfolds a record update.
-/

namespace Sys2Proof.Machine

/-! ### The fields that an update leaves -/

@[simp] theorem State.modPart_pending (s : State) (n : Nat) (f : Part → Part) : (s.modPart n f).pending = s.pending := rfl
@[simp] theorem State.modPart_clk (s : State) (n : Nat) (f : Part → Part) : (s.modPart n f).clk = s.clk := rfl
@[simp] theorem State.modPart_dict (s : State) (n : Nat) (f : Part → Part) : (s.modPart n f).dict = s.dict := rfl
@[simp] theorem State.modPart_heldVals (s : State) (n : Nat) (f : Part → Part) : (s.modPart n f).heldVals = s.heldVals := rfl
@[simp] theorem State.modPart_reqs (s : State) (n : Nat) (f : Part → Part) : (s.modPart n f).reqs = s.reqs := rfl
@[simp] theorem State.modPart_cm (s : State) (n : Nat) (f : Part → Part) : (s.modPart n f).cm = s.cm := rfl
@[simp] theorem State.modPart_cores (s : State) (n : Nat) (f : Part → Part) : (s.modPart n f).cores = s.cores := rfl
@[simp] theorem State.modPart_clusters (s : State) (n : Nat) (f : Part → Part) : (s.modPart n f).clusters = s.clusters := rfl
@[simp] theorem State.modPart_hauls (s : State) (n : Nat) (f : Part → Part) : (s.modPart n f).hauls = s.hauls := rfl
@[simp] theorem State.modPart_haulNext (s : State) (n : Nat) (f : Part → Part) : (s.modPart n f).haulNext = s.haulNext := rfl
@[simp] theorem State.modPart_remote (s : State) (n : Nat) (f : Part → Part) : (s.modPart n f).remote = s.remote := rfl
@[simp] theorem State.modPart_streams (s : State) (n : Nat) (f : Part → Part) : (s.modPart n f).streams = s.streams := rfl
@[simp] theorem State.modPart_groups (s : State) (n : Nat) (f : Part → Part) : (s.modPart n f).groups = s.groups := rfl
@[simp] theorem State.modPart_queues (s : State) (n : Nat) (f : Part → Part) : (s.modPart n f).queues = s.queues := rfl
@[simp] theorem State.modPart_syncs (s : State) (n : Nat) (f : Part → Part) : (s.modPart n f).syncs = s.syncs := rfl
@[simp] theorem State.modPart_slices (s : State) (n : Nat) (f : Part → Part) : (s.modPart n f).slices = s.slices := rfl
@[simp] theorem State.modPart_mem (s : State) (n : Nat) (f : Part → Part) : (s.modPart n f).mem = s.mem := rfl
@[simp] theorem State.modPart_keep (s : State) (n : Nat) (f : Part → Part) : (s.modPart n f).keep = s.keep := rfl
@[simp] theorem State.modPart_fab (s : State) (n : Nat) (f : Part → Part) : (s.modPart n f).fab = s.fab := rfl
@[simp] theorem State.modPart_ports (s : State) (n : Nat) (f : Part → Part) : (s.modPart n f).ports = s.ports := rfl
@[simp] theorem State.modPart_pins (s : State) (n : Nat) (f : Part → Part) : (s.modPart n f).pins = s.pins := rfl
@[simp] theorem State.modPart_floor (s : State) (n : Nat) (f : Part → Part) : (s.modPart n f).floor = s.floor := rfl
@[simp] theorem State.modPart_pow (s : State) (n : Nat) (f : Part → Part) : (s.modPart n f).pow = s.pow := rfl
@[simp] theorem State.modPart_rel (s : State) (n : Nat) (f : Part → Part) : (s.modPart n f).rel = s.rel := rfl
@[simp] theorem State.modPart_sec (s : State) (n : Nat) (f : Part → Part) : (s.modPart n f).sec = s.sec := rfl
@[simp] theorem State.modPart_outbox (s : State) (n : Nat) (f : Part → Part) : (s.modPart n f).outbox = s.outbox := rfl
@[simp] theorem State.modCore_pending (s : State) (c : Nat) (f : Core → Core) : (s.modCore c f).pending = s.pending := rfl
@[simp] theorem State.modCore_clk (s : State) (c : Nat) (f : Core → Core) : (s.modCore c f).clk = s.clk := rfl
@[simp] theorem State.modCore_dict (s : State) (c : Nat) (f : Core → Core) : (s.modCore c f).dict = s.dict := rfl
@[simp] theorem State.modCore_heldVals (s : State) (c : Nat) (f : Core → Core) : (s.modCore c f).heldVals = s.heldVals := rfl
@[simp] theorem State.modCore_reqs (s : State) (c : Nat) (f : Core → Core) : (s.modCore c f).reqs = s.reqs := rfl
@[simp] theorem State.modCore_cm (s : State) (c : Nat) (f : Core → Core) : (s.modCore c f).cm = s.cm := rfl
@[simp] theorem State.modCore_clusters (s : State) (c : Nat) (f : Core → Core) : (s.modCore c f).clusters = s.clusters := rfl
@[simp] theorem State.modCore_parts (s : State) (c : Nat) (f : Core → Core) : (s.modCore c f).parts = s.parts := rfl
@[simp] theorem State.modCore_hauls (s : State) (c : Nat) (f : Core → Core) : (s.modCore c f).hauls = s.hauls := rfl
@[simp] theorem State.modCore_haulNext (s : State) (c : Nat) (f : Core → Core) : (s.modCore c f).haulNext = s.haulNext := rfl
@[simp] theorem State.modCore_remote (s : State) (c : Nat) (f : Core → Core) : (s.modCore c f).remote = s.remote := rfl
@[simp] theorem State.modCore_streams (s : State) (c : Nat) (f : Core → Core) : (s.modCore c f).streams = s.streams := rfl
@[simp] theorem State.modCore_groups (s : State) (c : Nat) (f : Core → Core) : (s.modCore c f).groups = s.groups := rfl
@[simp] theorem State.modCore_queues (s : State) (c : Nat) (f : Core → Core) : (s.modCore c f).queues = s.queues := rfl
@[simp] theorem State.modCore_syncs (s : State) (c : Nat) (f : Core → Core) : (s.modCore c f).syncs = s.syncs := rfl
@[simp] theorem State.modCore_slices (s : State) (c : Nat) (f : Core → Core) : (s.modCore c f).slices = s.slices := rfl
@[simp] theorem State.modCore_mem (s : State) (c : Nat) (f : Core → Core) : (s.modCore c f).mem = s.mem := rfl
@[simp] theorem State.modCore_keep (s : State) (c : Nat) (f : Core → Core) : (s.modCore c f).keep = s.keep := rfl
@[simp] theorem State.modCore_fab (s : State) (c : Nat) (f : Core → Core) : (s.modCore c f).fab = s.fab := rfl
@[simp] theorem State.modCore_ports (s : State) (c : Nat) (f : Core → Core) : (s.modCore c f).ports = s.ports := rfl
@[simp] theorem State.modCore_pins (s : State) (c : Nat) (f : Core → Core) : (s.modCore c f).pins = s.pins := rfl
@[simp] theorem State.modCore_floor (s : State) (c : Nat) (f : Core → Core) : (s.modCore c f).floor = s.floor := rfl
@[simp] theorem State.modCore_pow (s : State) (c : Nat) (f : Core → Core) : (s.modCore c f).pow = s.pow := rfl
@[simp] theorem State.modCore_rel (s : State) (c : Nat) (f : Core → Core) : (s.modCore c f).rel = s.rel := rfl
@[simp] theorem State.modCore_sec (s : State) (c : Nat) (f : Core → Core) : (s.modCore c f).sec = s.sec := rfl
@[simp] theorem State.modCore_outbox (s : State) (c : Nat) (f : Core → Core) : (s.modCore c f).outbox = s.outbox := rfl
@[simp] theorem State.modCluster_pending (s : State) (c : Nat) (f : Cluster → Cluster) : (s.modCluster c f).pending = s.pending := rfl
@[simp] theorem State.modCluster_clk (s : State) (c : Nat) (f : Cluster → Cluster) : (s.modCluster c f).clk = s.clk := rfl
@[simp] theorem State.modCluster_dict (s : State) (c : Nat) (f : Cluster → Cluster) : (s.modCluster c f).dict = s.dict := rfl
@[simp] theorem State.modCluster_heldVals (s : State) (c : Nat) (f : Cluster → Cluster) : (s.modCluster c f).heldVals = s.heldVals := rfl
@[simp] theorem State.modCluster_reqs (s : State) (c : Nat) (f : Cluster → Cluster) : (s.modCluster c f).reqs = s.reqs := rfl
@[simp] theorem State.modCluster_cm (s : State) (c : Nat) (f : Cluster → Cluster) : (s.modCluster c f).cm = s.cm := rfl
@[simp] theorem State.modCluster_cores (s : State) (c : Nat) (f : Cluster → Cluster) : (s.modCluster c f).cores = s.cores := rfl
@[simp] theorem State.modCluster_parts (s : State) (c : Nat) (f : Cluster → Cluster) : (s.modCluster c f).parts = s.parts := rfl
@[simp] theorem State.modCluster_hauls (s : State) (c : Nat) (f : Cluster → Cluster) : (s.modCluster c f).hauls = s.hauls := rfl
@[simp] theorem State.modCluster_haulNext (s : State) (c : Nat) (f : Cluster → Cluster) : (s.modCluster c f).haulNext = s.haulNext := rfl
@[simp] theorem State.modCluster_remote (s : State) (c : Nat) (f : Cluster → Cluster) : (s.modCluster c f).remote = s.remote := rfl
@[simp] theorem State.modCluster_streams (s : State) (c : Nat) (f : Cluster → Cluster) : (s.modCluster c f).streams = s.streams := rfl
@[simp] theorem State.modCluster_groups (s : State) (c : Nat) (f : Cluster → Cluster) : (s.modCluster c f).groups = s.groups := rfl
@[simp] theorem State.modCluster_queues (s : State) (c : Nat) (f : Cluster → Cluster) : (s.modCluster c f).queues = s.queues := rfl
@[simp] theorem State.modCluster_syncs (s : State) (c : Nat) (f : Cluster → Cluster) : (s.modCluster c f).syncs = s.syncs := rfl
@[simp] theorem State.modCluster_slices (s : State) (c : Nat) (f : Cluster → Cluster) : (s.modCluster c f).slices = s.slices := rfl
@[simp] theorem State.modCluster_mem (s : State) (c : Nat) (f : Cluster → Cluster) : (s.modCluster c f).mem = s.mem := rfl
@[simp] theorem State.modCluster_keep (s : State) (c : Nat) (f : Cluster → Cluster) : (s.modCluster c f).keep = s.keep := rfl
@[simp] theorem State.modCluster_fab (s : State) (c : Nat) (f : Cluster → Cluster) : (s.modCluster c f).fab = s.fab := rfl
@[simp] theorem State.modCluster_ports (s : State) (c : Nat) (f : Cluster → Cluster) : (s.modCluster c f).ports = s.ports := rfl
@[simp] theorem State.modCluster_pins (s : State) (c : Nat) (f : Cluster → Cluster) : (s.modCluster c f).pins = s.pins := rfl
@[simp] theorem State.modCluster_floor (s : State) (c : Nat) (f : Cluster → Cluster) : (s.modCluster c f).floor = s.floor := rfl
@[simp] theorem State.modCluster_pow (s : State) (c : Nat) (f : Cluster → Cluster) : (s.modCluster c f).pow = s.pow := rfl
@[simp] theorem State.modCluster_rel (s : State) (c : Nat) (f : Cluster → Cluster) : (s.modCluster c f).rel = s.rel := rfl
@[simp] theorem State.modCluster_sec (s : State) (c : Nat) (f : Cluster → Cluster) : (s.modCluster c f).sec = s.sec := rfl
@[simp] theorem State.modCluster_outbox (s : State) (c : Nat) (f : Cluster → Cluster) : (s.modCluster c f).outbox = s.outbox := rfl
@[simp] theorem State.modStream_pending (s : State) (k : Nat) (f : Stream → Stream) : (s.modStream k f).pending = s.pending := rfl
@[simp] theorem State.modStream_clk (s : State) (k : Nat) (f : Stream → Stream) : (s.modStream k f).clk = s.clk := rfl
@[simp] theorem State.modStream_dict (s : State) (k : Nat) (f : Stream → Stream) : (s.modStream k f).dict = s.dict := rfl
@[simp] theorem State.modStream_heldVals (s : State) (k : Nat) (f : Stream → Stream) : (s.modStream k f).heldVals = s.heldVals := rfl
@[simp] theorem State.modStream_reqs (s : State) (k : Nat) (f : Stream → Stream) : (s.modStream k f).reqs = s.reqs := rfl
@[simp] theorem State.modStream_cm (s : State) (k : Nat) (f : Stream → Stream) : (s.modStream k f).cm = s.cm := rfl
@[simp] theorem State.modStream_cores (s : State) (k : Nat) (f : Stream → Stream) : (s.modStream k f).cores = s.cores := rfl
@[simp] theorem State.modStream_clusters (s : State) (k : Nat) (f : Stream → Stream) : (s.modStream k f).clusters = s.clusters := rfl
@[simp] theorem State.modStream_parts (s : State) (k : Nat) (f : Stream → Stream) : (s.modStream k f).parts = s.parts := rfl
@[simp] theorem State.modStream_hauls (s : State) (k : Nat) (f : Stream → Stream) : (s.modStream k f).hauls = s.hauls := rfl
@[simp] theorem State.modStream_haulNext (s : State) (k : Nat) (f : Stream → Stream) : (s.modStream k f).haulNext = s.haulNext := rfl
@[simp] theorem State.modStream_remote (s : State) (k : Nat) (f : Stream → Stream) : (s.modStream k f).remote = s.remote := rfl
@[simp] theorem State.modStream_groups (s : State) (k : Nat) (f : Stream → Stream) : (s.modStream k f).groups = s.groups := rfl
@[simp] theorem State.modStream_queues (s : State) (k : Nat) (f : Stream → Stream) : (s.modStream k f).queues = s.queues := rfl
@[simp] theorem State.modStream_syncs (s : State) (k : Nat) (f : Stream → Stream) : (s.modStream k f).syncs = s.syncs := rfl
@[simp] theorem State.modStream_slices (s : State) (k : Nat) (f : Stream → Stream) : (s.modStream k f).slices = s.slices := rfl
@[simp] theorem State.modStream_mem (s : State) (k : Nat) (f : Stream → Stream) : (s.modStream k f).mem = s.mem := rfl
@[simp] theorem State.modStream_keep (s : State) (k : Nat) (f : Stream → Stream) : (s.modStream k f).keep = s.keep := rfl
@[simp] theorem State.modStream_fab (s : State) (k : Nat) (f : Stream → Stream) : (s.modStream k f).fab = s.fab := rfl
@[simp] theorem State.modStream_ports (s : State) (k : Nat) (f : Stream → Stream) : (s.modStream k f).ports = s.ports := rfl
@[simp] theorem State.modStream_pins (s : State) (k : Nat) (f : Stream → Stream) : (s.modStream k f).pins = s.pins := rfl
@[simp] theorem State.modStream_floor (s : State) (k : Nat) (f : Stream → Stream) : (s.modStream k f).floor = s.floor := rfl
@[simp] theorem State.modStream_pow (s : State) (k : Nat) (f : Stream → Stream) : (s.modStream k f).pow = s.pow := rfl
@[simp] theorem State.modStream_rel (s : State) (k : Nat) (f : Stream → Stream) : (s.modStream k f).rel = s.rel := rfl
@[simp] theorem State.modStream_sec (s : State) (k : Nat) (f : Stream → Stream) : (s.modStream k f).sec = s.sec := rfl
@[simp] theorem State.modStream_outbox (s : State) (k : Nat) (f : Stream → Stream) : (s.modStream k f).outbox = s.outbox := rfl
@[simp] theorem State.modGroup_pending (s : State) (g : Nat) (f : Group → Group) : (s.modGroup g f).pending = s.pending := rfl
@[simp] theorem State.modGroup_clk (s : State) (g : Nat) (f : Group → Group) : (s.modGroup g f).clk = s.clk := rfl
@[simp] theorem State.modGroup_dict (s : State) (g : Nat) (f : Group → Group) : (s.modGroup g f).dict = s.dict := rfl
@[simp] theorem State.modGroup_heldVals (s : State) (g : Nat) (f : Group → Group) : (s.modGroup g f).heldVals = s.heldVals := rfl
@[simp] theorem State.modGroup_reqs (s : State) (g : Nat) (f : Group → Group) : (s.modGroup g f).reqs = s.reqs := rfl
@[simp] theorem State.modGroup_cm (s : State) (g : Nat) (f : Group → Group) : (s.modGroup g f).cm = s.cm := rfl
@[simp] theorem State.modGroup_cores (s : State) (g : Nat) (f : Group → Group) : (s.modGroup g f).cores = s.cores := rfl
@[simp] theorem State.modGroup_clusters (s : State) (g : Nat) (f : Group → Group) : (s.modGroup g f).clusters = s.clusters := rfl
@[simp] theorem State.modGroup_parts (s : State) (g : Nat) (f : Group → Group) : (s.modGroup g f).parts = s.parts := rfl
@[simp] theorem State.modGroup_hauls (s : State) (g : Nat) (f : Group → Group) : (s.modGroup g f).hauls = s.hauls := rfl
@[simp] theorem State.modGroup_haulNext (s : State) (g : Nat) (f : Group → Group) : (s.modGroup g f).haulNext = s.haulNext := rfl
@[simp] theorem State.modGroup_remote (s : State) (g : Nat) (f : Group → Group) : (s.modGroup g f).remote = s.remote := rfl
@[simp] theorem State.modGroup_streams (s : State) (g : Nat) (f : Group → Group) : (s.modGroup g f).streams = s.streams := rfl
@[simp] theorem State.modGroup_queues (s : State) (g : Nat) (f : Group → Group) : (s.modGroup g f).queues = s.queues := rfl
@[simp] theorem State.modGroup_syncs (s : State) (g : Nat) (f : Group → Group) : (s.modGroup g f).syncs = s.syncs := rfl
@[simp] theorem State.modGroup_slices (s : State) (g : Nat) (f : Group → Group) : (s.modGroup g f).slices = s.slices := rfl
@[simp] theorem State.modGroup_mem (s : State) (g : Nat) (f : Group → Group) : (s.modGroup g f).mem = s.mem := rfl
@[simp] theorem State.modGroup_keep (s : State) (g : Nat) (f : Group → Group) : (s.modGroup g f).keep = s.keep := rfl
@[simp] theorem State.modGroup_fab (s : State) (g : Nat) (f : Group → Group) : (s.modGroup g f).fab = s.fab := rfl
@[simp] theorem State.modGroup_ports (s : State) (g : Nat) (f : Group → Group) : (s.modGroup g f).ports = s.ports := rfl
@[simp] theorem State.modGroup_pins (s : State) (g : Nat) (f : Group → Group) : (s.modGroup g f).pins = s.pins := rfl
@[simp] theorem State.modGroup_floor (s : State) (g : Nat) (f : Group → Group) : (s.modGroup g f).floor = s.floor := rfl
@[simp] theorem State.modGroup_pow (s : State) (g : Nat) (f : Group → Group) : (s.modGroup g f).pow = s.pow := rfl
@[simp] theorem State.modGroup_rel (s : State) (g : Nat) (f : Group → Group) : (s.modGroup g f).rel = s.rel := rfl
@[simp] theorem State.modGroup_sec (s : State) (g : Nat) (f : Group → Group) : (s.modGroup g f).sec = s.sec := rfl
@[simp] theorem State.modGroup_outbox (s : State) (g : Nat) (f : Group → Group) : (s.modGroup g f).outbox = s.outbox := rfl
@[simp] theorem State.modSlice_pending (s : State) (i : Nat) (f : Slice → Slice) : (s.modSlice i f).pending = s.pending := rfl
@[simp] theorem State.modSlice_clk (s : State) (i : Nat) (f : Slice → Slice) : (s.modSlice i f).clk = s.clk := rfl
@[simp] theorem State.modSlice_dict (s : State) (i : Nat) (f : Slice → Slice) : (s.modSlice i f).dict = s.dict := rfl
@[simp] theorem State.modSlice_heldVals (s : State) (i : Nat) (f : Slice → Slice) : (s.modSlice i f).heldVals = s.heldVals := rfl
@[simp] theorem State.modSlice_reqs (s : State) (i : Nat) (f : Slice → Slice) : (s.modSlice i f).reqs = s.reqs := rfl
@[simp] theorem State.modSlice_cm (s : State) (i : Nat) (f : Slice → Slice) : (s.modSlice i f).cm = s.cm := rfl
@[simp] theorem State.modSlice_cores (s : State) (i : Nat) (f : Slice → Slice) : (s.modSlice i f).cores = s.cores := rfl
@[simp] theorem State.modSlice_clusters (s : State) (i : Nat) (f : Slice → Slice) : (s.modSlice i f).clusters = s.clusters := rfl
@[simp] theorem State.modSlice_parts (s : State) (i : Nat) (f : Slice → Slice) : (s.modSlice i f).parts = s.parts := rfl
@[simp] theorem State.modSlice_hauls (s : State) (i : Nat) (f : Slice → Slice) : (s.modSlice i f).hauls = s.hauls := rfl
@[simp] theorem State.modSlice_haulNext (s : State) (i : Nat) (f : Slice → Slice) : (s.modSlice i f).haulNext = s.haulNext := rfl
@[simp] theorem State.modSlice_remote (s : State) (i : Nat) (f : Slice → Slice) : (s.modSlice i f).remote = s.remote := rfl
@[simp] theorem State.modSlice_streams (s : State) (i : Nat) (f : Slice → Slice) : (s.modSlice i f).streams = s.streams := rfl
@[simp] theorem State.modSlice_groups (s : State) (i : Nat) (f : Slice → Slice) : (s.modSlice i f).groups = s.groups := rfl
@[simp] theorem State.modSlice_queues (s : State) (i : Nat) (f : Slice → Slice) : (s.modSlice i f).queues = s.queues := rfl
@[simp] theorem State.modSlice_syncs (s : State) (i : Nat) (f : Slice → Slice) : (s.modSlice i f).syncs = s.syncs := rfl
@[simp] theorem State.modSlice_mem (s : State) (i : Nat) (f : Slice → Slice) : (s.modSlice i f).mem = s.mem := rfl
@[simp] theorem State.modSlice_keep (s : State) (i : Nat) (f : Slice → Slice) : (s.modSlice i f).keep = s.keep := rfl
@[simp] theorem State.modSlice_fab (s : State) (i : Nat) (f : Slice → Slice) : (s.modSlice i f).fab = s.fab := rfl
@[simp] theorem State.modSlice_ports (s : State) (i : Nat) (f : Slice → Slice) : (s.modSlice i f).ports = s.ports := rfl
@[simp] theorem State.modSlice_pins (s : State) (i : Nat) (f : Slice → Slice) : (s.modSlice i f).pins = s.pins := rfl
@[simp] theorem State.modSlice_floor (s : State) (i : Nat) (f : Slice → Slice) : (s.modSlice i f).floor = s.floor := rfl
@[simp] theorem State.modSlice_pow (s : State) (i : Nat) (f : Slice → Slice) : (s.modSlice i f).pow = s.pow := rfl
@[simp] theorem State.modSlice_rel (s : State) (i : Nat) (f : Slice → Slice) : (s.modSlice i f).rel = s.rel := rfl
@[simp] theorem State.modSlice_sec (s : State) (i : Nat) (f : Slice → Slice) : (s.modSlice i f).sec = s.sec := rfl
@[simp] theorem State.modSlice_outbox (s : State) (i : Nat) (f : Slice → Slice) : (s.modSlice i f).outbox = s.outbox := rfl
@[simp] theorem State.modFunc_pending (s : State) (i : Nat) (f : Func → Func) : (s.modFunc i f).pending = s.pending := rfl
@[simp] theorem State.modFunc_clk (s : State) (i : Nat) (f : Func → Func) : (s.modFunc i f).clk = s.clk := rfl
@[simp] theorem State.modFunc_dict (s : State) (i : Nat) (f : Func → Func) : (s.modFunc i f).dict = s.dict := rfl
@[simp] theorem State.modFunc_heldVals (s : State) (i : Nat) (f : Func → Func) : (s.modFunc i f).heldVals = s.heldVals := rfl
@[simp] theorem State.modFunc_reqs (s : State) (i : Nat) (f : Func → Func) : (s.modFunc i f).reqs = s.reqs := rfl
@[simp] theorem State.modFunc_cm (s : State) (i : Nat) (f : Func → Func) : (s.modFunc i f).cm = s.cm := rfl
@[simp] theorem State.modFunc_cores (s : State) (i : Nat) (f : Func → Func) : (s.modFunc i f).cores = s.cores := rfl
@[simp] theorem State.modFunc_clusters (s : State) (i : Nat) (f : Func → Func) : (s.modFunc i f).clusters = s.clusters := rfl
@[simp] theorem State.modFunc_parts (s : State) (i : Nat) (f : Func → Func) : (s.modFunc i f).parts = s.parts := rfl
@[simp] theorem State.modFunc_hauls (s : State) (i : Nat) (f : Func → Func) : (s.modFunc i f).hauls = s.hauls := rfl
@[simp] theorem State.modFunc_haulNext (s : State) (i : Nat) (f : Func → Func) : (s.modFunc i f).haulNext = s.haulNext := rfl
@[simp] theorem State.modFunc_remote (s : State) (i : Nat) (f : Func → Func) : (s.modFunc i f).remote = s.remote := rfl
@[simp] theorem State.modFunc_streams (s : State) (i : Nat) (f : Func → Func) : (s.modFunc i f).streams = s.streams := rfl
@[simp] theorem State.modFunc_groups (s : State) (i : Nat) (f : Func → Func) : (s.modFunc i f).groups = s.groups := rfl
@[simp] theorem State.modFunc_queues (s : State) (i : Nat) (f : Func → Func) : (s.modFunc i f).queues = s.queues := rfl
@[simp] theorem State.modFunc_syncs (s : State) (i : Nat) (f : Func → Func) : (s.modFunc i f).syncs = s.syncs := rfl
@[simp] theorem State.modFunc_slices (s : State) (i : Nat) (f : Func → Func) : (s.modFunc i f).slices = s.slices := rfl
@[simp] theorem State.modFunc_mem (s : State) (i : Nat) (f : Func → Func) : (s.modFunc i f).mem = s.mem := rfl
@[simp] theorem State.modFunc_keep (s : State) (i : Nat) (f : Func → Func) : (s.modFunc i f).keep = s.keep := rfl
@[simp] theorem State.modFunc_fab (s : State) (i : Nat) (f : Func → Func) : (s.modFunc i f).fab = s.fab := rfl
@[simp] theorem State.modFunc_pins (s : State) (i : Nat) (f : Func → Func) : (s.modFunc i f).pins = s.pins := rfl
@[simp] theorem State.modFunc_floor (s : State) (i : Nat) (f : Func → Func) : (s.modFunc i f).floor = s.floor := rfl
@[simp] theorem State.modFunc_pow (s : State) (i : Nat) (f : Func → Func) : (s.modFunc i f).pow = s.pow := rfl
@[simp] theorem State.modFunc_rel (s : State) (i : Nat) (f : Func → Func) : (s.modFunc i f).rel = s.rel := rfl
@[simp] theorem State.modFunc_sec (s : State) (i : Nat) (f : Func → Func) : (s.modFunc i f).sec = s.sec := rfl
@[simp] theorem State.modFunc_outbox (s : State) (i : Nat) (f : Func → Func) : (s.modFunc i f).outbox = s.outbox := rfl
@[simp] theorem State.modMailbox_pending (s : State) (k : Nat) (f : Mailbox → Mailbox) : (s.modMailbox k f).pending = s.pending := rfl
@[simp] theorem State.modMailbox_clk (s : State) (k : Nat) (f : Mailbox → Mailbox) : (s.modMailbox k f).clk = s.clk := rfl
@[simp] theorem State.modMailbox_dict (s : State) (k : Nat) (f : Mailbox → Mailbox) : (s.modMailbox k f).dict = s.dict := rfl
@[simp] theorem State.modMailbox_heldVals (s : State) (k : Nat) (f : Mailbox → Mailbox) : (s.modMailbox k f).heldVals = s.heldVals := rfl
@[simp] theorem State.modMailbox_reqs (s : State) (k : Nat) (f : Mailbox → Mailbox) : (s.modMailbox k f).reqs = s.reqs := rfl
@[simp] theorem State.modMailbox_cm (s : State) (k : Nat) (f : Mailbox → Mailbox) : (s.modMailbox k f).cm = s.cm := rfl
@[simp] theorem State.modMailbox_cores (s : State) (k : Nat) (f : Mailbox → Mailbox) : (s.modMailbox k f).cores = s.cores := rfl
@[simp] theorem State.modMailbox_clusters (s : State) (k : Nat) (f : Mailbox → Mailbox) : (s.modMailbox k f).clusters = s.clusters := rfl
@[simp] theorem State.modMailbox_parts (s : State) (k : Nat) (f : Mailbox → Mailbox) : (s.modMailbox k f).parts = s.parts := rfl
@[simp] theorem State.modMailbox_hauls (s : State) (k : Nat) (f : Mailbox → Mailbox) : (s.modMailbox k f).hauls = s.hauls := rfl
@[simp] theorem State.modMailbox_haulNext (s : State) (k : Nat) (f : Mailbox → Mailbox) : (s.modMailbox k f).haulNext = s.haulNext := rfl
@[simp] theorem State.modMailbox_remote (s : State) (k : Nat) (f : Mailbox → Mailbox) : (s.modMailbox k f).remote = s.remote := rfl
@[simp] theorem State.modMailbox_streams (s : State) (k : Nat) (f : Mailbox → Mailbox) : (s.modMailbox k f).streams = s.streams := rfl
@[simp] theorem State.modMailbox_groups (s : State) (k : Nat) (f : Mailbox → Mailbox) : (s.modMailbox k f).groups = s.groups := rfl
@[simp] theorem State.modMailbox_queues (s : State) (k : Nat) (f : Mailbox → Mailbox) : (s.modMailbox k f).queues = s.queues := rfl
@[simp] theorem State.modMailbox_syncs (s : State) (k : Nat) (f : Mailbox → Mailbox) : (s.modMailbox k f).syncs = s.syncs := rfl
@[simp] theorem State.modMailbox_slices (s : State) (k : Nat) (f : Mailbox → Mailbox) : (s.modMailbox k f).slices = s.slices := rfl
@[simp] theorem State.modMailbox_mem (s : State) (k : Nat) (f : Mailbox → Mailbox) : (s.modMailbox k f).mem = s.mem := rfl
@[simp] theorem State.modMailbox_keep (s : State) (k : Nat) (f : Mailbox → Mailbox) : (s.modMailbox k f).keep = s.keep := rfl
@[simp] theorem State.modMailbox_fab (s : State) (k : Nat) (f : Mailbox → Mailbox) : (s.modMailbox k f).fab = s.fab := rfl
@[simp] theorem State.modMailbox_pins (s : State) (k : Nat) (f : Mailbox → Mailbox) : (s.modMailbox k f).pins = s.pins := rfl
@[simp] theorem State.modMailbox_floor (s : State) (k : Nat) (f : Mailbox → Mailbox) : (s.modMailbox k f).floor = s.floor := rfl
@[simp] theorem State.modMailbox_pow (s : State) (k : Nat) (f : Mailbox → Mailbox) : (s.modMailbox k f).pow = s.pow := rfl
@[simp] theorem State.modMailbox_rel (s : State) (k : Nat) (f : Mailbox → Mailbox) : (s.modMailbox k f).rel = s.rel := rfl
@[simp] theorem State.modMailbox_sec (s : State) (k : Nat) (f : Mailbox → Mailbox) : (s.modMailbox k f).sec = s.sec := rfl
@[simp] theorem State.modMailbox_outbox (s : State) (k : Nat) (f : Mailbox → Mailbox) : (s.modMailbox k f).outbox = s.outbox := rfl
@[simp] theorem State.modDataPort_pending (s : State) (p : Nat) (f : DataPort → DataPort) : (s.modDataPort p f).pending = s.pending := rfl
@[simp] theorem State.modDataPort_clk (s : State) (p : Nat) (f : DataPort → DataPort) : (s.modDataPort p f).clk = s.clk := rfl
@[simp] theorem State.modDataPort_dict (s : State) (p : Nat) (f : DataPort → DataPort) : (s.modDataPort p f).dict = s.dict := rfl
@[simp] theorem State.modDataPort_heldVals (s : State) (p : Nat) (f : DataPort → DataPort) : (s.modDataPort p f).heldVals = s.heldVals := rfl
@[simp] theorem State.modDataPort_reqs (s : State) (p : Nat) (f : DataPort → DataPort) : (s.modDataPort p f).reqs = s.reqs := rfl
@[simp] theorem State.modDataPort_cm (s : State) (p : Nat) (f : DataPort → DataPort) : (s.modDataPort p f).cm = s.cm := rfl
@[simp] theorem State.modDataPort_cores (s : State) (p : Nat) (f : DataPort → DataPort) : (s.modDataPort p f).cores = s.cores := rfl
@[simp] theorem State.modDataPort_clusters (s : State) (p : Nat) (f : DataPort → DataPort) : (s.modDataPort p f).clusters = s.clusters := rfl
@[simp] theorem State.modDataPort_parts (s : State) (p : Nat) (f : DataPort → DataPort) : (s.modDataPort p f).parts = s.parts := rfl
@[simp] theorem State.modDataPort_hauls (s : State) (p : Nat) (f : DataPort → DataPort) : (s.modDataPort p f).hauls = s.hauls := rfl
@[simp] theorem State.modDataPort_haulNext (s : State) (p : Nat) (f : DataPort → DataPort) : (s.modDataPort p f).haulNext = s.haulNext := rfl
@[simp] theorem State.modDataPort_remote (s : State) (p : Nat) (f : DataPort → DataPort) : (s.modDataPort p f).remote = s.remote := rfl
@[simp] theorem State.modDataPort_streams (s : State) (p : Nat) (f : DataPort → DataPort) : (s.modDataPort p f).streams = s.streams := rfl
@[simp] theorem State.modDataPort_groups (s : State) (p : Nat) (f : DataPort → DataPort) : (s.modDataPort p f).groups = s.groups := rfl
@[simp] theorem State.modDataPort_queues (s : State) (p : Nat) (f : DataPort → DataPort) : (s.modDataPort p f).queues = s.queues := rfl
@[simp] theorem State.modDataPort_syncs (s : State) (p : Nat) (f : DataPort → DataPort) : (s.modDataPort p f).syncs = s.syncs := rfl
@[simp] theorem State.modDataPort_slices (s : State) (p : Nat) (f : DataPort → DataPort) : (s.modDataPort p f).slices = s.slices := rfl
@[simp] theorem State.modDataPort_mem (s : State) (p : Nat) (f : DataPort → DataPort) : (s.modDataPort p f).mem = s.mem := rfl
@[simp] theorem State.modDataPort_keep (s : State) (p : Nat) (f : DataPort → DataPort) : (s.modDataPort p f).keep = s.keep := rfl
@[simp] theorem State.modDataPort_fab (s : State) (p : Nat) (f : DataPort → DataPort) : (s.modDataPort p f).fab = s.fab := rfl
@[simp] theorem State.modDataPort_pins (s : State) (p : Nat) (f : DataPort → DataPort) : (s.modDataPort p f).pins = s.pins := rfl
@[simp] theorem State.modDataPort_floor (s : State) (p : Nat) (f : DataPort → DataPort) : (s.modDataPort p f).floor = s.floor := rfl
@[simp] theorem State.modDataPort_pow (s : State) (p : Nat) (f : DataPort → DataPort) : (s.modDataPort p f).pow = s.pow := rfl
@[simp] theorem State.modDataPort_rel (s : State) (p : Nat) (f : DataPort → DataPort) : (s.modDataPort p f).rel = s.rel := rfl
@[simp] theorem State.modDataPort_sec (s : State) (p : Nat) (f : DataPort → DataPort) : (s.modDataPort p f).sec = s.sec := rfl
@[simp] theorem State.modDataPort_outbox (s : State) (p : Nat) (f : DataPort → DataPort) : (s.modDataPort p f).outbox = s.outbox := rfl
@[simp] theorem State.modObj_pending (s : State) (j : Nat) (f : Obj → Obj) : (s.modObj j f).pending = s.pending := rfl
@[simp] theorem State.modObj_clk (s : State) (j : Nat) (f : Obj → Obj) : (s.modObj j f).clk = s.clk := rfl
@[simp] theorem State.modObj_dict (s : State) (j : Nat) (f : Obj → Obj) : (s.modObj j f).dict = s.dict := rfl
@[simp] theorem State.modObj_heldVals (s : State) (j : Nat) (f : Obj → Obj) : (s.modObj j f).heldVals = s.heldVals := rfl
@[simp] theorem State.modObj_reqs (s : State) (j : Nat) (f : Obj → Obj) : (s.modObj j f).reqs = s.reqs := rfl
@[simp] theorem State.modObj_cm (s : State) (j : Nat) (f : Obj → Obj) : (s.modObj j f).cm = s.cm := rfl
@[simp] theorem State.modObj_cores (s : State) (j : Nat) (f : Obj → Obj) : (s.modObj j f).cores = s.cores := rfl
@[simp] theorem State.modObj_clusters (s : State) (j : Nat) (f : Obj → Obj) : (s.modObj j f).clusters = s.clusters := rfl
@[simp] theorem State.modObj_parts (s : State) (j : Nat) (f : Obj → Obj) : (s.modObj j f).parts = s.parts := rfl
@[simp] theorem State.modObj_hauls (s : State) (j : Nat) (f : Obj → Obj) : (s.modObj j f).hauls = s.hauls := rfl
@[simp] theorem State.modObj_haulNext (s : State) (j : Nat) (f : Obj → Obj) : (s.modObj j f).haulNext = s.haulNext := rfl
@[simp] theorem State.modObj_remote (s : State) (j : Nat) (f : Obj → Obj) : (s.modObj j f).remote = s.remote := rfl
@[simp] theorem State.modObj_streams (s : State) (j : Nat) (f : Obj → Obj) : (s.modObj j f).streams = s.streams := rfl
@[simp] theorem State.modObj_groups (s : State) (j : Nat) (f : Obj → Obj) : (s.modObj j f).groups = s.groups := rfl
@[simp] theorem State.modObj_queues (s : State) (j : Nat) (f : Obj → Obj) : (s.modObj j f).queues = s.queues := rfl
@[simp] theorem State.modObj_syncs (s : State) (j : Nat) (f : Obj → Obj) : (s.modObj j f).syncs = s.syncs := rfl
@[simp] theorem State.modObj_slices (s : State) (j : Nat) (f : Obj → Obj) : (s.modObj j f).slices = s.slices := rfl
@[simp] theorem State.modObj_mem (s : State) (j : Nat) (f : Obj → Obj) : (s.modObj j f).mem = s.mem := rfl
@[simp] theorem State.modObj_keep (s : State) (j : Nat) (f : Obj → Obj) : (s.modObj j f).keep = s.keep := rfl
@[simp] theorem State.modObj_fab (s : State) (j : Nat) (f : Obj → Obj) : (s.modObj j f).fab = s.fab := rfl
@[simp] theorem State.modObj_pins (s : State) (j : Nat) (f : Obj → Obj) : (s.modObj j f).pins = s.pins := rfl
@[simp] theorem State.modObj_floor (s : State) (j : Nat) (f : Obj → Obj) : (s.modObj j f).floor = s.floor := rfl
@[simp] theorem State.modObj_pow (s : State) (j : Nat) (f : Obj → Obj) : (s.modObj j f).pow = s.pow := rfl
@[simp] theorem State.modObj_rel (s : State) (j : Nat) (f : Obj → Obj) : (s.modObj j f).rel = s.rel := rfl
@[simp] theorem State.modObj_sec (s : State) (j : Nat) (f : Obj → Obj) : (s.modObj j f).sec = s.sec := rfl
@[simp] theorem State.modObj_outbox (s : State) (j : Nat) (f : Obj → Obj) : (s.modObj j f).outbox = s.outbox := rfl
@[simp] theorem State.modRem_pending (s : State) (e n : Nat) (f : RemoteBuf → RemoteBuf) : (s.modRem e n f).pending = s.pending := rfl
@[simp] theorem State.modRem_clk (s : State) (e n : Nat) (f : RemoteBuf → RemoteBuf) : (s.modRem e n f).clk = s.clk := rfl
@[simp] theorem State.modRem_dict (s : State) (e n : Nat) (f : RemoteBuf → RemoteBuf) : (s.modRem e n f).dict = s.dict := rfl
@[simp] theorem State.modRem_heldVals (s : State) (e n : Nat) (f : RemoteBuf → RemoteBuf) : (s.modRem e n f).heldVals = s.heldVals := rfl
@[simp] theorem State.modRem_reqs (s : State) (e n : Nat) (f : RemoteBuf → RemoteBuf) : (s.modRem e n f).reqs = s.reqs := rfl
@[simp] theorem State.modRem_cm (s : State) (e n : Nat) (f : RemoteBuf → RemoteBuf) : (s.modRem e n f).cm = s.cm := rfl
@[simp] theorem State.modRem_cores (s : State) (e n : Nat) (f : RemoteBuf → RemoteBuf) : (s.modRem e n f).cores = s.cores := rfl
@[simp] theorem State.modRem_clusters (s : State) (e n : Nat) (f : RemoteBuf → RemoteBuf) : (s.modRem e n f).clusters = s.clusters := rfl
@[simp] theorem State.modRem_parts (s : State) (e n : Nat) (f : RemoteBuf → RemoteBuf) : (s.modRem e n f).parts = s.parts := rfl
@[simp] theorem State.modRem_hauls (s : State) (e n : Nat) (f : RemoteBuf → RemoteBuf) : (s.modRem e n f).hauls = s.hauls := rfl
@[simp] theorem State.modRem_haulNext (s : State) (e n : Nat) (f : RemoteBuf → RemoteBuf) : (s.modRem e n f).haulNext = s.haulNext := rfl
@[simp] theorem State.modRem_streams (s : State) (e n : Nat) (f : RemoteBuf → RemoteBuf) : (s.modRem e n f).streams = s.streams := rfl
@[simp] theorem State.modRem_groups (s : State) (e n : Nat) (f : RemoteBuf → RemoteBuf) : (s.modRem e n f).groups = s.groups := rfl
@[simp] theorem State.modRem_queues (s : State) (e n : Nat) (f : RemoteBuf → RemoteBuf) : (s.modRem e n f).queues = s.queues := rfl
@[simp] theorem State.modRem_syncs (s : State) (e n : Nat) (f : RemoteBuf → RemoteBuf) : (s.modRem e n f).syncs = s.syncs := rfl
@[simp] theorem State.modRem_slices (s : State) (e n : Nat) (f : RemoteBuf → RemoteBuf) : (s.modRem e n f).slices = s.slices := rfl
@[simp] theorem State.modRem_mem (s : State) (e n : Nat) (f : RemoteBuf → RemoteBuf) : (s.modRem e n f).mem = s.mem := rfl
@[simp] theorem State.modRem_keep (s : State) (e n : Nat) (f : RemoteBuf → RemoteBuf) : (s.modRem e n f).keep = s.keep := rfl
@[simp] theorem State.modRem_fab (s : State) (e n : Nat) (f : RemoteBuf → RemoteBuf) : (s.modRem e n f).fab = s.fab := rfl
@[simp] theorem State.modRem_ports (s : State) (e n : Nat) (f : RemoteBuf → RemoteBuf) : (s.modRem e n f).ports = s.ports := rfl
@[simp] theorem State.modRem_pins (s : State) (e n : Nat) (f : RemoteBuf → RemoteBuf) : (s.modRem e n f).pins = s.pins := rfl
@[simp] theorem State.modRem_floor (s : State) (e n : Nat) (f : RemoteBuf → RemoteBuf) : (s.modRem e n f).floor = s.floor := rfl
@[simp] theorem State.modRem_pow (s : State) (e n : Nat) (f : RemoteBuf → RemoteBuf) : (s.modRem e n f).pow = s.pow := rfl
@[simp] theorem State.modRem_rel (s : State) (e n : Nat) (f : RemoteBuf → RemoteBuf) : (s.modRem e n f).rel = s.rel := rfl
@[simp] theorem State.modRem_sec (s : State) (e n : Nat) (f : RemoteBuf → RemoteBuf) : (s.modRem e n f).sec = s.sec := rfl
@[simp] theorem State.modRem_outbox (s : State) (e n : Nat) (f : RemoteBuf → RemoteBuf) : (s.modRem e n f).outbox = s.outbox := rfl
@[simp] theorem State.modQueue_pending (s : State) (q : Nat) (f : Queue → Queue) : (s.modQueue q f).pending = s.pending := rfl
@[simp] theorem State.modQueue_clk (s : State) (q : Nat) (f : Queue → Queue) : (s.modQueue q f).clk = s.clk := rfl
@[simp] theorem State.modQueue_dict (s : State) (q : Nat) (f : Queue → Queue) : (s.modQueue q f).dict = s.dict := rfl
@[simp] theorem State.modQueue_heldVals (s : State) (q : Nat) (f : Queue → Queue) : (s.modQueue q f).heldVals = s.heldVals := rfl
@[simp] theorem State.modQueue_reqs (s : State) (q : Nat) (f : Queue → Queue) : (s.modQueue q f).reqs = s.reqs := rfl
@[simp] theorem State.modQueue_cm (s : State) (q : Nat) (f : Queue → Queue) : (s.modQueue q f).cm = s.cm := rfl
@[simp] theorem State.modQueue_cores (s : State) (q : Nat) (f : Queue → Queue) : (s.modQueue q f).cores = s.cores := rfl
@[simp] theorem State.modQueue_clusters (s : State) (q : Nat) (f : Queue → Queue) : (s.modQueue q f).clusters = s.clusters := rfl
@[simp] theorem State.modQueue_parts (s : State) (q : Nat) (f : Queue → Queue) : (s.modQueue q f).parts = s.parts := rfl
@[simp] theorem State.modQueue_hauls (s : State) (q : Nat) (f : Queue → Queue) : (s.modQueue q f).hauls = s.hauls := rfl
@[simp] theorem State.modQueue_haulNext (s : State) (q : Nat) (f : Queue → Queue) : (s.modQueue q f).haulNext = s.haulNext := rfl
@[simp] theorem State.modQueue_remote (s : State) (q : Nat) (f : Queue → Queue) : (s.modQueue q f).remote = s.remote := rfl
@[simp] theorem State.modQueue_streams (s : State) (q : Nat) (f : Queue → Queue) : (s.modQueue q f).streams = s.streams := rfl
@[simp] theorem State.modQueue_groups (s : State) (q : Nat) (f : Queue → Queue) : (s.modQueue q f).groups = s.groups := rfl
@[simp] theorem State.modQueue_syncs (s : State) (q : Nat) (f : Queue → Queue) : (s.modQueue q f).syncs = s.syncs := rfl
@[simp] theorem State.modQueue_slices (s : State) (q : Nat) (f : Queue → Queue) : (s.modQueue q f).slices = s.slices := rfl
@[simp] theorem State.modQueue_mem (s : State) (q : Nat) (f : Queue → Queue) : (s.modQueue q f).mem = s.mem := rfl
@[simp] theorem State.modQueue_keep (s : State) (q : Nat) (f : Queue → Queue) : (s.modQueue q f).keep = s.keep := rfl
@[simp] theorem State.modQueue_fab (s : State) (q : Nat) (f : Queue → Queue) : (s.modQueue q f).fab = s.fab := rfl
@[simp] theorem State.modQueue_ports (s : State) (q : Nat) (f : Queue → Queue) : (s.modQueue q f).ports = s.ports := rfl
@[simp] theorem State.modQueue_pins (s : State) (q : Nat) (f : Queue → Queue) : (s.modQueue q f).pins = s.pins := rfl
@[simp] theorem State.modQueue_floor (s : State) (q : Nat) (f : Queue → Queue) : (s.modQueue q f).floor = s.floor := rfl
@[simp] theorem State.modQueue_pow (s : State) (q : Nat) (f : Queue → Queue) : (s.modQueue q f).pow = s.pow := rfl
@[simp] theorem State.modQueue_rel (s : State) (q : Nat) (f : Queue → Queue) : (s.modQueue q f).rel = s.rel := rfl
@[simp] theorem State.modQueue_sec (s : State) (q : Nat) (f : Queue → Queue) : (s.modQueue q f).sec = s.sec := rfl
@[simp] theorem State.modQueue_outbox (s : State) (q : Nat) (f : Queue → Queue) : (s.modQueue q f).outbox = s.outbox := rfl
@[simp] theorem State.modSync_pending (s : State) (j : Nat) (f : SyncObj → SyncObj) : (s.modSync j f).pending = s.pending := rfl
@[simp] theorem State.modSync_clk (s : State) (j : Nat) (f : SyncObj → SyncObj) : (s.modSync j f).clk = s.clk := rfl
@[simp] theorem State.modSync_dict (s : State) (j : Nat) (f : SyncObj → SyncObj) : (s.modSync j f).dict = s.dict := rfl
@[simp] theorem State.modSync_heldVals (s : State) (j : Nat) (f : SyncObj → SyncObj) : (s.modSync j f).heldVals = s.heldVals := rfl
@[simp] theorem State.modSync_reqs (s : State) (j : Nat) (f : SyncObj → SyncObj) : (s.modSync j f).reqs = s.reqs := rfl
@[simp] theorem State.modSync_cm (s : State) (j : Nat) (f : SyncObj → SyncObj) : (s.modSync j f).cm = s.cm := rfl
@[simp] theorem State.modSync_cores (s : State) (j : Nat) (f : SyncObj → SyncObj) : (s.modSync j f).cores = s.cores := rfl
@[simp] theorem State.modSync_clusters (s : State) (j : Nat) (f : SyncObj → SyncObj) : (s.modSync j f).clusters = s.clusters := rfl
@[simp] theorem State.modSync_parts (s : State) (j : Nat) (f : SyncObj → SyncObj) : (s.modSync j f).parts = s.parts := rfl
@[simp] theorem State.modSync_hauls (s : State) (j : Nat) (f : SyncObj → SyncObj) : (s.modSync j f).hauls = s.hauls := rfl
@[simp] theorem State.modSync_haulNext (s : State) (j : Nat) (f : SyncObj → SyncObj) : (s.modSync j f).haulNext = s.haulNext := rfl
@[simp] theorem State.modSync_remote (s : State) (j : Nat) (f : SyncObj → SyncObj) : (s.modSync j f).remote = s.remote := rfl
@[simp] theorem State.modSync_streams (s : State) (j : Nat) (f : SyncObj → SyncObj) : (s.modSync j f).streams = s.streams := rfl
@[simp] theorem State.modSync_groups (s : State) (j : Nat) (f : SyncObj → SyncObj) : (s.modSync j f).groups = s.groups := rfl
@[simp] theorem State.modSync_queues (s : State) (j : Nat) (f : SyncObj → SyncObj) : (s.modSync j f).queues = s.queues := rfl
@[simp] theorem State.modSync_slices (s : State) (j : Nat) (f : SyncObj → SyncObj) : (s.modSync j f).slices = s.slices := rfl
@[simp] theorem State.modSync_mem (s : State) (j : Nat) (f : SyncObj → SyncObj) : (s.modSync j f).mem = s.mem := rfl
@[simp] theorem State.modSync_keep (s : State) (j : Nat) (f : SyncObj → SyncObj) : (s.modSync j f).keep = s.keep := rfl
@[simp] theorem State.modSync_fab (s : State) (j : Nat) (f : SyncObj → SyncObj) : (s.modSync j f).fab = s.fab := rfl
@[simp] theorem State.modSync_ports (s : State) (j : Nat) (f : SyncObj → SyncObj) : (s.modSync j f).ports = s.ports := rfl
@[simp] theorem State.modSync_pins (s : State) (j : Nat) (f : SyncObj → SyncObj) : (s.modSync j f).pins = s.pins := rfl
@[simp] theorem State.modSync_floor (s : State) (j : Nat) (f : SyncObj → SyncObj) : (s.modSync j f).floor = s.floor := rfl
@[simp] theorem State.modSync_pow (s : State) (j : Nat) (f : SyncObj → SyncObj) : (s.modSync j f).pow = s.pow := rfl
@[simp] theorem State.modSync_rel (s : State) (j : Nat) (f : SyncObj → SyncObj) : (s.modSync j f).rel = s.rel := rfl
@[simp] theorem State.modSync_sec (s : State) (j : Nat) (f : SyncObj → SyncObj) : (s.modSync j f).sec = s.sec := rfl
@[simp] theorem State.modSync_outbox (s : State) (j : Nat) (f : SyncObj → SyncObj) : (s.modSync j f).outbox = s.outbox := rfl
@[simp] theorem State.modCm_pending (s : State) (f : CoreMem → CoreMem) : (s.modCm f).pending = s.pending := rfl
@[simp] theorem State.modCm_clk (s : State) (f : CoreMem → CoreMem) : (s.modCm f).clk = s.clk := rfl
@[simp] theorem State.modCm_dict (s : State) (f : CoreMem → CoreMem) : (s.modCm f).dict = s.dict := rfl
@[simp] theorem State.modCm_heldVals (s : State) (f : CoreMem → CoreMem) : (s.modCm f).heldVals = s.heldVals := rfl
@[simp] theorem State.modCm_reqs (s : State) (f : CoreMem → CoreMem) : (s.modCm f).reqs = s.reqs := rfl
@[simp] theorem State.modCm_cores (s : State) (f : CoreMem → CoreMem) : (s.modCm f).cores = s.cores := rfl
@[simp] theorem State.modCm_clusters (s : State) (f : CoreMem → CoreMem) : (s.modCm f).clusters = s.clusters := rfl
@[simp] theorem State.modCm_parts (s : State) (f : CoreMem → CoreMem) : (s.modCm f).parts = s.parts := rfl
@[simp] theorem State.modCm_hauls (s : State) (f : CoreMem → CoreMem) : (s.modCm f).hauls = s.hauls := rfl
@[simp] theorem State.modCm_haulNext (s : State) (f : CoreMem → CoreMem) : (s.modCm f).haulNext = s.haulNext := rfl
@[simp] theorem State.modCm_remote (s : State) (f : CoreMem → CoreMem) : (s.modCm f).remote = s.remote := rfl
@[simp] theorem State.modCm_streams (s : State) (f : CoreMem → CoreMem) : (s.modCm f).streams = s.streams := rfl
@[simp] theorem State.modCm_groups (s : State) (f : CoreMem → CoreMem) : (s.modCm f).groups = s.groups := rfl
@[simp] theorem State.modCm_queues (s : State) (f : CoreMem → CoreMem) : (s.modCm f).queues = s.queues := rfl
@[simp] theorem State.modCm_syncs (s : State) (f : CoreMem → CoreMem) : (s.modCm f).syncs = s.syncs := rfl
@[simp] theorem State.modCm_slices (s : State) (f : CoreMem → CoreMem) : (s.modCm f).slices = s.slices := rfl
@[simp] theorem State.modCm_mem (s : State) (f : CoreMem → CoreMem) : (s.modCm f).mem = s.mem := rfl
@[simp] theorem State.modCm_keep (s : State) (f : CoreMem → CoreMem) : (s.modCm f).keep = s.keep := rfl
@[simp] theorem State.modCm_fab (s : State) (f : CoreMem → CoreMem) : (s.modCm f).fab = s.fab := rfl
@[simp] theorem State.modCm_ports (s : State) (f : CoreMem → CoreMem) : (s.modCm f).ports = s.ports := rfl
@[simp] theorem State.modCm_pins (s : State) (f : CoreMem → CoreMem) : (s.modCm f).pins = s.pins := rfl
@[simp] theorem State.modCm_floor (s : State) (f : CoreMem → CoreMem) : (s.modCm f).floor = s.floor := rfl
@[simp] theorem State.modCm_pow (s : State) (f : CoreMem → CoreMem) : (s.modCm f).pow = s.pow := rfl
@[simp] theorem State.modCm_rel (s : State) (f : CoreMem → CoreMem) : (s.modCm f).rel = s.rel := rfl
@[simp] theorem State.modCm_sec (s : State) (f : CoreMem → CoreMem) : (s.modCm f).sec = s.sec := rfl
@[simp] theorem State.modCm_outbox (s : State) (f : CoreMem → CoreMem) : (s.modCm f).outbox = s.outbox := rfl
@[simp] theorem State.modPow_pending (s : State) (f : Power → Power) : (s.modPow f).pending = s.pending := rfl
@[simp] theorem State.modPow_clk (s : State) (f : Power → Power) : (s.modPow f).clk = s.clk := rfl
@[simp] theorem State.modPow_dict (s : State) (f : Power → Power) : (s.modPow f).dict = s.dict := rfl
@[simp] theorem State.modPow_heldVals (s : State) (f : Power → Power) : (s.modPow f).heldVals = s.heldVals := rfl
@[simp] theorem State.modPow_reqs (s : State) (f : Power → Power) : (s.modPow f).reqs = s.reqs := rfl
@[simp] theorem State.modPow_cm (s : State) (f : Power → Power) : (s.modPow f).cm = s.cm := rfl
@[simp] theorem State.modPow_cores (s : State) (f : Power → Power) : (s.modPow f).cores = s.cores := rfl
@[simp] theorem State.modPow_clusters (s : State) (f : Power → Power) : (s.modPow f).clusters = s.clusters := rfl
@[simp] theorem State.modPow_parts (s : State) (f : Power → Power) : (s.modPow f).parts = s.parts := rfl
@[simp] theorem State.modPow_hauls (s : State) (f : Power → Power) : (s.modPow f).hauls = s.hauls := rfl
@[simp] theorem State.modPow_haulNext (s : State) (f : Power → Power) : (s.modPow f).haulNext = s.haulNext := rfl
@[simp] theorem State.modPow_remote (s : State) (f : Power → Power) : (s.modPow f).remote = s.remote := rfl
@[simp] theorem State.modPow_streams (s : State) (f : Power → Power) : (s.modPow f).streams = s.streams := rfl
@[simp] theorem State.modPow_groups (s : State) (f : Power → Power) : (s.modPow f).groups = s.groups := rfl
@[simp] theorem State.modPow_queues (s : State) (f : Power → Power) : (s.modPow f).queues = s.queues := rfl
@[simp] theorem State.modPow_syncs (s : State) (f : Power → Power) : (s.modPow f).syncs = s.syncs := rfl
@[simp] theorem State.modPow_slices (s : State) (f : Power → Power) : (s.modPow f).slices = s.slices := rfl
@[simp] theorem State.modPow_mem (s : State) (f : Power → Power) : (s.modPow f).mem = s.mem := rfl
@[simp] theorem State.modPow_keep (s : State) (f : Power → Power) : (s.modPow f).keep = s.keep := rfl
@[simp] theorem State.modPow_fab (s : State) (f : Power → Power) : (s.modPow f).fab = s.fab := rfl
@[simp] theorem State.modPow_ports (s : State) (f : Power → Power) : (s.modPow f).ports = s.ports := rfl
@[simp] theorem State.modPow_pins (s : State) (f : Power → Power) : (s.modPow f).pins = s.pins := rfl
@[simp] theorem State.modPow_floor (s : State) (f : Power → Power) : (s.modPow f).floor = s.floor := rfl
@[simp] theorem State.modPow_rel (s : State) (f : Power → Power) : (s.modPow f).rel = s.rel := rfl
@[simp] theorem State.modPow_sec (s : State) (f : Power → Power) : (s.modPow f).sec = s.sec := rfl
@[simp] theorem State.modPow_outbox (s : State) (f : Power → Power) : (s.modPow f).outbox = s.outbox := rfl
@[simp] theorem State.modRel_pending (s : State) (f : Rel → Rel) : (s.modRel f).pending = s.pending := rfl
@[simp] theorem State.modRel_clk (s : State) (f : Rel → Rel) : (s.modRel f).clk = s.clk := rfl
@[simp] theorem State.modRel_dict (s : State) (f : Rel → Rel) : (s.modRel f).dict = s.dict := rfl
@[simp] theorem State.modRel_heldVals (s : State) (f : Rel → Rel) : (s.modRel f).heldVals = s.heldVals := rfl
@[simp] theorem State.modRel_reqs (s : State) (f : Rel → Rel) : (s.modRel f).reqs = s.reqs := rfl
@[simp] theorem State.modRel_cm (s : State) (f : Rel → Rel) : (s.modRel f).cm = s.cm := rfl
@[simp] theorem State.modRel_cores (s : State) (f : Rel → Rel) : (s.modRel f).cores = s.cores := rfl
@[simp] theorem State.modRel_clusters (s : State) (f : Rel → Rel) : (s.modRel f).clusters = s.clusters := rfl
@[simp] theorem State.modRel_parts (s : State) (f : Rel → Rel) : (s.modRel f).parts = s.parts := rfl
@[simp] theorem State.modRel_hauls (s : State) (f : Rel → Rel) : (s.modRel f).hauls = s.hauls := rfl
@[simp] theorem State.modRel_haulNext (s : State) (f : Rel → Rel) : (s.modRel f).haulNext = s.haulNext := rfl
@[simp] theorem State.modRel_remote (s : State) (f : Rel → Rel) : (s.modRel f).remote = s.remote := rfl
@[simp] theorem State.modRel_streams (s : State) (f : Rel → Rel) : (s.modRel f).streams = s.streams := rfl
@[simp] theorem State.modRel_groups (s : State) (f : Rel → Rel) : (s.modRel f).groups = s.groups := rfl
@[simp] theorem State.modRel_queues (s : State) (f : Rel → Rel) : (s.modRel f).queues = s.queues := rfl
@[simp] theorem State.modRel_syncs (s : State) (f : Rel → Rel) : (s.modRel f).syncs = s.syncs := rfl
@[simp] theorem State.modRel_slices (s : State) (f : Rel → Rel) : (s.modRel f).slices = s.slices := rfl
@[simp] theorem State.modRel_mem (s : State) (f : Rel → Rel) : (s.modRel f).mem = s.mem := rfl
@[simp] theorem State.modRel_keep (s : State) (f : Rel → Rel) : (s.modRel f).keep = s.keep := rfl
@[simp] theorem State.modRel_fab (s : State) (f : Rel → Rel) : (s.modRel f).fab = s.fab := rfl
@[simp] theorem State.modRel_ports (s : State) (f : Rel → Rel) : (s.modRel f).ports = s.ports := rfl
@[simp] theorem State.modRel_pins (s : State) (f : Rel → Rel) : (s.modRel f).pins = s.pins := rfl
@[simp] theorem State.modRel_floor (s : State) (f : Rel → Rel) : (s.modRel f).floor = s.floor := rfl
@[simp] theorem State.modRel_pow (s : State) (f : Rel → Rel) : (s.modRel f).pow = s.pow := rfl
@[simp] theorem State.modRel_sec (s : State) (f : Rel → Rel) : (s.modRel f).sec = s.sec := rfl
@[simp] theorem State.modRel_outbox (s : State) (f : Rel → Rel) : (s.modRel f).outbox = s.outbox := rfl
@[simp] theorem State.modSec_pending (s : State) (f : Sec → Sec) : (s.modSec f).pending = s.pending := rfl
@[simp] theorem State.modSec_clk (s : State) (f : Sec → Sec) : (s.modSec f).clk = s.clk := rfl
@[simp] theorem State.modSec_dict (s : State) (f : Sec → Sec) : (s.modSec f).dict = s.dict := rfl
@[simp] theorem State.modSec_heldVals (s : State) (f : Sec → Sec) : (s.modSec f).heldVals = s.heldVals := rfl
@[simp] theorem State.modSec_reqs (s : State) (f : Sec → Sec) : (s.modSec f).reqs = s.reqs := rfl
@[simp] theorem State.modSec_cm (s : State) (f : Sec → Sec) : (s.modSec f).cm = s.cm := rfl
@[simp] theorem State.modSec_cores (s : State) (f : Sec → Sec) : (s.modSec f).cores = s.cores := rfl
@[simp] theorem State.modSec_clusters (s : State) (f : Sec → Sec) : (s.modSec f).clusters = s.clusters := rfl
@[simp] theorem State.modSec_parts (s : State) (f : Sec → Sec) : (s.modSec f).parts = s.parts := rfl
@[simp] theorem State.modSec_hauls (s : State) (f : Sec → Sec) : (s.modSec f).hauls = s.hauls := rfl
@[simp] theorem State.modSec_haulNext (s : State) (f : Sec → Sec) : (s.modSec f).haulNext = s.haulNext := rfl
@[simp] theorem State.modSec_remote (s : State) (f : Sec → Sec) : (s.modSec f).remote = s.remote := rfl
@[simp] theorem State.modSec_streams (s : State) (f : Sec → Sec) : (s.modSec f).streams = s.streams := rfl
@[simp] theorem State.modSec_groups (s : State) (f : Sec → Sec) : (s.modSec f).groups = s.groups := rfl
@[simp] theorem State.modSec_queues (s : State) (f : Sec → Sec) : (s.modSec f).queues = s.queues := rfl
@[simp] theorem State.modSec_syncs (s : State) (f : Sec → Sec) : (s.modSec f).syncs = s.syncs := rfl
@[simp] theorem State.modSec_slices (s : State) (f : Sec → Sec) : (s.modSec f).slices = s.slices := rfl
@[simp] theorem State.modSec_mem (s : State) (f : Sec → Sec) : (s.modSec f).mem = s.mem := rfl
@[simp] theorem State.modSec_keep (s : State) (f : Sec → Sec) : (s.modSec f).keep = s.keep := rfl
@[simp] theorem State.modSec_fab (s : State) (f : Sec → Sec) : (s.modSec f).fab = s.fab := rfl
@[simp] theorem State.modSec_ports (s : State) (f : Sec → Sec) : (s.modSec f).ports = s.ports := rfl
@[simp] theorem State.modSec_pins (s : State) (f : Sec → Sec) : (s.modSec f).pins = s.pins := rfl
@[simp] theorem State.modSec_floor (s : State) (f : Sec → Sec) : (s.modSec f).floor = s.floor := rfl
@[simp] theorem State.modSec_pow (s : State) (f : Sec → Sec) : (s.modSec f).pow = s.pow := rfl
@[simp] theorem State.modSec_rel (s : State) (f : Sec → Sec) : (s.modSec f).rel = s.rel := rfl
@[simp] theorem State.modSec_outbox (s : State) (f : Sec → Sec) : (s.modSec f).outbox = s.outbox := rfl
@[simp] theorem State.modFab_pending (s : State) (f : Fabric → Fabric) : (s.modFab f).pending = s.pending := rfl
@[simp] theorem State.modFab_clk (s : State) (f : Fabric → Fabric) : (s.modFab f).clk = s.clk := rfl
@[simp] theorem State.modFab_dict (s : State) (f : Fabric → Fabric) : (s.modFab f).dict = s.dict := rfl
@[simp] theorem State.modFab_heldVals (s : State) (f : Fabric → Fabric) : (s.modFab f).heldVals = s.heldVals := rfl
@[simp] theorem State.modFab_reqs (s : State) (f : Fabric → Fabric) : (s.modFab f).reqs = s.reqs := rfl
@[simp] theorem State.modFab_cm (s : State) (f : Fabric → Fabric) : (s.modFab f).cm = s.cm := rfl
@[simp] theorem State.modFab_cores (s : State) (f : Fabric → Fabric) : (s.modFab f).cores = s.cores := rfl
@[simp] theorem State.modFab_clusters (s : State) (f : Fabric → Fabric) : (s.modFab f).clusters = s.clusters := rfl
@[simp] theorem State.modFab_parts (s : State) (f : Fabric → Fabric) : (s.modFab f).parts = s.parts := rfl
@[simp] theorem State.modFab_hauls (s : State) (f : Fabric → Fabric) : (s.modFab f).hauls = s.hauls := rfl
@[simp] theorem State.modFab_haulNext (s : State) (f : Fabric → Fabric) : (s.modFab f).haulNext = s.haulNext := rfl
@[simp] theorem State.modFab_remote (s : State) (f : Fabric → Fabric) : (s.modFab f).remote = s.remote := rfl
@[simp] theorem State.modFab_streams (s : State) (f : Fabric → Fabric) : (s.modFab f).streams = s.streams := rfl
@[simp] theorem State.modFab_groups (s : State) (f : Fabric → Fabric) : (s.modFab f).groups = s.groups := rfl
@[simp] theorem State.modFab_queues (s : State) (f : Fabric → Fabric) : (s.modFab f).queues = s.queues := rfl
@[simp] theorem State.modFab_syncs (s : State) (f : Fabric → Fabric) : (s.modFab f).syncs = s.syncs := rfl
@[simp] theorem State.modFab_slices (s : State) (f : Fabric → Fabric) : (s.modFab f).slices = s.slices := rfl
@[simp] theorem State.modFab_mem (s : State) (f : Fabric → Fabric) : (s.modFab f).mem = s.mem := rfl
@[simp] theorem State.modFab_keep (s : State) (f : Fabric → Fabric) : (s.modFab f).keep = s.keep := rfl
@[simp] theorem State.modFab_ports (s : State) (f : Fabric → Fabric) : (s.modFab f).ports = s.ports := rfl
@[simp] theorem State.modFab_pins (s : State) (f : Fabric → Fabric) : (s.modFab f).pins = s.pins := rfl
@[simp] theorem State.modFab_floor (s : State) (f : Fabric → Fabric) : (s.modFab f).floor = s.floor := rfl
@[simp] theorem State.modFab_pow (s : State) (f : Fabric → Fabric) : (s.modFab f).pow = s.pow := rfl
@[simp] theorem State.modFab_rel (s : State) (f : Fabric → Fabric) : (s.modFab f).rel = s.rel := rfl
@[simp] theorem State.modFab_sec (s : State) (f : Fabric → Fabric) : (s.modFab f).sec = s.sec := rfl
@[simp] theorem State.modFab_outbox (s : State) (f : Fabric → Fabric) : (s.modFab f).outbox = s.outbox := rfl
@[simp] theorem State.modPorts_pending (s : State) (f : Ports → Ports) : (s.modPorts f).pending = s.pending := rfl
@[simp] theorem State.modPorts_clk (s : State) (f : Ports → Ports) : (s.modPorts f).clk = s.clk := rfl
@[simp] theorem State.modPorts_dict (s : State) (f : Ports → Ports) : (s.modPorts f).dict = s.dict := rfl
@[simp] theorem State.modPorts_heldVals (s : State) (f : Ports → Ports) : (s.modPorts f).heldVals = s.heldVals := rfl
@[simp] theorem State.modPorts_reqs (s : State) (f : Ports → Ports) : (s.modPorts f).reqs = s.reqs := rfl
@[simp] theorem State.modPorts_cm (s : State) (f : Ports → Ports) : (s.modPorts f).cm = s.cm := rfl
@[simp] theorem State.modPorts_cores (s : State) (f : Ports → Ports) : (s.modPorts f).cores = s.cores := rfl
@[simp] theorem State.modPorts_clusters (s : State) (f : Ports → Ports) : (s.modPorts f).clusters = s.clusters := rfl
@[simp] theorem State.modPorts_parts (s : State) (f : Ports → Ports) : (s.modPorts f).parts = s.parts := rfl
@[simp] theorem State.modPorts_hauls (s : State) (f : Ports → Ports) : (s.modPorts f).hauls = s.hauls := rfl
@[simp] theorem State.modPorts_haulNext (s : State) (f : Ports → Ports) : (s.modPorts f).haulNext = s.haulNext := rfl
@[simp] theorem State.modPorts_remote (s : State) (f : Ports → Ports) : (s.modPorts f).remote = s.remote := rfl
@[simp] theorem State.modPorts_streams (s : State) (f : Ports → Ports) : (s.modPorts f).streams = s.streams := rfl
@[simp] theorem State.modPorts_groups (s : State) (f : Ports → Ports) : (s.modPorts f).groups = s.groups := rfl
@[simp] theorem State.modPorts_queues (s : State) (f : Ports → Ports) : (s.modPorts f).queues = s.queues := rfl
@[simp] theorem State.modPorts_syncs (s : State) (f : Ports → Ports) : (s.modPorts f).syncs = s.syncs := rfl
@[simp] theorem State.modPorts_slices (s : State) (f : Ports → Ports) : (s.modPorts f).slices = s.slices := rfl
@[simp] theorem State.modPorts_mem (s : State) (f : Ports → Ports) : (s.modPorts f).mem = s.mem := rfl
@[simp] theorem State.modPorts_keep (s : State) (f : Ports → Ports) : (s.modPorts f).keep = s.keep := rfl
@[simp] theorem State.modPorts_fab (s : State) (f : Ports → Ports) : (s.modPorts f).fab = s.fab := rfl
@[simp] theorem State.modPorts_pins (s : State) (f : Ports → Ports) : (s.modPorts f).pins = s.pins := rfl
@[simp] theorem State.modPorts_floor (s : State) (f : Ports → Ports) : (s.modPorts f).floor = s.floor := rfl
@[simp] theorem State.modPorts_pow (s : State) (f : Ports → Ports) : (s.modPorts f).pow = s.pow := rfl
@[simp] theorem State.modPorts_rel (s : State) (f : Ports → Ports) : (s.modPorts f).rel = s.rel := rfl
@[simp] theorem State.modPorts_sec (s : State) (f : Ports → Ports) : (s.modPorts f).sec = s.sec := rfl
@[simp] theorem State.modPorts_outbox (s : State) (f : Ports → Ports) : (s.modPorts f).outbox = s.outbox := rfl
@[simp] theorem State.modClk_pending (s : State) (f : Clock → Clock) : (s.modClk f).pending = s.pending := rfl
@[simp] theorem State.modClk_dict (s : State) (f : Clock → Clock) : (s.modClk f).dict = s.dict := rfl
@[simp] theorem State.modClk_heldVals (s : State) (f : Clock → Clock) : (s.modClk f).heldVals = s.heldVals := rfl
@[simp] theorem State.modClk_reqs (s : State) (f : Clock → Clock) : (s.modClk f).reqs = s.reqs := rfl
@[simp] theorem State.modClk_cm (s : State) (f : Clock → Clock) : (s.modClk f).cm = s.cm := rfl
@[simp] theorem State.modClk_cores (s : State) (f : Clock → Clock) : (s.modClk f).cores = s.cores := rfl
@[simp] theorem State.modClk_clusters (s : State) (f : Clock → Clock) : (s.modClk f).clusters = s.clusters := rfl
@[simp] theorem State.modClk_parts (s : State) (f : Clock → Clock) : (s.modClk f).parts = s.parts := rfl
@[simp] theorem State.modClk_hauls (s : State) (f : Clock → Clock) : (s.modClk f).hauls = s.hauls := rfl
@[simp] theorem State.modClk_haulNext (s : State) (f : Clock → Clock) : (s.modClk f).haulNext = s.haulNext := rfl
@[simp] theorem State.modClk_remote (s : State) (f : Clock → Clock) : (s.modClk f).remote = s.remote := rfl
@[simp] theorem State.modClk_streams (s : State) (f : Clock → Clock) : (s.modClk f).streams = s.streams := rfl
@[simp] theorem State.modClk_groups (s : State) (f : Clock → Clock) : (s.modClk f).groups = s.groups := rfl
@[simp] theorem State.modClk_queues (s : State) (f : Clock → Clock) : (s.modClk f).queues = s.queues := rfl
@[simp] theorem State.modClk_syncs (s : State) (f : Clock → Clock) : (s.modClk f).syncs = s.syncs := rfl
@[simp] theorem State.modClk_slices (s : State) (f : Clock → Clock) : (s.modClk f).slices = s.slices := rfl
@[simp] theorem State.modClk_mem (s : State) (f : Clock → Clock) : (s.modClk f).mem = s.mem := rfl
@[simp] theorem State.modClk_keep (s : State) (f : Clock → Clock) : (s.modClk f).keep = s.keep := rfl
@[simp] theorem State.modClk_fab (s : State) (f : Clock → Clock) : (s.modClk f).fab = s.fab := rfl
@[simp] theorem State.modClk_ports (s : State) (f : Clock → Clock) : (s.modClk f).ports = s.ports := rfl
@[simp] theorem State.modClk_pins (s : State) (f : Clock → Clock) : (s.modClk f).pins = s.pins := rfl
@[simp] theorem State.modClk_floor (s : State) (f : Clock → Clock) : (s.modClk f).floor = s.floor := rfl
@[simp] theorem State.modClk_pow (s : State) (f : Clock → Clock) : (s.modClk f).pow = s.pow := rfl
@[simp] theorem State.modClk_rel (s : State) (f : Clock → Clock) : (s.modClk f).rel = s.rel := rfl
@[simp] theorem State.modClk_sec (s : State) (f : Clock → Clock) : (s.modClk f).sec = s.sec := rfl
@[simp] theorem State.modClk_outbox (s : State) (f : Clock → Clock) : (s.modClk f).outbox = s.outbox := rfl
@[simp] theorem State.modPins_pending (s : State) (f : Pins → Pins) : (s.modPins f).pending = s.pending := rfl
@[simp] theorem State.modPins_clk (s : State) (f : Pins → Pins) : (s.modPins f).clk = s.clk := rfl
@[simp] theorem State.modPins_dict (s : State) (f : Pins → Pins) : (s.modPins f).dict = s.dict := rfl
@[simp] theorem State.modPins_heldVals (s : State) (f : Pins → Pins) : (s.modPins f).heldVals = s.heldVals := rfl
@[simp] theorem State.modPins_reqs (s : State) (f : Pins → Pins) : (s.modPins f).reqs = s.reqs := rfl
@[simp] theorem State.modPins_cm (s : State) (f : Pins → Pins) : (s.modPins f).cm = s.cm := rfl
@[simp] theorem State.modPins_cores (s : State) (f : Pins → Pins) : (s.modPins f).cores = s.cores := rfl
@[simp] theorem State.modPins_clusters (s : State) (f : Pins → Pins) : (s.modPins f).clusters = s.clusters := rfl
@[simp] theorem State.modPins_parts (s : State) (f : Pins → Pins) : (s.modPins f).parts = s.parts := rfl
@[simp] theorem State.modPins_hauls (s : State) (f : Pins → Pins) : (s.modPins f).hauls = s.hauls := rfl
@[simp] theorem State.modPins_haulNext (s : State) (f : Pins → Pins) : (s.modPins f).haulNext = s.haulNext := rfl
@[simp] theorem State.modPins_remote (s : State) (f : Pins → Pins) : (s.modPins f).remote = s.remote := rfl
@[simp] theorem State.modPins_streams (s : State) (f : Pins → Pins) : (s.modPins f).streams = s.streams := rfl
@[simp] theorem State.modPins_groups (s : State) (f : Pins → Pins) : (s.modPins f).groups = s.groups := rfl
@[simp] theorem State.modPins_queues (s : State) (f : Pins → Pins) : (s.modPins f).queues = s.queues := rfl
@[simp] theorem State.modPins_syncs (s : State) (f : Pins → Pins) : (s.modPins f).syncs = s.syncs := rfl
@[simp] theorem State.modPins_slices (s : State) (f : Pins → Pins) : (s.modPins f).slices = s.slices := rfl
@[simp] theorem State.modPins_mem (s : State) (f : Pins → Pins) : (s.modPins f).mem = s.mem := rfl
@[simp] theorem State.modPins_keep (s : State) (f : Pins → Pins) : (s.modPins f).keep = s.keep := rfl
@[simp] theorem State.modPins_fab (s : State) (f : Pins → Pins) : (s.modPins f).fab = s.fab := rfl
@[simp] theorem State.modPins_ports (s : State) (f : Pins → Pins) : (s.modPins f).ports = s.ports := rfl
@[simp] theorem State.modPins_floor (s : State) (f : Pins → Pins) : (s.modPins f).floor = s.floor := rfl
@[simp] theorem State.modPins_pow (s : State) (f : Pins → Pins) : (s.modPins f).pow = s.pow := rfl
@[simp] theorem State.modPins_rel (s : State) (f : Pins → Pins) : (s.modPins f).rel = s.rel := rfl
@[simp] theorem State.modPins_sec (s : State) (f : Pins → Pins) : (s.modPins f).sec = s.sec := rfl
@[simp] theorem State.modPins_outbox (s : State) (f : Pins → Pins) : (s.modPins f).outbox = s.outbox := rfl
@[simp] theorem State.modFloor_pending (s : State) (f : Floor → Floor) : (s.modFloor f).pending = s.pending := rfl
@[simp] theorem State.modFloor_clk (s : State) (f : Floor → Floor) : (s.modFloor f).clk = s.clk := rfl
@[simp] theorem State.modFloor_dict (s : State) (f : Floor → Floor) : (s.modFloor f).dict = s.dict := rfl
@[simp] theorem State.modFloor_heldVals (s : State) (f : Floor → Floor) : (s.modFloor f).heldVals = s.heldVals := rfl
@[simp] theorem State.modFloor_reqs (s : State) (f : Floor → Floor) : (s.modFloor f).reqs = s.reqs := rfl
@[simp] theorem State.modFloor_cm (s : State) (f : Floor → Floor) : (s.modFloor f).cm = s.cm := rfl
@[simp] theorem State.modFloor_cores (s : State) (f : Floor → Floor) : (s.modFloor f).cores = s.cores := rfl
@[simp] theorem State.modFloor_clusters (s : State) (f : Floor → Floor) : (s.modFloor f).clusters = s.clusters := rfl
@[simp] theorem State.modFloor_parts (s : State) (f : Floor → Floor) : (s.modFloor f).parts = s.parts := rfl
@[simp] theorem State.modFloor_hauls (s : State) (f : Floor → Floor) : (s.modFloor f).hauls = s.hauls := rfl
@[simp] theorem State.modFloor_haulNext (s : State) (f : Floor → Floor) : (s.modFloor f).haulNext = s.haulNext := rfl
@[simp] theorem State.modFloor_remote (s : State) (f : Floor → Floor) : (s.modFloor f).remote = s.remote := rfl
@[simp] theorem State.modFloor_streams (s : State) (f : Floor → Floor) : (s.modFloor f).streams = s.streams := rfl
@[simp] theorem State.modFloor_groups (s : State) (f : Floor → Floor) : (s.modFloor f).groups = s.groups := rfl
@[simp] theorem State.modFloor_queues (s : State) (f : Floor → Floor) : (s.modFloor f).queues = s.queues := rfl
@[simp] theorem State.modFloor_syncs (s : State) (f : Floor → Floor) : (s.modFloor f).syncs = s.syncs := rfl
@[simp] theorem State.modFloor_slices (s : State) (f : Floor → Floor) : (s.modFloor f).slices = s.slices := rfl
@[simp] theorem State.modFloor_mem (s : State) (f : Floor → Floor) : (s.modFloor f).mem = s.mem := rfl
@[simp] theorem State.modFloor_keep (s : State) (f : Floor → Floor) : (s.modFloor f).keep = s.keep := rfl
@[simp] theorem State.modFloor_fab (s : State) (f : Floor → Floor) : (s.modFloor f).fab = s.fab := rfl
@[simp] theorem State.modFloor_ports (s : State) (f : Floor → Floor) : (s.modFloor f).ports = s.ports := rfl
@[simp] theorem State.modFloor_pins (s : State) (f : Floor → Floor) : (s.modFloor f).pins = s.pins := rfl
@[simp] theorem State.modFloor_pow (s : State) (f : Floor → Floor) : (s.modFloor f).pow = s.pow := rfl
@[simp] theorem State.modFloor_rel (s : State) (f : Floor → Floor) : (s.modFloor f).rel = s.rel := rfl
@[simp] theorem State.modFloor_sec (s : State) (f : Floor → Floor) : (s.modFloor f).sec = s.sec := rfl
@[simp] theorem State.modFloor_outbox (s : State) (f : Floor → Floor) : (s.modFloor f).outbox = s.outbox := rfl
@[simp] theorem State.modMem_pending (s : State) (f : Mem → Mem) : (s.modMem f).pending = s.pending := rfl
@[simp] theorem State.modMem_clk (s : State) (f : Mem → Mem) : (s.modMem f).clk = s.clk := rfl
@[simp] theorem State.modMem_dict (s : State) (f : Mem → Mem) : (s.modMem f).dict = s.dict := rfl
@[simp] theorem State.modMem_heldVals (s : State) (f : Mem → Mem) : (s.modMem f).heldVals = s.heldVals := rfl
@[simp] theorem State.modMem_reqs (s : State) (f : Mem → Mem) : (s.modMem f).reqs = s.reqs := rfl
@[simp] theorem State.modMem_cm (s : State) (f : Mem → Mem) : (s.modMem f).cm = s.cm := rfl
@[simp] theorem State.modMem_cores (s : State) (f : Mem → Mem) : (s.modMem f).cores = s.cores := rfl
@[simp] theorem State.modMem_clusters (s : State) (f : Mem → Mem) : (s.modMem f).clusters = s.clusters := rfl
@[simp] theorem State.modMem_parts (s : State) (f : Mem → Mem) : (s.modMem f).parts = s.parts := rfl
@[simp] theorem State.modMem_hauls (s : State) (f : Mem → Mem) : (s.modMem f).hauls = s.hauls := rfl
@[simp] theorem State.modMem_haulNext (s : State) (f : Mem → Mem) : (s.modMem f).haulNext = s.haulNext := rfl
@[simp] theorem State.modMem_remote (s : State) (f : Mem → Mem) : (s.modMem f).remote = s.remote := rfl
@[simp] theorem State.modMem_streams (s : State) (f : Mem → Mem) : (s.modMem f).streams = s.streams := rfl
@[simp] theorem State.modMem_groups (s : State) (f : Mem → Mem) : (s.modMem f).groups = s.groups := rfl
@[simp] theorem State.modMem_queues (s : State) (f : Mem → Mem) : (s.modMem f).queues = s.queues := rfl
@[simp] theorem State.modMem_syncs (s : State) (f : Mem → Mem) : (s.modMem f).syncs = s.syncs := rfl
@[simp] theorem State.modMem_slices (s : State) (f : Mem → Mem) : (s.modMem f).slices = s.slices := rfl
@[simp] theorem State.modMem_keep (s : State) (f : Mem → Mem) : (s.modMem f).keep = s.keep := rfl
@[simp] theorem State.modMem_fab (s : State) (f : Mem → Mem) : (s.modMem f).fab = s.fab := rfl
@[simp] theorem State.modMem_ports (s : State) (f : Mem → Mem) : (s.modMem f).ports = s.ports := rfl
@[simp] theorem State.modMem_pins (s : State) (f : Mem → Mem) : (s.modMem f).pins = s.pins := rfl
@[simp] theorem State.modMem_floor (s : State) (f : Mem → Mem) : (s.modMem f).floor = s.floor := rfl
@[simp] theorem State.modMem_pow (s : State) (f : Mem → Mem) : (s.modMem f).pow = s.pow := rfl
@[simp] theorem State.modMem_rel (s : State) (f : Mem → Mem) : (s.modMem f).rel = s.rel := rfl
@[simp] theorem State.modMem_sec (s : State) (f : Mem → Mem) : (s.modMem f).sec = s.sec := rfl
@[simp] theorem State.modMem_outbox (s : State) (f : Mem → Mem) : (s.modMem f).outbox = s.outbox := rfl
@[simp] theorem State.modReq_pending (s : State) (r : Requester) (f : ReqState → ReqState) : (s.modReq r f).pending = s.pending := rfl
@[simp] theorem State.modReq_clk (s : State) (r : Requester) (f : ReqState → ReqState) : (s.modReq r f).clk = s.clk := rfl
@[simp] theorem State.modReq_dict (s : State) (r : Requester) (f : ReqState → ReqState) : (s.modReq r f).dict = s.dict := rfl
@[simp] theorem State.modReq_heldVals (s : State) (r : Requester) (f : ReqState → ReqState) : (s.modReq r f).heldVals = s.heldVals := rfl
@[simp] theorem State.modReq_cm (s : State) (r : Requester) (f : ReqState → ReqState) : (s.modReq r f).cm = s.cm := rfl
@[simp] theorem State.modReq_cores (s : State) (r : Requester) (f : ReqState → ReqState) : (s.modReq r f).cores = s.cores := rfl
@[simp] theorem State.modReq_clusters (s : State) (r : Requester) (f : ReqState → ReqState) : (s.modReq r f).clusters = s.clusters := rfl
@[simp] theorem State.modReq_parts (s : State) (r : Requester) (f : ReqState → ReqState) : (s.modReq r f).parts = s.parts := rfl
@[simp] theorem State.modReq_hauls (s : State) (r : Requester) (f : ReqState → ReqState) : (s.modReq r f).hauls = s.hauls := rfl
@[simp] theorem State.modReq_haulNext (s : State) (r : Requester) (f : ReqState → ReqState) : (s.modReq r f).haulNext = s.haulNext := rfl
@[simp] theorem State.modReq_remote (s : State) (r : Requester) (f : ReqState → ReqState) : (s.modReq r f).remote = s.remote := rfl
@[simp] theorem State.modReq_streams (s : State) (r : Requester) (f : ReqState → ReqState) : (s.modReq r f).streams = s.streams := rfl
@[simp] theorem State.modReq_groups (s : State) (r : Requester) (f : ReqState → ReqState) : (s.modReq r f).groups = s.groups := rfl
@[simp] theorem State.modReq_queues (s : State) (r : Requester) (f : ReqState → ReqState) : (s.modReq r f).queues = s.queues := rfl
@[simp] theorem State.modReq_syncs (s : State) (r : Requester) (f : ReqState → ReqState) : (s.modReq r f).syncs = s.syncs := rfl
@[simp] theorem State.modReq_slices (s : State) (r : Requester) (f : ReqState → ReqState) : (s.modReq r f).slices = s.slices := rfl
@[simp] theorem State.modReq_mem (s : State) (r : Requester) (f : ReqState → ReqState) : (s.modReq r f).mem = s.mem := rfl
@[simp] theorem State.modReq_keep (s : State) (r : Requester) (f : ReqState → ReqState) : (s.modReq r f).keep = s.keep := rfl
@[simp] theorem State.modReq_fab (s : State) (r : Requester) (f : ReqState → ReqState) : (s.modReq r f).fab = s.fab := rfl
@[simp] theorem State.modReq_ports (s : State) (r : Requester) (f : ReqState → ReqState) : (s.modReq r f).ports = s.ports := rfl
@[simp] theorem State.modReq_pins (s : State) (r : Requester) (f : ReqState → ReqState) : (s.modReq r f).pins = s.pins := rfl
@[simp] theorem State.modReq_floor (s : State) (r : Requester) (f : ReqState → ReqState) : (s.modReq r f).floor = s.floor := rfl
@[simp] theorem State.modReq_pow (s : State) (r : Requester) (f : ReqState → ReqState) : (s.modReq r f).pow = s.pow := rfl
@[simp] theorem State.modReq_rel (s : State) (r : Requester) (f : ReqState → ReqState) : (s.modReq r f).rel = s.rel := rfl
@[simp] theorem State.modReq_sec (s : State) (r : Requester) (f : ReqState → ReqState) : (s.modReq r f).sec = s.sec := rfl
@[simp] theorem State.modReq_outbox (s : State) (r : Requester) (f : ReqState → ReqState) : (s.modReq r f).outbox = s.outbox := rfl
@[simp] theorem State.dset_pending (s : State) (k v : Nat) : (s.dset k v).pending = s.pending := rfl
@[simp] theorem State.dset_clk (s : State) (k v : Nat) : (s.dset k v).clk = s.clk := rfl
@[simp] theorem State.dset_heldVals (s : State) (k v : Nat) : (s.dset k v).heldVals = s.heldVals := rfl
@[simp] theorem State.dset_reqs (s : State) (k v : Nat) : (s.dset k v).reqs = s.reqs := rfl
@[simp] theorem State.dset_cm (s : State) (k v : Nat) : (s.dset k v).cm = s.cm := rfl
@[simp] theorem State.dset_cores (s : State) (k v : Nat) : (s.dset k v).cores = s.cores := rfl
@[simp] theorem State.dset_clusters (s : State) (k v : Nat) : (s.dset k v).clusters = s.clusters := rfl
@[simp] theorem State.dset_parts (s : State) (k v : Nat) : (s.dset k v).parts = s.parts := rfl
@[simp] theorem State.dset_hauls (s : State) (k v : Nat) : (s.dset k v).hauls = s.hauls := rfl
@[simp] theorem State.dset_haulNext (s : State) (k v : Nat) : (s.dset k v).haulNext = s.haulNext := rfl
@[simp] theorem State.dset_remote (s : State) (k v : Nat) : (s.dset k v).remote = s.remote := rfl
@[simp] theorem State.dset_streams (s : State) (k v : Nat) : (s.dset k v).streams = s.streams := rfl
@[simp] theorem State.dset_groups (s : State) (k v : Nat) : (s.dset k v).groups = s.groups := rfl
@[simp] theorem State.dset_queues (s : State) (k v : Nat) : (s.dset k v).queues = s.queues := rfl
@[simp] theorem State.dset_syncs (s : State) (k v : Nat) : (s.dset k v).syncs = s.syncs := rfl
@[simp] theorem State.dset_slices (s : State) (k v : Nat) : (s.dset k v).slices = s.slices := rfl
@[simp] theorem State.dset_mem (s : State) (k v : Nat) : (s.dset k v).mem = s.mem := rfl
@[simp] theorem State.dset_keep (s : State) (k v : Nat) : (s.dset k v).keep = s.keep := rfl
@[simp] theorem State.dset_fab (s : State) (k v : Nat) : (s.dset k v).fab = s.fab := rfl
@[simp] theorem State.dset_ports (s : State) (k v : Nat) : (s.dset k v).ports = s.ports := rfl
@[simp] theorem State.dset_pins (s : State) (k v : Nat) : (s.dset k v).pins = s.pins := rfl
@[simp] theorem State.dset_floor (s : State) (k v : Nat) : (s.dset k v).floor = s.floor := rfl
@[simp] theorem State.dset_pow (s : State) (k v : Nat) : (s.dset k v).pow = s.pow := rfl
@[simp] theorem State.dset_rel (s : State) (k v : Nat) : (s.dset k v).rel = s.rel := rfl
@[simp] theorem State.dset_sec (s : State) (k v : Nat) : (s.dset k v).sec = s.sec := rfl
@[simp] theorem State.dset_outbox (s : State) (k v : Nat) : (s.dset k v).outbox = s.outbox := rfl
@[simp] theorem State.dadd_pending (s : State) (k a : Nat) : (s.dadd k a).pending = s.pending := rfl
@[simp] theorem State.dadd_clk (s : State) (k a : Nat) : (s.dadd k a).clk = s.clk := rfl
@[simp] theorem State.dadd_heldVals (s : State) (k a : Nat) : (s.dadd k a).heldVals = s.heldVals := rfl
@[simp] theorem State.dadd_reqs (s : State) (k a : Nat) : (s.dadd k a).reqs = s.reqs := rfl
@[simp] theorem State.dadd_cm (s : State) (k a : Nat) : (s.dadd k a).cm = s.cm := rfl
@[simp] theorem State.dadd_cores (s : State) (k a : Nat) : (s.dadd k a).cores = s.cores := rfl
@[simp] theorem State.dadd_clusters (s : State) (k a : Nat) : (s.dadd k a).clusters = s.clusters := rfl
@[simp] theorem State.dadd_parts (s : State) (k a : Nat) : (s.dadd k a).parts = s.parts := rfl
@[simp] theorem State.dadd_hauls (s : State) (k a : Nat) : (s.dadd k a).hauls = s.hauls := rfl
@[simp] theorem State.dadd_haulNext (s : State) (k a : Nat) : (s.dadd k a).haulNext = s.haulNext := rfl
@[simp] theorem State.dadd_remote (s : State) (k a : Nat) : (s.dadd k a).remote = s.remote := rfl
@[simp] theorem State.dadd_streams (s : State) (k a : Nat) : (s.dadd k a).streams = s.streams := rfl
@[simp] theorem State.dadd_groups (s : State) (k a : Nat) : (s.dadd k a).groups = s.groups := rfl
@[simp] theorem State.dadd_queues (s : State) (k a : Nat) : (s.dadd k a).queues = s.queues := rfl
@[simp] theorem State.dadd_syncs (s : State) (k a : Nat) : (s.dadd k a).syncs = s.syncs := rfl
@[simp] theorem State.dadd_slices (s : State) (k a : Nat) : (s.dadd k a).slices = s.slices := rfl
@[simp] theorem State.dadd_mem (s : State) (k a : Nat) : (s.dadd k a).mem = s.mem := rfl
@[simp] theorem State.dadd_keep (s : State) (k a : Nat) : (s.dadd k a).keep = s.keep := rfl
@[simp] theorem State.dadd_fab (s : State) (k a : Nat) : (s.dadd k a).fab = s.fab := rfl
@[simp] theorem State.dadd_ports (s : State) (k a : Nat) : (s.dadd k a).ports = s.ports := rfl
@[simp] theorem State.dadd_pins (s : State) (k a : Nat) : (s.dadd k a).pins = s.pins := rfl
@[simp] theorem State.dadd_floor (s : State) (k a : Nat) : (s.dadd k a).floor = s.floor := rfl
@[simp] theorem State.dadd_pow (s : State) (k a : Nat) : (s.dadd k a).pow = s.pow := rfl
@[simp] theorem State.dadd_rel (s : State) (k a : Nat) : (s.dadd k a).rel = s.rel := rfl
@[simp] theorem State.dadd_sec (s : State) (k a : Nat) : (s.dadd k a).sec = s.sec := rfl
@[simp] theorem State.dadd_outbox (s : State) (k a : Nat) : (s.dadd k a).outbox = s.outbox := rfl
@[simp] theorem State.dadd64_pending (s : State) (k a : Nat) : (s.dadd64 k a).pending = s.pending := rfl
@[simp] theorem State.dadd64_clk (s : State) (k a : Nat) : (s.dadd64 k a).clk = s.clk := rfl
@[simp] theorem State.dadd64_heldVals (s : State) (k a : Nat) : (s.dadd64 k a).heldVals = s.heldVals := rfl
@[simp] theorem State.dadd64_reqs (s : State) (k a : Nat) : (s.dadd64 k a).reqs = s.reqs := rfl
@[simp] theorem State.dadd64_cm (s : State) (k a : Nat) : (s.dadd64 k a).cm = s.cm := rfl
@[simp] theorem State.dadd64_cores (s : State) (k a : Nat) : (s.dadd64 k a).cores = s.cores := rfl
@[simp] theorem State.dadd64_clusters (s : State) (k a : Nat) : (s.dadd64 k a).clusters = s.clusters := rfl
@[simp] theorem State.dadd64_parts (s : State) (k a : Nat) : (s.dadd64 k a).parts = s.parts := rfl
@[simp] theorem State.dadd64_hauls (s : State) (k a : Nat) : (s.dadd64 k a).hauls = s.hauls := rfl
@[simp] theorem State.dadd64_haulNext (s : State) (k a : Nat) : (s.dadd64 k a).haulNext = s.haulNext := rfl
@[simp] theorem State.dadd64_remote (s : State) (k a : Nat) : (s.dadd64 k a).remote = s.remote := rfl
@[simp] theorem State.dadd64_streams (s : State) (k a : Nat) : (s.dadd64 k a).streams = s.streams := rfl
@[simp] theorem State.dadd64_groups (s : State) (k a : Nat) : (s.dadd64 k a).groups = s.groups := rfl
@[simp] theorem State.dadd64_queues (s : State) (k a : Nat) : (s.dadd64 k a).queues = s.queues := rfl
@[simp] theorem State.dadd64_syncs (s : State) (k a : Nat) : (s.dadd64 k a).syncs = s.syncs := rfl
@[simp] theorem State.dadd64_slices (s : State) (k a : Nat) : (s.dadd64 k a).slices = s.slices := rfl
@[simp] theorem State.dadd64_mem (s : State) (k a : Nat) : (s.dadd64 k a).mem = s.mem := rfl
@[simp] theorem State.dadd64_keep (s : State) (k a : Nat) : (s.dadd64 k a).keep = s.keep := rfl
@[simp] theorem State.dadd64_fab (s : State) (k a : Nat) : (s.dadd64 k a).fab = s.fab := rfl
@[simp] theorem State.dadd64_ports (s : State) (k a : Nat) : (s.dadd64 k a).ports = s.ports := rfl
@[simp] theorem State.dadd64_pins (s : State) (k a : Nat) : (s.dadd64 k a).pins = s.pins := rfl
@[simp] theorem State.dadd64_floor (s : State) (k a : Nat) : (s.dadd64 k a).floor = s.floor := rfl
@[simp] theorem State.dadd64_pow (s : State) (k a : Nat) : (s.dadd64 k a).pow = s.pow := rfl
@[simp] theorem State.dadd64_rel (s : State) (k a : Nat) : (s.dadd64 k a).rel = s.rel := rfl
@[simp] theorem State.dadd64_sec (s : State) (k a : Nat) : (s.dadd64 k a).sec = s.sec := rfl
@[simp] theorem State.dadd64_outbox (s : State) (k a : Nat) : (s.dadd64 k a).outbox = s.outbox := rfl
@[simp] theorem State.dclear_pending (s : State) (k : Nat) : (s.dclear k).pending = s.pending := rfl
@[simp] theorem State.dclear_clk (s : State) (k : Nat) : (s.dclear k).clk = s.clk := rfl
@[simp] theorem State.dclear_heldVals (s : State) (k : Nat) : (s.dclear k).heldVals = s.heldVals := rfl
@[simp] theorem State.dclear_reqs (s : State) (k : Nat) : (s.dclear k).reqs = s.reqs := rfl
@[simp] theorem State.dclear_cm (s : State) (k : Nat) : (s.dclear k).cm = s.cm := rfl
@[simp] theorem State.dclear_cores (s : State) (k : Nat) : (s.dclear k).cores = s.cores := rfl
@[simp] theorem State.dclear_clusters (s : State) (k : Nat) : (s.dclear k).clusters = s.clusters := rfl
@[simp] theorem State.dclear_parts (s : State) (k : Nat) : (s.dclear k).parts = s.parts := rfl
@[simp] theorem State.dclear_hauls (s : State) (k : Nat) : (s.dclear k).hauls = s.hauls := rfl
@[simp] theorem State.dclear_haulNext (s : State) (k : Nat) : (s.dclear k).haulNext = s.haulNext := rfl
@[simp] theorem State.dclear_remote (s : State) (k : Nat) : (s.dclear k).remote = s.remote := rfl
@[simp] theorem State.dclear_streams (s : State) (k : Nat) : (s.dclear k).streams = s.streams := rfl
@[simp] theorem State.dclear_groups (s : State) (k : Nat) : (s.dclear k).groups = s.groups := rfl
@[simp] theorem State.dclear_queues (s : State) (k : Nat) : (s.dclear k).queues = s.queues := rfl
@[simp] theorem State.dclear_syncs (s : State) (k : Nat) : (s.dclear k).syncs = s.syncs := rfl
@[simp] theorem State.dclear_slices (s : State) (k : Nat) : (s.dclear k).slices = s.slices := rfl
@[simp] theorem State.dclear_mem (s : State) (k : Nat) : (s.dclear k).mem = s.mem := rfl
@[simp] theorem State.dclear_keep (s : State) (k : Nat) : (s.dclear k).keep = s.keep := rfl
@[simp] theorem State.dclear_fab (s : State) (k : Nat) : (s.dclear k).fab = s.fab := rfl
@[simp] theorem State.dclear_ports (s : State) (k : Nat) : (s.dclear k).ports = s.ports := rfl
@[simp] theorem State.dclear_pins (s : State) (k : Nat) : (s.dclear k).pins = s.pins := rfl
@[simp] theorem State.dclear_floor (s : State) (k : Nat) : (s.dclear k).floor = s.floor := rfl
@[simp] theorem State.dclear_pow (s : State) (k : Nat) : (s.dclear k).pow = s.pow := rfl
@[simp] theorem State.dclear_rel (s : State) (k : Nat) : (s.dclear k).rel = s.rel := rfl
@[simp] theorem State.dclear_sec (s : State) (k : Nat) : (s.dclear k).sec = s.sec := rfl
@[simp] theorem State.dclear_outbox (s : State) (k : Nat) : (s.dclear k).outbox = s.outbox := rfl
@[simp] theorem State.release_pending (s : State) (p : Nat → Bool) : (s.release p).pending = s.pending := rfl
@[simp] theorem State.release_clk (s : State) (p : Nat → Bool) : (s.release p).clk = s.clk := rfl
@[simp] theorem State.release_dict (s : State) (p : Nat → Bool) : (s.release p).dict = s.dict := rfl
@[simp] theorem State.release_reqs (s : State) (p : Nat → Bool) : (s.release p).reqs = s.reqs := rfl
@[simp] theorem State.release_cm (s : State) (p : Nat → Bool) : (s.release p).cm = s.cm := rfl
@[simp] theorem State.release_cores (s : State) (p : Nat → Bool) : (s.release p).cores = s.cores := rfl
@[simp] theorem State.release_clusters (s : State) (p : Nat → Bool) : (s.release p).clusters = s.clusters := rfl
@[simp] theorem State.release_parts (s : State) (p : Nat → Bool) : (s.release p).parts = s.parts := rfl
@[simp] theorem State.release_hauls (s : State) (p : Nat → Bool) : (s.release p).hauls = s.hauls := rfl
@[simp] theorem State.release_haulNext (s : State) (p : Nat → Bool) : (s.release p).haulNext = s.haulNext := rfl
@[simp] theorem State.release_remote (s : State) (p : Nat → Bool) : (s.release p).remote = s.remote := rfl
@[simp] theorem State.release_streams (s : State) (p : Nat → Bool) : (s.release p).streams = s.streams := rfl
@[simp] theorem State.release_groups (s : State) (p : Nat → Bool) : (s.release p).groups = s.groups := rfl
@[simp] theorem State.release_queues (s : State) (p : Nat → Bool) : (s.release p).queues = s.queues := rfl
@[simp] theorem State.release_syncs (s : State) (p : Nat → Bool) : (s.release p).syncs = s.syncs := rfl
@[simp] theorem State.release_slices (s : State) (p : Nat → Bool) : (s.release p).slices = s.slices := rfl
@[simp] theorem State.release_mem (s : State) (p : Nat → Bool) : (s.release p).mem = s.mem := rfl
@[simp] theorem State.release_keep (s : State) (p : Nat → Bool) : (s.release p).keep = s.keep := rfl
@[simp] theorem State.release_fab (s : State) (p : Nat → Bool) : (s.release p).fab = s.fab := rfl
@[simp] theorem State.release_ports (s : State) (p : Nat → Bool) : (s.release p).ports = s.ports := rfl
@[simp] theorem State.release_pins (s : State) (p : Nat → Bool) : (s.release p).pins = s.pins := rfl
@[simp] theorem State.release_floor (s : State) (p : Nat → Bool) : (s.release p).floor = s.floor := rfl
@[simp] theorem State.release_pow (s : State) (p : Nat → Bool) : (s.release p).pow = s.pow := rfl
@[simp] theorem State.release_rel (s : State) (p : Nat → Bool) : (s.release p).rel = s.rel := rfl
@[simp] theorem State.release_sec (s : State) (p : Nat → Bool) : (s.release p).sec = s.sec := rfl
@[simp] theorem State.release_outbox (s : State) (p : Nat → Bool) : (s.release p).outbox = s.outbox := rfl

/-! ### What leaves the part -/

theorem State.outs_eq (s : State) (l : List Output) : s.outs l = { s with outbox := if s.dead then s.outbox else s.outbox ++ l } := by
  simp only [State.outs]
  split <;> rfl
@[simp] theorem State.outs_pending (s : State) (l : List Output) : (s.outs l).pending = s.pending := by rw [State.outs_eq]
@[simp] theorem State.out_pending (s : State) (o : Output) : (s.out o).pending = s.pending := State.outs_pending s [o]
@[simp] theorem State.outs_clk (s : State) (l : List Output) : (s.outs l).clk = s.clk := by rw [State.outs_eq]
@[simp] theorem State.out_clk (s : State) (o : Output) : (s.out o).clk = s.clk := State.outs_clk s [o]
@[simp] theorem State.outs_dict (s : State) (l : List Output) : (s.outs l).dict = s.dict := by rw [State.outs_eq]
@[simp] theorem State.out_dict (s : State) (o : Output) : (s.out o).dict = s.dict := State.outs_dict s [o]
@[simp] theorem State.outs_heldVals (s : State) (l : List Output) : (s.outs l).heldVals = s.heldVals := by rw [State.outs_eq]
@[simp] theorem State.out_heldVals (s : State) (o : Output) : (s.out o).heldVals = s.heldVals := State.outs_heldVals s [o]
@[simp] theorem State.outs_reqs (s : State) (l : List Output) : (s.outs l).reqs = s.reqs := by rw [State.outs_eq]
@[simp] theorem State.out_reqs (s : State) (o : Output) : (s.out o).reqs = s.reqs := State.outs_reqs s [o]
@[simp] theorem State.outs_cm (s : State) (l : List Output) : (s.outs l).cm = s.cm := by rw [State.outs_eq]
@[simp] theorem State.out_cm (s : State) (o : Output) : (s.out o).cm = s.cm := State.outs_cm s [o]
@[simp] theorem State.outs_cores (s : State) (l : List Output) : (s.outs l).cores = s.cores := by rw [State.outs_eq]
@[simp] theorem State.out_cores (s : State) (o : Output) : (s.out o).cores = s.cores := State.outs_cores s [o]
@[simp] theorem State.outs_clusters (s : State) (l : List Output) : (s.outs l).clusters = s.clusters := by rw [State.outs_eq]
@[simp] theorem State.out_clusters (s : State) (o : Output) : (s.out o).clusters = s.clusters := State.outs_clusters s [o]
@[simp] theorem State.outs_parts (s : State) (l : List Output) : (s.outs l).parts = s.parts := by rw [State.outs_eq]
@[simp] theorem State.out_parts (s : State) (o : Output) : (s.out o).parts = s.parts := State.outs_parts s [o]
@[simp] theorem State.outs_hauls (s : State) (l : List Output) : (s.outs l).hauls = s.hauls := by rw [State.outs_eq]
@[simp] theorem State.out_hauls (s : State) (o : Output) : (s.out o).hauls = s.hauls := State.outs_hauls s [o]
@[simp] theorem State.outs_haulNext (s : State) (l : List Output) : (s.outs l).haulNext = s.haulNext := by rw [State.outs_eq]
@[simp] theorem State.out_haulNext (s : State) (o : Output) : (s.out o).haulNext = s.haulNext := State.outs_haulNext s [o]
@[simp] theorem State.outs_remote (s : State) (l : List Output) : (s.outs l).remote = s.remote := by rw [State.outs_eq]
@[simp] theorem State.out_remote (s : State) (o : Output) : (s.out o).remote = s.remote := State.outs_remote s [o]
@[simp] theorem State.outs_streams (s : State) (l : List Output) : (s.outs l).streams = s.streams := by rw [State.outs_eq]
@[simp] theorem State.out_streams (s : State) (o : Output) : (s.out o).streams = s.streams := State.outs_streams s [o]
@[simp] theorem State.outs_groups (s : State) (l : List Output) : (s.outs l).groups = s.groups := by rw [State.outs_eq]
@[simp] theorem State.out_groups (s : State) (o : Output) : (s.out o).groups = s.groups := State.outs_groups s [o]
@[simp] theorem State.outs_queues (s : State) (l : List Output) : (s.outs l).queues = s.queues := by rw [State.outs_eq]
@[simp] theorem State.out_queues (s : State) (o : Output) : (s.out o).queues = s.queues := State.outs_queues s [o]
@[simp] theorem State.outs_syncs (s : State) (l : List Output) : (s.outs l).syncs = s.syncs := by rw [State.outs_eq]
@[simp] theorem State.out_syncs (s : State) (o : Output) : (s.out o).syncs = s.syncs := State.outs_syncs s [o]
@[simp] theorem State.outs_slices (s : State) (l : List Output) : (s.outs l).slices = s.slices := by rw [State.outs_eq]
@[simp] theorem State.out_slices (s : State) (o : Output) : (s.out o).slices = s.slices := State.outs_slices s [o]
@[simp] theorem State.outs_mem (s : State) (l : List Output) : (s.outs l).mem = s.mem := by rw [State.outs_eq]
@[simp] theorem State.out_mem (s : State) (o : Output) : (s.out o).mem = s.mem := State.outs_mem s [o]
@[simp] theorem State.outs_keep (s : State) (l : List Output) : (s.outs l).keep = s.keep := by rw [State.outs_eq]
@[simp] theorem State.out_keep (s : State) (o : Output) : (s.out o).keep = s.keep := State.outs_keep s [o]
@[simp] theorem State.outs_fab (s : State) (l : List Output) : (s.outs l).fab = s.fab := by rw [State.outs_eq]
@[simp] theorem State.out_fab (s : State) (o : Output) : (s.out o).fab = s.fab := State.outs_fab s [o]
@[simp] theorem State.outs_ports (s : State) (l : List Output) : (s.outs l).ports = s.ports := by rw [State.outs_eq]
@[simp] theorem State.out_ports (s : State) (o : Output) : (s.out o).ports = s.ports := State.outs_ports s [o]
@[simp] theorem State.outs_pins (s : State) (l : List Output) : (s.outs l).pins = s.pins := by rw [State.outs_eq]
@[simp] theorem State.out_pins (s : State) (o : Output) : (s.out o).pins = s.pins := State.outs_pins s [o]
@[simp] theorem State.outs_floor (s : State) (l : List Output) : (s.outs l).floor = s.floor := by rw [State.outs_eq]
@[simp] theorem State.out_floor (s : State) (o : Output) : (s.out o).floor = s.floor := State.outs_floor s [o]
@[simp] theorem State.outs_pow (s : State) (l : List Output) : (s.outs l).pow = s.pow := by rw [State.outs_eq]
@[simp] theorem State.out_pow (s : State) (o : Output) : (s.out o).pow = s.pow := State.outs_pow s [o]
@[simp] theorem State.outs_rel (s : State) (l : List Output) : (s.outs l).rel = s.rel := by rw [State.outs_eq]
@[simp] theorem State.out_rel (s : State) (o : Output) : (s.out o).rel = s.rel := State.outs_rel s [o]
@[simp] theorem State.outs_sec (s : State) (l : List Output) : (s.outs l).sec = s.sec := by rw [State.outs_eq]
@[simp] theorem State.out_sec (s : State) (o : Output) : (s.out o).sec = s.sec := State.outs_sec s [o]
theorem State.outs_outbox (s : State) (l : List Output) : (s.outs l).outbox = if s.dead then s.outbox else s.outbox ++ l := by rw [State.outs_eq]
theorem State.out_outbox (s : State) (o : Output) : (s.out o).outbox = if s.dead then s.outbox else s.outbox ++ [o] := State.outs_outbox s [o]

/-! ### The field that an update changes -/

@[simp] theorem State.modCm_cm (s : State) (f : CoreMem → CoreMem) : (s.modCm f).cm = f s.cm := rfl
@[simp] theorem State.modPow_pow (s : State) (f : Power → Power) : (s.modPow f).pow = f s.pow := rfl
@[simp] theorem State.modRel_rel (s : State) (f : Rel → Rel) : (s.modRel f).rel = f s.rel := rfl
@[simp] theorem State.modSec_sec (s : State) (f : Sec → Sec) : (s.modSec f).sec = f s.sec := rfl
@[simp] theorem State.modFab_fab (s : State) (f : Fabric → Fabric) : (s.modFab f).fab = f s.fab := rfl
@[simp] theorem State.modPorts_ports (s : State) (f : Ports → Ports) : (s.modPorts f).ports = f s.ports := rfl
@[simp] theorem State.modClk_clk (s : State) (f : Clock → Clock) : (s.modClk f).clk = f s.clk := rfl
@[simp] theorem State.modPins_pins (s : State) (f : Pins → Pins) : (s.modPins f).pins = f s.pins := rfl
@[simp] theorem State.modFloor_floor (s : State) (f : Floor → Floor) : (s.modFloor f).floor = f s.floor := rfl
@[simp] theorem State.modMem_mem (s : State) (f : Mem → Mem) : (s.modMem f).mem = f s.mem := rfl
@[simp] theorem State.part_modPart_self (s : State) (i : Nat) (f : Part → Part) : (s.modPart i f).part i = f (s.part i) := mget_mmod_self dPart _ i f
theorem State.part_modPart_ne (s : State) {i j : Nat} (h : j ≠ i) (f : Part → Part) : (s.modPart i f).part j = s.part j := mget_mmod_ne dPart _ h f
@[simp] theorem State.core_modCore_self (s : State) (i : Nat) (f : Core → Core) : (s.modCore i f).core i = f (s.core i) := mget_mmod_self dCore _ i f
theorem State.core_modCore_ne (s : State) {i j : Nat} (h : j ≠ i) (f : Core → Core) : (s.modCore i f).core j = s.core j := mget_mmod_ne dCore _ h f
@[simp] theorem State.cluster_modCluster_self (s : State) (i : Nat) (f : Cluster → Cluster) : (s.modCluster i f).cluster i = f (s.cluster i) := mget_mmod_self dCluster _ i f
theorem State.cluster_modCluster_ne (s : State) {i j : Nat} (h : j ≠ i) (f : Cluster → Cluster) : (s.modCluster i f).cluster j = s.cluster j := mget_mmod_ne dCluster _ h f
@[simp] theorem State.stream_modStream_self (s : State) (i : Nat) (f : Stream → Stream) : (s.modStream i f).stream i = f (s.stream i) := mget_mmod_self dStream _ i f
theorem State.stream_modStream_ne (s : State) {i j : Nat} (h : j ≠ i) (f : Stream → Stream) : (s.modStream i f).stream j = s.stream j := mget_mmod_ne dStream _ h f
@[simp] theorem State.rgroup_modGroup_self (s : State) (i : Nat) (f : Group → Group) : (s.modGroup i f).rgroup i = f (s.rgroup i) := mget_mmod_self dGroup _ i f
theorem State.rgroup_modGroup_ne (s : State) {i j : Nat} (h : j ≠ i) (f : Group → Group) : (s.modGroup i f).rgroup j = s.rgroup j := mget_mmod_ne dGroup _ h f
@[simp] theorem State.slice_modSlice_self (s : State) (i : Nat) (f : Slice → Slice) : (s.modSlice i f).slice i = f (s.slice i) := mget_mmod_self dSlice _ i f
theorem State.slice_modSlice_ne (s : State) {i j : Nat} (h : j ≠ i) (f : Slice → Slice) : (s.modSlice i f).slice j = s.slice j := mget_mmod_ne dSlice _ h f
@[simp] theorem State.func_modFunc_self (s : State) (i : Nat) (f : Func → Func) : (s.modFunc i f).func i = f (s.func i) := mget_mmod_self dFunc _ i f
theorem State.func_modFunc_ne (s : State) {i j : Nat} (h : j ≠ i) (f : Func → Func) : (s.modFunc i f).func j = s.func j := mget_mmod_ne dFunc _ h f
@[simp] theorem State.mailbox_modMailbox_self (s : State) (i : Nat) (f : Mailbox → Mailbox) : (s.modMailbox i f).mailbox i = f (s.mailbox i) := mget_mmod_self dMailbox _ i f
theorem State.mailbox_modMailbox_ne (s : State) {i j : Nat} (h : j ≠ i) (f : Mailbox → Mailbox) : (s.modMailbox i f).mailbox j = s.mailbox j := mget_mmod_ne dMailbox _ h f
@[simp] theorem State.dataPort_modDataPort_self (s : State) (i : Nat) (f : DataPort → DataPort) : (s.modDataPort i f).dataPort i = f (s.dataPort i) := mget_mmod_self dDataPort _ i f
theorem State.dataPort_modDataPort_ne (s : State) {i j : Nat} (h : j ≠ i) (f : DataPort → DataPort) : (s.modDataPort i f).dataPort j = s.dataPort j := mget_mmod_ne dDataPort _ h f
@[simp] theorem State.obj_modObj_self (s : State) (i : Nat) (f : Obj → Obj) : (s.modObj i f).obj i = f (s.obj i) := mget_mmod_self dObj _ i f
theorem State.obj_modObj_ne (s : State) {i j : Nat} (h : j ≠ i) (f : Obj → Obj) : (s.modObj i f).obj j = s.obj j := mget_mmod_ne dObj _ h f
@[simp] theorem State.sync_modSync_self (s : State) (i : Nat) (f : SyncObj → SyncObj) : (s.modSync i f).sync i = f (s.sync i) := mget_mmod_self dSync _ i f
theorem State.sync_modSync_ne (s : State) {i j : Nat} (h : j ≠ i) (f : SyncObj → SyncObj) : (s.modSync i f).sync j = s.sync j := mget_mmod_ne dSync _ h f
/-- With no bring-up in progress and no configuration request repeated, time alone goes on. -/
theorem State.at_quiet (s : State) (t : Nat) (h : s.floor.boot = none) (k : s.ports.retry = none) :
    s.at t = { s with clk := { s.clk with now := max s.clk.now t } } := by
  simp only [State.at, State.bootEnd, h, State.crsEnd, k]

/-! ### Dictionary values -/

@[simp] theorem State.dget_dset_self (s : State) (k v : Nat) : (s.dset k v).dget k = v := mget_mset_self entryDefault _ k v
theorem State.dget_dset_ne (s : State) {k j : Nat} (h : j ≠ k) (v : Nat) : (s.dset k v).dget j = s.dget j := mget_mset_ne entryDefault _ h v
theorem State.dget_dset (s : State) (k j v : Nat) : (s.dset k v).dget j = if j = k then v else s.dget j := mget_mset entryDefault _ k j v
@[simp] theorem State.dget_dadd_self (s : State) (k a : Nat) : (s.dadd k a).dget k = satAdd 32 (s.dget k) a := s.dget_dset_self k _
theorem State.dget_dadd_ne (s : State) {k j : Nat} (h : j ≠ k) (a : Nat) : (s.dadd k a).dget j = s.dget j := s.dget_dset_ne h _
@[simp] theorem State.dget_dadd64_self (s : State) (k a : Nat) : (s.dadd64 k a).dget k = wrapAdd 64 (s.dget k) a := s.dget_dset_self k _
theorem State.dget_dadd64_ne (s : State) {k j : Nat} (h : j ≠ k) (a : Nat) : (s.dadd64 k a).dget j = s.dget j := s.dget_dset_ne h _
@[simp] theorem State.dget_dclear_self (s : State) (k : Nat) : (s.dclear k).dget k = entryDefault k := s.dget_dset_self k _
theorem State.dget_dclear_ne (s : State) {k j : Nat} (h : j ≠ k) : (s.dclear k).dget j = s.dget j := s.dget_dset_ne h _

/-! ### What one access reads after an update of another field -/

@[simp] theorem State.part_modCore (s : State) (c : Nat) (f : Core → Core) (x : Nat) : (s.modCore c f).part x = s.part x := rfl
@[simp] theorem State.part_modCluster (s : State) (c : Nat) (f : Cluster → Cluster) (x : Nat) : (s.modCluster c f).part x = s.part x := rfl
@[simp] theorem State.part_modStream (s : State) (k : Nat) (f : Stream → Stream) (x : Nat) : (s.modStream k f).part x = s.part x := rfl
@[simp] theorem State.part_modGroup (s : State) (g : Nat) (f : Group → Group) (x : Nat) : (s.modGroup g f).part x = s.part x := rfl
@[simp] theorem State.part_modSlice (s : State) (i : Nat) (f : Slice → Slice) (x : Nat) : (s.modSlice i f).part x = s.part x := rfl
@[simp] theorem State.part_modFunc (s : State) (i : Nat) (f : Func → Func) (x : Nat) : (s.modFunc i f).part x = s.part x := rfl
@[simp] theorem State.part_modMailbox (s : State) (k : Nat) (f : Mailbox → Mailbox) (x : Nat) : (s.modMailbox k f).part x = s.part x := rfl
@[simp] theorem State.part_modDataPort (s : State) (p : Nat) (f : DataPort → DataPort) (x : Nat) : (s.modDataPort p f).part x = s.part x := rfl
@[simp] theorem State.part_modObj (s : State) (j : Nat) (f : Obj → Obj) (x : Nat) : (s.modObj j f).part x = s.part x := rfl
@[simp] theorem State.part_modRem (s : State) (e n : Nat) (f : RemoteBuf → RemoteBuf) (x : Nat) : (s.modRem e n f).part x = s.part x := rfl
@[simp] theorem State.part_modQueue (s : State) (q : Nat) (f : Queue → Queue) (x : Nat) : (s.modQueue q f).part x = s.part x := rfl
@[simp] theorem State.part_modSync (s : State) (j : Nat) (f : SyncObj → SyncObj) (x : Nat) : (s.modSync j f).part x = s.part x := rfl
@[simp] theorem State.part_modCm (s : State) (f : CoreMem → CoreMem) (x : Nat) : (s.modCm f).part x = s.part x := rfl
@[simp] theorem State.part_modPow (s : State) (f : Power → Power) (x : Nat) : (s.modPow f).part x = s.part x := rfl
@[simp] theorem State.part_modRel (s : State) (f : Rel → Rel) (x : Nat) : (s.modRel f).part x = s.part x := rfl
@[simp] theorem State.part_modSec (s : State) (f : Sec → Sec) (x : Nat) : (s.modSec f).part x = s.part x := rfl
@[simp] theorem State.part_modFab (s : State) (f : Fabric → Fabric) (x : Nat) : (s.modFab f).part x = s.part x := rfl
@[simp] theorem State.part_modPorts (s : State) (f : Ports → Ports) (x : Nat) : (s.modPorts f).part x = s.part x := rfl
@[simp] theorem State.part_modClk (s : State) (f : Clock → Clock) (x : Nat) : (s.modClk f).part x = s.part x := rfl
@[simp] theorem State.part_modPins (s : State) (f : Pins → Pins) (x : Nat) : (s.modPins f).part x = s.part x := rfl
@[simp] theorem State.part_modFloor (s : State) (f : Floor → Floor) (x : Nat) : (s.modFloor f).part x = s.part x := rfl
@[simp] theorem State.part_modMem (s : State) (f : Mem → Mem) (x : Nat) : (s.modMem f).part x = s.part x := rfl
@[simp] theorem State.part_modReq (s : State) (r : Requester) (f : ReqState → ReqState) (x : Nat) : (s.modReq r f).part x = s.part x := rfl
@[simp] theorem State.part_dset (s : State) (k v : Nat) (x : Nat) : (s.dset k v).part x = s.part x := rfl
@[simp] theorem State.part_dadd (s : State) (k a : Nat) (x : Nat) : (s.dadd k a).part x = s.part x := rfl
@[simp] theorem State.part_dadd64 (s : State) (k a : Nat) (x : Nat) : (s.dadd64 k a).part x = s.part x := rfl
@[simp] theorem State.part_dclear (s : State) (k : Nat) (x : Nat) : (s.dclear k).part x = s.part x := rfl
@[simp] theorem State.part_release (s : State) (p : Nat → Bool) (x : Nat) : (s.release p).part x = s.part x := rfl
@[simp] theorem State.part_outs (s : State) (l : List Output) (x : Nat) : (s.outs l).part x = s.part x := by rw [State.outs_eq]; rfl
@[simp] theorem State.part_out (s : State) (o : Output) (x : Nat) : (s.out o).part x = s.part x := State.part_outs s [o] x
@[simp] theorem State.core_modPart (s : State) (n : Nat) (f : Part → Part) (x : Nat) : (s.modPart n f).core x = s.core x := rfl
@[simp] theorem State.core_modCluster (s : State) (c : Nat) (f : Cluster → Cluster) (x : Nat) : (s.modCluster c f).core x = s.core x := rfl
@[simp] theorem State.core_modStream (s : State) (k : Nat) (f : Stream → Stream) (x : Nat) : (s.modStream k f).core x = s.core x := rfl
@[simp] theorem State.core_modGroup (s : State) (g : Nat) (f : Group → Group) (x : Nat) : (s.modGroup g f).core x = s.core x := rfl
@[simp] theorem State.core_modSlice (s : State) (i : Nat) (f : Slice → Slice) (x : Nat) : (s.modSlice i f).core x = s.core x := rfl
@[simp] theorem State.core_modFunc (s : State) (i : Nat) (f : Func → Func) (x : Nat) : (s.modFunc i f).core x = s.core x := rfl
@[simp] theorem State.core_modMailbox (s : State) (k : Nat) (f : Mailbox → Mailbox) (x : Nat) : (s.modMailbox k f).core x = s.core x := rfl
@[simp] theorem State.core_modDataPort (s : State) (p : Nat) (f : DataPort → DataPort) (x : Nat) : (s.modDataPort p f).core x = s.core x := rfl
@[simp] theorem State.core_modObj (s : State) (j : Nat) (f : Obj → Obj) (x : Nat) : (s.modObj j f).core x = s.core x := rfl
@[simp] theorem State.core_modRem (s : State) (e n : Nat) (f : RemoteBuf → RemoteBuf) (x : Nat) : (s.modRem e n f).core x = s.core x := rfl
@[simp] theorem State.core_modQueue (s : State) (q : Nat) (f : Queue → Queue) (x : Nat) : (s.modQueue q f).core x = s.core x := rfl
@[simp] theorem State.core_modSync (s : State) (j : Nat) (f : SyncObj → SyncObj) (x : Nat) : (s.modSync j f).core x = s.core x := rfl
@[simp] theorem State.core_modCm (s : State) (f : CoreMem → CoreMem) (x : Nat) : (s.modCm f).core x = s.core x := rfl
@[simp] theorem State.core_modPow (s : State) (f : Power → Power) (x : Nat) : (s.modPow f).core x = s.core x := rfl
@[simp] theorem State.core_modRel (s : State) (f : Rel → Rel) (x : Nat) : (s.modRel f).core x = s.core x := rfl
@[simp] theorem State.core_modSec (s : State) (f : Sec → Sec) (x : Nat) : (s.modSec f).core x = s.core x := rfl
@[simp] theorem State.core_modFab (s : State) (f : Fabric → Fabric) (x : Nat) : (s.modFab f).core x = s.core x := rfl
@[simp] theorem State.core_modPorts (s : State) (f : Ports → Ports) (x : Nat) : (s.modPorts f).core x = s.core x := rfl
@[simp] theorem State.core_modClk (s : State) (f : Clock → Clock) (x : Nat) : (s.modClk f).core x = s.core x := rfl
@[simp] theorem State.core_modPins (s : State) (f : Pins → Pins) (x : Nat) : (s.modPins f).core x = s.core x := rfl
@[simp] theorem State.core_modFloor (s : State) (f : Floor → Floor) (x : Nat) : (s.modFloor f).core x = s.core x := rfl
@[simp] theorem State.core_modMem (s : State) (f : Mem → Mem) (x : Nat) : (s.modMem f).core x = s.core x := rfl
@[simp] theorem State.core_modReq (s : State) (r : Requester) (f : ReqState → ReqState) (x : Nat) : (s.modReq r f).core x = s.core x := rfl
@[simp] theorem State.core_dset (s : State) (k v : Nat) (x : Nat) : (s.dset k v).core x = s.core x := rfl
@[simp] theorem State.core_dadd (s : State) (k a : Nat) (x : Nat) : (s.dadd k a).core x = s.core x := rfl
@[simp] theorem State.core_dadd64 (s : State) (k a : Nat) (x : Nat) : (s.dadd64 k a).core x = s.core x := rfl
@[simp] theorem State.core_dclear (s : State) (k : Nat) (x : Nat) : (s.dclear k).core x = s.core x := rfl
@[simp] theorem State.core_release (s : State) (p : Nat → Bool) (x : Nat) : (s.release p).core x = s.core x := rfl
@[simp] theorem State.core_outs (s : State) (l : List Output) (x : Nat) : (s.outs l).core x = s.core x := by rw [State.outs_eq]; rfl
@[simp] theorem State.core_out (s : State) (o : Output) (x : Nat) : (s.out o).core x = s.core x := State.core_outs s [o] x
@[simp] theorem State.cluster_modPart (s : State) (n : Nat) (f : Part → Part) (x : Nat) : (s.modPart n f).cluster x = s.cluster x := rfl
@[simp] theorem State.cluster_modCore (s : State) (c : Nat) (f : Core → Core) (x : Nat) : (s.modCore c f).cluster x = s.cluster x := rfl
@[simp] theorem State.cluster_modStream (s : State) (k : Nat) (f : Stream → Stream) (x : Nat) : (s.modStream k f).cluster x = s.cluster x := rfl
@[simp] theorem State.cluster_modGroup (s : State) (g : Nat) (f : Group → Group) (x : Nat) : (s.modGroup g f).cluster x = s.cluster x := rfl
@[simp] theorem State.cluster_modSlice (s : State) (i : Nat) (f : Slice → Slice) (x : Nat) : (s.modSlice i f).cluster x = s.cluster x := rfl
@[simp] theorem State.cluster_modFunc (s : State) (i : Nat) (f : Func → Func) (x : Nat) : (s.modFunc i f).cluster x = s.cluster x := rfl
@[simp] theorem State.cluster_modMailbox (s : State) (k : Nat) (f : Mailbox → Mailbox) (x : Nat) : (s.modMailbox k f).cluster x = s.cluster x := rfl
@[simp] theorem State.cluster_modDataPort (s : State) (p : Nat) (f : DataPort → DataPort) (x : Nat) : (s.modDataPort p f).cluster x = s.cluster x := rfl
@[simp] theorem State.cluster_modObj (s : State) (j : Nat) (f : Obj → Obj) (x : Nat) : (s.modObj j f).cluster x = s.cluster x := rfl
@[simp] theorem State.cluster_modRem (s : State) (e n : Nat) (f : RemoteBuf → RemoteBuf) (x : Nat) : (s.modRem e n f).cluster x = s.cluster x := rfl
@[simp] theorem State.cluster_modQueue (s : State) (q : Nat) (f : Queue → Queue) (x : Nat) : (s.modQueue q f).cluster x = s.cluster x := rfl
@[simp] theorem State.cluster_modSync (s : State) (j : Nat) (f : SyncObj → SyncObj) (x : Nat) : (s.modSync j f).cluster x = s.cluster x := rfl
@[simp] theorem State.cluster_modCm (s : State) (f : CoreMem → CoreMem) (x : Nat) : (s.modCm f).cluster x = s.cluster x := rfl
@[simp] theorem State.cluster_modPow (s : State) (f : Power → Power) (x : Nat) : (s.modPow f).cluster x = s.cluster x := rfl
@[simp] theorem State.cluster_modRel (s : State) (f : Rel → Rel) (x : Nat) : (s.modRel f).cluster x = s.cluster x := rfl
@[simp] theorem State.cluster_modSec (s : State) (f : Sec → Sec) (x : Nat) : (s.modSec f).cluster x = s.cluster x := rfl
@[simp] theorem State.cluster_modFab (s : State) (f : Fabric → Fabric) (x : Nat) : (s.modFab f).cluster x = s.cluster x := rfl
@[simp] theorem State.cluster_modPorts (s : State) (f : Ports → Ports) (x : Nat) : (s.modPorts f).cluster x = s.cluster x := rfl
@[simp] theorem State.cluster_modClk (s : State) (f : Clock → Clock) (x : Nat) : (s.modClk f).cluster x = s.cluster x := rfl
@[simp] theorem State.cluster_modPins (s : State) (f : Pins → Pins) (x : Nat) : (s.modPins f).cluster x = s.cluster x := rfl
@[simp] theorem State.cluster_modFloor (s : State) (f : Floor → Floor) (x : Nat) : (s.modFloor f).cluster x = s.cluster x := rfl
@[simp] theorem State.cluster_modMem (s : State) (f : Mem → Mem) (x : Nat) : (s.modMem f).cluster x = s.cluster x := rfl
@[simp] theorem State.cluster_modReq (s : State) (r : Requester) (f : ReqState → ReqState) (x : Nat) : (s.modReq r f).cluster x = s.cluster x := rfl
@[simp] theorem State.cluster_dset (s : State) (k v : Nat) (x : Nat) : (s.dset k v).cluster x = s.cluster x := rfl
@[simp] theorem State.cluster_dadd (s : State) (k a : Nat) (x : Nat) : (s.dadd k a).cluster x = s.cluster x := rfl
@[simp] theorem State.cluster_dadd64 (s : State) (k a : Nat) (x : Nat) : (s.dadd64 k a).cluster x = s.cluster x := rfl
@[simp] theorem State.cluster_dclear (s : State) (k : Nat) (x : Nat) : (s.dclear k).cluster x = s.cluster x := rfl
@[simp] theorem State.cluster_release (s : State) (p : Nat → Bool) (x : Nat) : (s.release p).cluster x = s.cluster x := rfl
@[simp] theorem State.cluster_outs (s : State) (l : List Output) (x : Nat) : (s.outs l).cluster x = s.cluster x := by rw [State.outs_eq]; rfl
@[simp] theorem State.cluster_out (s : State) (o : Output) (x : Nat) : (s.out o).cluster x = s.cluster x := State.cluster_outs s [o] x
@[simp] theorem State.stream_modPart (s : State) (n : Nat) (f : Part → Part) (x : Nat) : (s.modPart n f).stream x = s.stream x := rfl
@[simp] theorem State.stream_modCore (s : State) (c : Nat) (f : Core → Core) (x : Nat) : (s.modCore c f).stream x = s.stream x := rfl
@[simp] theorem State.stream_modCluster (s : State) (c : Nat) (f : Cluster → Cluster) (x : Nat) : (s.modCluster c f).stream x = s.stream x := rfl
@[simp] theorem State.stream_modGroup (s : State) (g : Nat) (f : Group → Group) (x : Nat) : (s.modGroup g f).stream x = s.stream x := rfl
@[simp] theorem State.stream_modSlice (s : State) (i : Nat) (f : Slice → Slice) (x : Nat) : (s.modSlice i f).stream x = s.stream x := rfl
@[simp] theorem State.stream_modFunc (s : State) (i : Nat) (f : Func → Func) (x : Nat) : (s.modFunc i f).stream x = s.stream x := rfl
@[simp] theorem State.stream_modMailbox (s : State) (k : Nat) (f : Mailbox → Mailbox) (x : Nat) : (s.modMailbox k f).stream x = s.stream x := rfl
@[simp] theorem State.stream_modDataPort (s : State) (p : Nat) (f : DataPort → DataPort) (x : Nat) : (s.modDataPort p f).stream x = s.stream x := rfl
@[simp] theorem State.stream_modObj (s : State) (j : Nat) (f : Obj → Obj) (x : Nat) : (s.modObj j f).stream x = s.stream x := rfl
@[simp] theorem State.stream_modRem (s : State) (e n : Nat) (f : RemoteBuf → RemoteBuf) (x : Nat) : (s.modRem e n f).stream x = s.stream x := rfl
@[simp] theorem State.stream_modQueue (s : State) (q : Nat) (f : Queue → Queue) (x : Nat) : (s.modQueue q f).stream x = s.stream x := rfl
@[simp] theorem State.stream_modSync (s : State) (j : Nat) (f : SyncObj → SyncObj) (x : Nat) : (s.modSync j f).stream x = s.stream x := rfl
@[simp] theorem State.stream_modCm (s : State) (f : CoreMem → CoreMem) (x : Nat) : (s.modCm f).stream x = s.stream x := rfl
@[simp] theorem State.stream_modPow (s : State) (f : Power → Power) (x : Nat) : (s.modPow f).stream x = s.stream x := rfl
@[simp] theorem State.stream_modRel (s : State) (f : Rel → Rel) (x : Nat) : (s.modRel f).stream x = s.stream x := rfl
@[simp] theorem State.stream_modSec (s : State) (f : Sec → Sec) (x : Nat) : (s.modSec f).stream x = s.stream x := rfl
@[simp] theorem State.stream_modFab (s : State) (f : Fabric → Fabric) (x : Nat) : (s.modFab f).stream x = s.stream x := rfl
@[simp] theorem State.stream_modPorts (s : State) (f : Ports → Ports) (x : Nat) : (s.modPorts f).stream x = s.stream x := rfl
@[simp] theorem State.stream_modClk (s : State) (f : Clock → Clock) (x : Nat) : (s.modClk f).stream x = s.stream x := rfl
@[simp] theorem State.stream_modPins (s : State) (f : Pins → Pins) (x : Nat) : (s.modPins f).stream x = s.stream x := rfl
@[simp] theorem State.stream_modFloor (s : State) (f : Floor → Floor) (x : Nat) : (s.modFloor f).stream x = s.stream x := rfl
@[simp] theorem State.stream_modMem (s : State) (f : Mem → Mem) (x : Nat) : (s.modMem f).stream x = s.stream x := rfl
@[simp] theorem State.stream_modReq (s : State) (r : Requester) (f : ReqState → ReqState) (x : Nat) : (s.modReq r f).stream x = s.stream x := rfl
@[simp] theorem State.stream_dset (s : State) (k v : Nat) (x : Nat) : (s.dset k v).stream x = s.stream x := rfl
@[simp] theorem State.stream_dadd (s : State) (k a : Nat) (x : Nat) : (s.dadd k a).stream x = s.stream x := rfl
@[simp] theorem State.stream_dadd64 (s : State) (k a : Nat) (x : Nat) : (s.dadd64 k a).stream x = s.stream x := rfl
@[simp] theorem State.stream_dclear (s : State) (k : Nat) (x : Nat) : (s.dclear k).stream x = s.stream x := rfl
@[simp] theorem State.stream_release (s : State) (p : Nat → Bool) (x : Nat) : (s.release p).stream x = s.stream x := rfl
@[simp] theorem State.stream_outs (s : State) (l : List Output) (x : Nat) : (s.outs l).stream x = s.stream x := by rw [State.outs_eq]; rfl
@[simp] theorem State.stream_out (s : State) (o : Output) (x : Nat) : (s.out o).stream x = s.stream x := State.stream_outs s [o] x
@[simp] theorem State.rgroup_modPart (s : State) (n : Nat) (f : Part → Part) (x : Nat) : (s.modPart n f).rgroup x = s.rgroup x := rfl
@[simp] theorem State.rgroup_modCore (s : State) (c : Nat) (f : Core → Core) (x : Nat) : (s.modCore c f).rgroup x = s.rgroup x := rfl
@[simp] theorem State.rgroup_modCluster (s : State) (c : Nat) (f : Cluster → Cluster) (x : Nat) : (s.modCluster c f).rgroup x = s.rgroup x := rfl
@[simp] theorem State.rgroup_modStream (s : State) (k : Nat) (f : Stream → Stream) (x : Nat) : (s.modStream k f).rgroup x = s.rgroup x := rfl
@[simp] theorem State.rgroup_modSlice (s : State) (i : Nat) (f : Slice → Slice) (x : Nat) : (s.modSlice i f).rgroup x = s.rgroup x := rfl
@[simp] theorem State.rgroup_modFunc (s : State) (i : Nat) (f : Func → Func) (x : Nat) : (s.modFunc i f).rgroup x = s.rgroup x := rfl
@[simp] theorem State.rgroup_modMailbox (s : State) (k : Nat) (f : Mailbox → Mailbox) (x : Nat) : (s.modMailbox k f).rgroup x = s.rgroup x := rfl
@[simp] theorem State.rgroup_modDataPort (s : State) (p : Nat) (f : DataPort → DataPort) (x : Nat) : (s.modDataPort p f).rgroup x = s.rgroup x := rfl
@[simp] theorem State.rgroup_modObj (s : State) (j : Nat) (f : Obj → Obj) (x : Nat) : (s.modObj j f).rgroup x = s.rgroup x := rfl
@[simp] theorem State.rgroup_modRem (s : State) (e n : Nat) (f : RemoteBuf → RemoteBuf) (x : Nat) : (s.modRem e n f).rgroup x = s.rgroup x := rfl
@[simp] theorem State.rgroup_modQueue (s : State) (q : Nat) (f : Queue → Queue) (x : Nat) : (s.modQueue q f).rgroup x = s.rgroup x := rfl
@[simp] theorem State.rgroup_modSync (s : State) (j : Nat) (f : SyncObj → SyncObj) (x : Nat) : (s.modSync j f).rgroup x = s.rgroup x := rfl
@[simp] theorem State.rgroup_modCm (s : State) (f : CoreMem → CoreMem) (x : Nat) : (s.modCm f).rgroup x = s.rgroup x := rfl
@[simp] theorem State.rgroup_modPow (s : State) (f : Power → Power) (x : Nat) : (s.modPow f).rgroup x = s.rgroup x := rfl
@[simp] theorem State.rgroup_modRel (s : State) (f : Rel → Rel) (x : Nat) : (s.modRel f).rgroup x = s.rgroup x := rfl
@[simp] theorem State.rgroup_modSec (s : State) (f : Sec → Sec) (x : Nat) : (s.modSec f).rgroup x = s.rgroup x := rfl
@[simp] theorem State.rgroup_modFab (s : State) (f : Fabric → Fabric) (x : Nat) : (s.modFab f).rgroup x = s.rgroup x := rfl
@[simp] theorem State.rgroup_modPorts (s : State) (f : Ports → Ports) (x : Nat) : (s.modPorts f).rgroup x = s.rgroup x := rfl
@[simp] theorem State.rgroup_modClk (s : State) (f : Clock → Clock) (x : Nat) : (s.modClk f).rgroup x = s.rgroup x := rfl
@[simp] theorem State.rgroup_modPins (s : State) (f : Pins → Pins) (x : Nat) : (s.modPins f).rgroup x = s.rgroup x := rfl
@[simp] theorem State.rgroup_modFloor (s : State) (f : Floor → Floor) (x : Nat) : (s.modFloor f).rgroup x = s.rgroup x := rfl
@[simp] theorem State.rgroup_modMem (s : State) (f : Mem → Mem) (x : Nat) : (s.modMem f).rgroup x = s.rgroup x := rfl
@[simp] theorem State.rgroup_modReq (s : State) (r : Requester) (f : ReqState → ReqState) (x : Nat) : (s.modReq r f).rgroup x = s.rgroup x := rfl
@[simp] theorem State.rgroup_dset (s : State) (k v : Nat) (x : Nat) : (s.dset k v).rgroup x = s.rgroup x := rfl
@[simp] theorem State.rgroup_dadd (s : State) (k a : Nat) (x : Nat) : (s.dadd k a).rgroup x = s.rgroup x := rfl
@[simp] theorem State.rgroup_dadd64 (s : State) (k a : Nat) (x : Nat) : (s.dadd64 k a).rgroup x = s.rgroup x := rfl
@[simp] theorem State.rgroup_dclear (s : State) (k : Nat) (x : Nat) : (s.dclear k).rgroup x = s.rgroup x := rfl
@[simp] theorem State.rgroup_release (s : State) (p : Nat → Bool) (x : Nat) : (s.release p).rgroup x = s.rgroup x := rfl
@[simp] theorem State.rgroup_outs (s : State) (l : List Output) (x : Nat) : (s.outs l).rgroup x = s.rgroup x := by rw [State.outs_eq]; rfl
@[simp] theorem State.rgroup_out (s : State) (o : Output) (x : Nat) : (s.out o).rgroup x = s.rgroup x := State.rgroup_outs s [o] x
@[simp] theorem State.slice_modPart (s : State) (n : Nat) (f : Part → Part) (x : Nat) : (s.modPart n f).slice x = s.slice x := rfl
@[simp] theorem State.slice_modCore (s : State) (c : Nat) (f : Core → Core) (x : Nat) : (s.modCore c f).slice x = s.slice x := rfl
@[simp] theorem State.slice_modCluster (s : State) (c : Nat) (f : Cluster → Cluster) (x : Nat) : (s.modCluster c f).slice x = s.slice x := rfl
@[simp] theorem State.slice_modStream (s : State) (k : Nat) (f : Stream → Stream) (x : Nat) : (s.modStream k f).slice x = s.slice x := rfl
@[simp] theorem State.slice_modGroup (s : State) (g : Nat) (f : Group → Group) (x : Nat) : (s.modGroup g f).slice x = s.slice x := rfl
@[simp] theorem State.slice_modFunc (s : State) (i : Nat) (f : Func → Func) (x : Nat) : (s.modFunc i f).slice x = s.slice x := rfl
@[simp] theorem State.slice_modMailbox (s : State) (k : Nat) (f : Mailbox → Mailbox) (x : Nat) : (s.modMailbox k f).slice x = s.slice x := rfl
@[simp] theorem State.slice_modDataPort (s : State) (p : Nat) (f : DataPort → DataPort) (x : Nat) : (s.modDataPort p f).slice x = s.slice x := rfl
@[simp] theorem State.slice_modObj (s : State) (j : Nat) (f : Obj → Obj) (x : Nat) : (s.modObj j f).slice x = s.slice x := rfl
@[simp] theorem State.slice_modRem (s : State) (e n : Nat) (f : RemoteBuf → RemoteBuf) (x : Nat) : (s.modRem e n f).slice x = s.slice x := rfl
@[simp] theorem State.slice_modQueue (s : State) (q : Nat) (f : Queue → Queue) (x : Nat) : (s.modQueue q f).slice x = s.slice x := rfl
@[simp] theorem State.slice_modSync (s : State) (j : Nat) (f : SyncObj → SyncObj) (x : Nat) : (s.modSync j f).slice x = s.slice x := rfl
@[simp] theorem State.slice_modCm (s : State) (f : CoreMem → CoreMem) (x : Nat) : (s.modCm f).slice x = s.slice x := rfl
@[simp] theorem State.slice_modPow (s : State) (f : Power → Power) (x : Nat) : (s.modPow f).slice x = s.slice x := rfl
@[simp] theorem State.slice_modRel (s : State) (f : Rel → Rel) (x : Nat) : (s.modRel f).slice x = s.slice x := rfl
@[simp] theorem State.slice_modSec (s : State) (f : Sec → Sec) (x : Nat) : (s.modSec f).slice x = s.slice x := rfl
@[simp] theorem State.slice_modFab (s : State) (f : Fabric → Fabric) (x : Nat) : (s.modFab f).slice x = s.slice x := rfl
@[simp] theorem State.slice_modPorts (s : State) (f : Ports → Ports) (x : Nat) : (s.modPorts f).slice x = s.slice x := rfl
@[simp] theorem State.slice_modClk (s : State) (f : Clock → Clock) (x : Nat) : (s.modClk f).slice x = s.slice x := rfl
@[simp] theorem State.slice_modPins (s : State) (f : Pins → Pins) (x : Nat) : (s.modPins f).slice x = s.slice x := rfl
@[simp] theorem State.slice_modFloor (s : State) (f : Floor → Floor) (x : Nat) : (s.modFloor f).slice x = s.slice x := rfl
@[simp] theorem State.slice_modMem (s : State) (f : Mem → Mem) (x : Nat) : (s.modMem f).slice x = s.slice x := rfl
@[simp] theorem State.slice_modReq (s : State) (r : Requester) (f : ReqState → ReqState) (x : Nat) : (s.modReq r f).slice x = s.slice x := rfl
@[simp] theorem State.slice_dset (s : State) (k v : Nat) (x : Nat) : (s.dset k v).slice x = s.slice x := rfl
@[simp] theorem State.slice_dadd (s : State) (k a : Nat) (x : Nat) : (s.dadd k a).slice x = s.slice x := rfl
@[simp] theorem State.slice_dadd64 (s : State) (k a : Nat) (x : Nat) : (s.dadd64 k a).slice x = s.slice x := rfl
@[simp] theorem State.slice_dclear (s : State) (k : Nat) (x : Nat) : (s.dclear k).slice x = s.slice x := rfl
@[simp] theorem State.slice_release (s : State) (p : Nat → Bool) (x : Nat) : (s.release p).slice x = s.slice x := rfl
@[simp] theorem State.slice_outs (s : State) (l : List Output) (x : Nat) : (s.outs l).slice x = s.slice x := by rw [State.outs_eq]; rfl
@[simp] theorem State.slice_out (s : State) (o : Output) (x : Nat) : (s.out o).slice x = s.slice x := State.slice_outs s [o] x
@[simp] theorem State.func_modPart (s : State) (n : Nat) (f : Part → Part) (x : Nat) : (s.modPart n f).func x = s.func x := rfl
@[simp] theorem State.func_modCore (s : State) (c : Nat) (f : Core → Core) (x : Nat) : (s.modCore c f).func x = s.func x := rfl
@[simp] theorem State.func_modCluster (s : State) (c : Nat) (f : Cluster → Cluster) (x : Nat) : (s.modCluster c f).func x = s.func x := rfl
@[simp] theorem State.func_modStream (s : State) (k : Nat) (f : Stream → Stream) (x : Nat) : (s.modStream k f).func x = s.func x := rfl
@[simp] theorem State.func_modGroup (s : State) (g : Nat) (f : Group → Group) (x : Nat) : (s.modGroup g f).func x = s.func x := rfl
@[simp] theorem State.func_modSlice (s : State) (i : Nat) (f : Slice → Slice) (x : Nat) : (s.modSlice i f).func x = s.func x := rfl
@[simp] theorem State.func_modMailbox (s : State) (k : Nat) (f : Mailbox → Mailbox) (x : Nat) : (s.modMailbox k f).func x = s.func x := rfl
@[simp] theorem State.func_modDataPort (s : State) (p : Nat) (f : DataPort → DataPort) (x : Nat) : (s.modDataPort p f).func x = s.func x := rfl
@[simp] theorem State.func_modObj (s : State) (j : Nat) (f : Obj → Obj) (x : Nat) : (s.modObj j f).func x = s.func x := rfl
@[simp] theorem State.func_modRem (s : State) (e n : Nat) (f : RemoteBuf → RemoteBuf) (x : Nat) : (s.modRem e n f).func x = s.func x := rfl
@[simp] theorem State.func_modQueue (s : State) (q : Nat) (f : Queue → Queue) (x : Nat) : (s.modQueue q f).func x = s.func x := rfl
@[simp] theorem State.func_modSync (s : State) (j : Nat) (f : SyncObj → SyncObj) (x : Nat) : (s.modSync j f).func x = s.func x := rfl
@[simp] theorem State.func_modCm (s : State) (f : CoreMem → CoreMem) (x : Nat) : (s.modCm f).func x = s.func x := rfl
@[simp] theorem State.func_modPow (s : State) (f : Power → Power) (x : Nat) : (s.modPow f).func x = s.func x := rfl
@[simp] theorem State.func_modRel (s : State) (f : Rel → Rel) (x : Nat) : (s.modRel f).func x = s.func x := rfl
@[simp] theorem State.func_modSec (s : State) (f : Sec → Sec) (x : Nat) : (s.modSec f).func x = s.func x := rfl
@[simp] theorem State.func_modFab (s : State) (f : Fabric → Fabric) (x : Nat) : (s.modFab f).func x = s.func x := rfl
@[simp] theorem State.func_modClk (s : State) (f : Clock → Clock) (x : Nat) : (s.modClk f).func x = s.func x := rfl
@[simp] theorem State.func_modPins (s : State) (f : Pins → Pins) (x : Nat) : (s.modPins f).func x = s.func x := rfl
@[simp] theorem State.func_modFloor (s : State) (f : Floor → Floor) (x : Nat) : (s.modFloor f).func x = s.func x := rfl
@[simp] theorem State.func_modMem (s : State) (f : Mem → Mem) (x : Nat) : (s.modMem f).func x = s.func x := rfl
@[simp] theorem State.func_modReq (s : State) (r : Requester) (f : ReqState → ReqState) (x : Nat) : (s.modReq r f).func x = s.func x := rfl
@[simp] theorem State.func_dset (s : State) (k v : Nat) (x : Nat) : (s.dset k v).func x = s.func x := rfl
@[simp] theorem State.func_dadd (s : State) (k a : Nat) (x : Nat) : (s.dadd k a).func x = s.func x := rfl
@[simp] theorem State.func_dadd64 (s : State) (k a : Nat) (x : Nat) : (s.dadd64 k a).func x = s.func x := rfl
@[simp] theorem State.func_dclear (s : State) (k : Nat) (x : Nat) : (s.dclear k).func x = s.func x := rfl
@[simp] theorem State.func_release (s : State) (p : Nat → Bool) (x : Nat) : (s.release p).func x = s.func x := rfl
@[simp] theorem State.func_outs (s : State) (l : List Output) (x : Nat) : (s.outs l).func x = s.func x := by rw [State.outs_eq]; rfl
@[simp] theorem State.func_out (s : State) (o : Output) (x : Nat) : (s.out o).func x = s.func x := State.func_outs s [o] x
@[simp] theorem State.mailbox_modPart (s : State) (n : Nat) (f : Part → Part) (x : Nat) : (s.modPart n f).mailbox x = s.mailbox x := rfl
@[simp] theorem State.mailbox_modCore (s : State) (c : Nat) (f : Core → Core) (x : Nat) : (s.modCore c f).mailbox x = s.mailbox x := rfl
@[simp] theorem State.mailbox_modCluster (s : State) (c : Nat) (f : Cluster → Cluster) (x : Nat) : (s.modCluster c f).mailbox x = s.mailbox x := rfl
@[simp] theorem State.mailbox_modStream (s : State) (k : Nat) (f : Stream → Stream) (x : Nat) : (s.modStream k f).mailbox x = s.mailbox x := rfl
@[simp] theorem State.mailbox_modGroup (s : State) (g : Nat) (f : Group → Group) (x : Nat) : (s.modGroup g f).mailbox x = s.mailbox x := rfl
@[simp] theorem State.mailbox_modSlice (s : State) (i : Nat) (f : Slice → Slice) (x : Nat) : (s.modSlice i f).mailbox x = s.mailbox x := rfl
@[simp] theorem State.mailbox_modFunc (s : State) (i : Nat) (f : Func → Func) (x : Nat) : (s.modFunc i f).mailbox x = s.mailbox x := rfl
@[simp] theorem State.mailbox_modDataPort (s : State) (p : Nat) (f : DataPort → DataPort) (x : Nat) : (s.modDataPort p f).mailbox x = s.mailbox x := rfl
@[simp] theorem State.mailbox_modObj (s : State) (j : Nat) (f : Obj → Obj) (x : Nat) : (s.modObj j f).mailbox x = s.mailbox x := rfl
@[simp] theorem State.mailbox_modRem (s : State) (e n : Nat) (f : RemoteBuf → RemoteBuf) (x : Nat) : (s.modRem e n f).mailbox x = s.mailbox x := rfl
@[simp] theorem State.mailbox_modQueue (s : State) (q : Nat) (f : Queue → Queue) (x : Nat) : (s.modQueue q f).mailbox x = s.mailbox x := rfl
@[simp] theorem State.mailbox_modSync (s : State) (j : Nat) (f : SyncObj → SyncObj) (x : Nat) : (s.modSync j f).mailbox x = s.mailbox x := rfl
@[simp] theorem State.mailbox_modCm (s : State) (f : CoreMem → CoreMem) (x : Nat) : (s.modCm f).mailbox x = s.mailbox x := rfl
@[simp] theorem State.mailbox_modPow (s : State) (f : Power → Power) (x : Nat) : (s.modPow f).mailbox x = s.mailbox x := rfl
@[simp] theorem State.mailbox_modRel (s : State) (f : Rel → Rel) (x : Nat) : (s.modRel f).mailbox x = s.mailbox x := rfl
@[simp] theorem State.mailbox_modSec (s : State) (f : Sec → Sec) (x : Nat) : (s.modSec f).mailbox x = s.mailbox x := rfl
@[simp] theorem State.mailbox_modFab (s : State) (f : Fabric → Fabric) (x : Nat) : (s.modFab f).mailbox x = s.mailbox x := rfl
@[simp] theorem State.mailbox_modClk (s : State) (f : Clock → Clock) (x : Nat) : (s.modClk f).mailbox x = s.mailbox x := rfl
@[simp] theorem State.mailbox_modPins (s : State) (f : Pins → Pins) (x : Nat) : (s.modPins f).mailbox x = s.mailbox x := rfl
@[simp] theorem State.mailbox_modFloor (s : State) (f : Floor → Floor) (x : Nat) : (s.modFloor f).mailbox x = s.mailbox x := rfl
@[simp] theorem State.mailbox_modMem (s : State) (f : Mem → Mem) (x : Nat) : (s.modMem f).mailbox x = s.mailbox x := rfl
@[simp] theorem State.mailbox_modReq (s : State) (r : Requester) (f : ReqState → ReqState) (x : Nat) : (s.modReq r f).mailbox x = s.mailbox x := rfl
@[simp] theorem State.mailbox_dset (s : State) (k v : Nat) (x : Nat) : (s.dset k v).mailbox x = s.mailbox x := rfl
@[simp] theorem State.mailbox_dadd (s : State) (k a : Nat) (x : Nat) : (s.dadd k a).mailbox x = s.mailbox x := rfl
@[simp] theorem State.mailbox_dadd64 (s : State) (k a : Nat) (x : Nat) : (s.dadd64 k a).mailbox x = s.mailbox x := rfl
@[simp] theorem State.mailbox_dclear (s : State) (k : Nat) (x : Nat) : (s.dclear k).mailbox x = s.mailbox x := rfl
@[simp] theorem State.mailbox_release (s : State) (p : Nat → Bool) (x : Nat) : (s.release p).mailbox x = s.mailbox x := rfl
@[simp] theorem State.mailbox_outs (s : State) (l : List Output) (x : Nat) : (s.outs l).mailbox x = s.mailbox x := by rw [State.outs_eq]; rfl
@[simp] theorem State.mailbox_out (s : State) (o : Output) (x : Nat) : (s.out o).mailbox x = s.mailbox x := State.mailbox_outs s [o] x
@[simp] theorem State.dataPort_modPart (s : State) (n : Nat) (f : Part → Part) (x : Nat) : (s.modPart n f).dataPort x = s.dataPort x := rfl
@[simp] theorem State.dataPort_modCore (s : State) (c : Nat) (f : Core → Core) (x : Nat) : (s.modCore c f).dataPort x = s.dataPort x := rfl
@[simp] theorem State.dataPort_modCluster (s : State) (c : Nat) (f : Cluster → Cluster) (x : Nat) : (s.modCluster c f).dataPort x = s.dataPort x := rfl
@[simp] theorem State.dataPort_modStream (s : State) (k : Nat) (f : Stream → Stream) (x : Nat) : (s.modStream k f).dataPort x = s.dataPort x := rfl
@[simp] theorem State.dataPort_modGroup (s : State) (g : Nat) (f : Group → Group) (x : Nat) : (s.modGroup g f).dataPort x = s.dataPort x := rfl
@[simp] theorem State.dataPort_modSlice (s : State) (i : Nat) (f : Slice → Slice) (x : Nat) : (s.modSlice i f).dataPort x = s.dataPort x := rfl
@[simp] theorem State.dataPort_modFunc (s : State) (i : Nat) (f : Func → Func) (x : Nat) : (s.modFunc i f).dataPort x = s.dataPort x := rfl
@[simp] theorem State.dataPort_modMailbox (s : State) (k : Nat) (f : Mailbox → Mailbox) (x : Nat) : (s.modMailbox k f).dataPort x = s.dataPort x := rfl
@[simp] theorem State.dataPort_modObj (s : State) (j : Nat) (f : Obj → Obj) (x : Nat) : (s.modObj j f).dataPort x = s.dataPort x := rfl
@[simp] theorem State.dataPort_modRem (s : State) (e n : Nat) (f : RemoteBuf → RemoteBuf) (x : Nat) : (s.modRem e n f).dataPort x = s.dataPort x := rfl
@[simp] theorem State.dataPort_modQueue (s : State) (q : Nat) (f : Queue → Queue) (x : Nat) : (s.modQueue q f).dataPort x = s.dataPort x := rfl
@[simp] theorem State.dataPort_modSync (s : State) (j : Nat) (f : SyncObj → SyncObj) (x : Nat) : (s.modSync j f).dataPort x = s.dataPort x := rfl
@[simp] theorem State.dataPort_modCm (s : State) (f : CoreMem → CoreMem) (x : Nat) : (s.modCm f).dataPort x = s.dataPort x := rfl
@[simp] theorem State.dataPort_modPow (s : State) (f : Power → Power) (x : Nat) : (s.modPow f).dataPort x = s.dataPort x := rfl
@[simp] theorem State.dataPort_modRel (s : State) (f : Rel → Rel) (x : Nat) : (s.modRel f).dataPort x = s.dataPort x := rfl
@[simp] theorem State.dataPort_modSec (s : State) (f : Sec → Sec) (x : Nat) : (s.modSec f).dataPort x = s.dataPort x := rfl
@[simp] theorem State.dataPort_modFab (s : State) (f : Fabric → Fabric) (x : Nat) : (s.modFab f).dataPort x = s.dataPort x := rfl
@[simp] theorem State.dataPort_modClk (s : State) (f : Clock → Clock) (x : Nat) : (s.modClk f).dataPort x = s.dataPort x := rfl
@[simp] theorem State.dataPort_modPins (s : State) (f : Pins → Pins) (x : Nat) : (s.modPins f).dataPort x = s.dataPort x := rfl
@[simp] theorem State.dataPort_modFloor (s : State) (f : Floor → Floor) (x : Nat) : (s.modFloor f).dataPort x = s.dataPort x := rfl
@[simp] theorem State.dataPort_modMem (s : State) (f : Mem → Mem) (x : Nat) : (s.modMem f).dataPort x = s.dataPort x := rfl
@[simp] theorem State.dataPort_modReq (s : State) (r : Requester) (f : ReqState → ReqState) (x : Nat) : (s.modReq r f).dataPort x = s.dataPort x := rfl
@[simp] theorem State.dataPort_dset (s : State) (k v : Nat) (x : Nat) : (s.dset k v).dataPort x = s.dataPort x := rfl
@[simp] theorem State.dataPort_dadd (s : State) (k a : Nat) (x : Nat) : (s.dadd k a).dataPort x = s.dataPort x := rfl
@[simp] theorem State.dataPort_dadd64 (s : State) (k a : Nat) (x : Nat) : (s.dadd64 k a).dataPort x = s.dataPort x := rfl
@[simp] theorem State.dataPort_dclear (s : State) (k : Nat) (x : Nat) : (s.dclear k).dataPort x = s.dataPort x := rfl
@[simp] theorem State.dataPort_release (s : State) (p : Nat → Bool) (x : Nat) : (s.release p).dataPort x = s.dataPort x := rfl
@[simp] theorem State.dataPort_outs (s : State) (l : List Output) (x : Nat) : (s.outs l).dataPort x = s.dataPort x := by rw [State.outs_eq]; rfl
@[simp] theorem State.dataPort_out (s : State) (o : Output) (x : Nat) : (s.out o).dataPort x = s.dataPort x := State.dataPort_outs s [o] x
@[simp] theorem State.obj_modPart (s : State) (n : Nat) (f : Part → Part) (x : Nat) : (s.modPart n f).obj x = s.obj x := rfl
@[simp] theorem State.obj_modCore (s : State) (c : Nat) (f : Core → Core) (x : Nat) : (s.modCore c f).obj x = s.obj x := rfl
@[simp] theorem State.obj_modCluster (s : State) (c : Nat) (f : Cluster → Cluster) (x : Nat) : (s.modCluster c f).obj x = s.obj x := rfl
@[simp] theorem State.obj_modStream (s : State) (k : Nat) (f : Stream → Stream) (x : Nat) : (s.modStream k f).obj x = s.obj x := rfl
@[simp] theorem State.obj_modGroup (s : State) (g : Nat) (f : Group → Group) (x : Nat) : (s.modGroup g f).obj x = s.obj x := rfl
@[simp] theorem State.obj_modSlice (s : State) (i : Nat) (f : Slice → Slice) (x : Nat) : (s.modSlice i f).obj x = s.obj x := rfl
@[simp] theorem State.obj_modFunc (s : State) (i : Nat) (f : Func → Func) (x : Nat) : (s.modFunc i f).obj x = s.obj x := rfl
@[simp] theorem State.obj_modMailbox (s : State) (k : Nat) (f : Mailbox → Mailbox) (x : Nat) : (s.modMailbox k f).obj x = s.obj x := rfl
@[simp] theorem State.obj_modDataPort (s : State) (p : Nat) (f : DataPort → DataPort) (x : Nat) : (s.modDataPort p f).obj x = s.obj x := rfl
@[simp] theorem State.obj_modRem (s : State) (e n : Nat) (f : RemoteBuf → RemoteBuf) (x : Nat) : (s.modRem e n f).obj x = s.obj x := rfl
@[simp] theorem State.obj_modQueue (s : State) (q : Nat) (f : Queue → Queue) (x : Nat) : (s.modQueue q f).obj x = s.obj x := rfl
@[simp] theorem State.obj_modSync (s : State) (j : Nat) (f : SyncObj → SyncObj) (x : Nat) : (s.modSync j f).obj x = s.obj x := rfl
@[simp] theorem State.obj_modCm (s : State) (f : CoreMem → CoreMem) (x : Nat) : (s.modCm f).obj x = s.obj x := rfl
@[simp] theorem State.obj_modPow (s : State) (f : Power → Power) (x : Nat) : (s.modPow f).obj x = s.obj x := rfl
@[simp] theorem State.obj_modRel (s : State) (f : Rel → Rel) (x : Nat) : (s.modRel f).obj x = s.obj x := rfl
@[simp] theorem State.obj_modSec (s : State) (f : Sec → Sec) (x : Nat) : (s.modSec f).obj x = s.obj x := rfl
@[simp] theorem State.obj_modFab (s : State) (f : Fabric → Fabric) (x : Nat) : (s.modFab f).obj x = s.obj x := rfl
@[simp] theorem State.obj_modClk (s : State) (f : Clock → Clock) (x : Nat) : (s.modClk f).obj x = s.obj x := rfl
@[simp] theorem State.obj_modPins (s : State) (f : Pins → Pins) (x : Nat) : (s.modPins f).obj x = s.obj x := rfl
@[simp] theorem State.obj_modFloor (s : State) (f : Floor → Floor) (x : Nat) : (s.modFloor f).obj x = s.obj x := rfl
@[simp] theorem State.obj_modMem (s : State) (f : Mem → Mem) (x : Nat) : (s.modMem f).obj x = s.obj x := rfl
@[simp] theorem State.obj_modReq (s : State) (r : Requester) (f : ReqState → ReqState) (x : Nat) : (s.modReq r f).obj x = s.obj x := rfl
@[simp] theorem State.obj_dset (s : State) (k v : Nat) (x : Nat) : (s.dset k v).obj x = s.obj x := rfl
@[simp] theorem State.obj_dadd (s : State) (k a : Nat) (x : Nat) : (s.dadd k a).obj x = s.obj x := rfl
@[simp] theorem State.obj_dadd64 (s : State) (k a : Nat) (x : Nat) : (s.dadd64 k a).obj x = s.obj x := rfl
@[simp] theorem State.obj_dclear (s : State) (k : Nat) (x : Nat) : (s.dclear k).obj x = s.obj x := rfl
@[simp] theorem State.obj_release (s : State) (p : Nat → Bool) (x : Nat) : (s.release p).obj x = s.obj x := rfl
@[simp] theorem State.obj_outs (s : State) (l : List Output) (x : Nat) : (s.outs l).obj x = s.obj x := by rw [State.outs_eq]; rfl
@[simp] theorem State.obj_out (s : State) (o : Output) (x : Nat) : (s.out o).obj x = s.obj x := State.obj_outs s [o] x
@[simp] theorem State.sync_modPart (s : State) (n : Nat) (f : Part → Part) (x : Nat) : (s.modPart n f).sync x = s.sync x := rfl
@[simp] theorem State.sync_modCore (s : State) (c : Nat) (f : Core → Core) (x : Nat) : (s.modCore c f).sync x = s.sync x := rfl
@[simp] theorem State.sync_modCluster (s : State) (c : Nat) (f : Cluster → Cluster) (x : Nat) : (s.modCluster c f).sync x = s.sync x := rfl
@[simp] theorem State.sync_modStream (s : State) (k : Nat) (f : Stream → Stream) (x : Nat) : (s.modStream k f).sync x = s.sync x := rfl
@[simp] theorem State.sync_modGroup (s : State) (g : Nat) (f : Group → Group) (x : Nat) : (s.modGroup g f).sync x = s.sync x := rfl
@[simp] theorem State.sync_modSlice (s : State) (i : Nat) (f : Slice → Slice) (x : Nat) : (s.modSlice i f).sync x = s.sync x := rfl
@[simp] theorem State.sync_modFunc (s : State) (i : Nat) (f : Func → Func) (x : Nat) : (s.modFunc i f).sync x = s.sync x := rfl
@[simp] theorem State.sync_modMailbox (s : State) (k : Nat) (f : Mailbox → Mailbox) (x : Nat) : (s.modMailbox k f).sync x = s.sync x := rfl
@[simp] theorem State.sync_modDataPort (s : State) (p : Nat) (f : DataPort → DataPort) (x : Nat) : (s.modDataPort p f).sync x = s.sync x := rfl
@[simp] theorem State.sync_modObj (s : State) (j : Nat) (f : Obj → Obj) (x : Nat) : (s.modObj j f).sync x = s.sync x := rfl
@[simp] theorem State.sync_modRem (s : State) (e n : Nat) (f : RemoteBuf → RemoteBuf) (x : Nat) : (s.modRem e n f).sync x = s.sync x := rfl
@[simp] theorem State.sync_modQueue (s : State) (q : Nat) (f : Queue → Queue) (x : Nat) : (s.modQueue q f).sync x = s.sync x := rfl
@[simp] theorem State.sync_modCm (s : State) (f : CoreMem → CoreMem) (x : Nat) : (s.modCm f).sync x = s.sync x := rfl
@[simp] theorem State.sync_modPow (s : State) (f : Power → Power) (x : Nat) : (s.modPow f).sync x = s.sync x := rfl
@[simp] theorem State.sync_modRel (s : State) (f : Rel → Rel) (x : Nat) : (s.modRel f).sync x = s.sync x := rfl
@[simp] theorem State.sync_modSec (s : State) (f : Sec → Sec) (x : Nat) : (s.modSec f).sync x = s.sync x := rfl
@[simp] theorem State.sync_modFab (s : State) (f : Fabric → Fabric) (x : Nat) : (s.modFab f).sync x = s.sync x := rfl
@[simp] theorem State.sync_modPorts (s : State) (f : Ports → Ports) (x : Nat) : (s.modPorts f).sync x = s.sync x := rfl
@[simp] theorem State.sync_modClk (s : State) (f : Clock → Clock) (x : Nat) : (s.modClk f).sync x = s.sync x := rfl
@[simp] theorem State.sync_modPins (s : State) (f : Pins → Pins) (x : Nat) : (s.modPins f).sync x = s.sync x := rfl
@[simp] theorem State.sync_modFloor (s : State) (f : Floor → Floor) (x : Nat) : (s.modFloor f).sync x = s.sync x := rfl
@[simp] theorem State.sync_modMem (s : State) (f : Mem → Mem) (x : Nat) : (s.modMem f).sync x = s.sync x := rfl
@[simp] theorem State.sync_modReq (s : State) (r : Requester) (f : ReqState → ReqState) (x : Nat) : (s.modReq r f).sync x = s.sync x := rfl
@[simp] theorem State.sync_dset (s : State) (k v : Nat) (x : Nat) : (s.dset k v).sync x = s.sync x := rfl
@[simp] theorem State.sync_dadd (s : State) (k a : Nat) (x : Nat) : (s.dadd k a).sync x = s.sync x := rfl
@[simp] theorem State.sync_dadd64 (s : State) (k a : Nat) (x : Nat) : (s.dadd64 k a).sync x = s.sync x := rfl
@[simp] theorem State.sync_dclear (s : State) (k : Nat) (x : Nat) : (s.dclear k).sync x = s.sync x := rfl
@[simp] theorem State.sync_release (s : State) (p : Nat → Bool) (x : Nat) : (s.release p).sync x = s.sync x := rfl
@[simp] theorem State.sync_outs (s : State) (l : List Output) (x : Nat) : (s.outs l).sync x = s.sync x := by rw [State.outs_eq]; rfl
@[simp] theorem State.sync_out (s : State) (o : Output) (x : Nat) : (s.out o).sync x = s.sync x := State.sync_outs s [o] x
@[simp] theorem State.dget_modPart (s : State) (n : Nat) (f : Part → Part) (x : Nat) : (s.modPart n f).dget x = s.dget x := rfl
@[simp] theorem State.dget_modCore (s : State) (c : Nat) (f : Core → Core) (x : Nat) : (s.modCore c f).dget x = s.dget x := rfl
@[simp] theorem State.dget_modCluster (s : State) (c : Nat) (f : Cluster → Cluster) (x : Nat) : (s.modCluster c f).dget x = s.dget x := rfl
@[simp] theorem State.dget_modStream (s : State) (k : Nat) (f : Stream → Stream) (x : Nat) : (s.modStream k f).dget x = s.dget x := rfl
@[simp] theorem State.dget_modGroup (s : State) (g : Nat) (f : Group → Group) (x : Nat) : (s.modGroup g f).dget x = s.dget x := rfl
@[simp] theorem State.dget_modSlice (s : State) (i : Nat) (f : Slice → Slice) (x : Nat) : (s.modSlice i f).dget x = s.dget x := rfl
@[simp] theorem State.dget_modFunc (s : State) (i : Nat) (f : Func → Func) (x : Nat) : (s.modFunc i f).dget x = s.dget x := rfl
@[simp] theorem State.dget_modMailbox (s : State) (k : Nat) (f : Mailbox → Mailbox) (x : Nat) : (s.modMailbox k f).dget x = s.dget x := rfl
@[simp] theorem State.dget_modDataPort (s : State) (p : Nat) (f : DataPort → DataPort) (x : Nat) : (s.modDataPort p f).dget x = s.dget x := rfl
@[simp] theorem State.dget_modObj (s : State) (j : Nat) (f : Obj → Obj) (x : Nat) : (s.modObj j f).dget x = s.dget x := rfl
@[simp] theorem State.dget_modRem (s : State) (e n : Nat) (f : RemoteBuf → RemoteBuf) (x : Nat) : (s.modRem e n f).dget x = s.dget x := rfl
@[simp] theorem State.dget_modQueue (s : State) (q : Nat) (f : Queue → Queue) (x : Nat) : (s.modQueue q f).dget x = s.dget x := rfl
@[simp] theorem State.dget_modSync (s : State) (j : Nat) (f : SyncObj → SyncObj) (x : Nat) : (s.modSync j f).dget x = s.dget x := rfl
@[simp] theorem State.dget_modCm (s : State) (f : CoreMem → CoreMem) (x : Nat) : (s.modCm f).dget x = s.dget x := rfl
@[simp] theorem State.dget_modPow (s : State) (f : Power → Power) (x : Nat) : (s.modPow f).dget x = s.dget x := rfl
@[simp] theorem State.dget_modRel (s : State) (f : Rel → Rel) (x : Nat) : (s.modRel f).dget x = s.dget x := rfl
@[simp] theorem State.dget_modSec (s : State) (f : Sec → Sec) (x : Nat) : (s.modSec f).dget x = s.dget x := rfl
@[simp] theorem State.dget_modFab (s : State) (f : Fabric → Fabric) (x : Nat) : (s.modFab f).dget x = s.dget x := rfl
@[simp] theorem State.dget_modPorts (s : State) (f : Ports → Ports) (x : Nat) : (s.modPorts f).dget x = s.dget x := rfl
@[simp] theorem State.dget_modClk (s : State) (f : Clock → Clock) (x : Nat) : (s.modClk f).dget x = s.dget x := rfl
@[simp] theorem State.dget_modPins (s : State) (f : Pins → Pins) (x : Nat) : (s.modPins f).dget x = s.dget x := rfl
@[simp] theorem State.dget_modFloor (s : State) (f : Floor → Floor) (x : Nat) : (s.modFloor f).dget x = s.dget x := rfl
@[simp] theorem State.dget_modMem (s : State) (f : Mem → Mem) (x : Nat) : (s.modMem f).dget x = s.dget x := rfl
@[simp] theorem State.dget_modReq (s : State) (r : Requester) (f : ReqState → ReqState) (x : Nat) : (s.modReq r f).dget x = s.dget x := rfl
@[simp] theorem State.dget_release (s : State) (p : Nat → Bool) (x : Nat) : (s.release p).dget x = s.dget x := rfl
@[simp] theorem State.dget_outs (s : State) (l : List Output) (x : Nat) : (s.outs l).dget x = s.dget x := by rw [State.outs_eq]; rfl
@[simp] theorem State.dget_out (s : State) (o : Output) (x : Nat) : (s.out o).dget x = s.dget x := State.dget_outs s [o] x
@[simp] theorem State.now_modPart (s : State) (n : Nat) (f : Part → Part) : (s.modPart n f).now = s.now := rfl
@[simp] theorem State.now_modCore (s : State) (c : Nat) (f : Core → Core) : (s.modCore c f).now = s.now := rfl
@[simp] theorem State.now_modCluster (s : State) (c : Nat) (f : Cluster → Cluster) : (s.modCluster c f).now = s.now := rfl
@[simp] theorem State.now_modStream (s : State) (k : Nat) (f : Stream → Stream) : (s.modStream k f).now = s.now := rfl
@[simp] theorem State.now_modGroup (s : State) (g : Nat) (f : Group → Group) : (s.modGroup g f).now = s.now := rfl
@[simp] theorem State.now_modSlice (s : State) (i : Nat) (f : Slice → Slice) : (s.modSlice i f).now = s.now := rfl
@[simp] theorem State.now_modFunc (s : State) (i : Nat) (f : Func → Func) : (s.modFunc i f).now = s.now := rfl
@[simp] theorem State.now_modMailbox (s : State) (k : Nat) (f : Mailbox → Mailbox) : (s.modMailbox k f).now = s.now := rfl
@[simp] theorem State.now_modDataPort (s : State) (p : Nat) (f : DataPort → DataPort) : (s.modDataPort p f).now = s.now := rfl
@[simp] theorem State.now_modObj (s : State) (j : Nat) (f : Obj → Obj) : (s.modObj j f).now = s.now := rfl
@[simp] theorem State.now_modRem (s : State) (e n : Nat) (f : RemoteBuf → RemoteBuf) : (s.modRem e n f).now = s.now := rfl
@[simp] theorem State.now_modQueue (s : State) (q : Nat) (f : Queue → Queue) : (s.modQueue q f).now = s.now := rfl
@[simp] theorem State.now_modSync (s : State) (j : Nat) (f : SyncObj → SyncObj) : (s.modSync j f).now = s.now := rfl
@[simp] theorem State.now_modCm (s : State) (f : CoreMem → CoreMem) : (s.modCm f).now = s.now := rfl
@[simp] theorem State.now_modPow (s : State) (f : Power → Power) : (s.modPow f).now = s.now := rfl
@[simp] theorem State.now_modRel (s : State) (f : Rel → Rel) : (s.modRel f).now = s.now := rfl
@[simp] theorem State.now_modSec (s : State) (f : Sec → Sec) : (s.modSec f).now = s.now := rfl
@[simp] theorem State.now_modFab (s : State) (f : Fabric → Fabric) : (s.modFab f).now = s.now := rfl
@[simp] theorem State.now_modPorts (s : State) (f : Ports → Ports) : (s.modPorts f).now = s.now := rfl
@[simp] theorem State.now_modPins (s : State) (f : Pins → Pins) : (s.modPins f).now = s.now := rfl
@[simp] theorem State.now_modFloor (s : State) (f : Floor → Floor) : (s.modFloor f).now = s.now := rfl
@[simp] theorem State.now_modMem (s : State) (f : Mem → Mem) : (s.modMem f).now = s.now := rfl
@[simp] theorem State.now_modReq (s : State) (r : Requester) (f : ReqState → ReqState) : (s.modReq r f).now = s.now := rfl
@[simp] theorem State.now_dset (s : State) (k v : Nat) : (s.dset k v).now = s.now := rfl
@[simp] theorem State.now_dadd (s : State) (k a : Nat) : (s.dadd k a).now = s.now := rfl
@[simp] theorem State.now_dadd64 (s : State) (k a : Nat) : (s.dadd64 k a).now = s.now := rfl
@[simp] theorem State.now_dclear (s : State) (k : Nat) : (s.dclear k).now = s.now := rfl
@[simp] theorem State.now_release (s : State) (p : Nat → Bool) : (s.release p).now = s.now := rfl
@[simp] theorem State.now_outs (s : State) (l : List Output) : (s.outs l).now = s.now := by rw [State.outs_eq]; rfl
@[simp] theorem State.now_out (s : State) (o : Output) : (s.out o).now = s.now := State.now_outs s [o]

/-! ### Memory -/

/-- A byte of LPDDR6 read after a store: the byte stored there, or what stood there before. -/
theorem State.lpRead_lpWrite (s : State) (a : Nat) (bs : Bytes) : (s.lpWrite a bs).lpRead a bs.length = bs := readRange_writeRange _ _ _ _
/-- A store leaves every byte outside its range. -/
theorem State.lpWrite_other (s : State) (a : Nat) (bs : Bytes) (j : Nat) (h : j < a ∨ a + bs.length ≤ j) :
    mget (dLp (s.lpWrite a bs).mem.lpFree) (s.lpWrite a bs).mem.lp j = mget (dLp s.mem.lpFree) s.mem.lp j := by
  have : ¬ (a ≤ j ∧ j < a + bs.length) := by omega
  exact (mget_writeRange _ _ _ _ _).trans (if_neg this)

end Sys2Proof.Machine
end

