-- ==== Sys2Proof/Laws/Evolve.lean ====
section
/-!
SUPPORT. What no command does, whatever it is: `Evolves s u` holds of every state `u` that a command leaves. The lemmas here say it
of the basic updates; the files Evolve*.lean say it of every operation and every meaning.
-/

namespace Sys2Proof.Machine

/-- From `s` to `u` the waiting commands stand as they were, local time has not gone back, the fuses are as they were, the fused
security version has not fallen, and a state in canonical form has stayed in it. -/
structure Evolves (s u : State) : Prop where
  pending : u.pending = s.pending
  now : s.clk.now ≤ u.clk.now
  fuses : u.floor.fuses = s.floor.fuses
  svn : s.sec.svnFused ≤ u.sec.svnFused
  mem : Memory.wf s.mem = true → Memory.wf u.mem = true
  dict : mwf entryDefault s.dict = true → mwf entryDefault u.dict = true

/-- A command answers a next state that evolves from `s`. -/
def EvolvesTo (s : State) (r : Res) : Prop := ∃ u, r = .next u ∧ Evolves s u

variable {s₀ s : State}

theorem Evolves.refl (s : State) : Evolves s s := ⟨rfl, Nat.le_refl _, rfl, Nat.le_refl _, id, id⟩
theorem Evolves.trans {a b c : State} (h : Evolves a b) (k : Evolves b c) : Evolves a c :=
  ⟨k.pending.trans h.pending, h.now.trans k.now, k.fuses.trans h.fuses, h.svn.trans k.svn, fun x => k.mem (h.mem x), fun x => k.dict (h.dict x)⟩

theorem evolvesTo_next {u : State} (h : Evolves s u) : EvolvesTo s (.next u) := ⟨u, rfl, h⟩

theorem ite_ev {p : Prop} [Decidable p] {a b : State} (ha : Evolves s₀ a) (hb : Evolves s₀ b) : Evolves s₀ (if p then a else b) := by
  split <;> assumption
theorem ite_snd_ev {α : Type} {p : Prop} [Decidable p] {a b : α × State} (ha : Evolves s₀ a.2) (hb : Evolves s₀ b.2) :
    Evolves s₀ (if p then a else b).2 := by
  split <;> assumption
theorem ite_fst_ev {α : Type} {p : Prop} [Decidable p] {a b : State × α} (ha : Evolves s₀ a.1) (hb : Evolves s₀ b.1) :
    Evolves s₀ (if p then a else b).1 := by
  split <;> assumption
theorem ite_evTo {p : Prop} [Decidable p] {a b : Res} (ha : EvolvesTo s₀ a) (hb : EvolvesTo s₀ b) : EvolvesTo s₀ (if p then a else b) := by
  split <;> assumption

theorem foldl_ev {α : Type} (l : List α) {f : State → α → State} (hf : ∀ s x, Evolves s₀ s → Evolves s₀ (f s x)) (h : Evolves s₀ s) :
    Evolves s₀ (l.foldl f s) := by
  induction l generalizing s with
  | nil => exact h
  | cons x r ih => exact ih (hf s x h)
theorem foldl_fst_ev {α β : Type} (l : List α) {f : State × β → α → State × β} (hf : ∀ p x, Evolves s₀ p.1 → Evolves s₀ (f p x).1)
    {p : State × β} (h : Evolves s₀ p.1) : Evolves s₀ (l.foldl f p).1 := by
  induction l generalizing p with
  | nil => exact h
  | cons x r ih => exact ih (hf p x h)
theorem foldl_snd_ev {α β : Type} (l : List α) {f : β × State → α → β × State} (hf : ∀ p x, Evolves s₀ p.2 → Evolves s₀ (f p x).2)
    {p : β × State} (h : Evolves s₀ p.2) : Evolves s₀ (l.foldl f p).2 := by
  induction l generalizing p with
  | nil => exact h
  | cons x r ih => exact ih (hf p x h)
theorem State.each_ev (l : List Nat) {f : State → Nat → State} (hf : ∀ s x, Evolves s₀ s → Evolves s₀ (f s x)) (h : Evolves s₀ s) :
    Evolves s₀ (s.each l f) := foldl_ev l hf h

/-! ### The basic updates -/

theorem State.modPart_ev (n : Nat) (f : Part → Part) (h : Evolves s₀ s) : Evolves s₀ (s.modPart n f) := ⟨h.pending, h.now, h.fuses, h.svn, h.mem, h.dict⟩
theorem State.modCore_ev (c : Nat) (f : Core → Core) (h : Evolves s₀ s) : Evolves s₀ (s.modCore c f) := ⟨h.pending, h.now, h.fuses, h.svn, h.mem, h.dict⟩
theorem State.modCluster_ev (c : Nat) (f : Cluster → Cluster) (h : Evolves s₀ s) : Evolves s₀ (s.modCluster c f) := ⟨h.pending, h.now, h.fuses, h.svn, h.mem, h.dict⟩
theorem State.modStream_ev (k : Nat) (f : Stream → Stream) (h : Evolves s₀ s) : Evolves s₀ (s.modStream k f) := ⟨h.pending, h.now, h.fuses, h.svn, h.mem, h.dict⟩
theorem State.modGroup_ev (g : Nat) (f : Group → Group) (h : Evolves s₀ s) : Evolves s₀ (s.modGroup g f) := ⟨h.pending, h.now, h.fuses, h.svn, h.mem, h.dict⟩
theorem State.modSlice_ev (i : Nat) (f : Slice → Slice) (h : Evolves s₀ s) : Evolves s₀ (s.modSlice i f) := ⟨h.pending, h.now, h.fuses, h.svn, h.mem, h.dict⟩
theorem State.modFunc_ev (i : Nat) (f : Func → Func) (h : Evolves s₀ s) : Evolves s₀ (s.modFunc i f) := ⟨h.pending, h.now, h.fuses, h.svn, h.mem, h.dict⟩
theorem State.modMailbox_ev (k : Nat) (f : Mailbox → Mailbox) (h : Evolves s₀ s) : Evolves s₀ (s.modMailbox k f) := ⟨h.pending, h.now, h.fuses, h.svn, h.mem, h.dict⟩
theorem State.modDataPort_ev (p : Nat) (f : DataPort → DataPort) (h : Evolves s₀ s) : Evolves s₀ (s.modDataPort p f) := ⟨h.pending, h.now, h.fuses, h.svn, h.mem, h.dict⟩
theorem State.modObj_ev (j : Nat) (f : Obj → Obj) (h : Evolves s₀ s) : Evolves s₀ (s.modObj j f) := ⟨h.pending, h.now, h.fuses, h.svn, h.mem, h.dict⟩
theorem State.modRem_ev (e n : Nat) (f : RemoteBuf → RemoteBuf) (h : Evolves s₀ s) : Evolves s₀ (s.modRem e n f) := ⟨h.pending, h.now, h.fuses, h.svn, h.mem, h.dict⟩
theorem State.modQueue_ev (q : Nat) (f : Queue → Queue) (h : Evolves s₀ s) : Evolves s₀ (s.modQueue q f) := ⟨h.pending, h.now, h.fuses, h.svn, h.mem, h.dict⟩
theorem State.modSync_ev (j : Nat) (f : SyncObj → SyncObj) (h : Evolves s₀ s) : Evolves s₀ (s.modSync j f) := ⟨h.pending, h.now, h.fuses, h.svn, h.mem, h.dict⟩
theorem State.modCm_ev (f : CoreMem → CoreMem) (h : Evolves s₀ s) : Evolves s₀ (s.modCm f) := ⟨h.pending, h.now, h.fuses, h.svn, h.mem, h.dict⟩
theorem State.modPow_ev (f : Power → Power) (h : Evolves s₀ s) : Evolves s₀ (s.modPow f) := ⟨h.pending, h.now, h.fuses, h.svn, h.mem, h.dict⟩
theorem State.modRel_ev (f : Rel → Rel) (h : Evolves s₀ s) : Evolves s₀ (s.modRel f) := ⟨h.pending, h.now, h.fuses, h.svn, h.mem, h.dict⟩
theorem State.modFab_ev (f : Fabric → Fabric) (h : Evolves s₀ s) : Evolves s₀ (s.modFab f) := ⟨h.pending, h.now, h.fuses, h.svn, h.mem, h.dict⟩
theorem State.modPorts_ev (f : Ports → Ports) (h : Evolves s₀ s) : Evolves s₀ (s.modPorts f) := ⟨h.pending, h.now, h.fuses, h.svn, h.mem, h.dict⟩
theorem State.modPins_ev (f : Pins → Pins) (h : Evolves s₀ s) : Evolves s₀ (s.modPins f) := ⟨h.pending, h.now, h.fuses, h.svn, h.mem, h.dict⟩
theorem State.modReq_ev (r : Requester) (f : ReqState → ReqState) (h : Evolves s₀ s) : Evolves s₀ (s.modReq r f) := ⟨h.pending, h.now, h.fuses, h.svn, h.mem, h.dict⟩
theorem State.release_ev (p : Nat → Bool) (h : Evolves s₀ s) : Evolves s₀ (s.release p) := ⟨h.pending, h.now, h.fuses, h.svn, h.mem, h.dict⟩
/-- Local time goes on. -/
theorem State.later_ev (t : Nat) (h : Evolves s₀ s) : Evolves s₀ { s with clk := { s.clk with now := max s.clk.now t } } :=
  ⟨h.pending, h.now.trans (Nat.le_max_left _ _), h.fuses, h.svn, h.mem, h.dict⟩
theorem State.modClk_ev {f : Clock → Clock} (hf : ∀ c, c.now ≤ (f c).now) (h : Evolves s₀ s) : Evolves s₀ (s.modClk f) :=
  ⟨h.pending, h.now.trans (hf _), h.fuses, h.svn, h.mem, h.dict⟩
theorem State.modSec_ev {f : Sec → Sec} (hf : ∀ c, c.svnFused ≤ (f c).svnFused) (h : Evolves s₀ s) : Evolves s₀ (s.modSec f) :=
  ⟨h.pending, h.now, h.fuses, h.svn.trans (hf _), h.mem, h.dict⟩
theorem State.modFloor_ev {f : Floor → Floor} (hf : ∀ c, (f c).fuses = c.fuses) (h : Evolves s₀ s) : Evolves s₀ (s.modFloor f) :=
  ⟨h.pending, h.now, (hf _).trans h.fuses, h.svn, h.mem, h.dict⟩
theorem State.modMem_ev {f : Mem → Mem} (hf : ∀ m, Memory.wf m = true → Memory.wf (f m) = true) (h : Evolves s₀ s) :
    Evolves s₀ (s.modMem f) := ⟨h.pending, h.now, h.fuses, h.svn, fun x => hf _ (h.mem x), h.dict⟩
theorem State.dset_ev (k v : Nat) (h : Evolves s₀ s) : Evolves s₀ (s.dset k v) :=
  ⟨h.pending, h.now, h.fuses, h.svn, h.mem, fun x => mwf_mset _ _ _ _ (h.dict x)⟩
theorem State.dadd_ev (k a : Nat) (h : Evolves s₀ s) : Evolves s₀ (s.dadd k a) := State.dset_ev _ _ h
theorem State.dadd64_ev (k a : Nat) (h : Evolves s₀ s) : Evolves s₀ (s.dadd64 k a) := State.dset_ev _ _ h
theorem State.dclear_ev (k : Nat) (h : Evolves s₀ s) : Evolves s₀ (s.dclear k) := State.dset_ev _ _ h
theorem State.dmax_ev (k v : Nat) (h : Evolves s₀ s) : Evolves s₀ (s.dmax k v) := State.dset_ev _ _ h
theorem State.dsetHeld_ev (k v : Nat) (h : Evolves s₀ s) : Evolves s₀ (s.dsetHeld k v) :=
  have g : Evolves s₀ (s.dset k v) := State.dset_ev k v h
  ⟨g.pending, g.now, g.fuses, g.svn, g.mem, g.dict⟩
theorem State.outs_ev (l : List Output) (h : Evolves s₀ s) : Evolves s₀ (s.outs l) := by
  rw [State.outs_eq]
  exact ⟨h.pending, h.now, h.fuses, h.svn, h.mem, h.dict⟩
theorem State.out_ev (o : Output) (h : Evolves s₀ s) : Evolves s₀ (s.out o) := State.outs_ev [o] h
theorem State.takeFree_ev (h : Evolves s₀ s) : Evolves s₀ s.takeFree.2 := ⟨h.pending, h.now, h.fuses, h.svn, h.mem, h.dict⟩

theorem State.dictFilter_ev (p : Nat × Nat → Bool) (h : Evolves s₀ s) : Evolves s₀ { s with dict := s.dict.filter p } :=
  ⟨h.pending, h.now, h.fuses, h.svn, h.mem, fun x => mwf_filter _ _ _ (h.dict x)⟩

/-- A state with fields changed that no clause of `Evolves` reads. -/
theorem State.mk_ev {heldVals : SMap (Option Nat)} {reqs : List ReqState} {cm : CoreMem} {cores : SMap Core} {clusters : SMap Cluster} {parts : SMap Part} {hauls : SMap (Option Haul)} {haulNext : Nat} {remote : SMap RemoteBuf} {streams : SMap Stream} {groups : SMap Group} {queues : SMap Queue} {syncs : SMap SyncObj} {slices : SMap Slice} {keep : Keep} {fab : Fabric} {ports : Ports} {pins : Pins} {pow : Power} {rel : Rel} {outbox : List Output}
    (h : Evolves s₀ s) : Evolves s₀ ⟨s.pending, s.clk, s.dict, heldVals, reqs, cm, cores, clusters, parts, hauls, haulNext, remote, streams, groups, queues, syncs, slices, s.mem, keep, fab, ports, pins, s.floor, pow, rel, s.sec, outbox⟩ :=
  ⟨h.pending, h.now, h.fuses, h.svn, h.mem, h.dict⟩

/-! ### Memory keeps its canonical form -/

theorem Memory.wf_iff (m : Mem) :
    Memory.wf m = true ↔ mwf (dLp m.lpFree) m.lp = true ∧ mwf dByte m.sram = true ∧ mwf dByte m.mram = true := by
  simp [Memory.wf, and_assoc]
theorem State.lpWrite_ev (a : Nat) (bs : Bytes) (h : Evolves s₀ s) : Evolves s₀ (s.lpWrite a bs) := by
  refine State.modMem_ev (fun m hm => ?_) h
  rw [Memory.wf_iff] at hm ⊢
  exact ⟨mwf_writeRange _ _ _ _ hm.1, hm.2⟩
theorem State.tileWriteHdr_ev (t : Tile) (o : Nat) (bs : Bytes) (h : Evolves s₀ s) : Evolves s₀ (s.tileWriteHdr t o bs) :=
  foldl_ev _ (fun _ _ k => ite_ev (State.lpWrite_ev _ _ k) k) h
theorem State.tileWrite_ev (t : Tile) (o : Nat) (bs : Bytes) (h : Evolves s₀ s) : Evolves s₀ (s.tileWrite t o bs) :=
  State.tileWriteHdr_ev t (64 + o) bs h
/-- The memory of the reset state is in canonical form. -/
theorem reset_memory_wf : Memory.wf State.reset.mem = true := by decide

end Sys2Proof.Machine
end

