-- ==== Sys2Proof/Laws/EvolveOps.lean ====
section
/-!
SUPPORT. What no command does: the operations of Ops.lean (see Evolve.lean).
-/

namespace Sys2Proof.Machine

variable {s₀ : State}

theorem State.qadd_ev (i k a : Nat) {s : State} (hev : Evolves s₀ s) : Evolves s₀ (State.qadd s i k a) := by
  unfold State.qadd
  repeat' first
    | with_reducible assumption
    | extract_lets
    | with_reducible apply State.modSlice_ev
    | with_reducible apply ite_ev
    | with_reducible apply ite_snd_ev
    | with_reducible apply ite_fst_ev
    | with_reducible apply ite_evTo
    | with_reducible apply evolvesTo_next
    | with_reducible exact Evolves.refl _
    | with_reducible apply foldl_ev
    | with_reducible apply foldl_fst_ev
    | with_reducible apply foldl_snd_ev
    | with_reducible rfl
    | with_reducible exact Nat.le_refl _
    | (intro _; with_reducible exact Nat.le_refl _)
    | (intro _; with_reducible exact rfl)
    | (intro m hm; change Memory.wf _ = true; exact hm)
    | intro _
    | split
    | dsimp only
    | with_reducible apply State.mk_ev

theorem State.qadd64_ev (i k a : Nat) {s : State} (hev : Evolves s₀ s) : Evolves s₀ (State.qadd64 s i k a) := by
  unfold State.qadd64
  repeat' first
    | with_reducible assumption
    | extract_lets
    | with_reducible apply State.modSlice_ev
    | with_reducible apply ite_ev
    | with_reducible apply ite_snd_ev
    | with_reducible apply ite_fst_ev
    | with_reducible apply ite_evTo
    | with_reducible apply evolvesTo_next
    | with_reducible exact Evolves.refl _
    | with_reducible apply foldl_ev
    | with_reducible apply foldl_fst_ev
    | with_reducible apply foldl_snd_ev
    | with_reducible rfl
    | with_reducible exact Nat.le_refl _
    | (intro _; with_reducible exact Nat.le_refl _)
    | (intro _; with_reducible exact rfl)
    | (intro m hm; change Memory.wf _ = true; exact hm)
    | intro _
    | split
    | dsimp only
    | with_reducible apply State.mk_ev

theorem State.qmax_ev (i k v : Nat) {s : State} (hev : Evolves s₀ s) : Evolves s₀ (State.qmax s i k v) := by
  unfold State.qmax
  repeat' first
    | with_reducible assumption
    | extract_lets
    | with_reducible apply State.modSlice_ev
    | with_reducible apply ite_ev
    | with_reducible apply ite_snd_ev
    | with_reducible apply ite_fst_ev
    | with_reducible apply ite_evTo
    | with_reducible apply evolvesTo_next
    | with_reducible exact Evolves.refl _
    | with_reducible apply foldl_ev
    | with_reducible apply foldl_fst_ev
    | with_reducible apply foldl_snd_ev
    | with_reducible rfl
    | with_reducible exact Nat.le_refl _
    | (intro _; with_reducible exact Nat.le_refl _)
    | (intro _; with_reducible exact rfl)
    | (intro m hm; change Memory.wf _ = true; exact hm)
    | intro _
    | split
    | dsimp only
    | with_reducible apply State.mk_ev

theorem State.forget_ev (r : Requester) {s : State} (hev : Evolves s₀ s) : Evolves s₀ (State.forget s r) := by
  unfold State.forget
  with_reducible repeat' first | assumption | apply State.mk_ev

theorem State.freshSlot_ev (c : Nat) {s : State} (hev : Evolves s₀ s) : Evolves s₀ (State.freshSlot s c) := by
  unfold State.freshSlot
  repeat' first
    | with_reducible assumption | extract_lets | with_reducible apply State.modMem_ev | (intro m hm; change Memory.wf _ = true; exact hm)

theorem State.bumpCore_ev (c off a : Nat) {s : State} (hev : Evolves s₀ s) : Evolves s₀ (State.bumpCore s c off a) := by
  unfold State.bumpCore
  with_reducible repeat' first | assumption | extract_lets | apply State.modCm_ev

theorem State.bump_ev (c off a : Nat) {s : State} (hev : Evolves s₀ s) : Evolves s₀ (State.bump s c off a) := by
  unfold State.bump
  repeat' first
    | with_reducible assumption | extract_lets | with_reducible apply State.bumpCore_ev | with_reducible apply State.dadd_ev
    | with_reducible apply State.dadd64_ev | with_reducible apply ite_ev | split

theorem State.countRem_ev (e n j a : Nat) {s : State} (hev : Evolves s₀ s) : Evolves s₀ (State.countRem s e n j a) := by
  unfold State.countRem
  repeat' first
    | with_reducible assumption
    | extract_lets
    | with_reducible apply State.dadd64_ev
    | with_reducible apply State.modRem_ev
    | with_reducible apply ite_ev
    | with_reducible apply ite_snd_ev
    | with_reducible apply ite_fst_ev
    | with_reducible apply ite_evTo
    | with_reducible apply evolvesTo_next
    | with_reducible exact Evolves.refl _
    | with_reducible apply foldl_ev
    | with_reducible apply foldl_fst_ev
    | with_reducible apply foldl_snd_ev
    | with_reducible rfl
    | with_reducible exact Nat.le_refl _
    | (intro _; with_reducible exact Nat.le_refl _)
    | (intro _; with_reducible exact rfl)
    | (intro m hm; change Memory.wf _ = true; exact hm)
    | intro _
    | split
    | dsimp only
    | with_reducible apply State.mk_ev

theorem State.absorbCount_ev (c off a : Nat) {s : State} (hev : Evolves s₀ s) : Evolves s₀ (State.absorbCount s c off a) := by
  unfold State.absorbCount
  repeat' first
    | with_reducible assumption | extract_lets | with_reducible apply State.bump_ev | with_reducible apply State.dadd64_ev
    | with_reducible apply State.modCore_ev | split

theorem State.raiseCause_ev (f b : Nat) {s : State} (hev : Evolves s₀ s) : Evolves s₀ (State.raiseCause s f b) := by
  unfold State.raiseCause
  with_reducible repeat' first | assumption | extract_lets | apply State.modFunc_ev | apply State.out_ev | apply ite_ev

theorem State.queueNotice_ev (msg : Bytes) (k : Nat) {s : State} (hev : Evolves s₀ s) : Evolves s₀ (State.queueNotice s msg k) := by
  unfold State.queueNotice
  with_reducible repeat' first | assumption | extract_lets | apply State.dadd_ev | apply State.modMailbox_ev | apply ite_ev

theorem State.issue_ev (ecode sev n detail : Nat) {s : State} (hev : Evolves s₀ s) : Evolves s₀ (State.issue s ecode sev n detail) := by
  unfold State.issue
  with_reducible repeat' first
    | assumption | extract_lets | apply State.dadd_ev | apply State.each_ev | apply State.modRel_ev | apply State.outs_ev
    | apply State.queueNotice_ev | apply State.raiseCause_ev | apply ite_ev | intro _

theorem State.emergency_ev (ecode sev n detail : Nat) {s : State} (hev : Evolves s₀ s) : Evolves s₀ (State.emergency s ecode sev n detail) := by
  unfold State.emergency
  with_reducible repeat' first | assumption | extract_lets | apply State.issue_ev | apply State.modRel_ev | apply ite_ev

theorem State.mark_ev (n type arg0 arg1 arg2 : Nat) {s : State} (hev : Evolves s₀ s) : Evolves s₀ (State.mark s n type arg0 arg1 arg2) := by
  unfold State.mark
  with_reducible repeat' first | assumption | apply State.modPart_ev

theorem State.ledgerFlag_ev (n b : Nat) {s : State} (hev : Evolves s₀ s) : Evolves s₀ (State.ledgerFlag s n b) := by
  unfold State.ledgerFlag
  with_reducible repeat' first | assumption | apply State.modPart_ev

theorem State.ledgerDrop_ev (n c a : Nat) {s : State} (hev : Evolves s₀ s) : Evolves s₀ (State.ledgerDrop s n c a) := by
  unfold State.ledgerDrop
  with_reducible repeat' first | assumption | extract_lets | apply State.ledgerFlag_ev | apply State.modCore_ev | apply ite_ev

theorem State.ledgerDropAt_ev (n target c : Nat) {s : State} (hev : Evolves s₀ s) : Evolves s₀ (State.ledgerDropAt s n target c) := by
  unfold State.ledgerDropAt
  with_reducible repeat' first | assumption | apply State.modPart_ev

theorem State.modHalf_ev (h : Nat) (f : Half → Half) {s : State} (hev : Evolves s₀ s) : Evolves s₀ (State.modHalf s h f) := by
  unfold State.modHalf
  with_reducible repeat' first | assumption | extract_lets | apply State.modPow_ev | apply ite_ev

theorem State.joinHalf_ev (n h : Nat) {s : State} (hev : Evolves s₀ s) : Evolves s₀ (State.joinHalf s n h) := by
  unfold State.joinHalf
  repeat' first
    | with_reducible assumption
    | extract_lets
    | with_reducible apply State.modHalf_ev
    | with_reducible apply ite_ev
    | with_reducible apply ite_snd_ev
    | with_reducible apply ite_fst_ev
    | with_reducible apply ite_evTo
    | with_reducible apply evolvesTo_next
    | with_reducible exact Evolves.refl _
    | with_reducible apply foldl_ev
    | with_reducible apply foldl_fst_ev
    | with_reducible apply foldl_snd_ev
    | with_reducible rfl
    | with_reducible exact Nat.le_refl _
    | (intro _; with_reducible exact Nat.le_refl _)
    | (intro _; with_reducible exact rfl)
    | (intro m hm; change Memory.wf _ = true; exact hm)
    | intro _
    | split
    | dsimp only
    | with_reducible apply State.mk_ev

end Sys2Proof.Machine
end

