-- ==== Sys2Proof/Laws/EvolveMram.lean ====
section
/-!
SUPPORT. What no command does: the operations of Mram.lean (see Evolve.lean).
-/

namespace Sys2Proof.Machine

variable {s₀ : State}

theorem State.overClear_ev (a n : Nat) {s : State} (hev : Evolves s₀ s) : Evolves s₀ (State.overClear s a n) := by
  unfold State.overClear
  repeat' first
    | with_reducible assumption
    | extract_lets
    | with_reducible apply State.modMem_ev
    | with_reducible apply ite_ev
    | with_reducible apply ite_snd_ev
    | with_reducible apply ite_fst_ev
    | with_reducible apply ite_evTo
    | with_reducible apply evolvesTo_next
    | with_reducible exact Evolves.refl _
    | with_reducible apply foldl_ev
    | with_reducible apply foldl_fst_ev
    | with_reducible apply foldl_snd_ev
    | with_reducible rfl
    | with_reducible exact Nat.le_refl _
    | (intro _; with_reducible exact Nat.le_refl _)
    | (intro _; with_reducible exact rfl)
    | (intro m hm; change Memory.wf _ = true; exact hm)
    | intro _
    | split
    | dsimp only
    | with_reducible apply State.mk_ev

theorem State.mramPut_ev (a : Nat) (bs : Bytes) {s : State} (hev : Evolves s₀ s) : Evolves s₀ (State.mramPut s a bs) := by
  refine foldl_ev _ (fun s i k => State.modMem_ev (fun m hm => ?_) k) hev
  split
  · rw [Memory.wf_iff] at hm ⊢
    exact ⟨hm.1, hm.2.1, mwf_writeRange _ _ _ _ hm.2.2⟩
  · exact hm

theorem State.writeBoot_ev (m : Nat) {s : State} (hev : Evolves s₀ s) : Evolves s₀ (State.writeBoot s m) := by
  unfold State.writeBoot
  repeat' first
    | with_reducible assumption
    | extract_lets
    | with_reducible apply State.modSec_ev
    | with_reducible apply State.overClear_ev
    | with_reducible apply ite_ev
    | with_reducible apply ite_snd_ev
    | with_reducible apply ite_fst_ev
    | with_reducible apply ite_evTo
    | with_reducible apply evolvesTo_next
    | with_reducible exact Evolves.refl _
    | with_reducible apply foldl_ev
    | with_reducible apply foldl_fst_ev
    | with_reducible apply foldl_snd_ev
    | with_reducible rfl
    | with_reducible exact Nat.le_refl _
    | (intro _; with_reducible exact Nat.le_refl _)
    | (intro _; with_reducible exact rfl)
    | (intro m hm; change Memory.wf _ = true; exact hm)
    | intro _
    | split
    | dsimp only
    | with_reducible apply State.mk_ev

theorem State.openDefects_ev  {s : State} (hev : Evolves s₀ s) : Evolves s₀ (State.openDefects s) := by
  unfold State.openDefects
  repeat' first
    | with_reducible assumption
    | extract_lets
    | with_reducible apply State.dset_ev
    | with_reducible apply State.modFloor_ev
    | with_reducible apply State.overClear_ev
    | with_reducible apply ite_ev
    | with_reducible apply ite_snd_ev
    | with_reducible apply ite_fst_ev
    | with_reducible apply ite_evTo
    | with_reducible apply evolvesTo_next
    | with_reducible exact Evolves.refl _
    | with_reducible apply foldl_ev
    | with_reducible apply foldl_fst_ev
    | with_reducible apply foldl_snd_ev
    | with_reducible rfl
    | with_reducible exact Nat.le_refl _
    | (intro _; with_reducible exact Nat.le_refl _)
    | (intro _; with_reducible exact rfl)
    | (intro m hm; change Memory.wf _ = true; exact hm)
    | intro _
    | split
    | dsimp only
    | with_reducible apply State.mk_ev

end Sys2Proof.Machine
end

