-- ==== Sys2Proof/Laws/EvolveFirmware.lean ====
section
/-!
SUPPORT. What no command does: the operations of Firmware.lean (see Evolve.lean).
-/

namespace Sys2Proof.Machine

variable {s₀ : State}

theorem State.svnTick_ev  {s : State} (hev : Evolves s₀ s) : Evolves s₀ (State.svnTick s) := by
  exact ite_ev (State.modSec_ev (fun _ => Nat.le_max_left _ _) hev) hev

theorem State.copyB_ev  {s : State} (hev : Evolves s₀ s) : Evolves s₀ (State.copyB s) := by
  unfold State.copyB
  repeat' first
    | with_reducible assumption
    | extract_lets
    | with_reducible apply State.modSec_ev
    | with_reducible apply State.overClear_ev
    | with_reducible apply ite_ev
    | with_reducible apply ite_snd_ev
    | with_reducible apply ite_fst_ev
    | with_reducible apply ite_evTo
    | with_reducible apply evolvesTo_next
    | with_reducible exact Evolves.refl _
    | with_reducible apply foldl_ev
    | with_reducible apply foldl_fst_ev
    | with_reducible apply foldl_snd_ev
    | with_reducible rfl
    | with_reducible exact Nat.le_refl _
    | (intro _; with_reducible exact Nat.le_refl _)
    | (intro _; with_reducible exact rfl)
    | (intro m hm; change Memory.wf _ = true; exact hm)
    | intro _
    | split
    | dsimp only
    | with_reducible apply State.mk_ev

theorem State.confirmTrial_ev  {s : State} (hev : Evolves s₀ s) : Evolves s₀ (State.confirmTrial s) := by
  unfold State.confirmTrial
  repeat' first
    | with_reducible assumption
    | extract_lets
    | with_reducible apply State.copyB_ev
    | with_reducible apply State.dset_ev
    | with_reducible apply State.modSec_ev
    | with_reducible apply State.svnTick_ev
    | with_reducible apply State.writeBoot_ev
    | with_reducible apply ite_ev
    | with_reducible apply ite_snd_ev
    | with_reducible apply ite_fst_ev
    | with_reducible apply ite_evTo
    | with_reducible apply evolvesTo_next
    | with_reducible exact Evolves.refl _
    | with_reducible apply foldl_ev
    | with_reducible apply foldl_fst_ev
    | with_reducible apply foldl_snd_ev
    | with_reducible rfl
    | with_reducible exact Nat.le_refl _
    | (intro _; with_reducible exact Nat.le_refl _)
    | (intro _; with_reducible exact rfl)
    | (intro m hm; change Memory.wf _ = true; exact hm)
    | intro _
    | split
    | dsimp only
    | with_reducible apply State.mk_ev

theorem State.updateFaultN_ev {s : State} (hev : Evolves s₀ s) : Evolves s₀ (State.updateFaultN s) := by
  unfold State.updateFaultN
  with_reducible repeat' first | assumption | extract_lets | apply State.dset_ev | apply State.modPins_ev

theorem State.bootReady_ev (b : Boot) {s : State} (hev : Evolves s₀ s) : Evolves s₀ (State.bootReady s b) := by
  unfold State.bootReady
  repeat' first
    | with_reducible assumption
    | extract_lets
    | with_reducible apply State.confirmTrial_ev
    | with_reducible apply State.dset_ev
    | with_reducible apply State.modFloor_ev
    | with_reducible apply State.modPins_ev
    | with_reducible apply State.updateFaultN_ev
    | with_reducible apply ite_ev
    | with_reducible apply ite_snd_ev
    | with_reducible apply ite_fst_ev
    | with_reducible apply ite_evTo
    | with_reducible apply evolvesTo_next
    | with_reducible exact Evolves.refl _
    | with_reducible apply foldl_ev
    | with_reducible apply foldl_fst_ev
    | with_reducible apply foldl_snd_ev
    | with_reducible rfl
    | with_reducible exact Nat.le_refl _
    | (intro _; with_reducible exact Nat.le_refl _)
    | (intro _; with_reducible exact rfl)
    | (intro m hm; change Memory.wf _ = true; exact hm)
    | intro _
    | split
    | dsimp only
    | with_reducible apply State.mk_ev

theorem State.bootEnd_ev  {s : State} (hev : Evolves s₀ s) : Evolves s₀ (State.bootEnd s) := by
  unfold State.bootEnd
  repeat' first
    | with_reducible assumption
    | extract_lets
    | with_reducible apply State.bootReady_ev
    | with_reducible apply ite_ev
    | with_reducible apply ite_snd_ev
    | with_reducible apply ite_fst_ev
    | with_reducible apply ite_evTo
    | with_reducible apply evolvesTo_next
    | with_reducible exact Evolves.refl _
    | with_reducible apply foldl_ev
    | with_reducible apply foldl_fst_ev
    | with_reducible apply foldl_snd_ev
    | with_reducible rfl
    | with_reducible exact Nat.le_refl _
    | (intro _; with_reducible exact Nat.le_refl _)
    | (intro _; with_reducible exact rfl)
    | (intro m hm; change Memory.wf _ = true; exact hm)
    | intro _
    | split
    | dsimp only
    | with_reducible apply State.mk_ev

theorem State.setFuncs_ev (v : FuncSettings) {s : State} (hev : Evolves s₀ s) : Evolves s₀ (State.setFuncs s v) := by
  unfold State.setFuncs
  repeat' first
    | with_reducible assumption
    | extract_lets
    | with_reducible apply State.dset_ev
    | with_reducible apply State.each_ev
    | with_reducible apply State.modFunc_ev
    | with_reducible apply ite_ev
    | with_reducible apply ite_snd_ev
    | with_reducible apply ite_fst_ev
    | with_reducible apply ite_evTo
    | with_reducible apply evolvesTo_next
    | with_reducible exact Evolves.refl _
    | with_reducible apply foldl_ev
    | with_reducible apply foldl_fst_ev
    | with_reducible apply foldl_snd_ev
    | with_reducible rfl
    | with_reducible exact Nat.le_refl _
    | (intro _; with_reducible exact Nat.le_refl _)
    | (intro _; with_reducible exact rfl)
    | (intro m hm; change Memory.wf _ = true; exact hm)
    | intro _
    | split
    | dsimp only
    | with_reducible apply State.mk_ev

theorem State.crsEnd_ev  {s : State} (hev : Evolves s₀ s) : Evolves s₀ (State.crsEnd s) := by
  unfold State.crsEnd
  repeat' first
    | with_reducible assumption
    | extract_lets
    | with_reducible apply State.modPorts_ev
    | with_reducible apply State.setFuncs_ev
    | with_reducible apply ite_ev
    | with_reducible apply ite_snd_ev
    | with_reducible apply ite_fst_ev
    | with_reducible apply ite_evTo
    | with_reducible apply evolvesTo_next
    | with_reducible exact Evolves.refl _
    | with_reducible apply foldl_ev
    | with_reducible apply foldl_fst_ev
    | with_reducible apply foldl_snd_ev
    | with_reducible rfl
    | with_reducible exact Nat.le_refl _
    | (intro _; with_reducible exact Nat.le_refl _)
    | (intro _; with_reducible exact rfl)
    | (intro m hm; change Memory.wf _ = true; exact hm)
    | intro _
    | split
    | dsimp only
    | with_reducible apply State.mk_ev

theorem State.at_ev (t : Nat) {s : State} (hev : Evolves s₀ s) : Evolves s₀ (State.at s t) := by
  exact State.crsEnd_ev (State.bootEnd_ev (State.later_ev t hev))

end Sys2Proof.Machine
end

