-- ==== Sys2Proof/Laws/EvolveFrames.lean ====
section
/-!
SUPPORT. What no command does: the operations of Frames.lean (see Evolve.lean).
-/

namespace Sys2Proof.Machine

variable {s₀ : State}

theorem State.setOwner_ev (f o : Nat) {s : State} (hev : Evolves s₀ s) : Evolves s₀ (State.setOwner s f o) := by
  unfold State.setOwner
  repeat' first
    | with_reducible assumption | extract_lets | with_reducible apply State.modMem_ev | (intro m hm; change Memory.wf _ = true; exact hm)

end Sys2Proof.Machine
end

