-- ==== Sys2Proof/Laws/EvolvePlastic.lean ====
section
/-!
SUPPORT. What no command does: the operations of Plastic.lean (see Evolve.lean).
-/

namespace Sys2Proof.Machine

variable {s₀ : State}

theorem State.storeHalf_ev (n : Nat) (t : Tile) (o : Nat) (a : F32) {s : State} (hev : Evolves s₀ s) : Evolves s₀ (State.storeHalf s n t o a) := by
  unfold State.storeHalf
  with_reducible repeat' first | assumption | extract_lets | apply State.dadd_ev | apply State.tileWrite_ev

theorem State.raiseTrace_ev (n : Nat) (tl : Tile) (o : Nat) (decay : F16) (t cnt : Nat) {s : State} (hev : Evolves s₀ s) : Evolves s₀ (State.raiseTrace s n tl o decay t cnt) := by
  unfold State.raiseTrace
  with_reducible repeat' first | assumption | extract_lets | apply State.storeHalf_ev | apply State.tileWrite_ev

theorem State.addPair_ev (n : Nat) (tl : Tile) (o : Nat) (v : F32) (cnt : Nat) {s : State} (hev : Evolves s₀ s) : Evolves s₀ (State.addPair s n tl o v cnt) := by
  unfold State.addPair
  with_reducible repeat' first | assumption | apply State.storeHalf_ev

theorem State.tracePre_ev (n : Nat) (tl : Tile) (u : Run) (bank r : Nat) (row : Row) (cnt t : Nat) {s : State} (hev : Evolves s₀ s) : Evolves s₀ (State.tracePre s n tl u bank r row cnt t) := by
  unfold State.tracePre
  with_reducible repeat' first
    | assumption | extract_lets | apply State.addPair_ev | apply State.dadd_ev | apply State.dadd64_ev | apply State.raiseTrace_ev
    | apply ite_ev | apply foldl_ev | intro _

theorem State.tracePost_ev (n : Nat) (tl : Tile) (u : Run) (bank q cnt t : Nat) {s : State} (hev : Evolves s₀ s) : Evolves s₀ (State.tracePost s n tl u bank q cnt t) := by
  unfold State.tracePost
  with_reducible repeat' first
    | assumption | extract_lets | apply State.addPair_ev | apply State.dadd64_ev | apply State.raiseTrace_ev | apply foldl_ev | intro _

theorem State.applyRow_ev (n : Nat) (tl syn : Tile) (u : Run) (g bank r : Nat) {s : State} (hev : Evolves s₀ s) : Evolves s₀ (State.applyRow s n tl syn u g bank r) := by
  unfold State.applyRow
  with_reducible repeat' first
    | assumption | extract_lets | apply State.dadd64_ev | apply State.storeHalf_ev | apply State.tileWrite_ev | apply ite_ev
    | apply foldl_fst_ev | intro _

theorem State.applyProj_ev (n : Nat) (sl : Slot) (tl : Tile) (pr : Proj) {s : State} (hev : Evolves s₀ s) : Evolves s₀ (State.applyProj s n sl tl pr) := by
  unfold State.applyProj
  repeat' first
    | with_reducible assumption | extract_lets | with_reducible apply State.applyRow_ev | with_reducible apply foldl_ev | intro _ | split

theorem State.modProj_ev (n p : Nat) (f : Proj → Proj) {s : State} (hev : Evolves s₀ s) : Evolves s₀ (State.modProj s n p f) := by
  unfold State.modProj
  with_reducible repeat' first | assumption | apply State.modPart_ev

theorem State.dropRows_ev (tl : Tile) {s : State} (hev : Evolves s₀ s) : Evolves s₀ (State.dropRows s tl) := by
  unfold State.dropRows
  with_reducible repeat' first | assumption | extract_lets | apply State.modCore_ev | apply foldl_ev | intro _

theorem State.switchProj_ev (n p : Nat) {s : State} (hev : Evolves s₀ s) : Evolves s₀ (State.switchProj s n p) := by
  unfold State.switchProj
  repeat' first
    | with_reducible assumption | extract_lets | with_reducible apply State.dadd_ev | with_reducible apply State.dropRows_ev
    | with_reducible apply State.mark_ev | with_reducible apply State.modProj_ev | with_reducible apply State.tileWriteHdr_ev | split

theorem State.abandonApply_ev (n p : Nat) {s : State} (hev : Evolves s₀ s) : Evolves s₀ (State.abandonApply s n p) := by
  unfold State.abandonApply
  repeat' first
    | with_reducible assumption | extract_lets | with_reducible apply State.dadd_ev | with_reducible apply State.mark_ev
    | with_reducible apply State.modProj_ev | with_reducible apply State.tileWrite_ev | with_reducible apply ite_ev | split

end Sys2Proof.Machine
end

