-- ==== Sys2Proof/Laws/EvolveStreams.lean ====
section
/-!
SUPPORT. What no command does: the operations of Streams.lean (see Evolve.lean).
-/

namespace Sys2Proof.Machine

variable {s₀ : State}

theorem State.setCombine_ev (g c : Nat) (l : List F32) {s : State} (hev : Evolves s₀ s) : Evolves s₀ (State.setCombine s g c l) := by
  unfold State.setCombine
  refine State.modMem_ev (fun m hm => ?_) hev
  rw [Memory.wf_iff] at hm ⊢
  exact ⟨hm.1, mwf_writeRange _ _ _ _ hm.2.1, hm.2.2⟩

theorem State.newRound_ev (g : Nat) {s : State} (hev : Evolves s₀ s) : Evolves s₀ (State.newRound s g) := by
  unfold State.newRound
  repeat' first
    | with_reducible assumption
    | extract_lets
    | with_reducible apply ite_ev
    | with_reducible apply ite_snd_ev
    | with_reducible apply ite_fst_ev
    | with_reducible apply ite_evTo
    | with_reducible apply evolvesTo_next
    | with_reducible exact Evolves.refl _
    | with_reducible apply foldl_ev
    | with_reducible apply foldl_fst_ev
    | with_reducible apply foldl_snd_ev
    | with_reducible rfl
    | with_reducible exact Nat.le_refl _
    | (intro _; with_reducible exact Nat.le_refl _)
    | (intro _; with_reducible exact rfl)
    | (intro m hm; change Memory.wf _ = true; exact hm)
    | intro _
    | split
    | dsimp only
    | with_reducible apply State.mk_ev

theorem State.clearCombine_ev (g : Nat) {s : State} (hev : Evolves s₀ s) : Evolves s₀ (State.clearCombine s g) := by
  unfold State.clearCombine
  repeat' first
    | with_reducible assumption
    | extract_lets
    | with_reducible apply State.newRound_ev
    | with_reducible apply State.setCombine_ev
    | with_reducible apply ite_ev
    | with_reducible apply ite_snd_ev
    | with_reducible apply ite_fst_ev
    | with_reducible apply ite_evTo
    | with_reducible apply evolvesTo_next
    | with_reducible exact Evolves.refl _
    | with_reducible apply foldl_ev
    | with_reducible apply foldl_fst_ev
    | with_reducible apply foldl_snd_ev
    | with_reducible rfl
    | with_reducible exact Nat.le_refl _
    | (intro _; with_reducible exact Nat.le_refl _)
    | (intro _; with_reducible exact rfl)
    | (intro m hm; change Memory.wf _ = true; exact hm)
    | intro _
    | split
    | dsimp only
    | with_reducible apply State.mk_ev

theorem State.createCombine_ev (g : Nat) {s : State} (hev : Evolves s₀ s) : Evolves s₀ (State.createCombine s g) := by
  unfold State.createCombine
  repeat' first
    | with_reducible assumption
    | extract_lets
    | with_reducible apply State.setCombine_ev
    | with_reducible apply ite_ev
    | with_reducible apply ite_snd_ev
    | with_reducible apply ite_fst_ev
    | with_reducible apply ite_evTo
    | with_reducible apply evolvesTo_next
    | with_reducible exact Evolves.refl _
    | with_reducible apply foldl_ev
    | with_reducible apply foldl_fst_ev
    | with_reducible apply foldl_snd_ev
    | with_reducible rfl
    | with_reducible exact Nat.le_refl _
    | (intro _; with_reducible exact Nat.le_refl _)
    | (intro _; with_reducible exact rfl)
    | (intro m hm; change Memory.wf _ = true; exact hm)
    | intro _
    | split
    | dsimp only
    | with_reducible apply State.mk_ev

theorem State.encodeChannel_ev (k : Nat) (t : Tile) (clamp : Bool) (km p : Nat) (x : F32) (c : Nat) {s : State} (hev : Evolves s₀ s) : Evolves s₀ (State.encodeChannel s k t clamp km p x c) := by
  unfold State.encodeChannel
  with_reducible repeat' first
    | assumption | extract_lets | apply State.dadd_ev | apply State.dadd64_ev | apply State.modStream_ev | apply ite_ev

theorem State.encodeSample_ev (k : Nat) (t : Tile) (clamp : Bool) (km p : Nat) (x : Sample) {s : State} (hev : Evolves s₀ s) : Evolves s₀ (State.encodeSample s k t clamp km p x) := by
  unfold State.encodeSample
  with_reducible repeat' first | assumption | extract_lets | apply State.each_ev | apply State.encodeChannel_ev | intro _

theorem State.journalStream_ev (k p : Nat) (es : List (Nat × BitVec 64)) {s : State} (hev : Evolves s₀ s) : Evolves s₀ (State.journalStream s k p es) := by
  unfold State.journalStream
  repeat' first
    | with_reducible assumption
    | extract_lets
    | with_reducible apply State.modStream_ev
    | with_reducible apply ite_ev
    | with_reducible apply ite_snd_ev
    | with_reducible apply ite_fst_ev
    | with_reducible apply ite_evTo
    | with_reducible apply evolvesTo_next
    | with_reducible exact Evolves.refl _
    | with_reducible apply foldl_ev
    | with_reducible apply foldl_fst_ev
    | with_reducible apply foldl_snd_ev
    | with_reducible rfl
    | with_reducible exact Nat.le_refl _
    | (intro _; with_reducible exact Nat.le_refl _)
    | (intro _; with_reducible exact rfl)
    | (intro m hm; change Memory.wf _ = true; exact hm)
    | intro _
    | split
    | dsimp only
    | with_reducible apply State.mk_ev

theorem State.launchEncoded_ev (n k : Nat) {s : State} (hev : Evolves s₀ s) : Evolves s₀ (State.launchEncoded s n k) := by
  unfold State.launchEncoded
  repeat' first
    | with_reducible assumption
    | extract_lets
    | with_reducible apply State.dadd64_ev
    | with_reducible apply State.journalStream_ev
    | with_reducible apply State.modStream_ev
    | with_reducible apply ite_ev
    | with_reducible apply ite_snd_ev
    | with_reducible apply ite_fst_ev
    | with_reducible apply ite_evTo
    | with_reducible apply evolvesTo_next
    | with_reducible exact Evolves.refl _
    | with_reducible apply foldl_ev
    | with_reducible apply foldl_fst_ev
    | with_reducible apply foldl_snd_ev
    | with_reducible rfl
    | with_reducible exact Nat.le_refl _
    | (intro _; with_reducible exact Nat.le_refl _)
    | (intro _; with_reducible exact rfl)
    | (intro m hm; change Memory.wf _ = true; exact hm)
    | intro _
    | split
    | dsimp only
    | with_reducible apply State.mk_ev

theorem State.latch_ev (k : Nat) {s : State} (hev : Evolves s₀ s) : Evolves s₀ (State.latch s k).2 := by
  unfold State.latch
  repeat' first
    | with_reducible assumption
    | extract_lets
    | with_reducible apply State.dset_ev
    | with_reducible apply State.modStream_ev
    | with_reducible apply ite_ev
    | with_reducible apply ite_snd_ev
    | with_reducible apply ite_fst_ev
    | with_reducible apply ite_evTo
    | with_reducible apply evolvesTo_next
    | with_reducible exact Evolves.refl _
    | with_reducible apply foldl_ev
    | with_reducible apply foldl_fst_ev
    | with_reducible apply foldl_snd_ev
    | with_reducible rfl
    | with_reducible exact Nat.le_refl _
    | (intro _; with_reducible exact Nat.le_refl _)
    | (intro _; with_reducible exact rfl)
    | (intro m hm; change Memory.wf _ = true; exact hm)
    | intro _
    | split
    | dsimp only
    | with_reducible apply State.mk_ev

theorem State.encodeStream_ev (n k p km : Nat) (t : Tile) {s : State} (hev : Evolves s₀ s) : Evolves s₀ (State.encodeStream s n k p km t) := by
  unfold State.encodeStream
  extract_lets v1 v2 v3 v4 v5 v6 v7 v8 v9 v10
  have h3 : Evolves s₀ v3.2 := State.latch_ev _ hev
  have h4 : Evolves s₀ v4 := by
    dsimp -zeta only [v4]
    generalize v3.1 = y
    cases y
    · exact h3
    · exact State.dset_ev _ _ (State.dset_ev _ _ h3)
  have h7 : Evolves s₀ v7 := State.modStream_ev _ _ h4
  have h9 : Evolves s₀ v9 := State.modStream_ev _ _ (State.dadd_ev _ _ h7)
  have h10 : Evolves s₀ v10 := by
    dsimp -zeta only [v10]
    generalize v6 = y
    generalize v1.fresh = z
    cases y <;> cases z
    · exact h9
    · exact ite_ev (State.encodeSample_ev _ _ _ _ _ _ h9) h9
    all_goals exact State.encodeSample_ev _ _ _ _ _ _ (State.modStream_ev _ _ h7)
  exact State.launchEncoded_ev _ _ (ite_ev (State.dadd_ev _ _ h10) h10)

end Sys2Proof.Machine
end

