-- ==== Sys2Proof/Laws/EvolveRoutes.lean ====
section
/-!
SUPPORT. What no command does: the operations of Routes.lean (see Evolve.lean).
-/

namespace Sys2Proof.Machine

variable {s₀ : State}

theorem State.startGen_ev {s : State} (hev : Evolves s₀ s) : Evolves s₀ (State.startGen s) := by
  unfold State.startGen
  with_reducible repeat' first | assumption | extract_lets | apply State.dset_ev | apply State.modFab_ev

theorem State.commitGen_ev  {s : State} (hev : Evolves s₀ s) : Evolves s₀ (State.commitGen s) := by
  unfold State.commitGen
  repeat' first
    | with_reducible assumption
    | extract_lets
    | with_reducible apply State.dset_ev
    | with_reducible apply State.modFab_ev
    | with_reducible apply ite_ev
    | with_reducible apply ite_snd_ev
    | with_reducible apply ite_fst_ev
    | with_reducible apply ite_evTo
    | with_reducible apply evolvesTo_next
    | with_reducible exact Evolves.refl _
    | with_reducible apply foldl_ev
    | with_reducible apply foldl_fst_ev
    | with_reducible apply foldl_snd_ev
    | with_reducible rfl
    | with_reducible exact Nat.le_refl _
    | (intro _; with_reducible exact Nat.le_refl _)
    | (intro _; with_reducible exact rfl)
    | (intro m hm; change Memory.wf _ = true; exact hm)
    | intro _
    | split
    | dsimp only
    | with_reducible apply State.mk_ev

theorem State.wantGen_ev {s : State} (hev : Evolves s₀ s) : Evolves s₀ (State.wantGen s) := by
  unfold State.wantGen
  with_reducible repeat' first | assumption | extract_lets | apply State.modFab_ev | apply State.startGen_ev | apply ite_ev

theorem State.switchUnits_ev (n : Nat) {s : State} (hev : Evolves s₀ s) : Evolves s₀ (State.switchUnits s n) := by
  unfold State.switchUnits
  repeat' first
    | with_reducible assumption
    | extract_lets
    | with_reducible apply State.modFab_ev
    | with_reducible apply ite_ev
    | with_reducible apply ite_snd_ev
    | with_reducible apply ite_fst_ev
    | with_reducible apply ite_evTo
    | with_reducible apply evolvesTo_next
    | with_reducible exact Evolves.refl _
    | with_reducible apply foldl_ev
    | with_reducible apply foldl_fst_ev
    | with_reducible apply foldl_snd_ev
    | with_reducible rfl
    | with_reducible exact Nat.le_refl _
    | (intro _; with_reducible exact Nat.le_refl _)
    | (intro _; with_reducible exact rfl)
    | (intro m hm; change Memory.wf _ = true; exact hm)
    | intro _
    | split
    | dsimp only
    | with_reducible apply State.mk_ev

theorem State.dropLinks_ev (sw : Nat) (ports : List Nat) {s : State} (hev : Evolves s₀ s) : Evolves s₀ (State.dropLinks s sw ports) := by
  unfold State.dropLinks
  repeat' first
    | with_reducible assumption
    | extract_lets
    | with_reducible apply State.dset_ev
    | with_reducible apply State.modFab_ev
    | with_reducible apply State.wantGen_ev
    | with_reducible apply ite_ev
    | with_reducible apply ite_snd_ev
    | with_reducible apply ite_fst_ev
    | with_reducible apply ite_evTo
    | with_reducible apply evolvesTo_next
    | with_reducible exact Evolves.refl _
    | with_reducible apply foldl_ev
    | with_reducible apply foldl_fst_ev
    | with_reducible apply foldl_snd_ev
    | with_reducible rfl
    | with_reducible exact Nat.le_refl _
    | (intro _; with_reducible exact Nat.le_refl _)
    | (intro _; with_reducible exact rfl)
    | (intro m hm; change Memory.wf _ = true; exact hm)
    | intro _
    | split
    | dsimp only
    | with_reducible apply State.mk_ev

theorem State.seqRestart_ev (a : Nat) {s : State} (hev : Evolves s₀ s) : Evolves s₀ (State.seqRestart s a) := by
  unfold State.seqRestart
  with_reducible repeat' first | assumption | apply State.modFab_ev

theorem State.resend_ev (u : Unacked) (count : Bool) {s : State} (hev : Evolves s₀ s) : Evolves s₀ (State.resend s u count) := by
  unfold State.resend
  with_reducible repeat' first | assumption | extract_lets | apply State.dadd64_ev | apply State.modFab_ev | apply State.out_ev

theorem State.modMarks_ev (k : Nat) (f : SeqMarks → SeqMarks) {s : State} (hev : Evolves s₀ s) : Evolves s₀ (State.modMarks s k f) := by
  unfold State.modMarks
  with_reducible repeat' first | assumption | apply State.modFab_ev

theorem State.sendAck_ev (p : Packet) {s : State} (hev : Evolves s₀ s) : Evolves s₀ (State.sendAck s p) := by
  unfold State.sendAck
  with_reducible repeat' first | assumption | apply State.out_ev

theorem State.completePacket_ev (p : Packet) {s : State} (hev : Evolves s₀ s) : Evolves s₀ (State.completePacket s p) := by
  unfold State.completePacket
  repeat' first
    | with_reducible assumption
    | extract_lets
    | with_reducible apply State.modFab_ev
    | with_reducible apply State.modMarks_ev
    | with_reducible apply State.sendAck_ev
    | with_reducible apply ite_ev
    | with_reducible apply ite_snd_ev
    | with_reducible apply ite_fst_ev
    | with_reducible apply ite_evTo
    | with_reducible apply evolvesTo_next
    | with_reducible exact Evolves.refl _
    | with_reducible apply foldl_ev
    | with_reducible apply foldl_fst_ev
    | with_reducible apply foldl_snd_ev
    | with_reducible rfl
    | with_reducible exact Nat.le_refl _
    | (intro _; with_reducible exact Nat.le_refl _)
    | (intro _; with_reducible exact rfl)
    | (intro m hm; change Memory.wf _ = true; exact hm)
    | intro _
    | split
    | dsimp only
    | with_reducible apply State.mk_ev

end Sys2Proof.Machine
end

