-- ==== Sys2Proof/Laws/EvolveFaults.lean ====
section
/-!
SUPPORT. What no command does: the operations of Faults.lean (see Evolve.lean).
-/

namespace Sys2Proof.Machine

variable {s₀ : State}

theorem State.logDefect_ev (kind origin unit detail : Nat) {s : State} (hev : Evolves s₀ s) : Evolves s₀ (State.logDefect s kind origin unit detail) := by
  unfold State.logDefect
  repeat' first
    | with_reducible assumption
    | extract_lets
    | with_reducible apply State.dset_ev
    | with_reducible apply State.modFloor_ev
    | with_reducible apply State.overClear_ev
    | with_reducible apply ite_ev
    | with_reducible apply ite_snd_ev
    | with_reducible apply ite_fst_ev
    | with_reducible apply ite_evTo
    | with_reducible apply evolvesTo_next
    | with_reducible exact Evolves.refl _
    | with_reducible apply foldl_ev
    | with_reducible apply foldl_fst_ev
    | with_reducible apply foldl_snd_ev
    | with_reducible rfl
    | with_reducible exact Nat.le_refl _
    | (intro _; with_reducible exact Nat.le_refl _)
    | (intro _; with_reducible exact rfl)
    | (intro m hm; change Memory.wf _ = true; exact hm)
    | intro _
    | split
    | dsimp only
    | with_reducible apply State.mk_ev

theorem State.report_ev (rep : FaultReport) {s : State} (hev : Evolves s₀ s) : Evolves s₀ (State.report s rep) := by
  unfold State.report
  repeat' first
    | with_reducible assumption
    | extract_lets
    | with_reducible apply State.dadd_ev
    | with_reducible apply State.dset_ev
    | with_reducible apply State.emergency_ev
    | with_reducible apply State.ledgerFlag_ev
    | with_reducible apply State.mark_ev
    | with_reducible apply State.modRel_ev
    | with_reducible apply State.overClear_ev
    | with_reducible apply State.updateFaultN_ev
    | with_reducible apply ite_ev
    | with_reducible apply ite_snd_ev
    | with_reducible apply ite_fst_ev
    | with_reducible apply ite_evTo
    | with_reducible apply evolvesTo_next
    | with_reducible exact Evolves.refl _
    | with_reducible apply foldl_ev
    | with_reducible apply foldl_fst_ev
    | with_reducible apply foldl_snd_ev
    | with_reducible rfl
    | with_reducible exact Nat.le_refl _
    | (intro _; with_reducible exact Nat.le_refl _)
    | (intro _; with_reducible exact rfl)
    | (intro m hm; change Memory.wf _ = true; exact hm)
    | intro _
    | split
    | dsimp only
    | with_reducible apply State.mk_ev

theorem State.reportUnit_ev (code sev kind unit : Nat) (n : Option Nat) (detail : Nat) {s : State} (hev : Evolves s₀ s) : Evolves s₀ (State.reportUnit s code sev kind unit n detail) := by
  unfold State.reportUnit
  with_reducible repeat' first | assumption | apply State.report_ev

theorem State.loseCore_ev (c : Nat) {s : State} (hev : Evolves s₀ s) : Evolves s₀ (State.loseCore s c) := by
  unfold State.loseCore
  extract_lets v1 v2 v3 v4 v5 v6
  have h3 : Evolves s₀ v3 := by
    dsimp -zeta only [v3]
    generalize v1 = y
    cases y
    · exact hev
    · exact State.mark_ev _ _ _ _ _ (State.ledgerDrop_ev _ _ _ hev)
  exact State.reportUnit_ev _ _ _ _ _ _ (State.dadd_ev _ _ (State.modRel_ev _ (State.modCore_ev _ _ h3)))

theorem State.dropSwapOut_ev (c : Nat) {s : State} (hev : Evolves s₀ s) : Evolves s₀ (State.dropSwapOut s c) := by
  unfold State.dropSwapOut
  repeat' first
    | with_reducible assumption
    | extract_lets
    | with_reducible apply State.dset_ev
    | with_reducible apply State.modRel_ev
    | with_reducible apply ite_ev
    | with_reducible apply ite_snd_ev
    | with_reducible apply ite_fst_ev
    | with_reducible apply ite_evTo
    | with_reducible apply evolvesTo_next
    | with_reducible exact Evolves.refl _
    | with_reducible apply foldl_ev
    | with_reducible apply foldl_fst_ev
    | with_reducible apply foldl_snd_ev
    | with_reducible rfl
    | with_reducible exact Nat.le_refl _
    | (intro _; with_reducible exact Nat.le_refl _)
    | (intro _; with_reducible exact rfl)
    | (intro m hm; change Memory.wf _ = true; exact hm)
    | intro _
    | split
    | dsimp only
    | with_reducible apply State.mk_ev

theorem State.retireSlot_ev (cl slot : Nat) {s : State} (hev : Evolves s₀ s) : Evolves s₀ (State.retireSlot s cl slot) := by
  unfold State.retireSlot
  repeat' first
    | with_reducible assumption
    | extract_lets
    | with_reducible apply State.dadd_ev
    | with_reducible apply State.dropLinks_ev
    | with_reducible apply State.logDefect_ev
    | with_reducible apply State.modFloor_ev
    | with_reducible apply ite_ev
    | with_reducible apply ite_snd_ev
    | with_reducible apply ite_fst_ev
    | with_reducible apply ite_evTo
    | with_reducible apply evolvesTo_next
    | with_reducible exact Evolves.refl _
    | with_reducible apply foldl_ev
    | with_reducible apply foldl_fst_ev
    | with_reducible apply foldl_snd_ev
    | with_reducible rfl
    | with_reducible exact Nat.le_refl _
    | (intro _; with_reducible exact Nat.le_refl _)
    | (intro _; with_reducible exact rfl)
    | (intro m hm; change Memory.wf _ = true; exact hm)
    | intro _
    | split
    | dsimp only
    | with_reducible apply State.mk_ev

theorem State.declareFailed_ev (c : Nat) {s : State} (hev : Evolves s₀ s) : Evolves s₀ (State.declareFailed s c) := by
  unfold State.declareFailed
  extract_lets k cl n slot s1 s2 d cold kp
  have h6 : Evolves s₀ s2 := State.dropSwapOut_ev _ (State.modFab_ev _ (State.modCore_ev _ _ (State.retireSlot_ev _ _ hev)))
  refine ite_ev hev (ite_ev (State.loseCore_ev _ h6) ?_)
  split
  · exact State.loseCore_ev _ h6
  · extract_lets w3 w4
    have k3 : Evolves s₀ w3 := State.modCore_ev _ _ h6
    have k4 : Evolves s₀ w4 := by
      dsimp -zeta only [w4]
      generalize n = y
      cases y
      · exact k3
      · exact State.mark_ev _ _ _ _ _ k3
    exact ite_ev (State.reportUnit_ev _ _ _ _ _ _ k4) (State.reportUnit_ev _ _ _ _ _ _ k4)

theorem State.failCore_ev (c code detail : Nat) {s : State} (hev : Evolves s₀ s) : Evolves s₀ (State.failCore s c code detail) := by
  unfold State.failCore
  with_reducible repeat' first | assumption | extract_lets | apply State.declareFailed_ev | apply State.reportUnit_ev

theorem State.testCore_ev (c : Nat) (pass : Bool) {s : State} (hev : Evolves s₀ s) : Evolves s₀ (State.testCore s c pass) := by
  unfold State.testCore
  with_reducible repeat' first | assumption | extract_lets | apply State.failCore_ev | apply ite_ev

end Sys2Proof.Machine
end

