-- ==== Sys2Proof/Laws/EvolveDeliver.lean ====
section
/-!
SUPPORT. What no command does: the operations of Deliver.lean (see Evolve.lean).
-/

namespace Sys2Proof.Machine

variable {s₀ : State}

theorem State.journalPut_ev (cl : Nat) (es : List JEntry) {s : State} (hev : Evolves s₀ s) : Evolves s₀ (State.journalPut s cl es) := by
  unfold State.journalPut
  with_reducible repeat' first | assumption | extract_lets | apply State.modCluster_ev | apply ite_ev

theorem State.ringPeak_ev (c : Nat) {s : State} (hev : Evolves s₀ s) : Evolves s₀ (State.ringPeak s c) := by
  unfold State.ringPeak
  repeat' first
    | with_reducible assumption | extract_lets | with_reducible apply State.dmax_ev | with_reducible apply State.modCm_ev | split

theorem State.bobbinPut_ev (c : Nat) (r : EvRec) {s : State} (hev : Evolves s₀ s) : Evolves s₀ (State.bobbinPut s c r) := by
  unfold State.bobbinPut
  with_reducible repeat' first
    | assumption | extract_lets | apply State.bump_ev | apply State.ledgerDropAt_ev | apply State.modCore_ev | apply State.ringPeak_ev
    | apply ite_ev

theorem State.ldsPut_ev (c : Nat) (w : BitVec 64) (t : Nat) (remote : Bool) {s : State} (hev : Evolves s₀ s) : Evolves s₀ (State.ldsPut s c w t remote) := by
  unfold State.ldsPut
  with_reducible repeat' first
    | assumption | extract_lets | apply State.dadd64_ev | apply State.dmax_ev | apply State.ledgerDropAt_ev | apply State.modCluster_ev
    | apply ite_ev

theorem State.releaseOne_ev (c p : Nat) (r : LdsRec) {s : State} (hev : Evolves s₀ s) : Evolves s₀ (State.releaseOne s c p r) := by
  unfold State.releaseOne
  repeat' first
    | with_reducible assumption | extract_lets | with_reducible apply State.bobbinPut_ev | with_reducible apply State.bump_ev
    | with_reducible apply State.journalPut_ev | with_reducible apply State.ledgerDrop_ev | with_reducible apply State.ledgerFlag_ev
    | with_reducible apply State.modCore_ev | with_reducible apply ite_ev | split

theorem State.releaseCore_ev (c p : Nat) {s : State} (hev : Evolves s₀ s) : Evolves s₀ (State.releaseCore s c p) := by
  unfold State.releaseCore
  with_reducible repeat' first
    | assumption | extract_lets | apply State.modCluster_ev | apply State.releaseOne_ev | apply foldl_ev | intro _

theorem State.cacheRead_ev (c : Nat) (kd : CacheKind) (i units : Nat) {s : State} (hev : Evolves s₀ s) : Evolves s₀ (State.cacheRead s c kd i units) := by
  unfold State.cacheRead
  repeat' first
    | with_reducible assumption | extract_lets | with_reducible apply State.bump_ev | with_reducible apply State.modCore_ev | split

theorem State.enterRow_ev (c row units : Nat) (l : List CacheObj) {s : State} (hev : Evolves s₀ s) : Evolves s₀ (State.enterRow s c row units l) := by
  unfold State.enterRow
  with_reducible repeat' first | assumption | extract_lets | apply State.modCore_ev

theorem State.relist_ev (n c : Nat) {s : State} (hev : Evolves s₀ s) : Evolves s₀ (State.relist s n c) := by
  unfold State.relist
  repeat' first
    | with_reducible assumption
    | extract_lets
    | with_reducible apply State.modCore_ev
    | with_reducible apply ite_ev
    | with_reducible apply ite_snd_ev
    | with_reducible apply ite_fst_ev
    | with_reducible apply ite_evTo
    | with_reducible apply evolvesTo_next
    | with_reducible exact Evolves.refl _
    | with_reducible apply foldl_ev
    | with_reducible apply foldl_fst_ev
    | with_reducible apply foldl_snd_ev
    | with_reducible rfl
    | with_reducible exact Nat.le_refl _
    | (intro _; with_reducible exact Nat.le_refl _)
    | (intro _; with_reducible exact rfl)
    | (intro m hm; change Memory.wf _ = true; exact hm)
    | intro _
    | split
    | dsimp only
    | with_reducible apply State.mk_ev

theorem State.settleCaches_ev (n adapt limit : Nat) {s : State} (hev : Evolves s₀ s) : Evolves s₀ (State.settleCaches s n adapt limit) := by
  unfold State.settleCaches
  repeat' first
    | with_reducible assumption
    | extract_lets
    | with_reducible apply State.each_ev
    | with_reducible apply State.modCore_ev
    | with_reducible apply State.relist_ev
    | with_reducible apply ite_ev
    | with_reducible apply ite_snd_ev
    | with_reducible apply ite_fst_ev
    | with_reducible apply ite_evTo
    | with_reducible apply evolvesTo_next
    | with_reducible exact Evolves.refl _
    | with_reducible apply foldl_ev
    | with_reducible apply foldl_fst_ev
    | with_reducible apply foldl_snd_ev
    | with_reducible rfl
    | with_reducible exact Nat.le_refl _
    | (intro _; with_reducible exact Nat.le_refl _)
    | (intro _; with_reducible exact rfl)
    | (intro m hm; change Memory.wf _ = true; exact hm)
    | intro _
    | split
    | dsimp only
    | with_reducible apply State.mk_ev

theorem State.demandFetch_ev (sl : Slot) (c row : Nat) {s : State} (hev : Evolves s₀ s) : Evolves s₀ (State.demandFetch s sl c row).2 := by
  unfold State.demandFetch
  repeat' first
    | with_reducible assumption | extract_lets | with_reducible apply State.bump_ev | with_reducible apply State.cacheRead_ev
    | with_reducible apply State.enterRow_ev | with_reducible apply State.modCore_ev | with_reducible apply ite_ev
    | with_reducible apply ite_snd_ev | split

theorem State.issuePrefetch_ev (sl : Slot) (c row : Nat) {s : State} (hev : Evolves s₀ s) : Evolves s₀ (State.issuePrefetch s sl c row) := by
  unfold State.issuePrefetch
  repeat' first
    | with_reducible assumption | extract_lets | with_reducible apply State.bump_ev | with_reducible apply State.modCore_ev | split

theorem execReadData_ev (c row : Nat) (ok : Bool) (s : State) : EvolvesTo s (execReadData c row ok s) := by
  unfold execReadData
  repeat' first
    | extract_lets | with_reducible apply State.bump_ev | with_reducible apply State.enterRow_ev | with_reducible apply State.modCore_ev
    | with_reducible apply ite_ev | with_reducible apply evolvesTo_next | with_reducible exact Evolves.refl _ | split
    | with_reducible apply State.mk_ev

theorem State.pushHaul_ev (h : Haul) {s : State} (hev : Evolves s₀ s) : Evolves s₀ (State.pushHaul s h) := by
  unfold State.pushHaul
  with_reducible repeat' first | assumption | apply State.mk_ev

theorem State.launchHaul_ev (c : Nat) (o : OpenHaul) {s : State} (hev : Evolves s₀ s) : Evolves s₀ (State.launchHaul s c o) := by
  unfold State.launchHaul
  with_reducible repeat' first | assumption | extract_lets | apply State.bump_ev | apply State.modCore_ev | apply State.pushHaul_ev

theorem State.launchAll_ev (c : Nat) {s : State} (hev : Evolves s₀ s) : Evolves s₀ (State.launchAll s c) := by
  unfold State.launchAll
  with_reducible repeat' first | assumption | extract_lets | apply State.launchHaul_ev | apply foldl_ev | intro _

theorem State.emitTo_ev (c dst : Nat) (ev : List (BitVec 64)) (rem : List RemoteRec) {s : State} (hev : Evolves s₀ s) : Evolves s₀ (State.emitTo s c dst ev rem) := by
  unfold State.emitTo
  repeat' first
    | with_reducible assumption | extract_lets | with_reducible apply State.launchHaul_ev | with_reducible apply State.modCore_ev
    | with_reducible apply ite_ev | split

theorem State.sendEvent_ev (c gid n e : Nat) {s : State} (hev : Evolves s₀ s) : Evolves s₀ (State.sendEvent s c gid n e) := by
  unfold State.sendEvent
  with_reducible repeat' first | assumption | extract_lets | apply State.emitTo_ev | apply ite_ev

theorem State.traceSpike_ev (sl : Slot) (c : Nat) (sp : Spike) {s : State} (hev : Evolves s₀ s) : Evolves s₀ (State.traceSpike s sl c sp) := by
  unfold State.traceSpike
  with_reducible repeat' first
    | assumption | extract_lets | apply State.absorbCount_ev | apply State.tracePost_ev | apply ite_ev | apply foldl_ev | intro _

theorem State.discardEvents_ev (c a : Nat) {s : State} (hev : Evolves s₀ s) : Evolves s₀ (State.discardEvents s c a) := by
  unfold State.discardEvents
  repeat' first
    | with_reducible assumption
    | extract_lets
    | with_reducible apply State.absorbCount_ev
    | with_reducible apply State.modCore_ev
    | with_reducible apply ite_ev
    | with_reducible apply ite_snd_ev
    | with_reducible apply ite_fst_ev
    | with_reducible apply ite_evTo
    | with_reducible apply evolvesTo_next
    | with_reducible exact Evolves.refl _
    | with_reducible apply foldl_ev
    | with_reducible apply foldl_fst_ev
    | with_reducible apply foldl_snd_ev
    | with_reducible rfl
    | with_reducible exact Nat.le_refl _
    | (intro _; with_reducible exact Nat.le_refl _)
    | (intro _; with_reducible exact rfl)
    | (intro m hm; change Memory.wf _ = true; exact hm)
    | intro _
    | split
    | dsimp only
    | with_reducible apply State.mk_ev

theorem State.emitSpike_ev (sl : Slot) (c : Nat) (sp : Spike) {s : State} (hev : Evolves s₀ s) : Evolves s₀ (State.emitSpike s sl c sp) := by
  unfold State.emitSpike
  repeat' first
    | with_reducible assumption
    | extract_lets
    | with_reducible apply State.bump_ev
    | with_reducible apply State.cacheRead_ev
    | with_reducible apply State.discardEvents_ev
    | with_reducible apply State.modCore_ev
    | with_reducible apply State.sendEvent_ev
    | with_reducible apply State.traceSpike_ev
    | with_reducible apply ite_ev
    | with_reducible apply ite_snd_ev
    | with_reducible apply ite_fst_ev
    | with_reducible apply ite_evTo
    | with_reducible apply evolvesTo_next
    | with_reducible exact Evolves.refl _
    | with_reducible apply foldl_ev
    | with_reducible apply foldl_fst_ev
    | with_reducible apply foldl_snd_ev
    | with_reducible rfl
    | with_reducible exact Nat.le_refl _
    | (intro _; with_reducible exact Nat.le_refl _)
    | (intro _; with_reducible exact rfl)
    | (intro m hm; change Memory.wf _ = true; exact hm)
    | intro _
    | split
    | dsimp only
    | with_reducible apply State.mk_ev

theorem State.emitWaiting_ev (sl : Slot) (c : Nat) (fuel : Nat) {s : State} (hev : Evolves s₀ s) :
    Evolves s₀ (s.emitWaiting sl c fuel) := by
  induction fuel generalizing s with
  | zero => exact hev
  | succ n ih =>
    simp only [State.emitWaiting]
    split
    · exact ite_ev (State.launchAll_ev _ (State.modCore_ev _ _ hev)) (State.modCore_ev _ _ hev)
    · exact ite_ev (State.modCore_ev _ _ hev) (ih (State.emitSpike_ev _ _ _ (State.modCore_ev _ _ (State.modCluster_ev _ _ hev))))


theorem execHaulOpenTimeout_ev (c dst t : Nat) (s : State) : EvolvesTo s (execHaulOpenTimeout c dst t s) := by
  unfold execHaulOpenTimeout
  repeat' first
    | extract_lets | with_reducible apply State.at_ev | with_reducible apply State.launchHaul_ev | with_reducible apply ite_ev
    | with_reducible apply evolvesTo_next | with_reducible exact Evolves.refl _ | split

theorem State.tryClusterBelay_ev (cl since : Nat) {s : State} (hev : Evolves s₀ s) : Evolves s₀ (State.tryClusterBelay s cl since) := by
  unfold State.tryClusterBelay
  with_reducible repeat' first | assumption | extract_lets | apply State.modCluster_ev | apply ite_ev

theorem execJournalRecord_ev (cl : Nat) (s : State) : EvolvesTo s (execJournalRecord cl s) := by
  unfold execJournalRecord
  repeat' first
    | extract_lets | with_reducible apply State.journalPut_ev | with_reducible apply State.modCluster_ev
    | with_reducible apply State.tryClusterBelay_ev | with_reducible apply evolvesTo_next | with_reducible exact Evolves.refl _ | split

theorem execJournalStallEnd_ev (c t : Nat) (s : State) : EvolvesTo s (execJournalStallEnd c t s) := by
  exact evolvesTo_next (ite_ev (State.emitWaiting_ev _ _ _ (State.at_ev _ (Evolves.refl _))) (State.at_ev _ (Evolves.refl _)))

theorem execDrain_ev (c : Nat) (s : State) : EvolvesTo s (execDrain c s) := by
  unfold execDrain
  with_reducible repeat' first | extract_lets | apply State.modCore_ev | apply ite_ev | apply evolvesTo_next | exact Evolves.refl _

theorem execBelay_ev (c : Nat) (s : State) : EvolvesTo s (execBelay c s) := by
  unfold execBelay
  with_reducible repeat' first
    | extract_lets | apply State.modCore_ev | apply State.tryClusterBelay_ev | apply ite_ev | apply evolvesTo_next | exact Evolves.refl _

theorem State.arriveEvent_ev (c p : Nat) (remote : Bool) (w : BitVec 64) {s : State} (hev : Evolves s₀ s) : Evolves s₀ (State.arriveEvent s c p remote w) := by
  unfold State.arriveEvent
  repeat' first
    | with_reducible assumption | extract_lets | with_reducible apply State.bobbinPut_ev | with_reducible apply State.bump_ev
    | with_reducible apply State.journalPut_ev | with_reducible apply State.ldsPut_ev | with_reducible apply State.ledgerDrop_ev
    | with_reducible apply ite_ev | split

theorem State.arriveEncoded_ev (c p k : Nat) (w : BitVec 64) {s : State} (hev : Evolves s₀ s) : Evolves s₀ (State.arriveEncoded s c p k w) := by
  unfold State.arriveEncoded
  repeat' first
    | with_reducible assumption | extract_lets | with_reducible apply State.absorbCount_ev | with_reducible apply State.bump_ev
    | with_reducible apply State.ledgerDrop_ev | with_reducible apply State.modCore_ev | with_reducible apply ite_ev | split

theorem State.arriveHaul_ev (id : Nat) (h : Haul) {s : State} (hev : Evolves s₀ s) : Evolves s₀ (State.arriveHaul s id h) := by
  unfold State.arriveHaul
  repeat' first
    | with_reducible assumption
    | extract_lets
    | with_reducible apply State.arriveEncoded_ev
    | with_reducible apply State.arriveEvent_ev
    | with_reducible apply State.dadd_ev
    | with_reducible apply State.dadd64_ev
    | with_reducible apply State.launchEncoded_ev
    | with_reducible apply State.modRem_ev
    | with_reducible apply State.out_ev
    | with_reducible apply ite_ev
    | with_reducible apply ite_snd_ev
    | with_reducible apply ite_fst_ev
    | with_reducible apply ite_evTo
    | with_reducible apply evolvesTo_next
    | with_reducible exact Evolves.refl _
    | with_reducible apply foldl_ev
    | with_reducible apply foldl_fst_ev
    | with_reducible apply foldl_snd_ev
    | with_reducible rfl
    | with_reducible exact Nat.le_refl _
    | (intro _; with_reducible exact Nat.le_refl _)
    | (intro _; with_reducible exact rfl)
    | (intro m hm; change Memory.wf _ = true; exact hm)
    | intro _
    | split
    | dsimp only
    | with_reducible apply State.mk_ev

theorem State.ackHaul_ev (h : Haul) {s : State} (hev : Evolves s₀ s) : Evolves s₀ (State.ackHaul s h) := by
  unfold State.ackHaul
  repeat' first
    | with_reducible assumption
    | extract_lets
    | with_reducible apply State.completePacket_ev
    | with_reducible apply ite_ev
    | with_reducible apply ite_snd_ev
    | with_reducible apply ite_fst_ev
    | with_reducible apply ite_evTo
    | with_reducible apply evolvesTo_next
    | with_reducible exact Evolves.refl _
    | with_reducible apply foldl_ev
    | with_reducible apply foldl_fst_ev
    | with_reducible apply foldl_snd_ev
    | with_reducible rfl
    | with_reducible exact Nat.le_refl _
    | (intro _; with_reducible exact Nat.le_refl _)
    | (intro _; with_reducible exact rfl)
    | (intro m hm; change Memory.wf _ = true; exact hm)
    | intro _
    | split
    | dsimp only
    | with_reducible apply State.mk_ev

theorem execEventHaulArrival_ev (id t : Nat) (s : State) : EvolvesTo s (execEventHaulArrival id t s) := by
  unfold execEventHaulArrival
  repeat' first
    | with_reducible assumption
    | extract_lets
    | with_reducible apply State.ackHaul_ev
    | with_reducible apply State.arriveHaul_ev
    | with_reducible apply State.at_ev
    | with_reducible apply ite_ev
    | with_reducible apply ite_snd_ev
    | with_reducible apply ite_fst_ev
    | with_reducible apply ite_evTo
    | with_reducible apply evolvesTo_next
    | with_reducible exact Evolves.refl _
    | with_reducible apply foldl_ev
    | with_reducible apply foldl_fst_ev
    | with_reducible apply foldl_snd_ev
    | with_reducible rfl
    | with_reducible exact Nat.le_refl _
    | (intro _; with_reducible exact Nat.le_refl _)
    | (intro _; with_reducible exact rfl)
    | (intro m hm; change Memory.wf _ = true; exact hm)
    | intro _
    | split
    | dsimp only
    | with_reducible apply State.mk_ev

end Sys2Proof.Machine
end

