-- ==== Sys2Proof/Laws/EvolveCoreWork.lean ====
section
/-!
SUPPORT. What no command does: the operations of CoreWork.lean (see Evolve.lean).
-/

namespace Sys2Proof.Machine

variable {s₀ : State}

theorem State.clearAcc_ev (c : Nat) {s : State} (hev : Evolves s₀ s) : Evolves s₀ (State.clearAcc s c) := by
  unfold State.clearAcc
  with_reducible repeat' first | assumption | apply State.modCm_ev

theorem State.clearGuard_ev (c : Nat) {s : State} (hev : Evolves s₀ s) : Evolves s₀ (State.clearGuard s c) := by
  unfold State.clearGuard
  with_reducible repeat' first | assumption | apply State.modCm_ev

theorem State.setNeuron_ev (g : Nat) (w : BitVec 64) {s : State} (hev : Evolves s₀ s) : Evolves s₀ (State.setNeuron s g w) := by
  unfold State.setNeuron
  with_reducible repeat' first | assumption | apply State.modCm_ev

theorem State.loadRecords_ev (t : Tile) (c : Nat) {s : State} (hev : Evolves s₀ s) : Evolves s₀ (State.loadRecords s t c) := by
  unfold State.loadRecords
  with_reducible repeat' first | assumption | extract_lets | apply State.each_ev | apply State.modCm_ev | intro _

theorem State.loadWords_ev (t : Tile) (c : Nat) {s : State} (hev : Evolves s₀ s) : Evolves s₀ (State.loadWords s t c) := by
  unfold State.loadWords
  with_reducible repeat' first | assumption | extract_lets | apply State.each_ev | apply State.setNeuron_ev | intro _

theorem State.enterResident_ev (sl : Slot) (c : Nat) {s : State} (hev : Evolves s₀ s) : Evolves s₀ (State.enterResident s sl c).1 := by
  unfold State.enterResident
  with_reducible repeat' first | assumption | extract_lets | apply State.modCore_ev | apply ite_fst_ev | apply foldl_fst_ev | intro _

theorem State.loadCore_ev (sl : Slot) (c : Nat) {s : State} (hev : Evolves s₀ s) : Evolves s₀ (State.loadCore s sl c) := by
  unfold State.loadCore
  repeat' first
    | with_reducible assumption | extract_lets | with_reducible apply State.enterResident_ev | with_reducible apply State.loadRecords_ev
    | with_reducible apply State.loadWords_ev | with_reducible apply State.modCore_ev | split

theorem State.loadSpare_ev (c : Nat) {s : State} (hev : Evolves s₀ s) : Evolves s₀ (State.loadSpare s c) := by
  unfold State.loadSpare
  repeat' first
    | with_reducible assumption | extract_lets | with_reducible apply State.enterResident_ev | with_reducible apply State.loadRecords_ev
    | with_reducible apply State.loadWords_ev | with_reducible apply State.modCm_ev | with_reducible apply State.modCore_ev
    | with_reducible apply ite_ev | split | with_reducible apply State.mk_ev

theorem State.spareTakes_ev (c sp : Nat) {s : State} (hev : Evolves s₀ s) : Evolves s₀ (State.spareTakes s c sp) := by
  unfold State.spareTakes
  repeat' first
    | with_reducible assumption
    | extract_lets
    | with_reducible apply State.dadd_ev
    | with_reducible apply State.freshSlot_ev
    | with_reducible apply State.modFloor_ev
    | with_reducible apply State.seqRestart_ev
    | with_reducible apply ite_ev
    | with_reducible apply ite_snd_ev
    | with_reducible apply ite_fst_ev
    | with_reducible apply ite_evTo
    | with_reducible apply evolvesTo_next
    | with_reducible exact Evolves.refl _
    | with_reducible apply foldl_ev
    | with_reducible apply foldl_fst_ev
    | with_reducible apply foldl_snd_ev
    | with_reducible rfl
    | with_reducible exact Nat.le_refl _
    | (intro _; with_reducible exact Nat.le_refl _)
    | (intro _; with_reducible exact rfl)
    | (intro m hm; change Memory.wf _ = true; exact hm)
    | intro _
    | split
    | dsimp only
    | with_reducible apply State.mk_ev

theorem State.openBase_ev (c p : Nat) {s : State} (hev : Evolves s₀ s) : Evolves s₀ (State.openBase s c p) := by
  unfold State.openBase
  with_reducible repeat' first | assumption | extract_lets | apply State.clearAcc_ev | apply State.modCore_ev

theorem State.noteLate_ev (c : Nat) (l : List EvRec) {s : State} (hev : Evolves s₀ s) : Evolves s₀ (State.noteLate s c l) := by
  unfold State.noteLate
  with_reducible repeat' first | assumption | extract_lets | apply State.ledgerFlag_ev | apply State.modCore_ev | apply ite_ev

theorem State.openLive_ev (c p : Nat) {s : State} (hev : Evolves s₀ s) : Evolves s₀ (State.openLive s c p) := by
  unfold State.openLive
  repeat' first
    | with_reducible assumption
    | extract_lets
    | with_reducible apply State.bump_ev
    | with_reducible apply State.modCore_ev
    | with_reducible apply State.noteLate_ev
    | with_reducible apply State.releaseCore_ev
    | with_reducible apply ite_ev
    | with_reducible apply ite_snd_ev
    | with_reducible apply ite_fst_ev
    | with_reducible apply ite_evTo
    | with_reducible apply evolvesTo_next
    | with_reducible exact Evolves.refl _
    | with_reducible apply foldl_ev
    | with_reducible apply foldl_fst_ev
    | with_reducible apply foldl_snd_ev
    | with_reducible rfl
    | with_reducible exact Nat.le_refl _
    | (intro _; with_reducible exact Nat.le_refl _)
    | (intro _; with_reducible exact rfl)
    | (intro m hm; change Memory.wf _ = true; exact hm)
    | intro _
    | split
    | dsimp only
    | with_reducible apply State.mk_ev

theorem State.openIdle_ev (c : Nat) {s : State} (hev : Evolves s₀ s) : Evolves s₀ (State.openIdle s c) := by
  unfold State.openIdle
  with_reducible repeat' first | assumption | apply State.modCore_ev

theorem State.rejoin_ev (c : Nat) (u : CatchUp) (j : Nat) (cold : Bool) {s : State} (hev : Evolves s₀ s) : Evolves s₀ (State.rejoin s c u j cold) := by
  unfold State.rejoin
  with_reducible repeat' first
    | assumption | extract_lets | apply State.dmax_ev | apply State.dset_ev | apply State.mark_ev | apply State.modCore_ev
    | apply State.modRel_ev | apply ite_ev

theorem State.coldAtOpen_ev (c p : Nat) (u : CatchUp) {s : State} (hev : Evolves s₀ s) : Evolves s₀ (State.coldAtOpen s c p u) := by
  unfold State.coldAtOpen
  with_reducible repeat' first
    | assumption | extract_lets | apply State.dadd_ev | apply State.ledgerDrop_ev | apply State.loadSpare_ev | apply State.modCore_ev
    | apply State.rejoin_ev | apply State.reportUnit_ev

theorem State.openCore_ev (c p : Nat) {s : State} (hev : Evolves s₀ s) : Evolves s₀ (State.openCore s c p) := by
  unfold State.openCore
  repeat' first
    | with_reducible assumption | extract_lets | with_reducible apply State.coldAtOpen_ev | with_reducible apply State.modCore_ev
    | with_reducible apply State.openBase_ev | with_reducible apply State.openIdle_ev | with_reducible apply State.openLive_ev
    | with_reducible apply State.rejoin_ev | with_reducible apply State.releaseCore_ev | with_reducible apply ite_ev | split

theorem execOpenPicot_ev (c t : Nat) (s : State) : EvolvesTo s (execOpenPicot c t s) := by
  unfold execOpenPicot
  with_reducible repeat' first
    | extract_lets | apply State.at_ev | apply State.openCore_ev | apply ite_ev | apply evolvesTo_next | exact Evolves.refl _

theorem State.sendEncodeDone_ev (k : Nat) {s : State} (hev : Evolves s₀ s) : Evolves s₀ (State.sendEncodeDone s k) := by
  unfold State.sendEncodeDone
  repeat' first
    | with_reducible assumption | extract_lets | with_reducible apply State.each_ev | with_reducible apply State.modCluster_ev
    | with_reducible apply State.modStream_ev | intro _ | split

theorem execEncodeDone_ev (k t : Nat) (s : State) : EvolvesTo s (execEncodeDone k t s) := by
  unfold execEncodeDone
  with_reducible repeat' first
    | extract_lets | apply State.at_ev | apply State.sendEncodeDone_ev | apply ite_ev | apply evolvesTo_next | exact Evolves.refl _

theorem execEncodeDoneReceive_ev (cl : Nat) (s : State) : EvolvesTo s (execEncodeDoneReceive cl s) := by
  unfold execEncodeDoneReceive
  with_reducible repeat' first
    | extract_lets | apply State.each_ev | apply State.modCluster_ev | apply State.modCore_ev | apply ite_ev | apply evolvesTo_next
    | exact Evolves.refl _ | intro _

theorem State.addAcc_ev (c q : Nat) (pr : Int) {s : State} (hev : Evolves s₀ s) : Evolves s₀ (State.addAcc s c q pr) := by
  unfold State.addAcc
  with_reducible repeat' first | assumption | extract_lets | apply State.bump_ev | apply State.modCm_ev

theorem State.outlierAdd_ev (c slot : Nat) (w : F16) (n : Nat) {s : State} (hev : Evolves s₀ s) : Evolves s₀ (State.outlierAdd s c slot w n) := by
  unfold State.outlierAdd
  with_reducible repeat' first | assumption | extract_lets | apply State.bump_ev | apply State.modCm_ev

theorem State.accumulateRow_ev (c n : Nat) (r : Row) {s : State} (hev : Evolves s₀ s) : Evolves s₀ (State.accumulateRow s c n r) := by
  unfold State.accumulateRow
  with_reducible repeat' first
    | assumption | extract_lets | apply State.addAcc_ev | apply State.bump_ev | apply State.outlierAdd_ev | apply foldl_ev | intro _

theorem State.fetchRow_ev (sl : Slot) (c : Nat) (w : BitVec 64) {s : State} (hev : Evolves s₀ s) : Evolves s₀ (State.fetchRow s sl c w).2 := by
  unfold State.fetchRow
  repeat' first | with_reducible assumption | extract_lets | with_reducible apply State.demandFetch_ev | split

theorem State.accumulateEvent_ev (sl : Slot) (c t : Nat) (trace : Bool) (w : BitVec 64) {s : State} (hev : Evolves s₀ s) : Evolves s₀ (State.accumulateEvent s sl c t trace w) := by
  unfold State.accumulateEvent
  have hf := State.fetchRow_ev sl c w hev
  split
  · rename_i s' heq
    rw [heq] at hf
    exact State.reportUnit_ev _ _ _ _ _ _ (State.bump_ev _ _ _ hf)
  · rename_i row s' heq
    rw [heq] at hf
    have ha : Evolves s₀ (s'.accumulateRow c (evCount w) row) := State.accumulateRow_ev _ _ _ hf
    extract_lets v1
    refine ite_ev ha ?_
    split
    · exact ha
    · exact State.tracePre_ev _ _ _ _ _ _ _ _ ha

theorem execEventAccumulate_ev (c t : Nat) (s : State) : EvolvesTo s (execEventAccumulate c t s) := by
  unfold execEventAccumulate
  repeat' first
    | extract_lets | with_reducible apply State.accumulateEvent_ev | with_reducible apply State.at_ev | with_reducible apply State.bump_ev
    | with_reducible apply State.modCore_ev | with_reducible apply State.noteLate_ev | with_reducible apply ite_ev
    | with_reducible apply evolvesTo_next | with_reducible exact Evolves.refl _ | split

theorem State.guardCount_ev (ri rs : Nat) (acc : Int) (x : F32) {s : State} (hev : Evolves s₀ s) : Evolves s₀ (State.guardCount s ri rs acc x) := by
  unfold State.guardCount
  with_reducible repeat' first | assumption | extract_lets | apply State.modCm_ev | apply ite_ev

theorem State.sweepPos_ev (slots : List (Nat × Nat)) (c : Nat) (clamp replay withheld : Bool) (setOf : Nat → Nat) (q : Nat) {s : State} (hev : Evolves s₀ s) : Evolves s₀ (State.sweepPos s slots c clamp replay withheld setOf q).1 := by
  unfold State.sweepPos
  with_reducible repeat' first
    | assumption | extract_lets | apply State.bump_ev | apply State.guardCount_ev | apply State.setNeuron_ev | apply ite_ev
    | apply ite_fst_ev

theorem State.sweep_ev (c : Nat) (replay withheld : Bool) (setOf : Nat → Nat) {s : State} (hev : Evolves s₀ s) : Evolves s₀ (State.sweep s c replay withheld setOf).1 := by
  unfold State.sweep
  with_reducible repeat' first | assumption | extract_lets | apply State.bump_ev | apply State.sweepPos_ev | apply foldl_fst_ev | intro _

theorem State.writeCairn_ev (c : Nat) {s : State} (hev : Evolves s₀ s) : Evolves s₀ (State.writeCairn s c) := by
  unfold State.writeCairn
  repeat' first
    | with_reducible assumption | extract_lets | with_reducible apply State.modCm_ev | with_reducible apply State.modCore_ev
    | with_reducible apply ite_ev | split

theorem State.noteLoad_ev (c : Nat) {s : State} (hev : Evolves s₀ s) : Evolves s₀ (State.noteLoad s c) := by
  unfold State.noteLoad
  with_reducible repeat' first | assumption | extract_lets | apply State.dmax_ev

theorem State.integrateAll_ev (c : Nat) {s : State} (hev : Evolves s₀ s) : Evolves s₀ (State.integrateAll s c) := by
  unfold State.integrateAll
  repeat' first
    | with_reducible assumption
    | extract_lets
    | with_reducible apply State.emitWaiting_ev
    | with_reducible apply State.modCore_ev
    | with_reducible apply State.noteLoad_ev
    | with_reducible apply State.sweep_ev
    | with_reducible apply State.writeCairn_ev
    | with_reducible apply ite_ev
    | with_reducible apply ite_snd_ev
    | with_reducible apply ite_fst_ev
    | with_reducible apply ite_evTo
    | with_reducible apply evolvesTo_next
    | with_reducible exact Evolves.refl _
    | with_reducible apply foldl_ev
    | with_reducible apply foldl_fst_ev
    | with_reducible apply foldl_snd_ev
    | with_reducible rfl
    | with_reducible exact Nat.le_refl _
    | (intro _; with_reducible exact Nat.le_refl _)
    | (intro _; with_reducible exact rfl)
    | (intro m hm; change Memory.wf _ = true; exact hm)
    | intro _
    | split
    | dsimp only
    | with_reducible apply State.mk_ev

theorem execIntegrateSweep_ev (c t : Nat) (s : State) : EvolvesTo s (execIntegrateSweep c t s) := by
  unfold execIntegrateSweep
  have h : Evolves s (s.at t) := State.at_ev _ (Evolves.refl _)
  extract_lets v1
  refine evolvesTo_next (ite_ev h ?_)
  extract_lets v2 v3 v4 v5
  exact State.emitWaiting_ev _ _ _ (State.modCore_ev _ _ (State.noteLoad_ev _ (State.sweep_ev _ _ _ _ (State.writeCairn_ev _ h))))

theorem execTruncate_ev (c t : Nat) (s : State) : EvolvesTo s (execTruncate c t s) := by
  unfold execTruncate
  with_reducible repeat' first
    | extract_lets | apply State.at_ev | apply State.modCore_ev | apply ite_ev | apply evolvesTo_next | exact Evolves.refl _

theorem State.absorbCore_ev (c : Nat) {s : State} (hev : Evolves s₀ s) : Evolves s₀ (State.absorbCore s c) := by
  unfold State.absorbCore
  with_reducible repeat' first | assumption | extract_lets | apply State.absorbCount_ev | apply State.modCore_ev

theorem execAbsorb_ev (c : Nat) (s : State) : EvolvesTo s (execAbsorb c s) := by
  unfold execAbsorb
  with_reducible repeat' first | extract_lets | apply State.absorbCore_ev | apply ite_ev | apply evolvesTo_next | exact Evolves.refl _

theorem execClosePicot_ev (c t : Nat) (s : State) : EvolvesTo s (execClosePicot c t s) := by
  unfold execClosePicot
  with_reducible repeat' first
    | extract_lets | apply State.at_ev | apply State.modCore_ev | apply State.modFab_ev | apply ite_ev | apply evolvesTo_next
    | exact Evolves.refl _

end Sys2Proof.Machine
end

