-- ==== Sys2Proof/Laws/EvolveOperands.lean ====
section
/-!
SUPPORT. What no command does: the operations of Operands.lean (see Evolve.lean).
-/

namespace Sys2Proof.Machine

variable {s₀ : State}

theorem State.counted_ev {s : State} (hev : Evolves s₀ s) : Evolves s₀ (State.counted s) := by
  unfold State.counted
  with_reducible repeat' first | assumption | apply State.dadd64_ev

theorem State.answer_ev (r : Requester) (k code : Nat) {s : State} (hev : Evolves s₀ s) : Evolves s₀ (State.answer s r k code) := by
  unfold State.answer
  repeat' first
    | with_reducible assumption
    | extract_lets
    | with_reducible apply State.counted_ev
    | with_reducible apply State.out_ev
    | with_reducible apply ite_ev
    | with_reducible apply ite_snd_ev
    | with_reducible apply ite_fst_ev
    | with_reducible apply ite_evTo
    | with_reducible apply evolvesTo_next
    | with_reducible exact Evolves.refl _
    | with_reducible apply foldl_ev
    | with_reducible apply foldl_fst_ev
    | with_reducible apply foldl_snd_ev
    | with_reducible rfl
    | with_reducible exact Nat.le_refl _
    | (intro _; with_reducible exact Nat.le_refl _)
    | (intro _; with_reducible exact rfl)
    | (intro m hm; change Memory.wf _ = true; exact hm)
    | intro _
    | split
    | dsimp only
    | with_reducible apply State.mk_ev

theorem State.toMailbox_ev (k tag : Nat) (msg : Bytes) {s : State} (hev : Evolves s₀ s) : Evolves s₀ (State.toMailbox s k tag msg) := by
  unfold State.toMailbox
  with_reducible repeat' first | assumption | extract_lets | apply State.modMailbox_ev | apply State.raiseCause_ev | apply ite_ev

theorem State.respond_ev (r : Requester) (msg : Bytes) {s : State} (hev : Evolves s₀ s) : Evolves s₀ (State.respond s r msg) := by
  unfold State.respond
  repeat' first
    | with_reducible assumption
    | extract_lets
    | with_reducible apply State.out_ev
    | with_reducible apply ite_ev
    | with_reducible apply ite_snd_ev
    | with_reducible apply ite_fst_ev
    | with_reducible apply ite_evTo
    | with_reducible apply evolvesTo_next
    | with_reducible exact Evolves.refl _
    | with_reducible apply foldl_ev
    | with_reducible apply foldl_fst_ev
    | with_reducible apply foldl_snd_ev
    | with_reducible rfl
    | with_reducible exact Nat.le_refl _
    | (intro _; with_reducible exact Nat.le_refl _)
    | (intro _; with_reducible exact rfl)
    | (intro m hm; change Memory.wf _ = true; exact hm)
    | intro _
    | split
    | dsimp only
    | with_reducible apply State.mk_ev

theorem State.send_ev (r : Requester) (tag : Nat) (msg : Bytes) {s : State} (hev : Evolves s₀ s) : Evolves s₀ (State.send s r tag msg) := by
  unfold State.send
  repeat' first
    | with_reducible assumption
    | extract_lets
    | with_reducible apply State.modReq_ev
    | with_reducible apply State.respond_ev
    | with_reducible apply State.toMailbox_ev
    | with_reducible apply ite_ev
    | with_reducible apply ite_snd_ev
    | with_reducible apply ite_fst_ev
    | with_reducible apply ite_evTo
    | with_reducible apply evolvesTo_next
    | with_reducible exact Evolves.refl _
    | with_reducible apply foldl_ev
    | with_reducible apply foldl_fst_ev
    | with_reducible apply foldl_snd_ev
    | with_reducible rfl
    | with_reducible exact Nat.le_refl _
    | (intro _; with_reducible exact Nat.le_refl _)
    | (intro _; with_reducible exact rfl)
    | (intro m hm; change Memory.wf _ = true; exact hm)
    | intro _
    | split
    | dsimp only
    | with_reducible apply State.mk_ev

theorem State.reply_ev (r : Requester) (type status tag : Nat) (body : Bytes) {s : State} (hev : Evolves s₀ s) : Evolves s₀ (State.reply s r type status tag body) := by
  unfold State.reply
  with_reducible repeat' first | assumption | apply State.send_ev

theorem State.writeAnswer_ev (r : Requester) (tag : Option Nat) (k total code : Nat) {s : State} (hev : Evolves s₀ s) : Evolves s₀ (State.writeAnswer s r tag k total code) := by
  unfold State.writeAnswer
  repeat' first | with_reducible assumption | with_reducible apply State.answer_ev | with_reducible apply State.reply_ev | split

theorem State.keepSnap_ev (r : Requester) (key : Nat × Option Nat) (val : Bytes) (idx : List (Nat × Bytes)) {s : State} (hev : Evolves s₀ s) : Evolves s₀ (State.keepSnap s r key val idx).2 := by
  unfold State.keepSnap
  with_reducible repeat' first | assumption | extract_lets | apply State.modReq_ev | apply State.takeFree_ev

theorem State.segment_ev (r : Requester) (tag k off maxlen snap : Nat) (val : Bytes) {s : State} (hev : Evolves s₀ s) : Evolves s₀ (State.segment s r tag k off maxlen snap val) := by
  unfold State.segment
  with_reducible repeat' first | assumption | extract_lets | apply State.reply_ev | apply ite_ev

theorem State.readNew_ev (r : Requester) (tag k off maxlen : Nat) (val : Bytes) {s : State} (hev : Evolves s₀ s) : Evolves s₀ (State.readNew s r tag k off maxlen val) := by
  unfold State.readNew
  with_reducible repeat' first | assumption | extract_lets | apply State.keepSnap_ev | apply State.segment_ev

theorem State.readIndexNew_ev (r : Requester) (tag index first : Nat) (vals : List (Nat × Bytes)) (wo : List Nat) {s : State} (hev : Evolves s₀ s) : Evolves s₀ (State.readIndexNew s r tag index first vals wo) := by
  unfold State.readIndexNew
  with_reducible repeat' first | assumption | extract_lets | apply State.keepSnap_ev | apply State.reply_ev

theorem State.wakeEvent_ev (ident : Nat) {s : State} (hev : Evolves s₀ s) : Evolves s₀ (State.wakeEvent s ident) := by
  unfold State.wakeEvent
  repeat' first
    | with_reducible assumption | extract_lets | with_reducible apply State.modPow_ev | with_reducible apply State.takeFree_ev
    | with_reducible apply ite_ev | split

theorem State.writeCheck_ev (r : Requester) (k v : Nat) {s : State} (hev : Evolves s₀ s) : Evolves s₀ (State.writeCheck s r k v).2 := by
  unfold State.writeCheck
  with_reducible repeat' first | assumption | extract_lets | apply State.dadd_ev | apply ite_snd_ev

theorem State.checked_ev (r : Requester) (k v : Nat) {f : State → Nat × State} (hf : ∀ s, Evolves s₀ s → Evolves s₀ (f s).2)
    {s : State} (hev : Evolves s₀ s) : Evolves s₀ (s.checked r k v f).2 :=
  ite_snd_ev (hf _ (State.writeCheck_ev _ _ _ hev)) (State.writeCheck_ev _ _ _ hev)


theorem State.typed_ev (r : Requester) (k v : Nat) {f : State → Nat × State} (hf : ∀ s, Evolves s₀ s → Evolves s₀ (f s).2)
    {s : State} (hev : Evolves s₀ s) : Evolves s₀ (s.typed r k v f) :=
  ite_ev hev (ite_ev (State.answer_ev _ _ _ hev) (State.answer_ev _ _ _ (State.checked_ev _ _ _ hf hev)))


end Sys2Proof.Machine
end

