-- ==== Sys2Proof/Laws/EvolveImage.lean ====
section
/-!
SUPPORT. What no command does: the operations of Image.lean (see Evolve.lean).
-/

namespace Sys2Proof.Machine

variable {s₀ : State}

theorem State.setSlot_ev (n i : Nat) (f : Slot → Slot) {s : State} (hev : Evolves s₀ s) : Evolves s₀ (State.setSlot s n i f) := by
  unfold State.setSlot
  with_reducible repeat' first | assumption | apply State.modPart_ev

theorem State.sweepFrames_ev (n : Nat) {s : State} (hev : Evolves s₀ s) : Evolves s₀ (State.sweepFrames s n) := by
  unfold State.sweepFrames
  repeat' first
    | with_reducible assumption | extract_lets | with_reducible apply State.modMem_ev | (intro m hm; change Memory.wf _ = true; exact hm)

theorem State.emptySlot_ev (n i : Nat) (st : SlotState) {s : State} (hev : Evolves s₀ s) : Evolves s₀ (State.emptySlot s n i st) := by
  unfold State.emptySlot
  with_reducible repeat' first | assumption | extract_lets | apply State.setSlot_ev | apply State.sweepFrames_ev

theorem State.coldCore_ev (c : Nat) {s : State} (hev : Evolves s₀ s) : Evolves s₀ (State.coldCore s c) := by
  unfold State.coldCore
  repeat' first
    | with_reducible assumption
    | extract_lets
    | with_reducible apply State.clearAcc_ev
    | with_reducible apply State.modCm_ev
    | with_reducible apply State.modCore_ev
    | with_reducible apply ite_ev
    | with_reducible apply ite_snd_ev
    | with_reducible apply ite_fst_ev
    | with_reducible apply ite_evTo
    | with_reducible apply evolvesTo_next
    | with_reducible exact Evolves.refl _
    | with_reducible apply foldl_ev
    | with_reducible apply foldl_fst_ev
    | with_reducible apply foldl_snd_ev
    | with_reducible rfl
    | with_reducible exact Nat.le_refl _
    | (intro _; with_reducible exact Nat.le_refl _)
    | (intro _; with_reducible exact rfl)
    | (intro m hm; change Memory.wf _ = true; exact hm)
    | intro _
    | split
    | dsimp only
    | with_reducible apply State.mk_ev

theorem State.switchIslands_ev (cls fails : List Nat) {s : State} (hev : Evolves s₀ s) : Evolves s₀ (State.switchIslands s cls fails) := by
  unfold State.switchIslands
  repeat' first
    | with_reducible assumption
    | extract_lets
    | with_reducible apply State.coldCore_ev
    | with_reducible apply State.each_ev
    | with_reducible apply State.modCluster_ev
    | with_reducible apply State.testCore_ev
    | with_reducible apply ite_ev
    | with_reducible apply ite_snd_ev
    | with_reducible apply ite_fst_ev
    | with_reducible apply ite_evTo
    | with_reducible apply evolvesTo_next
    | with_reducible exact Evolves.refl _
    | with_reducible apply foldl_ev
    | with_reducible apply foldl_fst_ev
    | with_reducible apply foldl_snd_ev
    | with_reducible rfl
    | with_reducible exact Nat.le_refl _
    | (intro _; with_reducible exact Nat.le_refl _)
    | (intro _; with_reducible exact rfl)
    | (intro m hm; change Memory.wf _ = true; exact hm)
    | intro _
    | split
    | dsimp only
    | with_reducible apply State.mk_ev

theorem State.doCreate_ev (n : Nat) (fails : List Nat) {s : State} (hev : Evolves s₀ s) : Evolves s₀ (State.doCreate s n fails).2 := by
  unfold State.doCreate
  repeat' first
    | with_reducible assumption
    | extract_lets
    | with_reducible apply State.modPart_ev
    | with_reducible apply State.switchIslands_ev
    | with_reducible apply ite_ev
    | with_reducible apply ite_snd_ev
    | with_reducible apply ite_fst_ev
    | with_reducible apply ite_evTo
    | with_reducible apply evolvesTo_next
    | with_reducible exact Evolves.refl _
    | with_reducible apply foldl_ev
    | with_reducible apply foldl_fst_ev
    | with_reducible apply foldl_snd_ev
    | with_reducible rfl
    | with_reducible exact Nat.le_refl _
    | (intro _; with_reducible exact Nat.le_refl _)
    | (intro _; with_reducible exact rfl)
    | (intro m hm; change Memory.wf _ = true; exact hm)
    | intro _
    | split
    | dsimp only
    | with_reducible apply State.mk_ev

theorem execCreate_ev (r : Requester) (n : CreateOp) (t : Nat) (s : State) : EvolvesTo s (execCreate r n t s) := by
  unfold execCreate
  with_reducible repeat' first
    | extract_lets | apply State.at_ev | apply State.doCreate_ev | apply State.typed_ev | apply evolvesTo_next | exact Evolves.refl _

theorem State.restartGuard_ev (n : Nat) {s : State} (hev : Evolves s₀ s) : Evolves s₀ (State.restartGuard s n) := by
  unfold State.restartGuard
  with_reducible repeat' first
    | assumption | extract_lets | apply State.clearGuard_ev | apply State.dset_ev | apply State.each_ev | apply State.modPart_ev | intro _

theorem State.restartStream_ev (k : Nat) (fresh : Bool) (t : Tile) {s : State} (hev : Evolves s₀ s) : Evolves s₀ (State.restartStream s k fresh t) := by
  unfold State.restartStream
  with_reducible repeat' first | assumption | extract_lets | apply State.modStream_ev

theorem State.restartGroup_ev (g : Nat) {s : State} (hev : Evolves s₀ s) : Evolves s₀ (State.restartGroup s g) := by
  unfold State.restartGroup
  with_reducible repeat' first | assumption | apply State.modGroup_ev

theorem State.restartConverters_ev (n : Nat) (fresh : Nat → Bool) {s : State} (hev : Evolves s₀ s) : Evolves s₀ (State.restartConverters s n fresh) := by
  unfold State.restartConverters
  with_reducible repeat' first
    | assumption | extract_lets | apply State.restartGroup_ev | apply State.restartStream_ev | apply ite_ev | apply foldl_ev | intro _

theorem State.activate_ev (n i : Nat) {s : State} (hev : Evolves s₀ s) : Evolves s₀ (State.activate s n i) := by
  unfold State.activate
  with_reducible repeat' first
    | assumption | extract_lets | apply State.each_ev | apply State.loadCore_ev | apply State.modPart_ev | intro _

theorem State.failLoad_ev (n i code idx : Nat) {s : State} (hev : Evolves s₀ s) : Evolves s₀ (State.failLoad s n i code idx) := by
  unfold State.failLoad
  with_reducible repeat' first | assumption | extract_lets | apply State.dset_ev | apply State.emptySlot_ev | apply State.modPart_ev

theorem State.startLoad_ev (n i a : Nat) {s : State} (hev : Evolves s₀ s) : Evolves s₀ (State.startLoad s n i a) := by
  unfold State.startLoad
  with_reducible repeat' first
    | assumption | extract_lets | apply State.each_ev | apply State.modPart_ev | apply State.setOwner_ev | intro _

theorem State.doLoad_ev (r : Requester) (n : Nat) {s : State} (hev : Evolves s₀ s) : Evolves s₀ (State.doLoad s r n).2 := by
  unfold State.doLoad
  repeat' first
    | with_reducible assumption | extract_lets | with_reducible apply State.dset_ev | with_reducible apply State.emptySlot_ev
    | with_reducible apply State.failLoad_ev | with_reducible apply State.startLoad_ev | with_reducible apply ite_snd_ev | split

theorem State.orWake_ev (r : Requester) (tag : Option Nat) (n cmd : Nat) {f : State → Nat × State}
    (hf : ∀ s, Evolves s₀ s → Evolves s₀ (f s).2) {s : State} (hev : Evolves s₀ s) : Evolves s₀ (s.orWake r tag n cmd f).2 :=
  have hw := State.writeCheck_ev r (kPartitionCommand n) cmd hev
  ite_snd_ev hw (ite_snd_ev (hf _ hw) (State.wakeEvent_ev _ (State.modPow_ev _ hw)))


theorem State.wakeTyped_ev (r : Requester) (n cmd : Nat) {f : State → Nat × State}
    (hf : ∀ s, Evolves s₀ s → Evolves s₀ (f s).2) {s : State} (hev : Evolves s₀ s) : Evolves s₀ (s.wakeTyped r n cmd f) := by
  have ho := State.orWake_ev r none n cmd hf hev
  refine ite_ev hev (ite_ev (State.answer_ev _ _ _ hev) ?_)
  dsimp only
  split
  · exact State.answer_ev _ _ _ ho
  · exact ho


theorem execLoad_ev (r : Requester) (n t : Nat) (s : State) : EvolvesTo s (execLoad r n t s) := by
  unfold execLoad
  with_reducible repeat' first
    | extract_lets | apply State.at_ev | apply State.doLoad_ev | apply State.wakeTyped_ev | apply evolvesTo_next | exact Evolves.refl _

theorem State.finishLoad_ev (n i : Nat) {s : State} (hev : Evolves s₀ s) : Evolves s₀ (State.finishLoad s n i) := by
  unfold State.finishLoad
  repeat' first
    | with_reducible assumption | extract_lets | with_reducible apply State.activate_ev | with_reducible apply State.each_ev
    | with_reducible apply State.modPart_ev | with_reducible apply State.setSlot_ev | with_reducible apply State.tileWrite_ev
    | with_reducible apply ite_ev | with_reducible apply foldl_ev | intro _ | split

theorem State.landTile_ev (n : Nat) (l : Loading) (memErr : Bool) {s : State} (hev : Evolves s₀ s) : Evolves s₀ (State.landTile s n l memErr) := by
  unfold State.landTile
  repeat' first
    | with_reducible assumption
    | extract_lets
    | with_reducible apply State.createCombine_ev
    | with_reducible apply State.dadd64_ev
    | with_reducible apply State.failLoad_ev
    | with_reducible apply State.finishLoad_ev
    | with_reducible apply State.lpWrite_ev
    | with_reducible apply State.modPart_ev
    | with_reducible apply State.setSlot_ev
    | with_reducible apply ite_ev
    | with_reducible apply ite_snd_ev
    | with_reducible apply ite_fst_ev
    | with_reducible apply ite_evTo
    | with_reducible apply evolvesTo_next
    | with_reducible exact Evolves.refl _
    | with_reducible apply foldl_ev
    | with_reducible apply foldl_fst_ev
    | with_reducible apply foldl_snd_ev
    | with_reducible rfl
    | with_reducible exact Nat.le_refl _
    | (intro _; with_reducible exact Nat.le_refl _)
    | (intro _; with_reducible exact rfl)
    | (intro m hm; change Memory.wf _ = true; exact hm)
    | intro _
    | split
    | dsimp only
    | with_reducible apply State.mk_ev

theorem execTileLanded_ev (n : Nat) (memErr : Bool) (t : Nat) (s : State) : EvolvesTo s (execTileLanded n memErr t s) := by
  unfold execTileLanded
  repeat' first
    | extract_lets | with_reducible apply State.at_ev | with_reducible apply State.landTile_ev | with_reducible apply evolvesTo_next
    | with_reducible exact Evolves.refl _ | split

theorem State.mramWrite_ev (a : Nat) (bs : Bytes) {s : State} (hev : Evolves s₀ s) : Evolves s₀ (State.mramWrite s a bs) := by
  unfold State.mramWrite
  refine State.modMem_ev (fun m hm => ?_) hev
  rw [Memory.wf_iff] at hm ⊢
  exact ⟨hm.1, hm.2.1, mwf_writeRange _ _ _ _ hm.2.2⟩

theorem State.startCommit_ev (n : Nat) (reads : Bool) (l : List KeepSection) {s : State} (hev : Evolves s₀ s) : Evolves s₀ (State.startCommit s n reads l) := by
  unfold State.startCommit
  with_reducible repeat' first | assumption | extract_lets | apply State.dset_ev | apply ite_ev | apply State.mk_ev

theorem State.doKeep_ev (n v : Nat) {s : State} (hev : Evolves s₀ s) : Evolves s₀ (State.doKeep s n v).2 := by
  unfold State.doKeep
  with_reducible repeat' first | assumption | extract_lets | apply State.startCommit_ev | apply ite_snd_ev

theorem execKeepCommit_ev (r : Requester) (n t : Nat) (s : State) : EvolvesTo s (execKeepCommit r n t s) := by
  unfold execKeepCommit
  with_reducible repeat' first
    | extract_lets | apply State.at_ev | apply State.doKeep_ev | apply State.typed_ev | apply evolvesTo_next | exact Evolves.refl _

theorem execKeepErase_ev (r : Requester) (n t : Nat) (s : State) : EvolvesTo s (execKeepErase r n t s) := by
  unfold execKeepErase
  with_reducible repeat' first
    | extract_lets | apply State.at_ev | apply State.doKeep_ev | apply State.typed_ev | apply evolvesTo_next | exact Evolves.refl _

theorem State.readOn_ev (n : Nat) {s : State} (hev : Evolves s₀ s) : Evolves s₀ (State.readOn s n) := by
  unfold State.readOn
  repeat' first
    | with_reducible assumption
    | extract_lets
    | with_reducible apply State.takeFree_ev
    | with_reducible apply ite_ev
    | with_reducible apply ite_snd_ev
    | with_reducible apply ite_fst_ev
    | with_reducible apply ite_evTo
    | with_reducible apply evolvesTo_next
    | with_reducible exact Evolves.refl _
    | with_reducible apply foldl_ev
    | with_reducible apply foldl_fst_ev
    | with_reducible apply foldl_snd_ev
    | with_reducible rfl
    | with_reducible exact Nat.le_refl _
    | (intro _; with_reducible exact Nat.le_refl _)
    | (intro _; with_reducible exact rfl)
    | (intro m hm; change Memory.wf _ = true; exact hm)
    | intro _
    | split
    | dsimp only
    | with_reducible apply State.mk_ev

theorem State.applySwitches_ev (n : Nat) {s : State} (hev : Evolves s₀ s) : Evolves s₀ (State.applySwitches s n) := by
  unfold State.applySwitches
  exact State.each_ev _ (fun _ _ h => ite_ev (State.switchProj_ev _ _ h) h) (State.readOn_ev _ hev)

theorem execKeepCommitDone_ev (t : Nat) (s : State) : EvolvesTo s (execKeepCommitDone t s) := by
  unfold execKeepCommitDone
  repeat' first
    | with_reducible assumption
    | extract_lets
    | with_reducible apply State.applySwitches_ev
    | with_reducible apply State.at_ev
    | with_reducible apply State.dadd_ev
    | with_reducible apply State.dset_ev
    | with_reducible apply State.each_ev
    | with_reducible apply State.mramWrite_ev
    | with_reducible apply ite_ev
    | with_reducible apply ite_snd_ev
    | with_reducible apply ite_fst_ev
    | with_reducible apply ite_evTo
    | with_reducible apply evolvesTo_next
    | with_reducible exact Evolves.refl _
    | with_reducible apply foldl_ev
    | with_reducible apply foldl_fst_ev
    | with_reducible apply foldl_snd_ev
    | with_reducible rfl
    | with_reducible exact Nat.le_refl _
    | (intro _; with_reducible exact Nat.le_refl _)
    | (intro _; with_reducible exact rfl)
    | (intro m hm; change Memory.wf _ = true; exact hm)
    | intro _
    | split
    | dsimp only
    | with_reducible apply State.mk_ev

theorem State.abandonCommit_ev (n : Nat) {s : State} (hev : Evolves s₀ s) : Evolves s₀ (State.abandonCommit s n) := by
  unfold State.abandonCommit
  repeat' first
    | with_reducible assumption | extract_lets | with_reducible apply State.dset_ev | with_reducible apply ite_ev | split
    | with_reducible apply State.mk_ev

theorem State.restoreProj_ev (n i : Nat) (p : Nat × Nat × Nat × List Nat) {s : State} (hev : Evolves s₀ s) : Evolves s₀ (State.restoreProj s n i p) := by
  unfold State.restoreProj
  repeat' first
    | with_reducible assumption | extract_lets | with_reducible apply State.each_ev | with_reducible apply State.setSlot_ev
    | with_reducible apply State.tileWrite_ev | with_reducible apply State.tileWriteHdr_ev | with_reducible apply foldl_ev | intro _ | split

theorem State.keepRestore_ev (n i : Nat) {s : State} (hev : Evolves s₀ s) : Evolves s₀ (State.keepRestore s n i) := by
  unfold State.keepRestore
  repeat' first
    | with_reducible assumption | extract_lets | with_reducible apply State.dset_ev | with_reducible apply State.restoreProj_ev
    | with_reducible apply ite_ev | with_reducible apply foldl_ev | intro _ | split

theorem State.refill_ev (n : Nat) {s : State} (hev : Evolves s₀ s) : Evolves s₀ (State.refill s n) := by
  unfold State.refill
  with_reducible repeat' first
    | assumption | extract_lets | apply State.each_ev | apply State.loadSpare_ev | apply State.modPow_ev | intro _

theorem State.forceStreams_ev (n : Nat) {s : State} (hev : Evolves s₀ s) : Evolves s₀ (State.forceStreams s n) := by
  unfold State.forceStreams
  repeat' first
    | with_reducible assumption
    | extract_lets
    | with_reducible apply State.each_ev
    | with_reducible apply State.modStream_ev
    | with_reducible apply ite_ev
    | with_reducible apply ite_snd_ev
    | with_reducible apply ite_fst_ev
    | with_reducible apply ite_evTo
    | with_reducible apply evolvesTo_next
    | with_reducible exact Evolves.refl _
    | with_reducible apply foldl_ev
    | with_reducible apply foldl_fst_ev
    | with_reducible apply foldl_snd_ev
    | with_reducible rfl
    | with_reducible exact Nat.le_refl _
    | (intro _; with_reducible exact Nat.le_refl _)
    | (intro _; with_reducible exact rfl)
    | (intro m hm; change Memory.wf _ = true; exact hm)
    | intro _
    | split
    | dsimp only
    | with_reducible apply State.mk_ev

theorem State.forceGroups_ev (n : Nat) {s : State} (hev : Evolves s₀ s) : Evolves s₀ (State.forceGroups s n) := by
  unfold State.forceGroups
  repeat' first
    | with_reducible assumption
    | extract_lets
    | with_reducible apply State.each_ev
    | with_reducible apply State.modGroup_ev
    | with_reducible apply ite_ev
    | with_reducible apply ite_snd_ev
    | with_reducible apply ite_fst_ev
    | with_reducible apply ite_evTo
    | with_reducible apply evolvesTo_next
    | with_reducible exact Evolves.refl _
    | with_reducible apply foldl_ev
    | with_reducible apply foldl_fst_ev
    | with_reducible apply foldl_snd_ev
    | with_reducible rfl
    | with_reducible exact Nat.le_refl _
    | (intro _; with_reducible exact Nat.le_refl _)
    | (intro _; with_reducible exact rfl)
    | (intro m hm; change Memory.wf _ = true; exact hm)
    | intro _
    | split
    | dsimp only
    | with_reducible apply State.mk_ev

theorem State.startPart_ev (n : Nat) {s : State} (hev : Evolves s₀ s) : Evolves s₀ (State.startPart s n) := by
  unfold State.startPart
  repeat' first
    | with_reducible assumption
    | extract_lets
    | with_reducible apply State.dset_ev
    | with_reducible apply State.each_ev
    | with_reducible apply State.joinHalf_ev
    | with_reducible apply State.keepRestore_ev
    | with_reducible apply State.modCore_ev
    | with_reducible apply State.modGroup_ev
    | with_reducible apply State.modPart_ev
    | with_reducible apply State.modStream_ev
    | with_reducible apply State.refill_ev
    | with_reducible apply State.release_ev
    | with_reducible apply State.restartConverters_ev
    | with_reducible apply State.restartGuard_ev
    | with_reducible apply State.setSlot_ev
    | with_reducible apply ite_ev
    | with_reducible apply ite_snd_ev
    | with_reducible apply ite_fst_ev
    | with_reducible apply ite_evTo
    | with_reducible apply evolvesTo_next
    | with_reducible exact Evolves.refl _
    | with_reducible apply foldl_ev
    | with_reducible apply foldl_fst_ev
    | with_reducible apply foldl_snd_ev
    | with_reducible rfl
    | with_reducible exact Nat.le_refl _
    | (intro _; with_reducible exact Nat.le_refl _)
    | (intro _; with_reducible exact rfl)
    | (intro m hm; change Memory.wf _ = true; exact hm)
    | intro _
    | split
    | dsimp only
    | with_reducible apply State.mk_ev

theorem State.doEnable_ev (n : Nat) {s : State} (hev : Evolves s₀ s) : Evolves s₀ (State.doEnable s n).2 := by
  unfold State.doEnable
  with_reducible repeat' first | assumption | extract_lets | apply State.startPart_ev | apply ite_snd_ev

theorem execEnable_ev (r : Requester) (n t : Nat) (s : State) : EvolvesTo s (execEnable r n t s) := by
  unfold execEnable
  with_reducible repeat' first
    | extract_lets | apply State.at_ev | apply State.doEnable_ev | apply State.wakeTyped_ev | apply evolvesTo_next | exact Evolves.refl _

theorem State.discardPending_ev (c : Nat) {s : State} (hev : Evolves s₀ s) : Evolves s₀ (State.discardPending s c) := by
  unfold State.discardPending
  with_reducible repeat' first | assumption | extract_lets | apply State.absorbCount_ev | apply State.modCluster_ev | apply State.modCore_ev

theorem State.swapTakes_ev (c : Nat) {s : State} (hev : Evolves s₀ s) : Evolves s₀ (State.swapTakes s c) := by
  unfold State.swapTakes
  repeat' first
    | with_reducible assumption
    | extract_lets
    | with_reducible apply State.dadd_ev
    | with_reducible apply State.modCore_ev
    | with_reducible apply State.spareTakes_ev
    | with_reducible apply ite_ev
    | with_reducible apply ite_snd_ev
    | with_reducible apply ite_fst_ev
    | with_reducible apply ite_evTo
    | with_reducible apply evolvesTo_next
    | with_reducible exact Evolves.refl _
    | with_reducible apply foldl_ev
    | with_reducible apply foldl_fst_ev
    | with_reducible apply foldl_snd_ev
    | with_reducible rfl
    | with_reducible exact Nat.le_refl _
    | (intro _; with_reducible exact Nat.le_refl _)
    | (intro _; with_reducible exact rfl)
    | (intro m hm; change Memory.wf _ = true; exact hm)
    | intro _
    | split
    | dsimp only
    | with_reducible apply State.mk_ev

theorem State.swapNow_ev (n : Nat) (copy : Bool) {s : State} (hev : Evolves s₀ s) : Evolves s₀ (State.swapNow s n copy) := by
  unfold State.swapNow
  split
  · exact hev
  · extract_lets j sl delta old replaced shared s1 s2 s3 s4 s5 s6 s7
    have h5 : Evolves s₀ s2 := State.restartGuard_ev _ (State.modPart_ev _ _ hev)
    refine ite_ev (State.modPart_ev _ _ hev) (ite_ev (State.restartConverters_ev _ _ (State.each_ev _ (fun _ _ h => ite_ev (State.modCore_ev _ _ h) h) h5))
      (State.modPart_ev _ _ (State.restartConverters_ev _ _ (State.each_ev _ (fun _ _ h => State.loadCore_ev _ _ h)
        (State.modRel_ev _ (State.each_ev _ (fun _ _ h => State.swapTakes_ev _ h)
          (State.each_ev _ (fun _ _ h => State.modCore_ev _ _ (State.discardPending_ev _ h)) h5)))))))

theorem State.doSwap_ev (n : Nat) {s : State} (hev : Evolves s₀ s) : Evolves s₀ (State.doSwap s n).2 := by
  unfold State.doSwap
  repeat' first
    | with_reducible assumption | extract_lets | with_reducible apply State.modPart_ev | with_reducible apply State.swapNow_ev
    | with_reducible apply ite_snd_ev | split

theorem execSwap_ev (r : Requester) (n t : Nat) (s : State) : EvolvesTo s (execSwap r n t s) := by
  unfold execSwap
  with_reducible repeat' first
    | extract_lets | apply State.at_ev | apply State.doSwap_ev | apply State.typed_ev | apply evolvesTo_next | exact Evolves.refl _

theorem execSwapTakeEffect_ev (n t : Nat) (s : State) : EvolvesTo s (execSwapTakeEffect n t s) := by
  unfold execSwapTakeEffect
  with_reducible repeat' first
    | extract_lets | apply State.at_ev | apply State.swapNow_ev | apply ite_ev | apply evolvesTo_next | exact Evolves.refl _

theorem execSwapCopyDone_ev (n t : Nat) (s : State) : EvolvesTo s (execSwapCopyDone n t s) := by
  unfold execSwapCopyDone
  with_reducible repeat' first | extract_lets | apply State.at_ev | apply State.modPart_ev | apply evolvesTo_next | exact Evolves.refl _

theorem State.doUnload_ev (r : Requester) (n : Nat) {s : State} (hev : Evolves s₀ s) : Evolves s₀ (State.doUnload s r n).2 := by
  unfold State.doUnload
  with_reducible repeat' first
    | assumption | extract_lets | apply State.emptySlot_ev | apply State.modPart_ev | apply ite_ev | apply ite_snd_ev

theorem execUnload_ev (r : Requester) (n t : Nat) (s : State) : EvolvesTo s (execUnload r n t s) := by
  unfold execUnload
  with_reducible repeat' first
    | extract_lets | apply State.at_ev | apply State.doUnload_ev | apply State.typed_ev | apply evolvesTo_next | exact Evolves.refl _

theorem State.doDestroy_ev (n : Nat) {s : State} (hev : Evolves s₀ s) : Evolves s₀ (State.doDestroy s n).2 := by
  unfold State.doDestroy
  with_reducible repeat' first
    | assumption | extract_lets | apply State.dset_ev | apply State.emptySlot_ev | apply State.modPart_ev | apply ite_snd_ev

theorem execDestroy_ev (r : Requester) (n t : Nat) (s : State) : EvolvesTo s (execDestroy r n t s) := by
  unfold execDestroy
  with_reducible repeat' first
    | extract_lets | apply State.at_ev | apply State.doDestroy_ev | apply State.typed_ev | apply evolvesTo_next | exact Evolves.refl _

theorem State.disableEffect_ev (n : Nat) {s : State} (hev : Evolves s₀ s) : Evolves s₀ (State.disableEffect s n) := by
  unfold State.disableEffect
  repeat' first
    | with_reducible assumption
    | extract_lets
    | with_reducible apply State.applySwitches_ev
    | with_reducible apply State.discardPending_ev
    | with_reducible apply State.dset_ev
    | with_reducible apply State.each_ev
    | with_reducible apply State.forceGroups_ev
    | with_reducible apply State.forceStreams_ev
    | with_reducible apply State.modCore_ev
    | with_reducible apply State.modPart_ev
    | with_reducible apply State.modRel_ev
    | with_reducible apply State.release_ev
    | with_reducible apply State.settleCaches_ev
    | with_reducible apply ite_ev
    | with_reducible apply ite_snd_ev
    | with_reducible apply ite_fst_ev
    | with_reducible apply ite_evTo
    | with_reducible apply evolvesTo_next
    | with_reducible exact Evolves.refl _
    | with_reducible apply foldl_ev
    | with_reducible apply foldl_fst_ev
    | with_reducible apply foldl_snd_ev
    | with_reducible rfl
    | with_reducible exact Nat.le_refl _
    | (intro _; with_reducible exact Nat.le_refl _)
    | (intro _; with_reducible exact rfl)
    | (intro m hm; change Memory.wf _ = true; exact hm)
    | intro _
    | split
    | dsimp only
    | with_reducible apply State.mk_ev

theorem State.disableBelay_ev (n : Nat) {s : State} (hev : Evolves s₀ s) : Evolves s₀ (State.disableBelay s n) := by
  unfold State.disableBelay
  with_reducible repeat' first | assumption | extract_lets | apply State.disableEffect_ev | apply State.modPart_ev | apply ite_ev

theorem State.doDisable_ev (n : Nat) {s : State} (hev : Evolves s₀ s) : Evolves s₀ (State.doDisable s n).2 := by
  unfold State.doDisable
  with_reducible repeat' first | assumption | extract_lets | apply State.disableBelay_ev | apply ite_snd_ev

theorem execDisable_ev (r : Requester) (n t : Nat) (s : State) : EvolvesTo s (execDisable r n t s) := by
  unfold execDisable
  with_reducible repeat' first
    | extract_lets | apply State.at_ev | apply State.doDisable_ev | apply State.typed_ev | apply evolvesTo_next | exact Evolves.refl _

theorem State.disableAbsorb_ev (n : Nat) {s : State} (hev : Evolves s₀ s) : Evolves s₀ (State.disableAbsorb s n) := by
  unfold State.disableAbsorb
  with_reducible repeat' first
    | assumption | extract_lets | apply State.disableEffect_ev | apply State.ledgerFlag_ev | apply State.modPart_ev | apply ite_ev

theorem State.doDisableNow_ev (n : Nat) {s : State} (hev : Evolves s₀ s) : Evolves s₀ (State.doDisableNow s n).2 := by
  unfold State.doDisableNow
  with_reducible repeat' first | assumption | extract_lets | apply State.disableAbsorb_ev | apply ite_snd_ev

theorem execDisableNow_ev (r : Requester) (n t : Nat) (s : State) : EvolvesTo s (execDisableNow r n t s) := by
  unfold execDisableNow
  with_reducible repeat' first
    | extract_lets | apply State.at_ev | apply State.doDisableNow_ev | apply State.typed_ev | apply evolvesTo_next | exact Evolves.refl _

theorem State.doStationEnable_ev (n v : Nat) {s : State} (hev : Evolves s₀ s) : Evolves s₀ (State.doStationEnable s n v).2 := by
  unfold State.doStationEnable
  with_reducible repeat' first | assumption | extract_lets | apply State.dset_ev | apply State.modPart_ev | apply ite_ev | apply ite_snd_ev

theorem execStationEnable_ev (r : Requester) (n v t : Nat) (s : State) : EvolvesTo s (execStationEnable r n v t s) := by
  unfold execStationEnable
  with_reducible repeat' first
    | extract_lets | apply State.at_ev | apply State.doStationEnable_ev | apply State.typed_ev | apply evolvesTo_next | exact Evolves.refl _

theorem State.dropRemoteOut_ev (n : Nat) {s : State} (hev : Evolves s₀ s) : Evolves s₀ (State.dropRemoteOut s n) := by
  unfold State.dropRemoteOut
  repeat' first
    | with_reducible assumption
    | extract_lets
    | with_reducible apply State.countRem_ev
    | with_reducible apply State.each_ev
    | with_reducible apply State.modCore_ev
    | with_reducible apply State.modRem_ev
    | with_reducible apply State.out_ev
    | with_reducible apply ite_ev
    | with_reducible apply ite_snd_ev
    | with_reducible apply ite_fst_ev
    | with_reducible apply ite_evTo
    | with_reducible apply evolvesTo_next
    | with_reducible exact Evolves.refl _
    | with_reducible apply foldl_ev
    | with_reducible apply foldl_fst_ev
    | with_reducible apply foldl_snd_ev
    | with_reducible rfl
    | with_reducible exact Nat.le_refl _
    | (intro _; with_reducible exact Nat.le_refl _)
    | (intro _; with_reducible exact rfl)
    | (intro m hm; change Memory.wf _ = true; exact hm)
    | intro _
    | split
    | dsimp only
    | with_reducible apply State.mk_ev

theorem State.dropRemoteIn_ev (n : Nat) {s : State} (hev : Evolves s₀ s) : Evolves s₀ (State.dropRemoteIn s n) := by
  unfold State.dropRemoteIn
  repeat' first
    | with_reducible assumption
    | extract_lets
    | with_reducible apply State.countRem_ev
    | with_reducible apply State.modRem_ev
    | with_reducible apply ite_ev
    | with_reducible apply ite_snd_ev
    | with_reducible apply ite_fst_ev
    | with_reducible apply ite_evTo
    | with_reducible apply evolvesTo_next
    | with_reducible exact Evolves.refl _
    | with_reducible apply foldl_ev
    | with_reducible apply foldl_fst_ev
    | with_reducible apply foldl_snd_ev
    | with_reducible rfl
    | with_reducible exact Nat.le_refl _
    | (intro _; with_reducible exact Nat.le_refl _)
    | (intro _; with_reducible exact rfl)
    | (intro m hm; change Memory.wf _ = true; exact hm)
    | intro _
    | split
    | dsimp only
    | with_reducible apply State.mk_ev

theorem State.dropTrace_ev (n : Nat) {s : State} (hev : Evolves s₀ s) : Evolves s₀ (State.dropTrace s n) := by
  unfold State.dropTrace
  repeat' first
    | with_reducible assumption
    | extract_lets
    | with_reducible apply State.absorbCount_ev
    | with_reducible apply State.each_ev
    | with_reducible apply ite_ev
    | with_reducible apply ite_snd_ev
    | with_reducible apply ite_fst_ev
    | with_reducible apply ite_evTo
    | with_reducible apply evolvesTo_next
    | with_reducible exact Evolves.refl _
    | with_reducible apply foldl_ev
    | with_reducible apply foldl_fst_ev
    | with_reducible apply foldl_snd_ev
    | with_reducible rfl
    | with_reducible exact Nat.le_refl _
    | (intro _; with_reducible exact Nat.le_refl _)
    | (intro _; with_reducible exact rfl)
    | (intro m hm; change Memory.wf _ = true; exact hm)
    | intro _
    | split
    | dsimp only
    | with_reducible apply State.mk_ev

theorem State.doStationNow_ev (n v : Nat) {s : State} (hev : Evolves s₀ s) : Evolves s₀ (State.doStationNow s n v).2 := by
  unfold State.doStationNow
  repeat' first
    | with_reducible assumption
    | extract_lets
    | with_reducible apply State.abandonApply_ev
    | with_reducible apply State.dropRemoteIn_ev
    | with_reducible apply State.dropRemoteOut_ev
    | with_reducible apply State.dropTrace_ev
    | with_reducible apply State.dset_ev
    | with_reducible apply State.each_ev
    | with_reducible apply State.modPart_ev
    | with_reducible apply ite_ev
    | with_reducible apply ite_snd_ev
    | with_reducible apply ite_fst_ev
    | with_reducible apply ite_evTo
    | with_reducible apply evolvesTo_next
    | with_reducible exact Evolves.refl _
    | with_reducible apply foldl_ev
    | with_reducible apply foldl_fst_ev
    | with_reducible apply foldl_snd_ev
    | with_reducible rfl
    | with_reducible exact Nat.le_refl _
    | (intro _; with_reducible exact Nat.le_refl _)
    | (intro _; with_reducible exact rfl)
    | (intro m hm; change Memory.wf _ = true; exact hm)
    | intro _
    | split
    | dsimp only
    | with_reducible apply State.mk_ev

theorem execStationDisableNow_ev (r : Requester) (n v t : Nat) (s : State) : EvolvesTo s (execStationDisableNow r n v t s) := by
  unfold execStationDisableNow
  with_reducible repeat' first
    | extract_lets | apply State.at_ev | apply State.doStationNow_ev | apply State.typed_ev | apply evolvesTo_next | exact Evolves.refl _

theorem State.tileKeep_ev (n c o : Nat) (b : Bytes) {s : State} (hev : Evolves s₀ s) : Evolves s₀ (State.tileKeep s n c o b) := by
  unfold State.tileKeep
  repeat' first | with_reducible assumption | with_reducible apply State.tileWrite_ev | split

theorem State.naWrite_ev (n sub g : Nat) (b : Bytes) {s : State} (hev : Evolves s₀ s) : Evolves s₀ (State.naWrite s n sub g b) := by
  unfold State.naWrite
  with_reducible repeat' first
    | assumption | extract_lets | apply State.each_ev | apply State.modCm_ev | apply State.setNeuron_ev | apply State.tileKeep_ev
    | apply ite_ev | intro _

theorem State.internalError_ev (n c : Nat) {s : State} (hev : Evolves s₀ s) : Evolves s₀ (State.internalError s n c) := by
  unfold State.internalError
  repeat' first
    | with_reducible assumption
    | extract_lets
    | with_reducible apply State.dadd_ev
    | with_reducible apply State.reportUnit_ev
    | with_reducible apply State.takeFree_ev
    | with_reducible apply ite_ev
    | with_reducible apply ite_snd_ev
    | with_reducible apply ite_fst_ev
    | with_reducible apply ite_evTo
    | with_reducible apply evolvesTo_next
    | with_reducible exact Evolves.refl _
    | with_reducible apply foldl_ev
    | with_reducible apply foldl_fst_ev
    | with_reducible apply foldl_snd_ev
    | with_reducible rfl
    | with_reducible exact Nat.le_refl _
    | (intro _; with_reducible exact Nat.le_refl _)
    | (intro _; with_reducible exact rfl)
    | (intro m hm; change Memory.wf _ = true; exact hm)
    | intro _
    | split
    | dsimp only
    | with_reducible apply State.mk_ev

theorem State.naRefuse_ev (n : Nat) (q : NeuronReq) (code : Nat) {s : State} (hev : Evolves s₀ s) : Evolves s₀ (State.naRefuse s n q code) := by
  unfold State.naRefuse
  repeat' first
    | with_reducible assumption
    | extract_lets
    | with_reducible apply State.dset_ev
    | with_reducible apply State.reply_ev
    | with_reducible apply State.writeAnswer_ev
    | with_reducible apply ite_ev
    | with_reducible apply ite_snd_ev
    | with_reducible apply ite_fst_ev
    | with_reducible apply ite_evTo
    | with_reducible apply evolvesTo_next
    | with_reducible exact Evolves.refl _
    | with_reducible apply foldl_ev
    | with_reducible apply foldl_fst_ev
    | with_reducible apply foldl_snd_ev
    | with_reducible rfl
    | with_reducible exact Nat.le_refl _
    | (intro _; with_reducible exact Nat.le_refl _)
    | (intro _; with_reducible exact rfl)
    | (intro m hm; change Memory.wf _ = true; exact hm)
    | intro _
    | split
    | dsimp only
    | with_reducible apply State.mk_ev

theorem State.naPerform_ev (n : Nat) (q : NeuronReq) {s : State} (hev : Evolves s₀ s) : Evolves s₀ (State.naPerform s n q) := by
  unfold State.naPerform
  repeat' first
    | with_reducible assumption
    | extract_lets
    | with_reducible apply State.dset_ev
    | with_reducible apply State.internalError_ev
    | with_reducible apply State.naRefuse_ev
    | with_reducible apply State.naWrite_ev
    | with_reducible apply State.readIndexNew_ev
    | with_reducible apply State.readNew_ev
    | with_reducible apply State.writeAnswer_ev
    | with_reducible apply ite_ev
    | with_reducible apply ite_snd_ev
    | with_reducible apply ite_fst_ev
    | with_reducible apply ite_evTo
    | with_reducible apply evolvesTo_next
    | with_reducible exact Evolves.refl _
    | with_reducible apply foldl_ev
    | with_reducible apply foldl_fst_ev
    | with_reducible apply foldl_snd_ev
    | with_reducible rfl
    | with_reducible exact Nat.le_refl _
    | (intro _; with_reducible exact Nat.le_refl _)
    | (intro _; with_reducible exact rfl)
    | (intro m hm; change Memory.wf _ = true; exact hm)
    | intro _
    | split
    | dsimp only
    | with_reducible apply State.mk_ev

theorem State.naRequest_ev (n : Nat) (q : NeuronReq) {s : State} (hev : Evolves s₀ s) : Evolves s₀ (State.naRequest s n q) := by
  unfold State.naRequest
  with_reducible repeat' first
    | assumption | extract_lets | apply State.dset_ev | apply State.modPart_ev | apply State.naPerform_ev | apply ite_ev

theorem execNeuronAccess_ev (r : Requester) (n sub : Nat) (data : Option Bytes) (t : Nat) (s : State) : EvolvesTo s (execNeuronAccess r n sub data t s) := by
  unfold execNeuronAccess
  repeat' first
    | with_reducible assumption
    | extract_lets
    | with_reducible apply State.answer_ev
    | with_reducible apply State.at_ev
    | with_reducible apply State.counted_ev
    | with_reducible apply State.naRequest_ev
    | with_reducible apply ite_ev
    | with_reducible apply ite_snd_ev
    | with_reducible apply ite_fst_ev
    | with_reducible apply ite_evTo
    | with_reducible apply evolvesTo_next
    | with_reducible exact Evolves.refl _
    | with_reducible apply foldl_ev
    | with_reducible apply foldl_fst_ev
    | with_reducible apply foldl_snd_ev
    | with_reducible rfl
    | with_reducible exact Nat.le_refl _
    | (intro _; with_reducible exact Nat.le_refl _)
    | (intro _; with_reducible exact rfl)
    | (intro m hm; change Memory.wf _ = true; exact hm)
    | intro _
    | split
    | dsimp only
    | with_reducible apply State.mk_ev

theorem execNeuronAccessPerform_ev (n t : Nat) (s : State) : EvolvesTo s (execNeuronAccessPerform n t s) := by
  unfold execNeuronAccessPerform
  repeat' first
    | extract_lets | with_reducible apply State.at_ev | with_reducible apply State.modPart_ev | with_reducible apply State.naPerform_ev
    | with_reducible apply ite_ev | with_reducible apply evolvesTo_next | with_reducible exact Evolves.refl _ | split

theorem State.clearCounters_ev (c : Nat) {s : State} (hev : Evolves s₀ s) : Evolves s₀ (State.clearCounters s c) := by
  unfold State.clearCounters
  with_reducible repeat' first | assumption | apply State.modCm_ev

theorem State.clearWhat_ev (n : Nat) (c : Option Nat) {s : State} (hev : Evolves s₀ s) : Evolves s₀ (State.clearWhat s n c) := by
  unfold State.clearWhat
  repeat' first
    | with_reducible assumption
    | extract_lets
    | with_reducible apply State.clearCounters_ev
    | with_reducible apply State.each_ev
    | with_reducible apply State.modCluster_ev
    | with_reducible apply ite_ev
    | with_reducible apply ite_snd_ev
    | with_reducible apply ite_fst_ev
    | with_reducible apply ite_evTo
    | with_reducible apply evolvesTo_next
    | with_reducible exact Evolves.refl _
    | with_reducible apply foldl_ev
    | with_reducible apply foldl_fst_ev
    | with_reducible apply foldl_snd_ev
    | with_reducible rfl
    | with_reducible exact Nat.le_refl _
    | (intro _; with_reducible exact Nat.le_refl _)
    | (intro _; with_reducible exact rfl)
    | (intro m hm; change Memory.wf _ = true; exact hm)
    | intro _
    | split
    | dsimp only
    | with_reducible apply State.mk_ev

theorem State.doCounterClear_ev (r : Requester) (n v : Nat) {s : State} (hev : Evolves s₀ s) : Evolves s₀ (State.doCounterClear s r n v).2 := by
  unfold State.doCounterClear
  with_reducible repeat' first
    | assumption | extract_lets | apply State.clearWhat_ev | apply State.modPart_ev | apply ite_ev | apply ite_snd_ev

theorem execCounterClear_ev (r : Requester) (n v t : Nat) (s : State) : EvolvesTo s (execCounterClear r n v t s) := by
  unfold execCounterClear
  with_reducible repeat' first
    | extract_lets | apply State.at_ev | apply State.doCounterClear_ev | apply State.typed_ev | apply evolvesTo_next | exact Evolves.refl _

end Sys2Proof.Machine
end

