-- ==== Sys2Proof/Laws/EvolveSupply.lean ====
section
/-!
SUPPORT. What no command does: the operations of Supply.lean (see Evolve.lean).
-/

namespace Sys2Proof.Machine

variable {s₀ : State}

theorem State.warn_ev (ecode n detail : Nat) {s : State} (hev : Evolves s₀ s) : Evolves s₀ (State.warn s ecode n detail) := by
  unfold State.warn
  with_reducible repeat' first | assumption | extract_lets | apply State.emergency_ev | apply State.takeFree_ev

theorem State.raiseFlag_ev (b : Nat) {s : State} (hev : Evolves s₀ s) : Evolves s₀ (State.raiseFlag s b) := by
  unfold State.raiseFlag
  with_reducible repeat' first
    | assumption | extract_lets | apply State.dadd_ev | apply State.dset_ev | apply State.modPins_ev | apply State.warn_ev | apply ite_ev

theorem State.dropFlag_ev (b : Nat) {s : State} (hev : Evolves s₀ s) : Evolves s₀ (State.dropFlag s b) := by
  unfold State.dropFlag
  with_reducible repeat' first
    | assumption | extract_lets | apply State.dset_ev | apply State.modPins_ev | apply State.modPow_ev | apply ite_ev

theorem State.follow_ev (h : Nat) {s : State} (hev : Evolves s₀ s) : Evolves s₀ (State.follow s h) := by
  unfold State.follow
  repeat' first
    | with_reducible assumption
    | extract_lets
    | with_reducible apply State.modHalf_ev
    | with_reducible apply ite_ev
    | with_reducible apply ite_snd_ev
    | with_reducible apply ite_fst_ev
    | with_reducible apply ite_evTo
    | with_reducible apply evolvesTo_next
    | with_reducible exact Evolves.refl _
    | with_reducible apply foldl_ev
    | with_reducible apply foldl_fst_ev
    | with_reducible apply foldl_snd_ev
    | with_reducible rfl
    | with_reducible exact Nat.le_refl _
    | (intro _; with_reducible exact Nat.le_refl _)
    | (intro _; with_reducible exact rfl)
    | (intro m hm; change Memory.wf _ = true; exact hm)
    | intro _
    | split
    | dsimp only
    | with_reducible apply State.mk_ev

theorem State.setNeed_ev (n h v : Nat) {s : State} (hev : Evolves s₀ s) : Evolves s₀ (State.setNeed s n h v) := by
  unfold State.setNeed
  repeat' first
    | with_reducible assumption
    | extract_lets
    | with_reducible apply State.follow_ev
    | with_reducible apply State.modPart_ev
    | with_reducible apply ite_ev
    | with_reducible apply ite_snd_ev
    | with_reducible apply ite_fst_ev
    | with_reducible apply ite_evTo
    | with_reducible apply evolvesTo_next
    | with_reducible exact Evolves.refl _
    | with_reducible apply foldl_ev
    | with_reducible apply foldl_fst_ev
    | with_reducible apply foldl_snd_ev
    | with_reducible rfl
    | with_reducible exact Nat.le_refl _
    | (intro _; with_reducible exact Nat.le_refl _)
    | (intro _; with_reducible exact rfl)
    | (intro m hm; change Memory.wf _ = true; exact hm)
    | intro _
    | split
    | dsimp only
    | with_reducible apply State.mk_ev

theorem State.setVoltage_ev (n h : Nat) {s : State} (hev : Evolves s₀ s) : Evolves s₀ (State.setVoltage s n h) := by
  unfold State.setVoltage
  with_reducible repeat' first | assumption | extract_lets | apply State.setNeed_ev | apply State.takeFree_ev | apply ite_ev

end Sys2Proof.Machine
end

