-- ==== Sys2Proof/Laws/EvolveReadout.lean ====
section
/-!
SUPPORT. What no command does: the operations of Readout.lean (see Evolve.lean).
-/

namespace Sys2Proof.Machine

variable {s₀ : State}

theorem State.shuffle_ev {α : Type} (l : List α) {s : State} (hev : Evolves s₀ s) : Evolves s₀ (State.shuffle s l).2 := by
  unfold State.shuffle
  with_reducible repeat' first | assumption | extract_lets | apply State.modClk_ev | (intro _; exact Nat.le_refl _)

theorem State.sramError_ev (w : Nat) {s : State} (hev : Evolves s₀ s) : Evolves s₀ (State.sramError s w) := by
  unfold State.sramError
  repeat' first
    | with_reducible assumption
    | extract_lets
    | with_reducible apply State.dadd_ev
    | with_reducible apply State.modMem_ev
    | with_reducible apply State.reportUnit_ev
    | with_reducible apply ite_ev
    | with_reducible apply ite_snd_ev
    | with_reducible apply ite_fst_ev
    | with_reducible apply ite_evTo
    | with_reducible apply evolvesTo_next
    | with_reducible exact Evolves.refl _
    | with_reducible apply foldl_ev
    | with_reducible apply foldl_fst_ev
    | with_reducible apply foldl_snd_ev
    | with_reducible rfl
    | with_reducible exact Nat.le_refl _
    | (intro _; with_reducible exact Nat.le_refl _)
    | (intro _; with_reducible exact rfl)
    | (intro m hm; change Memory.wf _ = true; exact hm)
    | intro _
    | split
    | dsimp only
    | with_reducible apply State.mk_ev

theorem State.contribute_ev (g : Nat) (e : Nat × F32) {s : State} (hev : Evolves s₀ s) : Evolves s₀ (State.contribute s g e) := by
  unfold State.contribute
  repeat' first
    | with_reducible assumption
    | extract_lets
    | with_reducible apply State.qadd_ev
    | with_reducible apply State.setCombine_ev
    | with_reducible apply ite_ev
    | with_reducible apply ite_snd_ev
    | with_reducible apply ite_fst_ev
    | with_reducible apply ite_evTo
    | with_reducible apply evolvesTo_next
    | with_reducible exact Evolves.refl _
    | with_reducible apply foldl_ev
    | with_reducible apply foldl_fst_ev
    | with_reducible apply foldl_snd_ev
    | with_reducible rfl
    | with_reducible exact Nat.le_refl _
    | (intro _; with_reducible exact Nat.le_refl _)
    | (intro _; with_reducible exact rfl)
    | (intro m hm; change Memory.wf _ = true; exact hm)
    | intro _
    | split
    | dsimp only
    | with_reducible apply State.mk_ev

theorem State.decodeChannel_ev (g : Nat) (t : Tile) (km c : Nat) {s : State} (hev : Evolves s₀ s) : Evolves s₀ (State.decodeChannel s g t km c).1 := by
  unfold State.decodeChannel
  repeat' first
    | with_reducible assumption
    | extract_lets
    | with_reducible apply State.modGroup_ev
    | with_reducible apply State.setCombine_ev
    | with_reducible apply State.sramError_ev
    | with_reducible apply ite_ev
    | with_reducible apply ite_snd_ev
    | with_reducible apply ite_fst_ev
    | with_reducible apply ite_evTo
    | with_reducible apply evolvesTo_next
    | with_reducible exact Evolves.refl _
    | with_reducible apply foldl_ev
    | with_reducible apply foldl_fst_ev
    | with_reducible apply foldl_snd_ev
    | with_reducible rfl
    | with_reducible exact Nat.le_refl _
    | (intro _; with_reducible exact Nat.le_refl _)
    | (intro _; with_reducible exact rfl)
    | (intro m hm; change Memory.wf _ = true; exact hm)
    | intro _
    | split
    | dsimp only
    | with_reducible apply State.mk_ev

theorem State.decodeChannels_ev (g : Nat) (t : Tile) (km : Nat) {s : State} (hev : Evolves s₀ s) : Evolves s₀ (State.decodeChannels s g t km).1 := by
  unfold State.decodeChannels
  repeat' first
    | with_reducible assumption
    | extract_lets
    | with_reducible apply State.decodeChannel_ev
    | with_reducible apply State.newRound_ev
    | with_reducible apply ite_ev
    | with_reducible apply ite_snd_ev
    | with_reducible apply ite_fst_ev
    | with_reducible apply ite_evTo
    | with_reducible apply evolvesTo_next
    | with_reducible exact Evolves.refl _
    | with_reducible apply foldl_ev
    | with_reducible apply foldl_fst_ev
    | with_reducible apply foldl_snd_ev
    | with_reducible rfl
    | with_reducible exact Nat.le_refl _
    | (intro _; with_reducible exact Nat.le_refl _)
    | (intro _; with_reducible exact rfl)
    | (intro m hm; change Memory.wf _ = true; exact hm)
    | intro _
    | split
    | dsimp only
    | with_reducible apply State.mk_ev

theorem State.decodeNext_ev (g : Nat) {s : State} (hev : Evolves s₀ s) : Evolves s₀ (State.decodeNext s g) := by
  unfold State.decodeNext
  repeat' first
    | with_reducible assumption
    | extract_lets
    | with_reducible apply State.contribute_ev
    | with_reducible apply State.decodeChannels_ev
    | with_reducible apply State.modGroup_ev
    | with_reducible apply State.shuffle_ev
    | with_reducible apply ite_ev
    | with_reducible apply ite_snd_ev
    | with_reducible apply ite_fst_ev
    | with_reducible apply ite_evTo
    | with_reducible apply evolvesTo_next
    | with_reducible exact Evolves.refl _
    | with_reducible apply foldl_ev
    | with_reducible apply foldl_fst_ev
    | with_reducible apply foldl_snd_ev
    | with_reducible rfl
    | with_reducible exact Nat.le_refl _
    | (intro _; with_reducible exact Nat.le_refl _)
    | (intro _; with_reducible exact rfl)
    | (intro m hm; change Memory.wf _ = true; exact hm)
    | intro _
    | split
    | dsimp only
    | with_reducible apply State.mk_ev

theorem State.decodeAll_ev (g : Nat) {s : State} (hev : Evolves s₀ s) : Evolves s₀ (State.decodeAll s g) := by
  unfold State.decodeAll
  with_reducible repeat' first | assumption | extract_lets | apply State.decodeNext_ev | apply foldl_ev | intro _

theorem execDecode_ev (g t : Nat) (s : State) : EvolvesTo s (execDecode g t s) := by
  unfold execDecode
  with_reducible repeat' first | extract_lets | apply State.at_ev | apply State.decodeNext_ev | apply evolvesTo_next | exact Evolves.refl _

theorem execReadoutPublish_ev (g t : Nat) (s : State) : EvolvesTo s (execReadoutPublish g t s) := by
  unfold execReadoutPublish
  repeat' first
    | extract_lets | with_reducible apply State.at_ev | with_reducible apply State.modGroup_ev | with_reducible apply evolvesTo_next
    | with_reducible exact Evolves.refl _ | split

end Sys2Proof.Machine
end

