-- ==== Sys2Proof/Laws/EvolvePitch.lean ====
section
/-!
SUPPORT. What no command does: the operations of Pitch.lean (see Evolve.lean).
-/

namespace Sys2Proof.Machine

variable {s₀ : State}

theorem State.startHold_ev (n : Nat) (was : Bool) {s : State} (hev : Evolves s₀ s) : Evolves s₀ (State.startHold s n was) := by
  unfold State.startHold
  repeat' first
    | with_reducible assumption
    | extract_lets
    | with_reducible apply State.each_ev
    | with_reducible apply State.modGroup_ev
    | with_reducible apply ite_ev
    | with_reducible apply ite_snd_ev
    | with_reducible apply ite_fst_ev
    | with_reducible apply ite_evTo
    | with_reducible apply evolvesTo_next
    | with_reducible exact Evolves.refl _
    | with_reducible apply foldl_ev
    | with_reducible apply foldl_fst_ev
    | with_reducible apply foldl_snd_ev
    | with_reducible rfl
    | with_reducible exact Nat.le_refl _
    | (intro _; with_reducible exact Nat.le_refl _)
    | (intro _; with_reducible exact rfl)
    | (intro m hm; change Memory.wf _ = true; exact hm)
    | intro _
    | split
    | dsimp only
    | with_reducible apply State.mk_ev

theorem State.tick_ev (n num inst : Nat) {s : State} (hev : Evolves s₀ s) : Evolves s₀ (State.tick s n num inst) := by
  unfold State.tick
  repeat' first
    | with_reducible assumption | extract_lets | with_reducible apply State.dadd_ev | with_reducible apply State.dset_ev
    | with_reducible apply State.modPart_ev | with_reducible apply State.settleHold_ev | with_reducible apply ite_ev | split
    | with_reducible apply State.mk_ev

theorem State.tickCounted_ev (n : Nat) {s : State} (hev : Evolves s₀ s) : Evolves s₀ (State.tickCounted s n) := by
  unfold State.tickCounted
  with_reducible repeat' first | assumption | apply State.tick_ev

theorem State.slewStep_ev (n : Nat) {s : State} (hev : Evolves s₀ s) : Evolves s₀ (State.slewStep s n) := by
  unfold State.slewStep
  with_reducible repeat' first | assumption | extract_lets | apply State.modPart_ev | apply State.takeFree_ev | apply ite_ev

theorem State.passOver_ev (n : Nat) (gone : List Nat) {s : State} (hev : Evolves s₀ s) : Evolves s₀ (State.passOver s n gone) := by
  unfold State.passOver
  with_reducible repeat' first | assumption | extract_lets | apply State.dadd_ev | apply State.modPart_ev | apply ite_ev

theorem execTsnTick_ev (n k t : Nat) (s : State) : EvolvesTo s (execTsnTick n k t s) := by
  unfold execTsnTick
  with_reducible repeat' first
    | extract_lets | apply State.at_ev | apply State.passOver_ev | apply State.slewStep_ev | apply State.tick_ev | apply ite_ev
    | apply evolvesTo_next | exact Evolves.refl _

theorem execCadenceInEdge_ev (rising : Bool) (t : Nat) (s : State) : EvolvesTo s (execCadenceInEdge rising t s) := by
  unfold execCadenceInEdge
  with_reducible repeat' first
    | extract_lets | apply State.at_ev | apply State.dadd_ev | apply State.dadd64_ev | apply State.dset_ev | apply State.each_ev
    | apply State.modClk_ev | apply State.tickCounted_ev | apply ite_ev | apply evolvesTo_next | exact Evolves.refl _
    | (intro _; exact Nat.le_refl _) | intro _

theorem State.quadTick_ev (n : Nat) {s : State} (hev : Evolves s₀ s) : Evolves s₀ (State.quadTick s n) := by
  unfold State.quadTick
  with_reducible repeat' first | assumption | extract_lets | apply State.modPart_ev | apply State.tickCounted_ev | apply ite_ev

theorem execQuadTransition_ev (a b : Bool) (t : Nat) (s : State) : EvolvesTo s (execQuadTransition a b t s) := by
  unfold execQuadTransition
  with_reducible repeat' first
    | extract_lets | apply State.at_ev | apply State.dadd_ev | apply State.dset_ev | apply State.each_ev | apply State.modClk_ev
    | apply State.quadTick_ev | apply ite_ev | apply evolvesTo_next | exact Evolves.refl _ | (intro _; exact Nat.le_refl _) | intro _

theorem execPitchTrigger_ev (f w t : Nat) (s : State) : EvolvesTo s (execPitchTrigger f w t s) := by
  unfold execPitchTrigger
  with_reducible repeat' first
    | assumption | extract_lets | apply State.at_ev | apply State.dadd_ev | apply State.each_ev | apply State.tickCounted_ev | apply ite_ev
    | apply evolvesTo_next | exact Evolves.refl _ | intro _

theorem State.untick_ev (n : Nat) {s : State} (hev : Evolves s₀ s) : Evolves s₀ (State.untick s n) := by
  unfold State.untick
  repeat' first
    | with_reducible assumption
    | extract_lets
    | with_reducible apply State.modPart_ev
    | with_reducible apply ite_ev
    | with_reducible apply ite_snd_ev
    | with_reducible apply ite_fst_ev
    | with_reducible apply ite_evTo
    | with_reducible apply evolvesTo_next
    | with_reducible exact Evolves.refl _
    | with_reducible apply foldl_ev
    | with_reducible apply foldl_fst_ev
    | with_reducible apply foldl_snd_ev
    | with_reducible rfl
    | with_reducible exact Nat.le_refl _
    | (intro _; with_reducible exact Nat.le_refl _)
    | (intro _; with_reducible exact rfl)
    | (intro m hm; change Memory.wf _ = true; exact hm)
    | intro _
    | split
    | dsimp only
    | with_reducible apply State.mk_ev

theorem State.retime_ev (n : Nat) (o : Int) {s : State} (hev : Evolves s₀ s) : Evolves s₀ (State.retime s n o) := by
  unfold State.retime
  repeat' first
    | with_reducible assumption
    | extract_lets
    | with_reducible apply State.dadd_ev
    | with_reducible apply State.modPart_ev
    | with_reducible apply State.untick_ev
    | with_reducible apply ite_ev
    | with_reducible apply ite_snd_ev
    | with_reducible apply ite_fst_ev
    | with_reducible apply ite_evTo
    | with_reducible apply evolvesTo_next
    | with_reducible exact Evolves.refl _
    | with_reducible apply foldl_ev
    | with_reducible apply foldl_fst_ev
    | with_reducible apply foldl_snd_ev
    | with_reducible rfl
    | with_reducible exact Nat.le_refl _
    | (intro _; with_reducible exact Nat.le_refl _)
    | (intro _; with_reducible exact rfl)
    | (intro m hm; change Memory.wf _ = true; exact hm)
    | intro _
    | split
    | dsimp only
    | with_reducible apply State.mk_ev

theorem execSyncMessage_ev (port : SyncInfo) (offset : Int) (t : Nat) (s : State) : EvolvesTo s (execSyncMessage port offset t s) := by
  unfold execSyncMessage
  with_reducible repeat' first
    | extract_lets | apply State.at_ev | apply State.dset_ev | apply State.each_ev | apply State.modClk_ev | apply State.retime_ev
    | apply ite_ev | apply evolvesTo_next | exact Evolves.refl _ | (intro _; exact Nat.le_refl _) | intro _

theorem State.holdover_ev {s : State} (hev : Evolves s₀ s) : Evolves s₀ (State.holdover s) := by
  unfold State.holdover
  with_reducible repeat' first
    | assumption | extract_lets | apply State.dset_ev | apply State.modClk_ev | apply ite_ev | (intro _; exact Nat.le_refl _)

theorem execSyncTimeout_ev (t : Nat) (s : State) : EvolvesTo s (execSyncTimeout t s) := by
  unfold execSyncTimeout
  repeat' first
    | with_reducible assumption
    | extract_lets
    | with_reducible apply State.at_ev
    | with_reducible apply State.holdover_ev
    | with_reducible apply ite_ev
    | with_reducible apply ite_snd_ev
    | with_reducible apply ite_fst_ev
    | with_reducible apply ite_evTo
    | with_reducible apply evolvesTo_next
    | with_reducible exact Evolves.refl _
    | with_reducible apply foldl_ev
    | with_reducible apply foldl_fst_ev
    | with_reducible apply foldl_snd_ev
    | with_reducible rfl
    | with_reducible exact Nat.le_refl _
    | (intro _; with_reducible exact Nat.le_refl _)
    | (intro _; with_reducible exact rfl)
    | (intro m hm; change Memory.wf _ = true; exact hm)
    | intro _
    | split
    | dsimp only
    | with_reducible apply State.mk_ev

theorem execHoldoverLimit_ev (t : Nat) (s : State) : EvolvesTo s (execHoldoverLimit t s) := by
  unfold execHoldoverLimit
  with_reducible repeat' first
    | assumption | extract_lets | apply State.at_ev | apply State.dset_ev | apply State.each_ev | apply State.modClk_ev
    | apply State.warn_ev | apply ite_ev | apply evolvesTo_next | exact Evolves.refl _ | (intro _; exact Nat.le_refl _) | intro _

theorem execCadenceLoss_ev (n t : Nat) (s : State) : EvolvesTo s (execCadenceLoss n t s) := by
  unfold execCadenceLoss
  repeat' first
    | with_reducible assumption
    | extract_lets
    | with_reducible apply State.at_ev
    | with_reducible apply State.disableBelay_ev
    | with_reducible apply State.dset_ev
    | with_reducible apply State.modPart_ev
    | with_reducible apply State.startHold_ev
    | with_reducible apply State.warn_ev
    | with_reducible apply ite_ev
    | with_reducible apply ite_snd_ev
    | with_reducible apply ite_fst_ev
    | with_reducible apply ite_evTo
    | with_reducible apply evolvesTo_next
    | with_reducible exact Evolves.refl _
    | with_reducible apply foldl_ev
    | with_reducible apply foldl_fst_ev
    | with_reducible apply foldl_snd_ev
    | with_reducible rfl
    | with_reducible exact Nat.le_refl _
    | (intro _; with_reducible exact Nat.le_refl _)
    | (intro _; with_reducible exact rfl)
    | (intro m hm; change Memory.wf _ = true; exact hm)
    | intro _
    | split
    | dsimp only
    | with_reducible apply State.mk_ev

theorem State.switchStream_ev (k : Nat) (t : Tile) {s : State} (hev : Evolves s₀ s) : Evolves s₀ (State.switchStream s k t) := by
  unfold State.switchStream
  with_reducible repeat' first | assumption | apply State.modStream_ev

theorem State.openScales_ev (n p : Nat) {s : State} (hev : Evolves s₀ s) : Evolves s₀ (State.openScales s n p) := by
  unfold State.openScales
  with_reducible repeat' first
    | assumption | extract_lets | apply State.mark_ev | apply State.modPart_ev | apply State.modStream_ev | apply State.switchStream_ev
    | apply ite_ev | apply foldl_ev | intro _

theorem State.openProjs_ev (n p : Nat) {s : State} (hev : Evolves s₀ s) : Evolves s₀ (State.openProjs s n p) := by
  unfold State.openProjs
  repeat' first
    | with_reducible assumption
    | extract_lets
    | with_reducible apply State.each_ev
    | with_reducible apply State.mark_ev
    | with_reducible apply State.modPart_ev
    | with_reducible apply State.modProj_ev
    | with_reducible apply ite_ev
    | with_reducible apply ite_snd_ev
    | with_reducible apply ite_fst_ev
    | with_reducible apply ite_evTo
    | with_reducible apply evolvesTo_next
    | with_reducible exact Evolves.refl _
    | with_reducible apply foldl_ev
    | with_reducible apply foldl_fst_ev
    | with_reducible apply foldl_snd_ev
    | with_reducible rfl
    | with_reducible exact Nat.le_refl _
    | (intro _; with_reducible exact Nat.le_refl _)
    | (intro _; with_reducible exact rfl)
    | (intro m hm; change Memory.wf _ = true; exact hm)
    | intro _
    | split
    | dsimp only
    | with_reducible apply State.mk_ev

theorem State.openPitch_ev (n num inst : Nat) {s : State} (hev : Evolves s₀ s) : Evolves s₀ (State.openPitch s n num inst) := by
  unfold State.openPitch
  repeat' first
    | with_reducible assumption
    | extract_lets
    | with_reducible apply State.dadd64_ev
    | with_reducible apply State.dset_ev
    | with_reducible apply State.each_ev
    | with_reducible apply State.encodeStream_ev
    | with_reducible apply State.modCluster_ev
    | with_reducible apply State.modHalf_ev
    | with_reducible apply State.modPart_ev
    | with_reducible apply State.openProjs_ev
    | with_reducible apply State.openScales_ev
    | with_reducible apply ite_ev
    | with_reducible apply ite_snd_ev
    | with_reducible apply ite_fst_ev
    | with_reducible apply ite_evTo
    | with_reducible apply evolvesTo_next
    | with_reducible exact Evolves.refl _
    | with_reducible apply foldl_ev
    | with_reducible apply foldl_fst_ev
    | with_reducible apply foldl_snd_ev
    | with_reducible rfl
    | with_reducible exact Nat.le_refl _
    | (intro _; with_reducible exact Nat.le_refl _)
    | (intro _; with_reducible exact rfl)
    | (intro m hm; change Memory.wf _ = true; exact hm)
    | intro _
    | split
    | dsimp only
    | with_reducible apply State.mk_ev

theorem execPitchOpen_ev (n t : Nat) (s : State) : EvolvesTo s (execPitchOpen n t s) := by
  unfold execPitchOpen
  repeat' first
    | extract_lets | with_reducible apply State.at_ev | with_reducible apply State.openPitch_ev | with_reducible apply ite_ev
    | with_reducible apply evolvesTo_next | with_reducible exact Evolves.refl _ | split

theorem execWatchPoint_ev (n t : Nat) (s : State) : EvolvesTo s (execWatchPoint n t s) := by
  unfold execWatchPoint
  with_reducible repeat' first
    | extract_lets | apply State.at_ev | apply State.dadd_ev | apply State.each_ev | apply State.modPart_ev | apply State.setNeed_ev
    | apply ite_ev | apply evolvesTo_next | exact Evolves.refl _ | intro _

theorem State.overran_ev (n : Nat) {s : State} (hev : Evolves s₀ s) : Evolves s₀ (State.overran s n) := by
  unfold State.overran
  with_reducible repeat' first
    | assumption | extract_lets | apply State.dadd_ev | apply State.ledgerFlag_ev | apply State.modPart_ev | apply ite_ev

theorem execDeadline_ev (n t : Nat) (s : State) : EvolvesTo s (execDeadline n t s) := by
  unfold execDeadline
  with_reducible repeat' first
    | extract_lets | apply State.at_ev | apply State.overran_ev | apply ite_ev | apply evolvesTo_next | exact Evolves.refl _

theorem execTruncateInstant_ev (n t : Nat) (s : State) : EvolvesTo s (execTruncateInstant n t s) := by
  unfold execTruncateInstant
  repeat' first
    | extract_lets | with_reducible apply State.at_ev | with_reducible apply State.dadd_ev | with_reducible apply State.ledgerFlag_ev
    | with_reducible apply State.modPart_ev | with_reducible apply ite_ev | with_reducible apply evolvesTo_next
    | with_reducible exact Evolves.refl _ | split

theorem execBelayTimeout_ev (n c t : Nat) (s : State) : EvolvesTo s (execBelayTimeout n c t s) := by
  unfold execBelayTimeout
  with_reducible repeat' first
    | extract_lets | apply State.at_ev | apply State.failCore_ev | apply State.modPart_ev | apply ite_ev | apply evolvesTo_next
    | exact Evolves.refl _

theorem execApplyComplete_ev (n p t : Nat) (s : State) : EvolvesTo s (execApplyComplete n p t s) := by
  unfold execApplyComplete
  repeat' first
    | extract_lets | with_reducible apply State.applyProj_ev | with_reducible apply State.applySwitches_ev
    | with_reducible apply State.at_ev | with_reducible apply State.modProj_ev | with_reducible apply ite_ev
    | with_reducible apply evolvesTo_next | with_reducible exact Evolves.refl _ | split

theorem State.boundaryProj_ev (n p : Nat) {s : State} (hev : Evolves s₀ s) : Evolves s₀ (State.boundaryProj s n p) := by
  unfold State.boundaryProj
  with_reducible repeat' first
    | assumption | extract_lets | apply State.dadd_ev | apply State.mark_ev | apply State.modProj_ev | apply ite_ev

theorem State.autoKeep_ev (n : Nat) {s : State} (hev : Evolves s₀ s) : Evolves s₀ (State.autoKeep s n) := by
  unfold State.autoKeep
  with_reducible repeat' first | assumption | extract_lets | apply State.modPart_ev | apply State.startCommit_ev | apply ite_ev

theorem State.boundary_ev (n : Nat) {s : State} (hev : Evolves s₀ s) : Evolves s₀ (State.boundary s n) := by
  unfold State.boundary
  with_reducible repeat' first
    | assumption | extract_lets | apply State.autoKeep_ev | apply State.boundaryProj_ev | apply State.each_ev | apply State.release_ev
    | apply ite_ev | intro _

theorem State.decide108_ev (n nsets minAct act : Nat) (sat und : Nat → Nat) (g : ScaleGroup) {s : State} (hev : Evolves s₀ s) : Evolves s₀ (State.decide108 s n nsets minAct act sat und g).1 := by
  unfold State.decide108
  repeat' first | with_reducible assumption | extract_lets | with_reducible apply State.dset_ev | with_reducible apply ite_fst_ev | split

theorem State.windowGroup_ev (n : Nat) (all : List (Nat × Nat)) (g : Nat) {s : State} (hev : Evolves s₀ s) : Evolves s₀ (State.windowGroup s n all g) := by
  unfold State.windowGroup
  with_reducible repeat' first
    | assumption | extract_lets | apply State.dadd_ev | apply State.decide108_ev | apply State.modPart_ev | apply ite_ev

theorem State.windowStream_ev (n : Nat) (t : Tile) {s : State} (hev : Evolves s₀ s) : Evolves s₀ (State.windowStream s n t) := by
  unfold State.windowStream
  with_reducible repeat' first | assumption | extract_lets | apply State.decide108_ev | apply State.modStream_ev

theorem State.windowBelay_ev (n : Nat) {s : State} (hev : Evolves s₀ s) : Evolves s₀ (State.windowBelay s n) := by
  unfold State.windowBelay
  with_reducible repeat' first
    | assumption | extract_lets | apply State.clearGuard_ev | apply State.dset_ev | apply State.each_ev | apply State.modPart_ev
    | apply State.release_ev | apply State.windowGroup_ev | apply State.windowStream_ev | apply ite_ev | apply foldl_ev | intro _

theorem State.cairnBelay_ev (n : Nat) {s : State} (hev : Evolves s₀ s) : Evolves s₀ (State.cairnBelay s n) := by
  unfold State.cairnBelay
  with_reducible repeat' first
    | assumption | extract_lets | apply State.each_ev | apply State.modCore_ev | apply State.modPart_ev | apply ite_ev | intro _

theorem State.streamBelay_ev (n : Nat) {s : State} (hev : Evolves s₀ s) : Evolves s₀ (State.streamBelay s n) := by
  exact State.forceStreams_ev _ (State.each_ev _ (fun _ _ h => ite_ev (State.warn_ev _ _ _ (State.modStream_ev _ _ h)) h) hev)

theorem State.decodeBefore_ev (g p : Nat) {s : State} (hev : Evolves s₀ s) : Evolves s₀ (State.decodeBefore s g p) := by
  unfold State.decodeBefore
  repeat' first
    | with_reducible assumption
    | extract_lets
    | with_reducible apply State.decodeNext_ev
    | with_reducible apply ite_ev
    | with_reducible apply ite_snd_ev
    | with_reducible apply ite_fst_ev
    | with_reducible apply ite_evTo
    | with_reducible apply evolvesTo_next
    | with_reducible exact Evolves.refl _
    | with_reducible apply foldl_ev
    | with_reducible apply foldl_fst_ev
    | with_reducible apply foldl_snd_ev
    | with_reducible rfl
    | with_reducible exact Nat.le_refl _
    | (intro _; with_reducible exact Nat.le_refl _)
    | (intro _; with_reducible exact rfl)
    | (intro m hm; change Memory.wf _ = true; exact hm)
    | intro _
    | split
    | dsimp only
    | with_reducible apply State.mk_ev

theorem State.groupBelay_ev (n : Nat) {s : State} (hev : Evolves s₀ s) : Evolves s₀ (State.groupBelay s n) := by
  unfold State.groupBelay
  repeat' first
    | with_reducible assumption
    | extract_lets
    | with_reducible apply State.decodeBefore_ev
    | with_reducible apply State.each_ev
    | with_reducible apply State.modGroup_ev
    | with_reducible apply ite_ev
    | with_reducible apply ite_snd_ev
    | with_reducible apply ite_fst_ev
    | with_reducible apply ite_evTo
    | with_reducible apply evolvesTo_next
    | with_reducible exact Evolves.refl _
    | with_reducible apply foldl_ev
    | with_reducible apply foldl_fst_ev
    | with_reducible apply foldl_snd_ev
    | with_reducible rfl
    | with_reducible exact Nat.le_refl _
    | (intro _; with_reducible exact Nat.le_refl _)
    | (intro _; with_reducible exact rfl)
    | (intro m hm; change Memory.wf _ = true; exact hm)
    | intro _
    | split
    | dsimp only
    | with_reducible apply State.mk_ev

theorem State.decodeDue_ev (n : Nat) {s : State} (hev : Evolves s₀ s) : Evolves s₀ (State.decodeDue s n) := by
  unfold State.decodeDue
  with_reducible repeat' first | assumption | extract_lets | apply State.each_ev | apply State.modGroup_ev | intro _

theorem State.foldDrops_ev (n p : Nat) {s : State} (hev : Evolves s₀ s) : Evolves s₀ (State.foldDrops s n p) := by
  unfold State.foldDrops
  with_reducible repeat' first | assumption | extract_lets | apply State.ledgerDrop_ev | apply State.modPart_ev | apply foldl_ev | intro _

theorem State.writeLedger_ev (n : Nat) (slack : Int) {s : State} (hev : Evolves s₀ s) : Evolves s₀ (State.writeLedger s n slack) := by
  unfold State.writeLedger
  repeat' first
    | with_reducible assumption
    | extract_lets
    | with_reducible apply State.dadd_ev
    | with_reducible apply State.each_ev
    | with_reducible apply State.modCore_ev
    | with_reducible apply State.modPart_ev
    | with_reducible apply ite_ev
    | with_reducible apply ite_snd_ev
    | with_reducible apply ite_fst_ev
    | with_reducible apply ite_evTo
    | with_reducible apply evolvesTo_next
    | with_reducible exact Evolves.refl _
    | with_reducible apply foldl_ev
    | with_reducible apply foldl_fst_ev
    | with_reducible apply foldl_snd_ev
    | with_reducible rfl
    | with_reducible exact Nat.le_refl _
    | (intro _; with_reducible exact Nat.le_refl _)
    | (intro _; with_reducible exact rfl)
    | (intro m hm; change Memory.wf _ = true; exact hm)
    | intro _
    | split
    | dsimp only
    | with_reducible apply State.mk_ev

theorem State.reviewCore_ev (n c : Nat) {s : State} (hev : Evolves s₀ s) : Evolves s₀ (State.reviewCore s n c) := by
  unfold State.reviewCore
  with_reducible repeat' first | assumption | extract_lets | apply State.modCore_ev

theorem State.reviewBelay_ev (n : Nat) {s : State} (hev : Evolves s₀ s) : Evolves s₀ (State.reviewBelay s n) := by
  unfold State.reviewBelay
  with_reducible repeat' first | assumption | extract_lets | apply State.each_ev | apply State.reviewCore_ev | apply ite_ev | intro _

theorem State.takeSnap_ev (n : Nat) {s : State} (hev : Evolves s₀ s) : Evolves s₀ (State.takeSnap s n) := by
  unfold State.takeSnap
  with_reducible repeat' first | assumption | extract_lets | apply State.modPart_ev

theorem State.noteSlack_ev (n : Nat) {s : State} (hev : Evolves s₀ s) : Evolves s₀ (State.noteSlack s n).1 := by
  unfold State.noteSlack
  with_reducible repeat' first
    | assumption | extract_lets | apply State.dadd64_ev | apply State.dset_ev | apply State.overran_ev | apply ite_ev

theorem State.swapBelay_ev (n : Nat) {s : State} (hev : Evolves s₀ s) : Evolves s₀ (State.swapBelay s n) := by
  unfold State.swapBelay
  with_reducible repeat' first
    | assumption | extract_lets | apply State.decodeAll_ev | apply State.each_ev | apply State.swapNow_ev | apply ite_ev | intro _

theorem State.endBelay_ev (n : Nat) {s : State} (hev : Evolves s₀ s) : Evolves s₀ (State.endBelay s n) := by
  unfold State.endBelay
  with_reducible repeat' first
    | assumption | extract_lets | apply State.disableEffect_ev | apply State.modPart_ev | apply State.warn_ev | apply ite_ev

theorem State.swapOutNow_ev (c : Nat) {s : State} (hev : Evolves s₀ s) : Evolves s₀ (State.swapOutNow s c) := by
  unfold State.swapOutNow
  repeat' first
    | with_reducible assumption
    | extract_lets
    | with_reducible apply State.dset_ev
    | with_reducible apply State.enterResident_ev
    | with_reducible apply State.freshSlot_ev
    | with_reducible apply State.modCore_ev
    | with_reducible apply State.modFloor_ev
    | with_reducible apply State.modRel_ev
    | with_reducible apply State.seqRestart_ev
    | with_reducible apply State.testCore_ev
    | with_reducible apply ite_ev
    | with_reducible apply ite_snd_ev
    | with_reducible apply ite_fst_ev
    | with_reducible apply ite_evTo
    | with_reducible apply evolvesTo_next
    | with_reducible exact Evolves.refl _
    | with_reducible apply foldl_ev
    | with_reducible apply foldl_fst_ev
    | with_reducible apply foldl_snd_ev
    | with_reducible rfl
    | with_reducible exact Nat.le_refl _
    | (intro _; with_reducible exact Nat.le_refl _)
    | (intro _; with_reducible exact rfl)
    | (intro m hm; change Memory.wf _ = true; exact hm)
    | intro _
    | split
    | dsimp only
    | with_reducible apply State.mk_ev

theorem State.swapOutBelay_ev (n : Nat) {s : State} (hev : Evolves s₀ s) : Evolves s₀ (State.swapOutBelay s n) := by
  unfold State.swapOutBelay
  repeat' first
    | with_reducible assumption
    | extract_lets
    | with_reducible apply State.each_ev
    | with_reducible apply State.swapOutNow_ev
    | with_reducible apply ite_ev
    | with_reducible apply ite_snd_ev
    | with_reducible apply ite_fst_ev
    | with_reducible apply ite_evTo
    | with_reducible apply evolvesTo_next
    | with_reducible exact Evolves.refl _
    | with_reducible apply foldl_ev
    | with_reducible apply foldl_fst_ev
    | with_reducible apply foldl_snd_ev
    | with_reducible rfl
    | with_reducible exact Nat.le_refl _
    | (intro _; with_reducible exact Nat.le_refl _)
    | (intro _; with_reducible exact rfl)
    | (intro m hm; change Memory.wf _ = true; exact hm)
    | intro _
    | split
    | dsimp only
    | with_reducible apply State.mk_ev

theorem State.holdBelay_ev (n : Nat) {s : State} (hev : Evolves s₀ s) : Evolves s₀ (State.holdBelay s n) := by
  exact State.each_ev _ (fun _ _ h => ite_ev (State.modHalf_ev _ _ h) h) hev

theorem State.closePitch_ev (n : Nat) {s : State} (hev : Evolves s₀ s) : Evolves s₀ (State.closePitch s n) := by
  unfold State.closePitch
  repeat' first
    | with_reducible assumption
    | extract_lets
    | with_reducible apply State.applySwitches_ev
    | with_reducible apply State.boundary_ev
    | with_reducible apply State.cairnBelay_ev
    | with_reducible apply State.clearWhat_ev
    | with_reducible apply State.decodeDue_ev
    | with_reducible apply State.each_ev
    | with_reducible apply State.endBelay_ev
    | with_reducible apply State.foldDrops_ev
    | with_reducible apply State.groupBelay_ev
    | with_reducible apply State.holdBelay_ev
    | with_reducible apply State.modPart_ev
    | with_reducible apply State.noteSlack_ev
    | with_reducible apply State.release_ev
    | with_reducible apply State.reviewBelay_ev
    | with_reducible apply State.setVoltage_ev
    | with_reducible apply State.settleCaches_ev
    | with_reducible apply State.streamBelay_ev
    | with_reducible apply State.swapBelay_ev
    | with_reducible apply State.swapOutBelay_ev
    | with_reducible apply State.switchUnits_ev
    | with_reducible apply State.takeSnap_ev
    | with_reducible apply State.windowBelay_ev
    | with_reducible apply State.writeLedger_ev
    | with_reducible apply ite_ev
    | with_reducible apply ite_snd_ev
    | with_reducible apply ite_fst_ev
    | with_reducible apply ite_evTo
    | with_reducible apply evolvesTo_next
    | with_reducible exact Evolves.refl _
    | with_reducible apply foldl_ev
    | with_reducible apply foldl_fst_ev
    | with_reducible apply foldl_snd_ev
    | with_reducible rfl
    | with_reducible exact Nat.le_refl _
    | (intro _; with_reducible exact Nat.le_refl _)
    | (intro _; with_reducible exact rfl)
    | (intro m hm; change Memory.wf _ = true; exact hm)
    | intro _
    | split
    | dsimp only
    | with_reducible apply State.mk_ev

theorem execClusterBelay_ev (n cl t : Nat) (s : State) : EvolvesTo s (execClusterBelay n cl t s) := by
  unfold execClusterBelay
  repeat' first
    | with_reducible assumption
    | extract_lets
    | with_reducible apply State.at_ev
    | with_reducible apply State.closePitch_ev
    | with_reducible apply State.dset_ev
    | with_reducible apply State.modPart_ev
    | with_reducible apply ite_ev
    | with_reducible apply ite_snd_ev
    | with_reducible apply ite_fst_ev
    | with_reducible apply ite_evTo
    | with_reducible apply evolvesTo_next
    | with_reducible exact Evolves.refl _
    | with_reducible apply foldl_ev
    | with_reducible apply foldl_fst_ev
    | with_reducible apply foldl_snd_ev
    | with_reducible rfl
    | with_reducible exact Nat.le_refl _
    | (intro _; with_reducible exact Nat.le_refl _)
    | (intro _; with_reducible exact rfl)
    | (intro m hm; change Memory.wf _ = true; exact hm)
    | intro _
    | split
    | dsimp only
    | with_reducible apply State.mk_ev

end Sys2Proof.Machine
end

