-- ==== Sys2Proof/Laws/EvolveTakeover.lean ====
section
/-!
SUPPORT. What no command does: the operations of Takeover.lean (see Evolve.lean).
-/

namespace Sys2Proof.Machine

variable {s₀ : State}

theorem execCairnComplete_ev (c : Nat) (s : State) : EvolvesTo s (execCairnComplete c s) := by
  unfold execCairnComplete
  repeat' first
    | extract_lets | with_reducible apply State.modCore_ev | with_reducible apply ite_ev | with_reducible apply evolvesTo_next
    | with_reducible exact Evolves.refl _ | split

theorem State.resendTo_ev (a : Nat) {s : State} (hev : Evolves s₀ s) : Evolves s₀ (State.resendTo s a) := by
  unfold State.resendTo
  repeat' first
    | with_reducible assumption
    | extract_lets
    | with_reducible apply State.modFab_ev
    | with_reducible apply State.resend_ev
    | with_reducible apply ite_ev
    | with_reducible apply ite_snd_ev
    | with_reducible apply ite_fst_ev
    | with_reducible apply ite_evTo
    | with_reducible apply evolvesTo_next
    | with_reducible exact Evolves.refl _
    | with_reducible apply foldl_ev
    | with_reducible apply foldl_fst_ev
    | with_reducible apply foldl_snd_ev
    | with_reducible rfl
    | with_reducible exact Nat.le_refl _
    | (intro _; with_reducible exact Nat.le_refl _)
    | (intro _; with_reducible exact rfl)
    | (intro m hm; change Memory.wf _ = true; exact hm)
    | intro _
    | split
    | dsimp only
    | with_reducible apply State.mk_ev

theorem State.spareIn_ev (c sp : Nat) {s : State} (hev : Evolves s₀ s) : Evolves s₀ (State.spareIn s c sp) := by
  unfold State.spareIn
  repeat' first
    | with_reducible assumption
    | extract_lets
    | with_reducible apply State.loadSpare_ev
    | with_reducible apply State.spareTakes_ev
    | with_reducible apply ite_ev
    | with_reducible apply ite_snd_ev
    | with_reducible apply ite_fst_ev
    | with_reducible apply ite_evTo
    | with_reducible apply evolvesTo_next
    | with_reducible exact Evolves.refl _
    | with_reducible apply foldl_ev
    | with_reducible apply foldl_fst_ev
    | with_reducible apply foldl_snd_ev
    | with_reducible rfl
    | with_reducible exact Nat.le_refl _
    | (intro _; with_reducible exact Nat.le_refl _)
    | (intro _; with_reducible exact rfl)
    | (intro m hm; change Memory.wf _ = true; exact hm)
    | intro _
    | split
    | dsimp only
    | with_reducible apply State.mk_ev

theorem execTakeover_ev (c t : Nat) (s : State) : EvolvesTo s (execTakeover c t s) := by
  unfold execTakeover
  repeat' first
    | extract_lets | with_reducible apply State.at_ev | with_reducible apply State.dadd_ev | with_reducible apply State.modCore_ev
    | with_reducible apply State.modRel_ev | with_reducible apply State.spareIn_ev | with_reducible apply ite_ev
    | with_reducible apply evolvesTo_next | with_reducible exact Evolves.refl _ | split

theorem execColdTakeover_ev (c t : Nat) (s : State) : EvolvesTo s (execColdTakeover c t s) := by
  unfold execColdTakeover
  repeat' first
    | extract_lets | with_reducible apply State.at_ev | with_reducible apply State.dadd_ev | with_reducible apply State.ledgerDrop_ev
    | with_reducible apply State.modCore_ev | with_reducible apply State.spareIn_ev | with_reducible apply ite_ev
    | with_reducible apply evolvesTo_next | with_reducible exact Evolves.refl _ | split

theorem execPrefetch_ev (c : Nat) (s : State) : EvolvesTo s (execPrefetch c s) := by
  unfold execPrefetch
  repeat' first
    | extract_lets | with_reducible apply State.issuePrefetch_ev | with_reducible apply State.modCore_ev | with_reducible apply ite_ev
    | with_reducible apply evolvesTo_next | with_reducible exact Evolves.refl _ | split

theorem execPrefetchRetry_ev (c : Nat) (s : State) : EvolvesTo s (execPrefetchRetry c s) := by
  unfold execPrefetchRetry
  repeat' first
    | extract_lets | with_reducible apply State.issuePrefetch_ev | with_reducible apply ite_ev | with_reducible apply evolvesTo_next
    | with_reducible exact Evolves.refl _ | split

theorem State.setProjs_ev (n : Nat) (m : SMap Proj) {s : State} (hev : Evolves s₀ s) : Evolves s₀ (State.setProjs s n m) := by
  unfold State.setProjs
  with_reducible repeat' first | assumption | apply State.modPart_ev

theorem State.replayOne_ev (c p : Nat) (u : CatchUp) {s : State} (hev : Evolves s₀ s) : Evolves s₀ (State.replayOne s c p u) := by
  unfold State.replayOne
  repeat' first
    | with_reducible assumption
    | extract_lets
    | with_reducible apply State.accumulateEvent_ev
    | with_reducible apply State.clearAcc_ev
    | with_reducible apply State.ledgerFlag_ev
    | with_reducible apply State.modCore_ev
    | with_reducible apply State.noteLate_ev
    | with_reducible apply State.setProjs_ev
    | with_reducible apply State.sweep_ev
    | with_reducible apply ite_ev
    | with_reducible apply ite_snd_ev
    | with_reducible apply ite_fst_ev
    | with_reducible apply ite_evTo
    | with_reducible apply evolvesTo_next
    | with_reducible exact Evolves.refl _
    | with_reducible apply foldl_ev
    | with_reducible apply foldl_fst_ev
    | with_reducible apply foldl_snd_ev
    | with_reducible rfl
    | with_reducible exact Nat.le_refl _
    | (intro _; with_reducible exact Nat.le_refl _)
    | (intro _; with_reducible exact rfl)
    | (intro m hm; change Memory.wf _ = true; exact hm)
    | intro _
    | split
    | dsimp only
    | with_reducible apply State.mk_ev

theorem execReplayPitch_ev (c t : Nat) (s : State) : EvolvesTo s (execReplayPitch c t s) := by
  unfold execReplayPitch
  repeat' first
    | extract_lets | with_reducible apply State.at_ev | with_reducible apply State.modCore_ev | with_reducible apply State.replayOne_ev
    | with_reducible apply ite_ev | with_reducible apply evolvesTo_next | with_reducible exact Evolves.refl _ | split

theorem State.clearStore_ev (cl : Nat) {s : State} (hev : Evolves s₀ s) : Evolves s₀ (State.clearStore s cl) := by
  unfold State.clearStore
  repeat' first
    | with_reducible assumption
    | extract_lets
    | with_reducible apply State.modCluster_ev
    | with_reducible apply ite_ev
    | with_reducible apply ite_snd_ev
    | with_reducible apply ite_fst_ev
    | with_reducible apply ite_evTo
    | with_reducible apply evolvesTo_next
    | with_reducible exact Evolves.refl _
    | with_reducible apply foldl_ev
    | with_reducible apply foldl_fst_ev
    | with_reducible apply foldl_snd_ev
    | with_reducible rfl
    | with_reducible exact Nat.le_refl _
    | (intro _; with_reducible exact Nat.le_refl _)
    | (intro _; with_reducible exact rfl)
    | (intro m hm; change Memory.wf _ = true; exact hm)
    | intro _
    | split
    | dsimp only
    | with_reducible apply State.mk_ev

theorem State.failStore_ev (cl detail : Nat) {s : State} (hev : Evolves s₀ s) : Evolves s₀ (State.failStore s cl detail) := by
  unfold State.failStore
  repeat' first
    | with_reducible assumption
    | extract_lets
    | with_reducible apply State.clearStore_ev
    | with_reducible apply State.reportUnit_ev
    | with_reducible apply ite_ev
    | with_reducible apply ite_snd_ev
    | with_reducible apply ite_fst_ev
    | with_reducible apply ite_evTo
    | with_reducible apply evolvesTo_next
    | with_reducible exact Evolves.refl _
    | with_reducible apply foldl_ev
    | with_reducible apply foldl_fst_ev
    | with_reducible apply foldl_snd_ev
    | with_reducible rfl
    | with_reducible exact Nat.le_refl _
    | (intro _; with_reducible exact Nat.le_refl _)
    | (intro _; with_reducible exact rfl)
    | (intro m hm; change Memory.wf _ = true; exact hm)
    | intro _
    | split
    | dsimp only
    | with_reducible apply State.mk_ev

theorem execStoreRebuild_ev (cl t : Nat) (s : State) : EvolvesTo s (execStoreRebuild cl t s) := by
  unfold execStoreRebuild
  repeat' first
    | extract_lets | with_reducible apply State.at_ev | with_reducible apply State.dadd_ev | with_reducible apply State.dadd64_ev
    | with_reducible apply State.modCluster_ev | with_reducible apply State.reportUnit_ev | with_reducible apply ite_ev
    | with_reducible apply evolvesTo_next | with_reducible exact Evolves.refl _ | split

theorem State.loseLeaf_ev (cl : Nat) {s : State} (hev : Evolves s₀ s) : Evolves s₀ (State.loseLeaf s cl) := by
  unfold State.loseLeaf
  repeat' first
    | with_reducible assumption
    | extract_lets
    | with_reducible apply State.dropLinks_ev
    | with_reducible apply State.each_ev
    | with_reducible apply State.loseCore_ev
    | with_reducible apply ite_ev
    | with_reducible apply ite_snd_ev
    | with_reducible apply ite_fst_ev
    | with_reducible apply ite_evTo
    | with_reducible apply evolvesTo_next
    | with_reducible exact Evolves.refl _
    | with_reducible apply foldl_ev
    | with_reducible apply foldl_fst_ev
    | with_reducible apply foldl_snd_ev
    | with_reducible rfl
    | with_reducible exact Nat.le_refl _
    | (intro _; with_reducible exact Nat.le_refl _)
    | (intro _; with_reducible exact rfl)
    | (intro m hm; change Memory.wf _ = true; exact hm)
    | intro _
    | split
    | dsimp only
    | with_reducible apply State.mk_ev

theorem State.failLeaf_ev (cl : Nat) {s : State} (hev : Evolves s₀ s) : Evolves s₀ (State.failLeaf s cl) := by
  unfold State.failLeaf
  repeat' first
    | with_reducible assumption
    | extract_lets
    | with_reducible apply State.loseLeaf_ev
    | with_reducible apply State.reportUnit_ev
    | with_reducible apply ite_ev
    | with_reducible apply ite_snd_ev
    | with_reducible apply ite_fst_ev
    | with_reducible apply ite_evTo
    | with_reducible apply evolvesTo_next
    | with_reducible exact Evolves.refl _
    | with_reducible apply foldl_ev
    | with_reducible apply foldl_fst_ev
    | with_reducible apply foldl_snd_ev
    | with_reducible rfl
    | with_reducible exact Nat.le_refl _
    | (intro _; with_reducible exact Nat.le_refl _)
    | (intro _; with_reducible exact rfl)
    | (intro m hm; change Memory.wf _ = true; exact hm)
    | intro _
    | split
    | dsimp only
    | with_reducible apply State.mk_ev

theorem State.restartController_ev (cl : Nat) {s : State} (hev : Evolves s₀ s) : Evolves s₀ (State.restartController s cl) := by
  unfold State.restartController
  repeat' first
    | with_reducible assumption
    | extract_lets
    | with_reducible apply State.clearGuard_ev
    | with_reducible apply State.dadd_ev
    | with_reducible apply State.each_ev
    | with_reducible apply State.modCluster_ev
    | with_reducible apply ite_ev
    | with_reducible apply ite_snd_ev
    | with_reducible apply ite_fst_ev
    | with_reducible apply ite_evTo
    | with_reducible apply evolvesTo_next
    | with_reducible exact Evolves.refl _
    | with_reducible apply foldl_ev
    | with_reducible apply foldl_fst_ev
    | with_reducible apply foldl_snd_ev
    | with_reducible rfl
    | with_reducible exact Nat.le_refl _
    | (intro _; with_reducible exact Nat.le_refl _)
    | (intro _; with_reducible exact rfl)
    | (intro m hm; change Memory.wf _ = true; exact hm)
    | intro _
    | split
    | dsimp only
    | with_reducible apply State.mk_ev

theorem State.startController_ev (cl detail : Nat) {s : State} (hev : Evolves s₀ s) : Evolves s₀ (State.startController s cl detail) := by
  unfold State.startController
  repeat' first
    | with_reducible assumption
    | extract_lets
    | with_reducible apply State.reportUnit_ev
    | with_reducible apply State.restartController_ev
    | with_reducible apply ite_ev
    | with_reducible apply ite_snd_ev
    | with_reducible apply ite_fst_ev
    | with_reducible apply ite_evTo
    | with_reducible apply evolvesTo_next
    | with_reducible exact Evolves.refl _
    | with_reducible apply foldl_ev
    | with_reducible apply foldl_fst_ev
    | with_reducible apply foldl_snd_ev
    | with_reducible rfl
    | with_reducible exact Nat.le_refl _
    | (intro _; with_reducible exact Nat.le_refl _)
    | (intro _; with_reducible exact rfl)
    | (intro m hm; change Memory.wf _ = true; exact hm)
    | intro _
    | split
    | dsimp only
    | with_reducible apply State.mk_ev

theorem execControllerRestart_ev (cl detail t : Nat) (s : State) : EvolvesTo s (execControllerRestart cl detail t s) := by
  unfold execControllerRestart
  with_reducible repeat' first
    | extract_lets | apply State.at_ev | apply State.startController_ev | apply evolvesTo_next | exact Evolves.refl _

theorem execControllerRestartDone_ev (cl t : Nat) (s : State) : EvolvesTo s (execControllerRestartDone cl t s) := by
  unfold execControllerRestartDone
  with_reducible repeat' first | extract_lets | apply State.at_ev | apply State.modCluster_ev | apply evolvesTo_next | exact Evolves.refl _

theorem State.restartMgmt_ev  {s : State} (hev : Evolves s₀ s) : Evolves s₀ (State.restartMgmt s) := by
  unfold State.restartMgmt
  repeat' first
    | with_reducible assumption
    | extract_lets
    | with_reducible apply State.dadd_ev
    | with_reducible apply State.dset_ev
    | with_reducible apply State.modRel_ev
    | with_reducible apply State.modSec_ev
    | with_reducible apply ite_ev
    | with_reducible apply ite_snd_ev
    | with_reducible apply ite_fst_ev
    | with_reducible apply ite_evTo
    | with_reducible apply evolvesTo_next
    | with_reducible exact Evolves.refl _
    | with_reducible apply foldl_ev
    | with_reducible apply foldl_fst_ev
    | with_reducible apply foldl_snd_ev
    | with_reducible rfl
    | with_reducible exact Nat.le_refl _
    | (intro _; with_reducible exact Nat.le_refl _)
    | (intro _; with_reducible exact rfl)
    | (intro m hm; change Memory.wf _ = true; exact hm)
    | intro _
    | split
    | dsimp only
    | with_reducible apply State.mk_ev

theorem State.startMgmt_ev (detail : Nat) {s : State} (hev : Evolves s₀ s) : Evolves s₀ (State.startMgmt s detail) := by
  unfold State.startMgmt
  repeat' first
    | with_reducible assumption
    | extract_lets
    | with_reducible apply State.report_ev
    | with_reducible apply State.restartMgmt_ev
    | with_reducible apply ite_ev
    | with_reducible apply ite_snd_ev
    | with_reducible apply ite_fst_ev
    | with_reducible apply ite_evTo
    | with_reducible apply evolvesTo_next
    | with_reducible exact Evolves.refl _
    | with_reducible apply foldl_ev
    | with_reducible apply foldl_fst_ev
    | with_reducible apply foldl_snd_ev
    | with_reducible rfl
    | with_reducible exact Nat.le_refl _
    | (intro _; with_reducible exact Nat.le_refl _)
    | (intro _; with_reducible exact rfl)
    | (intro m hm; change Memory.wf _ = true; exact hm)
    | intro _
    | split
    | dsimp only
    | with_reducible apply State.mk_ev

theorem execMgmtRestart_ev (detail t : Nat) (s : State) : EvolvesTo s (execMgmtRestart detail t s) := by
  unfold execMgmtRestart
  with_reducible repeat' first | extract_lets | apply State.at_ev | apply State.startMgmt_ev | apply evolvesTo_next | exact Evolves.refl _

theorem State.flushObjects_ev {s : State} (hev : Evolves s₀ s) : Evolves s₀ (State.flushObjects s) := by
  unfold State.flushObjects
  with_reducible repeat' first | assumption | extract_lets | apply State.emergency_ev | apply State.modRel_ev | apply foldl_ev | intro _

theorem execMgmtRestartDone_ev (t : Nat) (s : State) : EvolvesTo s (execMgmtRestartDone t s) := by
  unfold execMgmtRestartDone
  with_reducible repeat' first
    | extract_lets | apply State.at_ev | apply State.each_ev | apply State.flushObjects_ev | apply State.modPart_ev | apply State.modRel_ev
    | apply State.report_ev | apply ite_ev | apply evolvesTo_next | exact Evolves.refl _ | apply foldl_ev | intro _

theorem State.doSwapOut_ev (c : Nat) {s : State} (hev : Evolves s₀ s) : Evolves s₀ (State.doSwapOut s c).2 := by
  unfold State.doSwapOut
  with_reducible repeat' first
    | assumption | extract_lets | apply State.dset_ev | apply State.modRel_ev | apply State.swapOutNow_ev | apply ite_ev | apply ite_snd_ev

theorem execSwapOut_ev (r : Requester) (c t : Nat) (s : State) : EvolvesTo s (execSwapOut r c t s) := by
  unfold execSwapOut
  with_reducible repeat' first
    | extract_lets | apply State.at_ev | apply State.doSwapOut_ev | apply State.typed_ev | apply evolvesTo_next | exact Evolves.refl _

theorem State.testEnds_ev (c slot : Nat) (pass : Bool) {s : State} (hev : Evolves s₀ s) : Evolves s₀ (State.testEnds s c slot pass) := by
  unfold State.testEnds
  repeat' first
    | with_reducible assumption
    | extract_lets
    | with_reducible apply State.dset_ev
    | with_reducible apply State.modFloor_ev
    | with_reducible apply State.modRel_ev
    | with_reducible apply State.reportUnit_ev
    | with_reducible apply State.retireSlot_ev
    | with_reducible apply State.testCore_ev
    | with_reducible apply ite_ev
    | with_reducible apply ite_snd_ev
    | with_reducible apply ite_fst_ev
    | with_reducible apply ite_evTo
    | with_reducible apply evolvesTo_next
    | with_reducible exact Evolves.refl _
    | with_reducible apply foldl_ev
    | with_reducible apply foldl_fst_ev
    | with_reducible apply foldl_snd_ev
    | with_reducible rfl
    | with_reducible exact Nat.le_refl _
    | (intro _; with_reducible exact Nat.le_refl _)
    | (intro _; with_reducible exact rfl)
    | (intro m hm; change Memory.wf _ = true; exact hm)
    | intro _
    | split
    | dsimp only
    | with_reducible apply State.mk_ev

theorem execSwapOutTestDone_ev (c : Nat) (pass : Bool) (t : Nat) (s : State) : EvolvesTo s (execSwapOutTestDone c pass t s) := by
  unfold execSwapOutTestDone
  repeat' first
    | with_reducible assumption
    | extract_lets
    | with_reducible apply State.at_ev
    | with_reducible apply State.testCore_ev
    | with_reducible apply State.testEnds_ev
    | with_reducible apply ite_ev
    | with_reducible apply ite_snd_ev
    | with_reducible apply ite_fst_ev
    | with_reducible apply ite_evTo
    | with_reducible apply evolvesTo_next
    | with_reducible exact Evolves.refl _
    | with_reducible apply foldl_ev
    | with_reducible apply foldl_fst_ev
    | with_reducible apply foldl_snd_ev
    | with_reducible rfl
    | with_reducible exact Nat.le_refl _
    | (intro _; with_reducible exact Nat.le_refl _)
    | (intro _; with_reducible exact rfl)
    | (intro m hm; change Memory.wf _ = true; exact hm)
    | intro _
    | split
    | dsimp only
    | with_reducible apply State.mk_ev

theorem State.doFaultAck_ev (v : Nat) {s : State} (hev : Evolves s₀ s) : Evolves s₀ (State.doFaultAck s v).2 := by
  unfold State.doFaultAck
  with_reducible repeat' first | assumption | extract_lets | apply State.modRel_ev | apply State.updateFaultN_ev | apply ite_snd_ev

theorem execFaultAck_ev (r : Requester) (v t : Nat) (s : State) : EvolvesTo s (execFaultAck r v t s) := by
  unfold execFaultAck
  with_reducible repeat' first
    | extract_lets | apply State.at_ev | apply State.doFaultAck_ev | apply State.typed_ev | apply evolvesTo_next | exact Evolves.refl _

end Sys2Proof.Machine
end

