-- ==== Sys2Proof/Laws/EvolveSpaces.lean ====
section
/-!
SUPPORT. What no command does: the operations of Spaces.lean (see Evolve.lean).
-/

namespace Sys2Proof.Machine

variable {s₀ : State}

theorem State.freeBytes_ev (n : Nat) {s : State} (hev : Evolves s₀ s) : Evolves s₀ (State.freeBytes s n).2 := by
  unfold State.freeBytes
  with_reducible repeat' first | assumption | extract_lets | apply State.modClk_ev | (intro _; exact Nat.le_refl _)

theorem State.spaceRead_ev (sp a n : Nat) {s : State} (hev : Evolves s₀ s) : Evolves s₀ (State.spaceRead s sp a n).2 := by
  unfold State.spaceRead
  with_reducible repeat' first | assumption | extract_lets | apply State.freeBytes_ev | apply ite_snd_ev

theorem State.spaceWrite_ev (ep sp a : Nat) (bs : Bytes) {s : State} (hev : Evolves s₀ s) : Evolves s₀ (State.spaceWrite s ep sp a bs) := by
  unfold State.spaceWrite
  refine ite_ev (State.lpWrite_ev _ _ hev) (ite_ev (State.modMem_ev (fun m hm => ?_) hev) (ite_ev (State.mramPut_ev _ _ hev) (State.out_ev _ hev)))
  rw [Memory.wf_iff] at hm ⊢
  exact ⟨hm.1, mwf_writeRange _ _ _ _ hm.2.1, hm.2.2⟩

end Sys2Proof.Machine
end

