-- ==== Sys2Proof/Laws/EvolveQueues.lean ====
section
/-!
SUPPORT. What no command does: the operations of Queues.lean (see Evolve.lean).
-/

namespace Sys2Proof.Machine

variable {s₀ : State}

theorem State.notify_ev (q : Nat) {s : State} (hev : Evolves s₀ s) : Evolves s₀ (State.notify s q) := by
  exact State.each_ev _ (fun _ _ h => State.each_ev _ (fun _ _ h => ite_ev (State.raiseCause_ev _ _ h) h) h) hev

theorem State.place_ev (q : Nat) (rec : Bytes) {s : State} (hev : Evolves s₀ s) : Evolves s₀ (State.place s q rec).2 := by
  unfold State.place
  repeat' first
    | with_reducible assumption
    | extract_lets
    | with_reducible apply State.modQueue_ev
    | with_reducible apply State.notify_ev
    | with_reducible apply State.qadd64_ev
    | with_reducible apply State.spaceWrite_ev
    | with_reducible apply ite_ev
    | with_reducible apply ite_snd_ev
    | with_reducible apply ite_fst_ev
    | with_reducible apply ite_evTo
    | with_reducible apply evolvesTo_next
    | with_reducible exact Evolves.refl _
    | with_reducible apply foldl_ev
    | with_reducible apply foldl_fst_ev
    | with_reducible apply foldl_snd_ev
    | with_reducible rfl
    | with_reducible exact Nat.le_refl _
    | (intro _; with_reducible exact Nat.le_refl _)
    | (intro _; with_reducible exact rfl)
    | (intro m hm; change Memory.wf _ = true; exact hm)
    | intro _
    | split
    | dsimp only
    | with_reducible apply State.mk_ev

theorem State.loseCompletion_ev (i q : Nat) {s : State} (hev : Evolves s₀ s) : Evolves s₀ (State.loseCompletion s i q) := by
  unfold State.loseCompletion
  repeat' first
    | with_reducible assumption
    | extract_lets
    | with_reducible apply State.modQueue_ev
    | with_reducible apply State.qadd_ev
    | with_reducible apply ite_ev
    | with_reducible apply ite_snd_ev
    | with_reducible apply ite_fst_ev
    | with_reducible apply ite_evTo
    | with_reducible apply evolvesTo_next
    | with_reducible exact Evolves.refl _
    | with_reducible apply foldl_ev
    | with_reducible apply foldl_fst_ev
    | with_reducible apply foldl_snd_ev
    | with_reducible rfl
    | with_reducible exact Nat.le_refl _
    | (intro _; with_reducible exact Nat.le_refl _)
    | (intro _; with_reducible exact rfl)
    | (intro m hm; change Memory.wf _ = true; exact hm)
    | intro _
    | split
    | dsimp only
    | with_reducible apply State.mk_ev

theorem State.complete_ev (i q : Nat) (rec : Bytes) {s : State} (hev : Evolves s₀ s) : Evolves s₀ (State.complete s i q rec) := by
  unfold State.complete
  repeat' first
    | with_reducible assumption | extract_lets | with_reducible apply State.loseCompletion_ev | with_reducible apply State.modSlice_ev
    | with_reducible apply State.place_ev | with_reducible apply ite_ev | with_reducible apply ite_snd_ev | split

theorem State.giveBack_ev (h : OpHead) (status value : Nat) {s : State} (hev : Evolves s₀ s) : Evolves s₀ (State.giveBack s h status value) := by
  unfold State.giveBack
  repeat' first
    | with_reducible assumption | extract_lets | with_reducible apply State.modFunc_ev | with_reducible apply State.out_ev
    | with_reducible apply ite_ev | split

theorem State.finish_ev (h : OpHead) (i op obj status value : Nat) (descs : Bytes) {s : State} (hev : Evolves s₀ s) : Evolves s₀ (State.finish s h i op obj status value descs) := by
  unfold State.finish
  with_reducible repeat' first | assumption | extract_lets | apply State.complete_ev | apply State.giveBack_ev | apply ite_ev

theorem State.wait_ev (i op : Nat) (h : OpHead) (arg arg2 : Nat) (msg : Bytes) {s : State} (hev : Evolves s₀ s) : Evolves s₀ (State.wait s i op h arg arg2 msg) := by
  unfold State.wait
  repeat' first
    | with_reducible assumption
    | extract_lets
    | with_reducible apply State.finish_ev
    | with_reducible apply State.modSlice_ev
    | with_reducible apply State.qadd_ev
    | with_reducible apply State.qmax_ev
    | with_reducible apply ite_ev
    | with_reducible apply ite_snd_ev
    | with_reducible apply ite_fst_ev
    | with_reducible apply ite_evTo
    | with_reducible apply evolvesTo_next
    | with_reducible exact Evolves.refl _
    | with_reducible apply foldl_ev
    | with_reducible apply foldl_fst_ev
    | with_reducible apply foldl_snd_ev
    | with_reducible rfl
    | with_reducible exact Nat.le_refl _
    | (intro _; with_reducible exact Nat.le_refl _)
    | (intro _; with_reducible exact rfl)
    | (intro m hm; change Memory.wf _ = true; exact hm)
    | intro _
    | split
    | dsimp only
    | with_reducible apply State.mk_ev

theorem State.land_ev (ep addr : Nat) (b : Bytes) {s : State} (hev : Evolves s₀ s) : Evolves s₀ (State.land s ep addr b) := by
  unfold State.land
  with_reducible repeat' first | assumption | apply State.spaceWrite_ev

theorem State.popHead_ev (q len : Nat) {s : State} (hev : Evolves s₀ s) : Evolves s₀ (State.popHead s q len) := by
  unfold State.popHead
  with_reducible repeat' first | assumption | extract_lets | apply State.modQueue_ev

theorem State.receiveHead_ev (h : OpHead) (op q addr len : Nat) {s u : State} (hev : Evolves s₀ s)
    (hu : s.receiveHead h op q addr len = some u) : Evolves s₀ u := by
  unfold State.receiveHead at hu
  extract_lets r i hd n a b c at hu
  have ha : Evolves s₀ a := State.reportUnit_ev _ _ _ _ _ _ (State.qadd_ev _ _ _ (State.modQueue_ev _ _ hev))
  have hb : Evolves s₀ b := State.reportUnit_ev _ _ _ _ _ _ (State.qadd_ev _ _ _ (State.popHead_ev _ _ hev))
  split at hu
  · cases hu
  split at hu
  · cases hu
    exact State.finish_ev _ _ _ _ _ _ _ ha
  split at hu
  · cases hu
    exact State.finish_ev _ _ _ _ _ _ _ hb
  split at hu
  · cases hu
    exact State.finish_ev _ _ _ _ _ _ _ hev
  split at hu
  · cases hu
    exact State.finish_ev _ _ _ _ _ _ _ hev
  · split at hu
    · cases hu
      exact State.finish_ev _ _ _ _ _ _ _ (State.sramError_ev _ hev)
    · cases hu
      exact State.finish_ev _ _ _ _ _ _ _ (State.popHead_ev _ _ (State.land_ev _ _ _ hev))


theorem State.receiveFrom_ev (h : OpHead) (addr len : Nat) {s u : State} (hev : Evolves s₀ s)
    (hu : s.receiveFrom h addr len = some u) : Evolves s₀ u := by
  unfold State.receiveFrom at hu
  extract_lets i g at hu
  split at hu
  · cases hu
  · simp only [Option.map_eq_some_iff] at hu
    obtain ⟨v, hv, rfl⟩ := hu
    have k := State.receiveHead_ev _ _ _ _ _ hev hv
    exact ite_ev k (State.modSlice_ev _ _ k)


theorem State.readRound_ev (h : OpHead) (addr len : Nat) {s : State} (hev : Evolves s₀ s) : Evolves s₀ (State.readRound s h addr len) := by
  unfold State.readRound
  repeat' first
    | with_reducible assumption
    | extract_lets
    | with_reducible apply State.finish_ev
    | with_reducible apply State.land_ev
    | with_reducible apply State.modQueue_ev
    | with_reducible apply State.spaceRead_ev
    | with_reducible apply State.spaceWrite_ev
    | with_reducible apply State.sramError_ev
    | with_reducible apply ite_ev
    | with_reducible apply ite_snd_ev
    | with_reducible apply ite_fst_ev
    | with_reducible apply ite_evTo
    | with_reducible apply evolvesTo_next
    | with_reducible exact Evolves.refl _
    | with_reducible apply foldl_ev
    | with_reducible apply foldl_fst_ev
    | with_reducible apply foldl_snd_ev
    | with_reducible rfl
    | with_reducible exact Nat.le_refl _
    | (intro _; with_reducible exact Nat.le_refl _)
    | (intro _; with_reducible exact rfl)
    | (intro m hm; change Memory.wf _ = true; exact hm)
    | intro _
    | split
    | dsimp only
    | with_reducible apply State.mk_ev

theorem State.proceed_ev (i : Nat) (before : List Waiter) (w : Waiter) {s u : State} (hev : Evolves s₀ s)
    (hu : s.proceed i before w = some u) : Evolves s₀ u := by
  unfold State.proceed at hu
  extract_lets h o ahead r p y at hu
  have hp : Evolves s₀ p.2 := State.place_ev _ _ hev
  repeat' (split at hu)
  all_goals first
    | (cases hu; done)
    | (exact State.receiveHead_ev _ _ _ _ _ hev hu)
    | (exact State.receiveFrom_ev _ _ _ hev hu)
    | (cases hu; with_reducible exact State.finish_ev _ _ _ _ _ _ _ hev)
    | (cases hu; with_reducible exact State.finish_ev _ _ _ _ _ _ _ hp)
    | (cases hu; with_reducible exact State.finish_ev _ _ _ _ _ _ _ (State.modSync_ev _ _ hev))
    | (cases hu; with_reducible exact State.readRound_ev _ _ _ hev)


theorem State.proceedAny_ev (i : Nat) (l before : List Waiter) {s u : State} (hev : Evolves s₀ s)
    (hu : s.proceedAny i before l = some u) : Evolves s₀ u := by
  induction l generalizing before with
  | nil => cases hu
  | cons w r ih =>
    simp only [State.proceedAny] at hu
    split at hu
    · rename_i v hv
      cases hu
      exact State.proceed_ev _ _ _ (State.modSlice_ev _ _ hev) hv
    · exact ih _ hu


theorem State.settleOnce_ev {s u : State} (hev : Evolves s₀ s) (hu : s.settleOnce = some u) : Evolves s₀ u := by
  obtain ⟨e, _, he⟩ := List.exists_of_findSome?_eq_some hu
  exact State.proceedAny_ev _ _ _ hev he


theorem State.settleN_ev (n : Nat) {s : State} (hev : Evolves s₀ s) : Evolves s₀ (State.settleN n s) := by
  induction n generalizing s with
  | zero => exact hev
  | succ n ih =>
    simp only [State.settleN]
    split
    · rename_i u hu
      exact ih (State.settleOnce_ev hev hu)
    · exact hev


theorem State.settle_ev  {s : State} (hev : Evolves s₀ s) : Evolves s₀ (State.settle s) := by
  exact State.settleN_ev _ hev

theorem State.doCreateQ_ev (h : OpHead) (b : Bytes) {s : State} (hev : Evolves s₀ s) : Evolves s₀ (State.doCreateQ s h b) := by
  unfold State.doCreateQ
  with_reducible repeat' first
    | assumption | extract_lets | apply State.finish_ev | apply State.modQueue_ev | apply State.spaceWrite_ev | apply ite_ev

theorem execQueueCreate_ev (h : OpHead) (rec : Bytes) (s : State) : EvolvesTo s (execQueueCreate h rec s) := by
  unfold execQueueCreate
  with_reducible repeat' first
    | extract_lets | apply State.at_ev | apply State.doCreateQ_ev | apply State.settle_ev | apply evolvesTo_next | exact Evolves.refl _

theorem State.returnMsg_ev (q : Nat) (e : Nat × Nat) {s : State} (hev : Evolves s₀ s) : Evolves s₀ (State.returnMsg s q e) := by
  unfold State.returnMsg
  repeat' first
    | with_reducible assumption
    | extract_lets
    | with_reducible apply State.complete_ev
    | with_reducible apply State.qadd64_ev
    | with_reducible apply ite_ev
    | with_reducible apply ite_snd_ev
    | with_reducible apply ite_fst_ev
    | with_reducible apply ite_evTo
    | with_reducible apply evolvesTo_next
    | with_reducible exact Evolves.refl _
    | with_reducible apply foldl_ev
    | with_reducible apply foldl_fst_ev
    | with_reducible apply foldl_snd_ev
    | with_reducible rfl
    | with_reducible exact Nat.le_refl _
    | (intro _; with_reducible exact Nat.le_refl _)
    | (intro _; with_reducible exact rfl)
    | (intro m hm; change Memory.wf _ = true; exact hm)
    | intro _
    | split
    | dsimp only
    | with_reducible apply State.mk_ev

theorem State.returnAll_ev (q : Nat) {s : State} (hev : Evolves s₀ s) : Evolves s₀ (State.returnAll s q) := by
  unfold State.returnAll
  with_reducible repeat' first | assumption | extract_lets | apply State.modQueue_ev | apply State.returnMsg_ev | apply foldl_ev | intro _

theorem State.unbind_ev (q : Nat) {s : State} (hev : Evolves s₀ s) : Evolves s₀ (State.unbind s q) := by
  exact State.each_ev _ (fun _ _ h => State.each_ev _ (fun _ _ h => ite_ev (State.modFunc_ev _ _ h) h) h) hev

theorem State.dropQueue_ev (q : Nat) {s : State} (hev : Evolves s₀ s) : Evolves s₀ (State.dropQueue s q) := by
  unfold State.dropQueue
  with_reducible repeat' first | assumption | extract_lets | apply State.modQueue_ev | apply State.returnAll_ev | apply State.unbind_ev

theorem State.doDestroyQ_ev (h : OpHead) {s : State} (hev : Evolves s₀ s) : Evolves s₀ (State.doDestroyQ s h) := by
  unfold State.doDestroyQ
  with_reducible repeat' first | assumption | extract_lets | apply State.dropQueue_ev | apply State.finish_ev | apply ite_ev

theorem execQueueDestroy_ev (h : OpHead) (s : State) : EvolvesTo s (execQueueDestroy h s) := by
  unfold execQueueDestroy
  with_reducible repeat' first
    | extract_lets | apply State.at_ev | apply State.doDestroyQ_ev | apply State.settle_ev | apply evolvesTo_next | exact Evolves.refl _

theorem State.doAttach_ev (h : OpHead) (reader : Nat) (flush : Bool) {s : State} (hev : Evolves s₀ s) : Evolves s₀ (State.doAttach s h reader flush) := by
  unfold State.doAttach
  with_reducible repeat' first
    | assumption | extract_lets | apply State.finish_ev | apply State.modQueue_ev | apply State.returnAll_ev | apply ite_ev

theorem execAttach_ev (h : OpHead) (reader : Nat) (flush : Bool) (s : State) : EvolvesTo s (execAttach h reader flush s) := by
  unfold execAttach
  with_reducible repeat' first
    | extract_lets | apply State.at_ev | apply State.doAttach_ev | apply State.settle_ev | apply evolvesTo_next | exact Evolves.refl _

theorem State.orphan_ev (q : Nat) {s : State} (hev : Evolves s₀ s) : Evolves s₀ (State.orphan s q) := by
  unfold State.orphan
  with_reducible repeat' first | assumption | extract_lets | apply State.modQueue_ev | apply State.unbind_ev

theorem State.doDetach_ev (h : OpHead) {s : State} (hev : Evolves s₀ s) : Evolves s₀ (State.doDetach s h) := by
  unfold State.doDetach
  with_reducible repeat' first
    | assumption | extract_lets | apply State.finish_ev | apply State.orphan_ev | apply State.settle_ev | apply ite_ev

theorem execDetach_ev (h : OpHead) (s : State) : EvolvesTo s (execDetach h s) := by
  unfold execDetach
  with_reducible repeat' first
    | extract_lets | apply State.at_ev | apply State.doDetach_ev | apply State.settle_ev | apply evolvesTo_next | exact Evolves.refl _

theorem State.doSend_ev (h : OpHead) (msg : Bytes) {s : State} (hev : Evolves s₀ s) : Evolves s₀ (State.doSend s h msg) := by
  unfold State.doSend
  repeat' first
    | with_reducible assumption
    | extract_lets
    | with_reducible apply State.finish_ev
    | with_reducible apply State.place_ev
    | with_reducible apply State.qadd64_ev
    | with_reducible apply State.wait_ev
    | with_reducible apply ite_ev
    | with_reducible apply ite_snd_ev
    | with_reducible apply ite_fst_ev
    | with_reducible apply ite_evTo
    | with_reducible apply evolvesTo_next
    | with_reducible exact Evolves.refl _
    | with_reducible apply foldl_ev
    | with_reducible apply foldl_fst_ev
    | with_reducible apply foldl_snd_ev
    | with_reducible rfl
    | with_reducible exact Nat.le_refl _
    | (intro _; with_reducible exact Nat.le_refl _)
    | (intro _; with_reducible exact rfl)
    | (intro m hm; change Memory.wf _ = true; exact hm)
    | intro _
    | split
    | dsimp only
    | with_reducible apply State.mk_ev

theorem execSend_ev (h : OpHead) (msg : Bytes) (s : State) : EvolvesTo s (execSend h msg s) := by
  unfold execSend
  with_reducible repeat' first
    | extract_lets | apply State.at_ev | apply State.doSend_ev | apply State.settle_ev | apply evolvesTo_next | exact Evolves.refl _

theorem State.doReceive_ev (h : OpHead) (addr len : Nat) {s : State} (hev : Evolves s₀ s) : Evolves s₀ (State.doReceive s h addr len) := by
  unfold State.doReceive
  extract_lets q i r
  refine ite_ev (State.finish_ev _ _ _ _ _ _ _ hev) (ite_ev (State.finish_ev _ _ _ _ _ _ _ hev) ?_)
  extract_lets c
  refine ite_ev (State.finish_ev _ _ _ _ _ _ _ hev) ?_
  split
  · rename_i u hu
    exact State.receiveHead_ev _ _ _ _ _ hev hu
  · exact ite_ev (State.finish_ev _ _ _ _ _ _ _ hev) (State.wait_ev _ _ _ _ _ _ hev)

theorem execReceive_ev (h : OpHead) (addr len : Nat) (s : State) : EvolvesTo s (execReceive h addr len s) := by
  unfold execReceive
  with_reducible repeat' first
    | extract_lets | apply State.at_ev | apply State.doReceive_ev | apply State.settle_ev | apply evolvesTo_next | exact Evolves.refl _

theorem State.doReceiveGroup_ev (h : OpHead) (addr len : Nat) {s : State} (hev : Evolves s₀ s) : Evolves s₀ (State.doReceiveGroup s h addr len) := by
  unfold State.doReceiveGroup
  extract_lets i g
  refine ite_ev (State.finish_ev _ _ _ _ _ _ _ hev) (ite_ev (State.finish_ev _ _ _ _ _ _ _ hev) ?_)
  extract_lets c
  refine ite_ev (State.finish_ev _ _ _ _ _ _ _ hev) ?_
  split
  · rename_i u hu
    exact State.receiveFrom_ev _ _ _ hev hu
  · exact ite_ev (State.finish_ev _ _ _ _ _ _ _ hev) (State.wait_ev _ _ _ _ _ _ hev)

theorem execReceiveGroup_ev (h : OpHead) (addr len : Nat) (s : State) : EvolvesTo s (execReceiveGroup h addr len s) := by
  unfold execReceiveGroup
  with_reducible repeat' first
    | extract_lets | apply State.at_ev | apply State.doReceiveGroup_ev | apply State.settle_ev | apply evolvesTo_next | exact Evolves.refl _

theorem State.doGroupSet_ev (h : OpHead) (reader policy : Nat) {s : State} (hev : Evolves s₀ s) : Evolves s₀ (State.doGroupSet s h reader policy) := by
  unfold State.doGroupSet
  with_reducible repeat' first | assumption | extract_lets | apply State.finish_ev | apply State.modSlice_ev | apply ite_ev

theorem execGroupSet_ev (h : OpHead) (reader policy : Nat) (s : State) : EvolvesTo s (execGroupSet h reader policy s) := by
  unfold execGroupSet
  with_reducible repeat' first
    | extract_lets | apply State.at_ev | apply State.doGroupSet_ev | apply State.settle_ev | apply evolvesTo_next | exact Evolves.refl _

theorem State.doCadd_ev (h : OpHead) (d : Nat) {s : State} (hev : Evolves s₀ s) : Evolves s₀ (State.doCadd s h d).2 := by
  unfold State.doCadd
  with_reducible repeat' first | assumption | extract_lets | apply State.finish_ev | apply State.modSync_ev | apply ite_snd_ev

theorem execCadd_ev (h : OpHead) (delta : Nat) (s : State) : EvolvesTo s (execCadd h delta s) := by
  unfold execCadd
  with_reducible repeat' first
    | extract_lets | apply State.at_ev | apply State.doCadd_ev | apply State.settle_ev | apply evolvesTo_next | exact Evolves.refl _

theorem State.doPost_ev (h : OpHead) (n : Nat) {s : State} (hev : Evolves s₀ s) : Evolves s₀ (State.doPost s h n).2 := by
  unfold State.doPost
  with_reducible repeat' first | assumption | extract_lets | apply State.finish_ev | apply State.modSync_ev | apply ite_snd_ev

theorem execPost_ev (h : OpHead) (n : Nat) (s : State) : EvolvesTo s (execPost h n s) := by
  unfold execPost
  with_reducible repeat' first
    | extract_lets | apply State.at_ev | apply State.doPost_ev | apply State.settle_ev | apply evolvesTo_next | exact Evolves.refl _

theorem State.doArrive_ev (h : OpHead) {s : State} (hev : Evolves s₀ s) : Evolves s₀ (State.doArrive s h).2 := by
  unfold State.doArrive
  with_reducible repeat' first
    | assumption | extract_lets | apply State.finish_ev | apply State.modSync_ev | apply State.settle_ev | apply State.wait_ev
    | apply ite_snd_ev

theorem execArrive_ev (h : OpHead) (s : State) : EvolvesTo s (execArrive h s) := by
  unfold execArrive
  with_reducible repeat' first
    | extract_lets | apply State.at_ev | apply State.doArrive_ev | apply State.settle_ev | apply evolvesTo_next | exact Evolves.refl _

theorem State.doSyncCreate_ev (h : OpHead) (kind init : Nat) {s : State} (hev : Evolves s₀ s) : Evolves s₀ (State.doSyncCreate s h kind init) := by
  unfold State.doSyncCreate
  with_reducible repeat' first | assumption | extract_lets | apply State.finish_ev | apply State.modSync_ev | apply ite_ev

theorem execSyncCreate_ev (h : OpHead) (kind init : Nat) (s : State) : EvolvesTo s (execSyncCreate h kind init s) := by
  unfold execSyncCreate
  with_reducible repeat' first
    | extract_lets | apply State.at_ev | apply State.doSyncCreate_ev | apply State.settle_ev | apply evolvesTo_next | exact Evolves.refl _

theorem State.doSyncDestroy_ev (h : OpHead) {s : State} (hev : Evolves s₀ s) : Evolves s₀ (State.doSyncDestroy s h) := by
  unfold State.doSyncDestroy
  with_reducible repeat' first
    | assumption | extract_lets | apply State.finish_ev | apply State.modSync_ev | apply State.settle_ev | apply ite_ev

theorem execSyncDestroy_ev (h : OpHead) (s : State) : EvolvesTo s (execSyncDestroy h s) := by
  unfold execSyncDestroy
  with_reducible repeat' first
    | extract_lets | apply State.at_ev | apply State.doSyncDestroy_ev | apply State.settle_ev | apply evolvesTo_next | exact Evolves.refl _

theorem State.doCread_ev (h : OpHead) {s : State} (hev : Evolves s₀ s) : Evolves s₀ (State.doCread s h) := by
  unfold State.doCread
  with_reducible repeat' first | assumption | extract_lets | apply State.finish_ev

theorem execCread_ev (h : OpHead) (s : State) : EvolvesTo s (execCread h s) := by
  unfold execCread
  with_reducible repeat' first
    | extract_lets | apply State.at_ev | apply State.doCread_ev | apply State.settle_ev | apply evolvesTo_next | exact Evolves.refl _

theorem State.doCset_ev (h : OpHead) (v : Nat) {s : State} (hev : Evolves s₀ s) : Evolves s₀ (State.doCset s h v) := by
  unfold State.doCset
  with_reducible repeat' first | assumption | extract_lets | apply State.finish_ev | apply State.modSync_ev | apply ite_ev

theorem execCset_ev (h : OpHead) (v : Nat) (s : State) : EvolvesTo s (execCset h v s) := by
  unfold execCset
  with_reducible repeat' first
    | extract_lets | apply State.at_ev | apply State.doCset_ev | apply State.settle_ev | apply evolvesTo_next | exact Evolves.refl _

theorem State.doCwait_ev (h : OpHead) (target : Nat) {s : State} (hev : Evolves s₀ s) : Evolves s₀ (State.doCwait s h target) := by
  unfold State.doCwait
  with_reducible repeat' first
    | assumption | extract_lets | apply State.finish_ev | apply State.takeFree_ev | apply State.wait_ev | apply ite_ev

theorem execCwaitGe_ev (h : OpHead) (target : Nat) (s : State) : EvolvesTo s (execCwaitGe h target s) := by
  unfold execCwaitGe
  with_reducible repeat' first
    | extract_lets | apply State.at_ev | apply State.doCwait_ev | apply State.settle_ev | apply evolvesTo_next | exact Evolves.refl _

theorem State.doTake_ev (h : OpHead) (n : Nat) {s : State} (hev : Evolves s₀ s) : Evolves s₀ (State.doTake s h n) := by
  unfold State.doTake
  with_reducible repeat' first
    | assumption | extract_lets | apply State.finish_ev | apply State.modSync_ev | apply State.wait_ev | apply ite_ev

theorem execTake_ev (h : OpHead) (n : Nat) (s : State) : EvolvesTo s (execTake h n s) := by
  unfold execTake
  with_reducible repeat' first
    | extract_lets | apply State.at_ev | apply State.doTake_ev | apply State.settle_ev | apply evolvesTo_next | exact Evolves.refl _

theorem State.breakSync_ev (j : Nat) {s : State} (hev : Evolves s₀ s) : Evolves s₀ (State.breakSync s j) := by
  unfold State.breakSync
  repeat' first
    | with_reducible assumption
    | extract_lets
    | with_reducible apply State.modSync_ev
    | with_reducible apply State.qadd_ev
    | with_reducible apply State.settle_ev
    | with_reducible apply ite_ev
    | with_reducible apply ite_snd_ev
    | with_reducible apply ite_fst_ev
    | with_reducible apply ite_evTo
    | with_reducible apply evolvesTo_next
    | with_reducible exact Evolves.refl _
    | with_reducible apply foldl_ev
    | with_reducible apply foldl_fst_ev
    | with_reducible apply foldl_snd_ev
    | with_reducible rfl
    | with_reducible exact Nat.le_refl _
    | (intro _; with_reducible exact Nat.le_refl _)
    | (intro _; with_reducible exact rfl)
    | (intro m hm; change Memory.wf _ = true; exact hm)
    | intro _
    | split
    | dsimp only
    | with_reducible apply State.mk_ev

theorem State.doBreak_ev (h : OpHead) {s : State} (hev : Evolves s₀ s) : Evolves s₀ (State.doBreak s h) := by
  unfold State.doBreak
  with_reducible repeat' first | assumption | extract_lets | apply State.breakSync_ev | apply State.finish_ev | apply ite_ev

theorem execBreakBarrier_ev (h : OpHead) (s : State) : EvolvesTo s (execBreakBarrier h s) := by
  unfold execBreakBarrier
  with_reducible repeat' first
    | extract_lets | apply State.at_ev | apply State.doBreak_ev | apply State.settle_ev | apply evolvesTo_next | exact Evolves.refl _

theorem State.doBarrierReset_ev (h : OpHead) {s : State} (hev : Evolves s₀ s) : Evolves s₀ (State.doBarrierReset s h) := by
  unfold State.doBarrierReset
  with_reducible repeat' first | assumption | extract_lets | apply State.finish_ev | apply State.modSync_ev | apply ite_ev

theorem execBarrierReset_ev (h : OpHead) (s : State) : EvolvesTo s (execBarrierReset h s) := by
  unfold execBarrierReset
  with_reducible repeat' first
    | extract_lets | apply State.at_ev | apply State.doBarrierReset_ev | apply State.settle_ev | apply evolvesTo_next | exact Evolves.refl _

theorem State.combine_ev (i : Nat) (r : Queue) (e : Nat × BitVec 32) {s : State} (hev : Evolves s₀ s) : Evolves s₀ (State.combine s i r e) := by
  unfold State.combine
  repeat' first
    | with_reducible assumption
    | extract_lets
    | with_reducible apply State.qadd_ev
    | with_reducible apply State.spaceRead_ev
    | with_reducible apply State.spaceWrite_ev
    | with_reducible apply ite_ev
    | with_reducible apply ite_snd_ev
    | with_reducible apply ite_fst_ev
    | with_reducible apply ite_evTo
    | with_reducible apply evolvesTo_next
    | with_reducible exact Evolves.refl _
    | with_reducible apply foldl_ev
    | with_reducible apply foldl_fst_ev
    | with_reducible apply foldl_snd_ev
    | with_reducible rfl
    | with_reducible exact Nat.le_refl _
    | (intro _; with_reducible exact Nat.le_refl _)
    | (intro _; with_reducible exact rfl)
    | (intro m hm; change Memory.wf _ = true; exact hm)
    | intro _
    | split
    | dsimp only
    | with_reducible apply State.mk_ev

theorem State.signalLink_ev (q : Nat) {s : State} (hev : Evolves s₀ s) : Evolves s₀ (State.signalLink s q) := by
  unfold State.signalLink
  repeat' first
    | with_reducible assumption
    | extract_lets
    | with_reducible apply State.doArrive_ev
    | with_reducible apply State.doCadd_ev
    | with_reducible apply State.doPost_ev
    | with_reducible apply State.qadd_ev
    | with_reducible apply ite_ev
    | with_reducible apply ite_snd_ev
    | with_reducible apply ite_fst_ev
    | with_reducible apply ite_evTo
    | with_reducible apply evolvesTo_next
    | with_reducible exact Evolves.refl _
    | with_reducible apply foldl_ev
    | with_reducible apply foldl_fst_ev
    | with_reducible apply foldl_snd_ev
    | with_reducible rfl
    | with_reducible exact Nat.le_refl _
    | (intro _; with_reducible exact Nat.le_refl _)
    | (intro _; with_reducible exact rfl)
    | (intro m hm; change Memory.wf _ = true; exact hm)
    | intro _
    | split
    | dsimp only
    | with_reducible apply State.mk_ev

theorem State.doAdd_ev (h : OpHead) (done : Bool) (l : List (Nat × BitVec 32)) {s : State} (hev : Evolves s₀ s) : Evolves s₀ (State.doAdd s h done l) := by
  unfold State.doAdd
  repeat' first
    | with_reducible assumption
    | extract_lets
    | with_reducible apply State.combine_ev
    | with_reducible apply State.finish_ev
    | with_reducible apply State.modQueue_ev
    | with_reducible apply State.qadd_ev
    | with_reducible apply State.qadd64_ev
    | with_reducible apply State.signalLink_ev
    | with_reducible apply State.sramError_ev
    | with_reducible apply ite_ev
    | with_reducible apply ite_snd_ev
    | with_reducible apply ite_fst_ev
    | with_reducible apply ite_evTo
    | with_reducible apply evolvesTo_next
    | with_reducible exact Evolves.refl _
    | with_reducible apply foldl_ev
    | with_reducible apply foldl_fst_ev
    | with_reducible apply foldl_snd_ev
    | with_reducible rfl
    | with_reducible exact Nat.le_refl _
    | (intro _; with_reducible exact Nat.le_refl _)
    | (intro _; with_reducible exact rfl)
    | (intro m hm; change Memory.wf _ = true; exact hm)
    | intro _
    | split
    | dsimp only
    | with_reducible apply State.mk_ev

theorem execAddOp_ev (h : OpHead) (done : Bool) (contribs : List (Nat × BitVec 32)) (s : State) : EvolvesTo s (execAddOp h done contribs s) := by
  unfold execAddOp
  with_reducible repeat' first
    | extract_lets | apply State.at_ev | apply State.doAdd_ev | apply State.settle_ev | apply evolvesTo_next | exact Evolves.refl _

theorem State.doReadClear_ev (h : OpHead) (addr len : Nat) {s : State} (hev : Evolves s₀ s) : Evolves s₀ (State.doReadClear s h addr len) := by
  unfold State.doReadClear
  with_reducible repeat' first
    | assumption | extract_lets | apply State.finish_ev | apply State.readRound_ev | apply State.wait_ev | apply ite_ev

theorem execReadClear_ev (h : OpHead) (addr len : Nat) (s : State) : EvolvesTo s (execReadClear h addr len s) := by
  unfold execReadClear
  with_reducible repeat' first
    | extract_lets | apply State.at_ev | apply State.doReadClear_ev | apply State.settle_ev | apply evolvesTo_next | exact Evolves.refl _

theorem execWaitTimeout_ev (i id t : Nat) (s : State) : EvolvesTo s (execWaitTimeout i id t s) := by
  unfold execWaitTimeout
  repeat' first
    | with_reducible assumption
    | extract_lets
    | with_reducible apply State.at_ev
    | with_reducible apply State.finish_ev
    | with_reducible apply State.modSlice_ev
    | with_reducible apply State.qadd_ev
    | with_reducible apply State.settle_ev
    | with_reducible apply ite_ev
    | with_reducible apply ite_snd_ev
    | with_reducible apply ite_fst_ev
    | with_reducible apply ite_evTo
    | with_reducible apply evolvesTo_next
    | with_reducible exact Evolves.refl _
    | with_reducible apply foldl_ev
    | with_reducible apply foldl_fst_ev
    | with_reducible apply foldl_snd_ev
    | with_reducible rfl
    | with_reducible exact Nat.le_refl _
    | (intro _; with_reducible exact Nat.le_refl _)
    | (intro _; with_reducible exact rfl)
    | (intro m hm; change Memory.wf _ = true; exact hm)
    | intro _
    | split
    | dsimp only
    | with_reducible apply State.mk_ev

theorem State.holdOne_ev (i : Nat) (e : Nat × Bytes) {s : State} (hev : Evolves s₀ s) : Evolves s₀ (State.holdOne s i e) := by
  unfold State.holdOne
  repeat' first
    | with_reducible assumption | extract_lets | with_reducible apply State.loseCompletion_ev | with_reducible apply State.modSlice_ev
    | with_reducible apply State.place_ev | with_reducible apply ite_ev | with_reducible apply ite_snd_ev | split

theorem execCompletionHoldPlace_ev (i t : Nat) (s : State) : EvolvesTo s (execCompletionHoldPlace i t s) := by
  unfold execCompletionHoldPlace
  with_reducible repeat' first
    | extract_lets | apply State.at_ev | apply State.holdOne_ev | apply State.modSlice_ev | apply State.settle_ev | apply evolvesTo_next
    | exact Evolves.refl _ | apply foldl_ev | intro _

theorem State.abortAll_ev (l : List (Nat × Waiter)) {s : State} (hev : Evolves s₀ s) : Evolves s₀ (State.abortAll s l) := by
  unfold State.abortAll
  repeat' first
    | with_reducible assumption
    | extract_lets
    | with_reducible apply State.finish_ev
    | with_reducible apply ite_ev
    | with_reducible apply ite_snd_ev
    | with_reducible apply ite_fst_ev
    | with_reducible apply ite_evTo
    | with_reducible apply evolvesTo_next
    | with_reducible exact Evolves.refl _
    | with_reducible apply foldl_ev
    | with_reducible apply foldl_fst_ev
    | with_reducible apply foldl_snd_ev
    | with_reducible rfl
    | with_reducible exact Nat.le_refl _
    | (intro _; with_reducible exact Nat.le_refl _)
    | (intro _; with_reducible exact rfl)
    | (intro m hm; change Memory.wf _ = true; exact hm)
    | intro _
    | split
    | dsimp only
    | with_reducible apply State.mk_ev

theorem State.abortWaits_ev (ep : Nat) {s : State} (hev : Evolves s₀ s) : Evolves s₀ (State.abortWaits s ep) := by
  unfold State.abortWaits
  repeat' first
    | with_reducible assumption
    | extract_lets
    | with_reducible apply State.abortAll_ev
    | with_reducible apply State.breakSync_ev
    | with_reducible apply State.each_ev
    | with_reducible apply State.modSlice_ev
    | with_reducible apply ite_ev
    | with_reducible apply ite_snd_ev
    | with_reducible apply ite_fst_ev
    | with_reducible apply ite_evTo
    | with_reducible apply evolvesTo_next
    | with_reducible exact Evolves.refl _
    | with_reducible apply foldl_ev
    | with_reducible apply foldl_fst_ev
    | with_reducible apply foldl_snd_ev
    | with_reducible rfl
    | with_reducible exact Nat.le_refl _
    | (intro _; with_reducible exact Nat.le_refl _)
    | (intro _; with_reducible exact rfl)
    | (intro m hm; change Memory.wf _ = true; exact hm)
    | intro _
    | split
    | dsimp only
    | with_reducible apply State.mk_ev

theorem State.resetEndpoint_ev (ep : Nat) {s : State} (hev : Evolves s₀ s) : Evolves s₀ (State.resetEndpoint s ep) := by
  unfold State.resetEndpoint
  with_reducible repeat' first
    | assumption | extract_lets | apply State.abortWaits_ev | apply State.dropQueue_ev | apply State.modSync_ev | apply State.orphan_ev
    | apply State.settle_ev | apply foldl_ev | intro _

end Sys2Proof.Machine
end

