-- ==== Sys2Proof/Laws/EvolveLinks.lean ====
section
/-!
SUPPORT. What no command does: the operations of Links.lean (see Evolve.lean).
-/

namespace Sys2Proof.Machine

variable {s₀ : State}

theorem State.portEvent_ev {s : State} (hev : Evolves s₀ s) : Evolves s₀ (State.portEvent s) := by
  unfold State.portEvent
  with_reducible repeat' first | assumption | apply State.raiseCause_ev

theorem State.ecnMarked_ev (ecn : Bool) (p qpn : Nat) {s : State} (hev : Evolves s₀ s) : Evolves s₀ (State.ecnMarked s ecn p qpn) := by
  unfold State.ecnMarked
  repeat' first
    | with_reducible assumption
    | extract_lets
    | with_reducible apply State.out_ev
    | with_reducible apply ite_ev
    | with_reducible apply ite_snd_ev
    | with_reducible apply ite_fst_ev
    | with_reducible apply ite_evTo
    | with_reducible apply evolvesTo_next
    | with_reducible exact Evolves.refl _
    | with_reducible apply foldl_ev
    | with_reducible apply foldl_fst_ev
    | with_reducible apply foldl_snd_ev
    | with_reducible rfl
    | with_reducible exact Nat.le_refl _
    | (intro _; with_reducible exact Nat.le_refl _)
    | (intro _; with_reducible exact rfl)
    | (intro m hm; change Memory.wf _ = true; exact hm)
    | intro _
    | split
    | dsimp only
    | with_reducible apply State.mk_ev

end Sys2Proof.Machine
end

