-- ==== Sys2Proof/Laws/EvolveConverters.lean ====
section
/-!
SUPPORT. What no command does: the operations of Converters.lean (see Evolve.lean).
-/

namespace Sys2Proof.Machine

variable {s₀ : State}

theorem State.takeSample_ev (k : Nat) (b : Bytes) {s : State} (hev : Evolves s₀ s) : Evolves s₀ (State.takeSample s k b) := by
  unfold State.takeSample
  with_reducible repeat' first
    | assumption | extract_lets | apply State.dadd_ev | apply State.dadd64_ev | apply State.modStream_ev | apply ite_ev

theorem State.takeIngest_ev (k : Nat) (b : Bytes) {s : State} (hev : Evolves s₀ s) : Evolves s₀ (State.takeIngest s k b) := by
  unfold State.takeIngest
  with_reducible repeat' first
    | assumption | extract_lets | apply State.popHead_ev | apply State.settle_ev | apply State.takeSample_ev | apply ite_ev

theorem execSample_ev (src : SamplePath) (k : Nat) (data : Bytes) (t : Nat) (s : State) : EvolvesTo s (execSample src k data t s) := by
  unfold execSample
  repeat' first
    | with_reducible assumption
    | extract_lets
    | with_reducible apply State.at_ev
    | with_reducible apply State.ecnMarked_ev
    | with_reducible apply State.takeIngest_ev
    | with_reducible apply State.takeSample_ev
    | with_reducible apply ite_ev
    | with_reducible apply ite_snd_ev
    | with_reducible apply ite_fst_ev
    | with_reducible apply ite_evTo
    | with_reducible apply evolvesTo_next
    | with_reducible exact Evolves.refl _
    | with_reducible apply foldl_ev
    | with_reducible apply foldl_fst_ev
    | with_reducible apply foldl_snd_ev
    | with_reducible rfl
    | with_reducible exact Nat.le_refl _
    | (intro _; with_reducible exact Nat.le_refl _)
    | (intro _; with_reducible exact rfl)
    | (intro m hm; change Memory.wf _ = true; exact hm)
    | intro _
    | split
    | dsimp only
    | with_reducible apply State.mk_ev

theorem State.doStreamSample_ev (k : Nat) (b : Bytes) {s : State} (hev : Evolves s₀ s) : Evolves s₀ (State.doStreamSample s k b).2 := by
  unfold State.doStreamSample
  with_reducible repeat' first | assumption | extract_lets | apply State.takeSample_ev | apply ite_snd_ev

theorem execStreamSample_ev (r : Requester) (k : Nat) (data : Bytes) (t : Nat) (s : State) : EvolvesTo s (execStreamSample r k data t s) := by
  unfold execStreamSample
  with_reducible repeat' first
    | extract_lets | apply State.at_ev | apply State.doStreamSample_ev | apply State.typed_ev | apply evolvesTo_next | exact Evolves.refl _

theorem State.doStreamEnable_ev (k v : Nat) {s : State} (hev : Evolves s₀ s) : Evolves s₀ (State.doStreamEnable s k v).2 := by
  unfold State.doStreamEnable
  with_reducible repeat' first
    | assumption | extract_lets | apply State.dset_ev | apply State.modStream_ev | apply ite_ev | apply ite_snd_ev

theorem execStreamEnable_ev (r : Requester) (k v t : Nat) (s : State) : EvolvesTo s (execStreamEnable r k v t s) := by
  unfold execStreamEnable
  with_reducible repeat' first
    | extract_lets | apply State.at_ev | apply State.doStreamEnable_ev | apply State.typed_ev | apply evolvesTo_next | exact Evolves.refl _

theorem State.dropIntake_ev (k c : Nat) {s : State} (hev : Evolves s₀ s) : Evolves s₀ (State.dropIntake s k c) := by
  unfold State.dropIntake
  with_reducible repeat' first | assumption | extract_lets | apply State.absorbCount_ev | apply State.modCore_ev | apply ite_ev

theorem State.doStreamNow_ev (k v : Nat) {s : State} (hev : Evolves s₀ s) : Evolves s₀ (State.doStreamNow s k v).2 := by
  unfold State.doStreamNow
  repeat' first
    | with_reducible assumption
    | extract_lets
    | with_reducible apply State.dadd_ev
    | with_reducible apply State.dadd64_ev
    | with_reducible apply State.dropIntake_ev
    | with_reducible apply State.dset_ev
    | with_reducible apply State.each_ev
    | with_reducible apply State.mark_ev
    | with_reducible apply State.modCore_ev
    | with_reducible apply State.modStream_ev
    | with_reducible apply State.sendEncodeDone_ev
    | with_reducible apply ite_ev
    | with_reducible apply ite_snd_ev
    | with_reducible apply ite_fst_ev
    | with_reducible apply ite_evTo
    | with_reducible apply evolvesTo_next
    | with_reducible exact Evolves.refl _
    | with_reducible apply foldl_ev
    | with_reducible apply foldl_fst_ev
    | with_reducible apply foldl_snd_ev
    | with_reducible rfl
    | with_reducible exact Nat.le_refl _
    | (intro _; with_reducible exact Nat.le_refl _)
    | (intro _; with_reducible exact rfl)
    | (intro m hm; change Memory.wf _ = true; exact hm)
    | intro _
    | split
    | dsimp only
    | with_reducible apply State.mk_ev

theorem execStreamDisableNow_ev (r : Requester) (k v t : Nat) (s : State) : EvolvesTo s (execStreamDisableNow r k v t s) := by
  unfold execStreamDisableNow
  with_reducible repeat' first
    | extract_lets | apply State.at_ev | apply State.doStreamNow_ev | apply State.typed_ev | apply evolvesTo_next | exact Evolves.refl _

theorem State.doGroupEnable_ev (mask : Nat) {s : State} (hev : Evolves s₀ s) : Evolves s₀ (State.doGroupEnable s mask).2 := by
  unfold State.doGroupEnable
  with_reducible repeat' first
    | assumption | extract_lets | apply State.dset_ev | apply State.each_ev | apply State.modGroup_ev | apply ite_ev | intro _

theorem execGroupEnable_ev (r : Requester) (mask t : Nat) (s : State) : EvolvesTo s (execGroupEnable r mask t s) := by
  unfold execGroupEnable
  with_reducible repeat' first
    | extract_lets | apply State.at_ev | apply State.doGroupEnable_ev | apply State.typed_ev | apply evolvesTo_next | exact Evolves.refl _

theorem State.doGroupNow_ev (mask : Nat) {s : State} (hev : Evolves s₀ s) : Evolves s₀ (State.doGroupNow s mask).2 := by
  unfold State.doGroupNow
  repeat' first
    | with_reducible assumption
    | extract_lets
    | with_reducible apply State.clearCombine_ev
    | with_reducible apply State.dset_ev
    | with_reducible apply State.each_ev
    | with_reducible apply State.modGroup_ev
    | with_reducible apply ite_ev
    | with_reducible apply ite_snd_ev
    | with_reducible apply ite_fst_ev
    | with_reducible apply ite_evTo
    | with_reducible apply evolvesTo_next
    | with_reducible exact Evolves.refl _
    | with_reducible apply foldl_ev
    | with_reducible apply foldl_fst_ev
    | with_reducible apply foldl_snd_ev
    | with_reducible rfl
    | with_reducible exact Nat.le_refl _
    | (intro _; with_reducible exact Nat.le_refl _)
    | (intro _; with_reducible exact rfl)
    | (intro m hm; change Memory.wf _ = true; exact hm)
    | intro _
    | split
    | dsimp only
    | with_reducible apply State.mk_ev

theorem execGroupDisableNow_ev (r : Requester) (mask t : Nat) (s : State) : EvolvesTo s (execGroupDisableNow r mask t s) := by
  unfold execGroupDisableNow
  with_reducible repeat' first
    | extract_lets | apply State.at_ev | apply State.doGroupNow_ev | apply State.typed_ev | apply evolvesTo_next | exact Evolves.refl _

theorem execEstopAssert_ev (t : Nat) (s : State) : EvolvesTo s (execEstopAssert t s) := by
  unfold execEstopAssert
  with_reducible repeat' first
    | extract_lets | apply State.at_ev | apply State.dadd_ev | apply State.dset_ev | apply State.modPins_ev | apply ite_ev
    | apply evolvesTo_next | exact Evolves.refl _

theorem execEstopRelease_ev (t : Nat) (s : State) : EvolvesTo s (execEstopRelease t s) := by
  unfold execEstopRelease
  with_reducible repeat' first | extract_lets | apply State.at_ev | apply State.modPins_ev | apply evolvesTo_next | exact Evolves.refl _

theorem State.setOutput_ev (v : Nat) {s : State} (hev : Evolves s₀ s) : Evolves s₀ (State.setOutput s v) := by
  unfold State.setOutput
  with_reducible repeat' first | assumption | extract_lets | apply State.dset_ev | apply ite_ev

theorem State.doOutputEnable_ev (v : Nat) {s : State} (hev : Evolves s₀ s) : Evolves s₀ (State.doOutputEnable s v).2 := by
  unfold State.doOutputEnable
  with_reducible repeat' first | assumption | extract_lets | apply State.setOutput_ev | apply ite_snd_ev

theorem execOutputEnable_ev (src : RegSource) (w t : Nat) (s : State) : EvolvesTo s (execOutputEnable src w t s) := by
  unfold execOutputEnable
  repeat' first
    | extract_lets | with_reducible apply State.at_ev | with_reducible apply State.doOutputEnable_ev
    | with_reducible apply State.setOutput_ev | with_reducible apply State.typed_ev | with_reducible apply ite_ev
    | with_reducible apply evolvesTo_next | with_reducible exact Evolves.refl _ | split

theorem execEstopState_ev (src : RegSource) (w t : Nat) (s : State) : EvolvesTo s (execEstopState src w t s) := by
  unfold execEstopState
  repeat' first
    | extract_lets | with_reducible apply State.answer_ev | with_reducible apply State.at_ev | with_reducible apply State.modPins_ev
    | with_reducible apply ite_ev | with_reducible apply evolvesTo_next | with_reducible exact Evolves.refl _ | split

end Sys2Proof.Machine
end

