-- ==== Sys2Proof/Laws/EvolveMemoryUnits.lean ====
section
/-!
SUPPORT. What no command does: the operations of MemoryUnits.lean (see Evolve.lean).
-/

namespace Sys2Proof.Machine

variable {s₀ : State}

theorem State.dsFinish_ev (i : Nat) (d : Bytes) (status crc done : Nat) {s : State} (hev : Evolves s₀ s) : Evolves s₀ (State.dsFinish s i d status crc done) := by
  unfold State.dsFinish
  with_reducible repeat' first | assumption | extract_lets | apply State.complete_ev | apply ite_ev

theorem State.submitDescriptor_ev (i : Nat) {s : State} (hev : Evolves s₀ s) : Evolves s₀ (State.submitDescriptor s i) := by
  unfold State.submitDescriptor
  repeat' first
    | with_reducible assumption | extract_lets | with_reducible apply State.dsFinish_ev | with_reducible apply State.modSlice_ev
    | with_reducible apply State.popHead_ev | with_reducible apply ite_ev | split

theorem execDescriptorSubmit_ev (i t : Nat) (s : State) : EvolvesTo s (execDescriptorSubmit i t s) := by
  unfold execDescriptorSubmit
  with_reducible repeat' first
    | extract_lets | apply State.at_ev | apply State.settle_ev | apply State.submitDescriptor_ev | apply ite_ev | apply evolvesTo_next
    | exact Evolves.refl _

theorem State.hostError_ev (f : Nat) {s : State} (hev : Evolves s₀ s) : Evolves s₀ (State.hostError s f) := by
  unfold State.hostError
  repeat' first
    | with_reducible assumption
    | extract_lets
    | with_reducible apply State.modFunc_ev
    | with_reducible apply State.takeFree_ev
    | with_reducible apply ite_ev
    | with_reducible apply ite_snd_ev
    | with_reducible apply ite_fst_ev
    | with_reducible apply ite_evTo
    | with_reducible apply evolvesTo_next
    | with_reducible exact Evolves.refl _
    | with_reducible apply foldl_ev
    | with_reducible apply foldl_fst_ev
    | with_reducible apply foldl_snd_ev
    | with_reducible rfl
    | with_reducible exact Nat.le_refl _
    | (intro _; with_reducible exact Nat.le_refl _)
    | (intro _; with_reducible exact rfl)
    | (intro m hm; change Memory.wf _ = true; exact hm)
    | intro _
    | split
    | dsimp only
    | with_reducible apply State.mk_ev

theorem State.dsMove_ev (f : Nat) (d : Bytes) (err : Option Nat) {s : State} (hev : Evolves s₀ s) : Evolves s₀ (State.dsMove s f d err).1 := by
  unfold State.dsMove
  repeat' first
    | with_reducible assumption
    | extract_lets
    | with_reducible apply State.dadd_ev
    | with_reducible apply State.hostError_ev
    | with_reducible apply State.spaceRead_ev
    | with_reducible apply State.spaceWrite_ev
    | with_reducible apply ite_ev
    | with_reducible apply ite_snd_ev
    | with_reducible apply ite_fst_ev
    | with_reducible apply ite_evTo
    | with_reducible apply evolvesTo_next
    | with_reducible exact Evolves.refl _
    | with_reducible apply foldl_ev
    | with_reducible apply foldl_fst_ev
    | with_reducible apply foldl_snd_ev
    | with_reducible rfl
    | with_reducible exact Nat.le_refl _
    | (intro _; with_reducible exact Nat.le_refl _)
    | (intro _; with_reducible exact rfl)
    | (intro m hm; change Memory.wf _ = true; exact hm)
    | intro _
    | split
    | dsimp only
    | with_reducible apply State.mk_ev

theorem execDescriptorComplete_ev (i j : Nat) (memErr : Option Nat) (t : Nat) (s : State) : EvolvesTo s (execDescriptorComplete i j memErr t s) := by
  unfold execDescriptorComplete
  repeat' first
    | extract_lets | with_reducible apply State.at_ev | with_reducible apply State.dsFinish_ev | with_reducible apply State.dsMove_ev
    | with_reducible apply State.modSlice_ev | with_reducible apply State.settle_ev | with_reducible apply evolvesTo_next
    | with_reducible exact Evolves.refl _ | split

theorem State.abortDescs_ev (p : Nat → Bool) {s : State} (hev : Evolves s₀ s) : Evolves s₀ (State.abortDescs s p) := by
  unfold State.abortDescs
  with_reducible repeat' first | assumption | extract_lets | apply State.dsFinish_ev | apply State.modSlice_ev | apply foldl_ev | intro _

theorem State.markSlice_ev (i detail origin : Nat) {s : State} (hev : Evolves s₀ s) : Evolves s₀ (State.markSlice s i detail origin) := by
  unfold State.markSlice
  repeat' first
    | with_reducible assumption
    | extract_lets
    | with_reducible apply State.dropLinks_ev
    | with_reducible apply State.logDefect_ev
    | with_reducible apply State.modFloor_ev
    | with_reducible apply State.modSlice_ev
    | with_reducible apply ite_ev
    | with_reducible apply ite_snd_ev
    | with_reducible apply ite_fst_ev
    | with_reducible apply ite_evTo
    | with_reducible apply evolvesTo_next
    | with_reducible exact Evolves.refl _
    | with_reducible apply foldl_ev
    | with_reducible apply foldl_fst_ev
    | with_reducible apply foldl_snd_ev
    | with_reducible rfl
    | with_reducible exact Nat.le_refl _
    | (intro _; with_reducible exact Nat.le_refl _)
    | (intro _; with_reducible exact rfl)
    | (intro m hm; change Memory.wf _ = true; exact hm)
    | intro _
    | split
    | dsimp only
    | with_reducible apply State.mk_ev

theorem State.failSlice_ev (i code detail origin : Nat) {s : State} (hev : Evolves s₀ s) : Evolves s₀ (State.failSlice s i code detail origin) := by
  unfold State.failSlice
  with_reducible repeat' first | assumption | extract_lets | apply State.markSlice_ev | apply State.reportUnit_ev | apply ite_ev

theorem State.loseSubchannel_ev (i : Nat) {s : State} (hev : Evolves s₀ s) : Evolves s₀ (State.loseSubchannel s i) := by
  unfold State.loseSubchannel
  repeat' first
    | with_reducible assumption
    | extract_lets
    | with_reducible apply State.each_ev
    | with_reducible apply State.modCluster_ev
    | with_reducible apply State.modCore_ev
    | with_reducible apply State.modSlice_ev
    | with_reducible apply State.modStream_ev
    | with_reducible apply ite_ev
    | with_reducible apply ite_snd_ev
    | with_reducible apply ite_fst_ev
    | with_reducible apply ite_evTo
    | with_reducible apply evolvesTo_next
    | with_reducible exact Evolves.refl _
    | with_reducible apply foldl_ev
    | with_reducible apply foldl_fst_ev
    | with_reducible apply foldl_snd_ev
    | with_reducible rfl
    | with_reducible exact Nat.le_refl _
    | (intro _; with_reducible exact Nat.le_refl _)
    | (intro _; with_reducible exact rfl)
    | (intro m hm; change Memory.wf _ = true; exact hm)
    | intro _
    | split
    | dsimp only
    | with_reducible apply State.mk_ev

theorem State.loseOverflow_ev (i : Nat) {s : State} (hev : Evolves s₀ s) : Evolves s₀ (State.loseOverflow s i) := by
  unfold State.loseOverflow
  with_reducible repeat' first
    | assumption | extract_lets | apply State.each_ev | apply State.ledgerDrop_ev | apply State.modCore_ev | intro _

theorem State.loseRings_ev (i : Nat) {s : State} (hev : Evolves s₀ s) : Evolves s₀ (State.loseRings s i) := by
  unfold State.loseRings
  apply State.modMem_ev
  · intro m hm
    rw [Memory.wf_iff] at hm ⊢
    exact ⟨hm.1, mwf_mclear _ _ _ _ hm.2.1, hm.2.2⟩
  · apply State.each_ev
    · exact fun _ _ h => State.modGroup_ev _ _ h
    · exact foldl_ev _ (fun _ _ h => State.qadd_ev _ _ _ (State.modQueue_ev _ _ h)) hev

theorem State.loseMirror_ev (i : Nat) {s : State} (hev : Evolves s₀ s) : Evolves s₀ (State.loseMirror s i) := by
  unfold State.loseMirror
  repeat' first
    | with_reducible assumption
    | extract_lets
    | with_reducible apply State.finish_ev
    | with_reducible apply State.modFab_ev
    | with_reducible apply State.modSlice_ev
    | with_reducible apply ite_ev
    | with_reducible apply ite_snd_ev
    | with_reducible apply ite_fst_ev
    | with_reducible apply ite_evTo
    | with_reducible apply evolvesTo_next
    | with_reducible exact Evolves.refl _
    | with_reducible apply foldl_ev
    | with_reducible apply foldl_fst_ev
    | with_reducible apply foldl_snd_ev
    | with_reducible rfl
    | with_reducible exact Nat.le_refl _
    | (intro _; with_reducible exact Nat.le_refl _)
    | (intro _; with_reducible exact rfl)
    | (intro m hm; change Memory.wf _ = true; exact hm)
    | intro _
    | split
    | dsimp only
    | with_reducible apply State.mk_ev

theorem State.takeSlice_ev (i : Nat) {s : State} (hev : Evolves s₀ s) : Evolves s₀ (State.takeSlice s i) := by
  unfold State.takeSlice
  repeat' first
    | with_reducible assumption
    | extract_lets
    | with_reducible apply State.dadd_ev
    | with_reducible apply State.dsFinish_ev
    | with_reducible apply State.each_ev
    | with_reducible apply State.finish_ev
    | with_reducible apply State.loseMirror_ev
    | with_reducible apply State.loseOverflow_ev
    | with_reducible apply State.loseRings_ev
    | with_reducible apply State.loseSubchannel_ev
    | with_reducible apply State.mark_ev
    | with_reducible apply State.modFloor_ev
    | with_reducible apply State.modMem_ev
    | with_reducible apply State.modSlice_ev
    | with_reducible apply State.reportUnit_ev
    | with_reducible apply State.resendTo_ev
    | with_reducible apply State.wantGen_ev
    | with_reducible apply ite_ev
    | with_reducible apply ite_snd_ev
    | with_reducible apply ite_fst_ev
    | with_reducible apply ite_evTo
    | with_reducible apply evolvesTo_next
    | with_reducible exact Evolves.refl _
    | with_reducible apply foldl_ev
    | with_reducible apply foldl_fst_ev
    | with_reducible apply foldl_snd_ev
    | with_reducible rfl
    | with_reducible exact Nat.le_refl _
    | (intro _; with_reducible exact Nat.le_refl _)
    | (intro _; with_reducible exact rfl)
    | (intro m hm; change Memory.wf _ = true; exact hm)
    | intro _
    | split
    | dsimp only
    | with_reducible apply State.mk_ev

theorem execSliceTakeover_ev (i t : Nat) (s : State) : EvolvesTo s (execSliceTakeover i t s) := by
  unfold execSliceTakeover
  with_reducible repeat' first
    | extract_lets | apply State.at_ev | apply State.settle_ev | apply State.takeSlice_ev | apply ite_ev | apply evolvesTo_next
    | exact Evolves.refl _

theorem State.cacheParity_ev (c addr : Nat) {s : State} (hev : Evolves s₀ s) : Evolves s₀ (State.cacheParity s c addr) := by
  unfold State.cacheParity
  repeat' first
    | with_reducible assumption | extract_lets | with_reducible apply State.modCore_ev | with_reducible apply State.modMem_ev
    | with_reducible apply State.reportUnit_ev | with_reducible apply State.takeFree_ev | (intro m hm; change Memory.wf _ = true; exact hm)

theorem State.parityAction_ev (m : ParityMem) (unit addr : Nat) {s : State} (hev : Evolves s₀ s) : Evolves s₀ (State.parityAction s m unit addr) := by
  unfold State.parityAction
  repeat' first
    | with_reducible assumption
    | extract_lets
    | with_reducible apply State.cacheParity_ev
    | with_reducible apply State.dadd_ev
    | with_reducible apply State.failCore_ev
    | with_reducible apply State.failSlice_ev
    | with_reducible apply State.failStore_ev
    | with_reducible apply State.logDefect_ev
    | with_reducible apply State.sramError_ev
    | with_reducible apply State.startController_ev
    | with_reducible apply State.startMgmt_ev
    | with_reducible apply ite_ev
    | with_reducible apply ite_snd_ev
    | with_reducible apply ite_fst_ev
    | with_reducible apply ite_evTo
    | with_reducible apply evolvesTo_next
    | with_reducible exact Evolves.refl _
    | with_reducible apply foldl_ev
    | with_reducible apply foldl_fst_ev
    | with_reducible apply foldl_snd_ev
    | with_reducible rfl
    | with_reducible exact Nat.le_refl _
    | (intro _; with_reducible exact Nat.le_refl _)
    | (intro _; with_reducible exact rfl)
    | (intro m hm; change Memory.wf _ = true; exact hm)
    | intro _
    | split
    | dsimp only
    | with_reducible apply State.mk_ev

theorem execParityError_ev (mem : ParityMem) (unit addr : Nat) (cured : Bool) (t : Nat) (s : State) : EvolvesTo s (execParityError mem unit addr cured t s) := by
  unfold execParityError
  with_reducible repeat' first
    | extract_lets | apply State.at_ev | apply State.dadd_ev | apply State.parityAction_ev | apply ite_ev | apply evolvesTo_next
    | exact Evolves.refl _

theorem State.corrected_ev (i : Nat) {s : State} (hev : Evolves s₀ s) : Evolves s₀ (State.corrected s i) := by
  unfold State.corrected
  with_reducible repeat' first
    | assumption | extract_lets | apply State.dadd64_ev | apply State.modSlice_ev | apply State.warn_ev | apply ite_ev

theorem State.poisonWord_ev (i o : Nat) {s : State} (hev : Evolves s₀ s) : Evolves s₀ (State.poisonWord s i o) := by
  unfold State.poisonWord
  repeat' first
    | with_reducible assumption
    | extract_lets
    | with_reducible apply State.modMem_ev
    | with_reducible apply ite_ev
    | with_reducible apply ite_snd_ev
    | with_reducible apply ite_fst_ev
    | with_reducible apply ite_evTo
    | with_reducible apply evolvesTo_next
    | with_reducible exact Evolves.refl _
    | with_reducible apply foldl_ev
    | with_reducible apply foldl_fst_ev
    | with_reducible apply foldl_snd_ev
    | with_reducible rfl
    | with_reducible exact Nat.le_refl _
    | (intro _; with_reducible exact Nat.le_refl _)
    | (intro _; with_reducible exact rfl)
    | (intro m hm; change Memory.wf _ = true; exact hm)
    | intro _
    | split
    | dsimp only
    | with_reducible apply State.mk_ev

theorem State.readWord_ev (i o : Nat) (e : WordError) (keep : Bool) {s : State} (hev : Evolves s₀ s) : Evolves s₀ (State.readWord s i o e keep) := by
  unfold State.readWord
  repeat' first
    | with_reducible assumption
    | extract_lets
    | with_reducible apply State.corrected_ev
    | with_reducible apply State.dadd_ev
    | with_reducible apply State.modSlice_ev
    | with_reducible apply State.poisonWord_ev
    | with_reducible apply State.reportUnit_ev
    | with_reducible apply ite_ev
    | with_reducible apply ite_snd_ev
    | with_reducible apply ite_fst_ev
    | with_reducible apply ite_evTo
    | with_reducible apply evolvesTo_next
    | with_reducible exact Evolves.refl _
    | with_reducible apply foldl_ev
    | with_reducible apply foldl_fst_ev
    | with_reducible apply foldl_snd_ev
    | with_reducible rfl
    | with_reducible exact Nat.le_refl _
    | (intro _; with_reducible exact Nat.le_refl _)
    | (intro _; with_reducible exact rfl)
    | (intro m hm; change Memory.wf _ = true; exact hm)
    | intro _
    | split
    | dsimp only
    | with_reducible apply State.mk_ev

theorem execLpddr6ReadError_ev (i off : Nat) (e : WordError) (t : Nat) (s : State) : EvolvesTo s (execLpddr6ReadError i off e t s) := by
  unfold execLpddr6ReadError
  repeat' first
    | with_reducible assumption
    | extract_lets
    | with_reducible apply State.at_ev
    | with_reducible apply State.readWord_ev
    | with_reducible apply ite_ev
    | with_reducible apply ite_snd_ev
    | with_reducible apply ite_fst_ev
    | with_reducible apply ite_evTo
    | with_reducible apply evolvesTo_next
    | with_reducible exact Evolves.refl _
    | with_reducible apply foldl_ev
    | with_reducible apply foldl_fst_ev
    | with_reducible apply foldl_snd_ev
    | with_reducible rfl
    | with_reducible exact Nat.le_refl _
    | (intro _; with_reducible exact Nat.le_refl _)
    | (intro _; with_reducible exact rfl)
    | (intro m hm; change Memory.wf _ = true; exact hm)
    | intro _
    | split
    | dsimp only
    | with_reducible apply State.mk_ev

theorem execPatrolScrub_ev (i : Nat) (e : WordError) (written : Bool) (t : Nat) (s : State) : EvolvesTo s (execPatrolScrub i e written t s) := by
  unfold execPatrolScrub
  repeat' first
    | with_reducible assumption
    | extract_lets
    | with_reducible apply State.at_ev
    | with_reducible apply State.modSlice_ev
    | with_reducible apply State.readWord_ev
    | with_reducible apply ite_ev
    | with_reducible apply ite_snd_ev
    | with_reducible apply ite_fst_ev
    | with_reducible apply ite_evTo
    | with_reducible apply evolvesTo_next
    | with_reducible exact Evolves.refl _
    | with_reducible apply foldl_ev
    | with_reducible apply foldl_fst_ev
    | with_reducible apply foldl_snd_ev
    | with_reducible rfl
    | with_reducible exact Nat.le_refl _
    | (intro _; with_reducible exact Nat.le_refl _)
    | (intro _; with_reducible exact rfl)
    | (intro m hm; change Memory.wf _ = true; exact hm)
    | intro _
    | split
    | dsimp only
    | with_reducible apply State.mk_ev

theorem execRetrain_ev (i temp : Nat) (ok : Bool) (t : Nat) (s : State) : EvolvesTo s (execRetrain i temp ok t s) := by
  unfold execRetrain
  with_reducible repeat' first
    | extract_lets | apply State.at_ev | apply State.logDefect_ev | apply State.loseSubchannel_ev | apply State.modSlice_ev
    | apply State.reportUnit_ev | apply ite_ev | apply evolvesTo_next | exact Evolves.refl _

theorem execBgtestRegion_ev (kind unit : Nat) (pass : Bool) (t : Nat) (s : State) : EvolvesTo s (execBgtestRegion kind unit pass t s) := by
  unfold execBgtestRegion
  repeat' first
    | extract_lets | with_reducible apply State.at_ev | with_reducible apply State.dadd_ev | with_reducible apply State.dadd64_ev
    | with_reducible apply State.logDefect_ev | with_reducible apply State.modMem_ev | with_reducible apply State.reportUnit_ev
    | with_reducible apply ite_ev | with_reducible apply evolvesTo_next | with_reducible exact Evolves.refl _
    | (intro m hm; change Memory.wf _ = true; exact hm)

theorem dLp_local (f : Option Nat) {a : Nat} (h : localBase ≤ a) : dLp f a = 0 := by
  cases f with
  | none => rfl
  | some n => exact if_neg (Nat.not_lt.2 h)
/-- The local areas keep their contents when the contents of the frames become free. -/
theorem mwf_locals (f g : Option Nat) (m : List Host.Cell) (h : mwf (dLp f) m = true) :
    mwf (dLp g) (m.filter (fun e => decide (localBase ≤ e.1))) = true := by
  have hf := mwf_filter _ m (fun e => decide (localBase ≤ e.1)) h
  rw [mwf_iff] at hf ⊢
  refine ⟨hf.1, fun e he => ?_⟩
  have hl : localBase ≤ e.1 := of_decide_eq_true (List.mem_filter.1 he).2
  have hv := hf.2 e he
  rwa [dLp_local _ hl] at hv ⊢
theorem State.doFrameAll_ev (v : Nat) {s : State} (hev : Evolves s₀ s) : Evolves s₀ (s.doFrameAll v).2 := by
  unfold State.doFrameAll
  refine ite_snd_ev hev (ite_snd_ev hev ?_)
  dsimp only
  apply State.modClk_ev
  · exact fun _ => Nat.le_refl _
  apply State.each_ev
  · exact fun _ _ h => State.modPart_ev _ _ h
  apply State.modMem_ev
  · intro m hm
    rw [Memory.wf_iff] at hm ⊢
    exact ⟨mwf_locals _ _ _ hm.1, hm.2⟩
  · exact State.dset_ev _ _ hev


theorem execFrameAll_ev (r : Requester) (v t : Nat) (s : State) : EvolvesTo s (execFrameAll r v t s) := by
  unfold execFrameAll
  with_reducible repeat' first
    | extract_lets | apply State.at_ev | apply State.doFrameAll_ev | apply State.typed_ev | apply evolvesTo_next | exact Evolves.refl _

theorem State.doFrameOwner_ev (b : Bytes) {s : State} (hev : Evolves s₀ s) : Evolves s₀ (State.doFrameOwner s b).2 := by
  unfold State.doFrameOwner
  with_reducible repeat' first
    | assumption | extract_lets | apply State.each_ev | apply State.setOwner_ev | apply ite_ev | apply ite_snd_ev | intro _

theorem execFrameOwner_ev (r : Requester) (data : Bytes) (t : Nat) (s : State) : EvolvesTo s (execFrameOwner r data t s) := by
  unfold execFrameOwner
  with_reducible repeat' first
    | extract_lets | apply State.at_ev | apply State.doFrameOwner_ev | apply State.typed_ev | apply evolvesTo_next | exact Evolves.refl _

theorem execBar2Access_ev (f off len : Nat) (data : Option Bytes) (t : Nat) (s : State) : EvolvesTo s (execBar2Access f off len data t s) := by
  unfold execBar2Access
  repeat' first
    | extract_lets | with_reducible apply State.at_ev | with_reducible apply State.dadd_ev | with_reducible apply State.lpWrite_ev
    | with_reducible apply State.out_ev | with_reducible apply ite_ev | with_reducible apply evolvesTo_next
    | with_reducible exact Evolves.refl _ | split

theorem execBar2Window_ev (f : Nat) (hi : Bool) (w t : Nat) (s : State) : EvolvesTo s (execBar2Window f hi w t s) := by
  unfold execBar2Window
  with_reducible repeat' first
    | extract_lets | apply State.at_ev | apply State.modFunc_ev | apply ite_ev | apply evolvesTo_next | exact Evolves.refl _

theorem State.doConflictClear_ev (v : Nat) {s : State} (hev : Evolves s₀ s) : Evolves s₀ (State.doConflictClear s v).2 := by
  unfold State.doConflictClear
  generalize hk : (fun (r : SMap Nat) i => mset dZero r (conflictKey (s.dget kConflictTarget) i) 0) = g
  clear hk
  apply ite_snd_ev
  · dsimp only
    refine State.modMem_ev ?_ hev
    intro m hm
    rw [Memory.wf_iff] at hm ⊢
    exact hm
  · apply ite_snd_ev _ hev
    dsimp only
    refine State.modMem_ev ?_ hev
    intro m hm
    rw [Memory.wf_iff] at hm ⊢
    exact hm

theorem execConflictClear_ev (r : Requester) (v t : Nat) (s : State) : EvolvesTo s (execConflictClear r v t s) := by
  unfold execConflictClear
  with_reducible repeat' first
    | extract_lets | apply State.at_ev | apply State.doConflictClear_ev | apply State.typed_ev | apply evolvesTo_next | exact Evolves.refl _

theorem State.readConflicts_ev (target : Nat) {s : State} (hev : Evolves s₀ s) : Evolves s₀ (State.readConflicts s target).2 := by
  unfold State.readConflicts
  repeat' first
    | with_reducible assumption | extract_lets | with_reducible apply State.each_ev | with_reducible apply State.modMem_ev
    | with_reducible apply State.takeFree_ev | (intro m hm; change Memory.wf _ = true; exact hm) | intro _

theorem State.doGrantWrite_ev (kind : Nat) (data : Bytes) {s : State} (hev : Evolves s₀ s) : Evolves s₀ (State.doGrantWrite s kind data).2 := by
  unfold State.doGrantWrite
  repeat' first
    | with_reducible assumption | extract_lets | with_reducible apply State.modMem_ev | with_reducible apply ite_snd_ev
    | (intro m hm; change Memory.wf _ = true; exact hm)

theorem execGrantWrite_ev (r : Requester) (kind : Nat) (data : Bytes) (t : Nat) (s : State) : EvolvesTo s (execGrantWrite r kind data t s) := by
  unfold execGrantWrite
  with_reducible repeat' first
    | extract_lets | apply State.at_ev | apply State.doGrantWrite_ev | apply State.typed_ev | apply ite_ev | apply evolvesTo_next
    | exact Evolves.refl _

end Sys2Proof.Machine
end

