-- ==== Sys2Proof/Laws/EvolveFabric.lean ====
section
/-!
SUPPORT. What no command does: the operations of Fabric.lean (see Evolve.lean).
-/

namespace Sys2Proof.Machine

variable {s₀ : State}

theorem State.doRebuild_ev {s : State} (hev : Evolves s₀ s) : Evolves s₀ (State.doRebuild s).2 := by
  unfold State.doRebuild
  with_reducible repeat' first | assumption | extract_lets | apply State.startGen_ev | apply ite_snd_ev

theorem execRebuild_ev (r : Requester) (t : Nat) (s : State) : EvolvesTo s (execRebuild r t s) := by
  unfold execRebuild
  with_reducible repeat' first
    | extract_lets | apply State.at_ev | apply State.doRebuild_ev | apply State.typed_ev | apply evolvesTo_next | exact Evolves.refl _

theorem State.fabricDue_ev  {s : State} (hev : Evolves s₀ s) : Evolves s₀ (State.fabricDue s) := by
  unfold State.fabricDue
  repeat' first
    | with_reducible assumption
    | extract_lets
    | with_reducible apply State.commitGen_ev
    | with_reducible apply State.resend_ev
    | with_reducible apply ite_ev
    | with_reducible apply ite_snd_ev
    | with_reducible apply ite_fst_ev
    | with_reducible apply ite_evTo
    | with_reducible apply evolvesTo_next
    | with_reducible exact Evolves.refl _
    | with_reducible apply foldl_ev
    | with_reducible apply foldl_fst_ev
    | with_reducible apply foldl_snd_ev
    | with_reducible rfl
    | with_reducible exact Nat.le_refl _
    | (intro _; with_reducible exact Nat.le_refl _)
    | (intro _; with_reducible exact rfl)
    | (intro m hm; change Memory.wf _ = true; exact hm)
    | intro _
    | split
    | dsimp only
    | with_reducible apply State.mk_ev

theorem execGenDrain_ev (t : Nat) (s : State) : EvolvesTo s (execGenDrain t s) := by
  unfold execGenDrain
  repeat' first
    | with_reducible assumption
    | extract_lets
    | with_reducible apply State.at_ev
    | with_reducible apply State.dset_ev
    | with_reducible apply State.fabricDue_ev
    | with_reducible apply State.modFab_ev
    | with_reducible apply State.outs_ev
    | with_reducible apply ite_ev
    | with_reducible apply ite_snd_ev
    | with_reducible apply ite_fst_ev
    | with_reducible apply ite_evTo
    | with_reducible apply evolvesTo_next
    | with_reducible exact Evolves.refl _
    | with_reducible apply foldl_ev
    | with_reducible apply foldl_fst_ev
    | with_reducible apply foldl_snd_ev
    | with_reducible rfl
    | with_reducible exact Nat.le_refl _
    | (intro _; with_reducible exact Nat.le_refl _)
    | (intro _; with_reducible exact rfl)
    | (intro m hm; change Memory.wf _ = true; exact hm)
    | intro _
    | split
    | dsimp only
    | with_reducible apply State.mk_ev

theorem State.retireGen_ev {s : State} (hev : Evolves s₀ s) : Evolves s₀ (State.retireGen s) := by
  unfold State.retireGen
  with_reducible repeat' first
    | assumption | extract_lets | apply State.dadd_ev | apply State.dset_ev | apply State.modFab_ev | apply State.startGen_ev | apply ite_ev

theorem execGenDone_ev (i t : Nat) (s : State) : EvolvesTo s (execGenDone i t s) := by
  unfold execGenDone
  with_reducible repeat' first
    | extract_lets | apply State.at_ev | apply State.modFab_ev | apply State.retireGen_ev | apply ite_ev | apply evolvesTo_next
    | exact Evolves.refl _

theorem execGenSwitchTimeout_ev (n t : Nat) (s : State) : EvolvesTo s (execGenSwitchTimeout n t s) := by
  unfold execGenSwitchTimeout
  repeat' first
    | with_reducible assumption
    | extract_lets
    | with_reducible apply State.at_ev
    | with_reducible apply State.fabricDue_ev
    | with_reducible apply State.modFab_ev
    | with_reducible apply State.switchUnits_ev
    | with_reducible apply ite_ev
    | with_reducible apply ite_snd_ev
    | with_reducible apply ite_fst_ev
    | with_reducible apply ite_evTo
    | with_reducible apply evolvesTo_next
    | with_reducible exact Evolves.refl _
    | with_reducible apply foldl_ev
    | with_reducible apply foldl_fst_ev
    | with_reducible apply foldl_snd_ev
    | with_reducible rfl
    | with_reducible exact Nat.le_refl _
    | (intro _; with_reducible exact Nat.le_refl _)
    | (intro _; with_reducible exact rfl)
    | (intro m hm; change Memory.wf _ = true; exact hm)
    | intro _
    | split
    | dsimp only
    | with_reducible apply State.mk_ev

theorem State.excludeEnds_ev (sw port : Nat) {s : State} (hev : Evolves s₀ s) : Evolves s₀ (State.excludeEnds s sw port) := by
  unfold State.excludeEnds
  with_reducible repeat' first
    | assumption | extract_lets | apply State.dset_ev | apply State.logDefect_ev | apply State.modFab_ev | apply State.wantGen_ev
    | apply ite_ev

theorem State.excludeLink_ev (sw port : Nat) {s : State} (hev : Evolves s₀ s) : Evolves s₀ (State.excludeLink s sw port) := by
  unfold State.excludeLink
  with_reducible repeat' first | assumption | extract_lets | apply State.excludeEnds_ev | apply State.reportUnit_ev | apply ite_ev

theorem execCreditTimeout_ev (sw link t : Nat) (s : State) : EvolvesTo s (execCreditTimeout sw link t s) := by
  unfold execCreditTimeout
  with_reducible repeat' first
    | extract_lets | apply State.at_ev | apply State.dadd_ev | apply State.excludeLink_ev | apply evolvesTo_next | exact Evolves.refl _

theorem State.hopError_ev (hop : Nat) {s : State} (hev : Evolves s₀ s) : Evolves s₀ (State.hopError s hop) := by
  unfold State.hopError
  with_reducible repeat' first
    | assumption | extract_lets | apply State.dadd64_ev | apply State.excludeLink_ev | apply State.modFab_ev | apply ite_ev

theorem State.sendNack_ev (p : Packet) (reason expected : Nat) {s : State} (hev : Evolves s₀ s) : Evolves s₀ (State.sendNack s p reason expected) := by
  unfold State.sendNack
  with_reducible repeat' first | assumption | extract_lets | apply State.dadd64_ev | apply State.out_ev

theorem State.noteCopy_ev (p : Packet) {s : State} (hev : Evolves s₀ s) : Evolves s₀ (State.noteCopy s p) := by
  unfold State.noteCopy
  with_reducible repeat' first | assumption | extract_lets | apply State.modFab_ev | apply ite_ev

theorem State.duplicate_ev (p : Packet) {s : State} (hev : Evolves s₀ s) : Evolves s₀ (State.duplicate s p) := by
  unfold State.duplicate
  with_reducible repeat' first
    | assumption | extract_lets | apply State.dadd64_ev | apply State.modMarks_ev | apply State.sendAck_ev | apply ite_ev

theorem State.takePacket_ev (p : Packet) {s : State} (hev : Evolves s₀ s) : Evolves s₀ (State.takePacket s p) := by
  unfold State.takePacket
  repeat' first
    | with_reducible assumption
    | extract_lets
    | with_reducible apply State.arriveHaul_ev
    | with_reducible apply State.dadd64_ev
    | with_reducible apply ite_ev
    | with_reducible apply ite_snd_ev
    | with_reducible apply ite_fst_ev
    | with_reducible apply ite_evTo
    | with_reducible apply evolvesTo_next
    | with_reducible exact Evolves.refl _
    | with_reducible apply foldl_ev
    | with_reducible apply foldl_fst_ev
    | with_reducible apply foldl_snd_ev
    | with_reducible rfl
    | with_reducible exact Nat.le_refl _
    | (intro _; with_reducible exact Nat.le_refl _)
    | (intro _; with_reducible exact rfl)
    | (intro m hm; change Memory.wf _ = true; exact hm)
    | intro _
    | split
    | dsimp only
    | with_reducible apply State.mk_ev

theorem State.acceptPacket_ev (p : Packet) (acc : Acceptance) {s : State} (hev : Evolves s₀ s) : Evolves s₀ (State.acceptPacket s p acc) := by
  unfold State.acceptPacket
  repeat' first
    | with_reducible assumption
    | extract_lets
    | with_reducible apply State.modFab_ev
    | with_reducible apply State.modMarks_ev
    | with_reducible apply State.sendAck_ev
    | with_reducible apply State.takePacket_ev
    | with_reducible apply ite_ev
    | with_reducible apply ite_snd_ev
    | with_reducible apply ite_fst_ev
    | with_reducible apply ite_evTo
    | with_reducible apply evolvesTo_next
    | with_reducible exact Evolves.refl _
    | with_reducible apply foldl_ev
    | with_reducible apply foldl_fst_ev
    | with_reducible apply foldl_snd_ev
    | with_reducible rfl
    | with_reducible exact Nat.le_refl _
    | (intro _; with_reducible exact Nat.le_refl _)
    | (intro _; with_reducible exact rfl)
    | (intro m hm; change Memory.wf _ = true; exact hm)
    | intro _
    | split
    | dsimp only
    | with_reducible apply State.mk_ev

theorem State.acceptHeld_ev (p : Packet) {s : State} (hev : Evolves s₀ s) : Evolves s₀ (State.acceptHeld s p) := by
  unfold State.acceptHeld
  repeat' first
    | with_reducible assumption
    | extract_lets
    | with_reducible apply State.completePacket_ev
    | with_reducible apply State.takePacket_ev
    | with_reducible apply ite_ev
    | with_reducible apply ite_snd_ev
    | with_reducible apply ite_fst_ev
    | with_reducible apply ite_evTo
    | with_reducible apply evolvesTo_next
    | with_reducible exact Evolves.refl _
    | with_reducible apply foldl_ev
    | with_reducible apply foldl_fst_ev
    | with_reducible apply foldl_snd_ev
    | with_reducible rfl
    | with_reducible exact Nat.le_refl _
    | (intro _; with_reducible exact Nat.le_refl _)
    | (intro _; with_reducible exact rfl)
    | (intro m hm; change Memory.wf _ = true; exact hm)
    | intro _
    | split
    | dsimp only
    | with_reducible apply State.mk_ev

theorem State.receivePacket_ev (p : Packet) (acc : Acceptance) {s : State} (hev : Evolves s₀ s) : Evolves s₀ (State.receivePacket s p acc) := by
  unfold State.receivePacket
  with_reducible repeat' first
    | assumption | extract_lets | apply State.acceptPacket_ev | apply State.dadd_ev | apply State.duplicate_ev | apply State.sendNack_ev
    | apply ite_ev

theorem State.endPacket_ev (p : Packet) (l : List FlitError) (acc : Acceptance) {s : State} (hev : Evolves s₀ s) : Evolves s₀ (State.endPacket s p l acc) := by
  unfold State.endPacket
  repeat' first
    | with_reducible assumption
    | extract_lets
    | with_reducible apply State.dadd_ev
    | with_reducible apply State.receivePacket_ev
    | with_reducible apply State.sendNack_ev
    | with_reducible apply ite_ev
    | with_reducible apply ite_snd_ev
    | with_reducible apply ite_fst_ev
    | with_reducible apply ite_evTo
    | with_reducible apply evolvesTo_next
    | with_reducible exact Evolves.refl _
    | with_reducible apply foldl_ev
    | with_reducible apply foldl_fst_ev
    | with_reducible apply foldl_snd_ev
    | with_reducible rfl
    | with_reducible exact Nat.le_refl _
    | (intro _; with_reducible exact Nat.le_refl _)
    | (intro _; with_reducible exact rfl)
    | (intro m hm; change Memory.wf _ = true; exact hm)
    | intro _
    | split
    | dsimp only
    | with_reducible apply State.mk_ev

theorem State.travel_ev (p : Packet) (e : Trip) (acc : Acceptance) (spine : Option Nat) {s : State} (hev : Evolves s₀ s) : Evolves s₀ (State.travel s p e acc spine) := by
  unfold State.travel
  repeat' first
    | with_reducible assumption
    | extract_lets
    | with_reducible apply State.dadd_ev
    | with_reducible apply State.endPacket_ev
    | with_reducible apply State.hopError_ev
    | with_reducible apply State.out_ev
    | with_reducible apply ite_ev
    | with_reducible apply ite_snd_ev
    | with_reducible apply ite_fst_ev
    | with_reducible apply ite_evTo
    | with_reducible apply evolvesTo_next
    | with_reducible exact Evolves.refl _
    | with_reducible apply foldl_ev
    | with_reducible apply foldl_fst_ev
    | with_reducible apply foldl_snd_ev
    | with_reducible rfl
    | with_reducible exact Nat.le_refl _
    | (intro _; with_reducible exact Nat.le_refl _)
    | (intro _; with_reducible exact rfl)
    | (intro m hm; change Memory.wf _ = true; exact hm)
    | intro _
    | split
    | dsimp only
    | with_reducible apply State.mk_ev

theorem State.tookUplink_ev (p : Packet) (x : LeafStage) (u : Nat) {s : State} (hev : Evolves s₀ s) : Evolves s₀ (State.tookUplink s p x u) := by
  unfold State.tookUplink
  repeat' first
    | with_reducible assumption
    | extract_lets
    | with_reducible apply State.modFab_ev
    | with_reducible apply ite_ev
    | with_reducible apply ite_snd_ev
    | with_reducible apply ite_fst_ev
    | with_reducible apply ite_evTo
    | with_reducible apply evolvesTo_next
    | with_reducible exact Evolves.refl _
    | with_reducible apply foldl_ev
    | with_reducible apply foldl_fst_ev
    | with_reducible apply foldl_snd_ev
    | with_reducible rfl
    | with_reducible exact Nat.le_refl _
    | (intro _; with_reducible exact Nat.le_refl _)
    | (intro _; with_reducible exact rfl)
    | (intro m hm; change Memory.wf _ = true; exact hm)
    | intro _
    | split
    | dsimp only
    | with_reducible apply State.mk_ev

theorem State.sendPacket_ev (p : Packet) (e : Trip) (acc : Acceptance) {s : State} (hev : Evolves s₀ s) : Evolves s₀ (State.sendPacket s p e acc) := by
  unfold State.sendPacket
  repeat' first
    | with_reducible assumption
    | extract_lets
    | with_reducible apply State.dadd_ev
    | with_reducible apply State.noteCopy_ev
    | with_reducible apply State.tookUplink_ev
    | with_reducible apply State.travel_ev
    | with_reducible apply ite_ev
    | with_reducible apply ite_snd_ev
    | with_reducible apply ite_fst_ev
    | with_reducible apply ite_evTo
    | with_reducible apply evolvesTo_next
    | with_reducible exact Evolves.refl _
    | with_reducible apply foldl_ev
    | with_reducible apply foldl_fst_ev
    | with_reducible apply foldl_snd_ev
    | with_reducible rfl
    | with_reducible exact Nat.le_refl _
    | (intro _; with_reducible exact Nat.le_refl _)
    | (intro _; with_reducible exact rfl)
    | (intro m hm; change Memory.wf _ = true; exact hm)
    | intro _
    | split
    | dsimp only
    | with_reducible apply State.mk_ev

theorem execPacketArrival_ev (p : Arrival) (t : Nat) (s : State) : EvolvesTo s (execPacketArrival p t s) := by
  unfold execPacketArrival
  repeat' first
    | with_reducible assumption
    | extract_lets
    | with_reducible apply State.acceptHeld_ev
    | with_reducible apply State.at_ev
    | with_reducible apply State.fabricDue_ev
    | with_reducible apply State.sendPacket_ev
    | with_reducible apply ite_ev
    | with_reducible apply ite_snd_ev
    | with_reducible apply ite_fst_ev
    | with_reducible apply ite_evTo
    | with_reducible apply evolvesTo_next
    | with_reducible exact Evolves.refl _
    | with_reducible apply foldl_ev
    | with_reducible apply foldl_fst_ev
    | with_reducible apply foldl_snd_ev
    | with_reducible rfl
    | with_reducible exact Nat.le_refl _
    | (intro _; with_reducible exact Nat.le_refl _)
    | (intro _; with_reducible exact rfl)
    | (intro m hm; change Memory.wf _ = true; exact hm)
    | intro _
    | split
    | dsimp only
    | with_reducible apply State.mk_ev

theorem State.journalAcked_ev (src : Nat) {s : State} (hev : Evolves s₀ s) : Evolves s₀ (State.journalAcked s src) := by
  unfold State.journalAcked
  repeat' first
    | with_reducible assumption
    | extract_lets
    | with_reducible apply State.tryClusterBelay_ev
    | with_reducible apply ite_ev
    | with_reducible apply ite_snd_ev
    | with_reducible apply ite_fst_ev
    | with_reducible apply ite_evTo
    | with_reducible apply evolvesTo_next
    | with_reducible exact Evolves.refl _
    | with_reducible apply foldl_ev
    | with_reducible apply foldl_fst_ev
    | with_reducible apply foldl_snd_ev
    | with_reducible rfl
    | with_reducible exact Nat.le_refl _
    | (intro _; with_reducible exact Nat.le_refl _)
    | (intro _; with_reducible exact rfl)
    | (intro m hm; change Memory.wf _ = true; exact hm)
    | intro _
    | split
    | dsimp only
    | with_reducible apply State.mk_ev

theorem execAck_ev (src dst seq t : Nat) (s : State) : EvolvesTo s (execAck src dst seq t s) := by
  unfold execAck
  repeat' first
    | with_reducible assumption
    | extract_lets
    | with_reducible apply State.at_ev
    | with_reducible apply State.journalAcked_ev
    | with_reducible apply State.modFab_ev
    | with_reducible apply ite_ev
    | with_reducible apply ite_snd_ev
    | with_reducible apply ite_fst_ev
    | with_reducible apply ite_evTo
    | with_reducible apply evolvesTo_next
    | with_reducible exact Evolves.refl _
    | with_reducible apply foldl_ev
    | with_reducible apply foldl_fst_ev
    | with_reducible apply foldl_snd_ev
    | with_reducible rfl
    | with_reducible exact Nat.le_refl _
    | (intro _; with_reducible exact Nat.le_refl _)
    | (intro _; with_reducible exact rfl)
    | (intro m hm; change Memory.wf _ = true; exact hm)
    | intro _
    | split
    | dsimp only
    | with_reducible apply State.mk_ev

theorem State.unreachable_ev (p : Packet) {s : State} (hev : Evolves s₀ s) : Evolves s₀ (State.unreachable s p) := by
  unfold State.unreachable
  repeat' first
    | with_reducible assumption | extract_lets | with_reducible apply State.dadd_ev | with_reducible apply State.failCore_ev
    | with_reducible apply State.failLeaf_ev | with_reducible apply State.failSlice_ev | with_reducible apply State.reportUnit_ev
    | with_reducible apply ite_ev | split

theorem State.again_ev (u : Unacked) {s : State} (hev : Evolves s₀ s) : Evolves s₀ (State.again s u) := by
  unfold State.again
  with_reducible repeat' first
    | assumption | extract_lets | apply State.modFab_ev | apply State.resend_ev | apply State.unreachable_ev | apply ite_ev

theorem execNack_ev (src dst seq reason expected t : Nat) (s : State) : EvolvesTo s (execNack src dst seq reason expected t s) := by
  unfold execNack
  repeat' first
    | with_reducible assumption
    | extract_lets
    | with_reducible apply State.again_ev
    | with_reducible apply State.at_ev
    | with_reducible apply State.fabricDue_ev
    | with_reducible apply State.modFab_ev
    | with_reducible apply ite_ev
    | with_reducible apply ite_snd_ev
    | with_reducible apply ite_fst_ev
    | with_reducible apply ite_evTo
    | with_reducible apply evolvesTo_next
    | with_reducible exact Evolves.refl _
    | with_reducible apply foldl_ev
    | with_reducible apply foldl_fst_ev
    | with_reducible apply foldl_snd_ev
    | with_reducible rfl
    | with_reducible exact Nat.le_refl _
    | (intro _; with_reducible exact Nat.le_refl _)
    | (intro _; with_reducible exact rfl)
    | (intro m hm; change Memory.wf _ = true; exact hm)
    | intro _
    | split
    | dsimp only
    | with_reducible apply State.mk_ev

theorem execAckTimeout_ev (src dst seq t : Nat) (s : State) : EvolvesTo s (execAckTimeout src dst seq t s) := by
  unfold execAckTimeout
  repeat' first
    | with_reducible assumption
    | extract_lets
    | with_reducible apply State.again_ev
    | with_reducible apply State.at_ev
    | with_reducible apply State.fabricDue_ev
    | with_reducible apply ite_ev
    | with_reducible apply ite_snd_ev
    | with_reducible apply ite_fst_ev
    | with_reducible apply ite_evTo
    | with_reducible apply evolvesTo_next
    | with_reducible exact Evolves.refl _
    | with_reducible apply foldl_ev
    | with_reducible apply foldl_fst_ev
    | with_reducible apply foldl_snd_ev
    | with_reducible rfl
    | with_reducible exact Nat.le_refl _
    | (intro _; with_reducible exact Nat.le_refl _)
    | (intro _; with_reducible exact rfl)
    | (intro m hm; change Memory.wf _ = true; exact hm)
    | intro _
    | split
    | dsimp only
    | with_reducible apply State.mk_ev

theorem State.setWeight_ev (i u w : Nat) {s : State} (hev : Evolves s₀ s) : Evolves s₀ (State.setWeight s i u w) := by
  unfold State.setWeight
  with_reducible repeat' first | assumption | apply State.modFab_ev

theorem State.doResetWeights_ev {s : State} (hev : Evolves s₀ s) : Evolves s₀ (State.doResetWeights s).2 := by
  unfold State.doResetWeights
  with_reducible repeat' first | assumption | apply State.modFab_ev

theorem execResetWeights_ev (r : Requester) (t : Nat) (s : State) : EvolvesTo s (execResetWeights r t s) := by
  unfold execResetWeights
  with_reducible repeat' first
    | extract_lets | apply State.at_ev | apply State.doResetWeights_ev | apply State.typed_ev | apply evolvesTo_next | exact Evolves.refl _

theorem State.doRouteWeights_ev (r : Requester) (b : Bytes) {s : State} (hev : Evolves s₀ s) : Evolves s₀ (State.doRouteWeights s r b).2 := by
  unfold State.doRouteWeights
  with_reducible repeat' first | assumption | extract_lets | apply State.each_ev | apply State.setWeight_ev | apply ite_snd_ev | intro _

theorem execRouteWeights_ev (r : Requester) (data : Bytes) (t : Nat) (s : State) : EvolvesTo s (execRouteWeights r data t s) := by
  unfold execRouteWeights
  with_reducible repeat' first
    | extract_lets | apply State.at_ev | apply State.doRouteWeights_ev | apply State.typed_ev | apply evolvesTo_next | exact Evolves.refl _

theorem State.adjust_ev (i u starved : Nat) {s : State} (hev : Evolves s₀ s) : Evolves s₀ (State.adjust s i u starved) := by
  unfold State.adjust
  with_reducible repeat' first | assumption | extract_lets | apply State.setWeight_ev | apply ite_ev

theorem State.telemetry_ev (rec : Bytes) {s : State} (hev : Evolves s₀ s) : Evolves s₀ (State.telemetry s rec) := by
  unfold State.telemetry
  with_reducible repeat' first | assumption | extract_lets | apply State.dadd_ev | apply State.modFab_ev | apply State.out_ev | apply ite_ev

theorem State.takeCmap_ev (sw : Nat) (l : List Nat) {s : State} (hev : Evolves s₀ s) : Evolves s₀ (State.takeCmap s sw l) := by
  unfold State.takeCmap
  repeat' first
    | with_reducible assumption
    | extract_lets
    | with_reducible apply State.adjust_ev
    | with_reducible apply State.each_ev
    | with_reducible apply State.modFab_ev
    | with_reducible apply State.telemetry_ev
    | with_reducible apply ite_ev
    | with_reducible apply ite_snd_ev
    | with_reducible apply ite_fst_ev
    | with_reducible apply ite_evTo
    | with_reducible apply evolvesTo_next
    | with_reducible exact Evolves.refl _
    | with_reducible apply foldl_ev
    | with_reducible apply foldl_fst_ev
    | with_reducible apply foldl_snd_ev
    | with_reducible rfl
    | with_reducible exact Nat.le_refl _
    | (intro _; with_reducible exact Nat.le_refl _)
    | (intro _; with_reducible exact rfl)
    | (intro m hm; change Memory.wf _ = true; exact hm)
    | intro _
    | split
    | dsimp only
    | with_reducible apply State.mk_ev

theorem execCmapInterval_ev (sw : Nat) (ports : List (List PortSample)) (t : Nat) (s : State) : EvolvesTo s (execCmapInterval sw ports t s) := by
  unfold execCmapInterval
  repeat' first
    | with_reducible assumption
    | extract_lets
    | with_reducible apply State.at_ev
    | with_reducible apply State.modFab_ev
    | with_reducible apply State.out_ev
    | with_reducible apply State.takeCmap_ev
    | with_reducible apply ite_ev
    | with_reducible apply ite_snd_ev
    | with_reducible apply ite_fst_ev
    | with_reducible apply ite_evTo
    | with_reducible apply evolvesTo_next
    | with_reducible exact Evolves.refl _
    | with_reducible apply foldl_ev
    | with_reducible apply foldl_fst_ev
    | with_reducible apply foldl_snd_ev
    | with_reducible rfl
    | with_reducible exact Nat.le_refl _
    | (intro _; with_reducible exact Nat.le_refl _)
    | (intro _; with_reducible exact rfl)
    | (intro m hm; change Memory.wf _ = true; exact hm)
    | intro _
    | split
    | dsimp only
    | with_reducible apply State.mk_ev

theorem execFabricClockChange_ev (h mhz t : Nat) (s : State) : EvolvesTo s (execFabricClockChange h mhz t s) := by
  unfold execFabricClockChange
  with_reducible repeat' first
    | extract_lets | apply State.at_ev | apply State.modHalf_ev | apply ite_ev | apply evolvesTo_next | exact Evolves.refl _

theorem State.actOn_ev (rep : FaultReport) {s : State} (hev : Evolves s₀ s) : Evolves s₀ (State.actOn s rep) := by
  unfold State.actOn
  extract_lets core slice
  generalize core = y, slice = z
  refine ite_ev (State.clearStore_ev _ hev) (ite_ev (State.restartController_ev _ hev) (ite_ev (State.loseLeaf_ev _ hev) (ite_ev ?_ (ite_ev ?_
    (ite_ev (State.loseSubchannel_ev _ hev) (ite_ev (State.excludeEnds_ev _ _ hev) hev))))))
  · cases y
    · exact hev
    · exact State.declareFailed_ev _ hev
  · cases z
    · exact hev
    · exact State.markSlice_ev _ _ _ hev

theorem State.doFault_ev (rep : FaultReport) {s : State} (hev : Evolves s₀ s) : Evolves s₀ (State.doFault s rep) := by
  unfold State.doFault
  repeat' first
    | with_reducible assumption
    | extract_lets
    | with_reducible apply State.actOn_ev
    | with_reducible apply State.report_ev
    | with_reducible apply State.restartMgmt_ev
    | with_reducible apply ite_ev
    | with_reducible apply ite_snd_ev
    | with_reducible apply ite_fst_ev
    | with_reducible apply ite_evTo
    | with_reducible apply evolvesTo_next
    | with_reducible exact Evolves.refl _
    | with_reducible apply foldl_ev
    | with_reducible apply foldl_fst_ev
    | with_reducible apply foldl_snd_ev
    | with_reducible rfl
    | with_reducible exact Nat.le_refl _
    | (intro _; with_reducible exact Nat.le_refl _)
    | (intro _; with_reducible exact rfl)
    | (intro m hm; change Memory.wf _ = true; exact hm)
    | intro _
    | split
    | dsimp only
    | with_reducible apply State.mk_ev

theorem execFault_ev (rep : FaultReport) (t : Nat) (s : State) : EvolvesTo s (execFault rep t s) := by
  unfold execFault
  with_reducible repeat' first | extract_lets | apply State.at_ev | apply State.doFault_ev | apply evolvesTo_next | exact Evolves.refl _

end Sys2Proof.Machine
end

