-- ==== Sys2Proof/Laws/EvolveRemote.lean ====
section
/-!
SUPPORT. What no command does: the operations of Remote.lean (see Evolve.lean).
-/

namespace Sys2Proof.Machine

variable {s₀ : State}

theorem State.losePeer_ev (n k : Nat) {s : State} (hev : Evolves s₀ s) : Evolves s₀ (State.losePeer s n k) := by
  unfold State.losePeer
  with_reducible repeat' first | assumption | extract_lets | apply State.modPart_ev | apply State.warn_ev | apply ite_ev

theorem State.peerFailed_ev (n k p : Nat) {s : State} (hev : Evolves s₀ s) : Evolves s₀ (State.peerFailed s n k p) := by
  unfold State.peerFailed
  with_reducible repeat' first | assumption | extract_lets | apply State.losePeer_ev | apply State.modPart_ev | apply ite_ev

theorem State.peerOk_ev (n k : Nat) {s : State} (hev : Evolves s₀ s) : Evolves s₀ (State.peerOk s n k) := by
  unfold State.peerOk
  with_reducible repeat' first | assumption | apply State.modPart_ev

theorem State.dropRemote_ev (n k p cnt : Nat) {s : State} (hev : Evolves s₀ s) : Evolves s₀ (State.dropRemote s n k p cnt) := by
  unfold State.dropRemote
  repeat' first
    | with_reducible assumption
    | extract_lets
    | with_reducible apply State.countRem_ev
    | with_reducible apply State.mark_ev
    | with_reducible apply ite_ev
    | with_reducible apply ite_snd_ev
    | with_reducible apply ite_fst_ev
    | with_reducible apply ite_evTo
    | with_reducible apply evolvesTo_next
    | with_reducible exact Evolves.refl _
    | with_reducible apply foldl_ev
    | with_reducible apply foldl_fst_ev
    | with_reducible apply foldl_snd_ev
    | with_reducible rfl
    | with_reducible exact Nat.le_refl _
    | (intro _; with_reducible exact Nat.le_refl _)
    | (intro _; with_reducible exact rfl)
    | (intro m hm; change Memory.wf _ = true; exact hm)
    | intro _
    | split
    | dsimp only
    | with_reducible apply State.mk_ev

theorem execRemoteHaul_ev (e id t : Nat) (s : State) : EvolvesTo s (execRemoteHaul e id t s) := by
  unfold execRemoteHaul
  repeat' first
    | with_reducible assumption
    | extract_lets
    | with_reducible apply State.ackHaul_ev
    | with_reducible apply State.arriveHaul_ev
    | with_reducible apply State.at_ev
    | with_reducible apply ite_ev
    | with_reducible apply ite_snd_ev
    | with_reducible apply ite_fst_ev
    | with_reducible apply ite_evTo
    | with_reducible apply evolvesTo_next
    | with_reducible exact Evolves.refl _
    | with_reducible apply foldl_ev
    | with_reducible apply foldl_fst_ev
    | with_reducible apply foldl_snd_ev
    | with_reducible rfl
    | with_reducible exact Nat.le_refl _
    | (intro _; with_reducible exact Nat.le_refl _)
    | (intro _; with_reducible exact rfl)
    | (intro m hm; change Memory.wf _ = true; exact hm)
    | intro _
    | split
    | dsimp only
    | with_reducible apply State.mk_ev

theorem State.sendRemote_ev (e n k p : Nat) (l : List RemoteRec) {s : State} (hev : Evolves s₀ s) : Evolves s₀ (State.sendRemote s e n k p l) := by
  unfold State.sendRemote
  repeat' first
    | with_reducible assumption
    | extract_lets
    | with_reducible apply State.countRem_ev
    | with_reducible apply State.dropRemote_ev
    | with_reducible apply State.modRem_ev
    | with_reducible apply State.out_ev
    | with_reducible apply State.peerFailed_ev
    | with_reducible apply ite_ev
    | with_reducible apply ite_snd_ev
    | with_reducible apply ite_fst_ev
    | with_reducible apply ite_evTo
    | with_reducible apply evolvesTo_next
    | with_reducible exact Evolves.refl _
    | with_reducible apply foldl_ev
    | with_reducible apply foldl_fst_ev
    | with_reducible apply foldl_snd_ev
    | with_reducible rfl
    | with_reducible exact Nat.le_refl _
    | (intro _; with_reducible exact Nat.le_refl _)
    | (intro _; with_reducible exact rfl)
    | (intro m hm; change Memory.wf _ = true; exact hm)
    | intro _
    | split
    | dsimp only
    | with_reducible apply State.mk_ev

theorem execRemoteTransmit_ev (e n peer t : Nat) (s : State) : EvolvesTo s (execRemoteTransmit e n peer t s) := by
  unfold execRemoteTransmit
  repeat' first
    | extract_lets | with_reducible apply State.at_ev | with_reducible apply State.modRem_ev | with_reducible apply State.sendRemote_ev
    | with_reducible apply ite_ev | with_reducible apply evolvesTo_next | with_reducible exact Evolves.refl _ | split

theorem execRemoteSendFailed_ev (n peer pitch nrec t : Nat) (s : State) : EvolvesTo s (execRemoteSendFailed n peer pitch nrec t s) := by
  unfold execRemoteSendFailed
  with_reducible repeat' first
    | extract_lets | apply State.at_ev | apply State.dropRemote_ev | apply State.modRem_ev | apply State.peerFailed_ev | apply ite_ev
    | apply evolvesTo_next | exact Evolves.refl _

theorem execRoceAck_ev (n peer t : Nat) (s : State) : EvolvesTo s (execRoceAck n peer t s) := by
  unfold execRoceAck
  repeat' first
    | extract_lets | with_reducible apply State.at_ev | with_reducible apply State.modRem_ev | with_reducible apply State.peerOk_ev
    | with_reducible apply evolvesTo_next | with_reducible exact Evolves.refl _ | split

theorem State.messageMarked_ev (path : MessagePath) (m : Bytes) {s : State} (hev : Evolves s₀ s) : Evolves s₀ (State.messageMarked s path m) := by
  unfold State.messageMarked
  repeat' first
    | with_reducible assumption
    | extract_lets
    | with_reducible apply State.ecnMarked_ev
    | with_reducible apply ite_ev
    | with_reducible apply ite_snd_ev
    | with_reducible apply ite_fst_ev
    | with_reducible apply ite_evTo
    | with_reducible apply evolvesTo_next
    | with_reducible exact Evolves.refl _
    | with_reducible apply foldl_ev
    | with_reducible apply foldl_fst_ev
    | with_reducible apply foldl_snd_ev
    | with_reducible rfl
    | with_reducible exact Nat.le_refl _
    | (intro _; with_reducible exact Nat.le_refl _)
    | (intro _; with_reducible exact rfl)
    | (intro m hm; change Memory.wf _ = true; exact hm)
    | intro _
    | split
    | dsimp only
    | with_reducible apply State.mk_ev

theorem execRemoteMessage_ev (path : MessagePath) (msg : Bytes) (t : Nat) (s : State) : EvolvesTo s (execRemoteMessage path msg t s) := by
  unfold execRemoteMessage
  repeat' first
    | with_reducible assumption
    | extract_lets
    | with_reducible apply State.at_ev
    | with_reducible apply State.bump_ev
    | with_reducible apply State.countRem_ev
    | with_reducible apply State.messageMarked_ev
    | with_reducible apply State.modRem_ev
    | with_reducible apply ite_ev
    | with_reducible apply ite_snd_ev
    | with_reducible apply ite_fst_ev
    | with_reducible apply ite_evTo
    | with_reducible apply evolvesTo_next
    | with_reducible exact Evolves.refl _
    | with_reducible apply foldl_ev
    | with_reducible apply foldl_fst_ev
    | with_reducible apply foldl_snd_ev
    | with_reducible rfl
    | with_reducible exact Nat.le_refl _
    | (intro _; with_reducible exact Nat.le_refl _)
    | (intro _; with_reducible exact rfl)
    | (intro m hm; change Memory.wf _ = true; exact hm)
    | intro _
    | split
    | dsimp only
    | with_reducible apply State.mk_ev

theorem State.injectOne_ev (e n c : Nat) (x : Nat × RemoteRec) {s : State} (hev : Evolves s₀ s) : Evolves s₀ (State.injectOne s e n c x).1 := by
  unfold State.injectOne
  repeat' first
    | with_reducible assumption
    | extract_lets
    | with_reducible apply State.countRem_ev
    | with_reducible apply ite_ev
    | with_reducible apply ite_snd_ev
    | with_reducible apply ite_fst_ev
    | with_reducible apply ite_evTo
    | with_reducible apply evolvesTo_next
    | with_reducible exact Evolves.refl _
    | with_reducible apply foldl_ev
    | with_reducible apply foldl_fst_ev
    | with_reducible apply foldl_snd_ev
    | with_reducible rfl
    | with_reducible exact Nat.le_refl _
    | (intro _; with_reducible exact Nat.le_refl _)
    | (intro _; with_reducible exact rfl)
    | (intro m hm; change Memory.wf _ = true; exact hm)
    | intro _
    | split
    | dsimp only
    | with_reducible apply State.mk_ev

theorem execRemoteInject_ev (e n t : Nat) (s : State) : EvolvesTo s (execRemoteInject e n t s) := by
  unfold execRemoteInject
  with_reducible repeat' first
    | extract_lets | apply State.at_ev | apply State.injectOne_ev | apply State.modRem_ev | apply State.pushHaul_ev | apply ite_ev
    | apply evolvesTo_next | exact Evolves.refl _ | apply foldl_ev | apply foldl_fst_ev | intro _

end Sys2Proof.Machine
end

