-- ==== Sys2Proof/Laws/EvolvePorts.lean ====
section
/-!
SUPPORT. What no command does: the operations of Ports.lean (see Evolve.lean).
-/

namespace Sys2Proof.Machine

variable {s₀ : State}

theorem State.resetFunction_ev (f : Nat) {s : State} (hev : Evolves s₀ s) : Evolves s₀ (State.resetFunction s f) := by
  unfold State.resetFunction
  repeat' first
    | with_reducible assumption
    | extract_lets
    | with_reducible apply State.abortDescs_ev
    | with_reducible apply State.each_ev
    | with_reducible apply State.forget_ev
    | with_reducible apply State.modFunc_ev
    | with_reducible apply State.modMailbox_ev
    | with_reducible apply State.modPart_ev
    | with_reducible apply State.modPow_ev
    | with_reducible apply State.notify_ev
    | with_reducible apply State.raiseCause_ev
    | with_reducible apply State.resetEndpoint_ev
    | with_reducible apply ite_ev
    | with_reducible apply ite_snd_ev
    | with_reducible apply ite_fst_ev
    | with_reducible apply ite_evTo
    | with_reducible apply evolvesTo_next
    | with_reducible exact Evolves.refl _
    | with_reducible apply foldl_ev
    | with_reducible apply foldl_fst_ev
    | with_reducible apply foldl_snd_ev
    | with_reducible rfl
    | with_reducible exact Nat.le_refl _
    | (intro _; with_reducible exact Nat.le_refl _)
    | (intro _; with_reducible exact rfl)
    | (intro m hm; change Memory.wf _ = true; exact hm)
    | intro _
    | split
    | dsimp only
    | with_reducible apply State.mk_ev

theorem execFunctionLevelReset_ev (f : FuncReset) (t : Nat) (s : State) : EvolvesTo s (execFunctionLevelReset f t s) := by
  unfold execFunctionLevelReset
  repeat' first
    | with_reducible assumption
    | extract_lets
    | with_reducible apply State.at_ev
    | with_reducible apply State.modFunc_ev
    | with_reducible apply State.resetFunction_ev
    | with_reducible apply ite_ev
    | with_reducible apply ite_snd_ev
    | with_reducible apply ite_fst_ev
    | with_reducible apply ite_evTo
    | with_reducible apply evolvesTo_next
    | with_reducible exact Evolves.refl _
    | with_reducible apply foldl_ev
    | with_reducible apply foldl_fst_ev
    | with_reducible apply foldl_snd_ev
    | with_reducible rfl
    | with_reducible exact Nat.le_refl _
    | (intro _; with_reducible exact Nat.le_refl _)
    | (intro _; with_reducible exact rfl)
    | (intro m hm; change Memory.wf _ = true; exact hm)
    | intro _
    | split
    | dsimp only
    | with_reducible apply State.mk_ev

theorem State.quiesce_ev (n : Nat) {s : State} (hev : Evolves s₀ s) : Evolves s₀ (State.quiesce s n) := by
  unfold State.quiesce
  with_reducible repeat' first | assumption | extract_lets | apply State.disableBelay_ev | apply State.modPart_ev | apply ite_ev

theorem State.hostPolicy_ev (n : Nat) {s : State} (hev : Evolves s₀ s) : Evolves s₀ (State.hostPolicy s n) := by
  unfold State.hostPolicy
  repeat' first
    | with_reducible assumption
    | extract_lets
    | with_reducible apply State.modPart_ev
    | with_reducible apply State.quiesce_ev
    | with_reducible apply State.startHold_ev
    | with_reducible apply ite_ev
    | with_reducible apply ite_snd_ev
    | with_reducible apply ite_fst_ev
    | with_reducible apply ite_evTo
    | with_reducible apply evolvesTo_next
    | with_reducible exact Evolves.refl _
    | with_reducible apply foldl_ev
    | with_reducible apply foldl_fst_ev
    | with_reducible apply foldl_snd_ev
    | with_reducible rfl
    | with_reducible exact Nat.le_refl _
    | (intro _; with_reducible exact Nat.le_refl _)
    | (intro _; with_reducible exact rfl)
    | (intro m hm; change Memory.wf _ = true; exact hm)
    | intro _
    | split
    | dsimp only
    | with_reducible apply State.mk_ev

theorem State.hostLossOf_ev (f : Nat) {s : State} (hev : Evolves s₀ s) : Evolves s₀ (State.hostLossOf s f) := by
  unfold State.hostLossOf
  with_reducible repeat' first
    | assumption | extract_lets | apply State.dadd_ev | apply State.each_ev | apply State.hostPolicy_ev | apply State.modFunc_ev
    | apply State.modMailbox_ev | apply State.resetEndpoint_ev | apply State.warn_ev | intro _

theorem execPerstN_ev (pin : Bool) (t : Nat) (s : State) : EvolvesTo s (execPerstN pin t s) := by
  unfold execPerstN
  with_reducible repeat' first
    | extract_lets | apply State.at_ev | apply State.dclear_ev | apply State.each_ev | apply State.hostLossOf_ev | apply State.modFunc_ev
    | apply State.modPorts_ev | apply State.resetFunction_ev | apply evolvesTo_next | exact Evolves.refl _ | intro _

theorem execPcieLinkUp_ev (width speed : Nat) (vfs : FuncSettings) (s : State) : EvolvesTo s (execPcieLinkUp width speed vfs s) := by
  unfold execPcieLinkUp
  repeat' first
    | with_reducible assumption
    | extract_lets
    | with_reducible apply State.dset_ev
    | with_reducible apply State.modPorts_ev
    | with_reducible apply State.setFuncs_ev
    | with_reducible apply ite_ev
    | with_reducible apply ite_snd_ev
    | with_reducible apply ite_fst_ev
    | with_reducible apply ite_evTo
    | with_reducible apply evolvesTo_next
    | with_reducible exact Evolves.refl _
    | with_reducible apply foldl_ev
    | with_reducible apply foldl_fst_ev
    | with_reducible apply foldl_snd_ev
    | with_reducible rfl
    | with_reducible exact Nat.le_refl _
    | (intro _; with_reducible exact Nat.le_refl _)
    | (intro _; with_reducible exact rfl)
    | (intro m hm; change Memory.wf _ = true; exact hm)
    | intro _
    | split
    | dsimp only
    | with_reducible apply State.mk_ev

theorem execHeartbeatTimeout_ev (f t : Nat) (s : State) : EvolvesTo s (execHeartbeatTimeout f t s) := by
  unfold execHeartbeatTimeout
  with_reducible repeat' first
    | extract_lets | apply State.at_ev | apply State.hostLossOf_ev | apply ite_ev | apply evolvesTo_next | exact Evolves.refl _

theorem State.endLoss_ev (f : Nat) {s : State} (hev : Evolves s₀ s) : Evolves s₀ (State.endLoss s f) := by
  unfold State.endLoss
  with_reducible repeat' first
    | assumption | extract_lets | apply State.each_ev | apply State.modFunc_ev | apply State.modPart_ev | apply State.settleHold_ev
    | apply ite_ev | intro _

theorem State.doHeartbeat_ev (f w : Nat) {s : State} (hev : Evolves s₀ s) : Evolves s₀ (State.doHeartbeat s f w) := by
  unfold State.doHeartbeat
  with_reducible repeat' first | assumption | extract_lets | apply State.endLoss_ev | apply State.modFunc_ev | apply ite_ev

theorem execContinueExpiry_ev (n t : Nat) (s : State) : EvolvesTo s (execContinueExpiry n t s) := by
  unfold execContinueExpiry
  with_reducible repeat' first
    | extract_lets | apply State.at_ev | apply State.quiesce_ev | apply ite_ev | apply evolvesTo_next | exact Evolves.refl _

theorem execIntCause_ev (f : Nat) (mask : Bool) (w : Nat) (s : State) : EvolvesTo s (execIntCause f mask w s) := by
  unfold execIntCause
  with_reducible repeat' first
    | extract_lets | apply State.modFunc_ev | apply State.outs_ev | apply ite_ev | apply evolvesTo_next | exact Evolves.refl _

theorem execQnotify_ev (f k w : Nat) (s : State) : EvolvesTo s (execQnotify f k w s) := by
  unfold execQnotify
  with_reducible repeat' first | extract_lets | apply State.modFunc_ev | apply ite_ev | apply evolvesTo_next | exact Evolves.refl _

theorem State.modOp_ev (f k : Nat) (g : OpSlot → OpSlot) {s : State} (hev : Evolves s₀ s) : Evolves s₀ (State.modOp s f k g) := by
  unfold State.modOp
  with_reducible repeat' first | assumption | apply State.modFunc_ev

theorem State.runBlock_ev (h : OpHead) (b rest : Bytes) {s : State} (hev : Evolves s₀ s) : Evolves s₀ (State.runBlock s h b rest) := by
  unfold State.runBlock
  extract_lets op a0 a1 i bad none0 bare
  have hb : Evolves s₀ bad := State.finish_ev _ _ _ _ _ _ _ hev
  clear_value bad op a0 a1 none0 bare
  apply ite_ev hb
  split
  · exact ite_ev (State.doCreateQ_ev _ _ hev) hb
  · exact ite_ev (State.doDestroyQ_ev _ hev) hb
  · exact ite_ev (State.doAttach_ev _ _ _ hev) hb
  · exact ite_ev (State.doDetach_ev _ hev) hb
  · exact ite_ev (State.doSend_ev _ _ hev) hb
  · exact ite_ev (State.doReceive_ev _ _ _ hev) hb
  · exact ite_ev (State.doReceiveGroup_ev _ _ _ hev) hb
  · exact ite_ev (State.doGroupSet_ev _ _ _ hev) hb
  · exact ite_ev (State.doAdd_ev _ _ _ hev) hb
  · exact ite_ev (State.doReadClear_ev _ _ _ hev) hb
  · exact ite_ev (State.doSyncCreate_ev _ _ _ hev) hb
  · exact ite_ev (State.doSyncDestroy_ev _ hev) hb
  · exact ite_ev (State.doCadd_ev _ _ hev) hb
  · exact ite_ev (State.doCread_ev _ hev) hb
  · exact ite_ev (State.doCset_ev _ _ hev) hb
  · exact ite_ev (State.doCwait_ev _ _ hev) hb
  · exact ite_ev (State.doPost_ev _ _ hev) hb
  · exact ite_ev (State.doTake_ev _ _ hev) hb
  · exact ite_ev (State.doArrive_ev _ hev) hb
  · exact ite_ev (State.doBreak_ev _ hev) hb
  · exact ite_ev (State.doBarrierReset_ev _ hev) hb
  · exact hb

theorem State.issueBlock_ev (f k : Nat) (b : Bytes) {s : State} (hev : Evolves s₀ s) : Evolves s₀ (State.issueBlock s f k b) := by
  unfold State.issueBlock
  with_reducible repeat' first | assumption | extract_lets | apply State.runBlock_ev | apply State.settle_ev

theorem execSlotDone_ev (f k status value t : Nat) (s : State) : EvolvesTo s (execSlotDone f k status value t s) := by
  unfold execSlotDone
  with_reducible repeat' first
    | extract_lets | apply State.at_ev | apply State.modOp_ev | apply State.raiseCause_ev | apply ite_ev | apply evolvesTo_next
    | exact Evolves.refl _

theorem State.timePortDown_ev (code : Nat) {s : State} (hev : Evolves s₀ s) : Evolves s₀ (State.timePortDown s code) := by
  unfold State.timePortDown
  with_reducible repeat' first | assumption | extract_lets | apply State.holdover_ev | apply ite_ev

theorem State.sendReqs_ev (p : Nat) {s : State} (hev : Evolves s₀ s) : Evolves s₀ (State.sendReqs s p) := by
  unfold State.sendReqs
  with_reducible repeat' first | assumption | extract_lets | apply State.outs_ev

theorem State.doPortEnable_ev (p v : Nat) {s : State} (hev : Evolves s₀ s) : Evolves s₀ (State.doPortEnable s p v).2 := by
  unfold State.doPortEnable
  with_reducible repeat' first
    | assumption | extract_lets | apply State.dclear_ev | apply State.dset_ev | apply State.modDataPort_ev | apply State.portEvent_ev
    | apply State.timePortDown_ev | apply ite_ev | apply ite_snd_ev

theorem execPortEnable_ev (r : Requester) (p v t : Nat) (s : State) : EvolvesTo s (execPortEnable r p v t s) := by
  unfold execPortEnable
  with_reducible repeat' first
    | extract_lets | apply State.at_ev | apply State.doPortEnable_ev | apply State.typed_ev | apply ite_ev | apply evolvesTo_next
    | exact Evolves.refl _

theorem execDataPortLinkUp_ev (p sub lanes : Nat) (s : State) : EvolvesTo s (execDataPortLinkUp p sub lanes s) := by
  unfold execDataPortLinkUp
  with_reducible repeat' first
    | extract_lets | apply State.dset_ev | apply State.modDataPort_ev | apply State.portEvent_ev | apply State.sendReqs_ev
    | apply State.timePortDown_ev | apply ite_ev | apply evolvesTo_next | exact Evolves.refl _

theorem execPortRetrain_ev (p fec t : Nat) (s : State) : EvolvesTo s (execPortRetrain p fec t s) := by
  unfold execPortRetrain
  with_reducible repeat' first
    | extract_lets | apply State.at_ev | apply State.dadd_ev | apply State.dadd64_ev | apply State.modDataPort_ev | apply State.portEvent_ev
    | apply ite_ev | apply evolvesTo_next | exact Evolves.refl _

theorem execCmReq_ev (p service peerId qpn t : Nat) (s : State) : EvolvesTo s (execCmReq p service peerId qpn t s) := by
  unfold execCmReq
  with_reducible repeat' first
    | extract_lets | apply State.at_ev | apply State.dadd_ev | apply State.modDataPort_ev | apply State.out_ev | apply ite_ev
    | apply evolvesTo_next | exact Evolves.refl _

theorem execCmMessage_ev (p : Nat) (kind : CmKind) (qpn : Nat) (s : State) : EvolvesTo s (execCmMessage p kind qpn s) := by
  unfold execCmMessage
  repeat' first
    | extract_lets | with_reducible apply State.modDataPort_ev | with_reducible apply State.out_ev | with_reducible apply ite_ev
    | with_reducible apply evolvesTo_next | with_reducible exact Evolves.refl _ | split

theorem execCongestionNotification_ev (p qpn : Nat) (s : State) : EvolvesTo s (execCongestionNotification p qpn s) := by
  unfold execCongestionNotification
  with_reducible repeat' first | extract_lets | apply State.modDataPort_ev | apply ite_ev | apply evolvesTo_next | exact Evolves.refl _

theorem execRdmaWrite_ev (p : Nat) (qpn : LoadPath) (rkey addr : Nat) (data : Bytes) (t : Nat) (s : State) : EvolvesTo s (execRdmaWrite p qpn rkey addr data t s) := by
  unfold execRdmaWrite
  repeat' first
    | with_reducible assumption
    | extract_lets
    | with_reducible apply State.at_ev
    | with_reducible apply State.dadd_ev
    | with_reducible apply State.ecnMarked_ev
    | with_reducible apply State.lpWrite_ev
    | with_reducible apply State.out_ev
    | with_reducible apply ite_ev
    | with_reducible apply ite_snd_ev
    | with_reducible apply ite_fst_ev
    | with_reducible apply ite_evTo
    | with_reducible apply evolvesTo_next
    | with_reducible exact Evolves.refl _
    | with_reducible apply foldl_ev
    | with_reducible apply foldl_fst_ev
    | with_reducible apply foldl_snd_ev
    | with_reducible rfl
    | with_reducible exact Nat.le_refl _
    | (intro _; with_reducible exact Nat.le_refl _)
    | (intro _; with_reducible exact rfl)
    | (intro m hm; change Memory.wf _ = true; exact hm)
    | intro _
    | split
    | dsimp only
    | with_reducible apply State.mk_ev

theorem execIcmpv6Message_ev (p : Nat) (kind : IcmpKind) (data : Bytes) (s : State) : EvolvesTo s (execIcmpv6Message p kind data s) := by
  unfold execIcmpv6Message
  repeat' first
    | extract_lets | with_reducible apply State.out_ev | with_reducible apply ite_ev | with_reducible apply evolvesTo_next
    | with_reducible exact Evolves.refl _ | split

theorem State.ropeSend_ev (type port : Nat) (via : List Nat) {s : State} (hev : Evolves s₀ s) : Evolves s₀ (State.ropeSend s type port via) := by
  unfold State.ropeSend
  with_reducible repeat' first | assumption | extract_lets | apply State.modPorts_ev | apply State.outs_ev

theorem State.bridgePort_ev (p : Nat) {s : State} (hev : Evolves s₀ s) : Evolves s₀ (State.bridgePort s p) := by
  unfold State.bridgePort
  repeat' first
    | with_reducible assumption
    | extract_lets
    | with_reducible apply State.modPorts_ev
    | with_reducible apply State.outs_ev
    | with_reducible apply ite_ev
    | with_reducible apply ite_snd_ev
    | with_reducible apply ite_fst_ev
    | with_reducible apply ite_evTo
    | with_reducible apply evolvesTo_next
    | with_reducible exact Evolves.refl _
    | with_reducible apply foldl_ev
    | with_reducible apply foldl_fst_ev
    | with_reducible apply foldl_snd_ev
    | with_reducible rfl
    | with_reducible exact Nat.le_refl _
    | (intro _; with_reducible exact Nat.le_refl _)
    | (intro _; with_reducible exact rfl)
    | (intro m hm; change Memory.wf _ = true; exact hm)
    | intro _
    | split
    | dsimp only
    | with_reducible apply State.mk_ev

theorem State.bridgeDue_ev  {s : State} (hev : Evolves s₀ s) : Evolves s₀ (State.bridgeDue s) := by
  unfold State.bridgeDue
  repeat' first
    | with_reducible assumption
    | extract_lets
    | with_reducible apply State.bridgePort_ev
    | with_reducible apply ite_ev
    | with_reducible apply ite_snd_ev
    | with_reducible apply ite_fst_ev
    | with_reducible apply ite_evTo
    | with_reducible apply evolvesTo_next
    | with_reducible exact Evolves.refl _
    | with_reducible apply foldl_ev
    | with_reducible apply foldl_fst_ev
    | with_reducible apply foldl_snd_ev
    | with_reducible rfl
    | with_reducible exact Nat.le_refl _
    | (intro _; with_reducible exact Nat.le_refl _)
    | (intro _; with_reducible exact rfl)
    | (intro m hm; change Memory.wf _ = true; exact hm)
    | intro _
    | split
    | dsimp only
    | with_reducible apply State.mk_ev

theorem execFieldFrame_ev (p dst : Nat) (cls : FrameClass) (len : Nat) (body : Bytes) (t : Nat) (s : State) : EvolvesTo s (execFieldFrame p dst cls len body t s) := by
  unfold execFieldFrame
  repeat' first
    | with_reducible assumption
    | extract_lets
    | with_reducible apply State.at_ev
    | with_reducible apply State.bridgeDue_ev
    | with_reducible apply State.dadd_ev
    | with_reducible apply State.modPorts_ev
    | with_reducible apply State.takeFree_ev
    | with_reducible apply ite_ev
    | with_reducible apply ite_snd_ev
    | with_reducible apply ite_fst_ev
    | with_reducible apply ite_evTo
    | with_reducible apply evolvesTo_next
    | with_reducible exact Evolves.refl _
    | with_reducible apply foldl_ev
    | with_reducible apply foldl_fst_ev
    | with_reducible apply foldl_snd_ev
    | with_reducible rfl
    | with_reducible exact Nat.le_refl _
    | (intro _; with_reducible exact Nat.le_refl _)
    | (intro _; with_reducible exact rfl)
    | (intro m hm; change Memory.wf _ = true; exact hm)
    | intro _
    | split
    | dsimp only
    | with_reducible apply State.mk_ev

theorem execFieldLinkDown_ev (p t : Nat) (s : State) : EvolvesTo s (execFieldLinkDown p t s) := by
  unfold execFieldLinkDown
  with_reducible repeat' first
    | extract_lets | apply State.at_ev | apply State.dadd_ev | apply State.dset_ev | apply State.portEvent_ev | apply State.ropeSend_ev
    | apply State.timePortDown_ev | apply ite_ev | apply evolvesTo_next | exact Evolves.refl _

theorem execFieldLinkUp_ev (p t : Nat) (s : State) : EvolvesTo s (execFieldLinkUp p t s) := by
  unfold execFieldLinkUp
  with_reducible repeat' first
    | extract_lets | apply State.at_ev | apply State.dset_ev | apply State.portEvent_ev | apply ite_ev | apply evolvesTo_next
    | exact Evolves.refl _

theorem State.takeAddress_ev (a : Nat) {s : State} (hev : Evolves s₀ s) : Evolves s₀ (State.takeAddress s a) := by
  unfold State.takeAddress
  with_reducible repeat' first | assumption | extract_lets | apply State.dset_ev | apply ite_ev

theorem execRopeCheck_ev (primary : Bool) (hops t : Nat) (s : State) : EvolvesTo s (execRopeCheck primary hops t s) := by
  unfold execRopeCheck
  with_reducible repeat' first
    | extract_lets | apply State.at_ev | apply State.modPorts_ev | apply State.takeAddress_ev | apply ite_ev | apply evolvesTo_next
    | exact Evolves.refl _

theorem State.readdress_ev {s : State} (hev : Evolves s₀ s) : Evolves s₀ (State.readdress s) := by
  unfold State.readdress
  with_reducible repeat' first | assumption | extract_lets | apply State.dset_ev | apply State.modPorts_ev | apply State.takeAddress_ev

theorem execCheckTimeout_ev (t : Nat) (s : State) : EvolvesTo s (execCheckTimeout t s) := by
  unfold execCheckTimeout
  with_reducible repeat' first
    | extract_lets | apply State.at_ev | apply State.dset_ev | apply State.portEvent_ev | apply State.warn_ev | apply ite_ev
    | apply evolvesTo_next | exact Evolves.refl _

theorem State.nodeLost_ev (a : Nat) {s : State} (hev : Evolves s₀ s) : Evolves s₀ (State.nodeLost s a) := by
  unfold State.nodeLost
  with_reducible repeat' first
    | assumption | extract_lets | apply State.each_ev | apply State.losePeer_ev | apply State.modPart_ev | apply State.warn_ev | intro _

theorem State.nodeBack_ev (a : Nat) {s : State} (hev : Evolves s₀ s) : Evolves s₀ (State.nodeBack s a) := by
  unfold State.nodeBack
  with_reducible repeat' first
    | assumption | extract_lets | apply State.each_ev | apply State.modPart_ev | apply State.sendReqs_ev | intro _

theorem execRopeState_ev (rope present lost t : Nat) (s : State) : EvolvesTo s (execRopeState rope present lost t s) := by
  unfold execRopeState
  with_reducible repeat' first
    | extract_lets | apply State.at_ev | apply State.dset_ev | apply State.each_ev | apply State.nodeBack_ev | apply State.nodeLost_ev
    | apply State.portEvent_ev | apply ite_ev | apply evolvesTo_next | exact Evolves.refl _ | intro _

theorem execAnnounceTimer_ev (t : Nat) (s : State) : EvolvesTo s (execAnnounceTimer t s) := by
  unfold execAnnounceTimer
  with_reducible repeat' first
    | extract_lets | apply State.at_ev | apply State.modPorts_ev | apply State.ropeSend_ev | apply ite_ev | apply evolvesTo_next
    | exact Evolves.refl _

theorem execAnnounce_ev (node mac t : Nat) (s : State) : EvolvesTo s (execAnnounce node mac t s) := by
  unfold execAnnounce
  with_reducible repeat' first
    | extract_lets | apply State.at_ev | apply State.dset_ev | apply State.warn_ev | apply ite_ev | apply evolvesTo_next
    | exact Evolves.refl _

theorem State.doObjEnable_ev (j v : Nat) {s : State} (hev : Evolves s₀ s) : Evolves s₀ (State.doObjEnable s j v).2 := by
  unfold State.doObjEnable
  with_reducible repeat' first | assumption | extract_lets | apply State.dset_ev | apply ite_snd_ev

theorem execObjEnable_ev (r : Requester) (j v t : Nat) (s : State) : EvolvesTo s (execObjEnable r j v t s) := by
  unfold execObjEnable
  with_reducible repeat' first
    | extract_lets | apply State.at_ev | apply State.doObjEnable_ev | apply State.typed_ev | apply ite_ev | apply evolvesTo_next
    | exact Evolves.refl _

theorem State.objSend_ev (q : Nat) (b : Bytes) {s : State} (hev : Evolves s₀ s) : Evolves s₀ (State.objSend s q b).2 := by
  unfold State.objSend
  repeat' first
    | with_reducible assumption
    | extract_lets
    | with_reducible apply State.place_ev
    | with_reducible apply State.qadd64_ev
    | with_reducible apply State.settle_ev
    | with_reducible apply ite_ev
    | with_reducible apply ite_snd_ev
    | with_reducible apply ite_fst_ev
    | with_reducible apply ite_evTo
    | with_reducible apply evolvesTo_next
    | with_reducible exact Evolves.refl _
    | with_reducible apply foldl_ev
    | with_reducible apply foldl_fst_ev
    | with_reducible apply foldl_snd_ev
    | with_reducible rfl
    | with_reducible exact Nat.le_refl _
    | (intro _; with_reducible exact Nat.le_refl _)
    | (intro _; with_reducible exact rfl)
    | (intro m hm; change Memory.wf _ = true; exact hm)
    | intro _
    | split
    | dsimp only
    | with_reducible apply State.mk_ev

theorem State.deliver_ev (j : Nat) (p : Option Nat) {s : State} (hev : Evolves s₀ s) : Evolves s₀ (State.deliver s j p) := by
  unfold State.deliver
  with_reducible repeat' first
    | assumption | extract_lets | apply State.dadd_ev | apply State.dadd64_ev | apply State.modObj_ev | apply State.objSend_ev
    | apply State.out_ev | apply State.outs_ev | apply ite_ev | apply ite_snd_ev

theorem State.trimPast_ev (g : Nat) {s : State} (hev : Evolves s₀ s) : Evolves s₀ (State.trimPast s g) := by
  unfold State.trimPast
  repeat' first
    | with_reducible assumption
    | extract_lets
    | with_reducible apply State.modGroup_ev
    | with_reducible apply ite_ev
    | with_reducible apply ite_snd_ev
    | with_reducible apply ite_fst_ev
    | with_reducible apply ite_evTo
    | with_reducible apply evolvesTo_next
    | with_reducible exact Evolves.refl _
    | with_reducible apply foldl_ev
    | with_reducible apply foldl_fst_ev
    | with_reducible apply foldl_snd_ev
    | with_reducible rfl
    | with_reducible exact Nat.le_refl _
    | (intro _; with_reducible exact Nat.le_refl _)
    | (intro _; with_reducible exact rfl)
    | (intro m hm; change Memory.wf _ = true; exact hm)
    | intro _
    | split
    | dsimp only
    | with_reducible apply State.mk_ev

theorem execObjectTransmit_ev (j t : Nat) (s : State) : EvolvesTo s (execObjectTransmit j t s) := by
  unfold execObjectTransmit
  repeat' first
    | with_reducible assumption
    | extract_lets
    | with_reducible apply State.at_ev
    | with_reducible apply State.deliver_ev
    | with_reducible apply State.each_ev
    | with_reducible apply State.modObj_ev
    | with_reducible apply State.trimPast_ev
    | with_reducible apply ite_ev
    | with_reducible apply ite_snd_ev
    | with_reducible apply ite_fst_ev
    | with_reducible apply ite_evTo
    | with_reducible apply evolvesTo_next
    | with_reducible exact Evolves.refl _
    | with_reducible apply foldl_ev
    | with_reducible apply foldl_fst_ev
    | with_reducible apply foldl_snd_ev
    | with_reducible rfl
    | with_reducible exact Nat.le_refl _
    | (intro _; with_reducible exact Nat.le_refl _)
    | (intro _; with_reducible exact rfl)
    | (intro m hm; change Memory.wf _ = true; exact hm)
    | intro _
    | split
    | dsimp only
    | with_reducible apply State.mk_ev

theorem execObjectIdleTransmit_ev (j t : Nat) (s : State) : EvolvesTo s (execObjectIdleTransmit j t s) := by
  unfold execObjectIdleTransmit
  with_reducible repeat' first
    | extract_lets | apply State.at_ev | apply State.deliver_ev | apply State.modObj_ev | apply ite_ev | apply evolvesTo_next
    | exact Evolves.refl _

end Sys2Proof.Machine
end

