-- ==== Sys2Proof/Laws/EvolvePower.lean ====
section
/-!
SUPPORT. What no command does: the operations of Power.lean (see Evolve.lean).
-/

namespace Sys2Proof.Machine

variable {s₀ : State}

theorem State.powerNote_ev (at_ target outcome point ident : Nat) {s : State} (hev : Evolves s₀ s) : Evolves s₀ (State.powerNote s at_ target outcome point ident) := by
  unfold State.powerNote
  with_reducible repeat' first | assumption | apply State.modPow_ev

theorem State.refusePower_ev (c ident : Nat) {s : State} (hev : Evolves s₀ s) : Evolves s₀ (State.refusePower s c ident) := by
  unfold State.refusePower
  with_reducible repeat' first | assumption | extract_lets | apply State.dadd_ev | apply State.dset_ev | apply State.powerNote_ev

theorem State.freeUpTo_ev (l : List Nat) {s : State} (hev : Evolves s₀ s) : Evolves s₀ (s.freeUpTo l).2 := by
  induction l generalizing s with
  | nil => exact hev
  | cons m r ih => exact ih (State.takeFree_ev hev)


theorem State.startEntry_ev (target : PowerState) (fail : Option Nat) {s : State} (hev : Evolves s₀ s) : Evolves s₀ (State.startEntry s target fail) := by
  unfold State.startEntry
  extract_lets d pts e e2
  exact State.modPow_ev _ (State.freeUpTo_ev _ hev)

theorem State.powerRequest_ev (tag c : Nat) (fail : Option Nat) {s : State} (hev : Evolves s₀ s) : Evolves s₀ (State.powerRequest s tag c fail) := by
  unfold State.powerRequest
  repeat' first
    | with_reducible assumption | extract_lets | with_reducible apply State.dset_ev | with_reducible apply State.modPow_ev
    | with_reducible apply State.refusePower_ev | with_reducible apply State.startEntry_ev | with_reducible apply ite_ev | split

theorem State.enterLow_ev (target : PowerState) {s : State} (hev : Evolves s₀ s) : Evolves s₀ (State.enterLow s target) := by
  unfold State.enterLow
  with_reducible repeat' first
    | assumption | extract_lets | apply State.abortWaits_ev | apply State.dclear_ev | apply State.dset_ev | apply State.each_ev
    | apply State.modCm_ev | apply State.modDataPort_ev | apply State.modFunc_ev | apply State.modPins_ev | apply State.modPow_ev
    | apply State.raiseCause_ev | apply State.timePortDown_ev | apply ite_ev | intro _

theorem State.releaseOps_ev {s : State} (hev : Evolves s₀ s) : Evolves s₀ (State.releaseOps s) := by
  unfold State.releaseOps
  with_reducible repeat' first | assumption | extract_lets | apply State.issueBlock_ev | apply State.modPow_ev | apply foldl_ev | intro _

theorem State.afterPower_ev {s : State} (hev : Evolves s₀ s) : Evolves s₀ (State.afterPower s) := by
  unfold State.afterPower
  repeat' first
    | with_reducible assumption | extract_lets | with_reducible apply State.checked_ev | with_reducible apply State.doEnable_ev
    | with_reducible apply State.doLoad_ev | with_reducible apply State.modPow_ev | with_reducible apply State.powerRequest_ev
    | with_reducible apply State.writeAnswer_ev | with_reducible apply ite_ev | with_reducible apply ite_snd_ev
    | with_reducible apply foldl_ev | intro _ | split | with_reducible apply State.mk_ev

theorem State.finishEntry_ev (e : Entry) {s : State} (hev : Evolves s₀ s) : Evolves s₀ (State.finishEntry s e) := by
  unfold State.finishEntry
  repeat' first
    | with_reducible assumption | extract_lets | with_reducible apply State.afterPower_ev | with_reducible apply State.dadd_ev
    | with_reducible apply State.dset_ev | with_reducible apply State.enterLow_ev | with_reducible apply State.modPow_ev
    | with_reducible apply State.powerNote_ev | with_reducible apply State.releaseOps_ev | with_reducible apply ite_ev | split
    | with_reducible apply State.mk_ev

theorem State.powerDue_ev  {s : State} (hev : Evolves s₀ s) : Evolves s₀ (State.powerDue s) := by
  unfold State.powerDue
  repeat' first
    | with_reducible assumption
    | extract_lets
    | with_reducible apply State.afterPower_ev
    | with_reducible apply State.finishEntry_ev
    | with_reducible apply ite_ev
    | with_reducible apply ite_snd_ev
    | with_reducible apply ite_fst_ev
    | with_reducible apply ite_evTo
    | with_reducible apply evolvesTo_next
    | with_reducible exact Evolves.refl _
    | with_reducible apply foldl_ev
    | with_reducible apply foldl_fst_ev
    | with_reducible apply foldl_snd_ev
    | with_reducible rfl
    | with_reducible exact Nat.le_refl _
    | (intro _; with_reducible exact Nat.le_refl _)
    | (intro _; with_reducible exact rfl)
    | (intro m hm; change Memory.wf _ = true; exact hm)
    | intro _
    | split
    | dsimp only
    | with_reducible apply State.mk_ev

theorem State.coolStandby_ev {s : State} (hev : Evolves s₀ s) : Evolves s₀ (State.coolStandby s) := by
  unfold State.coolStandby
  with_reducible repeat' first | assumption | extract_lets | apply State.modPow_ev | apply State.powerRequest_ev | apply ite_ev

theorem State.reach_ev (t : Nat) {s : State} (hev : Evolves s₀ s) : Evolves s₀ (State.reach s t) := by
  unfold State.reach
  repeat' first
    | with_reducible assumption
    | extract_lets
    | with_reducible apply State.at_ev
    | with_reducible apply State.bridgeDue_ev
    | with_reducible apply State.coolStandby_ev
    | with_reducible apply State.fabricDue_ev
    | with_reducible apply State.powerDue_ev
    | with_reducible apply ite_ev
    | with_reducible apply ite_snd_ev
    | with_reducible apply ite_fst_ev
    | with_reducible apply ite_evTo
    | with_reducible apply evolvesTo_next
    | with_reducible exact Evolves.refl _
    | with_reducible apply foldl_ev
    | with_reducible apply foldl_fst_ev
    | with_reducible apply foldl_snd_ev
    | with_reducible rfl
    | with_reducible exact Nat.le_refl _
    | (intro _; with_reducible exact Nat.le_refl _)
    | (intro _; with_reducible exact rfl)
    | (intro m hm; change Memory.wf _ = true; exact hm)
    | intro _
    | split
    | dsimp only
    | with_reducible apply State.mk_ev

theorem State.doPowerReg_ev (w : Nat) (fail : Option Nat) {s : State} (hev : Evolves s₀ s) : Evolves s₀ (State.doPowerReg s w fail) := by
  unfold State.doPowerReg
  with_reducible repeat' first
    | assumption | extract_lets | apply State.dset_ev | apply State.modPow_ev | apply State.powerRequest_ev | apply ite_ev

theorem State.doPowerTarget_ev (r : Requester) (c : Nat) (fail : Option Nat) {s : State} (hev : Evolves s₀ s) : Evolves s₀ (State.doPowerTarget s r c fail).2 := by
  unfold State.doPowerTarget
  repeat' first
    | with_reducible assumption | extract_lets | with_reducible apply State.modPow_ev | with_reducible apply State.powerRequest_ev
    | with_reducible apply State.wakeEvent_ev | with_reducible apply ite_snd_ev | split

theorem execPowerRequest_ev (src : RegSource) (w : Nat) (fail : Option Nat) (t : Nat) (s : State) : EvolvesTo s (execPowerRequest src w fail t s) := by
  unfold execPowerRequest
  repeat' first
    | extract_lets | with_reducible apply State.doPowerReg_ev | with_reducible apply State.doPowerTarget_ev
    | with_reducible apply State.reach_ev | with_reducible apply State.typed_ev | with_reducible apply ite_ev
    | with_reducible apply evolvesTo_next | with_reducible exact Evolves.refl _ | split

theorem execSlotGo_ev (f k w t : Nat) (s : State) : EvolvesTo s (execSlotGo f k w t s) := by
  unfold execSlotGo
  with_reducible repeat' first
    | extract_lets | apply State.issueBlock_ev | apply State.modOp_ev | apply State.modPow_ev | apply State.reach_ev | apply ite_ev
    | apply evolvesTo_next | exact Evolves.refl _

theorem execHostHeartbeat_ev (f w t : Nat) (s : State) : EvolvesTo s (execHostHeartbeat f w t s) := by
  unfold execHostHeartbeat
  repeat' first
    | extract_lets | with_reducible apply State.doHeartbeat_ev | with_reducible apply State.reach_ev
    | with_reducible apply State.wakeEvent_ev | with_reducible apply ite_ev | with_reducible apply evolvesTo_next
    | with_reducible exact Evolves.refl _ | split

theorem execPerstNRelease_ev (t : Nat) (s : State) : EvolvesTo s (execPerstNRelease t s) := by
  unfold execPerstNRelease
  repeat' first
    | extract_lets | with_reducible apply State.dset_ev | with_reducible apply State.modPorts_ev | with_reducible apply State.reach_ev
    | with_reducible apply State.wakeEvent_ev | with_reducible apply ite_ev | with_reducible apply evolvesTo_next
    | with_reducible exact Evolves.refl _ | split

theorem execWakeGpio_ev (pin : Nat) (rising : Bool) (t : Nat) (s : State) : EvolvesTo s (execWakeGpio pin rising t s) := by
  unfold execWakeGpio
  with_reducible repeat' first
    | extract_lets | apply State.modPins_ev | apply State.reach_ev | apply State.wakeEvent_ev | apply ite_ev | apply evolvesTo_next
    | exact Evolves.refl _

theorem execRetentionLost_ev (h dom : Nat) (s : State) : EvolvesTo s (execRetentionLost h dom s) := by
  unfold execRetentionLost
  with_reducible repeat' first
    | extract_lets | apply State.dadd_ev | apply State.modPow_ev | apply ite_ev | apply evolvesTo_next | exact Evolves.refl _

theorem State.loseSlices_ev (h : Nat) {s : State} (hev : Evolves s₀ s) : Evolves s₀ (State.loseSlices s h) := by
  unfold State.loseSlices
  extract_lets mine gone v1 v2 v3
  have h1 : Evolves s₀ v1 := State.each_ev _ (fun _ _ h => State.modSlice_ev _ _ h) hev
  have h2 : Evolves s₀ v2 := State.mk_ev h1
  clear_value v2
  have h3 : Evolves s₀ v3 := State.each_ev _ (fun _ _ h => State.each_ev _ (fun _ _ h => ite_ev (State.modFunc_ev _ _ h) h) h) h2
  clear_value v3
  refine State.settle_ev (State.abortAll_ev _ (State.modMem_ev (fun m hm => ?_) h3))
  rw [Memory.wf_iff] at hm ⊢
  exact ⟨hm.1, mwf_filter _ _ _ hm.2.1, hm.2.2⟩

theorem State.wakeDone_ev (target : PowerState) {s : State} (hev : Evolves s₀ s) : Evolves s₀ (State.wakeDone s target) := by
  unfold State.wakeDone
  extract_lets up v1 v2 v4 v5 v3 v6
  have h2 : Evolves s₀ v2 := State.dset_ev _ _ (State.dset_ev _ _ (State.modPow_ev _ hev))
  have h3 : Evolves s₀ v3 := ite_ev h2 (State.each_ev _ (fun _ _ h => ite_ev (State.modDataPort_ev _ _ h) h) (State.dset_ev _ _
    (State.modPow_ev _ (State.each_ev _ (fun _ _ h => State.loseSlices_ev _ h) h2))))
  clear_value v3
  exact State.afterPower_ev (ite_ev (State.each_ev _ (fun _ _ h => State.modHalf_ev _ _ h) (State.each_ev _ (fun _ _ h => State.modPart_ev _ _ h) h3)) h3)

theorem State.clampWoe_ev (h : Nat) {s : State} (hev : Evolves s₀ s) : Evolves s₀ (State.clampWoe s h) := by
  unfold State.clampWoe
  repeat' first
    | with_reducible assumption
    | extract_lets
    | with_reducible apply State.dset_ev
    | with_reducible apply State.each_ev
    | with_reducible apply State.modPart_ev
    | with_reducible apply ite_ev
    | with_reducible apply ite_snd_ev
    | with_reducible apply ite_fst_ev
    | with_reducible apply ite_evTo
    | with_reducible apply evolvesTo_next
    | with_reducible exact Evolves.refl _
    | with_reducible apply foldl_ev
    | with_reducible apply foldl_fst_ev
    | with_reducible apply foldl_snd_ev
    | with_reducible rfl
    | with_reducible exact Nat.le_refl _
    | (intro _; with_reducible exact Nat.le_refl _)
    | (intro _; with_reducible exact rfl)
    | (intro m hm; change Memory.wf _ = true; exact hm)
    | intro _
    | split
    | dsimp only
    | with_reducible apply State.mk_ev

theorem State.switchProf_ev (h q : Nat) {s : State} (hev : Evolves s₀ s) : Evolves s₀ (State.switchProf s h q) := by
  unfold State.switchProf
  repeat' first
    | with_reducible assumption
    | extract_lets
    | with_reducible apply State.clampWoe_ev
    | with_reducible apply State.dadd_ev
    | with_reducible apply State.each_ev
    | with_reducible apply State.modHalf_ev
    | with_reducible apply State.modPart_ev
    | with_reducible apply State.settle_ev
    | with_reducible apply State.takeFree_ev
    | with_reducible apply ite_ev
    | with_reducible apply ite_snd_ev
    | with_reducible apply ite_fst_ev
    | with_reducible apply ite_evTo
    | with_reducible apply evolvesTo_next
    | with_reducible exact Evolves.refl _
    | with_reducible apply foldl_ev
    | with_reducible apply foldl_fst_ev
    | with_reducible apply foldl_snd_ev
    | with_reducible rfl
    | with_reducible exact Nat.le_refl _
    | (intro _; with_reducible exact Nat.le_refl _)
    | (intro _; with_reducible exact rfl)
    | (intro m hm; change Memory.wf _ = true; exact hm)
    | intro _
    | split
    | dsimp only
    | with_reducible apply State.mk_ev

theorem State.pursueProf_ev (h : Nat) {s : State} (hev : Evolves s₀ s) : Evolves s₀ (State.pursueProf s h) := by
  unfold State.pursueProf
  with_reducible repeat' first | assumption | extract_lets | apply State.modHalf_ev | apply State.switchProf_ev | apply ite_ev

theorem State.doProfReq_ev (h v : Nat) {s : State} (hev : Evolves s₀ s) : Evolves s₀ (State.doProfReq s h v).2 := by
  unfold State.doProfReq
  with_reducible repeat' first | assumption | extract_lets | apply State.dset_ev | apply State.pursueProf_ev | apply ite_snd_ev

theorem execProfileRequest_ev (r : Requester) (h v t : Nat) (s : State) : EvolvesTo s (execProfileRequest r h v t s) := by
  unfold execProfileRequest
  with_reducible repeat' first
    | extract_lets | apply State.doProfReq_ev | apply State.reach_ev | apply State.typed_ev | apply ite_ev | apply evolvesTo_next
    | exact Evolves.refl _

theorem execProfileWaitTimeout_ev (h t : Nat) (s : State) : EvolvesTo s (execProfileWaitTimeout h t s) := by
  unfold execProfileWaitTimeout
  repeat' first
    | extract_lets | with_reducible apply State.at_ev | with_reducible apply State.modHalf_ev | with_reducible apply ite_ev
    | with_reducible apply evolvesTo_next | with_reducible exact Evolves.refl _ | split

theorem execProfileChange_ev (h t : Nat) (s : State) : EvolvesTo s (execProfileChange h t s) := by
  unfold execProfileChange
  repeat' first
    | extract_lets | with_reducible apply State.at_ev | with_reducible apply State.switchProf_ev | with_reducible apply ite_ev
    | with_reducible apply evolvesTo_next | with_reducible exact Evolves.refl _ | split

theorem State.doClockReq_ev (h v : Nat) {s : State} (hev : Evolves s₀ s) : Evolves s₀ (State.doClockReq s h v).2 := by
  unfold State.doClockReq
  with_reducible repeat' first | assumption | extract_lets | apply State.dset_ev | apply ite_snd_ev

theorem execFabricClockReq_ev (r : Requester) (h v t : Nat) (s : State) : EvolvesTo s (execFabricClockReq r h v t s) := by
  unfold execFabricClockReq
  with_reducible repeat' first
    | extract_lets | apply State.doClockReq_ev | apply State.reach_ev | apply State.typed_ev | apply ite_ev | apply evolvesTo_next
    | exact Evolves.refl _

theorem State.setClocks_ev {s : State} (hev : Evolves s₀ s) : Evolves s₀ (State.setClocks s) := by
  unfold State.setClocks
  with_reducible repeat' first | assumption | extract_lets | apply State.each_ev | apply State.modHalf_ev | intro _

theorem State.noteTj_ev (d : Nat) (x : F32) {s : State} (hev : Evolves s₀ s) : Evolves s₀ (State.noteTj s d x) := by
  unfold State.noteTj
  repeat' first
    | with_reducible assumption
    | extract_lets
    | with_reducible apply State.dropFlag_ev
    | with_reducible apply State.dset_ev
    | with_reducible apply State.modPow_ev
    | with_reducible apply State.raiseFlag_ev
    | with_reducible apply ite_ev
    | with_reducible apply ite_snd_ev
    | with_reducible apply ite_fst_ev
    | with_reducible apply ite_evTo
    | with_reducible apply evolvesTo_next
    | with_reducible exact Evolves.refl _
    | with_reducible apply foldl_ev
    | with_reducible apply foldl_fst_ev
    | with_reducible apply foldl_snd_ev
    | with_reducible rfl
    | with_reducible exact Nat.le_refl _
    | (intro _; with_reducible exact Nat.le_refl _)
    | (intro _; with_reducible exact rfl)
    | (intro m hm; change Memory.wf _ = true; exact hm)
    | intro _
    | split
    | dsimp only
    | with_reducible apply State.mk_ev

theorem execThermalLoop_ev (h : Nat) (tj : LoopTemps) (power : BitVec 32) (t : Nat) (hotter : Bool) (s : State) : EvolvesTo s (execThermalLoop h tj power t hotter s) := by
  unfold execThermalLoop
  with_reducible repeat' first
    | extract_lets | apply State.at_ev | apply State.dadd_ev | apply State.dset_ev | apply State.modHalf_ev | apply State.noteTj_ev
    | apply ite_ev | apply evolvesTo_next | exact Evolves.refl _

theorem execPowerLimit_ev (held t : Nat) (s : State) : EvolvesTo s (execPowerLimit held t s) := by
  unfold execPowerLimit
  with_reducible repeat' first
    | extract_lets | apply State.at_ev | apply State.dadd_ev | apply State.modHalf_ev | apply State.modPow_ev | apply State.raiseFlag_ev
    | apply State.setClocks_ev | apply ite_ev | apply evolvesTo_next | exact Evolves.refl _

theorem execHalfCurrent_ev (h t : Nat) (s : State) : EvolvesTo s (execHalfCurrent h t s) := by
  unfold execHalfCurrent
  with_reducible repeat' first
    | extract_lets | apply State.at_ev | apply State.dadd_ev | apply State.modHalf_ev | apply State.raiseFlag_ev | apply ite_ev
    | apply evolvesTo_next | exact Evolves.refl _

theorem execJunctionThrottle_ev (dom : Nat) (temp : BitVec 32) (t : Nat) (s : State) : EvolvesTo s (execJunctionThrottle dom temp t s) := by
  unfold execJunctionThrottle
  with_reducible repeat' first
    | extract_lets | apply State.at_ev | apply State.dadd_ev | apply State.noteTj_ev | apply State.raiseFlag_ev | apply State.setClocks_ev
    | apply ite_ev | apply evolvesTo_next | exact Evolves.refl _

theorem State.limitsOver_ev {s : State} (hev : Evolves s₀ s) : Evolves s₀ (State.limitsOver s) := by
  unfold State.limitsOver
  with_reducible repeat' first | assumption | extract_lets | apply State.dropFlag_ev | apply ite_ev

theorem execLimitRelease_ev (k : LimitKind) (t : Nat) (s : State) : EvolvesTo s (execLimitRelease k t s) := by
  unfold execLimitRelease
  repeat' first
    | with_reducible assumption
    | extract_lets
    | with_reducible apply State.at_ev
    | with_reducible apply State.dropFlag_ev
    | with_reducible apply State.limitsOver_ev
    | with_reducible apply State.modHalf_ev
    | with_reducible apply State.modPow_ev
    | with_reducible apply State.noteTj_ev
    | with_reducible apply State.setClocks_ev
    | with_reducible apply ite_ev
    | with_reducible apply ite_snd_ev
    | with_reducible apply ite_fst_ev
    | with_reducible apply ite_evTo
    | with_reducible apply evolvesTo_next
    | with_reducible exact Evolves.refl _
    | with_reducible apply foldl_ev
    | with_reducible apply foldl_fst_ev
    | with_reducible apply foldl_snd_ev
    | with_reducible rfl
    | with_reducible exact Nat.le_refl _
    | (intro _; with_reducible exact Nat.le_refl _)
    | (intro _; with_reducible exact rfl)
    | (intro m hm; change Memory.wf _ = true; exact hm)
    | intro _
    | split
    | dsimp only
    | with_reducible apply State.mk_ev

theorem State.stopClocks_ev {s : State} (hev : Evolves s₀ s) : Evolves s₀ (State.stopClocks s) := by
  unfold State.stopClocks
  with_reducible repeat' first
    | assumption | extract_lets | apply State.modFab_ev | apply State.modPorts_ev | apply State.modRel_ev | apply State.mk_ev

theorem execThermalTrip_ev (sensor : Nat) (temp : BitVec 32) (t : Nat) (s : State) : EvolvesTo s (execThermalTrip sensor temp t s) := by
  unfold execThermalTrip
  with_reducible repeat' first
    | extract_lets | apply State.at_ev | apply State.dadd_ev | apply State.dset_ev | apply State.modPins_ev | apply State.modPow_ev
    | apply State.stopClocks_ev | apply State.updateFaultN_ev | apply ite_ev | apply evolvesTo_next | exact Evolves.refl _

theorem State.coolLoss_ev (src : CoolantSource) {s : State} (hev : Evolves s₀ s) : Evolves s₀ (State.coolLoss s src) := by
  unfold State.coolLoss
  with_reducible repeat' first
    | assumption | extract_lets | apply State.coolStandby_ev | apply State.dadd_ev | apply State.disableBelay_ev | apply State.dset_ev
    | apply State.each_ev | apply State.modPow_ev | apply State.pursueProf_ev | apply State.raiseFlag_ev | apply ite_ev | intro _

theorem execCoolantLoss_ev (src : CoolantEvent) (t : Nat) (s : State) : EvolvesTo s (execCoolantLoss src t s) := by
  unfold execCoolantLoss
  with_reducible repeat' first
    | extract_lets | apply State.coolLoss_ev | apply State.reach_ev | apply ite_ev | apply evolvesTo_next | exact Evolves.refl _

theorem execCoolantLossEnd_ev (t : CoolantCalm) (s : State) : EvolvesTo s (execCoolantLossEnd t s) := by
  unfold execCoolantLossEnd
  with_reducible repeat' first
    | extract_lets | apply State.dropFlag_ev | apply State.dset_ev | apply State.modPow_ev | apply State.pursueProf_ev
    | apply State.reach_ev | apply ite_ev | apply evolvesTo_next | exact Evolves.refl _

theorem State.doCoolReport_ev (flow inlet : Nat) {s : State} (hev : Evolves s₀ s) : Evolves s₀ (State.doCoolReport s flow inlet) := by
  unfold State.doCoolReport
  with_reducible repeat' first
    | assumption | extract_lets | apply State.coolLoss_ev | apply State.dset_ev | apply State.modPow_ev | apply ite_ev

theorem execCoolantReport_ev (r : Requester) (flow inlet t : Nat) (s : State) : EvolvesTo s (execCoolantReport r flow inlet t s) := by
  unfold execCoolantReport
  with_reducible repeat' first
    | extract_lets | apply State.doCoolReport_ev | apply State.reach_ev | apply State.typed_ev | apply evolvesTo_next | exact Evolves.refl _

theorem execCoolantReportTimeout_ev (t : Nat) (s : State) : EvolvesTo s (execCoolantReportTimeout t s) := by
  unfold execCoolantReportTimeout
  with_reducible repeat' first
    | extract_lets | apply State.coolLoss_ev | apply State.reach_ev | apply ite_ev | apply evolvesTo_next | exact Evolves.refl _

end Sys2Proof.Machine
end

