-- ==== Sys2Proof/Laws/SeqKept.lean ====
section
/-!
SUPPORT. The pitch sequencers stand as they were: `SeqKept s u`. The lemmas say it of the basic updates and of the operations that
follow the opening of a pitch or report a fault.
-/

namespace Sys2Proof.Machine

/-- From `s` to `u` no pitch sequencer changes, and no partition changes its state or its clusters. -/
structure SeqKept (s u : State) : Prop where
  kept : ∀ n, (u.part n).seq = (s.part n).seq ∧ (u.part n).state = (s.part n).state ∧ (u.part n).mask = (s.part n).mask

variable {s₀ s : State}

theorem SeqKept.refl (s : State) : SeqKept s s := ⟨fun _ => ⟨rfl, rfl, rfl⟩⟩
theorem SeqKept.trans {a b c : State} (h : SeqKept a b) (k : SeqKept b c) : SeqKept a c :=
  ⟨fun n => ⟨(k.kept n).1.trans (h.kept n).1, (k.kept n).2.1.trans (h.kept n).2.1, (k.kept n).2.2.trans (h.kept n).2.2⟩⟩

theorem ite_sq {p : Prop} [Decidable p] {a b : State} (ha : SeqKept s₀ a) (hb : SeqKept s₀ b) : SeqKept s₀ (if p then a else b) := by
  split <;> assumption
theorem ite_snd_sq {α : Type} {p : Prop} [Decidable p] {a b : α × State} (ha : SeqKept s₀ a.2) (hb : SeqKept s₀ b.2) :
    SeqKept s₀ (if p then a else b).2 := by
  split <;> assumption
theorem ite_fst_sq {α : Type} {p : Prop} [Decidable p] {a b : State × α} (ha : SeqKept s₀ a.1) (hb : SeqKept s₀ b.1) :
    SeqKept s₀ (if p then a else b).1 := by
  split <;> assumption

theorem foldl_sq {α : Type} (l : List α) {f : State → α → State} (hf : ∀ s x, SeqKept s₀ s → SeqKept s₀ (f s x)) (h : SeqKept s₀ s) :
    SeqKept s₀ (l.foldl f s) := by
  induction l generalizing s with
  | nil => exact h
  | cons x r ih => exact ih (hf s x h)
theorem foldl_fst_sq {α β : Type} (l : List α) {f : State × β → α → State × β} (hf : ∀ p x, SeqKept s₀ p.1 → SeqKept s₀ (f p x).1)
    {p : State × β} (h : SeqKept s₀ p.1) : SeqKept s₀ (l.foldl f p).1 := by
  induction l generalizing p with
  | nil => exact h
  | cons x r ih => exact ih (hf p x h)
theorem foldl_snd_sq {α β : Type} (l : List α) {f : β × State → α → β × State} (hf : ∀ p x, SeqKept s₀ p.2 → SeqKept s₀ (f p x).2)
    {p : β × State} (h : SeqKept s₀ p.2) : SeqKept s₀ (l.foldl f p).2 := by
  induction l generalizing p with
  | nil => exact h
  | cons x r ih => exact ih (hf p x h)
theorem State.each_sq (l : List Nat) {f : State → Nat → State} (hf : ∀ s x, SeqKept s₀ s → SeqKept s₀ (f s x)) (h : SeqKept s₀ s) :
    SeqKept s₀ (s.each l f) := foldl_sq l hf h


/-! ### The basic updates -/

theorem State.modCore_sq (c : Nat) (f : Core → Core) (h : SeqKept s₀ s) : SeqKept s₀ (s.modCore c f) := ⟨h.kept⟩
theorem State.modCluster_sq (c : Nat) (f : Cluster → Cluster) (h : SeqKept s₀ s) : SeqKept s₀ (s.modCluster c f) := ⟨h.kept⟩
theorem State.modStream_sq (k : Nat) (f : Stream → Stream) (h : SeqKept s₀ s) : SeqKept s₀ (s.modStream k f) := ⟨h.kept⟩
theorem State.modGroup_sq (g : Nat) (f : Group → Group) (h : SeqKept s₀ s) : SeqKept s₀ (s.modGroup g f) := ⟨h.kept⟩
theorem State.modSlice_sq (i : Nat) (f : Slice → Slice) (h : SeqKept s₀ s) : SeqKept s₀ (s.modSlice i f) := ⟨h.kept⟩
theorem State.modFunc_sq (i : Nat) (f : Func → Func) (h : SeqKept s₀ s) : SeqKept s₀ (s.modFunc i f) := ⟨h.kept⟩
theorem State.modMailbox_sq (k : Nat) (f : Mailbox → Mailbox) (h : SeqKept s₀ s) : SeqKept s₀ (s.modMailbox k f) := ⟨h.kept⟩
theorem State.modDataPort_sq (p : Nat) (f : DataPort → DataPort) (h : SeqKept s₀ s) : SeqKept s₀ (s.modDataPort p f) := ⟨h.kept⟩
theorem State.modObj_sq (j : Nat) (f : Obj → Obj) (h : SeqKept s₀ s) : SeqKept s₀ (s.modObj j f) := ⟨h.kept⟩
theorem State.modRem_sq (e n : Nat) (f : RemoteBuf → RemoteBuf) (h : SeqKept s₀ s) : SeqKept s₀ (s.modRem e n f) := ⟨h.kept⟩
theorem State.modQueue_sq (q : Nat) (f : Queue → Queue) (h : SeqKept s₀ s) : SeqKept s₀ (s.modQueue q f) := ⟨h.kept⟩
theorem State.modSync_sq (j : Nat) (f : SyncObj → SyncObj) (h : SeqKept s₀ s) : SeqKept s₀ (s.modSync j f) := ⟨h.kept⟩
theorem State.modCm_sq (f : CoreMem → CoreMem) (h : SeqKept s₀ s) : SeqKept s₀ (s.modCm f) := ⟨h.kept⟩
theorem State.modPow_sq (f : Power → Power) (h : SeqKept s₀ s) : SeqKept s₀ (s.modPow f) := ⟨h.kept⟩
theorem State.modRel_sq (f : Rel → Rel) (h : SeqKept s₀ s) : SeqKept s₀ (s.modRel f) := ⟨h.kept⟩
theorem State.modFab_sq (f : Fabric → Fabric) (h : SeqKept s₀ s) : SeqKept s₀ (s.modFab f) := ⟨h.kept⟩
theorem State.modPorts_sq (f : Ports → Ports) (h : SeqKept s₀ s) : SeqKept s₀ (s.modPorts f) := ⟨h.kept⟩
theorem State.modPins_sq (f : Pins → Pins) (h : SeqKept s₀ s) : SeqKept s₀ (s.modPins f) := ⟨h.kept⟩
theorem State.modReq_sq (r : Requester) (f : ReqState → ReqState) (h : SeqKept s₀ s) : SeqKept s₀ (s.modReq r f) := ⟨h.kept⟩
theorem State.release_sq (p : Nat → Bool) (h : SeqKept s₀ s) : SeqKept s₀ (s.release p) := ⟨h.kept⟩
theorem State.dadd_sq (k a : Nat) (h : SeqKept s₀ s) : SeqKept s₀ (s.dadd k a) := ⟨h.kept⟩
theorem State.dadd64_sq (k a : Nat) (h : SeqKept s₀ s) : SeqKept s₀ (s.dadd64 k a) := ⟨h.kept⟩
theorem State.dclear_sq (k : Nat) (h : SeqKept s₀ s) : SeqKept s₀ (s.dclear k) := ⟨h.kept⟩
theorem State.dmax_sq (k v : Nat) (h : SeqKept s₀ s) : SeqKept s₀ (s.dmax k v) := ⟨h.kept⟩
theorem State.dsetHeld_sq (k v : Nat) (h : SeqKept s₀ s) : SeqKept s₀ (s.dsetHeld k v) := ⟨h.kept⟩
theorem State.outs_sq (l : List Output) (h : SeqKept s₀ s) : SeqKept s₀ (s.outs l) := by
  refine ⟨fun n => ?_⟩
  simpa using h.kept n
theorem State.out_sq (o : Output) (h : SeqKept s₀ s) : SeqKept s₀ (s.out o) := by
  refine ⟨fun n => ?_⟩
  simpa using h.kept n
theorem State.takeFree_sq (h : SeqKept s₀ s) : SeqKept s₀ s.takeFree.2 := ⟨h.kept⟩
theorem State.modClk_sq (f : Clock → Clock) (h : SeqKept s₀ s) : SeqKept s₀ (s.modClk f) := ⟨h.kept⟩
theorem State.modSec_sq (f : Sec → Sec) (h : SeqKept s₀ s) : SeqKept s₀ (s.modSec f) := ⟨h.kept⟩
theorem State.modFloor_sq (f : Floor → Floor) (h : SeqKept s₀ s) : SeqKept s₀ (s.modFloor f) := ⟨h.kept⟩
theorem State.modMem_sq (f : Mem → Mem) (h : SeqKept s₀ s) : SeqKept s₀ (s.modMem f) := ⟨h.kept⟩
theorem State.dset_sq (k v : Nat) (h : SeqKept s₀ s) : SeqKept s₀ (s.dset k v) := ⟨h.kept⟩
theorem State.modPart_sq (n : Nat) {f : Part → Part} (hf : ∀ p, (f p).seq = p.seq ∧ (f p).state = p.state ∧ (f p).mask = p.mask)
    (h : SeqKept s₀ s) : SeqKept s₀ (s.modPart n f) := by
  refine ⟨fun m => ?_⟩
  by_cases e : m = n
  · subst e
    rw [State.part_modPart_self]
    exact ⟨(hf _).1.trans (h.kept m).1, (hf _).2.1.trans (h.kept m).2.1, (hf _).2.2.trans (h.kept m).2.2⟩
  · rw [State.part_modPart_ne _ e]; exact h.kept m
theorem State.lpWrite_sq (a : Nat) (bs : Bytes) (h : SeqKept s₀ s) : SeqKept s₀ (s.lpWrite a bs) := ⟨h.kept⟩
theorem State.mk_sq {pending : List Instr} {clk : Clock} {dict : SMap Nat} {mem : Mem} {floor : Floor} {sec : Sec} {heldVals : SMap (Option Nat)} {reqs : List ReqState} {cm : CoreMem} {cores : SMap Core} {clusters : SMap Cluster} {hauls : SMap (Option Haul)} {haulNext : Nat} {remote : SMap RemoteBuf} {streams : SMap Stream} {groups : SMap Group} {queues : SMap Queue} {syncs : SMap SyncObj} {slices : SMap Slice} {keep : Keep} {fab : Fabric} {ports : Ports} {pins : Pins} {pow : Power} {rel : Rel} {outbox : List Output}
    (h : SeqKept s₀ s) : SeqKept s₀ ⟨pending, clk, dict, heldVals, reqs, cm, cores, clusters, s.parts, hauls, haulNext, remote, streams, groups, queues, syncs, slices, mem, keep, fab, ports, pins, floor, pow, rel, sec, outbox⟩ := ⟨h.kept⟩

/-! ### The operations -/

theorem State.raiseCause_sq (f b : Nat) {s : State} (hev : SeqKept s₀ s) : SeqKept s₀ (State.raiseCause s f b) := by
  unfold State.raiseCause
  with_reducible repeat' first | assumption | extract_lets | apply State.modFunc_sq | apply State.out_sq | apply ite_sq

theorem State.queueNotice_sq (msg : Bytes) (k : Nat) {s : State} (hev : SeqKept s₀ s) : SeqKept s₀ (State.queueNotice s msg k) := by
  unfold State.queueNotice
  with_reducible repeat' first | assumption | extract_lets | apply State.dadd_sq | apply State.modMailbox_sq | apply ite_sq

theorem State.issue_sq (ecode sev n detail : Nat) {s : State} (hev : SeqKept s₀ s) : SeqKept s₀ (State.issue s ecode sev n detail) := by
  unfold State.issue
  with_reducible repeat' first
    | assumption | extract_lets | apply State.dadd_sq | apply State.each_sq | apply State.modRel_sq | apply State.outs_sq
    | apply State.queueNotice_sq | apply State.raiseCause_sq | apply ite_sq | intro _

theorem State.emergency_sq (ecode sev n detail : Nat) {s : State} (hev : SeqKept s₀ s) : SeqKept s₀ (State.emergency s ecode sev n detail) := by
  unfold State.emergency
  with_reducible repeat' first | assumption | extract_lets | apply State.issue_sq | apply State.modRel_sq | apply ite_sq

theorem State.mark_sq (n type arg0 arg1 arg2 : Nat) {s : State} (hev : SeqKept s₀ s) : SeqKept s₀ (State.mark s n type arg0 arg1 arg2) := by
  unfold State.mark
  repeat' first | with_reducible assumption | extract_lets | with_reducible apply State.modPart_sq | (intro _; exact ⟨rfl, rfl, rfl⟩)

theorem State.ledgerFlag_sq (n b : Nat) {s : State} (hev : SeqKept s₀ s) : SeqKept s₀ (State.ledgerFlag s n b) := by
  unfold State.ledgerFlag
  repeat' first | with_reducible assumption | extract_lets | with_reducible apply State.modPart_sq | (intro _; exact ⟨rfl, rfl, rfl⟩)

theorem State.ledgerDrop_sq (n c a : Nat) {s : State} (hev : SeqKept s₀ s) : SeqKept s₀ (State.ledgerDrop s n c a) := by
  unfold State.ledgerDrop
  with_reducible repeat' first | assumption | extract_lets | apply State.ledgerFlag_sq | apply State.modCore_sq | apply ite_sq

theorem State.overClear_sq (a n : Nat) {s : State} (hev : SeqKept s₀ s) : SeqKept s₀ (State.overClear s a n) := by
  unfold State.overClear
  with_reducible repeat' first | assumption | apply State.modMem_sq

theorem State.updateFaultN_sq  {s : State} (hev : SeqKept s₀ s) : SeqKept s₀ (State.updateFaultN s) := by
  unfold State.updateFaultN
  with_reducible repeat' first | assumption | extract_lets | apply State.dset_sq | apply State.modPins_sq

theorem State.encodeChannel_sq (k : Nat) (t : Tile) (clamp : Bool) (km p : Nat) (x : F32) (c : Nat) {s : State} (hev : SeqKept s₀ s) : SeqKept s₀ (State.encodeChannel s k t clamp km p x c) := by
  unfold State.encodeChannel
  with_reducible repeat' first
    | assumption | extract_lets | apply State.dadd_sq | apply State.dadd64_sq | apply State.modStream_sq | apply ite_sq

theorem State.encodeSample_sq (k : Nat) (t : Tile) (clamp : Bool) (km p : Nat) (x : Sample) {s : State} (hev : SeqKept s₀ s) : SeqKept s₀ (State.encodeSample s k t clamp km p x) := by
  unfold State.encodeSample
  with_reducible repeat' first | assumption | extract_lets | apply State.each_sq | apply State.encodeChannel_sq | intro _

theorem State.journalStream_sq (k p : Nat) (es : List (Nat × BitVec 64)) {s : State} (hev : SeqKept s₀ s) : SeqKept s₀ (State.journalStream s k p es) := by
  unfold State.journalStream
  with_reducible repeat' first | assumption | extract_lets | apply State.modStream_sq | apply ite_sq

theorem State.launchEncoded_sq (n k : Nat) {s : State} (hev : SeqKept s₀ s) : SeqKept s₀ (State.launchEncoded s n k) := by
  unfold State.launchEncoded
  repeat' first
    | with_reducible assumption | extract_lets | with_reducible apply State.dadd64_sq | with_reducible apply State.journalStream_sq
    | with_reducible apply State.modStream_sq | split | with_reducible apply State.mk_sq

theorem State.latch_sq (k : Nat) {s : State} (hev : SeqKept s₀ s) : SeqKept s₀ (State.latch s k).2 := by
  unfold State.latch
  repeat' first
    | with_reducible assumption | extract_lets | with_reducible apply State.dset_sq | with_reducible apply State.modStream_sq
    | with_reducible apply ite_snd_sq | split

theorem State.encodeStream_sq (n k p km : Nat) (t : Tile) {s : State} (hev : SeqKept s₀ s) : SeqKept s₀ (State.encodeStream s n k p km t) := by
  unfold State.encodeStream
  extract_lets v1 v2 v3 v4 v5 v6 v7 v8 v9 v10
  have h3 : SeqKept s₀ v3.2 := State.latch_sq _ hev
  have h4 : SeqKept s₀ v4 := by
    dsimp -zeta only [v4]
    generalize v3.1 = y
    cases y
    · exact h3
    · exact State.dset_sq _ _ (State.dset_sq _ _ h3)
  have h7 : SeqKept s₀ v7 := State.modStream_sq _ _ h4
  have h9 : SeqKept s₀ v9 := State.modStream_sq _ _ (State.dadd_sq _ _ h7)
  have h10 : SeqKept s₀ v10 := by
    dsimp -zeta only [v10]
    generalize v6 = y
    generalize v1.fresh = z
    cases y <;> cases z
    · exact h9
    · exact ite_sq (State.encodeSample_sq _ _ _ _ _ _ h9) h9
    all_goals exact State.encodeSample_sq _ _ _ _ _ _ (State.modStream_sq _ _ h7)
  exact State.launchEncoded_sq _ _ (ite_sq (State.dadd_sq _ _ h10) h10)

theorem State.startGen_sq  {s : State} (hev : SeqKept s₀ s) : SeqKept s₀ (State.startGen s) := by
  unfold State.startGen
  with_reducible repeat' first | assumption | extract_lets | apply State.dset_sq | apply State.modFab_sq

theorem State.wantGen_sq  {s : State} (hev : SeqKept s₀ s) : SeqKept s₀ (State.wantGen s) := by
  unfold State.wantGen
  with_reducible repeat' first | assumption | extract_lets | apply State.modFab_sq | apply State.startGen_sq | apply ite_sq

theorem State.dropLinks_sq (sw : Nat) (ports : List Nat) {s : State} (hev : SeqKept s₀ s) : SeqKept s₀ (State.dropLinks s sw ports) := by
  unfold State.dropLinks
  with_reducible repeat' first
    | assumption | extract_lets | apply State.dset_sq | apply State.modFab_sq | apply State.wantGen_sq | apply ite_sq

theorem State.logDefect_sq (kind origin unit detail : Nat) {s : State} (hev : SeqKept s₀ s) : SeqKept s₀ (State.logDefect s kind origin unit detail) := by
  unfold State.logDefect
  with_reducible repeat' first
    | assumption | extract_lets | apply State.dset_sq | apply State.modFloor_sq | apply State.overClear_sq | apply ite_sq

theorem State.report_sq (rep : FaultReport) {s : State} (hev : SeqKept s₀ s) : SeqKept s₀ (State.report s rep) := by
  unfold State.report
  extract_lets seq sec used logged s1 s2 s3 s4 s5 s6
  have h2 : SeqKept s₀ s2 := State.modRel_sq _ (State.dset_sq _ _ hev)
  have h3 : SeqKept s₀ s3 := ite_sq (State.overClear_sq _ _ (State.overClear_sq _ _ h2)) h2
  have h5 : SeqKept s₀ s5 := State.updateFaultN_sq (ite_sq h3 (State.dadd_sq _ _ h3))
  have h6 : SeqKept s₀ s6 := by
    dsimp -zeta only [s6]
    split
    · exact State.ledgerFlag_sq _ _ (State.mark_sq _ _ _ _ _ h5)
    · exact h5
  exact ite_sq (State.modRel_sq _ hev) (ite_sq h6 (State.emergency_sq _ _ _ _ (State.dadd_sq _ _ h6)))

theorem State.reportUnit_sq (code sev kind unit : Nat) (n : Option Nat) (detail : Nat) {s : State} (hev : SeqKept s₀ s) : SeqKept s₀ (State.reportUnit s code sev kind unit n detail) := by
  unfold State.reportUnit
  with_reducible repeat' first | assumption | apply State.report_sq

theorem State.loseCore_sq (c : Nat) {s : State} (hev : SeqKept s₀ s) : SeqKept s₀ (State.loseCore s c) := by
  unfold State.loseCore
  extract_lets v1 v2 v3 v4 v5 v6
  have h3 : SeqKept s₀ v3 := by
    dsimp -zeta only [v3]
    generalize v1 = y
    cases y
    · exact hev
    · exact State.mark_sq _ _ _ _ _ (State.ledgerDrop_sq _ _ _ hev)
  exact State.reportUnit_sq _ _ _ _ _ _ (State.dadd_sq _ _ (State.modRel_sq _ (State.modCore_sq _ _ h3)))

theorem State.dropSwapOut_sq (c : Nat) {s : State} (hev : SeqKept s₀ s) : SeqKept s₀ (State.dropSwapOut s c) := by
  unfold State.dropSwapOut
  with_reducible repeat' first | assumption | extract_lets | apply State.dset_sq | apply State.modRel_sq | apply ite_sq

theorem State.retireSlot_sq (cl slot : Nat) {s : State} (hev : SeqKept s₀ s) : SeqKept s₀ (State.retireSlot s cl slot) := by
  unfold State.retireSlot
  with_reducible repeat' first
    | assumption | extract_lets | apply State.dadd_sq | apply State.dropLinks_sq | apply State.logDefect_sq | apply State.modFloor_sq

theorem State.declareFailed_sq (c : Nat) {s : State} (hev : SeqKept s₀ s) : SeqKept s₀ (State.declareFailed s c) := by
  unfold State.declareFailed
  extract_lets k cl n slot s1 s2 d cold kp
  have h6 : SeqKept s₀ s2 := State.dropSwapOut_sq _ (State.modFab_sq _ (State.modCore_sq _ _ (State.retireSlot_sq _ _ hev)))
  refine ite_sq hev (ite_sq (State.loseCore_sq _ h6) ?_)
  split
  · exact State.loseCore_sq _ h6
  · extract_lets w3 w4
    have k3 : SeqKept s₀ w3 := State.modCore_sq _ _ h6
    have k4 : SeqKept s₀ w4 := by
      dsimp -zeta only [w4]
      generalize n = y
      cases y
      · exact k3
      · exact State.mark_sq _ _ _ _ _ k3
    exact ite_sq (State.reportUnit_sq _ _ _ _ _ _ k4) (State.reportUnit_sq _ _ _ _ _ _ k4)

theorem State.clearGuard_sq (c : Nat) {s : State} (hev : SeqKept s₀ s) : SeqKept s₀ (State.clearGuard s c) := by
  unfold State.clearGuard
  with_reducible repeat' first | assumption | apply State.modCm_sq

theorem State.switchStream_sq (k : Nat) (t : Tile) {s : State} (hev : SeqKept s₀ s) : SeqKept s₀ (State.switchStream s k t) := by
  unfold State.switchStream
  with_reducible repeat' first | assumption | apply State.modStream_sq

theorem State.openScales_sq (n p : Nat) {s : State} (hev : SeqKept s₀ s) : SeqKept s₀ (State.openScales s n p) := by
  unfold State.openScales
  repeat' first
    | with_reducible assumption | extract_lets | with_reducible apply State.mark_sq | with_reducible apply State.modPart_sq
    | with_reducible apply State.modStream_sq | with_reducible apply State.switchStream_sq | with_reducible apply ite_sq
    | with_reducible apply foldl_sq | (intro _; exact ⟨rfl, rfl, rfl⟩) | intro _

theorem State.clearStore_sq (cl : Nat) {s : State} (hev : SeqKept s₀ s) : SeqKept s₀ (State.clearStore s cl) := by
  unfold State.clearStore
  with_reducible repeat' first | assumption | apply State.modCluster_sq

theorem State.loseLeaf_sq (cl : Nat) {s : State} (hev : SeqKept s₀ s) : SeqKept s₀ (State.loseLeaf s cl) := by
  unfold State.loseLeaf
  with_reducible repeat' first
    | assumption | extract_lets | apply State.dropLinks_sq | apply State.each_sq | apply State.loseCore_sq | apply ite_sq | intro _

theorem State.restartController_sq (cl : Nat) {s : State} (hev : SeqKept s₀ s) : SeqKept s₀ (State.restartController s cl) := by
  unfold State.restartController
  with_reducible repeat' first
    | assumption | extract_lets | apply State.clearGuard_sq | apply State.dadd_sq | apply State.each_sq | apply State.modCluster_sq
    | apply ite_sq | intro _

theorem State.restartMgmt_sq  {s : State} (hev : SeqKept s₀ s) : SeqKept s₀ (State.restartMgmt s) := by
  unfold State.restartMgmt
  with_reducible repeat' first
    | assumption | extract_lets | apply State.dadd_sq | apply State.dset_sq | apply State.modRel_sq | apply State.modSec_sq | apply ite_sq

theorem State.markSlice_sq (i detail origin : Nat) {s : State} (hev : SeqKept s₀ s) : SeqKept s₀ (State.markSlice s i detail origin) := by
  unfold State.markSlice
  with_reducible repeat' first
    | assumption | extract_lets | apply State.dropLinks_sq | apply State.logDefect_sq | apply State.modFloor_sq | apply State.modSlice_sq
    | apply ite_sq

theorem State.loseSubchannel_sq (i : Nat) {s : State} (hev : SeqKept s₀ s) : SeqKept s₀ (State.loseSubchannel s i) := by
  unfold State.loseSubchannel
  with_reducible repeat' first
    | assumption | extract_lets | apply State.each_sq | apply State.modCluster_sq | apply State.modCore_sq | apply State.modSlice_sq
    | apply State.modStream_sq | intro _

theorem State.excludeEnds_sq (sw port : Nat) {s : State} (hev : SeqKept s₀ s) : SeqKept s₀ (State.excludeEnds s sw port) := by
  unfold State.excludeEnds
  with_reducible repeat' first
    | assumption | extract_lets | apply State.dset_sq | apply State.logDefect_sq | apply State.modFab_sq | apply State.wantGen_sq
    | apply ite_sq

theorem State.actOn_sq (rep : FaultReport) {s : State} (hev : SeqKept s₀ s) : SeqKept s₀ (State.actOn s rep) := by
  unfold State.actOn
  extract_lets core slice
  generalize core = y, slice = z
  refine ite_sq (State.clearStore_sq _ hev) (ite_sq (State.restartController_sq _ hev) (ite_sq (State.loseLeaf_sq _ hev) (ite_sq ?_ (ite_sq ?_
    (ite_sq (State.loseSubchannel_sq _ hev) (ite_sq (State.excludeEnds_sq _ _ hev) hev))))))
  · cases y
    · exact hev
    · exact State.declareFailed_sq _ hev
  · cases z
    · exact hev
    · exact State.markSlice_sq _ _ _ hev

theorem State.doFault_sq (rep : FaultReport) {s : State} (hev : SeqKept s₀ s) : SeqKept s₀ (State.doFault s rep) := by
  unfold State.doFault
  with_reducible repeat' first
    | assumption | extract_lets | apply State.actOn_sq | apply State.report_sq | apply State.restartMgmt_sq | apply ite_sq

end Sys2Proof.Machine
end

