-- ==== Sys2Proof/Laws/Aside.lean ====
section
/-!
SUPPORT. What the work of cores, pitches and reports leaves alone: `Aside s u`.
-/

namespace Sys2Proof.Machine

/-- From `s` to `u` the fields named here stand as they were. -/
structure Aside (s u : State) : Prop where
  pending : u.pending = s.pending
  reqs : u.reqs = s.reqs
  queues : u.queues = s.queues
  syncs : u.syncs = s.syncs
  mem : u.mem = s.mem
  keep : u.keep = s.keep
  sec : u.sec = s.sec
  pins : u.pins = s.pins

variable {s₀ s : State}

theorem Aside.refl (s : State) : Aside s s := ⟨rfl, rfl, rfl, rfl, rfl, rfl, rfl, rfl⟩
theorem Aside.trans {a b c : State} (h : Aside a b) (k : Aside b c) : Aside a c :=
  ⟨k.pending.trans h.pending, k.reqs.trans h.reqs, k.queues.trans h.queues, k.syncs.trans h.syncs, k.mem.trans h.mem, k.keep.trans h.keep, k.sec.trans h.sec, k.pins.trans h.pins⟩

theorem ite_as {p : Prop} [Decidable p] {a b : State} (ha : Aside s₀ a) (hb : Aside s₀ b) : Aside s₀ (if p then a else b) := by
  split <;> assumption
theorem ite_snd_as {α : Type} {p : Prop} [Decidable p] {a b : α × State} (ha : Aside s₀ a.2) (hb : Aside s₀ b.2) :
    Aside s₀ (if p then a else b).2 := by
  split <;> assumption
theorem ite_fst_as {α : Type} {p : Prop} [Decidable p] {a b : State × α} (ha : Aside s₀ a.1) (hb : Aside s₀ b.1) :
    Aside s₀ (if p then a else b).1 := by
  split <;> assumption

theorem foldl_as {α : Type} (l : List α) {f : State → α → State} (hf : ∀ s x, Aside s₀ s → Aside s₀ (f s x)) (h : Aside s₀ s) :
    Aside s₀ (l.foldl f s) := by
  induction l generalizing s with
  | nil => exact h
  | cons x r ih => exact ih (hf s x h)
theorem foldl_fst_as {α β : Type} (l : List α) {f : State × β → α → State × β} (hf : ∀ p x, Aside s₀ p.1 → Aside s₀ (f p x).1)
    {p : State × β} (h : Aside s₀ p.1) : Aside s₀ (l.foldl f p).1 := by
  induction l generalizing p with
  | nil => exact h
  | cons x r ih => exact ih (hf p x h)
theorem foldl_snd_as {α β : Type} (l : List α) {f : β × State → α → β × State} (hf : ∀ p x, Aside s₀ p.2 → Aside s₀ (f p x).2)
    {p : β × State} (h : Aside s₀ p.2) : Aside s₀ (l.foldl f p).2 := by
  induction l generalizing p with
  | nil => exact h
  | cons x r ih => exact ih (hf p x h)
theorem State.each_as (l : List Nat) {f : State → Nat → State} (hf : ∀ s x, Aside s₀ s → Aside s₀ (f s x)) (h : Aside s₀ s) :
    Aside s₀ (s.each l f) := foldl_as l hf h


/-! ### The basic updates -/

theorem State.modPart_as (n : Nat) (f : Part → Part) (h : Aside s₀ s) : Aside s₀ (s.modPart n f) := ⟨h.pending, h.reqs, h.queues, h.syncs, h.mem, h.keep, h.sec, h.pins⟩
theorem State.modCore_as (c : Nat) (f : Core → Core) (h : Aside s₀ s) : Aside s₀ (s.modCore c f) := ⟨h.pending, h.reqs, h.queues, h.syncs, h.mem, h.keep, h.sec, h.pins⟩
theorem State.modCluster_as (c : Nat) (f : Cluster → Cluster) (h : Aside s₀ s) : Aside s₀ (s.modCluster c f) := ⟨h.pending, h.reqs, h.queues, h.syncs, h.mem, h.keep, h.sec, h.pins⟩
theorem State.modStream_as (k : Nat) (f : Stream → Stream) (h : Aside s₀ s) : Aside s₀ (s.modStream k f) := ⟨h.pending, h.reqs, h.queues, h.syncs, h.mem, h.keep, h.sec, h.pins⟩
theorem State.modGroup_as (g : Nat) (f : Group → Group) (h : Aside s₀ s) : Aside s₀ (s.modGroup g f) := ⟨h.pending, h.reqs, h.queues, h.syncs, h.mem, h.keep, h.sec, h.pins⟩
theorem State.modSlice_as (i : Nat) (f : Slice → Slice) (h : Aside s₀ s) : Aside s₀ (s.modSlice i f) := ⟨h.pending, h.reqs, h.queues, h.syncs, h.mem, h.keep, h.sec, h.pins⟩
theorem State.modFunc_as (i : Nat) (f : Func → Func) (h : Aside s₀ s) : Aside s₀ (s.modFunc i f) := ⟨h.pending, h.reqs, h.queues, h.syncs, h.mem, h.keep, h.sec, h.pins⟩
theorem State.modMailbox_as (k : Nat) (f : Mailbox → Mailbox) (h : Aside s₀ s) : Aside s₀ (s.modMailbox k f) := ⟨h.pending, h.reqs, h.queues, h.syncs, h.mem, h.keep, h.sec, h.pins⟩
theorem State.modDataPort_as (p : Nat) (f : DataPort → DataPort) (h : Aside s₀ s) : Aside s₀ (s.modDataPort p f) := ⟨h.pending, h.reqs, h.queues, h.syncs, h.mem, h.keep, h.sec, h.pins⟩
theorem State.modObj_as (j : Nat) (f : Obj → Obj) (h : Aside s₀ s) : Aside s₀ (s.modObj j f) := ⟨h.pending, h.reqs, h.queues, h.syncs, h.mem, h.keep, h.sec, h.pins⟩
theorem State.modRem_as (e n : Nat) (f : RemoteBuf → RemoteBuf) (h : Aside s₀ s) : Aside s₀ (s.modRem e n f) := ⟨h.pending, h.reqs, h.queues, h.syncs, h.mem, h.keep, h.sec, h.pins⟩
theorem State.modCm_as (f : CoreMem → CoreMem) (h : Aside s₀ s) : Aside s₀ (s.modCm f) := ⟨h.pending, h.reqs, h.queues, h.syncs, h.mem, h.keep, h.sec, h.pins⟩
theorem State.modPow_as (f : Power → Power) (h : Aside s₀ s) : Aside s₀ (s.modPow f) := ⟨h.pending, h.reqs, h.queues, h.syncs, h.mem, h.keep, h.sec, h.pins⟩
theorem State.modRel_as (f : Rel → Rel) (h : Aside s₀ s) : Aside s₀ (s.modRel f) := ⟨h.pending, h.reqs, h.queues, h.syncs, h.mem, h.keep, h.sec, h.pins⟩
theorem State.modFab_as (f : Fabric → Fabric) (h : Aside s₀ s) : Aside s₀ (s.modFab f) := ⟨h.pending, h.reqs, h.queues, h.syncs, h.mem, h.keep, h.sec, h.pins⟩
theorem State.modPorts_as (f : Ports → Ports) (h : Aside s₀ s) : Aside s₀ (s.modPorts f) := ⟨h.pending, h.reqs, h.queues, h.syncs, h.mem, h.keep, h.sec, h.pins⟩
theorem State.modClk_as (f : Clock → Clock) (h : Aside s₀ s) : Aside s₀ (s.modClk f) := ⟨h.pending, h.reqs, h.queues, h.syncs, h.mem, h.keep, h.sec, h.pins⟩
theorem State.modFloor_as (f : Floor → Floor) (h : Aside s₀ s) : Aside s₀ (s.modFloor f) := ⟨h.pending, h.reqs, h.queues, h.syncs, h.mem, h.keep, h.sec, h.pins⟩
theorem State.dset_as (k v : Nat) (h : Aside s₀ s) : Aside s₀ (s.dset k v) := ⟨h.pending, h.reqs, h.queues, h.syncs, h.mem, h.keep, h.sec, h.pins⟩
theorem State.dadd_as (k a : Nat) (h : Aside s₀ s) : Aside s₀ (s.dadd k a) := ⟨h.pending, h.reqs, h.queues, h.syncs, h.mem, h.keep, h.sec, h.pins⟩
theorem State.dadd64_as (k a : Nat) (h : Aside s₀ s) : Aside s₀ (s.dadd64 k a) := ⟨h.pending, h.reqs, h.queues, h.syncs, h.mem, h.keep, h.sec, h.pins⟩
theorem State.dclear_as (k : Nat) (h : Aside s₀ s) : Aside s₀ (s.dclear k) := ⟨h.pending, h.reqs, h.queues, h.syncs, h.mem, h.keep, h.sec, h.pins⟩
theorem State.dmax_as (k v : Nat) (h : Aside s₀ s) : Aside s₀ (s.dmax k v) := ⟨h.pending, h.reqs, h.queues, h.syncs, h.mem, h.keep, h.sec, h.pins⟩
theorem State.dsetHeld_as (k v : Nat) (h : Aside s₀ s) : Aside s₀ (s.dsetHeld k v) := ⟨h.pending, h.reqs, h.queues, h.syncs, h.mem, h.keep, h.sec, h.pins⟩
theorem State.release_as (p : Nat → Bool) (h : Aside s₀ s) : Aside s₀ (s.release p) := ⟨h.pending, h.reqs, h.queues, h.syncs, h.mem, h.keep, h.sec, h.pins⟩
theorem State.outs_as (l : List Output) (h : Aside s₀ s) : Aside s₀ (s.outs l) := by
  rw [State.outs_eq]
  exact ⟨h.pending, h.reqs, h.queues, h.syncs, h.mem, h.keep, h.sec, h.pins⟩
theorem State.out_as (o : Output) (h : Aside s₀ s) : Aside s₀ (s.out o) := by
  exact State.outs_as [o] h
theorem State.takeFree_as  (h : Aside s₀ s) : Aside s₀ s.takeFree.2 := ⟨h.pending, h.reqs, h.queues, h.syncs, h.mem, h.keep, h.sec, h.pins⟩
theorem State.mk_as {clk : Clock} {dict : SMap Nat} {heldVals : SMap (Option Nat)} {cm : CoreMem} {cores : SMap Core} {clusters : SMap Cluster} {parts : SMap Part} {hauls : SMap (Option Haul)} {haulNext : Nat} {remote : SMap RemoteBuf} {streams : SMap Stream} {groups : SMap Group} {slices : SMap Slice} {fab : Fabric} {ports : Ports} {floor : Floor} {pow : Power} {rel : Rel} {outbox : List Output}
    (h : Aside s₀ s) : Aside s₀ ⟨s.pending, clk, dict, heldVals, s.reqs, cm, cores, clusters, parts, hauls, haulNext, remote, streams, groups, s.queues, s.syncs, slices, s.mem, s.keep, fab, ports, s.pins, floor, pow, rel, s.sec, outbox⟩ := ⟨h.pending, h.reqs, h.queues, h.syncs, h.mem, h.keep, h.sec, h.pins⟩

/-! ### The operations -/

theorem State.mark_as (n type arg0 arg1 arg2 : Nat) {s : State} (hev : Aside s₀ s) : Aside s₀ (State.mark s n type arg0 arg1 arg2) := by
  unfold State.mark
  with_reducible repeat' first | assumption | apply State.modPart_as

theorem State.modHalf_as (h : Nat) (f : Half → Half) {s : State} (hev : Aside s₀ s) : Aside s₀ (State.modHalf s h f) := by
  unfold State.modHalf
  with_reducible repeat' first | assumption | extract_lets | apply State.modPow_as | apply ite_as

theorem State.modProj_as (n p : Nat) (f : Proj → Proj) {s : State} (hev : Aside s₀ s) : Aside s₀ (State.modProj s n p f) := by
  unfold State.modProj
  with_reducible repeat' first | assumption | apply State.modPart_as

theorem State.encodeChannel_as (k : Nat) (t : Tile) (clamp : Bool) (km p : Nat) (x : F32) (c : Nat) {s : State} (hev : Aside s₀ s) : Aside s₀ (State.encodeChannel s k t clamp km p x c) := by
  unfold State.encodeChannel
  with_reducible repeat' first
    | assumption | extract_lets | apply State.dadd_as | apply State.dadd64_as | apply State.modStream_as | apply ite_as

theorem State.encodeSample_as (k : Nat) (t : Tile) (clamp : Bool) (km p : Nat) (x : Sample) {s : State} (hev : Aside s₀ s) : Aside s₀ (State.encodeSample s k t clamp km p x) := by
  unfold State.encodeSample
  with_reducible repeat' first | assumption | extract_lets | apply State.each_as | apply State.encodeChannel_as | intro _

theorem State.journalStream_as (k p : Nat) (es : List (Nat × BitVec 64)) {s : State} (hev : Aside s₀ s) : Aside s₀ (State.journalStream s k p es) := by
  unfold State.journalStream
  with_reducible repeat' first | assumption | extract_lets | apply State.modStream_as | apply ite_as

theorem State.launchEncoded_as (n k : Nat) {s : State} (hev : Aside s₀ s) : Aside s₀ (State.launchEncoded s n k) := by
  unfold State.launchEncoded
  extract_lets st
  generalize st.unlaunched = l
  cases l with
  | nil => exact hev
  | cons e r =>
    let mine := ((e :: r).filter (fun x => x.1 == e.1)).take 256
    let rest := (e :: r).filter (fun x => x.1 != e.1) ++ ((e :: r).filter (fun x => x.1 == e.1)).drop 256
    have h := State.dadd64_as (kEventsEncoded k) mine.length (State.journalStream_as k (s.pitchOf n) mine
      (State.modStream_as k (fun q => { q with unlaunched := rest }) hev))
    exact ⟨h.pending, h.reqs, h.queues, h.syncs, h.mem, h.keep, h.sec, h.pins⟩

theorem State.latch_as (k : Nat) {s : State} (hev : Aside s₀ s) : Aside s₀ (State.latch s k).2 := by
  unfold State.latch
  repeat' first
    | with_reducible assumption | extract_lets | with_reducible apply State.dset_as | with_reducible apply State.modStream_as
    | with_reducible apply ite_snd_as | split

theorem State.encodeStream_as (n k p km : Nat) (t : Tile) {s : State} (hev : Aside s₀ s) : Aside s₀ (State.encodeStream s n k p km t) := by
  unfold State.encodeStream
  extract_lets v1 v2 v3 v4 v5 v6 v7 v8 v9 v10
  have h3 : Aside s₀ v3.2 := State.latch_as _ hev
  have h4 : Aside s₀ v4 := by
    dsimp -zeta only [v4]
    generalize v3.1 = y
    cases y
    · exact h3
    · exact State.dset_as _ _ (State.dset_as _ _ h3)
  have h7 : Aside s₀ v7 := State.modStream_as _ _ h4
  have h9 : Aside s₀ v9 := State.modStream_as _ _ (State.dadd_as _ _ h7)
  have h10 : Aside s₀ v10 := by
    dsimp -zeta only [v10]
    generalize v6 = y
    generalize v1.fresh = z
    cases y <;> cases z
    · exact h9
    · exact ite_as (State.encodeSample_as _ _ _ _ _ _ h9) h9
    all_goals exact State.encodeSample_as _ _ _ _ _ _ (State.modStream_as _ _ h7)
  exact State.launchEncoded_as _ _ (ite_as (State.dadd_as _ _ h10) h10)

theorem State.switchStream_as (k : Nat) (t : Tile) {s : State} (hev : Aside s₀ s) : Aside s₀ (State.switchStream s k t) := by
  unfold State.switchStream
  with_reducible repeat' first | assumption | apply State.modStream_as

theorem State.openScales_as (n p : Nat) {s : State} (hev : Aside s₀ s) : Aside s₀ (State.openScales s n p) := by
  unfold State.openScales
  with_reducible repeat' first
    | assumption | extract_lets | apply State.mark_as | apply State.modPart_as | apply State.modStream_as | apply State.switchStream_as
    | apply ite_as | apply foldl_as | intro _

theorem State.openProjs_as (n p : Nat) {s : State} (hev : Aside s₀ s) : Aside s₀ (State.openProjs s n p) := by
  unfold State.openProjs
  with_reducible repeat' first
    | assumption | extract_lets | apply State.each_as | apply State.mark_as | apply State.modPart_as | apply State.modProj_as
    | apply foldl_as | intro _

theorem State.openPitch_as (n num inst : Nat) {s : State} (hev : Aside s₀ s) : Aside s₀ (State.openPitch s n num inst) := by
  unfold State.openPitch
  repeat' first
    | with_reducible assumption | extract_lets | with_reducible apply State.dadd64_as | with_reducible apply State.dset_as
    | with_reducible apply State.each_as | with_reducible apply State.encodeStream_as | with_reducible apply State.modCluster_as
    | with_reducible apply State.modHalf_as | with_reducible apply State.modPart_as | with_reducible apply State.openProjs_as
    | with_reducible apply State.openScales_as | with_reducible apply ite_as | intro _ | split

end Sys2Proof.Machine
end

