-- ==== Sys2Proof/Laws/EvolveSecurity.lean ====
section
/-!
SUPPORT. What no command does: the operations of Security.lean (see Evolve.lean).
-/

namespace Sys2Proof.Machine

variable {s₀ : State}

theorem State.fwFail_ev (code : Nat) {s : State} (hev : Evolves s₀ s) : Evolves s₀ (State.fwFail s code) := by
  unfold State.fwFail
  with_reducible repeat' first | assumption | extract_lets | apply State.dset_ev | apply State.modSec_ev | (intro _; exact Nat.le_refl _)

theorem State.eraseB_ev  {s : State} (hev : Evolves s₀ s) : Evolves s₀ (State.eraseB s) := by
  unfold State.eraseB
  repeat' first
    | with_reducible assumption
    | extract_lets
    | with_reducible apply State.modSec_ev
    | with_reducible apply State.overClear_ev
    | with_reducible apply ite_ev
    | with_reducible apply ite_snd_ev
    | with_reducible apply ite_fst_ev
    | with_reducible apply ite_evTo
    | with_reducible apply evolvesTo_next
    | with_reducible exact Evolves.refl _
    | with_reducible apply foldl_ev
    | with_reducible apply foldl_fst_ev
    | with_reducible apply foldl_snd_ev
    | with_reducible rfl
    | with_reducible exact Nat.le_refl _
    | (intro _; with_reducible exact Nat.le_refl _)
    | (intro _; with_reducible exact rfl)
    | (intro m hm; change Memory.wf _ = true; exact hm)
    | intro _
    | split
    | dsimp only
    | with_reducible apply State.mk_ev

theorem State.doStage_ev {s : State} (hev : Evolves s₀ s) : Evolves s₀ (State.doStage s).2 := by
  unfold State.doStage
  with_reducible repeat' first
    | assumption | extract_lets | apply State.dset_ev | apply State.eraseB_ev | apply State.fwFail_ev | apply State.modSec_ev | apply ite_ev
    | apply ite_snd_ev | (intro _; exact Nat.le_refl _)

theorem State.doFwChunk_ev (b : Bytes) {s : State} (hev : Evolves s₀ s) : Evolves s₀ (State.doFwChunk s b).2 := by
  unfold State.doFwChunk
  extract_lets o total d old s1
  have h1 : Evolves s₀ s1 := ite_ev (State.dset_ev _ _ (State.dset_ev _ _ (State.eraseB_ev hev))) hev
  clear_value s1
  refine ite_snd_ev hev (ite_snd_ev hev (ite_snd_ev hev ?_))
  generalize old = y
  cases y with
  | none => exact State.fwFail_ev _ h1
  | some c =>
    refine ite_snd_ev (State.fwFail_ev _ h1) ?_
    have h2 := State.modSec_ev (s := s1) (s₀ := s₀) (f := fun x => { x with chunks := some (total, c.2 ++ d) }) (fun _ => Nat.le_refl _) h1
    exact ite_ev (State.dset_ev _ _ h2) h2

theorem State.doActivate_ev {s : State} (hev : Evolves s₀ s) : Evolves s₀ (State.doActivate s).2 := by
  unfold State.doActivate
  with_reducible repeat' first | assumption | extract_lets | apply State.dset_ev | apply ite_snd_ev

theorem State.doCancel_ev {s : State} (hev : Evolves s₀ s) : Evolves s₀ (State.doCancel s).2 := by
  unfold State.doCancel
  with_reducible repeat' first | assumption | extract_lets | apply State.dset_ev | apply ite_snd_ev

theorem State.doConfirm_ev {s : State} (hev : Evolves s₀ s) : Evolves s₀ (State.doConfirm s).2 := by
  unfold State.doConfirm
  with_reducible repeat' first | assumption | extract_lets | apply State.confirmTrial_ev | apply ite_snd_ev

theorem State.doReject_ev  {s : State} (hev : Evolves s₀ s) : Evolves s₀ (State.doReject s).2 := by
  unfold State.doReject
  repeat' first
    | with_reducible assumption
    | extract_lets
    | with_reducible apply State.dset_ev
    | with_reducible apply State.modSec_ev
    | with_reducible apply State.writeBoot_ev
    | with_reducible apply ite_ev
    | with_reducible apply ite_snd_ev
    | with_reducible apply ite_fst_ev
    | with_reducible apply ite_evTo
    | with_reducible apply evolvesTo_next
    | with_reducible exact Evolves.refl _
    | with_reducible apply foldl_ev
    | with_reducible apply foldl_fst_ev
    | with_reducible apply foldl_snd_ev
    | with_reducible rfl
    | with_reducible exact Nat.le_refl _
    | (intro _; with_reducible exact Nat.le_refl _)
    | (intro _; with_reducible exact rfl)
    | (intro m hm; change Memory.wf _ = true; exact hm)
    | intro _
    | split
    | dsimp only
    | with_reducible apply State.mk_ev

theorem State.doCommitSvn_ev {s : State} (hev : Evolves s₀ s) : Evolves s₀ (State.doCommitSvn s).2 := by
  unfold State.doCommitSvn
  with_reducible repeat' first
    | assumption | extract_lets | apply State.modSec_ev | apply State.svnTick_ev | apply ite_snd_ev | (intro _; exact Nat.le_refl _)

theorem State.doFwCommand_ev (v : Nat) {s : State} (hev : Evolves s₀ s) : Evolves s₀ (State.doFwCommand s v).2 := by
  unfold State.doFwCommand
  with_reducible repeat' first
    | assumption | extract_lets | apply State.doActivate_ev | apply State.doCancel_ev | apply State.doCommitSvn_ev
    | apply State.doConfirm_ev | apply State.doReject_ev | apply State.doStage_ev | apply ite_snd_ev

theorem execStage_ev (r : Requester) (t : Nat) (s : State) : EvolvesTo s (execStage r t s) := by
  unfold execStage
  with_reducible repeat' first
    | extract_lets | apply State.doStage_ev | apply State.reach_ev | apply State.svnTick_ev | apply State.typed_ev | apply evolvesTo_next
    | exact Evolves.refl _

theorem execFwChunk_ev (r : Requester) (data : Bytes) (t : Nat) (s : State) : EvolvesTo s (execFwChunk r data t s) := by
  unfold execFwChunk
  with_reducible repeat' first
    | extract_lets | apply State.doFwChunk_ev | apply State.reach_ev | apply State.svnTick_ev | apply State.typed_ev | apply evolvesTo_next
    | exact Evolves.refl _

theorem execStagingVerify_ev (t : Nat) (s : State) : EvolvesTo s (execStagingVerify t s) := by
  unfold execStagingVerify
  extract_lets s1 img
  have h1 : Evolves s s1 := State.svnTick_ev (State.reach_ev _ (Evolves.refl _))
  clear_value img s1
  apply evolvesTo_next
  split
  · exact h1
  · extract_lets e s2 s3
    have h3 : Evolves s s3 := State.dset_ev _ _ (State.dset_ev _ _ (State.modSec_ev (fun _ => Nat.le_refl _) h1))
    exact ite_ev (State.modSec_ev (fun _ => Nat.le_refl _) h3) h3

theorem execActivate_ev (r : Requester) (t : Nat) (s : State) : EvolvesTo s (execActivate r t s) := by
  unfold execActivate
  with_reducible repeat' first
    | extract_lets | apply State.doActivate_ev | apply State.reach_ev | apply State.typed_ev | apply evolvesTo_next | exact Evolves.refl _

theorem execCancel_ev (r : Requester) (t : Nat) (s : State) : EvolvesTo s (execCancel r t s) := by
  unfold execCancel
  with_reducible repeat' first
    | extract_lets | apply State.doCancel_ev | apply State.reach_ev | apply State.typed_ev | apply evolvesTo_next | exact Evolves.refl _

theorem execConfirm_ev (r : Requester) (t : Nat) (s : State) : EvolvesTo s (execConfirm r t s) := by
  unfold execConfirm
  with_reducible repeat' first
    | extract_lets | apply State.doConfirm_ev | apply State.reach_ev | apply State.typed_ev | apply evolvesTo_next | exact Evolves.refl _

theorem execReject_ev (r : Requester) (t : Nat) (s : State) : EvolvesTo s (execReject r t s) := by
  unfold execReject
  with_reducible repeat' first
    | extract_lets | apply State.doReject_ev | apply State.reach_ev | apply State.typed_ev | apply evolvesTo_next | exact Evolves.refl _

theorem execCommitSvn_ev (r : Requester) (t : Nat) (s : State) : EvolvesTo s (execCommitSvn r t s) := by
  unfold execCommitSvn
  with_reducible repeat' first
    | extract_lets | apply State.doCommitSvn_ev | apply State.reach_ev | apply State.typed_ev | apply evolvesTo_next | exact Evolves.refl _

theorem State.doQuote_ev {s : State} (hev : Evolves s₀ s) : Evolves s₀ (State.doQuote s).2 := by
  unfold State.doQuote
  with_reducible repeat' first
    | assumption | extract_lets | apply State.dset_ev | apply State.modSec_ev | apply ite_snd_ev | (intro _; exact Nat.le_refl _)

theorem execQuote_ev (r : Requester) (t : Nat) (s : State) : EvolvesTo s (execQuote r t s) := by
  unfold execQuote
  with_reducible repeat' first
    | extract_lets | apply State.doQuote_ev | apply State.reach_ev | apply State.svnTick_ev | apply State.typed_ev | apply evolvesTo_next
    | exact Evolves.refl _

theorem execQuoteSigned_ev (t : Nat) (s : State) : EvolvesTo s (execQuoteSigned t s) := by
  unfold execQuoteSigned
  with_reducible repeat' first
    | extract_lets | apply State.dadd_ev | apply State.dset_ev | apply State.modSec_ev | apply State.reach_ev | apply ite_ev
    | apply evolvesTo_next | exact Evolves.refl _ | (intro _; exact Nat.le_refl _)

theorem State.loadLicences_ev  {s : State} (hev : Evolves s₀ s) : Evolves s₀ (State.loadLicences s) := by
  unfold State.loadLicences
  repeat' first
    | with_reducible assumption
    | extract_lets
    | with_reducible apply State.each_ev
    | with_reducible apply State.modFloor_ev
    | with_reducible apply ite_ev
    | with_reducible apply ite_snd_ev
    | with_reducible apply ite_fst_ev
    | with_reducible apply ite_evTo
    | with_reducible apply evolvesTo_next
    | with_reducible exact Evolves.refl _
    | with_reducible apply foldl_ev
    | with_reducible apply foldl_fst_ev
    | with_reducible apply foldl_snd_ev
    | with_reducible rfl
    | with_reducible exact Nat.le_refl _
    | (intro _; with_reducible exact Nat.le_refl _)
    | (intro _; with_reducible exact rfl)
    | (intro m hm; change Memory.wf _ = true; exact hm)
    | intro _
    | split
    | dsimp only
    | with_reducible apply State.mk_ev

theorem State.licenceEntries_ev {s : State} (hev : Evolves s₀ s) : Evolves s₀ (State.licenceEntries s) := by
  unfold State.licenceEntries
  with_reducible repeat' first | assumption | extract_lets | apply State.dset_ev

theorem State.doLicenceInstall_ev (b : Bytes) {s : State} (hev : Evolves s₀ s) : Evolves s₀ (State.doLicenceInstall s b).2 := by
  unfold State.doLicenceInstall
  repeat' first
    | with_reducible assumption
    | extract_lets
    | with_reducible apply State.licenceEntries_ev
    | with_reducible apply State.modFloor_ev
    | with_reducible apply State.overClear_ev
    | with_reducible apply ite_ev
    | with_reducible apply ite_snd_ev
    | with_reducible apply ite_fst_ev
    | with_reducible apply ite_evTo
    | with_reducible apply evolvesTo_next
    | with_reducible exact Evolves.refl _
    | with_reducible apply foldl_ev
    | with_reducible apply foldl_fst_ev
    | with_reducible apply foldl_snd_ev
    | with_reducible rfl
    | with_reducible exact Nat.le_refl _
    | (intro _; with_reducible exact Nat.le_refl _)
    | (intro _; with_reducible exact rfl)
    | (intro m hm; change Memory.wf _ = true; exact hm)
    | intro _
    | split
    | dsimp only
    | with_reducible apply State.mk_ev

theorem State.doLicenceRemove_ev (id : Nat) {s : State} (hev : Evolves s₀ s) : Evolves s₀ (State.doLicenceRemove s id).2 := by
  unfold State.doLicenceRemove
  repeat' first
    | with_reducible assumption
    | extract_lets
    | with_reducible apply State.licenceEntries_ev
    | with_reducible apply State.modFloor_ev
    | with_reducible apply State.overClear_ev
    | with_reducible apply ite_ev
    | with_reducible apply ite_snd_ev
    | with_reducible apply ite_fst_ev
    | with_reducible apply ite_evTo
    | with_reducible apply evolvesTo_next
    | with_reducible exact Evolves.refl _
    | with_reducible apply foldl_ev
    | with_reducible apply foldl_fst_ev
    | with_reducible apply foldl_snd_ev
    | with_reducible rfl
    | with_reducible exact Nat.le_refl _
    | (intro _; with_reducible exact Nat.le_refl _)
    | (intro _; with_reducible exact rfl)
    | (intro m hm; change Memory.wf _ = true; exact hm)
    | intro _
    | split
    | dsimp only
    | with_reducible apply State.mk_ev

theorem execLicenceInstall_ev (r : Requester) (data : Bytes) (t : Nat) (s : State) : EvolvesTo s (execLicenceInstall r data t s) := by
  unfold execLicenceInstall
  with_reducible repeat' first
    | extract_lets | apply State.doLicenceInstall_ev | apply State.reach_ev | apply State.typed_ev | apply evolvesTo_next
    | exact Evolves.refl _

theorem execLicenceRemove_ev (r : Requester) (id t : Nat) (s : State) : EvolvesTo s (execLicenceRemove r id t s) := by
  unfold execLicenceRemove
  with_reducible repeat' first
    | extract_lets | apply State.doLicenceRemove_ev | apply State.reach_ev | apply State.typed_ev | apply evolvesTo_next
    | exact Evolves.refl _

theorem State.newChallenge_ev {s : State} (hev : Evolves s₀ s) : Evolves s₀ (State.newChallenge s) := by
  unfold State.newChallenge
  with_reducible repeat' first | assumption | extract_lets | apply State.modClk_ev | apply State.modSec_ev | (intro _; exact Nat.le_refl _)

theorem State.doDebugToken_ev (b : Bytes) {s : State} (hev : Evolves s₀ s) : Evolves s₀ (State.doDebugToken s b).2 := by
  unfold State.doDebugToken
  with_reducible repeat' first
    | assumption | extract_lets | apply State.dset_ev | apply State.modSec_ev | apply State.newChallenge_ev | apply ite_snd_ev
    | (intro _; exact Nat.le_refl _)

theorem execDebugToken_ev (r : Requester) (data : Bytes) (t : Nat) (s : State) : EvolvesTo s (execDebugToken r data t s) := by
  unfold execDebugToken
  with_reducible repeat' first
    | extract_lets | apply State.doDebugToken_ev | apply State.reach_ev | apply State.typed_ev | apply evolvesTo_next | exact Evolves.refl _

theorem State.doJtagMode_ev (v : Nat) {s : State} (hev : Evolves s₀ s) : Evolves s₀ (State.doJtagMode s v).2 := by
  unfold State.doJtagMode
  with_reducible repeat' first | assumption | extract_lets | apply State.dset_ev | apply ite_snd_ev

theorem execJtagMode_ev (r : Requester) (v t : Nat) (s : State) : EvolvesTo s (execJtagMode r v t s) := by
  unfold execJtagMode
  with_reducible repeat' first
    | extract_lets | apply State.doJtagMode_ev | apply State.reach_ev | apply State.typed_ev | apply evolvesTo_next | exact Evolves.refl _

theorem State.doLockSet_ev (v : Nat) {s : State} (hev : Evolves s₀ s) : Evolves s₀ (State.doLockSet s v).2 := by
  unfold State.doLockSet
  with_reducible repeat' first
    | assumption | extract_lets | apply State.dset_ev | apply State.modSec_ev | apply ite_ev | (intro _; exact Nat.le_refl _)

theorem execLockSet_ev (r : Requester) (v t : Nat) (s : State) : EvolvesTo s (execLockSet r v t s) := by
  unfold execLockSet
  with_reducible repeat' first
    | extract_lets | apply State.doLockSet_ev | apply State.reach_ev | apply State.typed_ev | apply evolvesTo_next | exact Evolves.refl _

end Sys2Proof.Machine
end

