-- ==== Sys2Proof/Laws/EvolveResets.lean ====
section
/-!
SUPPORT. What no command does: the operations of Resets.lean (see Evolve.lean).
-/

namespace Sys2Proof.Machine

variable {s₀ : State}

theorem State.resetCoreUnit_ev (c : Nat) {s : State} (hev : Evolves s₀ s) : Evolves s₀ (State.resetCoreUnit s c) := by
  unfold State.resetCoreUnit
  with_reducible repeat' first | assumption | extract_lets | apply State.clearAcc_ev | apply State.clearCounters_ev | apply State.modCore_ev

theorem State.resetClusterUnit_ev (cl : Nat) (fails : List Nat) {s : State} (hev : Evolves s₀ s) : Evolves s₀ (State.resetClusterUnit s cl fails) := by
  unfold State.resetClusterUnit
  with_reducible repeat' first
    | assumption | extract_lets | apply State.each_ev | apply State.modCluster_ev | apply State.modFab_ev | apply State.resetCoreUnit_ev
    | apply State.testCore_ev | intro _

theorem State.refuseReset_ev (code : Nat) {s : State} (hev : Evolves s₀ s) : Evolves s₀ (State.refuseReset s code).2 := by
  unfold State.refuseReset
  with_reducible repeat' first | assumption | apply State.dadd_ev

theorem State.beginReset_ev (scope unit ms : Nat) {s : State} (hev : Evolves s₀ s) : Evolves s₀ (State.beginReset s scope unit ms) := by
  unfold State.beginReset
  repeat' first
    | with_reducible assumption
    | extract_lets
    | with_reducible apply State.modFloor_ev
    | with_reducible apply State.takeFree_ev
    | with_reducible apply ite_ev
    | with_reducible apply ite_snd_ev
    | with_reducible apply ite_fst_ev
    | with_reducible apply ite_evTo
    | with_reducible apply evolvesTo_next
    | with_reducible exact Evolves.refl _
    | with_reducible apply foldl_ev
    | with_reducible apply foldl_fst_ev
    | with_reducible apply foldl_snd_ev
    | with_reducible rfl
    | with_reducible exact Nat.le_refl _
    | (intro _; with_reducible exact Nat.le_refl _)
    | (intro _; with_reducible exact rfl)
    | (intro m hm; change Memory.wf _ = true; exact hm)
    | intro _
    | split
    | dsimp only
    | with_reducible apply State.mk_ev

theorem State.orQueue_ev (scope unit : Nat) (fails : List Nat) {go : State → State} (hgo : ∀ s, Evolves s₀ s → Evolves s₀ (go s)) {s : State}
    (hev : Evolves s₀ s) : Evolves s₀ (s.orQueue scope unit fails go).2 := by
  refine ite_snd_ev (hgo _ hev) (ite_snd_ev ?_ (State.refuseReset_ev _ hev))
  dsimp only
  refine State.modFloor_ev ?_ hev
  exact fun _ => rfl


theorem State.doCoreReset_ev (c : Nat) (pass : Bool) {s : State} (hev : Evolves s₀ s) : Evolves s₀ (State.doCoreReset s c pass).2 := by
  exact ite_snd_ev (State.refuseReset_ev _ hev) (ite_snd_ev (State.refuseReset_ev _ hev) (State.orQueue_ev _ _ _ (fun _ h =>
    State.testCore_ev _ _ (State.dadd_ev _ _ (State.resetCoreUnit_ev _ (State.beginReset_ev _ _ _ h)))) hev))

theorem State.clusterResetNow_ev (cl : Nat) (fails : List Nat) {s : State} (hev : Evolves s₀ s) : Evolves s₀ (State.clusterResetNow s cl fails) := by
  unfold State.clusterResetNow
  repeat' first
    | with_reducible assumption
    | extract_lets
    | with_reducible apply State.beginReset_ev
    | with_reducible apply State.dadd_ev
    | with_reducible apply State.resetClusterUnit_ev
    | with_reducible apply State.resetEndpoint_ev
    | with_reducible apply ite_ev
    | with_reducible apply ite_snd_ev
    | with_reducible apply ite_fst_ev
    | with_reducible apply ite_evTo
    | with_reducible apply evolvesTo_next
    | with_reducible exact Evolves.refl _
    | with_reducible apply foldl_ev
    | with_reducible apply foldl_fst_ev
    | with_reducible apply foldl_snd_ev
    | with_reducible rfl
    | with_reducible exact Nat.le_refl _
    | (intro _; with_reducible exact Nat.le_refl _)
    | (intro _; with_reducible exact rfl)
    | (intro m hm; change Memory.wf _ = true; exact hm)
    | intro _
    | split
    | dsimp only
    | with_reducible apply State.mk_ev

theorem State.doClusterReset_ev (cl : Nat) (fails : List Nat) {s : State} (hev : Evolves s₀ s) : Evolves s₀ (State.doClusterReset s cl fails).2 := by
  exact ite_snd_ev (State.refuseReset_ev _ hev) (ite_snd_ev (State.refuseReset_ev _ hev) (State.orQueue_ev _ _ _ (fun _ h =>
    State.clusterResetNow_ev _ _ h) hev))

theorem State.flushJournal_ev (cl : Nat) {s : State} (hev : Evolves s₀ s) : Evolves s₀ (State.flushJournal s cl) := by
  unfold State.flushJournal
  repeat' first
    | with_reducible assumption
    | extract_lets
    | with_reducible apply State.journalPut_ev
    | with_reducible apply State.modCluster_ev
    | with_reducible apply ite_ev
    | with_reducible apply ite_snd_ev
    | with_reducible apply ite_fst_ev
    | with_reducible apply ite_evTo
    | with_reducible apply evolvesTo_next
    | with_reducible exact Evolves.refl _
    | with_reducible apply foldl_ev
    | with_reducible apply foldl_fst_ev
    | with_reducible apply foldl_snd_ev
    | with_reducible rfl
    | with_reducible exact Nat.le_refl _
    | (intro _; with_reducible exact Nat.le_refl _)
    | (intro _; with_reducible exact rfl)
    | (intro m hm; change Memory.wf _ = true; exact hm)
    | intro _
    | split
    | dsimp only
    | with_reducible apply State.mk_ev

theorem State.absorbOut_ev (c : Nat) {s : State} (hev : Evolves s₀ s) : Evolves s₀ (State.absorbOut s c) := by
  unfold State.absorbOut
  repeat' first
    | with_reducible assumption
    | extract_lets
    | with_reducible apply State.absorbCore_ev
    | with_reducible apply State.emitWaiting_ev
    | with_reducible apply State.flushJournal_ev
    | with_reducible apply State.integrateAll_ev
    | with_reducible apply ite_ev
    | with_reducible apply ite_snd_ev
    | with_reducible apply ite_fst_ev
    | with_reducible apply ite_evTo
    | with_reducible apply evolvesTo_next
    | with_reducible exact Evolves.refl _
    | with_reducible apply foldl_ev
    | with_reducible apply foldl_fst_ev
    | with_reducible apply foldl_snd_ev
    | with_reducible rfl
    | with_reducible exact Nat.le_refl _
    | (intro _; with_reducible exact Nat.le_refl _)
    | (intro _; with_reducible exact rfl)
    | (intro m hm; change Memory.wf _ = true; exact hm)
    | intro _
    | split
    | dsimp only
    | with_reducible apply State.mk_ev

theorem State.absorbPart_ev (n : Nat) {s : State} (hev : Evolves s₀ s) : Evolves s₀ (State.absorbPart s n) := by
  unfold State.absorbPart
  extract_lets s1 s2 s3 s4 s5
  have h2 : Evolves s₀ s2 := State.modRel_ev _ (State.each_ev _ (fun _ _ h => State.modCore_ev _ _ h) (State.modPart_ev _ _ hev))
  have h5 : Evolves s₀ s5 := State.each_ev _ (fun _ _ h => State.flushJournal_ev _ h) (State.each_ev _ (fun _ _ h => State.absorbOut_ev _ h)
    (State.disableAbsorb_ev _ h2))
  clear_value s5 s2
  refine ite_ev h2 (ite_ev (State.disableEffect_ev _ h2) (State.disableEffect_ev _ (State.closePitch_ev _ ?_)))
  exact State.mk_ev h5

theorem State.zeroTraces_ev (t : Tile) {s : State} (hev : Evolves s₀ s) : Evolves s₀ (State.zeroTraces s t) := by
  unfold State.zeroTraces
  with_reducible repeat' first | assumption | extract_lets | apply State.each_ev | apply State.tileWrite_ev | intro _

theorem State.resetSlot_ev (n i : Nat) {s : State} (hev : Evolves s₀ s) : Evolves s₀ (State.resetSlot s n i) := by
  unfold State.resetSlot
  with_reducible repeat' first | assumption | extract_lets | apply State.emptySlot_ev | apply ite_ev

theorem State.clearStatus_ev (n : Nat) {s : State} (hev : Evolves s₀ s) : Evolves s₀ (State.clearStatus s n) := by
  exact State.each_ev _ (fun _ _ h => State.modProj_ev _ _ _ h) (State.modPart_ev _ _ (State.dictFilter_ev _ hev))

theorem State.partitionResetNow_ev (n : Nat) (fails : List Nat) {s : State} (hev : Evolves s₀ s) : Evolves s₀ (State.partitionResetNow s n fails) := by
  unfold State.partitionResetNow
  extract_lets s1 s2 s3 eps s4 s5 s6 s7 s8 sl s9 s10 s11 s12 s13 mine s14
  have h2 : Evolves s₀ s2 := State.absorbPart_ev _ (State.each_ev _ (fun _ _ h => State.abandonApply_ev _ _ h) (State.beginReset_ev _ _ _ hev))
  have h3 : Evolves s₀ s3 := State.abandonCommit_ev _ (State.each_ev _ (fun _ _ h => State.abandonApply_ev _ _ h) h2)
  have h4 : Evolves s₀ s4 := State.abortDescs_ev _ (State.each_ev _ (fun _ _ h => State.resetEndpoint_ev _ h) h3)
  have h5 : Evolves s₀ s5 := State.each_ev _ (fun _ _ h => State.resetClusterUnit_ev _ _ h) h4
  have h6 : Evolves s₀ s6 := State.modRem_ev _ _ _ (State.modRem_ev _ _ _ h5)
  have h8 : Evolves s₀ s8 := State.modPart_ev _ _ (State.resetSlot_ev _ _ (State.resetSlot_ev _ _ h6))
  have h9 : Evolves s₀ s9 := State.each_ev _ (fun _ _ h => State.loadCore_ev _ _ h) h8
  have h10 : Evolves s₀ s10 := foldl_ev _ (fun _ _ h => State.zeroTraces_ev _ h) h9
  have h11 : Evolves s₀ s11 := by
    dsimp -zeta only [s11]
    clear_value s10
    split
    · exact State.setSlot_ev _ _ _ h10
    · exact h10
  have h13 : Evolves s₀ s13 := State.each_ev _ (fun _ _ h => State.doStreamEnable_ev _ _ h) (State.modPart_ev _ _ (State.dset_ev _ _ h11))
  have h14 : Evolves s₀ s14 := State.doGroupEnable_ev _ h13
  exact State.dadd_ev _ _ (State.modPart_ev _ _ (State.clearStatus_ev _ h14))

theorem State.doPartitionReset_ev (n : Nat) (fails : List Nat) {s : State} (hev : Evolves s₀ s) : Evolves s₀ (State.doPartitionReset s n fails).2 := by
  exact ite_snd_ev (State.refuseReset_ev _ hev) (ite_snd_ev (State.refuseReset_ev _ hev) (State.orQueue_ev _ _ _ (fun _ h =>
    State.partitionResetNow_ev _ _ h) hev))

theorem State.runQueued_ev (q : Nat × Nat × List Nat) {s : State} (hev : Evolves s₀ s) : Evolves s₀ (State.runQueued s q) := by
  unfold State.runQueued
  repeat' first
    | with_reducible assumption
    | extract_lets
    | with_reducible apply State.clusterResetNow_ev
    | with_reducible apply State.modFloor_ev
    | with_reducible apply State.partitionResetNow_ev
    | with_reducible apply ite_ev
    | with_reducible apply ite_snd_ev
    | with_reducible apply ite_fst_ev
    | with_reducible apply ite_evTo
    | with_reducible apply evolvesTo_next
    | with_reducible exact Evolves.refl _
    | with_reducible apply foldl_ev
    | with_reducible apply foldl_fst_ev
    | with_reducible apply foldl_snd_ev
    | with_reducible rfl
    | with_reducible exact Nat.le_refl _
    | (intro _; with_reducible exact Nat.le_refl _)
    | (intro _; with_reducible exact rfl)
    | (intro m hm; change Memory.wf _ = true; exact hm)
    | intro _
    | split
    | dsimp only
    | with_reducible apply State.mk_ev

theorem State.resetsDue_ev  {s : State} (hev : Evolves s₀ s) : Evolves s₀ (State.resetsDue s) := by
  unfold State.resetsDue
  repeat' first
    | with_reducible assumption
    | extract_lets
    | with_reducible apply State.modFloor_ev
    | with_reducible apply State.runQueued_ev
    | with_reducible apply ite_ev
    | with_reducible apply ite_snd_ev
    | with_reducible apply ite_fst_ev
    | with_reducible apply ite_evTo
    | with_reducible apply evolvesTo_next
    | with_reducible exact Evolves.refl _
    | with_reducible apply foldl_ev
    | with_reducible apply foldl_fst_ev
    | with_reducible apply foldl_snd_ev
    | with_reducible rfl
    | with_reducible exact Nat.le_refl _
    | (intro _; with_reducible exact Nat.le_refl _)
    | (intro _; with_reducible exact rfl)
    | (intro m hm; change Memory.wf _ = true; exact hm)
    | intro _
    | split
    | dsimp only
    | with_reducible apply State.mk_ev

theorem State.serve_ev (t : Nat) {s : State} (hev : Evolves s₀ s) : Evolves s₀ (State.serve s t) := by
  unfold State.serve
  repeat' first
    | with_reducible assumption
    | extract_lets
    | with_reducible apply State.reach_ev
    | with_reducible apply State.resetsDue_ev
    | with_reducible apply ite_ev
    | with_reducible apply ite_snd_ev
    | with_reducible apply ite_fst_ev
    | with_reducible apply ite_evTo
    | with_reducible apply evolvesTo_next
    | with_reducible exact Evolves.refl _
    | with_reducible apply foldl_ev
    | with_reducible apply foldl_fst_ev
    | with_reducible apply foldl_snd_ev
    | with_reducible rfl
    | with_reducible exact Nat.le_refl _
    | (intro _; with_reducible exact Nat.le_refl _)
    | (intro _; with_reducible exact rfl)
    | (intro m hm; change Memory.wf _ = true; exact hm)
    | intro _
    | split
    | dsimp only
    | with_reducible apply State.mk_ev

theorem State.doResetCommand_ev (w : Nat) (fails : List Nat) {s : State} (hev : Evolves s₀ s) : Evolves s₀ (State.doResetCommand s w fails).2 := by
  unfold State.doResetCommand
  repeat' first
    | with_reducible assumption | extract_lets | with_reducible apply State.doClusterReset_ev | with_reducible apply State.doCoreReset_ev
    | with_reducible apply State.doPartitionReset_ev | with_reducible apply State.modFloor_ev | (intro _; with_reducible exact rfl) | split

theorem execCoreReset_ev (r : Requester) (c : Nat) (pass : Bool) (t : Nat) (s : State) : EvolvesTo s (execCoreReset r c pass t s) := by
  unfold execCoreReset
  repeat' first
    | with_reducible assumption
    | extract_lets
    | with_reducible apply State.doCoreReset_ev
    | with_reducible apply State.serve_ev
    | with_reducible apply State.typed_ev
    | with_reducible apply ite_ev
    | with_reducible apply ite_snd_ev
    | with_reducible apply ite_fst_ev
    | with_reducible apply ite_evTo
    | with_reducible apply evolvesTo_next
    | with_reducible exact Evolves.refl _
    | with_reducible apply foldl_ev
    | with_reducible apply foldl_fst_ev
    | with_reducible apply foldl_snd_ev
    | with_reducible rfl
    | with_reducible exact Nat.le_refl _
    | (intro _; with_reducible exact Nat.le_refl _)
    | (intro _; with_reducible exact rfl)
    | (intro m hm; change Memory.wf _ = true; exact hm)
    | intro _
    | split
    | dsimp only
    | with_reducible apply State.mk_ev

theorem execClusterReset_ev (r : Requester) (cl : Nat) (fails : List Nat) (t : Nat) (s : State) : EvolvesTo s (execClusterReset r cl fails t s) := by
  unfold execClusterReset
  repeat' first
    | with_reducible assumption
    | extract_lets
    | with_reducible apply State.doClusterReset_ev
    | with_reducible apply State.serve_ev
    | with_reducible apply State.typed_ev
    | with_reducible apply ite_ev
    | with_reducible apply ite_snd_ev
    | with_reducible apply ite_fst_ev
    | with_reducible apply ite_evTo
    | with_reducible apply evolvesTo_next
    | with_reducible exact Evolves.refl _
    | with_reducible apply foldl_ev
    | with_reducible apply foldl_fst_ev
    | with_reducible apply foldl_snd_ev
    | with_reducible rfl
    | with_reducible exact Nat.le_refl _
    | (intro _; with_reducible exact Nat.le_refl _)
    | (intro _; with_reducible exact rfl)
    | (intro m hm; change Memory.wf _ = true; exact hm)
    | intro _
    | split
    | dsimp only
    | with_reducible apply State.mk_ev

theorem execPartitionReset_ev (r : Requester) (n : Nat) (fails : List Nat) (t : Nat) (s : State) : EvolvesTo s (execPartitionReset r n fails t s) := by
  unfold execPartitionReset
  repeat' first
    | with_reducible assumption
    | extract_lets
    | with_reducible apply State.doPartitionReset_ev
    | with_reducible apply State.serve_ev
    | with_reducible apply State.typed_ev
    | with_reducible apply ite_ev
    | with_reducible apply ite_snd_ev
    | with_reducible apply ite_fst_ev
    | with_reducible apply ite_evTo
    | with_reducible apply evolvesTo_next
    | with_reducible exact Evolves.refl _
    | with_reducible apply foldl_ev
    | with_reducible apply foldl_fst_ev
    | with_reducible apply foldl_snd_ev
    | with_reducible rfl
    | with_reducible exact Nat.le_refl _
    | (intro _; with_reducible exact Nat.le_refl _)
    | (intro _; with_reducible exact rfl)
    | (intro m hm; change Memory.wf _ = true; exact hm)
    | intro _
    | split
    | dsimp only
    | with_reducible apply State.mk_ev

end Sys2Proof.Machine
end

