-- ==== Sys2Proof/Laws/EvolveSettings.lean ====
section
/-!
SUPPORT. What no command does: the operations of Settings.lean (see Evolve.lean).
-/

namespace Sys2Proof.Machine

variable {s₀ : State}

theorem State.writeSched_ev (n j k v : Nat) {s : State} (hev : Evolves s₀ s) : Evolves s₀ (State.writeSched s n j k v).2 := by
  unfold State.writeSched
  repeat' first
    | with_reducible assumption
    | extract_lets
    | with_reducible apply State.dset_ev
    | with_reducible apply State.dsetHeld_ev
    | with_reducible apply State.release_ev
    | with_reducible apply ite_ev
    | with_reducible apply ite_snd_ev
    | with_reducible apply ite_fst_ev
    | with_reducible apply ite_evTo
    | with_reducible apply evolvesTo_next
    | with_reducible exact Evolves.refl _
    | with_reducible apply foldl_ev
    | with_reducible apply foldl_fst_ev
    | with_reducible apply foldl_snd_ev
    | with_reducible rfl
    | with_reducible exact Nat.le_refl _
    | (intro _; with_reducible exact Nat.le_refl _)
    | (intro _; with_reducible exact rfl)
    | (intro m hm; change Memory.wf _ = true; exact hm)
    | intro _
    | split
    | dsimp only
    | with_reducible apply State.mk_ev

theorem State.writeHeld_ev (busy : Bool) (k v : Nat) {s : State} (hev : Evolves s₀ s) : Evolves s₀ (State.writeHeld s busy k v).2 := by
  unfold State.writeHeld
  repeat' first
    | with_reducible assumption
    | extract_lets
    | with_reducible apply State.dset_ev
    | with_reducible apply State.dsetHeld_ev
    | with_reducible apply State.release_ev
    | with_reducible apply ite_ev
    | with_reducible apply ite_snd_ev
    | with_reducible apply ite_fst_ev
    | with_reducible apply ite_evTo
    | with_reducible apply evolvesTo_next
    | with_reducible exact Evolves.refl _
    | with_reducible apply foldl_ev
    | with_reducible apply foldl_fst_ev
    | with_reducible apply foldl_snd_ev
    | with_reducible rfl
    | with_reducible exact Nat.le_refl _
    | (intro _; with_reducible exact Nat.le_refl _)
    | (intro _; with_reducible exact rfl)
    | (intro m hm; change Memory.wf _ = true; exact hm)
    | intro _
    | split
    | dsimp only
    | with_reducible apply State.mk_ev

theorem State.writePeer_ev (n k v : Nat) {s : State} (hev : Evolves s₀ s) : Evolves s₀ (State.writePeer s n k v).2 := by
  unfold State.writePeer
  with_reducible repeat' first | assumption | extract_lets | apply State.dset_ev | apply State.sendReqs_ev | apply ite_snd_ev

theorem State.partCommand_ev (r : Requester) (n v : Nat) {s : State} (hev : Evolves s₀ s) : Evolves s₀ (State.partCommand s r n v).2 := by
  unfold State.partCommand
  with_reducible repeat' first
    | assumption | extract_lets | apply State.doCreate_ev | apply State.doDestroy_ev | apply State.doDisable_ev
    | apply State.doDisableNow_ev | apply State.doSwap_ev | apply State.doUnload_ev | apply ite_snd_ev

theorem State.writePart_ev (r : Requester) (n i j k v : Nat) {s : State} (hev : Evolves s₀ s) : Evolves s₀ (State.writePart s r n i j k v).2 := by
  unfold State.writePart
  repeat' first
    | with_reducible assumption
    | extract_lets
    | with_reducible apply State.doCounterClear_ev
    | with_reducible apply State.doKeep_ev
    | with_reducible apply State.doStationEnable_ev
    | with_reducible apply State.doStationNow_ev
    | with_reducible apply State.dset_ev
    | with_reducible apply State.partCommand_ev
    | with_reducible apply State.settleCaches_ev
    | with_reducible apply State.writeHeld_ev
    | with_reducible apply State.writePeer_ev
    | with_reducible apply ite_ev
    | with_reducible apply ite_snd_ev
    | with_reducible apply ite_fst_ev
    | with_reducible apply ite_evTo
    | with_reducible apply evolvesTo_next
    | with_reducible exact Evolves.refl _
    | with_reducible apply foldl_ev
    | with_reducible apply foldl_fst_ev
    | with_reducible apply foldl_snd_ev
    | with_reducible rfl
    | with_reducible exact Nat.le_refl _
    | (intro _; with_reducible exact Nat.le_refl _)
    | (intro _; with_reducible exact rfl)
    | (intro m hm; change Memory.wf _ = true; exact hm)
    | intro _
    | split
    | dsimp only
    | with_reducible apply State.mk_ev

theorem State.writeStream_ev (m j k v : Nat) (b : Bytes) {s : State} (hev : Evolves s₀ s) : Evolves s₀ (State.writeStream s m j k v b).2 := by
  unfold State.writeStream
  with_reducible repeat' first
    | assumption | extract_lets | apply State.doStreamEnable_ev | apply State.doStreamNow_ev | apply State.doStreamSample_ev
    | apply State.dset_ev | apply State.writeHeld_ev | apply ite_snd_ev

theorem State.writeObj_ev (m k v : Nat) {s : State} (hev : Evolves s₀ s) : Evolves s₀ (State.writeObj s m k v).2 := by
  unfold State.writeObj
  with_reducible repeat' first | assumption | extract_lets | apply State.doObjEnable_ev | apply State.dset_ev | apply ite_snd_ev

theorem State.writePort_ev (p k v : Nat) {s : State} (hev : Evolves s₀ s) : Evolves s₀ (State.writePort s p k v).2 := by
  unfold State.writePort
  with_reducible repeat' first
    | assumption | extract_lets | apply State.doPortEnable_ev | apply State.dset_ev | apply State.sendReqs_ev | apply ite_snd_ev

theorem State.writeDevice_ev (r : Requester) (k v : Nat) (b : Bytes) {s : State} (hev : Evolves s₀ s) : Evolves s₀ (State.writeDevice s r k v b).2 := by
  unfold State.writeDevice
  repeat' first
    | with_reducible assumption
    | extract_lets
    | with_reducible apply State.doClockReq_ev
    | with_reducible apply State.doConflictClear_ev
    | with_reducible apply State.doCoolReport_ev
    | with_reducible apply State.doDebugToken_ev
    | with_reducible apply State.doFaultAck_ev
    | with_reducible apply State.doFrameAll_ev
    | with_reducible apply State.doFrameOwner_ev
    | with_reducible apply State.doFwChunk_ev
    | with_reducible apply State.doFwCommand_ev
    | with_reducible apply State.doGrantWrite_ev
    | with_reducible apply State.doGroupEnable_ev
    | with_reducible apply State.doGroupNow_ev
    | with_reducible apply State.doJtagMode_ev
    | with_reducible apply State.doLicenceInstall_ev
    | with_reducible apply State.doLicenceRemove_ev
    | with_reducible apply State.doLockSet_ev
    | with_reducible apply State.doOutputEnable_ev
    | with_reducible apply State.doPowerTarget_ev
    | with_reducible apply State.doProfReq_ev
    | with_reducible apply State.doQuote_ev
    | with_reducible apply State.doRebuild_ev
    | with_reducible apply State.doResetCommand_ev
    | with_reducible apply State.doResetWeights_ev
    | with_reducible apply State.doRouteWeights_ev
    | with_reducible apply State.doSwapOut_ev
    | with_reducible apply State.dset_ev
    | with_reducible apply State.overClear_ev
    | with_reducible apply State.readdress_ev
    | with_reducible apply State.svnTick_ev
    | with_reducible apply State.updateFaultN_ev
    | with_reducible apply ite_ev
    | with_reducible apply ite_snd_ev
    | with_reducible apply ite_fst_ev
    | with_reducible apply ite_evTo
    | with_reducible apply evolvesTo_next
    | with_reducible exact Evolves.refl _
    | with_reducible apply foldl_ev
    | with_reducible apply foldl_fst_ev
    | with_reducible apply foldl_snd_ev
    | with_reducible rfl
    | with_reducible exact Nat.le_refl _
    | (intro _; with_reducible exact Nat.le_refl _)
    | (intro _; with_reducible exact rfl)
    | (intro m hm; change Memory.wf _ = true; exact hm)
    | intro _
    | split
    | dsimp only
    | with_reducible apply State.mk_ev

theorem State.doStore_ev (v : Nat) {s : State} (hev : Evolves s₀ s) : Evolves s₀ (State.doStore s v).2 := by
  unfold State.doStore
  repeat' first
    | with_reducible assumption | extract_lets | with_reducible apply State.dset_ev | with_reducible apply State.modMem_ev
    | with_reducible apply ite_snd_ev | (intro m hm; change Memory.wf _ = true; exact hm)

theorem execStore_ev (r : Requester) (t : Nat) (s : State) : EvolvesTo s (execStore r t s) := by
  unfold execStore
  with_reducible repeat' first
    | extract_lets | apply State.doStore_ev | apply State.reach_ev | apply State.typed_ev | apply evolvesTo_next | exact Evolves.refl _

theorem execStoreErase_ev (r : Requester) (t : Nat) (s : State) : EvolvesTo s (execStoreErase r t s) := by
  unfold execStoreErase
  with_reducible repeat' first
    | extract_lets | apply State.doStore_ev | apply State.reach_ev | apply State.typed_ev | apply evolvesTo_next | exact Evolves.refl _

theorem State.storeEntries_ev {s : State} (hev : Evolves s₀ s) : Evolves s₀ (State.storeEntries s) := by
  unfold State.storeEntries
  repeat' first | with_reducible assumption | extract_lets | with_reducible apply State.dset_ev | split

theorem execStoreWriteDone_ev (ok : Bool) (t : Nat) (s : State) : EvolvesTo s (execStoreWriteDone ok t s) := by
  unfold execStoreWriteDone
  extract_lets s1
  have h1 : Evolves s s1 := State.reach_ev _ (Evolves.refl _)
  clear_value s1
  apply evolvesTo_next
  split
  · exact h1
  · rename_i c heq
    refine ite_ev h1 (ite_ev (State.dset_ev _ _ (State.modMem_ev (fun _ hm => hm) h1)) ?_)
    refine State.storeEntries_ev (State.dset_ev _ _ (State.modMem_ev (fun m hm => ?_) (State.overClear_ev _ _ h1)))
    split <;> exact hm

theorem State.writeSelect_ev (r : Requester) (k v : Nat) {s : State} (hev : Evolves s₀ s) : Evolves s₀ (State.writeSelect s r k v).2 := by
  unfold State.writeSelect
  with_reducible repeat' first | assumption | extract_lets | apply State.modReq_ev | apply ite_snd_ev

theorem State.clearOut_ev (g : Nat) (f : OutCounts → OutCounts) {s : State} (hev : Evolves s₀ s) : Evolves s₀ (State.clearOut s g f) := by
  unfold State.clearOut
  with_reducible repeat' first
    | assumption | extract_lets | apply State.each_ev | apply State.modGroup_ev | apply State.modPart_ev | intro _

theorem State.writeClear_ev (r : Requester) (k : Nat) {s : State} (hev : Evolves s₀ s) : Evolves s₀ (State.writeClear s r k) := by
  unfold State.writeClear
  with_reducible repeat' first
    | assumption | extract_lets | apply State.clearOut_ev | apply State.dclear_ev | apply State.each_ev | apply State.modPart_ev
    | apply State.modQueue_ev | apply State.modSlice_ev | apply ite_ev | intro _

theorem State.writeEffect_ev (r : Requester) (k v : Nat) (b : Bytes) {s : State} (hev : Evolves s₀ s) : Evolves s₀ (State.writeEffect s r k v b).2 := by
  unfold State.writeEffect
  with_reducible repeat' first
    | assumption | extract_lets | apply State.doStore_ev | apply State.dset_ev | apply State.writeDevice_ev | apply State.writeObj_ev
    | apply State.writePart_ev | apply State.writePort_ev | apply State.writeSched_ev | apply State.writeSelect_ev
    | apply State.writeStream_ev | apply ite_snd_ev

theorem State.writeEntry_ev (r : Requester) (tag : Option Nat) (k : Nat) (b : Bytes) {s : State} (hev : Evolves s₀ s) : Evolves s₀ (State.writeEntry s r tag k b).2 := by
  unfold State.writeEntry
  repeat' first
    | with_reducible assumption | extract_lets | with_reducible apply State.doEnable_ev | with_reducible apply State.doLoad_ev
    | with_reducible apply State.naRequest_ev | with_reducible apply State.orWake_ev | with_reducible apply State.writeCheck_ev
    | with_reducible apply State.writeClear_ev | with_reducible apply State.writeEffect_ev | with_reducible apply State.writeSelect_ev
    | with_reducible apply ite_snd_ev | split

end Sys2Proof.Machine
end

