-- ==== Sys2Proof/Laws/EvolveBringup.lean ====
section
/-!
SUPPORT. What no command does: the operations of Bringup.lean (see Evolve.lean).
-/

namespace Sys2Proof.Machine

variable {s₀ : State}

theorem State.restart_ev (aon : Bool) {s : State} (hev : Evolves s₀ s) : Evolves s₀ (State.restart s aon) := by
  refine ⟨hev.pending, by cases aon <;> exact hev.now, hev.fuses, hev.svn, fun x => ?_, fun x => ?_⟩
  · have h := hev.mem x
    rw [Memory.wf_iff] at h ⊢
    exact ⟨rfl, rfl, h.2.2⟩
  · exact mwf_filter _ _ _ (hev.dict x)

theorem State.bootDebug_ev {s : State} (hev : Evolves s₀ s) : Evolves s₀ (State.bootDebug s) := by
  unfold State.bootDebug
  with_reducible repeat' first
    | assumption | extract_lets | apply State.dset_ev | apply State.modSec_ev | apply State.newChallenge_ev | apply ite_ev
    | (intro _; exact Nat.le_refl _)

theorem State.setBoot_ev (m : Nat) {s : State} (hev : Evolves s₀ s) : Evolves s₀ (State.setBoot s m) := by
  unfold State.setBoot
  repeat' first
    | with_reducible assumption
    | extract_lets
    | with_reducible apply State.writeBoot_ev
    | with_reducible apply ite_ev
    | with_reducible apply ite_snd_ev
    | with_reducible apply ite_fst_ev
    | with_reducible apply ite_evTo
    | with_reducible apply evolvesTo_next
    | with_reducible exact Evolves.refl _
    | with_reducible apply foldl_ev
    | with_reducible apply foldl_fst_ev
    | with_reducible apply foldl_snd_ev
    | with_reducible rfl
    | with_reducible exact Nat.le_refl _
    | (intro _; with_reducible exact Nat.le_refl _)
    | (intro _; with_reducible exact rfl)
    | (intro m hm; change Memory.wf _ = true; exact hm)
    | intro _
    | split
    | dsimp only
    | with_reducible apply State.mk_ev

theorem State.bootRom_ev  {s : State} (hev : Evolves s₀ s) : Evolves s₀ (State.bootRom s) := by
  unfold State.bootRom
  repeat' first
    | with_reducible assumption
    | extract_lets
    | with_reducible apply State.bootDebug_ev
    | with_reducible apply State.copyB_ev
    | with_reducible apply State.dset_ev
    | with_reducible apply State.modSec_ev
    | with_reducible apply State.setBoot_ev
    | with_reducible apply ite_ev
    | with_reducible apply ite_snd_ev
    | with_reducible apply ite_fst_ev
    | with_reducible apply ite_evTo
    | with_reducible apply evolvesTo_next
    | with_reducible exact Evolves.refl _
    | with_reducible apply foldl_ev
    | with_reducible apply foldl_fst_ev
    | with_reducible apply foldl_snd_ev
    | with_reducible rfl
    | with_reducible exact Nat.le_refl _
    | (intro _; with_reducible exact Nat.le_refl _)
    | (intro _; with_reducible exact rfl)
    | (intro m hm; change Memory.wf _ = true; exact hm)
    | intro _
    | split
    | dsimp only
    | with_reducible apply State.mk_ev

theorem State.judge_ev (f : BringupFacts) (u : UnitId) {s : State} (hev : Evolves s₀ s) : Evolves s₀ (State.judge s f u).2 := by
  unfold State.judge
  with_reducible repeat' first
    | assumption | extract_lets | apply State.dset_ev | apply State.logDefect_ev | apply ite_ev | apply ite_snd_ev

theorem State.judgeAll_ev (f : BringupFacts) {s : State} (hev : Evolves s₀ s) : Evolves s₀ (State.judgeAll s f).2 := by
  unfold State.judgeAll
  with_reducible repeat' first | assumption | extract_lets | apply State.judge_ev | apply foldl_snd_ev | intro _

theorem assigned_fuses {f : Floor → Nat → Floor} (hf : ∀ x c, (f x c).fuses = x.fuses) (l : List Nat) (x : Floor) :
    (l.foldl f x).fuses = x.fuses := by
  induction l generalizing x with
  | nil => rfl
  | cons c r ih => exact (ih _).trans (hf _ _)
theorem assignCluster_fuses (l : List (UnitId × Nat)) (x : Floor) (c : Nat) : (assignCluster l x c).fuses = x.fuses := rfl
theorem assignDie_fuses (l : List (UnitId × Nat)) (x : Floor) (c : Nat) : (assignDie l x c).fuses = x.fuses := rfl
theorem State.reconcile_ev (f : BringupFacts) {s : State} (hev : Evolves s₀ s) : Evolves s₀ (State.reconcile s f) := by
  unfold State.reconcile
  extract_lets before q l s1 s2 s3 s4 links ends
  have h1 : Evolves s₀ s1 := State.dset_ev _ _ (State.judgeAll_ev _ hev)
  clear_value s1
  have h2 : Evolves s₀ s2 := State.modFloor_ev (fun x => assigned_fuses (assignCluster_fuses l) _ x) h1
  clear_value s2
  have h3 : Evolves s₀ s3 := State.modFloor_ev (fun x => assigned_fuses (assignDie_fuses l) _ x) h2
  clear_value s3
  have h4 : Evolves s₀ s4 := State.modFloor_ev (fun _ => rfl) h3
  clear_value s4
  exact State.dset_ev _ _ (State.modFab_ev _ h4)


theorem State.restoreOne_ev (e : Nat × Bytes) {s : State} (hev : Evolves s₀ s) : Evolves s₀ (State.restoreOne s e) := by
  unfold State.restoreOne
  with_reducible repeat' first | assumption | extract_lets | apply State.dadd_ev | apply State.writeEntry_ev | apply ite_ev

theorem State.restoreStore_ev {s : State} (hev : Evolves s₀ s) : Evolves s₀ (State.restoreStore s) := by
  unfold State.restoreStore
  repeat' first
    | with_reducible assumption | extract_lets | with_reducible apply State.dset_ev | with_reducible apply State.restoreOne_ev
    | with_reducible apply State.storeEntries_ev | with_reducible apply foldl_ev | intro _ | split

theorem State.bringFail_ev (step : Nat) {s : State} (hev : Evolves s₀ s) : Evolves s₀ (State.bringFail s step) := by
  unfold State.bringFail
  with_reducible repeat' first | assumption | extract_lets | apply State.dset_ev | apply State.updateFaultN_ev

theorem State.loadRope_ev  {s : State} (hev : Evolves s₀ s) : Evolves s₀ (State.loadRope s) := by
  unfold State.loadRope
  repeat' first
    | with_reducible assumption
    | extract_lets
    | with_reducible apply State.dset_ev
    | with_reducible apply ite_ev
    | with_reducible apply ite_snd_ev
    | with_reducible apply ite_fst_ev
    | with_reducible apply ite_evTo
    | with_reducible apply evolvesTo_next
    | with_reducible exact Evolves.refl _
    | with_reducible apply foldl_ev
    | with_reducible apply foldl_fst_ev
    | with_reducible apply foldl_snd_ev
    | with_reducible rfl
    | with_reducible exact Nat.le_refl _
    | (intro _; with_reducible exact Nat.le_refl _)
    | (intro _; with_reducible exact rfl)
    | (intro m hm; change Memory.wf _ = true; exact hm)
    | intro _
    | split
    | dsimp only
    | with_reducible apply State.mk_ev

theorem State.bringFirmware_ev (f : BringupFacts) (fallback : Bool) {s : State} (hev : Evolves s₀ s) : Evolves s₀ (State.bringFirmware s f fallback) := by
  unfold State.bringFirmware
  repeat' first
    | with_reducible assumption
    | extract_lets
    | with_reducible apply State.bootEnd_ev
    | with_reducible apply State.bringFail_ev
    | with_reducible apply State.dset_ev
    | with_reducible apply State.each_ev
    | with_reducible apply State.licenceEntries_ev
    | with_reducible apply State.loadLicences_ev
    | with_reducible apply State.modFloor_ev
    | with_reducible apply State.openDefects_ev
    | with_reducible apply State.readdress_ev
    | with_reducible apply State.reconcile_ev
    | with_reducible apply State.report_ev
    | with_reducible apply State.restoreStore_ev
    | with_reducible apply ite_ev
    | with_reducible apply ite_snd_ev
    | with_reducible apply ite_fst_ev
    | with_reducible apply ite_evTo
    | with_reducible apply evolvesTo_next
    | with_reducible exact Evolves.refl _
    | with_reducible apply foldl_ev
    | with_reducible apply foldl_fst_ev
    | with_reducible apply foldl_snd_ev
    | with_reducible rfl
    | with_reducible exact Nat.le_refl _
    | (intro _; with_reducible exact Nat.le_refl _)
    | (intro _; with_reducible exact rfl)
    | (intro m hm; change Memory.wf _ = true; exact hm)
    | intro _
    | split
    | dsimp only
    | with_reducible apply State.mk_ev

theorem State.bringUp_ev (cause : Nat) (f : BringupFacts) {s : State} (hev : Evolves s₀ s) : Evolves s₀ (State.bringUp s cause f) := by
  unfold State.bringUp
  repeat' first
    | with_reducible assumption
    | extract_lets
    | with_reducible apply State.bootRom_ev
    | with_reducible apply State.bringFail_ev
    | with_reducible apply State.bringFirmware_ev
    | with_reducible apply State.dset_ev
    | with_reducible apply State.loadRope_ev
    | with_reducible apply State.readdress_ev
    | with_reducible apply ite_ev
    | with_reducible apply ite_snd_ev
    | with_reducible apply ite_fst_ev
    | with_reducible apply ite_evTo
    | with_reducible apply evolvesTo_next
    | with_reducible exact Evolves.refl _
    | with_reducible apply foldl_ev
    | with_reducible apply foldl_fst_ev
    | with_reducible apply foldl_snd_ev
    | with_reducible rfl
    | with_reducible exact Nat.le_refl _
    | (intro _; with_reducible exact Nat.le_refl _)
    | (intro _; with_reducible exact rfl)
    | (intro m hm; change Memory.wf _ = true; exact hm)
    | intro _
    | split
    | dsimp only
    | with_reducible apply State.mk_ev

theorem State.deviceReset_ev (cause : Nat) (f : BringupFacts) {s : State} (hev : Evolves s₀ s) : Evolves s₀ (State.deviceReset s cause f) := by
  unfold State.deviceReset
  repeat' first
    | with_reducible assumption
    | extract_lets
    | with_reducible apply State.bringUp_ev
    | with_reducible apply State.restart_ev
    | with_reducible apply State.setClocks_ev
    | with_reducible apply ite_ev
    | with_reducible apply ite_snd_ev
    | with_reducible apply ite_fst_ev
    | with_reducible apply ite_evTo
    | with_reducible apply evolvesTo_next
    | with_reducible exact Evolves.refl _
    | with_reducible apply foldl_ev
    | with_reducible apply foldl_fst_ev
    | with_reducible apply foldl_snd_ev
    | with_reducible rfl
    | with_reducible exact Nat.le_refl _
    | (intro _; with_reducible exact Nat.le_refl _)
    | (intro _; with_reducible exact rfl)
    | (intro m hm; change Memory.wf _ = true; exact hm)
    | intro _
    | split
    | dsimp only
    | with_reducible apply State.mk_ev

theorem execDeviceReset_ev (cause : Nat) (f : BringupFacts) (t : Nat) (s : State) : EvolvesTo s (execDeviceReset cause f t s) := by
  unfold execDeviceReset
  with_reducible repeat' first
    | extract_lets | apply State.deviceReset_ev | apply State.reach_ev | apply ite_ev | apply evolvesTo_next | exact Evolves.refl _

theorem State.holdReset_ev (cause : Nat) {s : State} (hev : Evolves s₀ s) : Evolves s₀ (State.holdReset s cause) := by
  unfold State.holdReset
  with_reducible repeat' first
    | assumption | extract_lets | apply State.modFloor_ev | apply State.modPins_ev | apply State.modRel_ev | apply State.restart_ev
    | (intro _; exact rfl)

theorem execPorstNAssert_ev (ns t : Nat) (s : State) : EvolvesTo s (execPorstNAssert ns t s) := by
  unfold execPorstNAssert
  with_reducible repeat' first
    | extract_lets | apply State.at_ev | apply State.holdReset_ev | apply State.takeFree_ev | apply ite_ev | apply evolvesTo_next
    | exact Evolves.refl _

theorem execBringup_ev (f : BringupFacts) (t : Nat) (s : State) : EvolvesTo s (execBringup f t s) := by
  unfold execBringup
  with_reducible repeat' first
    | extract_lets | apply State.at_ev | apply State.bringUp_ev | apply State.modClk_ev | apply State.modFloor_ev | apply State.modPins_ev
    | apply State.modRel_ev | apply ite_ev | apply evolvesTo_next | exact Evolves.refl _ | (intro _; exact Nat.le_refl _)
    | (intro _; exact rfl)

theorem execActivation_ev (f : BringupFacts) (t : Nat) (s : State) : EvolvesTo s (execActivation f t s) := by
  unfold execActivation
  repeat' first
    | with_reducible assumption
    | extract_lets
    | with_reducible apply State.deviceReset_ev
    | with_reducible apply State.dset_ev
    | with_reducible apply State.reach_ev
    | with_reducible apply State.svnTick_ev
    | with_reducible apply State.writeBoot_ev
    | with_reducible apply ite_ev
    | with_reducible apply ite_snd_ev
    | with_reducible apply ite_fst_ev
    | with_reducible apply ite_evTo
    | with_reducible apply evolvesTo_next
    | with_reducible exact Evolves.refl _
    | with_reducible apply foldl_ev
    | with_reducible apply foldl_fst_ev
    | with_reducible apply foldl_snd_ev
    | with_reducible rfl
    | with_reducible exact Nat.le_refl _
    | (intro _; with_reducible exact Nat.le_refl _)
    | (intro _; with_reducible exact rfl)
    | (intro m hm; change Memory.wf _ = true; exact hm)
    | intro _
    | split
    | dsimp only
    | with_reducible apply State.mk_ev

theorem execWake_ev (f : BringupFacts) (t : Nat) (s : State) : EvolvesTo s (execWake f t s) := by
  unfold execWake
  repeat' first
    | extract_lets | with_reducible apply State.deviceReset_ev | with_reducible apply State.dset_ev | with_reducible apply State.reach_ev
    | with_reducible apply State.wakeDone_ev | with_reducible apply ite_ev | with_reducible apply evolvesTo_next
    | with_reducible exact Evolves.refl _ | split

end Sys2Proof.Machine
end

