-- ==== Sys2Proof/Laws/EvolveDictionary.lean ====
section
/-!
SUPPORT. What no command does: the operations of Dictionary.lean (see Evolve.lean).
-/

namespace Sys2Proof.Machine

variable {s₀ : State}

theorem State.valueOf_ev (r : Requester) (k : Nat) {s : State} (hev : Evolves s₀ s) : Evolves s₀ (State.valueOf s r k).2 := by
  unfold State.valueOf
  with_reducible repeat' first | assumption | extract_lets | apply State.entryBytes_ev | apply ite_snd_ev

theorem State.refuse_ev (r : Requester) (type tag k code : Nat) {s : State} (hev : Evolves s₀ s) : Evolves s₀ (State.refuse s r type tag k code) := by
  unfold State.refuse
  with_reducible repeat' first | assumption | apply State.reply_ev

theorem State.readSnap_ev (r : Requester) (tag k off maxlen snap : Nat) {s : State} (hev : Evolves s₀ s) : Evolves s₀ (State.readSnap s r tag k off maxlen snap) := by
  unfold State.readSnap
  repeat' first
    | with_reducible assumption | extract_lets | with_reducible apply State.refuse_ev | with_reducible apply State.segment_ev
    | with_reducible apply ite_ev | split

theorem State.doRead_ev (r : Requester) (tag k off maxlen snap : Nat) {s : State} (hev : Evolves s₀ s) : Evolves s₀ (State.doRead s r tag k off maxlen snap) := by
  unfold State.doRead
  repeat' first
    | with_reducible assumption | extract_lets | with_reducible apply State.counted_ev | with_reducible apply State.naRequest_ev
    | with_reducible apply State.readNew_ev | with_reducible apply State.readSnap_ev | with_reducible apply State.refuse_ev
    | with_reducible apply State.valueOf_ev | with_reducible apply ite_ev | split

theorem State.doReadIndex_ev (r : Requester) (tag index first : Nat) {s : State} (hev : Evolves s₀ s) : Evolves s₀ (State.doReadIndex s r tag index first) := by
  unfold State.doReadIndex
  repeat' first
    | with_reducible assumption | extract_lets | with_reducible apply State.counted_ev | with_reducible apply State.naRequest_ev
    | with_reducible apply State.readIndexNew_ev | with_reducible apply State.refuse_ev | with_reducible apply State.valueOf_ev
    | with_reducible apply ite_ev | with_reducible apply foldl_snd_ev | intro _ | split

theorem State.dropAsm_ev (r : Requester) {s : State} (hev : Evolves s₀ s) : Evolves s₀ (State.dropAsm s r) := by
  unfold State.dropAsm
  with_reducible repeat' first | assumption | apply State.modReq_ev

theorem State.writeWhole_ev (r : Requester) (tag : Option Nat) (k : Nat) (b : Bytes) {s : State} (hev : Evolves s₀ s) : Evolves s₀ (State.writeWhole s r tag k b) := by
  unfold State.writeWhole
  repeat' first
    | with_reducible assumption | extract_lets | with_reducible apply State.writeAnswer_ev | with_reducible apply State.writeEntry_ev
    | split

theorem State.doWrite_ev (r : Requester) (tag k off total : Nat) (data : Bytes) {s : State} (hev : Evolves s₀ s) : Evolves s₀ (State.doWrite s r tag k off total data) := by
  unfold State.doWrite
  with_reducible repeat' first
    | assumption | extract_lets | apply State.counted_ev | apply State.dropAsm_ev | apply State.modReq_ev | apply State.refuse_ev
    | apply State.writeAnswer_ev | apply State.writeWhole_ev | apply ite_ev

theorem State.rowRange_ev (e : EntryRow) {s : State} (hev : Evolves s₀ s) : Evolves s₀ (State.rowRange s e).2 := by
  unfold State.rowRange
  repeat' first | with_reducible assumption | extract_lets | with_reducible apply State.takeFree_ev | split

theorem State.rowDefault_ev (e : EntryRow) (k : Nat) {s : State} (hev : Evolves s₀ s) : Evolves s₀ (State.rowDefault s e k).2 := by
  unfold State.rowDefault
  repeat' first
    | with_reducible assumption
    | extract_lets
    | with_reducible apply State.takeFree_ev
    | with_reducible apply State.valueOf_ev
    | with_reducible apply ite_ev
    | with_reducible apply ite_snd_ev
    | with_reducible apply ite_fst_ev
    | with_reducible apply ite_evTo
    | with_reducible apply evolvesTo_next
    | with_reducible exact Evolves.refl _
    | with_reducible apply foldl_ev
    | with_reducible apply foldl_fst_ev
    | with_reducible apply foldl_snd_ev
    | with_reducible rfl
    | with_reducible exact Nat.le_refl _
    | (intro _; with_reducible exact Nat.le_refl _)
    | (intro _; with_reducible exact rfl)
    | (intro m hm; change Memory.wf _ = true; exact hm)
    | intro _
    | split
    | dsimp only
    | with_reducible apply State.mk_ev

theorem State.describeBody_ev (e : EntryRow) (k : Nat) {s : State} (hev : Evolves s₀ s) : Evolves s₀ (State.describeBody s e k).2 := by
  unfold State.describeBody
  repeat' first
    | with_reducible assumption
    | extract_lets
    | with_reducible apply State.rowDefault_ev
    | with_reducible apply State.rowRange_ev
    | with_reducible apply ite_ev
    | with_reducible apply ite_snd_ev
    | with_reducible apply ite_fst_ev
    | with_reducible apply ite_evTo
    | with_reducible apply evolvesTo_next
    | with_reducible exact Evolves.refl _
    | with_reducible apply foldl_ev
    | with_reducible apply foldl_fst_ev
    | with_reducible apply foldl_snd_ev
    | with_reducible rfl
    | with_reducible exact Nat.le_refl _
    | (intro _; with_reducible exact Nat.le_refl _)
    | (intro _; with_reducible exact rfl)
    | (intro m hm; change Memory.wf _ = true; exact hm)
    | intro _
    | split
    | dsimp only
    | with_reducible apply State.mk_ev

theorem State.doDescribe_ev (r : Requester) (tag k : Nat) {s : State} (hev : Evolves s₀ s) : Evolves s₀ (State.doDescribe s r tag k) := by
  unfold State.doDescribe
  extract_lets s1 row
  have h1 : Evolves s₀ s1 := State.counted_ev hev
  clear_value s1 row
  refine ite_ev hev (ite_ev (State.refuse_ev _ _ _ _ _ h1) ?_)
  split
  · exact State.refuse_ev _ _ _ _ _ h1
  · exact State.reply_ev _ _ _ _ _ (State.describeBody_ev _ _ h1)

theorem State.doEcho_ev (r : Requester) (tag : Nat) (body : Bytes) {s : State} (hev : Evolves s₀ s) : Evolves s₀ (State.doEcho s r tag body) := by
  unfold State.doEcho
  with_reducible repeat' first | assumption | extract_lets | apply State.counted_ev | apply State.reply_ev | apply ite_ev

theorem execReadEntry_ev (r : Requester) (tag index sub off maxlen snap t : Nat) (s : State) : EvolvesTo s (execReadEntry r tag index sub off maxlen snap t s) := by
  unfold execReadEntry
  repeat' first
    | with_reducible assumption
    | extract_lets
    | with_reducible apply State.doRead_ev
    | with_reducible apply State.serve_ev
    | with_reducible apply ite_ev
    | with_reducible apply ite_snd_ev
    | with_reducible apply ite_fst_ev
    | with_reducible apply ite_evTo
    | with_reducible apply evolvesTo_next
    | with_reducible exact Evolves.refl _
    | with_reducible apply foldl_ev
    | with_reducible apply foldl_fst_ev
    | with_reducible apply foldl_snd_ev
    | with_reducible rfl
    | with_reducible exact Nat.le_refl _
    | (intro _; with_reducible exact Nat.le_refl _)
    | (intro _; with_reducible exact rfl)
    | (intro m hm; change Memory.wf _ = true; exact hm)
    | intro _
    | split
    | dsimp only
    | with_reducible apply State.mk_ev

theorem execWriteEntry_ev (r : Requester) (tag index sub off total : Nat) (data : Bytes) (t : Nat) (s : State) : EvolvesTo s (execWriteEntry r tag index sub off total data t s) := by
  unfold execWriteEntry
  repeat' first
    | with_reducible assumption
    | extract_lets
    | with_reducible apply State.doWrite_ev
    | with_reducible apply State.serve_ev
    | with_reducible apply ite_ev
    | with_reducible apply ite_snd_ev
    | with_reducible apply ite_fst_ev
    | with_reducible apply ite_evTo
    | with_reducible apply evolvesTo_next
    | with_reducible exact Evolves.refl _
    | with_reducible apply foldl_ev
    | with_reducible apply foldl_fst_ev
    | with_reducible apply foldl_snd_ev
    | with_reducible rfl
    | with_reducible exact Nat.le_refl _
    | (intro _; with_reducible exact Nat.le_refl _)
    | (intro _; with_reducible exact rfl)
    | (intro m hm; change Memory.wf _ = true; exact hm)
    | intro _
    | split
    | dsimp only
    | with_reducible apply State.mk_ev

theorem execReadIndex_ev (r : Requester) (tag index first t : Nat) (s : State) : EvolvesTo s (execReadIndex r tag index first t s) := by
  unfold execReadIndex
  repeat' first
    | with_reducible assumption
    | extract_lets
    | with_reducible apply State.doReadIndex_ev
    | with_reducible apply State.serve_ev
    | with_reducible apply ite_ev
    | with_reducible apply ite_snd_ev
    | with_reducible apply ite_fst_ev
    | with_reducible apply ite_evTo
    | with_reducible apply evolvesTo_next
    | with_reducible exact Evolves.refl _
    | with_reducible apply foldl_ev
    | with_reducible apply foldl_fst_ev
    | with_reducible apply foldl_snd_ev
    | with_reducible rfl
    | with_reducible exact Nat.le_refl _
    | (intro _; with_reducible exact Nat.le_refl _)
    | (intro _; with_reducible exact rfl)
    | (intro m hm; change Memory.wf _ = true; exact hm)
    | intro _
    | split
    | dsimp only
    | with_reducible apply State.mk_ev

theorem execDescribe_ev (r : Requester) (tag index sub t : Nat) (s : State) : EvolvesTo s (execDescribe r tag index sub t s) := by
  unfold execDescribe
  repeat' first
    | with_reducible assumption
    | extract_lets
    | with_reducible apply State.doDescribe_ev
    | with_reducible apply State.serve_ev
    | with_reducible apply ite_ev
    | with_reducible apply ite_snd_ev
    | with_reducible apply ite_fst_ev
    | with_reducible apply ite_evTo
    | with_reducible apply evolvesTo_next
    | with_reducible exact Evolves.refl _
    | with_reducible apply foldl_ev
    | with_reducible apply foldl_fst_ev
    | with_reducible apply foldl_snd_ev
    | with_reducible rfl
    | with_reducible exact Nat.le_refl _
    | (intro _; with_reducible exact Nat.le_refl _)
    | (intro _; with_reducible exact rfl)
    | (intro m hm; change Memory.wf _ = true; exact hm)
    | intro _
    | split
    | dsimp only
    | with_reducible apply State.mk_ev

theorem execEcho_ev (r : Requester) (tag : Nat) (body : Bytes) (t : Nat) (s : State) : EvolvesTo s (execEcho r tag body t s) := by
  unfold execEcho
  repeat' first
    | with_reducible assumption
    | extract_lets
    | with_reducible apply State.doEcho_ev
    | with_reducible apply State.serve_ev
    | with_reducible apply ite_ev
    | with_reducible apply ite_snd_ev
    | with_reducible apply ite_fst_ev
    | with_reducible apply ite_evTo
    | with_reducible apply evolvesTo_next
    | with_reducible exact Evolves.refl _
    | with_reducible apply foldl_ev
    | with_reducible apply foldl_fst_ev
    | with_reducible apply foldl_snd_ev
    | with_reducible rfl
    | with_reducible exact Nat.le_refl _
    | (intro _; with_reducible exact Nat.le_refl _)
    | (intro _; with_reducible exact rfl)
    | (intro m hm; change Memory.wf _ = true; exact hm)
    | intro _
    | split
    | dsimp only
    | with_reducible apply State.mk_ev

theorem execPackMask_ev (r : Requester) (tag t : Nat) (s : State) : EvolvesTo s (execPackMask r tag t s) := by
  unfold execPackMask
  repeat' first
    | with_reducible assumption
    | extract_lets
    | with_reducible apply State.doRead_ev
    | with_reducible apply State.serve_ev
    | with_reducible apply ite_ev
    | with_reducible apply ite_snd_ev
    | with_reducible apply ite_fst_ev
    | with_reducible apply ite_evTo
    | with_reducible apply evolvesTo_next
    | with_reducible exact Evolves.refl _
    | with_reducible apply foldl_ev
    | with_reducible apply foldl_fst_ev
    | with_reducible apply foldl_snd_ev
    | with_reducible rfl
    | with_reducible exact Nat.le_refl _
    | (intro _; with_reducible exact Nat.le_refl _)
    | (intro _; with_reducible exact rfl)
    | (intro m hm; change Memory.wf _ = true; exact hm)
    | intro _
    | split
    | dsimp only
    | with_reducible apply State.mk_ev

theorem State.sendOnce_ev (r : Requester) (tag : Nat) (msg : Bytes) {s : State} (hev : Evolves s₀ s) : Evolves s₀ (State.sendOnce s r tag msg) := by
  unfold State.sendOnce
  repeat' first
    | with_reducible assumption
    | extract_lets
    | with_reducible apply State.respond_ev
    | with_reducible apply State.toMailbox_ev
    | with_reducible apply ite_ev
    | with_reducible apply ite_snd_ev
    | with_reducible apply ite_fst_ev
    | with_reducible apply ite_evTo
    | with_reducible apply evolvesTo_next
    | with_reducible exact Evolves.refl _
    | with_reducible apply foldl_ev
    | with_reducible apply foldl_fst_ev
    | with_reducible apply foldl_snd_ev
    | with_reducible rfl
    | with_reducible exact Nat.le_refl _
    | (intro _; with_reducible exact Nat.le_refl _)
    | (intro _; with_reducible exact rfl)
    | (intro m hm; change Memory.wf _ = true; exact hm)
    | intro _
    | split
    | dsimp only
    | with_reducible apply State.mk_ev

theorem State.refuseVersion_ev (r : Requester) (msg : Bytes) {s : State} (hev : Evolves s₀ s) : Evolves s₀ (State.refuseVersion s r msg) := by
  unfold State.refuseVersion
  with_reducible repeat' first | assumption | extract_lets | apply State.dadd_ev | apply State.sendOnce_ev

theorem State.malformed_ev (r : Requester) (type tag : Nat) (b : Bytes) {s : State} (hev : Evolves s₀ s) : Evolves s₀ (State.malformed s r type tag b) := by
  unfold State.malformed
  with_reducible repeat' first | assumption | extract_lets | apply State.refuse_ev | apply State.reply_ev | apply ite_ev

theorem State.perform_ev (r : Requester) (msg : Bytes) {s : State} (hev : Evolves s₀ s) : Evolves s₀ (State.perform s r msg) := by
  unfold State.perform
  with_reducible repeat' first
    | assumption | extract_lets | apply State.doDescribe_ev | apply State.doEcho_ev | apply State.doRead_ev | apply State.doReadIndex_ev
    | apply State.doWrite_ev | apply State.malformed_ev | apply State.reply_ev | apply ite_ev

theorem State.heardFrom_ev (r : Requester) (tag dst : Nat) {s : State} (hev : Evolves s₀ s) : Evolves s₀ (State.heardFrom s r tag dst) := by
  unfold State.heardFrom
  repeat' first
    | with_reducible assumption
    | extract_lets
    | with_reducible apply State.modReq_ev
    | with_reducible apply ite_ev
    | with_reducible apply ite_snd_ev
    | with_reducible apply ite_fst_ev
    | with_reducible apply ite_evTo
    | with_reducible apply evolvesTo_next
    | with_reducible exact Evolves.refl _
    | with_reducible apply foldl_ev
    | with_reducible apply foldl_fst_ev
    | with_reducible apply foldl_snd_ev
    | with_reducible rfl
    | with_reducible exact Nat.le_refl _
    | (intro _; with_reducible exact Nat.le_refl _)
    | (intro _; with_reducible exact rfl)
    | (intro m hm; change Memory.wf _ = true; exact hm)
    | intro _
    | split
    | dsimp only
    | with_reducible apply State.mk_ev

theorem execDictDatagram_ev (addr port dst udp : Nat) (msg : Bytes) (t : Nat) (s : State) : EvolvesTo s (execDictDatagram addr port dst udp msg t s) := by
  unfold execDictDatagram
  repeat' first
    | with_reducible assumption
    | extract_lets
    | with_reducible apply State.dadd_ev
    | with_reducible apply State.heardFrom_ev
    | with_reducible apply State.modReq_ev
    | with_reducible apply State.perform_ev
    | with_reducible apply State.refuseVersion_ev
    | with_reducible apply State.respond_ev
    | with_reducible apply State.sendOnce_ev
    | with_reducible apply State.serve_ev
    | with_reducible apply ite_ev
    | with_reducible apply ite_snd_ev
    | with_reducible apply ite_fst_ev
    | with_reducible apply ite_evTo
    | with_reducible apply evolvesTo_next
    | with_reducible exact Evolves.refl _
    | with_reducible apply foldl_ev
    | with_reducible apply foldl_fst_ev
    | with_reducible apply foldl_snd_ev
    | with_reducible rfl
    | with_reducible exact Nat.le_refl _
    | (intro _; with_reducible exact Nat.le_refl _)
    | (intro _; with_reducible exact rfl)
    | (intro m hm; change Memory.wf _ = true; exact hm)
    | intro _
    | split
    | dsimp only
    | with_reducible apply State.mk_ev

theorem State.editReq_ev (r : Requester) (f : ReqState → ReqState) {s : State} (hev : Evolves s₀ s) : Evolves s₀ (State.editReq s r f) := by
  unfold State.editReq
  with_reducible repeat' first | assumption | apply State.mk_ev

theorem execRequesterCacheExpiry_ev (addr port t : Nat) (s : State) : EvolvesTo s (execRequesterCacheExpiry addr port t s) := by
  unfold execRequesterCacheExpiry
  repeat' first
    | with_reducible assumption
    | extract_lets
    | with_reducible apply State.editReq_ev
    | with_reducible apply State.serve_ev
    | with_reducible apply ite_ev
    | with_reducible apply ite_snd_ev
    | with_reducible apply ite_fst_ev
    | with_reducible apply ite_evTo
    | with_reducible apply evolvesTo_next
    | with_reducible exact Evolves.refl _
    | with_reducible apply foldl_ev
    | with_reducible apply foldl_fst_ev
    | with_reducible apply foldl_snd_ev
    | with_reducible rfl
    | with_reducible exact Nat.le_refl _
    | (intro _; with_reducible exact Nat.le_refl _)
    | (intro _; with_reducible exact rfl)
    | (intro m hm; change Memory.wf _ = true; exact hm)
    | intro _
    | split
    | dsimp only
    | with_reducible apply State.mk_ev

theorem execSnapshotExpiry_ev (r : Requester) (t : Nat) (s : State) : EvolvesTo s (execSnapshotExpiry r t s) := by
  unfold execSnapshotExpiry
  repeat' first
    | with_reducible assumption
    | extract_lets
    | with_reducible apply State.editReq_ev
    | with_reducible apply State.serve_ev
    | with_reducible apply ite_ev
    | with_reducible apply ite_snd_ev
    | with_reducible apply ite_fst_ev
    | with_reducible apply ite_evTo
    | with_reducible apply evolvesTo_next
    | with_reducible exact Evolves.refl _
    | with_reducible apply foldl_ev
    | with_reducible apply foldl_fst_ev
    | with_reducible apply foldl_snd_ev
    | with_reducible rfl
    | with_reducible exact Nat.le_refl _
    | (intro _; with_reducible exact Nat.le_refl _)
    | (intro _; with_reducible exact rfl)
    | (intro m hm; change Memory.wf _ = true; exact hm)
    | intro _
    | split
    | dsimp only
    | with_reducible apply State.mk_ev

theorem execAssemblyTimeout_ev (r : Requester) (t : Nat) (s : State) : EvolvesTo s (execAssemblyTimeout r t s) := by
  unfold execAssemblyTimeout
  repeat' first
    | with_reducible assumption
    | extract_lets
    | with_reducible apply State.editReq_ev
    | with_reducible apply State.serve_ev
    | with_reducible apply ite_ev
    | with_reducible apply ite_snd_ev
    | with_reducible apply ite_fst_ev
    | with_reducible apply ite_evTo
    | with_reducible apply evolvesTo_next
    | with_reducible exact Evolves.refl _
    | with_reducible apply foldl_ev
    | with_reducible apply foldl_fst_ev
    | with_reducible apply foldl_snd_ev
    | with_reducible rfl
    | with_reducible exact Nat.le_refl _
    | (intro _; with_reducible exact Nat.le_refl _)
    | (intro _; with_reducible exact rfl)
    | (intro m hm; change Memory.wf _ = true; exact hm)
    | intro _
    | split
    | dsimp only
    | with_reducible apply State.mk_ev

end Sys2Proof.Machine
end

