-- ==== Sys2Proof/Laws/EvolvePackage.lean ====
section
/-!
SUPPORT. What no command does: the operations of Package.lean (see Evolve.lean).
-/

namespace Sys2Proof.Machine

variable {s₀ : State}

theorem execSupplyOutOfTolerance_ev (supply t : Nat) (s : State) : EvolvesTo s (execSupplyOutOfTolerance supply t s) := by
  unfold execSupplyOutOfTolerance
  with_reducible repeat' first
    | extract_lets | apply State.modPow_ev | apply State.raiseFlag_ev | apply State.reach_ev | apply ite_ev | apply evolvesTo_next
    | exact Evolves.refl _

theorem execVinCLow_ev (t : Nat) (s : State) : EvolvesTo s (execVinCLow t s) := by
  unfold execVinCLow
  with_reducible repeat' first
    | extract_lets | apply State.modPow_ev | apply State.reach_ev | apply ite_ev | apply evolvesTo_next | exact Evolves.refl _

theorem execSupplyInTolerance_ev (supply t : Nat) (s : State) : EvolvesTo s (execSupplyInTolerance supply t s) := by
  unfold execSupplyInTolerance
  with_reducible repeat' first
    | extract_lets | apply State.dropFlag_ev | apply State.modPow_ev | apply State.reach_ev | apply ite_ev | apply evolvesTo_next
    | exact Evolves.refl _

theorem execVinCBrownout_ev (f : BringupFacts) (t : Nat) (s : State) : EvolvesTo s (execVinCBrownout f t s) := by
  unfold execVinCBrownout
  with_reducible repeat' first
    | extract_lets | apply State.deviceReset_ev | apply State.reach_ev | apply ite_ev | apply evolvesTo_next | exact Evolves.refl _

theorem execVddAonBrownout_ev (t : Nat) (s : State) : EvolvesTo s (execVddAonBrownout t s) := by
  unfold execVddAonBrownout
  with_reducible repeat' first
    | extract_lets | apply State.at_ev | apply State.holdReset_ev | apply State.modFloor_ev | apply evolvesTo_next | exact Evolves.refl _
    | (intro _; exact rfl)

theorem State.smbOut_ev (o : Output) {s : State} (hev : Evolves s₀ s) : Evolves s₀ (State.smbOut s o) := by
  unfold State.smbOut
  with_reducible repeat' first | assumption | apply State.mk_ev

theorem execSmbusBlockRead_ev (addr code t : Nat) (s : State) : EvolvesTo s (execSmbusBlockRead addr code t s) := by
  unfold execSmbusBlockRead
  repeat' first
    | extract_lets | with_reducible apply State.reach_ev | with_reducible apply State.smbOut_ev | with_reducible apply ite_ev
    | with_reducible apply evolvesTo_next | with_reducible exact Evolves.refl _ | split

theorem execSmbusBlockWrite_ev (addr code count : Nat) (data : Bytes) (pec : Option Byte) (t : Nat) (s : State) : EvolvesTo s (execSmbusBlockWrite addr code count data pec t s) := by
  unfold execSmbusBlockWrite
  with_reducible repeat' first
    | extract_lets | apply State.doPowerReg_ev | apply State.reach_ev | apply State.smbOut_ev | apply ite_ev | apply evolvesTo_next
    | exact Evolves.refl _

theorem execSmbusTimeout_ev (t : Nat) (s : State) : EvolvesTo s (execSmbusTimeout t s) := by
  unfold execSmbusTimeout
  with_reducible repeat' first
    | extract_lets | apply State.reach_ev | apply State.smbOut_ev | apply ite_ev | apply evolvesTo_next | exact Evolves.refl _

theorem execAlertResponse_ev (t : Nat) (s : State) : EvolvesTo s (execAlertResponse t s) := by
  unfold execAlertResponse
  with_reducible repeat' first
    | extract_lets | apply State.modPins_ev | apply State.reach_ev | apply State.smbOut_ev | apply ite_ev | apply evolvesTo_next
    | exact Evolves.refl _

end Sys2Proof.Machine
end

