-- ==== Sys2Proof/Laws/EvolveRegisters.lean ====
section
/-!
SUPPORT. What no command does: the operations of Registers.lean (see Evolve.lean).
-/

namespace Sys2Proof.Machine

variable {s₀ : State}

theorem execSubmit_ev (k w t : Nat) (s : State) : EvolvesTo s (execSubmit k w t s) := by
  unfold execSubmit
  repeat' first
    | with_reducible assumption
    | extract_lets
    | with_reducible apply State.modMailbox_ev
    | with_reducible apply State.serve_ev
    | with_reducible apply ite_ev
    | with_reducible apply ite_snd_ev
    | with_reducible apply ite_fst_ev
    | with_reducible apply ite_evTo
    | with_reducible apply evolvesTo_next
    | with_reducible exact Evolves.refl _
    | with_reducible apply foldl_ev
    | with_reducible apply foldl_fst_ev
    | with_reducible apply foldl_snd_ev
    | with_reducible rfl
    | with_reducible exact Nat.le_refl _
    | (intro _; with_reducible exact Nat.le_refl _)
    | (intro _; with_reducible exact rfl)
    | (intro m hm; change Memory.wf _ = true; exact hm)
    | intro _
    | split
    | dsimp only
    | with_reducible apply State.mk_ev

theorem State.performMailbox_ev (k : Nat) {s : State} (hev : Evolves s₀ s) : Evolves s₀ (State.performMailbox s k) := by
  unfold State.performMailbox
  with_reducible repeat' first
    | assumption | extract_lets | apply State.dadd_ev | apply State.malformed_ev | apply State.modMailbox_ev | apply State.perform_ev
    | apply State.refuseVersion_ev | apply ite_ev

theorem execMailboxResponse_ev (k t : Nat) (s : State) : EvolvesTo s (execMailboxResponse k t s) := by
  unfold execMailboxResponse
  repeat' first
    | with_reducible assumption
    | extract_lets
    | with_reducible apply State.performMailbox_ev
    | with_reducible apply State.serve_ev
    | with_reducible apply ite_ev
    | with_reducible apply ite_snd_ev
    | with_reducible apply ite_fst_ev
    | with_reducible apply ite_evTo
    | with_reducible apply evolvesTo_next
    | with_reducible exact Evolves.refl _
    | with_reducible apply foldl_ev
    | with_reducible apply foldl_fst_ev
    | with_reducible apply foldl_snd_ev
    | with_reducible rfl
    | with_reducible exact Nat.le_refl _
    | (intro _; with_reducible exact Nat.le_refl _)
    | (intro _; with_reducible exact rfl)
    | (intro m hm; change Memory.wf _ = true; exact hm)
    | intro _
    | split
    | dsimp only
    | with_reducible apply State.mk_ev

theorem execNoticeRemove_ev (k w : Nat) (s : State) : EvolvesTo s (execNoticeRemove k w s) := by
  unfold execNoticeRemove
  with_reducible repeat' first | extract_lets | apply State.modMailbox_ev | apply ite_ev | apply evolvesTo_next | exact Evolves.refl _

theorem execMbxControl_ev (k w : Nat) (s : State) : EvolvesTo s (execMbxControl k w s) := by
  unfold execMbxControl
  with_reducible repeat' first | extract_lets | apply State.modMailbox_ev | apply ite_ev | apply evolvesTo_next | exact Evolves.refl _

theorem State.writeMbxStatus_ev (k w : Nat) {s : State} (hev : Evolves s₀ s) : Evolves s₀ (State.writeMbxStatus s k w) := by
  unfold State.writeMbxStatus
  with_reducible repeat' first | assumption | extract_lets | apply State.modMailbox_ev | apply ite_ev

theorem State.writeFrame_ev (k o : Nat) (data : Bytes) (t : Nat) (s : State) : EvolvesTo s (State.writeFrame s k o data t) := by
  unfold State.writeFrame
  with_reducible repeat' first
    | extract_lets | apply execMbxControl_ev | apply execNoticeRemove_ev | apply execSubmit_ev | apply State.modMailbox_ev
    | apply State.writeMbxStatus_ev | apply ite_evTo | apply evolvesTo_next | exact Evolves.refl _

theorem State.writeSlot_ev (f k o : Nat) (data : Bytes) (t : Nat) (s : State) : EvolvesTo s (State.writeSlot s f k o data t) := by
  unfold State.writeSlot
  with_reducible repeat' first
    | extract_lets | apply execSlotGo_ev | apply State.modOp_ev | apply ite_evTo | apply evolvesTo_next | exact Evolves.refl _

theorem State.writeRegister_ev (f o w t : Nat) (s : State) : EvolvesTo s (State.writeRegister s f o w t) := by
  unfold State.writeRegister
  with_reducible repeat' first
    | extract_lets | apply execBar2Window_ev | apply execEstopState_ev | apply execHostHeartbeat_ev | apply execIntCause_ev
    | apply execOutputEnable_ev | apply execPitchTrigger_ev | apply execPowerRequest_ev | apply execQnotify_ev | apply ite_evTo
    | apply evolvesTo_next | exact Evolves.refl _

theorem State.writeBar0_ev (f o : Nat) (data : Bytes) (t : Nat) (s : State) : EvolvesTo s (State.writeBar0 s f o data t) := by
  unfold State.writeBar0
  with_reducible repeat' first
    | extract_lets | apply State.modFunc_ev | apply State.writeFrame_ev | apply State.writeRegister_ev | apply State.writeSlot_ev
    | apply ite_evTo | apply evolvesTo_next | exact Evolves.refl _

theorem execRegisterWrite_ev (tgt : RegTarget) (data : Bytes) (t : Nat) (s : State) : EvolvesTo s (execRegisterWrite tgt data t s) := by
  unfold execRegisterWrite
  extract_lets s1
  have h1 : Evolves s s1 := State.serve_ev _ (Evolves.refl _)
  split
  · extract_lets k
    exact evolvesTo_next (ite_ev h1 (ite_ev (State.answer_ev _ _ _ h1) (State.writeWhole_ev _ _ _ _ h1)))
  · obtain ⟨u, hu, he⟩ := State.writeBar0_ev _ _ data t s1
    exact ⟨u, hu, h1.trans he⟩

end Sys2Proof.Machine
end

