-- ==== Sys2Proof/WellFormed.lean ====
section
/-!
DEFINITION. Well-formed commands: every operand within the width or the numbering that the spec gives it. `exec` is total on every
command, well-formed or not.
-/

namespace Sys2Proof

/-- A number of `w` bits. -/
def fits (w v : Nat) : Bool := decide (v < 2 ^ w)
/-- A partition, 0 to 7 (R21). -/
def partOk (n : Nat) : Bool := decide (n < 8)
/-- A logical core, 0 to 2,047 (Table 1.5). -/
def coreOk (c : Nat) : Bool := decide (c < 2048)
/-- A cluster, 0 to 127. -/
def clusterOk (c : Nat) : Bool := decide (c < 128)
/-- A logical slice, 0 to 63. -/
def sliceOk (i : Nat) : Bool := decide (i < 64)
/-- A PCIe function, 0 to 8 (R317). -/
def funcOk (f : Nat) : Bool := decide (f < 9)
/-- A half, 0 west or 1 east (R9). -/
def halfOk (h : Nat) : Bool := decide (h < 2)
/-- An edge router, 0 to 3. -/
def edgeOk (e : Nat) : Bool := decide (e < 4)
/-- A data port or a field port of a pair. -/
def portOk (p : Nat) : Bool := decide (p < 2)
/-- A stream, 0 to 31 (R203). -/
def streamOk (k : Nat) : Bool := decide (k < 32)
/-- A readout group, 0 to 255 (R218). -/
def groupOk (g : Nat) : Bool := decide (g < 256)
/-- An output object, 0 to 31 (R343). -/
def objOk (j : Nat) : Bool := decide (j < 32)
/-- A peer of a partition, 0 to 63 (R138). -/
def peerOk (k : Nat) : Bool := decide (k < 64)
/-- A mailbox, 0 to 31 (R319). -/
def mailboxOk (k : Nat) : Bool := decide (k < 32)
/-- An operation slot, 0 to 15 (R322). -/
def slotOk (k : Nat) : Bool := decide (k < 16)
/-- A GPIO pin, 0 to 7. -/
def pinOk (p : Nat) : Bool := decide (p < 8)
/-- A supply of Table 18.4, 0 to 9. -/
def supplyOk (k : Nat) : Bool := decide (k < 10)
/-- A requester that may send commands (R351): a mailbox or an address and port of the rope; firmware's own writes come from within. -/
def requesterOk : Requester → Bool
  | .mailbox k => mailboxOk k
  | .rope a p => fits 128 a && fits 16 p
  | .restore => false
/-- A source of a register access (R369). -/
def sourceOk : RegSource → Bool
  | .func f => funcOk f
  | .smbus => true
  | .entry r => requesterOk r
/-- The target of a plain write. -/
def targetOk : RegTarget → Bool
  | .entry r i j => requesterOk r && fits 16 i && fits 8 j
  | .bar0 f o => funcOk f && fits 18 o
/-- The operation block of Table 9.3. -/
def headOk (h : OpHead) : Bool :=
  fits 8 h.issuer && fits 20 h.object && fits 20 h.rcq && fits 32 h.tag && fits 32 h.timeout && (match h.slot with
    | some e => funcOk e.1 && slotOk e.2
    | none => true)
/-- A packet (Table 11.2): every field within its width, and a payload of whole flits. -/
def packetOk (p : Packet) : Bool :=
  fits 16 p.src && fits 16 p.dst && fits 6 p.kind && fits 2 p.vc && fits 1 p.gen && fits 7 p.npay && fits 16 p.seq && fits 3 p.partition &&
    fits 26 p.resv && fits 128 p.args && p.payload.length == 32 * p.npay
/-- What a packet meets on its way: errors in words of its flits. -/
def tripOk (e : Trip) : Bool := e.errors.all (fun x => fits 18 x.hop && fits 7 x.flit && fits 3 x.word && fits 32 x.xor)
/-- A fault report (Table 16.2). -/
def reportOk (f : FaultReport) : Bool :=
  fits 16 f.code && fits 2 f.severity && fits 4 f.unitKind && fits 16 f.unit && fits 48 f.pitch && fits 32 f.detail && (match f.partition with
    | some n => partOk n
    | none => true)
/-- What bring-up finds: physical slots of cores and slices, clusters, subchannels. -/
def factsOk (f : BringupFacts) : Bool :=
  f.failCores.all (fun c => fits 12 c && decide (c % 32 < 17)) && f.failSlices.all (fun c => fits 7 c && decide (c % 32 < 17)) &&
    f.failCtrl.all clusterOk && f.failStore.all clusterOk && f.failLeaf.all clusterOk && f.failSubch.all sliceOk && f.details.all (fun d => fits 32 d.2.2) && decide (f.time ≤ 635)
/-- A byte string that one command can carry: the longest is a debug token or a licence (30,048 bytes). -/
def bytesOk (b : Bytes) : Bool := decide (b.length ≤ 30048)
/-- A byte string that may be missing. -/
def optBytesOk : Option Bytes → Bool
  | some b => bytesOk b
  | none => true

/-- Can the configuration space hold this (Table 12.1)? -/
def confOk (c : PcieConf) : Bool := decide (c.bar ≤ 10) && decide (c.mps ≤ 2) && decide (c.mrrs ≤ 5)
/-- Is it a reading: a finite binary32? -/
def realOk (x : BitVec 32) : Bool := decide (x.toNat / 2 ^ 23 % 256 < 255)
/-- Is the command well formed? -/
def Instr.wf : Instr → Bool
  | .tsnTick n k _ => partOk n && fits 48 k
  | .cadenceInEdge _ _ => true
  | .quadTransition _ _ _ => true
  | .pitchTrigger f w _ => funcOk f && fits 32 w
  | .pitchOpen n _ => partOk n
  | .openPicot c _ => coreOk c
  | .encodeDone k _ => streamOk k
  | .encodeDoneReceive cl => clusterOk cl
  | .eventAccumulate c _ => coreOk c
  | .prefetch c => coreOk c
  | .prefetchRetry c => coreOk c
  | .readData c row _ => coreOk c && fits 24 row
  | .integrateSweep c _ => coreOk c
  | .haulOpenTimeout c dst _ => coreOk c && fits 12 dst
  | .journalRecord cl => clusterOk cl
  | .journalStallEnd c _ => coreOk c
  | .eventHaulArrival _ _ => true
  | .drain c => coreOk c
  | .belay c => coreOk c
  | .clusterBelay n cl _ => partOk n && clusterOk cl
  | .closePicot c _ => coreOk c
  | .watchPoint n _ => partOk n
  | .deadline n _ => partOk n
  | .truncateInstant n _ => partOk n
  | .truncate c _ => coreOk c
  | .belayTimeout n c _ => partOk n && coreOk c
  | .cadenceLoss n _ => partOk n
  | .holdoverLimit _ => true
  | .syncMessage m _ _ => fits 2 m.port && decide (m.sub < 4) && fits 8 m.domain
  | .syncTimeout _ => true
  | .create r n _ => requesterOk r && partOk n.part && n.fails.all coreOk
  | .load r n _ => requesterOk r && partOk n
  | .tileLanded n _ _ => partOk n
  | .enable r n _ => requesterOk r && partOk n
  | .disable r n _ => requesterOk r && partOk n
  | .disableNow r n _ => requesterOk r && partOk n
  | .absorb c => coreOk c
  | .swap r n _ => requesterOk r && partOk n
  | .swapTakeEffect n _ => partOk n
  | .swapCopyDone n _ => partOk n
  | .unload r n _ => requesterOk r && partOk n
  | .destroy r n _ => requesterOk r && partOk n
  | .stationEnable r n v _ => requesterOk r && partOk n && fits 64 v
  | .stationDisableNow r n v _ => requesterOk r && partOk n && fits 64 v
  | .neuronAccess r n sub data _ => requesterOk r && partOk n && fits 8 sub && optBytesOk data
  | .neuronAccessPerform n _ => partOk n
  | .counterClear r n v _ => requesterOk r && partOk n && fits 64 v
  | .descriptorSubmit u _ => sliceOk u
  | .descriptorComplete u v1 _ _ => sliceOk u && fits 6 v1
  | .applyComplete n p _ => partOk n && fits 16 p
  | .keepCommit r n _ => requesterOk r && partOk n
  | .keepErase r n _ => requesterOk r && partOk n
  | .keepCommitDone _ => true
  | .sample src k data _ => fits 2 src.path && streamOk k && bytesOk data
  | .streamSample r k data _ => requesterOk r && streamOk k && bytesOk data
  | .streamEnable r k v _ => requesterOk r && streamOk k && fits 64 v
  | .streamDisableNow r k v _ => requesterOk r && streamOk k && fits 64 v
  | .decode g _ => groupOk g
  | .readoutPublish g _ => groupOk g
  | .groupEnable r mask _ => requesterOk r && fits 256 mask
  | .groupDisableNow r mask _ => requesterOk r && fits 256 mask
  | .estopAssert _ => true
  | .estopRelease _ => true
  | .outputEnable src w _ => sourceOk src && fits 32 w
  | .estopState src w _ => sourceOk src && fits 32 w
  | .queueCreate h rec => headOk h && bytesOk rec
  | .queueDestroy h => headOk h
  | .attach h _ _ => headOk h
  | .detach h => headOk h
  | .send h msg => headOk h && bytesOk msg
  | .receive h addr len => headOk h && fits 64 addr && fits 64 len
  | .receiveGroup h addr len => headOk h && fits 64 addr && fits 64 len
  | .groupSet h _ _ => headOk h
  | .addOp h _ _ => headOk h
  | .readClear h addr len => headOk h && fits 64 addr && fits 64 len
  | .syncCreate h _ _ => headOk h
  | .syncDestroy h => headOk h
  | .cadd h _ => headOk h
  | .cread h => headOk h
  | .cset h v => headOk h && fits 64 v
  | .cwaitGe h _ => headOk h
  | .post h n => headOk h && fits 64 n
  | .take h n => headOk h && fits 64 n
  | .arrive h => headOk h
  | .breakBarrier h => headOk h
  | .barrierReset h => headOk h
  | .waitTimeout u _ _ => sliceOk u
  | .completionHoldPlace u _ => sliceOk u
  | .grantWrite r _ data _ => requesterOk r && bytesOk data
  | .parityError _ unit addr _ _ => fits 16 unit && fits 32 addr
  | .lpddr6ReadError u off _ _ => sliceOk u && fits 32 off
  | .patrolScrub u _ _ _ => sliceOk u
  | .retrain u temp _ _ => sliceOk u && fits 8 temp
  | .bgtestRegion _ unit _ _ => fits 16 unit
  | .retentionLost h _ => halfOk h
  | .frameAll r v _ => requesterOk r && fits 64 v
  | .frameOwner r data _ => requesterOk r && bytesOk data
  | .bar2Access f off len data _ => funcOk f && fits 64 off && fits 64 len && optBytesOk data
  | .bar2Window f _ w _ => funcOk f && fits 32 w
  | .conflictClear r v _ => requesterOk r && fits 64 v
  | .packetArrival p _ => packetOk p.pkt && tripOk p.trip
  | .nack src dst seq _ _ _ => fits 16 src && fits 16 dst && fits 16 seq
  | .ack src dst seq _ => fits 16 src && fits 16 dst && fits 16 seq
  | .ackTimeout src dst seq _ => fits 16 src && fits 16 dst && fits 16 seq
  | .creditTimeout sw _ _ => fits 11 sw
  | .rebuild r _ => requesterOk r
  | .genDrain _ => true
  | .genDone v1 _ => fits 8 v1
  | .genSwitchTimeout n _ => partOk n
  | .resetWeights r _ => requesterOk r
  | .routeWeights r data _ => requesterOk r && bytesOk data
  | .cmapInterval sw ports _ => fits 11 sw && decide (ports.length ≤ 197)
  | .fabricClockChange h _ _ => halfOk h
  | .remoteHaul e _ _ => edgeOk e
  | .remoteTransmit e n peer _ => edgeOk e && partOk n && peerOk peer
  | .remoteSendFailed n peer _ _ _ => partOk n && peerOk peer
  | .remoteMessage e msg _ => edgeOk e.edge && bytesOk msg
  | .remoteInject e n _ => edgeOk e && partOk n
  | .functionLevelReset f _ => funcOk f.func && confOk f.conf
  | .perstN _ _ => true
  | .slotGo f k w _ => funcOk f && slotOk k && fits 32 w
  | .slotDone f k _ _ _ => funcOk f && slotOk k
  | .qnotify f k w => funcOk f && fits 3 k && fits 32 w
  | .intCause f _ w => funcOk f && fits 32 w
  | .hostHeartbeat f w _ => funcOk f && fits 32 w
  | .heartbeatTimeout f _ => funcOk f
  | .continueExpiry n _ => partOk n
  | .portEnable r p v _ => requesterOk r && portOk p && fits 64 v
  | .portRetrain p _ _ => portOk p
  | .cmReq p _ peerId qpn _ => portOk p && fits 128 peerId && fits 24 qpn
  | .rdmaWrite p q rkey addr data _ => portOk p && fits 24 q.qpn && fits 32 rkey && fits 64 addr && bytesOk data
  | .fieldFrame p dst _ len body _ => portOk p && fits 48 dst && fits 64 len && bytesOk body
  | .fieldLinkDown p _ => portOk p
  | .ropeCheck _ _ _ => true
  | .checkTimeout _ => true
  | .ropeState rope present lost _ => fits 8 rope && fits 64 present && fits 64 lost
  | .announceTimer _ => true
  | .announce node mac _ => fits 8 node && fits 48 mac
  | .objectTransmit j _ => objOk j
  | .objectIdleTransmit j _ => objOk j
  | .objEnable r j v _ => requesterOk r && objOk j && fits 64 v
  | .readEntry r tag index sub off maxlen snap _ => requesterOk r && fits 32 tag && fits 16 index && fits 8 sub && fits 16 off && fits 16 maxlen && fits 16 snap
  | .writeEntry r tag index sub off total data _ => requesterOk r && fits 32 tag && fits 16 index && fits 8 sub && fits 16 off && fits 16 total && bytesOk data
  | .readIndex r tag index first _ => requesterOk r && fits 32 tag && fits 16 index && fits 8 first
  | .describe r tag index sub _ => requesterOk r && fits 32 tag && fits 16 index && fits 8 sub
  | .echo r tag body _ => requesterOk r && fits 32 tag && bytesOk body
  | .dictDatagram addr port dst udp msg _ => fits 128 addr && fits 16 port && fits 128 dst && fits 16 udp && bytesOk msg
  | .snapshotExpiry r _ => requesterOk r
  | .assemblyTimeout r _ => requesterOk r
  | .submit k w _ => mailboxOk k && fits 32 w
  | .mailboxResponse k _ => mailboxOk k
  | .noticeRemove k w => mailboxOk k && fits 32 w
  | .mbxControl k w => mailboxOk k && fits 32 w
  | .lockSet r v _ => requesterOk r && fits 64 v
  | .store r _ => requesterOk r
  | .storeErase r _ => requesterOk r
  | .storeWriteDone _ _ => true
  | .registerWrite tgt data _ => targetOk tgt && bytesOk data
  | .coreReset r c _ _ => requesterOk r && coreOk c
  | .clusterReset r cl _ _ => requesterOk r && clusterOk cl
  | .partitionReset r n _ _ => requesterOk r && partOk n
  | .deviceReset _ facts _ => factsOk facts
  | .porstNAssert _ _ => true
  | .bringup facts _ => factsOk facts
  | .licenceInstall r data _ => requesterOk r && bytesOk data
  | .licenceRemove r _ _ => requesterOk r
  | .powerRequest src w _ _ => sourceOk src && fits 32 w
  | .wake facts _ => factsOk facts
  | .wakeGpio pin _ _ => pinOk pin
  | .profileRequest r h v _ => requesterOk r && halfOk h && fits 64 v
  | .profileWaitTimeout h _ => halfOk h
  | .profileChange h _ => halfOk h
  | .fabricClockReq r h v _ => requesterOk r && halfOk h && fits 64 v
  | .thermalLoop h tj p _ _ => halfOk h && realOk tj.half && realOk tj.io && realOk p
  | .powerLimit held _ => fits 32 held
  | .halfCurrent h _ => halfOk h
  | .junctionThrottle _ temp _ => realOk temp
  | .limitRelease k _ => (match k with
    | .powerLimit p _ => realOk p
    | .halfCurrent h => halfOk h
    | .throttle _ temp _ => realOk temp)
  | .thermalTrip _ temp _ => realOk temp
  | .coolantLoss _ _ => true
  | .coolantLossEnd _ => true
  | .coolantReport r _ _ _ => requesterOk r
  | .coolantReportTimeout _ => true
  | .packMask r tag _ => requesterOk r && fits 32 tag
  | .fault rep _ => reportOk rep
  | .faultAck r v _ => requesterOk r && fits 64 v
  | .takeover c _ => coreOk c
  | .replayPitch c _ => coreOk c
  | .coldTakeover c _ => coreOk c
  | .cairnComplete c => coreOk c
  | .sliceTakeover u _ => sliceOk u
  | .storeRebuild cl _ => clusterOk cl
  | .controllerRestart cl detail _ => clusterOk cl && fits 32 detail
  | .mgmtRestart detail _ => fits 32 detail
  | .swapOut r c _ => requesterOk r && coreOk c
  | .swapOutTestDone c _ _ => coreOk c
  | .stage r _ => requesterOk r
  | .fwChunk r data _ => requesterOk r && bytesOk data
  | .stagingVerify _ => true
  | .activate r _ => requesterOk r
  | .activation facts _ => factsOk facts
  | .cancel r _ => requesterOk r
  | .confirm r _ => requesterOk r
  | .reject r _ => requesterOk r
  | .commitSvn r _ => requesterOk r
  | .quote r _ => requesterOk r
  | .quoteSigned _ => true
  | .debugToken r data _ => requesterOk r && bytesOk data
  | .jtagMode r v _ => requesterOk r && fits 64 v
  | .supplyOutOfTolerance supply _ => supplyOk supply
  | .vinCLow _ => true
  | .vinCBrownout facts _ => factsOk facts
  | .vddAonBrownout _ => true
  | .smbusBlockRead addr code _ => fits 7 addr && fits 8 code
  | .smbusBlockWrite addr code count data _ _ => fits 7 addr && fits 8 code && fits 8 count && bytesOk data
  | .smbusTimeout _ => true
  | .alertResponse _ => true
  | .fieldLinkUp p _ => portOk p
  | .perstNRelease _ => true
  | .pcieLinkUp width speed vfs => fits 3 width && fits 3 speed && fits 4 vfs.vfs && decide (vfs.confs.length ≤ 9) && vfs.confs.all confOk
  | .dataPortLinkUp p sub lanes => portOk p && fits 2 sub && fits 4 lanes
  | .supplyInTolerance supply _ => supplyOk supply
  | .mgmtRestartDone _ => true
  | .controllerRestartDone cl _ => clusterOk cl
  | .icmpv6Message p _ data => portOk p && bytesOk data
  | .roceAck n peer _ => partOk n && peerOk peer
  | .cmMessage p _ qpn => portOk p && fits 24 qpn
  | .congestionNotification p qpn => portOk p && fits 24 qpn
  | .requesterCacheExpiry addr port _ => fits 128 addr && fits 16 port

end Sys2Proof
end

