-- ==== Sys2Proof/Tests/Slice0.lean ====
section
/-!
SUPPORT. Tests of the model: a command that each check of WellFormed.lean refuses, single steps, published test vectors of the
checksums, and for every obligation with hypotheses a state and operands that meet them together, clause by clause.
-/

section

set_option Elab.async false

namespace Sys2Proof.Tests

open Sys2Proof.Machine

/-! ### States of the witnesses -/

/-- The state that most witnesses start from. -/
abbrev S0 : State := State.reset

/-- The requester of the witnesses: mailbox 0 of the physical function. -/
abbrev R0 : Requester := .mailbox 0

/-- Partition 0 with cluster 0 and an ACTIVE slot that uses core 0, ENABLED, with pitch 5 open since instant 0. -/
def run : State := S0.modPart 0 (fun p => { p with
  state := .enabled, mask := 1, active := some 0, slot0 := { state := .active, masks := [(0, 1)] }
  seq := { isOpen := true, everOpen := true, pitch := 5 } })

/-- `run` with core 0 in that pitch. -/
def live : State := run.modCore 0 (fun k => { k with isOpen := true, pitch := 5 })

/-- `run` between two pitches. -/
def gap : State := run.modPart 0 (fun p => { p with seq := { p.seq with isOpen := false } })

/-- Partition 0 with cluster 0 in a state of the witness's choice, with nothing loaded. -/
def inState (x : PartState) : State := S0.modPart 0 (fun p => { p with state := x, mask := 1 })

/-- Core 0 of `live` changed. -/
def liveWith (f : Core → Core) : State := live.modCore 0 f

/-- The operation block of the witnesses: the physical function on object `q`, no completion queue, no timeout. -/
def op (q : Nat) : OpHead := ⟨0, q, noQueue, 7, 0, false, none, 0⟩

/-- A tile of kind `k` and owner `o` that lies in granule 0. -/
def tile (k o : Nat) : Tile := ⟨k, 0, o, 0, 0, 2048, 1, [0]⟩

/-- `live` with a tile in the ACTIVE slot. -/
def withTile (k o : Nat) : State := live.modPart 0 (fun p => { p with slot0 := { p.slot0 with tiles := [tile k o] } })

/-- `live` with a synapse tile of one row of one weight, from source 0. -/
def rows : State := ((withTile 1 0).lpWrite 64 (natLe 4 (2 ^ 22 + 1))).lpWrite 96
  (natLe 8 (2 ^ 52 + 2 ^ 34) ++ natLe 8 1 ++ natLe 4 (8 * 2 ^ 16 + 256) ++ natLe 4 3)

/-- The event of `rows`: count 1, delay 1, source 0, row 0. -/
def event : BitVec 64 := evMk 1 1 false 0 0

/-- `rows` with the event at INTAKE. -/
def atIntake : State := rows.modCore 0 (fun k => { k with intake := [{ word := event, target := 5 }] })

/-- `atIntake` once INTAKE has handed the event on. -/
def handed : State := atIntake.modCore 0 (fun k => repin { k with intake := [] })

/-- A queue with one message at its head: a header without descriptors, and a body. -/
def message (q : Nat) (body : Bytes) : State :=
  let r := S0.queue q
  (S0.spaceWrite 0x10 r.space r.base (natLe 8 (rhMk 0 0 (8 + body.length) 0 0 0) ++ body)).modQueue q (fun x => { x with tail := (8 + body.length) / 8 })

/-- A descriptor that fills 32 bytes of LPDDR6 from address 0x40. -/
def fill : Bytes := natLe 8 2 ++ natLe 8 0 ++ natLe 8 0x40 ++ natLe 4 32 ++ natLe 4 0xFFFFF

/-- An OPEN ring of 256 bytes at LPDDR6 address 0, held and read by the physical function. -/
def ringQ : Queue := { state := 1, owner := 0, reader := 0, sendMask := 0x1001, sizeLog2 := 8, maxMsg := 64 }

/-- Queue 0 is `ringQ`, changed. -/
def ringWith (f : Queue → Queue) : State := S0.modQueue 0 (fun _ => f ringQ)

/-- The record that creates `ringQ`. -/
def ringRec : Bytes := [0, 0, 0, 0, 1, 0, 0, 0] ++ natLe 8 0 ++ natLe 2 8 ++ natLe 2 64 ++ List.replicate 12 0

/-- A message of 16 bytes. -/
def note : Bytes := natLe 8 (rhMk 0 0 16 0 0 0) ++ natLe 8 7

/-- `ringQ` with `note` in it. -/
def noted : State := ((ringWith id).place 0 note).2

/-- Block `b` of slice 0 granted: kind 0 queues, 1 synchronisation objects, 2 memory. -/
def granted (kind b ep : Nat) : State := S0.modMem (fun m => { m with grants := mset dGrant m.grants (grantKey kind 0 b) ep })

/-- Synchronisation object 0. -/
def synced (kind value parts : Nat) : State := S0.modSync 0 (fun _ => { kind := kind, owner := 0, value := value, parts := parts })

/-- An ENCODE_DONE picot from core 0 to core 1, which share their switch. -/
def pkt : Packet := ⟨0, 1, 0x14, 1, false, 0, false, 0, 0, false, 0, 0, 0, []⟩

/-- `S0` with one copy of `pkt` held. -/
def copied : State := S0.modFab (fun f => { f with unacked := [{ pkt := pkt, sentAt := some 0 }] })

/-- `S0` with the requester's record changed. -/
def asked (r : Requester) (f : ReqState → ReqState) : State := S0.modReq r f

/-- The index and the subindex of a key. -/
abbrev ix (k : Nat) : Nat := k / 256
abbrev sx (k : Nat) : Nat := k % 256

/-- A dictionary message of 16 bytes: ECHO without a body. -/
def echo : Bytes := [2, 0, 5, 0, 16, 0, 0, 0] ++ List.replicate 8 0

/-- A requester on the ROPE. -/
abbrev Q0 : Requester := .rope 3 9

/-- `live` with readout group 0 in partition 0 and its last readout at pitch 5; field object 0 carries that group. -/
def grouped : State := (((withTile 4 32).modGroup 0 (fun g => { g with last := some { pitch := 5 } })).dset (kObjGroups 0) (2 ^ 128 - 256)).dset (kObjDest 0) 1

/-- A remote message of one record for partition 0. -/
def remote : Bytes := [1, 0, 0, 0, 0, 0, 1, 0] ++ natLe 8 5 ++ natLe 16 0

/-- The remote records of edge 1 and partition 0 in `run`. -/
def remoteWith (f : RemoteBuf → RemoteBuf) : State := run.modRem 1 0 f

/-- `gap` at its BELAY, before the guard's end. -/
def belaying : State := gap.modPart 0 (fun p => { p with seq := { p.seq with belayAt := 5000 } })

/-- No own MAC address has more than 48 bits. -/
theorem mod_end (n : Nat) : 2 ^ 48 ≠ n % 2 ^ 48 := by omega
theorem mac_end (p : Nat) : 2 ^ 48 ≠ fieldMac p := mod_end _
theorem mac_out (n : Nat) (h : ∀ k, n ≠ k % 2 ^ 48) : ownMac n = false := by
  have e : ∀ k, (n == k % 2 ^ 48) = false := fun k => beq_eq_false_iff_ne.mpr (h k)
  have a : ∀ p, (n == fieldMac p) = false := fun p => e _
  have b : ∀ p k, (n == subMac p k) = false := fun p k => e _
  simp only [ownMac, a, b, Bool.or_self]
  rfl

/-- Core 0 of `gap` FAILED, with a spare that catches up. -/
def failed (x : CatchUp) : State := gap.modCore 0 (fun k => { k with mode := .failed, catchUp := some x })

/-- Core 0 of `gap` with a spare that replays. -/
def replaying (x : CatchUp) : State := gap.modCore 0 (fun k => { k with mode := .excused, catchUp := some x })

/-- A fault report of a code that asks for nothing beyond its table row. -/
def faultOf (code : Nat) : FaultReport := ⟨code, 0, 2, 0, none, 0, 0⟩

/-- A bring-up in which nothing fails. -/
def good : BringupFacts := ⟨[], [], [], [], [], [], [], true, 0, []⟩

/-- `S0` with its power record changed. -/
def powered (f : Power → Power) : State := S0.modPow f

/-- A long value whose bytes are 0. -/
def zeros : Bytes := List.replicate 30048 0

/-- `S0` whose host link runs. -/
abbrev seen : State := S0.dset kPcieState 2

/-- `S0` with the coolant loss flag, without a source and without a clear sample. -/
abbrev coolant : State := S0.dset kEmergencyFlags 16
abbrev calm : CoolantCalm := ⟨10000000000, 0, 0⟩
theorem coolant_clear : (coolant.reach calm.t).pow.coolClear = none := by decide +kernel
theorem none_holds {x : Option Nat} (P : Nat → Prop) (h : x = none) (i : Nat) (e : x = some i) : P i := by rw [h] at e; cases e
theorem coolant_src : (coolant.reach calm.t).pow.coolSrc = [] := by decide +kernel
theorem nil_holds {α : Type} {x : List α} {a : α} {P : Prop} (h : x = []) (e : a ∈ x) : P := by rw [h] at e; cases e

/-- A tile of rows without a row, and an image whose one tile it is, for partition 0 with cluster 0 and core 0; their CRCs and the digest
are computed outside Lean (CRC-32C, SHAKE256 of FIPS 202). -/
def tileBytes : Bytes :=
  let h := natLe 2 0x4C54 ++ [1, 1] ++ natLe 4 0 ++ natLe 8 0 ++ natLe 4 0 ++ natLe 40 0
  h ++ natLe 4 1371634953
def image : Bytes :=
  let h := natLe 4 0x49434C4B ++ [1, 0] ++ natLe 2 256 ++ natLe 4 0 ++ natLe 4 1 ++ natLe 8 0x200 ++ natLe 8 0x260 ++ natLe 16 1 ++ natLe 4 0 ++
    natLe 2 1 ++ natLe 10 0 ++ natLe 8 2048 ++ natLe 152 0
  let sec := natLe 256 1
  let tab := [1, 0] ++ natLe 2 0 ++ natLe 4 1214729159 ++ natLe 8 0x220 ++ natLe 8 64 ++ natLe 8 0
  h ++ natLe 32 0x88477e069014850239b5eba604dddb99221b516099e4b320f688cb2cc3439ef1 ++ sec ++ tab ++ tileBytes

/-- Partition 0 in CREATED, with `image` in a staging frame. -/
def imaged : State := ((((inState .created).modMem (fun m => { m with owners := [(0, 0x10)] })).lpWrite 0 image).dset (kImageAddr 0) 0).dset
  (kImageLength 0) 0x260

/-- The tile of `tileBytes` in the slot that it is loaded into. -/
def tileIn : Tile := ⟨1, 0, 0, 1214729159, 0x220, 64, 0, [2 ^ 30]⟩

/-- `imaged` whose slot 0 is being loaded with `tileIn`, twice. -/
def landing : State := imaged.modPart 0 (fun p => { p with
  loading := [⟨0, 0, 0⟩], slot0 := { state := .loading, hdr := image.take 256, tiles := [tileIn, tileIn] } })

/-- The configuration of a population of refractory neurons, and of single spikes. -/
def refractory : Nat := 2 ^ 224 * 2 ^ 8
def single : Nat := 2 ^ 224

/-- `withTile 1 0` with an event of a row that is not in the tile, at INTAKE, and once INTAKE has handed it on. -/
def unread : State := (withTile 1 0).modCore 0 (fun k => { k with intake := [{ word := event, target := 5 }] })
def unreadH : State := unread.modCore 0 (fun k => repin { k with intake := [] })

/-- A picot from core 0 to core 16, which lies on another switch. -/
def far : Packet := { pkt with dst := 16 }

/-- The link from the spine switch of uplink 0 to the switch of core 16 is excluded, after the routes were last built. -/
def blocked : State := S0.modFab (fun f => { f with excluded := [spineLink (uplinkSpine (.leaf 0) 0) (.leaf 1)] })
def blocked0 : State := (blocked.at 0).fabricDue.noteCopy far

/-! ### WellFormed.lean refuses -/

theorem test_wf_refuses_partition : Instr.wf (.pitchOpen 8 0) = false := by decide
theorem test_wf_refuses_core : Instr.wf (.belay 2048) = false := by decide
theorem test_wf_refuses_cluster : Instr.wf (.encodeDoneReceive 128) = false := by decide
theorem test_wf_refuses_slice : Instr.wf (.descriptorSubmit 64 0) = false := by decide
theorem test_wf_refuses_function : Instr.wf (.intCause 9 false 0) = false := by decide
theorem test_wf_refuses_half : Instr.wf (.halfCurrent 2 0) = false := by decide
theorem test_wf_refuses_edge : Instr.wf (.remoteHaul 4 0 0) = false := by decide
theorem test_wf_refuses_port : Instr.wf (.fieldLinkUp 2 0) = false := by decide
theorem test_wf_refuses_stream : Instr.wf (.encodeDone 32 0) = false := by decide
theorem test_wf_refuses_group : Instr.wf (.decode 256 0) = false := by decide
theorem test_wf_refuses_object : Instr.wf (.objectTransmit 32 0) = false := by decide
theorem test_wf_refuses_peer : Instr.wf (.roceAck 0 64 0) = false := by decide
theorem test_wf_refuses_mailbox : Instr.wf (.mbxControl 32 0) = false := by decide
theorem test_wf_refuses_slot : Instr.wf (.slotGo 0 16 0 0) = false := by decide
theorem test_wf_refuses_pin : Instr.wf (.wakeGpio 8 true 0) = false := by decide
theorem test_wf_refuses_supply : Instr.wf (.supplyOutOfTolerance 10 0) = false := by decide
theorem test_wf_refuses_requester : Instr.wf (.store .restore 0) = false := by decide
theorem test_wf_refuses_requester_port : Instr.wf (.rebuild (.rope 0 65536) 0) = false := by decide
theorem test_wf_refuses_source : Instr.wf (.outputEnable (.func 9) 0 0) = false := by decide
theorem test_wf_refuses_target : Instr.wf (.registerWrite (.entry R0 65536 0) [] 0) = false := by decide
theorem test_wf_refuses_target_offset : Instr.wf (.registerWrite (.bar0 0 (2 ^ 18)) [] 0) = false := by decide
theorem test_wf_refuses_head : Instr.wf (.cread { op 0 with object := 2 ^ 20 }) = false := by decide
theorem test_wf_refuses_head_slot : Instr.wf (.cread { op 0 with slot := some (0, 16) }) = false := by decide
theorem test_wf_refuses_packet : Instr.wf (.packetArrival ⟨{ pkt with seq := 2 ^ 16 }, ⟨[], [], []⟩, .atOnce⟩ 0) = false := by decide
theorem test_wf_refuses_trip : Instr.wf (.packetArrival ⟨pkt, ⟨[], [], [⟨0, 128, 0, 1, false⟩]⟩, .atOnce⟩ 0) = false := by decide
theorem test_wf_refuses_conf : Instr.wf (.functionLevelReset ⟨0, { mps := 3 }⟩ 0) = false := by decide
theorem test_wf_refuses_report : Instr.wf (.fault { faultOf 1 with partition := some 8 } 0) = false := by decide
theorem test_wf_refuses_facts : Instr.wf (.bringup { good with failCores := [17] } 0) = false := by decide
theorem test_wf_refuses_width : Instr.wf (.tsnTick 0 (2 ^ 48) 0) = false := by decide
theorem test_wf_refuses_value : Instr.wf (.mgmtRestart (2 ^ 32) 0) = false := by decide
theorem test_wf_refuses_samples : Instr.wf (.cmapInterval (2 ^ 11) [] 0) = false := by decide
theorem test_wf_refuses_bytes : bytesOk (List.replicate 30049 0) = false := by
  rw [bytesOk, List.length_replicate]; decide
theorem test_wf_accepts_numbers : Instr.wf (.remoteTransmit 3 7 63 0) = true := by decide

/-! ### Single steps, and published test vectors -/

/-- No word spells a command: the table gives no row any bits. -/
theorem test_no_word_spells_a_command : decodeTableWord 32 1 = none ∧ S0.withFetchWord 32 1 = S0 := ⟨rfl, rfl⟩
/-- An empty queue idles. -/
theorem test_idle : step S0 = .next S0 := rfl
/-- R251: a counter wraps at 2^64. -/
theorem test_cadd_wraps : (match exec (.cadd (op 0) 3) (synced 1 (2 ^ 64 - 1) 0) with
    | .next u => (u.sync 0).value
    | _ => 99) = 2 := by decide +kernel
/-- R251: TAKE leaves what it does not take. -/
theorem test_take_subtracts : (match exec (.take (op 0) 2) (synced 2 5 0) with
    | .next u => (u.sync 0).value
    | _ => 99) = 3 := by decide +kernel
/-- R163: a mask of zero creates no partition. -/
theorem test_create_needs_a_mask : (match exec (.create R0 ⟨0, []⟩ 0) S0 with
    | .next u => (u.part 0).state
    | _ => .enabled) = .absent := by decide +kernel
/-- R36: the quadrature sequence 00, 10 counts once. -/
theorem test_quadrature_counts : (match exec (.quadTransition true false 0) S0 with
    | .next u => u.clk.quadExt
    | _ => 99) ≠ 0 := by decide +kernel
/-- A SEND of 16 bytes advances the tail by two units of 8 bytes. -/
theorem test_send_advances_the_tail : (match exec (.send (op 0) note) (ringWith id) with
    | .next u => (u.queue 0).tail
    | _ => 99) = 2 := by decide +kernel
/-- R297: an ENCODE_DONE picot that arrives is acknowledged at once, with its SEQ. -/
theorem test_picot_is_acknowledged : (match exec (.packetArrival ⟨pkt, ⟨[], [], []⟩, .atOnce⟩ 0) S0 with
    | .next u => u.outbox
    | _ => []) = [.picot 0x10 1 0 0] := by decide +kernel
/-- R298: two wrong bits of a word pass the parity check and are found by the CRC. -/
theorem test_crc_finds_two_bits : (match exec (.packetArrival ⟨pkt, ⟨[], [], [⟨0, 0, 0, 3, false⟩]⟩, .atOnce⟩ 0) S0 with
    | .next u => (u.dget kCrcErrors, u.dget kWormDrops)
    | _ => (0, 0)) = (1, 0) := by decide +kernel
/-- R296: one wrong bit of the header shows at the next hop, which sinks the packet. -/
theorem test_parity_sinks_a_header : (match exec (.packetArrival ⟨pkt, ⟨[], [], [⟨0, 0, 0, 1, false⟩]⟩, .atOnce⟩ 0) S0 with
    | .next u => (u.dget kCrcErrors, u.dget kWormDrops)
    | _ => (0, 0)) = (0, 1) := by decide +kernel
/-- R196: after a reset no bank of the keep set is valid. -/
theorem test_no_bank_at_reset : S0.currentBank = none := by decide +kernel
/-- CRC-8 with polynomial 0x07 of the digits 1 to 9. -/
theorem test_crc8 : crc8 [0x31, 0x32, 0x33, 0x34, 0x35, 0x36, 0x37, 0x38, 0x39] = 0xF4 := by decide +kernel
/-- CRC-32C of the digits 1 to 9. -/
theorem test_crc32c : crc32c [0x31, 0x32, 0x33, 0x34, 0x35, 0x36, 0x37, 0x38, 0x39] = 0xE3069283 := by decide +kernel
/-- The first bytes of SHAKE256 of the empty string (FIPS 202). -/
theorem test_shake256 : (shake256 []).take 4 = [0x46, 0xB9, 0xDD, 0x2B] := by decide +kernel

/-! ### The obligations' hypotheses are met -/

theorem witness_StepRunsTheFrontCommand :
    (∃ (c : Instr) (r : List Instr) (s : State), s.pending = c :: r) ∧
    (∃ s : State, s.pending = []) :=
  ⟨⟨.drain 0, [.estopRelease 0], { S0 with pending := [.drain 0, .estopRelease 0] }, (rfl)⟩,
    ⟨S0, rfl⟩⟩

theorem witness_StepKeepsTheInvariant :
    ∃ s : State, State.wf s = true :=
  ⟨S0, by decide +kernel⟩

theorem witness_TicksReachTheirPartitions :
    (∃ (s : State) (n : Nat) (k : Nat) (t : Nat), let a := s.at t
      let late := a.schedNow n - ((a.dget (kOriginTime n) + k * a.periodNs n : Nat) : Int)
      n ∈ a.bound 1 ∧ k < 2 ^ 48 ∧ 0 ≤ late ∧ late < a.periodNs n ∧ ((lastTickNo (a.part n).seq = none ∧ (a.part n).seq.enabledAt + 50000 + late.toNat ≤ a.now ∨ ∃ j, lastTickNo (a.part n).seq = some j ∧ j < k))) ∧
    (∃ (s : State) (rising : Bool) (t : Nat), let a := s.at t
      ((rising = true ↔ a.dget kCinEdge = 0)) ∧ ((∀ i, a.clk.cinAt = some i → i + a.dget kCinMinInterval * 1000 ≤ a.now))) ∧
    (∃ (s : State) (rising : Bool) (t : Nat) (i : Nat), let a := s.at t
      ((rising = true ↔ a.dget kCinEdge = 0)) ∧ a.clk.cinAt = some i ∧ a.now < i + a.dget kCinMinInterval * 1000) ∧
    (∃ (s : State) (f : Nat) (t : Nat), let a := s.at t
      a.hostSees f = true) :=
  ⟨⟨((S0.modPart 0 (fun p => { p with state := .enabled })).dset (kCadenceSource 0) 1).modClk (fun c => { c with tsn := 950000 }), 0, 1, 50000, by decide +kernel, by decide +kernel, by decide +kernel, by decide +kernel, (Or.inl (by decide +kernel))⟩,
    ⟨S0.modClk (fun c => { c with cinAt := some 0 }), true, 250000, by decide +kernel, (fun i h => by injection h with h; subst h; decide +kernel)⟩,
    ⟨S0.modClk (fun c => { c with cinAt := some 0 }), true, 0, 0, by decide +kernel⟩,
    ⟨seen, 0, 0, by decide +kernel⟩⟩

theorem witness_PitchOpensAndIsMarked :
    (∃ (s : State) (n : Nat) (t : Nat) (num : Nat) (inst : Nat), let a := s.at t
      (a.part n).seq.pendTick = some (num, inst) ∧ a.mayOpen n inst = true) ∧
    (∃ (s : State) (n : Nat) (t : Nat), let a := s.at t
      (a.part n).seq.isOpen = true ∧ (a.part n).seq.watched = false ∧ (a.part n).seq.openAt * 100 + a.eff (kWatchFraction n) * (a.periodNs n - a.guardNs n) ≤ a.now * 100) ∧
    (∃ (s : State) (n : Nat) (t : Nat), let a := s.at t
      (a.part n).seq.isOpen = true ∧ (a.part n).seq.openAt + a.periodNs n - a.guardNs n < a.now) ∧
    (∃ (s : State) (n : Nat) (t : Nat), let a := s.at t
      (a.part n).seq.isOpen = true ∧ (a.part n).seq.truncAt = none ∧ (a.eff (kOverrunPolicy n) = 1 ∨ a.eff (kOverrunPolicy n) = 2) ∧ (a.part n).seq.openAt + a.periodNs n - a.guardNs n + (if a.eff (kOverrunPolicy n) = 2 then a.eff (kStretchLimit n) * 1000 else 0) ≤ a.now) ∧
    (∃ (s : State) (n : Nat) (c : Nat) (t : Nat), let a := s.at t
      let q := (a.part n).seq
      q.isOpen = true ∧ ((q.openAt + 10 * a.periodNs n ≤ a.now ∨ (∃ x, q.truncAt = some x ∧ a.truncLate n x = true) ∨ ∃ x, q.absorbAt = some x ∧ x + 60000 ≤ a.now)) ∧ c ∈ a.partCores n ∧ (a.core c).belaySent = false ∧ c ∉ q.timedOut) ∧
    (∃ (s : State) (n : Nat) (t : Nat), let a := s.at t
      running (a.part n) = true ∧ 2 ≤ a.dget (kCadenceSource n) ∧ a.dget (kCadenceState n) ≠ 3 ∧ (a.part n).seq.lastTick + a.eff (kCadenceTimeout n) * a.periodNs n ≤ a.now) :=
  ⟨⟨gap.modPart 0 (fun p => { p with seq := { p.seq with everOpen := false, pendTick := some (6, 0) } }), 0, 0, 6, 0, by decide +kernel⟩,
    ⟨run, 0, 960000, by decide +kernel⟩,
    ⟨run, 0, 960001, by decide +kernel⟩,
    ⟨run, 0, 1060000, by decide +kernel⟩,
    ⟨run, 0, 0, 10000000, by decide +kernel, (Or.inl (by decide +kernel)), by decide +kernel, by decide +kernel, by decide +kernel⟩,
    ⟨run.dset (kCadenceSource 0) 2, 0, 10000000000, by decide +kernel⟩⟩

theorem witness_TimeAndBelaysAreNoted :
    (∃ (s : State) (m : SyncInfo) (t : Nat), let a := s.at t
      a.dget kTimePort = m.port ∧ m.port < 4 ∧ a.timeUp m.port = true ∧ m.domain = 0 ∧ m.p2p = true ∧ -7 ≤ m.log ∧ m.log ≤ 0 ∧ (m.port < 2 ∨ m.sub = 0)) ∧
    (∃ (s : State) (t : Nat), let a := s.at t
      a.dget kTimeState = 1 ∧ a.clk.syncAt + 3 * 1000000000 / 2 ^ (-a.clk.syncLog).toNat ≤ a.now) ∧
    (∃ (s : State) (t : Nat), let a := s.at t
      a.dget kTimeState = 2 ∧ a.clk.lostSaid = false ∧ a.clk.holdSince + a.dget kHoldoverLimit * 1000000 < a.now) ∧
    (∃ (s : State) (n : Nat) (cl : Nat) (t : Nat), let a := s.at t
      (a.part n).seq.isOpen = true ∧ (a.part n).mask.testBit cl = true ∧ (a.cluster cl).belaySent = true ∧ cl ∉ (a.part n).seq.belays) ∧
    (∃ (s : State) (n : Nat) (t : Nat), let a := s.at t
      (a.part n).hostLoss = true ∧ (a.part n).contLeft = some 0) :=
  ⟨⟨(S0.dset kTimePort 2).modDataPort 0 (fun p => { p with up := [(0, true)] }), ⟨2, 0, 0, 0, true⟩, 0, by decide +kernel, by decide +kernel, by decide +kernel, by decide +kernel, by decide +kernel, by decide +kernel, by decide +kernel, (Or.inr (by decide +kernel))⟩,
    ⟨S0.dset kTimeState 1, 3000000000, by decide +kernel⟩,
    ⟨S0.dset kTimeState 2, 1000000001, by decide +kernel⟩,
    ⟨(run.modPart 0 (fun p => { p with mask := 3 })).modCluster 0 (fun q => { q with belaySent := true }), 0, 0, 0, by decide +kernel⟩,
    ⟨run.modPart 0 (fun p => { p with hostLoss := true, contLeft := some 0 }), 0, 0, by decide +kernel⟩⟩

theorem witness_CoresOpenDrainAndClose :
    (∃ (s : State) (c : Nat) (t : Nat), let a := s.at t
      a.corePresent c = true ∧ (a.coreP c).seq.isOpen = true ∧ (a.core c).isOpen = false ∧ (a.core c).mode = .live ∧ usesCore (activeSlot (a.coreP c)) c = true) ∧
    (∃ (s : State) (c : Nat), s.liveCore c = true ∧ (s.core c).belaySent = false ∧ s.drained c = true) ∧
    (∃ (s : State) (c : Nat), (s.core c).isOpen = true ∧ (s.core c).belaySent = true ∧ s.noHauls c = true ∧ s.noCopies c = true) ∧
    (∃ (s : State) (c : Nat) (t : Nat), let a := s.at t
      (a.core c).isOpen = true ∧ (a.coreP c).seq.isOpen = false) ∧
    (∃ (s : State) (c : Nat) (t : Nat), let a := s.at t
      (a.coreP c).seq.truncAt.isSome = true ∧ a.liveCore c = true ∧ (a.core c).belaySent = false ∧ (a.core c).truncated = false ∧ (a.core c).absorbed = false ∧ a.drained c = false) ∧
    (∃ (s : State) (c : Nat), (s.coreP c).seq.absorbAt.isSome = true ∧ s.liveCore c = true ∧ (s.core c).belaySent = false ∧ (s.core c).absorbed = false ∧ s.drained c = false) :=
  ⟨⟨run, 0, 0, by decide +kernel⟩,
    ⟨liveWith (fun k => { k with sweepDone := true }), 0, by decide +kernel⟩,
    ⟨liveWith (fun k => { k with belaySent := true }), 0, by decide +kernel⟩,
    ⟨live.modPart 0 (fun p => { p with seq := { p.seq with isOpen := false } }), 0, 0, by decide +kernel⟩,
    ⟨live.modPart 0 (fun p => { p with seq := { p.seq with truncAt := some 0 } }), 0, 0, by decide +kernel⟩,
    ⟨live.modPart 0 (fun p => { p with seq := { p.seq with absorbAt := some 0 } }), 0, by decide +kernel⟩⟩

theorem witness_RowsArePrefetched :
    (∃ (s : State) (c : Nat) (r : Nat) (l : List CacheObj), s.mayRead c = true ∧ s.nextPrefetch c = some r ∧ s.roomIn c (s.core c).cache (s.rowUnits (activeSlot (s.coreP c)) c r + 1) = some l) ∧
    (∃ (s : State) (c : Nat) (r : Nat), s.mayRead c = true ∧ s.nextPrefetch c = some r ∧ s.roomIn c (s.core c).cache (s.rowUnits (activeSlot (s.coreP c)) c r + 1) = none ∧ r ∉ (s.core c).deferred) ∧
    (∃ (s : State) (c : Nat) (r : Nat) (w : List Nat) (l : List CacheObj), s.mayRead c = true ∧ (s.core c).deferred = r :: w ∧ s.roomIn c (s.core c).cache (s.rowUnits (activeSlot (s.coreP c)) c r + 1) = some l) ∧
    (∃ (s : State) (c : Nat) (row : Nat) (ok : Bool) (l : List CacheObj), (s.core c).reads.find? (fun q => q.row == row) = some ⟨row, false⟩ ∧ (s.core c).truncated = false ∧ (s.core c).absorbed = false ∧ s.roomIn c (s.core c).cache 1 = some l ∧ ok = true ∧ s.dirBad (activeSlot (s.coreP c)) c row = false) ∧
    (∃ (s : State) (c : Nat) (row : Nat) (ok : Bool) (q : RowRead), (s.core c).reads.find? (fun q => q.row == row) = some q ∧ ((s.core c).truncated = true ∨ (s.core c).absorbed = true ∨ q.dirDone = false ∧ (ok = false ∨ s.dirBad (activeSlot (s.coreP c)) c row = true))) ∧
    (∃ (s : State) (c : Nat) (row : Nat) (l : List CacheObj), let sl := activeSlot (s.coreP c)
      (s.core c).reads.find? (fun q => q.row == row) = some ⟨row, true⟩ ∧ (s.core c).truncated = false ∧ (s.core c).absorbed = false ∧ cacheFind (s.core c).cache .row row = none ∧ s.roomIn c (s.core c).cache (s.rowUnits sl c row) = some l ∧ s.rowBad sl c row = false) :=
  ⟨⟨rows.modCore 0 (fun k => { k with ring := [{ word := event, target := 6 }] }), 0, 0, [], by decide +kernel⟩,
    ⟨(rows.modCore 0 (fun k => { k with ring := [{ word := event, target := 6 }] })).modMem (fun m => { m with withdrawn := [(0, 8192)] }), 0, 0, by decide +kernel⟩,
    ⟨rows.modCore 0 (fun k => { k with deferred := [0] }), 0, 0, [], [], by decide +kernel⟩,
    ⟨rows.modCore 0 (fun k => { k with reads := [⟨0, false⟩] }), 0, 0, true, [], by decide +kernel⟩,
    ⟨rows.modCore 0 (fun k => { k with reads := [⟨0, false⟩] }), 0, 0, false, ⟨0, false⟩, by decide +kernel, (Or.inr (Or.inr (by decide +kernel)))⟩,
    ⟨rows.modCore 0 (fun k => { k with reads := [⟨0, true⟩] }), 0, 0, [], by decide +kernel⟩⟩

theorem witness_EventsReachTheirPitch :
    (∃ (s : State) (c : Nat) (t : Nat) (e : EvRec) (r : List EvRec) (row : Row) (b : State), let a := s.at t
      let i := a.modCore c (fun k => repin { k with intake := r })
      a.liveCore c = true ∧ (a.core c).sweepDone = false ∧ (a.core c).truncated = false ∧ (a.core c).absorbed = false ∧ (a.core c).intake = e :: r ∧ e.word ≠ 0 ∧ evCount e.word ≠ 0 ∧ i.fetchRow (activeSlot (i.coreP c)) c e.word = (some row, b)) ∧
    (∃ (s : State) (c : Nat) (t : Nat) (e : EvRec) (r : List EvRec) (b : State), let a := s.at t
      let i := a.modCore c (fun k => repin { k with intake := r })
      a.liveCore c = true ∧ (a.core c).sweepDone = false ∧ (a.core c).truncated = false ∧ (a.core c).absorbed = false ∧ (a.core c).intake = e :: r ∧ e.word ≠ 0 ∧ evCount e.word ≠ 0 ∧ i.fetchRow (activeSlot (i.coreP c)) c e.word = (none, b)) ∧
    (∃ (s : State) (c : Nat) (t : Nat) (e : EvRec) (r : List EvRec), let a := s.at t
      a.liveCore c = true ∧ (a.core c).sweepDone = false ∧ (a.core c).truncated = false ∧ (a.core c).absorbed = false ∧ (a.core c).intake = e :: r ∧ (e.word = 0 ∨ evCount e.word = 0)) ∧
    (∃ (s : State) (c : Nat) (t : Nat), let a := s.at t
      a.sweepDue c = true) ∧
    (∃ (s : State) (c : Nat) (dst : Nat) (t : Nat) (o : OpenHaul), let a := s.at t
      (a.core c).openHauls.find? (fun o => o.dst == dst) = some o ∧ o.opened + 256 ≤ a.now) ∧
    (∃ (s : State) (id : Nat) (t : Nat) (h : Haul), let a := s.at t
      mget dNone a.hauls id = some h ∧ h.kind = .event) ∧
    (∃ (s : State) (id : Nat) (t : Nat) (h : Haul) (w : BitVec 64), let a := s.at t
      let k := a.core h.dst
      let tgt := h.pitch + evDelay w
      mget dNone a.hauls id = some h ∧ h.kind = .event ∧ h.events = [w] ∧ (k.mode = .live ∨ k.mode = .excused) ∧ w ≠ 0 ∧ evCount w ≠ 0 ∧ 1 ≤ evDelay w ∧ evDelay w ≤ 32 ∧ (ringCount k (tgt % 32) % 32 ≠ 0 ∨ segsUsed k < 256)) ∧
    (∃ (s : State) (cl : Nat) (e : JEntry) (r : List JEntry), (s.cluster cl).journalBuf = e :: r ∧ s.localArea cl = true) ∧
    (∃ (s : State) (c : Nat) (t : Nat), let a := s.at t
      (a.core c).stalled = true ∧ (a.cluster (clusterOf c)).journalBuf.length < 512) ∧
    (∃ (s : State) (k : Nat) (t : Nat) (n : Nat) (tl : Tile), let a := s.at t
      (a.stream k).encoding = true ∧ (a.stream k).unlaunched = [] ∧ a.noEncoded k = true ∧ a.noEncodedCopies k = true ∧ a.convOf k = some (n, tl)) ∧
    (∃ (s : State) (cl : Nat), ((∀ k ∈ s.clusterStreams ((s.partOf cl).getD 8) cl, k ∈ (s.cluster cl).encDone))) :=
  ⟨⟨atIntake, 0, 0, { word := event, target := 5 }, [], ⟨0, [⟨0, 8, [(0, 3)]⟩], []⟩, (handed.fetchRow (activeSlot (handed.coreP 0)) 0 event).2, by decide +kernel, by decide +kernel, by decide +kernel, by decide +kernel, by decide +kernel, by decide +kernel, by decide +kernel, (Prod.ext (by decide +kernel) rfl)⟩,
    ⟨unread, 0, 0, { word := event, target := 5 }, [], (unreadH.fetchRow (activeSlot (unreadH.coreP 0)) 0 event).2, by decide +kernel, by decide +kernel, by decide +kernel, by decide +kernel, by decide +kernel, by decide +kernel, by decide +kernel, (Prod.ext (by decide +kernel) rfl)⟩,
    ⟨liveWith (fun k => { k with intake := [{ word := 0, target := 5 }] }), 0, 0, { word := 0, target := 5 }, [], by decide +kernel⟩,
    ⟨live, 0, 0, by decide +kernel⟩,
    ⟨liveWith (fun k => { k with openHauls := [⟨1, [], [], 0⟩] }), 0, 1, 256, ⟨1, [], [], 0⟩, by decide +kernel⟩,
    ⟨{ S0 with hauls := [(3, some ⟨.event, 1, 0, [evMk 1 32 false 0 0], [], 5, 0⟩)] }, 3, 0, ⟨.event, 1, 0, [evMk 1 32 false 0 0], [], 5, 0⟩, by decide +kernel⟩,
    ⟨{ S0 with hauls := [(3, some ⟨.event, 1, 0, [evMk 1 32 false 0 0], [], 5, 0⟩)] }, 3, 0, ⟨.event, 1, 0, [evMk 1 32 false 0 0], [], 5, 0⟩, evMk 1 32 false 0 0, by decide +kernel⟩,
    ⟨S0.modCluster 0 (fun q => { q with journalBuf := [.release 0 0] }), 0, .release 0 0, [], by decide +kernel⟩,
    ⟨liveWith (fun k => { k with stalled := true }), 0, 0, by decide +kernel⟩,
    ⟨(withTile 4 0).modStream 0 (fun q => { q with encoding := true }), 0, 0, 0, tile 4 0, by decide +kernel⟩,
    ⟨live, 0, by decide +kernel⟩⟩

theorem witness_PartitionCommandsTakeEffect :
    (∃ (s : State) (r : Requester) (m : CreateOp) (t : Nat), let a := s.at t
      let n := m.part
      a.Accepts r (kPartitionCommand n) 1 ∧ n < 8 ∧ (a.part n).state = .absent ∧ a.dget (kClusterMask n) ≠ 0 ∧ ((∀ c ∈ maskList 128 (a.dget (kClusterMask n)), a.partOf c = none ∧ a.clCores c ≠ []))) ∧
    (∃ (s : State) (r : Requester) (n : Nat) (t : Nat), let a := s.at t
      let i := a.sel r (kImageSlot n)
      a.Accepts r (kPartitionCommand n) 2 ∧ a.pow.state = .active ∧ a.pow.entry = none ∧ n < 8 ∧ ((a.part n).state = .created ∨ (a.part n).state = .ready ∨ (a.part n).state = .enabled) ∧ ((slotAt (a.part n) i).state = .empty ∨ (slotAt (a.part n) i).state = .loaded ∨ (slotAt (a.part n) i).state = .failed)) ∧
    (∃ (s : State) (r : Requester) (n : Nat) (t : Nat), let a := s.at t
      a.Accepts r (kPartitionCommand n) 3 ∧ a.pow.state = .active ∧ a.pow.entry = none ∧ n < 8 ∧ (a.part n).state = .ready ∧ a.dget (kCadenceSource n) ≠ 0 ∧ (a.dget (kCadenceSource n) ≠ 3 ∨ a.dget (kQuadCounts n) ≠ 0)) ∧
    (∃ (s : State) (r : Requester) (n : Nat) (t : Nat), let a := s.at t
      a.Accepts r (kPartitionCommand n) 4 ∧ n < 8 ∧ (a.part n).state = .enabled ∧ (a.part n).seq.isOpen = true) ∧
    (∃ (s : State) (r : Requester) (n : Nat) (t : Nat), let a := s.at t
      a.Accepts r (kPartitionCommand n) 5 ∧ n < 8 ∧ ((a.part n).state = .enabled ∨ (a.part n).state = .disabling) ∧ (a.part n).seq.isOpen = true) ∧
    (∃ (s : State) (r : Requester) (n : Nat) (t : Nat) (i : Nat), let a := s.at t
      let p := a.part n
      a.Accepts r (kPartitionCommand n) 6 ∧ n < 8 ∧ p.state = .enabled ∧ p.active = some i ∧ p.pendSwap = false ∧ (slotAt p (otherSlot i)).state = .loaded ∧ hdrWoe (slotAt p (otherSlot i)).hdr = hdrWoe (slotAt p i).hdr) ∧
    (∃ (s : State) (r : Requester) (n : Nat) (t : Nat) (i : Nat), let a := s.at t
      let p := a.part n
      a.Accepts r (kPartitionCommand n) 6 ∧ n < 8 ∧ p.state = .ready ∧ p.active = some i ∧ p.pendSwap = false ∧ (slotAt p (otherSlot i)).state = .loaded) ∧
    (∃ (s : State) (r : Requester) (n : Nat) (t : Nat) (i : Nat), let a := s.at t
      let p := a.part n
      a.Accepts r (kPartitionCommand n) 6 ∧ n < 8 ∧ (p.state = .ready ∨ p.state = .enabled) ∧ p.active = some i ∧ p.pendSwap = true) ∧
    (∃ (s : State) (r : Requester) (n : Nat) (t : Nat), let a := s.at t
      let i := a.sel r (kImageSlot n)
      a.Accepts r (kPartitionCommand n) 7 ∧ n < 8 ∧ ((a.part n).state = .created ∨ (a.part n).state = .ready ∨ (a.part n).state = .enabled) ∧ ((a.part n).active ≠ some i ∨ (a.part n).state ≠ .enabled)) ∧
    (∃ (s : State) (r : Requester) (n : Nat) (t : Nat), let a := s.at t
      a.Accepts r (kPartitionCommand n) 8 ∧ n < 8 ∧ ((a.part n).state = .created ∨ (a.part n).state = .ready)) :=
  ⟨⟨S0.dset (kClusterMask 0) (2 ^ 127), R0, ⟨0, []⟩, 0, by decide +kernel⟩,
    ⟨imaged, R0, 0, 0, by decide +kernel⟩,
    ⟨(inState .ready).dset (kCadenceSource 0) 2, R0, 0, 0, by decide +kernel⟩,
    ⟨run, R0, 0, 0, by decide +kernel⟩,
    ⟨run, R0, 0, 0, by decide +kernel⟩,
    ⟨run.modPart 0 (fun p => { p with slot1 := { state := .loaded } }), R0, 0, 0, 0, by decide +kernel⟩,
    ⟨(inState .ready).modPart 0 (fun p => { p with active := some 0, slot1 := { state := .loaded }, pendSwap := false }), R0, 0, 0, 0, by decide +kernel⟩,
    ⟨(inState .ready).modPart 0 (fun p => { p with active := some 0, slot1 := { state := .loaded }, pendSwap := true }), R0, 0, 0, 0, by decide +kernel⟩,
    ⟨inState .created, R0, 0, 0, by decide +kernel⟩,
    ⟨inState .created, R0, 0, 0, by decide +kernel⟩⟩

theorem witness_LoadsAndSwapsGoOn :
    (∃ (s : State) (n : Nat) (t : Nat) (i : Nat) (addr : Nat) (k : Nat) (tl : Tile) (w : List Loading), let a := s.at t
      let sl := slotAt (a.part n) i
      (a.part n).loading = ⟨i, addr, k⟩ :: w ∧ sl.tiles[k]? = some tl ∧ ((∀ j, j < (tl.len + 31) / 32 → a.wordBad (addr + tl.off + 32 * j) = false)) ∧ ((∀ g ∈ tl.granules, a.addrOut g = false))) ∧
    (∃ (s : State) (n : Nat) (t : Nat) (i : Nat), let a := s.at t
      (a.part n).pendSwap = true ∧ (a.part n).state = .ready ∧ applying (activeSlot (a.part n)) = false ∧ (a.part n).active = some i ∧ i < 2 ∧ (slotAt (a.part n) (otherSlot i)).state = .loaded) :=
  ⟨⟨landing, 0, 0, 0, 0, 0, tileIn, [], by decide +kernel⟩,
    ⟨(inState .ready).modPart 0 (fun p => { p with active := some 0, slot1 := { state := .loaded }, pendSwap := true }), 0, 0, 0, by decide +kernel⟩⟩

theorem witness_StationsAndNeuronsAreReached :
    (∃ (s : State) (r : Requester) (n : Nat) (v : Nat) (t : Nat), let a := s.at t
      let w := v % 16
      a.Accepts r (kStationEnable n) v ∧ (a.plasticLicensed = true ∨ bit w 0 = false ∧ bit w 1 = false)) ∧
    (∃ (s : State) (r : Requester) (n : Nat) (v : Nat) (t : Nat), let a := s.at t
      let w := v % 16
      a.Accepts r (kStationDisableNow n) v ∧ bit w 1 = false ∧ bit w 2 = false ∧ bit w 3 = false) ∧
    (∃ (s : State) (r : Requester) (n : Nat) (v : Nat) (t : Nat), let a := s.at t
      a.Accepts r (kStationDisableNow n) v ∧ n < 8) ∧
    (∃ (s : State) (r : Requester) (n : Nat) (sub : Nat) (t : Nat) (data : Option Bytes), let a := s.at t
      let k := naKey n sub
      a.hears r = true ∧ a.gate (if data.isSome then 2 else 1) k = true ∧ 2 ≤ sub ∧ sub ≤ 5 ∧ n < 8 ∧ a.reqReads r k = true ∧ ((∀ b, data = some b → b.length = naLength sub)) ∧ a.domainOff k 0 = false) ∧
    (∃ (s : State) (n : Nat) (t : Nat) (q : NeuronReq) (w : List NeuronReq), let a := s.at t
      let b := a.modPart n (fun p => { p with waiting := w })
      (a.part n).waiting = q :: w ∧ (a.part n).seq.isOpen = false ∧ b.naTargetOk n q.target = true ∧ b.naGone q.target = false ∧ q.data = none ∧ q.sub ≠ 0) ∧
    (∃ (s : State) (n : Nat) (t : Nat) (q : NeuronReq) (w : List NeuronReq) (x : Bytes), let a := s.at t
      let b := a.modPart n (fun p => { p with waiting := w })
      (a.part n).waiting = q :: w ∧ (a.part n).seq.isOpen = false ∧ b.naTargetOk n q.target = true ∧ b.naGone q.target = false ∧ q.data = some x ∧ b.naWriteOk n q.sub q.target x = true) ∧
    (∃ (s : State) (n : Nat) (t : Nat) (q : NeuronReq) (w : List NeuronReq), let a := s.at t
      let b := a.modPart n (fun p => { p with waiting := w })
      (a.part n).waiting = q :: w ∧ (a.part n).seq.isOpen = false ∧ b.naTargetOk n q.target = true ∧ b.naGone q.target = true) ∧
    (∃ (s : State) (r : Requester) (n : Nat) (v : Nat) (t : Nat), let a := s.at t
      a.Accepts r (kCounterClear n) v ∧ (v = 1 ∨ v = 2) ∧ ((v = 1 → (a.part n).mask.testBit (clusterOf (a.sel r (kCoreSelect n))) = true))) :=
  ⟨⟨S0.dset kFeaturesLicensed 1, R0, 0, 15, 0, by decide +kernel⟩,
    ⟨S0, R0, 0, 1, 0, by decide +kernel⟩,
    ⟨S0, R0, 0, 15, 0, by decide +kernel⟩,
    ⟨run, R0, 0, 5, 0, none, by decide +kernel, by decide +kernel, by decide +kernel, by decide +kernel, by decide +kernel, by decide +kernel, (fun b h => by cases h), by decide +kernel⟩,
    ⟨gap.modPart 0 (fun p => { p with waiting := [{ req := R0, sub := 2, target := 0 }] }), 0, 0, { req := R0, sub := 2, target := 0 }, [], by decide +kernel⟩,
    ⟨gap.modPart 0 (fun p => { p with waiting := [{ req := R0, sub := 2, target := 0, data := some (natLe 8 (2 ^ 58)) }] }), 0, 0, { req := R0, sub := 2, target := 0, data := some (natLe 8 (2 ^ 58)) }, [], natLe 8 (2 ^ 58), by decide +kernel⟩,
    ⟨(gap.modPart 0 (fun p => { p with waiting := [{ req := R0, sub := 2, target := 0 }] })).modCore 0 (fun k => { k with mode := .failed }), 0, 0, { req := R0, sub := 2, target := 0 }, [], by decide +kernel⟩,
    ⟨run, R0, 0, 1, 0, by decide +kernel⟩⟩

theorem witness_DescriptorsAndKeepSetsComplete :
    (∃ (s : State) (i : Nat) (t : Nat) (b : Bytes), let a := s.at t
      let q := submitQueue i
      let h := a.ringHdr (a.queue q) (a.queue q).head
      let f := senderFunction (rhSender h)
      let d := Machine.slice b 0 32
      a.slicePresent i = true ∧ a.headBody q = some b ∧ (a.slice i).descs.length < 64 ∧ (bit (fieldAt d 1 1) 0 = false ∨ (∀ e ∈ (a.slice i).descs, e.owner ≠ f))) ∧
    (∃ (s : State) (i : Nat) (j : Nat) (t : Nat) (e : Desc), let a := s.at t
      (a.slice i).descs[j]? = some e) ∧
    (∃ (s : State) (n : Nat) (p : Nat) (t : Nat) (tl : Tile), let a := s.at t
      let sl := activeSlot (a.part n)
      findTile sl 5 p = some tl ∧ (mget dProj sl.projs p).apply = true ∧ (mget dProj sl.projs p).done = false ∧ applyBehind sl p = false) ∧
    (∃ (s : State) (r : Requester) (n : Nat) (t : Nat), let a := s.at t
      let l := a.newSections n [a.makeSection n]
      a.Accepts r (kKeepCommand n) 1 ∧ a.keepAllowed n = stOk ∧ bankLength l ≤ 25165824) ∧
    (∃ (s : State) (r : Requester) (n : Nat) (t : Nat), let a := s.at t
      let l := a.newSections n []
      a.Accepts r (kKeepCommand n) 2 ∧ a.keepAllowed n = stOk ∧ bankLength l ≤ 25165824) ∧
    (∃ (s : State) (n : Nat) (t : Nat) (l : List KeepSection), let a := s.at t
      a.keep.commit = some (n, l)) :=
  ⟨⟨message 16383 fill, 0, 0, fill, by decide +kernel⟩,
    ⟨S0.modSlice 0 (fun x => { x with descs := [⟨fill, 0⟩] }), 0, 0, 0, ⟨fill, 0⟩, by decide +kernel⟩,
    ⟨(withTile 5 1).modPart 0 (fun p => { p with slot0 := { p.slot0 with projs := [(1, { apply := true })] } }), 0, 1, 0, tile 5 1, by decide +kernel⟩,
    ⟨(run.dset kFeaturesLicensed 1).modPart 0 (fun p => { p with slot0 := { p.slot0 with hdr := natLe 9 (2 ^ 65) } }), R0, 0, 0, by decide +kernel⟩,
    ⟨(run.dset kFeaturesLicensed 1).modPart 0 (fun p => { p with slot0 := { p.slot0 with hdr := natLe 9 (2 ^ 65) } }), R0, 0, 0, by decide +kernel⟩,
    ⟨{ run with keep := { run.keep with commit := some (0, []) } }, 0, 0, [], by decide +kernel⟩⟩

theorem witness_StreamsTakeTheirSamples :
    (∃ (s : State) (src : SamplePath) (k : Nat) (t : Nat) (data : Bytes), let e := s.at t
      let a := e.ecnMarked (src.ecn && src.path == 2) (e.dget (kEthPort k)) (0x020000 + k)
      let q := fieldAt data 4 4
      k < 32 ∧ a.dget (kSource k) = src.path ∧ 2 ≤ src.path ∧ ((src.path = 2 ∨ src.path = 3 → a.samplePath src.path k = true)) ∧ a.streamPresent k = true ∧ (a.stream k).force = true ∧ a.sampleOk k data = true ∧ ((∀ h, (a.stream k).heldSeq = some h → 0 < (q + 2 ^ 32 - h) % 2 ^ 32 ∧ (q + 2 ^ 32 - h) % 2 ^ 32 < 2 ^ 31))) ∧
    (∃ (s : State) (src : SamplePath) (k : Nat) (t : Nat), let e := s.at t
      let a := e.ecnMarked (src.ecn && src.path == 2) (e.dget (kEthPort k)) (0x020000 + k)
      k < 32 ∧ a.dget (kSource k) = src.path ∧ 2 ≤ src.path ∧ ((src.path = 2 ∨ src.path = 3 → a.samplePath src.path k = true)) ∧ a.streamPresent k = true ∧ (a.stream k).force = false) ∧
    (∃ (s : State) (k : Nat) (t : Nat) (data : Bytes), let a := s.at t
      let q := ingestQueue k
      k < 32 ∧ a.dget (kSource k) = 1 ∧ a.headBody q = some data) ∧
    (∃ (s : State) (r : Requester) (k : Nat) (t : Nat) (data : Bytes), let a := s.at t
      a.Accepts r (kStreamSample k) 0 ∧ 16 ≤ data.length ∧ data.length ≤ 1040 ∧ a.dget (kSource k) = 4) ∧
    (∃ (s : State) (r : Requester) (k : Nat) (v : Nat) (t : Nat), let a := s.at t
      a.Accepts r (kStreamEnable k) v ∧ v < 2 ∧ ((v = 1 → a.dget (kSource k) ≠ 0 ∧ (a.dget (kSource k) = 3 → a.udpTaken k = false)))) ∧
    (∃ (s : State) (r : Requester) (k : Nat) (t : Nat), let a := s.at t
      a.Accepts r (kStreamDisableNow k) 1 ∧ a.holder k = none) ∧
    (∃ (s : State) (r : Requester) (k : Nat) (n : Nat) (t : Nat), let a := s.at t
      k < 32 ∧ a.Accepts r (kStreamDisableNow k) 1 ∧ a.holder k = some n) :=
  ⟨⟨((withTile 4 0).dset (kSource 0) 4).modStream 0 (fun q => { q with force := true, heldSeq := some 0 }), ⟨4, false⟩, 0, 0, natLe 16 (2 ^ 32), by decide +kernel, by decide +kernel, by decide +kernel, by decide +kernel, by decide +kernel, by decide +kernel, by decide +kernel, (fun i h => by rw [← Option.some.inj ((show (((((withTile 4 0).dset (kSource 0) 4).modStream 0 (fun q => { q with force := true, heldSeq := some 0 })).at 0).stream 0).heldSeq = some 0 by decide +kernel).symm.trans h)]; decide +kernel)⟩,
    ⟨S0.dset (kSource 31) 4, ⟨4, false⟩, 31, 0, by decide +kernel⟩,
    ⟨(message 16382 (natLe 16 (2 ^ 32))).dset (kSource 0) 1, 0, 0, natLe 16 (2 ^ 32), by decide +kernel⟩,
    ⟨S0.dset (kSource 0) 4, R0, 0, 0, List.replicate 16 0, by decide +kernel⟩,
    ⟨S0.dset (kSource 0) 3, R0, 0, 1, 0, by decide +kernel⟩,
    ⟨S0, R0, 0, 0, by decide +kernel⟩,
    ⟨withTile 4 0, R0, 0, 0, 0, by decide +kernel⟩⟩

theorem witness_ReadoutsAndOutputsAreDriven :
    (∃ (s : State) (g : Nat) (t : Nat) (n : Nat) (p : Nat) (km : Nat) (flags : Nat) (tl : Tile) (rest : List (Nat × Nat × Nat)), let a := s.at t
      (a.rgroup g).due = (p, km, flags) :: rest ∧ a.groupOf g = some (n, tl)) ∧
    (∃ (s : State) (g : Nat) (t : Nat) (r : Readout) (rest : List Readout), let a := s.at t
      (a.rgroup g).decoded = r :: rest) ∧
    (∃ (s : State) (r : Requester) (mask : Nat) (t : Nat), let a := s.at t
      a.Accepts r kGroupEnable mask) ∧
    (∃ (s : State) (r : Requester) (mask : Nat) (t : Nat), let a := s.at t
      a.Accepts r kGroupDisableNow mask) ∧
    (∃ (s : State) (t : Nat), let a := s.at t
      a.hostSees 0 = true) ∧
    (∃ (s : State) (r : Requester) (w : Nat) (t : Nat), let a := s.at t
      a.Accepts r kOutputEnable w ∧ w < 2) ∧
    (∃ (s : State) (f : Nat) (t : Nat), let a := s.at t
      a.hostSees f = true) :=
  ⟨⟨(withTile 4 32).modGroup 0 (fun q => { q with due := [(5, 1, 0)] }), 0, 0, 0, 5, 1, 0, tile 4 32, [], by decide +kernel⟩,
    ⟨S0.modGroup 0 (fun q => { q with decoded := [{}] }), 0, 0, {}, [], by decide +kernel⟩,
    ⟨S0, R0, 2 ^ 256 - 1, 0, by decide +kernel⟩,
    ⟨S0, R0, 2 ^ 256 - 1, 0, by decide +kernel⟩,
    ⟨seen, 0, by decide +kernel⟩,
    ⟨S0, R0, 1, 0, by decide +kernel⟩,
    ⟨seen, 0, 0, by decide +kernel⟩⟩

theorem witness_QueuesAreMadeAndBound :
    (∃ (s : State) (h : OpHead) (rec : Bytes), let a := s.at h.t
      a.barred h = false ∧ a.createStatus h rec = qOk) ∧
    (∃ (s : State) (h : OpHead), let a := s.at h.t
      let r := a.queue h.object
      a.barred h = false ∧ a.qThere h.object = true ∧ r.state ≠ 0 ∧ r.owner = h.issuer) ∧
    (∃ (s : State) (h : OpHead) (reader : Nat), let a := s.at h.t
      let r := a.queue h.object
      a.barred h = false ∧ a.qThere h.object = true ∧ r.state = 2 ∧ r.owner = h.issuer ∧ epListed reader = true ∧ reader ≠ 0x30 ∧ a.groupStatus (h.object / 16384) { r with reader := reader } = qOk) ∧
    (∃ (s : State) (h : OpHead), let a := s.at h.t
      a.barred h = false ∧ a.qThere h.object = true ∧ (a.queue h.object).state ≠ 0 ∧ (a.queue h.object).reader = h.issuer) ∧
    (∃ (s : State) (h : OpHead) (reader : Nat) (policy : Nat), let a := s.at h.t
      let i := h.object / 256
      let g := h.object % 256
      a.barred h = false ∧ a.slicePresent i = true ∧ epListed reader = true ∧ policy < 2 ∧ ((mget dSel (a.slice i).groups g).reader = h.issuer ∨ ((mget dSel (a.slice i).groups g).reader = 0x30 ∧ reader = h.issuer))) :=
  ⟨⟨granted 0 0 0, op 0, ringRec, by decide +kernel⟩,
    ⟨ringWith id, op 0, by decide +kernel⟩,
    ⟨ringWith (fun r => { r with state := 2 }), op 0, 0x10, by decide +kernel⟩,
    ⟨ringWith id, op 0, by decide +kernel⟩,
    ⟨S0, op 0, 0, 1, by decide +kernel⟩⟩

theorem witness_MessagesAndRoundsMove :
    (∃ (s : State) (h : OpHead) (msg : Bytes), let a := s.at h.t
      let q := h.object
      let r := a.queue q
      a.barred h = false ∧ a.qThere q = true ∧ r.state = 1 ∧ r.kind = 0 ∧ maySend r h.issuer = true ∧ msgOk msg h.rcq = true ∧ a.descsOk msg = true ∧ a.sendWaits q = false ∧ (a.place q (msgStamp msg h.issuer h.rcq h.tag)).1 = .ok) ∧
    (∃ (s : State) (h : OpHead) (msg : Bytes), let a := s.at h.t
      let q := h.object
      let r := a.queue q
      a.barred h = false ∧ a.qThere q = true ∧ r.state = 1 ∧ r.kind = 0 ∧ maySend r h.issuer = true ∧ msgOk msg h.rcq = true ∧ a.descsOk msg = true ∧ a.sendWaits q = false ∧ (a.place q (msgStamp msg h.issuer h.rcq h.tag)).1 = .full) ∧
    (∃ (s : State) (b : State) (h : OpHead) (addr : Nat) (len : Nat), let a := s.at h.t
      let q := h.object
      let r := a.queue q
      a.barred h = false ∧ a.qThere q = true ∧ r.state ≠ 0 ∧ r.kind = 0 ∧ r.reader = h.issuer ∧ a.landing h.issuer addr len = qOk ∧ a.receiveHead h 6 q addr len = some b) ∧
    (∃ (s : State) (h : OpHead) (addr : Nat) (len : Nat), let a := s.at h.t
      let q := h.object
      let r := a.queue q
      a.barred h = false ∧ a.qThere q = true ∧ r.state ≠ 0 ∧ r.kind = 0 ∧ r.reader = h.issuer ∧ a.landing h.issuer addr len = qOk ∧ a.receiveHead h 6 q addr len = none) ∧
    (∃ (s : State) (h : OpHead) (addr : Nat) (len : Nat), let a := s.at h.t
      let q := h.object
      let r := a.queue q
      let n := rhLen (a.ringHdr r r.head)
      a.barred h = false ∧ a.qThere q = true ∧ r.state ≠ 0 ∧ r.kind = 0 ∧ r.reader = h.issuer ∧ a.landing h.issuer addr len = qOk ∧ r.head ≠ r.tail ∧ n ≤ len ∧ a.landBad addr n = none ∧ a.spaceBad r.space (ringAddr r r.head) 8 = false ∧ a.spaceBad r.space (ringAddr r r.head) n = false) ∧
    (∃ (s : State) (h : OpHead) (addr : Nat) (len : Nat), let a := s.at h.t
      let i := h.object / 256
      a.barred h = false ∧ a.slicePresent i = true ∧ (mget dSel (a.slice i).groups (h.object % 256)).reader = h.issuer ∧ a.landing h.issuer addr len = qOk) ∧
    (∃ (s : State) (h : OpHead) (l : List (Nat × BitVec 32)), let a := s.at h.t
      let q := h.object
      let r := a.queue q
      a.barred h = false ∧ a.qThere q = true ∧ r.state = 1 ∧ r.kind ≠ 0 ∧ maySend r h.issuer = true ∧ l ≠ [] ∧ l.length ≤ 256 ∧ a.addBad r l = none) ∧
    (∃ (s : State) (h : OpHead) (addr : Nat) (len : Nat), let a := s.at h.t
      let q := h.object
      let r := a.queue q
      a.barred h = false ∧ a.qThere q = true ∧ r.state ≠ 0 ∧ r.kind ≠ 0 ∧ r.reader = h.issuer ∧ r.expect ≤ r.head ∧ a.landing h.issuer addr len = qOk ∧ 4 * r.maxMsg ≤ len ∧ a.landBad addr (4 * r.maxMsg) = none ∧ a.spaceBad r.space r.base (4 * r.maxMsg) = false) ∧
    (∃ (s : State) (h : OpHead), let a := s.at h.t
      let q := h.object
      let r := a.queue q
      a.barred h = false ∧ a.qThere q = true ∧ r.state ≠ 0 ∧ r.kind ≠ 0 ∧ r.reader = h.issuer ∧ r.head < r.expect) ∧
    (∃ (s : State) (i : Nat) (id : Nat) (t : Nat) (w : Waiter), let a := s.at t
      (a.slice i).waits.find? (fun w => w.id == id && (match w.until_ with | some u => decide (u ≤ a.now) | none => false)) = some w) ∧
    (∃ (s : State) (i : Nat) (t : Nat) (q : Nat) (rec : Bytes), let a := s.at t
      let b := a.modSlice i (fun x => { x with hold := [] })
      (a.slice i).hold = [(q, rec)] ∧ b.takesCompletions q = true ∧ b.sendWaits q = false ∧ (b.place q rec).1 = .ok) :=
  ⟨⟨ringWith id, op 0, note, by decide +kernel⟩,
    ⟨ringWith (fun r => { r with tail := 31 }), op 0, note, by decide +kernel⟩,
    ⟨noted, ((noted.at 0).receiveHead (op 0) 6 0 4096 64).getD noted, op 0, 4096, 64, by decide +kernel⟩,
    ⟨ringWith id, op 0, 4096, 64, by decide +kernel⟩,
    ⟨noted, op 0, 4096, 64, by decide +kernel⟩,
    ⟨S0.modSlice 0 (fun x => { x with groups := mset dSel x.groups 0 { reader := 0 } }), op 0, 4096, 64, by decide +kernel⟩,
    ⟨ringWith (fun r => { r with kind := 1, expect := 1 }), op 0, [(0, 1)], by decide +kernel⟩,
    ⟨ringWith (fun r => { r with kind := 1, expect := 1, head := 1 }), op 0, 4096, 256, by decide +kernel⟩,
    ⟨ringWith (fun r => { r with kind := 1, expect := 1 }), op 0, by decide +kernel⟩,
    ⟨S0.modSlice 0 (fun x => { x with waits := [⟨3, 6, op 0, 0, 0, [], some 0⟩] }), 0, 3, 1, ⟨3, 6, op 0, 0, 0, [], some 0⟩, by decide +kernel⟩,
    ⟨(ringWith id).modSlice 0 (fun x => { x with hold := [(0, note)] }), 0, 0, 0, note, by decide +kernel⟩⟩

theorem witness_SyncObjectsCountAndRelease :
    (∃ (s : State) (h : OpHead) (kind : Nat) (init : Nat), let a := s.at h.t
      let j := h.object
      a.barred h = false ∧ a.yThere j = true ∧ (a.sync j).kind = 0 ∧ a.grant 1 (j / 1024) (j % 1024 / 64) = h.issuer ∧ ((kind = 1 ∧ init < 2 ^ 64) ∨ (kind = 2 ∧ init < 2 ^ 32) ∨ (kind = 3 ∧ 1 ≤ init ∧ init ≤ 4096))) ∧
    (∃ (s : State) (h : OpHead), let a := s.at h.t
      let j := h.object
      a.barred h = false ∧ a.yThere j = true ∧ (a.sync j).kind ≠ 0 ∧ (a.sync j).owner = h.issuer) ∧
    (∃ (s : State) (h : OpHead), let a := s.at h.t
      let j := h.object
      a.barred h = false ∧ a.yThere j = true ∧ (a.sync j).kind = 1) ∧
    (∃ (s : State) (h : OpHead), let a := s.at h.t
      let j := h.object
      a.barred h = false ∧ a.yThere j = true ∧ (a.sync j).kind = 1) ∧
    (∃ (s : State) (h : OpHead), let a := s.at h.t
      let j := h.object
      a.barred h = false ∧ a.yThere j = true ∧ (a.sync j).kind = 1 ∧ (a.sync j).owner = h.issuer) ∧
    (∃ (s : State) (h : OpHead) (target : Nat), let a := s.at h.t
      let j := h.object
      a.barred h = false ∧ a.yThere j = true ∧ (a.sync j).kind = 1 ∧ (target ≤ (a.sync j).value ∨ h.timeout ≠ 0)) ∧
    (∃ (s : State) (h : OpHead) (n : Nat), let a := s.at h.t
      let j := h.object
      let v := (a.sync j).value
      a.barred h = false ∧ a.yThere j = true ∧ (a.sync j).kind = 2 ∧ 0 < n ∧ v + n < 2 ^ 32) ∧
    (∃ (s : State) (h : OpHead) (n : Nat), let a := s.at h.t
      let j := h.object
      a.barred h = false ∧ a.yThere j = true ∧ (a.sync j).kind = 2 ∧ 0 < n ∧ n < 2 ^ 32) ∧
    (∃ (s : State) (h : OpHead), let a := s.at h.t
      let j := h.object
      let y := a.sync j
      a.barred h = false ∧ a.yThere j = true ∧ y.kind = 3 ∧ y.broken = false ∧ (y.parts ≤ y.value + 1 ∨ h.timeout = 0 ∨ (a.slice (j / 1024)).waits.length < 1024)) ∧
    (∃ (s : State) (h : OpHead), let a := s.at h.t
      let j := h.object
      a.barred h = false ∧ a.yThere j = true ∧ (a.sync j).kind = 3 ∧ (a.sync j).owner = h.issuer) ∧
    (∃ (s : State) (h : OpHead), let a := s.at h.t
      let j := h.object
      a.barred h = false ∧ a.yThere j = true ∧ (a.sync j).kind = 3 ∧ (a.sync j).owner = h.issuer) :=
  ⟨⟨granted 1 0 0, op 0, 3, 4096, by decide +kernel, by decide +kernel, by decide +kernel, by decide +kernel, (Or.inr (Or.inr (by decide +kernel)))⟩,
    ⟨synced 1 5 0, op 0, by decide +kernel⟩,
    ⟨synced 1 (2 ^ 64 - 1) 0, op 0, by decide +kernel⟩,
    ⟨synced 1 5 0, op 0, by decide +kernel⟩,
    ⟨synced 1 5 0, op 0, by decide +kernel⟩,
    ⟨synced 1 5 0, op 0, 5, by decide +kernel⟩,
    ⟨synced 2 (2 ^ 32 - 2) 0, op 0, 1, by decide +kernel⟩,
    ⟨synced 2 5 0, op 0, 5, by decide +kernel⟩,
    ⟨synced 3 1 2, op 0, by decide +kernel⟩,
    ⟨synced 3 1 2, op 0, by decide +kernel⟩,
    ⟨synced 3 1 2, op 0, by decide +kernel⟩⟩

theorem witness_MemoryUnitsAreServed :
    (∃ (s : State) (r : Requester) (kind : Nat) (t : Nat) (data : Bytes), let a := s.at t
      let i := a.dget (if kind = 2 then kPageSlice else kGrantSlice)
      let n := grantBlocks kind
      let new := fun b => (data.getD b 0).toNat
      kind < 3 ∧ a.Accepts r (grantEntry kind) 0 ∧ data.length = n ∧ ((∀ b, b < n → epListed (new b) = true)) ∧ a.slicePresent i = true ∧ ((∀ b, b < n → new b = a.grant kind i b ∨ (a.blockFree kind i b = true ∧ (kind = 2 ∨ b + 1 ≠ n))))) ∧
    (∃ (addr : Nat), addr < sramSize / 4) ∧
    (∃ (s : State) (i : Nat) (off : Nat) (t : Nat) (x : Nat), let a := s.at t
      a.subServes i = true ∧ a.poisoned i off = false ∧ a.addrBack i off = some x) ∧
    (∃ (s : State) (i : Nat) (t : Nat), let a := s.at t
      a.subServes i = true) ∧
    (∃ (s : State) (i : Nat) (t : Nat), let a := s.at t
      a.subServes i = true ∧ (a.slice i).trainAt + 200000000 ≤ a.now) ∧
    (∃ (s : State) (i : Nat) (t : Nat), let a := s.at t
      a.subServes i = true ∧ (a.slice i).trainAt + 200000000 ≤ a.now) ∧
    (∃ (s : State) (kind : Nat) (unit : Nat) (t : Nat), let a := s.at t
      let k := kind * 4096 + unit
      a.dget kBgtestEnable ≠ 0 ∧ ((∀ e ∈ a.mem.heldReg, e.1 = kind → e.2.1 ≠ unit)) ∧ ((∀ x, (k, x) ∈ a.mem.bgAt → x + a.dget kBgtestInterval * 1000 ≤ a.now)) ∧ a.testable kind unit = true) ∧
    (∃ (s : State) (h : Nat), h < 2 ∧ s.pow.state ≠ .active) ∧
    (∃ (s : State) (h : Nat), h < 2 ∧ s.pow.state = .standby) ∧
    (∃ (s : State) (r : Requester) (v : Nat) (t : Nat), let a := s.at t
      a.Accepts r kFrameAll v ∧ 4 ≤ v ∧ v ≤ a.frameAllMax ∧ ((∀ n, n < 8 → (a.part n).state = .absent))) ∧
    (∃ (s : State) (r : Requester) (data : Bytes) (t : Nat), let a := s.at t
      let new := fun f => (data.getD f 0).toNat
      a.Accepts r kFrameOwner 0 ∧ data.length = 236 ∧ ((∀ f, f < 236 → new f = a.frameOwner f ∨ (f < a.frameCount ∧ softOwner (a.frameOwner f) = true ∧ softOwner (new f) = true)))) ∧
    (∃ (s : State) (f : Nat) (w : Nat) (t : Nat), let a := s.at t
      let g := a.func f
      a.hostSees f = true ∧ f ≤ 8 ∧ winBase (w % 2 + bits w 31 28 * 2 ^ 28) g.winHi % a.barBytes f = 0) ∧
    (∃ (s : State) (f : Nat) (w : Nat) (t : Nat), let a := s.at t
      let g := a.func f
      a.hostSees f = true ∧ f ≤ 8 ∧ winBase g.winLo (w % 64) % a.barBytes f = 0) ∧
    (∃ (s : State) (r : Requester) (t : Nat), let a := s.at t
      a.Accepts r kConflictClear 1) ∧
    (∃ (s : State) (r : Requester) (t : Nat), let a := s.at t
      a.Accepts r kConflictClear 2) :=
  ⟨⟨S0, R0, 1, 0, List.replicate 15 1 ++ [0x10], by decide +kernel⟩,
    ⟨5, by decide +kernel⟩,
    ⟨S0, 0, 0, 0, ((S0.at 0).addrBack 0 0).getD 0, by decide +kernel⟩,
    ⟨S0, 0, 0, by decide +kernel⟩,
    ⟨S0, 0, 200000000, by decide +kernel⟩,
    ⟨S0, 0, 200000000, by decide +kernel⟩,
    ⟨(inState .created).dset kBgtestEnable 1, 0, 5, 3600000000, by decide +kernel, (fun e h => by cases h), (fun x h => by cases h), by decide +kernel⟩,
    ⟨S0.modPow (fun p => { p with state := .drowse }), 1, by decide +kernel⟩,
    ⟨S0.modPow (fun p => { p with state := .standby }), 1, by decide +kernel⟩,
    ⟨S0, R0, 4, 0, by decide +kernel⟩,
    ⟨S0, R0, (List.range 236).map (fun f => BitVec.ofNat 8 (if f = 0 then 0x10 else S0.frameOwner f)), 0, by decide +kernel⟩,
    ⟨seen, 0, 1, 0, by decide +kernel⟩,
    ⟨seen, 0, 1, 0, by decide +kernel⟩,
    ⟨S0, R0, 0, by decide +kernel⟩,
    ⟨S0, R0, 0, by decide +kernel⟩⟩

theorem witness_Bar2ReachesMemory :
    (∃ (s : State) (f : Nat) (off : Nat) (t : Nat) (data : Bytes), let a := s.at t
      let x := winBase (a.func f).winLo (a.func f).winHi + off
      a.hostSees f = true ∧ f ≤ 8 ∧ 0 < data.length ∧ bit (a.func f).winLo 0 = true ∧ off + data.length ≤ a.barBytes f ∧ a.spaceOk spLp x data.length = true ∧ a.spaceMay f false spLp x data.length = true ∧ a.activeFrame x data.length = false) ∧
    (∃ (s : State) (f : Nat) (off : Nat) (len : Nat) (t : Nat), let a := s.at t
      let x := winBase (a.func f).winLo (a.func f).winHi + off
      a.hostSees f = true ∧ f ≤ 8 ∧ 0 < len ∧ bit (a.func f).winLo 0 = true ∧ off + len ≤ a.barBytes f ∧ a.spaceOk spLp x len = true ∧ a.spaceMay f false spLp x len = true ∧ a.spaceBad spLp x len = false) ∧
    (∃ (s : State) (f : Nat) (len : Nat) (t : Nat), let a := s.at t
      a.hostSees f = true ∧ f ≤ 8 ∧ 0 < len ∧ bit (a.func f).winLo 0 = false) :=
  ⟨⟨(seen.modFunc 0 (fun g => { g with winLo := 1 })), 0, 0, 0, natLe 8 5, by decide +kernel⟩,
    ⟨(seen.modFunc 0 (fun g => { g with winLo := 1 })), 0, 0, 8, 0, by decide +kernel⟩,
    ⟨seen, 0, 8, 0, by decide +kernel⟩⟩

theorem witness_PacketsAreAcknowledgedOrResent :
    (∃ (s : State) (p : Packet) (acc : Acceptance) (t : Nat), let a := (s.at t).fabricDue
      acc ≠ .completes ∧ a.unsent p = true) ∧
    (∃ (s : State) (p : Packet) (acc : Acceptance) (t : Nat), let a := (s.at t).fabricDue
      acc ≠ .completes ∧ a.unsent p = false ∧ (a.noteCopy p).staleGen p.gen = true) ∧
    (∃ (s : State) (c : State) (p : Packet) (e : Trip) (acc : Acceptance) (t : Nat) (spine : Option Nat), let a := (s.at t).fabricDue
      acc ≠ .completes ∧ a.Routed p e c spine ∧ ((∃ x ∈ e.errors, parityShows x = true ∧ x.flit = 0))) ∧
    (∃ (s : State) (c : State) (p : Packet) (e : Trip) (acc : Acceptance) (t : Nat) (spine : Option Nat), let a := (s.at t).fabricDue
      acc ≠ .completes ∧ a.Routed p e c spine ∧ e.errors = [] ∧ ((∃ k ∈ c.pathLinks p spine, k ∈ c.fab.excluded))) ∧
    (∃ (s : State) (c : State) (p : Packet) (e : Trip) (acc : Acceptance) (t : Nat) (spine : Option Nat), let a := (s.at t).fabricDue
      acc ≠ .completes ∧ a.Routed p e c spine ∧ c.PathClear p spine ∧ ((∀ x ∈ e.errors, parityShows x = false)) ∧ isAck p.kind = false ∧ arrives p e.errors = none) ∧
    (∃ (s : State) (c : State) (p : Packet) (q : Packet) (e : Trip) (acc : Acceptance) (t : Nat) (spine : Option Nat) (x : FlitError), let a := (s.at t).fabricDue
      acc ≠ .completes ∧ a.Routed p e c spine ∧ c.PathClear p spine ∧ e.errors = [x] ∧ parityShows x = true ∧ x.flit ≠ 0 ∧ (c.hopError x.hop).PathClear p spine ∧ isAck p.kind = false ∧ arrives p e.errors = some q) ∧
    (∃ (s : State) (c : State) (p : Packet) (e : Trip) (acc : Acceptance) (t : Nat) (spine : Option Nat), let a := (s.at t).fabricDue
      let m := mget dMarks c.fab.recv (c.marksKey p)
      acc ≠ .completes ∧ a.Routed p e c spine ∧ c.PathClear p spine ∧ e.errors = [] ∧ isAck p.kind = false ∧ c.formatOk p = true ∧ ((p.ordered = true → pktNewer p.seq m.expected = false)) ∧ seqNew m p.seq = true ∧ ((p.kind = 0x12 → acc ≠ .later)) ∧ c.resetPort p.dst = false ∧ ((p.kind = 0x21 → c.remoteRoomFor p = true)) ∧ ((edgeHaul p = true → c.edgeRoom p = true))) ∧
    (∃ (s : State) (c : State) (p : Packet) (e : Trip) (acc : Acceptance) (t : Nat) (spine : Option Nat), let a := (s.at t).fabricDue
      let m := mget dMarks c.fab.recv (c.marksKey p)
      acc ≠ .completes ∧ a.Routed p e c spine ∧ c.PathClear p spine ∧ e.errors = [] ∧ isAck p.kind = false ∧ c.formatOk p = true ∧ ((p.ordered = true → pktNewer p.seq m.expected = false)) ∧ seqNew m p.seq = true ∧ ((p.kind = 0x12 → acc ≠ .later)) ∧ c.resetPort p.dst = false ∧ ((p.kind = 0x21 → c.remoteRoomFor p = true)) ∧ ((edgeHaul p = true → c.edgeRoom p = true)) ∧ acceptedAtOnce p acc = true ∧ ((edgeHaul p = true → acc ≠ .later))) ∧
    (∃ (s : State) (p : Packet) (t : Nat), let a := (s.at t).fabricDue
      p.seq ∈ (mget dMarks a.fab.recv (a.marksKey p)).held ∧ ((portType p.dst = 2 → (a.slice (portBits p.dst)).failed = false))) ∧
    (∃ (s : State) (src : Nat) (dst : Nat) (seq : Nat) (t : Nat) (v : Unacked), let a := (s.at t).fabricDue
      a.fab.unacked.find? (a.isCopy src dst seq) = some v) ∧
    (∃ (s : State) (src : Nat) (dst : Nat) (seq : Nat) (reason : Nat) (t : Nat) (v : Unacked), let a := (s.at t).fabricDue
      a.fab.unacked.find? (a.isCopy src dst seq) = some v ∧ reason ≠ 3 ∧ reason ≠ 4 ∧ v.lost = false ∧ v.resends < a.dget kResendLimit) ∧
    (∃ (s : State) (src : Nat) (dst : Nat) (seq : Nat) (t : Nat) (i : Nat) (v : Unacked), let a := (s.at t).fabricDue
      a.fab.unacked.find? (a.isCopy src dst seq) = some v ∧ v.sentAt = some i ∧ i + a.dget kAckTimeout * 1000 ≤ a.now ∧ v.busyAt = none ∧ v.lost = false ∧ v.resends < a.dget kResendLimit) ∧
    (∃ (s : State) (sw : Nat) (link : Nat) (t : Nat), let a := s.at t
      (a.dadd kCreditTimeouts 1).linkOut sw link = false ∧ link < switchPorts sw) :=
  ⟨⟨S0.modFab (fun f => { f with unacked := List.replicate 64 { pkt := pkt } }), pkt, .atOnce, 0, by decide +kernel⟩,
    ⟨S0, { pkt with gen := 1 }, .atOnce, 0, by decide +kernel⟩,
    ⟨S0, (((S0.at 0).fabricDue.noteCopy pkt).tookUplink pkt (.leaf 0) 0), pkt, ⟨[], [], [⟨0, 0, 0, 1, false⟩]⟩, .atOnce, 0, uplinkSpine (.leaf 0) 0, by decide +kernel, (⟨by decide +kernel, by decide +kernel, Or.inr ⟨by decide +kernel, 0, by decide +kernel, rfl, rfl⟩⟩), (⟨⟨0, 0, 0, 1, false⟩, by decide +kernel, by decide +kernel⟩)⟩,
    ⟨blocked, blocked0.tookUplink far (.leaf 0) 0, far, ⟨[], [], []⟩, .atOnce, 0, uplinkSpine (.leaf 0) 0, by decide +kernel, (⟨by decide +kernel, by decide +kernel, Or.inr ⟨by decide +kernel, 0, by decide +kernel, rfl, rfl⟩⟩), by decide +kernel, (⟨spineLink (uplinkSpine (.leaf 0) 0) (.leaf 1), by decide +kernel, by decide +kernel⟩)⟩,
    ⟨S0, (((S0.at 0).fabricDue.noteCopy pkt).tookUplink pkt (.leaf 0) 0), pkt, ⟨[], [], [⟨0, 0, 0, 3, false⟩]⟩, .atOnce, 0, uplinkSpine (.leaf 0) 0, by decide +kernel, (⟨by decide +kernel, by decide +kernel, Or.inr ⟨by decide +kernel, 0, by decide +kernel, rfl, rfl⟩⟩), (by decide +kernel), by decide +kernel, by decide +kernel, by decide +kernel⟩,
    ⟨S0, (((S0.at 0).fabricDue.noteCopy pkt).tookUplink pkt (.leaf 0) 0), pkt, pkt, ⟨[], [], [⟨0, 1, 0, 0, true⟩]⟩, .atOnce, 0, uplinkSpine (.leaf 0) 0, ⟨0, 1, 0, 0, true⟩, by decide +kernel, (⟨by decide +kernel, by decide +kernel, Or.inr ⟨by decide +kernel, 0, by decide +kernel, rfl, rfl⟩⟩), (by decide +kernel), by decide +kernel, by decide +kernel, by decide +kernel, (by decide +kernel), by decide +kernel, by decide +kernel⟩,
    ⟨S0, (((S0.at 0).fabricDue.noteCopy pkt).tookUplink pkt (.leaf 0) 0), pkt, ⟨[], [], []⟩, .atOnce, 0, uplinkSpine (.leaf 0) 0, by decide +kernel, (⟨by decide +kernel, by decide +kernel, Or.inr ⟨by decide +kernel, 0, by decide +kernel, rfl, rfl⟩⟩), (by decide +kernel), by decide +kernel, by decide +kernel, by decide +kernel, by decide +kernel, by decide +kernel, by decide +kernel, by decide +kernel, by decide +kernel, by decide +kernel⟩,
    ⟨S0, (((S0.at 0).fabricDue.noteCopy pkt).tookUplink pkt (.leaf 0) 0), pkt, ⟨[], [], []⟩, .atOnce, 0, uplinkSpine (.leaf 0) 0, by decide +kernel, (⟨by decide +kernel, by decide +kernel, Or.inr ⟨by decide +kernel, 0, by decide +kernel, rfl, rfl⟩⟩), (by decide +kernel), by decide +kernel, by decide +kernel, by decide +kernel, by decide +kernel, by decide +kernel, by decide +kernel, by decide +kernel, by decide +kernel, by decide +kernel, by decide +kernel, by decide +kernel⟩,
    ⟨S0.modMarks (S0.marksKey pkt) (fun m => { m with held := [0] }), pkt, 0, by decide +kernel⟩,
    ⟨copied, 0, 1, 0, 0, { pkt := pkt, sentAt := some 0 }, by decide +kernel⟩,
    ⟨copied, 0, 1, 0, 1, 0, { pkt := pkt, sentAt := some 0 }, by decide +kernel⟩,
    ⟨copied, 0, 1, 0, 1000000000000, 0, { pkt := pkt, sentAt := some 0 }, by decide +kernel⟩,
    ⟨S0, 0, 0, 0, by decide +kernel⟩⟩

theorem witness_RoutesAreRebuilt :
    (∃ (s : State) (r : Requester) (t : Nat), let a := s.at t
      a.Accepts r kRouteCommand 1 ∧ a.dget kRouteState = rsIdle) ∧
    (∃ (s : State) (t : Nat), let a := (s.at t).fabricDue
      a.dget kRouteState = rsSwitching ∧ ((∀ c ∈ a.fab.toSwitch, a.oldSource c = false)) ∧ ((∀ c ∈ a.fab.unitsLeft, a.oldUnits c = false))) ∧
    (∃ (s : State) (i : Nat) (t : Nat), let a := s.at t
      a.dget kRouteState = rsDraining ∧ a.genSwitches.contains i = true ∧ a.fab.doneFrom.contains i = false) ∧
    (∃ (s : State) (n : Nat) (t : Nat), let a := (s.at t).fabricDue
      a.dget kRouteState = rsSwitching ∧ a.fab.commitAt + 10 * a.dget (kPeriod n) * 1000 ≤ a.now) ∧
    (∃ (s : State) (r : Requester) (t : Nat), let a := s.at t
      a.Accepts r kRouteCommand 2) ∧
    (∃ (s : State) (r : Requester) (data : Bytes) (t : Nat), let a := s.at t
      let i := a.sel r kWeightSelect
      let v := fun u => (data.getD u 0).toNat
      a.Accepts r kRouteWeights 0 ∧ a.dget kRouteAdapt ≠ 1 ∧ data.length = 32 ∧ ((∀ u, u < uplinks i → 1 ≤ v u ∧ v u ≤ 15)) ∧ ((∀ u, uplinks i ≤ u → u < 32 → v u = 0))) ∧
    (∃ (s : State) (sw : Nat) (t : Nat), let a := s.at t
      switchPorts sw ≠ 0 ∧ mget dZero a.fab.cmapAt sw + a.dget kCmapInterval * 1000000 ≤ a.now) ∧
    (∃ (h : Nat), h < 2) :=
  ⟨⟨S0, R0, 0, by decide +kernel⟩,
    ⟨S0.dset kRouteState 2, 0, by decide +kernel, (fun c h => by cases h), (fun c h => by cases h)⟩,
    ⟨S0.dset kRouteState 3, 0, 0, by decide +kernel⟩,
    ⟨S0.dset kRouteState 2, 0, 1000000000000, by decide +kernel⟩,
    ⟨S0, R0, 0, by decide +kernel⟩,
    ⟨(asked R0 (fun q => { q with selects := mset dZero q.selects kWeightSelect 192 })).dset kRouteAdapt 0, R0, List.replicate 32 1, 0, by decide +kernel, by decide +kernel, by decide +kernel, by decide +kernel, (fun u h1 h2 => absurd (Nat.lt_of_lt_of_le h2 (Nat.le_trans (Nat.le_of_eq (by decide +kernel)) h1)) (Nat.lt_irrefl u))⟩,
    ⟨S0, 0, 1000000000000, by decide +kernel⟩,
    ⟨1, by decide +kernel⟩⟩

theorem witness_RemoteEventsTravel :
    (∃ (s : State) (e : Nat) (id : Nat) (t : Nat) (h : Haul), let a := s.at t
      mget dNone a.hauls id = some h ∧ h.kind = .remote ∧ h.dst = 2048 + e ∧ a.outRoom e h.remotes.length = true) ∧
    (∃ (s : State) (e : Nat) (n : Nat) (peer : Nat) (t : Nat) (p : Nat) (k : Nat) (r : RemoteRec), let a := s.at t
      let mine := (a.remBuf e n).out.filter (fun r => r.1 == peer && r.2.1 == p)
      (a.remBuf e n).out.find? (fun r => r.1 == peer) = some (k, p, r) ∧ ((a.part n).seq.isOpen = false ∨ (a.part n).seq.pitch ≠ p ∨ 255 ≤ mine.length)) ∧
    (∃ (s : State) (n : Nat) (peer : Nat) (pitch : Nat) (nrec : Nat) (t : Nat), let a := s.at t
      let e := peerEdge (a.peer n peer)
      (peer, pitch, nrec) ∈ (a.remBuf e n).sent ∧ 0 < nrec) ∧
    (∃ (s : State) (m : MessagePath) (t : Nat) (msg : Bytes), let a := (s.at t).messageMarked m msg
      rmFormOk msg = true ∧ a.rmTaken msg = true) ∧
    (∃ (s : State) (m : MessagePath) (t : Nat) (msg : Bytes), let a := (s.at t).messageMarked m msg
      (rmFormOk msg = false ∨ a.rmTaken msg = false)) ∧
    (∃ (s : State) (n : Nat) (t : Nat), let a := s.at t
      (a.part n).seq.everOpen = true ∧ (a.part n).seq.isOpen = false ∧ running (a.part n) = true ∧ a.now + 5000 ≤ (a.part n).seq.belayAt + a.guardNs n) ∧
    (∃ (s : State) (e : Nat) (n : Nat) (t : Nat), let a := s.at t
      (a.part n).seq.everOpen = true ∧ (a.part n).seq.isOpen = false ∧ running (a.part n) = true ∧ a.now + 5000 ≤ (a.part n).seq.belayAt + a.guardNs n ∧ (a.remBuf e n).inb = []) ∧
    (∃ (s : State) (n : Nat) (peer : Nat) (t : Nat) (x : Nat × Nat × Nat), let a := s.at t
      let e := peerEdge (a.peer n peer)
      (a.remBuf e n).sent.find? (fun m => m.1 == peer) = some x) :=
  ⟨⟨{ S0 with hauls := [(3, some ⟨.remote, 0, 2049, [], [], 0, 0⟩)] }, 1, 3, 0, ⟨.remote, 0, 2049, [], [], 0, 0⟩, by decide +kernel⟩,
    ⟨remoteWith (fun b => { b with out := [(0, 4, ⟨evMk 1 1 false 0 0, 0, 0⟩)] }), 1, 0, 0, 0, 4, 0, ⟨evMk 1 1 false 0 0, 0, 0⟩, by decide +kernel⟩,
    ⟨remoteWith (fun b => { b with sent := [(0, 4, 1)] }), 0, 0, 4, 1, 0, by decide +kernel⟩,
    ⟨(run.modPart 0 (fun p => { p with stations := 8 })).dset (kPeer0 0 0) 0x80, ⟨1, false⟩, 0, remote, by decide +kernel⟩,
    ⟨S0, ⟨1, false⟩, 0, [], by decide +kernel⟩,
    ⟨belaying, 0, 0, by decide +kernel⟩,
    ⟨belaying, 1, 0, 0, by decide +kernel⟩,
    ⟨remoteWith (fun b => { b with sent := [(0, 4, 1)] }), 0, 0, 0, (0, 4, 1), by decide +kernel⟩⟩

theorem witness_HostFunctionsAreServed :
    (∃ (s : State) (f : Nat) (t : Nat), let a := s.at t
      f < 9 ∧ (a.func f).present = true) ∧
    (∃ (s : State) (t : Nat), let a := s.reach t
      a.ports.perst = true ∧ a.dead = false) ∧
    (∃ (s : State) (width : Nat) (speed : Nat) (vfs : Nat), s.ports.perst = false ∧ s.iodOn = true ∧ s.funcsUp = true ∧ vfs ≤ 8 ∧ (width = 1 ∨ width = 2 ∨ width = 4) ∧ 1 ≤ speed ∧ speed ≤ 5) ∧
    (∃ (s : State) (f : Nat) (k : Nat) (w : Nat) (t : Nat), let a := s.reach t
      a.hostSees f = true ∧ f ≤ 8 ∧ k < 16 ∧ (a.slot f k).busy = false ∧ (w < 32 ∨ 2080 < w ∨ w % 8 ≠ 0)) ∧
    (∃ (s : State) (f : Nat) (k : Nat) (w : Nat) (t : Nat), let a := s.reach t
      a.hostSees f = true ∧ f ≤ 8 ∧ k < 16 ∧ (a.slot f k).busy = false ∧ 32 ≤ w ∧ w ≤ 2080 ∧ w % 8 = 0) ∧
    (∃ (s : State) (f : Nat) (k : Nat) (status : Nat) (value : Nat) (t : Nat), let a := s.at t
      (a.slot f k).busy = true ∧ (a.slot f k).result = some (status, value)) ∧
    (∃ (s : State) (f : Nat) (k : Nat), s.hostSees f = true ∧ f ≤ 8 ∧ k < 8) ∧
    (∃ (s : State) (f : Nat), s.hostSees f = true ∧ f ≤ 8) ∧
    (∃ (s : State) (f : Nat), s.hostSees f = true ∧ f ≤ 8) ∧
    (∃ (s : State) (f : Nat) (w : Nat) (t : Nat), let a := s.reach t
      a.hostSees f = true ∧ f ≤ 8 ∧ w % 2 ^ 32 ≠ 0) ∧
    (∃ (s : State) (f : Nat) (w : Nat) (t : Nat), let a := s.reach t
      a.hostSees f = true ∧ f ≤ 8 ∧ w % 2 ^ 32 = 0) ∧
    (∃ (s : State) (f : Nat) (t : Nat), let a := s.at t
      (a.func f).armed = true ∧ (a.func f).hbAt + a.dget kHeartbeatTimeout * 1000000 ≤ a.now) :=
  ⟨⟨S0, 0, 0, by decide +kernel⟩,
    ⟨S0, 0, by decide +kernel⟩,
    ⟨(S0.modPorts (fun p => { p with perst := false })), 4, 5, 8, by decide +kernel⟩,
    ⟨seen, 0, 15, 0, 0, by decide +kernel⟩,
    ⟨seen, 0, 15, 2080, 0, by decide +kernel⟩,
    ⟨S0.modOp 0 15 (fun q => { q with busy := true, result := some (3, 4) }), 0, 15, 3, 4, 0, by decide +kernel⟩,
    ⟨seen, 0, 7, by decide +kernel⟩,
    ⟨seen.modFunc 0 (fun g => { g with cause := 5 }), 0, by decide +kernel⟩,
    ⟨seen.modFunc 0 (fun g => { g with cause := 5 }), 0, by decide +kernel⟩,
    ⟨seen, 0, 7, 0, by decide +kernel⟩,
    ⟨seen, 0, 0, 0, by decide +kernel⟩,
    ⟨S0.modFunc 0 (fun g => { g with armed := true }), 0, 1000000000000, by decide +kernel⟩⟩

theorem witness_DataPortsConnectAndWrite :
    (∃ (s : State) (r : Requester) (p : Nat) (t : Nat), let a := s.at t
      p < 2 ∧ a.Accepts r (kPortEnable p) 1 ∧ a.dget (kPortEnable p) = 0) ∧
    (∃ (s : State) (r : Requester) (p : Nat) (t : Nat), let a := s.at t
      p < 2 ∧ a.Accepts r (kPortEnable p) 0 ∧ a.dget (kPortEnable p) = 1) ∧
    (∃ (s : State) (r : Requester) (p : Nat) (v : Nat) (t : Nat), let a := s.at t
      p < 2 ∧ v < 2 ∧ a.Accepts r (kPortEnable p) v ∧ a.dget (kPortEnable p) = v) ∧
    (∃ (s : State) (p : Nat) (fec : Nat) (t : Nat), let a := s.at t
      p < 2 ∧ (a.dataPort p).training = false ∧ ((∃ k, k < 4 ∧ a.subUp p k = true)) ∧ (fec = 0 ∨ 16 < fec)) ∧
    (∃ (s : State) (p : Nat) (fec : Nat) (t : Nat), let a := s.at t
      p < 2 ∧ (a.dataPort p).training = false ∧ ((∃ k, k < 4 ∧ a.subUp p k = true)) ∧ 1 ≤ fec ∧ fec ≤ 16) ∧
    (∃ (s : State) (p : Nat) (service : Nat) (peerId : Nat) (t : Nat), let a := s.at t
      p < 2 ∧ a.portUp p = true ∧ a.cmAccepts p service peerId = true) ∧
    (∃ (s : State) (p : Nat) (service : Nat) (peerId : Nat) (t : Nat), let a := s.at t
      p < 2 ∧ a.portUp p = true ∧ a.cmAccepts p service peerId = false) ∧
    (∃ (s : State) (p : Nat) (qpn : Nat) (c : Conn), p < 2 ∧ s.portUp p = true ∧ mget dNone (s.dataPort p).conns qpn = some c) ∧
    (∃ (s : State) (p : Nat) (qpn : Nat), let v := s.peer ((qpn - 0x010000) / 64) (qpn % 64)
      p < 2 ∧ s.portUp p = true ∧ mget dNone (s.dataPort p).conns qpn = none ∧ 0x010000 ≤ qpn ∧ qpn < 0x010200 ∧ peerValid v = true ∧ peerPort v = p) ∧
    (∃ (s : State) (p : Nat) (m : LoadPath) (rkey : Nat) (addr : Nat) (t : Nat) (data : Bytes), let a := (s.at t).ecnMarked m.ecn p m.qpn
      p < 2 ∧ a.portUp p = true ∧ a.rdmaOk p m.qpn rkey addr data.length = true) ∧
    (∃ (s : State) (p : Nat) (m : LoadPath) (rkey : Nat) (addr : Nat) (t : Nat) (data : Bytes), let a := (s.at t).ecnMarked m.ecn p m.qpn
      p < 2 ∧ a.portUp p = true ∧ a.rdmaOk p m.qpn rkey addr data.length = false) ∧
    (∃ (s : State) (p : Nat) (qpn : Nat), s.connected p qpn = true ∧ qpn ∉ (s.dataPort p).slowed) ∧
    (∃ (s : State) (p : Nat), p < 2 ∧ s.portUp p = true) ∧
    (∃ (s : State) (p : Nat) (k : Nat) (data : Bytes), p < 2 ∧ s.portUp p = true ∧ k < subports (s.dget (kPortMode p)) ∧ k < 4 ∧ s.subUp p k = true ∧ (s.subAddr p k).take 16 = data.take 16) ∧
    (∃ (s : State) (p : Nat) (sub : Nat), let mode := s.dget (kPortMode p)
      p < 2 ∧ s.iodOn = true ∧ sub < subports mode ∧ s.dget (kPortEnable p) ≠ 0 ∧ (s.dataPort p).training = true) :=
  ⟨⟨S0.dset (kPortEnable 0) 0, R0, 0, 0, by decide +kernel⟩,
    ⟨S0.dset (kPortEnable 0) 1, R0, 0, 0, by decide +kernel⟩,
    ⟨S0.dset (kPortEnable 0) 1, R0, 0, 1, 0, by decide +kernel⟩,
    ⟨(S0.modDataPort 0 (fun q => { q with up := [(0, true)] })), 0, 17, 0, by decide +kernel, by decide +kernel, (⟨0, by decide +kernel, by decide +kernel⟩), by decide +kernel⟩,
    ⟨(S0.modDataPort 0 (fun q => { q with up := [(0, true)] })), 0, 16, 0, by decide +kernel, by decide +kernel, (⟨0, by decide +kernel, by decide +kernel⟩), by decide +kernel, by decide +kernel⟩,
    ⟨(S0.modDataPort 0 (fun q => { q with up := [(0, true)] })), 0, 0x030008, 0, 0, by decide +kernel⟩,
    ⟨(S0.modDataPort 0 (fun q => { q with up := [(0, true)] })), 0, 0x030009, 0, 0, by decide +kernel⟩,
    ⟨(S0.modDataPort 0 (fun q => { q with up := [(0, true)], conns := [(9, some ⟨1, 2, false⟩)] })), 0, 9, ⟨1, 2, false⟩, by decide +kernel⟩,
    ⟨(S0.modDataPort 0 (fun q => { q with up := [(0, true)] })).dset (kPeer0 0 0) 0x80, 0, 0x010000, by decide +kernel⟩,
    ⟨((S0.modDataPort 0 (fun q => { q with up := [(0, true)] })).dset (kLoadKeys 0) 5).modMem (fun m => { m with owners := [(0, 8)] }), 0, ⟨0x030000, false⟩, 5, 0, 0, natLe 8 7, by decide +kernel⟩,
    ⟨(S0.modDataPort 0 (fun q => { q with up := [(0, true)] })), 0, ⟨0x030000, false⟩, 5, 0, 0, natLe 8 7, by decide +kernel⟩,
    ⟨(S0.modDataPort 0 (fun q => { q with up := [(0, true)], conns := [(9, some ⟨1, 2, true⟩)] })), 0, 9, by decide +kernel⟩,
    ⟨(S0.modDataPort 0 (fun q => { q with up := [(0, true)] })), 0, by decide +kernel⟩,
    ⟨((S0.modDataPort 0 (fun q => { q with up := [(0, true)] })).dset (kPortMode 0) 0).dset (kSubportAddr 0) 0, 0, 0, List.replicate 16 0, by decide +kernel⟩,
    ⟨(S0.dset (kPortEnable 0) 1).modDataPort 0 (fun q => { q with training := true }), 0, 0, by decide +kernel⟩⟩

theorem witness_FieldAndObjectsAreServed :
    (∃ (s : State) (p : Nat) (dst : Nat) (t : Nat), let a := (s.at t).bridgeDue
      p < 2 ∧ a.fieldUp p = true ∧ a.fieldUp (1 - p) = true ∧ dst ≠ fieldMac p) ∧
    (∃ (s : State) (p : Nat) (t : Nat), let a := s.at t
      p < 2 ∧ a.fieldUp p = true) ∧
    (∃ (s : State) (p : Nat) (t : Nat), let a := s.at t
      p < 2 ∧ a.fieldUp p = false) ∧
    (∃ (s : State) (t : Nat), let a := s.at t
      a.dget kRopeState ≠ 2 ∧ a.ports.checkAt + 3 * a.dget kRopeCheckInterval * 1000 ≤ a.now) ∧
    (∃ (rope : Nat) (present : Nat) (lost : Nat), rope ≤ 1 ∧ present < 2 ^ 64 ∧ lost < 2 ^ 64) ∧
    (∃ (s : State) (t : Nat), let a := s.at t
      a.ports.lastAnn + 100000000 ≤ a.now) ∧
    (∃ (s : State) (mac : Nat) (t : Nat), let a := s.at t
      a.dget kNodeAddress ≠ 0 ∧ ownMac mac = false) ∧
    (∃ (s : State) (r : Requester) (j : Nat) (t : Nat), let a := s.at t
      j < 32 ∧ a.Accepts r (kObjEnable j) 1 ∧ a.objGroups j ≠ [] ∧ a.dget (kObjDest j) ≠ 0 ∧ ((∀ g ∈ a.objGroups j, a.slicePresent (g % 64) = true ∧ a.holder (32 + g) = some (a.dget (kObjPartition j)))) ∧ a.objSize j ≤ a.objLimit j) ∧
    (∃ (s : State) (r : Requester) (j : Nat) (t : Nat), let a := s.at t
      j < 32 ∧ a.Accepts r (kObjEnable j) 0) ∧
    (∃ (s : State) (j : Nat) (t : Nat) (p : Nat), let a := s.at t
      a.objPitch j = some p ∧ a.objSet j = true ∧ a.objMay j = true ∧ running (a.part (a.dget (kObjPartition j))) = true) ∧
    (∃ (s : State) (j : Nat) (t : Nat), let a := s.at t
      a.objSet j = true ∧ a.objMay j = true ∧ running (a.part (a.dget (kObjPartition j))) = false ∧ (a.obj j).lastSent + a.dget (kObjIdlePeriod j) * 1000000 ≤ a.now) :=
  ⟨⟨(S0.dset kF0Link 1).dset kF1Link 1, 0, 2 ^ 48, 0, by decide +kernel, by decide +kernel, by decide +kernel, (mac_end _)⟩,
    ⟨S0.dset kF0Link 1, 0, 0, by decide +kernel⟩,
    ⟨S0.dset kF1Link 0, 1, 0, by decide +kernel⟩,
    ⟨S0.dset kRopeState 0, 1000000000000, by decide +kernel⟩,
    ⟨1, 5, 2, by decide +kernel⟩,
    ⟨S0, 100000000, by decide +kernel⟩,
    ⟨S0.dset kNodeAddress 2, 2 ^ 48, 0, by decide +kernel, (mac_out _ mod_end)⟩,
    ⟨grouped, R0, 0, 0, by decide +kernel⟩,
    ⟨grouped, R0, 0, 0, by decide +kernel⟩,
    ⟨grouped, 0, 0, 5, by decide +kernel⟩,
    ⟨(S0.dset (kObjGroups 0) (2 ^ 128 - 256)).dset (kObjDest 0) 1, 0, 100000000000, by decide +kernel⟩⟩

theorem witness_DictionaryAnswersItsReads :
    (∃ (s : State) (r : Requester) (index : Nat) (sub : Nat) (off : Nat) (maxlen : Nat) (t : Nat), let a := (s.serve t).counted
      let k := entryKey index sub
      let p := a.valueOf r k
      (s.serve t).hears r = true ∧ 1 ≤ maxlen ∧ maxlen ≤ 1024 ∧ a.gate 1 k = true ∧ defined k = true ∧ a.reqReads r k = true ∧ entryAccess k ≠ .wo ∧ a.domainOff k 0 = false ∧ naIndex (k / 256) = none ∧ off ≤ p.1.length) ∧
    (∃ (s : State) (r : Requester) (index : Nat) (sub : Nat) (maxlen : Nat) (t : Nat), let a := (s.serve t).counted
      let k := entryKey index sub
      (s.serve t).hears r = true ∧ 1 ≤ maxlen ∧ maxlen ≤ 1024 ∧ a.gate 1 k = true ∧ defined k = false) ∧
    (∃ (s : State) (r : Requester) (index : Nat) (sub : Nat) (maxlen : Nat) (t : Nat), let a := (s.serve t).counted
      let k := entryKey index sub
      (s.serve t).hears r = true ∧ 1 ≤ maxlen ∧ maxlen ≤ 1024 ∧ a.gate 1 k = true ∧ defined k = true ∧ (a.reqReads r k = false ∨ entryAccess k = .wo)) ∧
    (∃ (s : State) (r : Requester) (index : Nat) (sub : Nat) (off : Nat) (maxlen : Nat) (snap : Nat) (t : Nat) (v : Bytes), let a := (s.serve t).counted
      let k := entryKey index sub
      (s.serve t).hears r = true ∧ 1 ≤ maxlen ∧ maxlen ≤ 1024 ∧ a.gate 1 k = true ∧ defined k = true ∧ a.reqReads r k = true ∧ entryAccess k ≠ .wo ∧ snap ≠ 0 ∧ (a.req r).snapNo = snap ∧ a.now < (a.req r).snapAt + keepNs ∧ snapValue (a.req r) k = some v ∧ off ≤ v.length) ∧
    (∃ (s : State) (r : Requester) (t : Nat), let a := (s.serve t).counted
      (s.serve t).hears r = true ∧ a.gate 1 kPackMask = true ∧ a.reqReads r kPackMask = true ∧ a.domainOff kPackMask 0 = false) ∧
    (∃ (s : State) (r : Requester) (index : Nat) (first : Nat) (t : Nat), let a := (s.serve t).counted
      let k := entryKey index first
      let subs := a.readableSubs r index
      (s.serve t).hears r = true ∧ a.gate 3 k = true ∧ entryNsub index ≠ 0 ∧ subs ≠ [] ∧ naIndex index = none ∧ ((∀ j ∈ subs, entryAccess (entryKey index j) = .wo ∨ a.domainOff (entryKey index j) 0 = false))) ∧
    (∃ (s : State) (r : Requester) (index : Nat) (sub : Nat) (t : Nat) (e : EntryRow), let a := (s.serve t).counted
      let k := entryKey index sub
      (s.serve t).hears r = true ∧ a.gate 4 k = true ∧ entryRow (k / 256) (k % 256) = some e) ∧
    (∃ (s : State) (r : Requester) (index : Nat) (sub : Nat) (t : Nat), let a := (s.serve t).counted
      let k := entryKey index sub
      (s.serve t).hears r = true ∧ a.gate 4 k = true ∧ entryRow (k / 256) (k % 256) = none ∧ (k % 256 ≠ 0 ∨ entryNsub (k / 256) = 0)) ∧
    (∃ (s : State) (r : Requester) (t : Nat) (body : Bytes), let a := s.serve t
      a.hears r = true ∧ body.length ≤ 1024 ∧ a.gate 5 0 = true) :=
  ⟨⟨S0, R0, ix kFrameAll, sx kFrameAll, 1, 1024, 0, by decide +kernel⟩,
    ⟨S0, R0, 0xFFFF, 0, 1, 0, by decide +kernel⟩,
    ⟨S0, R0, ix kConflictClear, sx kConflictClear, 1, 0, by decide +kernel⟩,
    ⟨asked R0 (fun q => { q with snapNo := 1, snapKey := some (ix kFrameAll, some (sx kFrameAll)), snapVal := [4] }), R0, ix kFrameAll, sx kFrameAll, 1, 1024, 1, 0, [4], by decide +kernel⟩,
    ⟨S0, R0, 0, by decide +kernel⟩,
    ⟨S0, R0, 0x1000, 0, 0, by decide +kernel⟩,
    ⟨S0, R0, 0x1000, 1, 0, (entryRow 0x1000 1).get (by decide +kernel), by decide +kernel⟩,
    ⟨S0, R0, 0xFFFF, 0, 0, by decide +kernel⟩,
    ⟨S0, R0, 0, natLe 1024 0, by decide +kernel⟩⟩

theorem witness_DictionaryTakesItsWrites :
    (∃ (s : State) (r : Requester) (index : Nat) (sub : Nat) (t : Nat) (data : Bytes), let a := (s.serve t).counted
      let k := entryKey index sub
      (s.serve t).hears r = true ∧ data.length ≤ 1024 ∧ a.gate 2 k = true ∧ defined k = true) ∧
    (∃ (s : State) (r : Requester) (index : Nat) (sub : Nat) (total : Nat) (t : Nat) (data : Bytes), let a := (s.serve t).counted
      let k := entryKey index sub
      (s.serve t).hears r = true ∧ data.length ≤ 1024 ∧ a.gate 2 k = true ∧ defined k = true ∧ data.length < total ∧ total ≤ asmSize k ∧ ((staged k = true → a.stagingHeld r = false))) ∧
    (∃ (s : State) (r : Requester) (index : Nat) (sub : Nat) (off : Nat) (total : Nat) (t : Nat) (data : Bytes), let a := (s.serve t).counted
      let k := entryKey index sub
      let q := a.req r
      (s.serve t).hears r = true ∧ data.length ≤ 1024 ∧ a.gate 2 k = true ∧ defined k = true ∧ off ≠ 0 ∧ q.asmKey = some k ∧ q.asmTotal = total ∧ q.asmBuf.length = off ∧ a.now < q.asmAt + keepNs ∧ off + data.length < total) ∧
    (∃ (s : State) (r : Requester) (index : Nat) (sub : Nat) (off : Nat) (total : Nat) (t : Nat) (data : Bytes), let a := (s.serve t).counted
      let k := entryKey index sub
      let q := a.req r
      (s.serve t).hears r = true ∧ data.length ≤ 1024 ∧ a.gate 2 k = true ∧ defined k = true ∧ off ≠ 0 ∧ q.asmKey = some k ∧ q.asmTotal = total ∧ q.asmBuf.length = off ∧ a.now < q.asmAt + keepNs ∧ off + data.length = total) ∧
    (∃ (s : State) (r : Requester) (index : Nat) (sub : Nat) (off : Nat) (total : Nat) (t : Nat) (data : Bytes), let a := (s.serve t).counted
      let k := entryKey index sub
      let q := a.req r
      (s.serve t).hears r = true ∧ data.length ≤ 1024 ∧ a.gate 2 k = true ∧ defined k = true ∧ off ≠ 0 ∧ (q.asmKey ≠ some k ∨ q.asmTotal ≠ total ∨ q.asmBuf.length ≠ off ∨ q.asmAt + keepNs ≤ a.now ∨ total < off + data.length)) ∧
    (∃ (s : State) (addr : Nat) (port : Nat) (dst : Nat) (udp : Nat) (t : Nat) (msg : Bytes), let a := s.serve t
      let r := Requester.rope addr port
      let b := a.heardFrom r (fieldAt msg 8 4) dst
      a.hears r = true ∧ udp = a.dget kDictUdpPort ∧ linkLocal addr = true ∧ a.ropeIp dst = true ∧ 2 ≤ msg.length ∧ fieldAt msg 0 1 = 2 ∧ fieldAt msg 4 2 = msg.length ∧ msgDropped msg = false ∧ (b.req r).lastTag = some (fieldAt msg 8 4) ∧ b.now < (b.req r).lastAt + cacheNs ∧ (b.req r).lastRsp ≠ []) ∧
    (∃ (s : State) (addr : Nat) (port : Nat) (dst : Nat) (udp : Nat) (t : Nat) (msg : Bytes), let a := s.serve t
      let r := Requester.rope addr port
      a.hears r = true ∧ udp = a.dget kDictUdpPort ∧ linkLocal addr = true ∧ a.ropeIp dst = true ∧ 2 ≤ msg.length ∧ fieldAt msg 0 1 ≠ 2) ∧
    (∃ (s : State) (addr : Nat) (port : Nat) (dst : Nat) (udp : Nat) (t : Nat) (msg : Bytes), let a := s.serve t
      let r := Requester.rope addr port
      let b := a.heardFrom r (fieldAt msg 8 4) dst
      a.hears r = true ∧ udp = a.dget kDictUdpPort ∧ linkLocal addr = true ∧ a.ropeIp dst = true ∧ 2 ≤ msg.length ∧ fieldAt msg 0 1 = 2 ∧ fieldAt msg 4 2 = msg.length ∧ msgDropped msg = false ∧ ((b.req r).lastTag ≠ some (fieldAt msg 8 4) ∨ (b.req r).lastAt + cacheNs ≤ b.now) ∧ b.ropeCount < 8) ∧
    (∃ (s : State) (addr : Nat) (port : Nat) (dst : Nat) (udp : Nat) (t : Nat), let a := s.serve t
      a.hears (.rope addr port) = true ∧ udp = a.dget kDictUdpPort ∧ (linkLocal addr = false ∨ a.ropeIp dst = false)) ∧
    (∃ (s : State) (udp : Nat) (t : Nat), let a := s.serve t
      udp ≠ a.dget kDictUdpPort) ∧
    (∃ (s : State) (r : Requester) (t : Nat), let a := s.serve t
      (a.req r).snapKey.isSome = true ∧ (a.req r).snapAt + keepNs ≤ a.now) ∧
    (∃ (s : State) (r : Requester) (t : Nat), let a := s.serve t
      (a.req r).asmKey.isSome = true ∧ (a.req r).asmAt + keepNs ≤ a.now) ∧
    (∃ (s : State) (addr : Nat) (port : Nat) (t : Nat), let a := s.serve t
      (a.req (.rope addr port)).lastAt + cacheNs ≤ a.now) :=
  ⟨⟨S0, R0, ix kFrameAll, sx kFrameAll, 0, natLe 1 5, by decide +kernel⟩,
    ⟨S0, R0, ix kFrameAll, sx kFrameAll, 4096, 0, [5], by decide +kernel⟩,
    ⟨asked R0 (fun q => { q with asmKey := some kFrameAll, asmTotal := 3, asmBuf := [4] }), R0, ix kFrameAll, sx kFrameAll, 1, 3, 0, [0], by decide +kernel⟩,
    ⟨asked R0 (fun q => { q with asmKey := some kFrameAll, asmTotal := 2, asmBuf := [4] }), R0, ix kFrameAll, sx kFrameAll, 1, 2, 0, [0], by decide +kernel⟩,
    ⟨asked R0 (fun q => { q with asmKey := some kFrameAll, asmTotal := 2, asmBuf := [4] }), R0, ix kFrameAll, sx kFrameAll, 1, 3, 0, [0], by decide +kernel⟩,
    ⟨asked (.rope (0x3FA * 2 ^ 118 + 3) 9) (fun q => { q with lastTag := some 0, lastRsp := [1] }), (0x3FA * 2 ^ 118 + 3), 9, euiIp (fieldMac 0), S0.dget kDictUdpPort, 0, echo, by decide +kernel, by decide +kernel, by decide +kernel, (by simp [State.ropeIp]), by decide +kernel, by decide +kernel, by decide +kernel, by decide +kernel, by decide +kernel, by decide +kernel, by decide +kernel⟩,
    ⟨S0, (0x3FA * 2 ^ 118 + 3), 9, euiIp (fieldMac 0), S0.dget kDictUdpPort, 0, [1, 0], by decide +kernel, by decide +kernel, by decide +kernel, (by simp [State.ropeIp]), by decide +kernel, by decide +kernel⟩,
    ⟨asked (.rope (0x3FA * 2 ^ 118 + 3) 9) (fun q => { q with lastTag := some 0, lastRsp := [1] }), (0x3FA * 2 ^ 118 + 3), 9, euiIp (fieldMac 0), S0.dget kDictUdpPort, 10000000000, echo, by decide +kernel, by decide +kernel, by decide +kernel, (by simp [State.ropeIp]), by decide +kernel, by decide +kernel, by decide +kernel, by decide +kernel, (Or.inr (by decide +kernel)), by decide +kernel⟩,
    ⟨S0, 3, 9, 0, S0.dget kDictUdpPort, 0, by decide +kernel, by decide +kernel, (Or.inl (by decide +kernel))⟩,
    ⟨S0, 1, 0, by decide +kernel⟩,
    ⟨asked R0 (fun q => { q with snapNo := 1, snapKey := some (ix kFrameAll, some (sx kFrameAll)), snapVal := [4] }), R0, 100000000, by decide +kernel⟩,
    ⟨asked R0 (fun q => { q with asmKey := some kFrameAll, asmTotal := 2, asmBuf := [4] }), R0, 100000000, by decide +kernel⟩,
    ⟨asked Q0 (fun q => { q with lastTag := some 0, lastRsp := [1] }), 3, 9, 10000000000, by decide +kernel⟩⟩

theorem witness_MailboxesLocksAndCopiesAreKept :
    (∃ (s : State) (k : Nat) (w : Nat) (t : Nat), let a := s.serve t
      a.mbxThere k = true ∧ bit w 0 = true ∧ (a.mailbox k).busy = false ∧ (a.mailbox k).orphaned = false) ∧
    (∃ (s : State) (k : Nat) (t : Nat), let a := s.serve t
      k < 32 ∧ (a.mailbox k).busy = true ∧ a.inProgress (.mailbox k) = false ∧ a.hears (.mailbox k) = true) ∧
    (∃ (s : State) (k : Nat) (w : Nat), s.mbxThere k = true ∧ bit w 31 = true) ∧
    (∃ (s : State) (k : Nat), s.mbxThere k = true) ∧
    (∃ (s : State) (r : Requester) (v : Nat) (t : Nat), let a := s.reach t
      a.Accepts r kLockSet v ∧ v < 16) ∧
    (∃ (s : State) (r : Requester) (t : Nat), let a := s.reach t
      a.Accepts r kStoreCommand 1 ∧ a.dget kStoreState ≠ storeWriting) ∧
    (∃ (s : State) (r : Requester) (t : Nat), let a := s.reach t
      a.Accepts r kStoreCommand 2 ∧ a.dget kStoreState ≠ storeWriting) ∧
    (∃ (s : State) (t : Nat) (c : StoreCopy), let a := s.reach t
      a.mem.storeWr = some c ∧ a.dead = false) ∧
    (∃ (s : State) (t : Nat) (c : StoreCopy), let a := s.reach t
      a.mem.storeWr = some c ∧ a.dead = false ∧ ((∀ x, a.currentCopy = some x → x.seq < c.seq))) ∧
    (∃ (s : State) (r : Requester) (index : Nat) (sub : Nat) (t : Nat), let a := s.serve t
      let k := entryKey index sub
      a.hears r = true ∧ a.gate 2 k = true) ∧
    (∃ (s : State) (f : Nat) (o : Nat) (t : Nat), let a := s.serve t
      a.hostSees f = true ∧ f ≤ 8 ∧ 0x30000 ≤ o ∧ o < 0x300C0) :=
  ⟨⟨seen, 0, 1, 0, by decide +kernel⟩,
    ⟨S0.modMailbox 0 (fun m => { m with busy := true, taken := echo }), 0, 0, by decide +kernel⟩,
    ⟨seen, 0, 2 ^ 31, by decide +kernel⟩,
    ⟨seen, 7, by decide +kernel⟩,
    ⟨S0, R0, 15, 0, by decide +kernel⟩,
    ⟨S0, R0, 0, by decide +kernel⟩,
    ⟨S0, R0, 0, by decide +kernel⟩,
    ⟨S0.modMem (fun m => { m with storeWr := some ⟨1, []⟩ }), 0, ⟨1, []⟩, by decide +kernel⟩,
    ⟨S0.modMem (fun m => { m with store1 := some ⟨4, []⟩, storeWr := some ⟨5, []⟩ }), 0, ⟨5, []⟩, by decide +kernel, by decide +kernel, (fun x h => by injection h with h; subst h; decide +kernel)⟩,
    ⟨S0, R0, ix kFrameAll, sx kFrameAll, 0, by decide +kernel⟩,
    ⟨seen, 0, 0x30000, 0, by decide +kernel⟩⟩

theorem witness_ResetsClearTheirScope :
    (∃ (s : State) (r : Requester) (c : Nat) (t : Nat), let a := s.serve t
      a.Accepts r kResetCommand (2 ^ 28 + c) ∧ a.corePresent c = true ∧ running (a.coreP c) = false ∧ a.cmpOn = true ∧ a.liveResets = []) ∧
    (∃ (s : State) (r : Requester) (cl : Nat) (t : Nat), let a := s.serve t
      a.Accepts r kResetCommand (2 ^ 29 + cl) ∧ cl < 128 ∧ a.clCores cl ≠ [] ∧ ((∀ n, a.partOf cl = some n → running (a.part n) = false)) ∧ a.cmpOn = true ∧ a.liveResets = []) ∧
    (∃ (s : State) (r : Requester) (n : Nat) (t : Nat), let a := s.serve t
      a.Accepts r kResetCommand (2 ^ 29 + 2 ^ 28 + n) ∧ n < 8 ∧ (a.part n).state ≠ .absent ∧ a.cmpOn = true ∧ a.liveResets = []) ∧
    (∃ (s : State) (r : Requester) (n : Nat) (t : Nat), let a := s.serve t
      a.Accepts r kResetCommand (2 ^ 29 + 2 ^ 28 + n) ∧ n < 8 ∧ (a.part n).state ≠ .absent ∧ a.cmpOn = true ∧ a.liveResets ≠ [] ∧ a.liveResets.all (a.contains 3 n) = true) ∧
    (∃ (s : State) (r : Requester) (c : Nat) (t : Nat), let a := s.serve t
      a.Accepts r kResetCommand (2 ^ 28 + c) ∧ a.corePresent c = true ∧ running (a.coreP c) = false ∧ a.cmpOn = true ∧ a.liveResets ≠ []) ∧
    (∃ (s : State) (cause : Nat) (t : Nat), let a := s.reach t
      a.dead = false ∧ ((cause = causeCommand ∧ a.floor.resetDue = true) ∨ (cause = causeFirmware ∧ (if a.sec.recovery then a.sec.resetDue else a.rel.mgmtUp) = true))) ∧
    (∃ (s : State) (t : Nat), let a := s.reach t
      a.dead = false ∧ (if a.sec.recovery then a.sec.resetDue else a.rel.mgmtUp) = true ∧ a.currentCopy = none) ∧
    (∃ (s : State) (ns : Nat) (t : Nat), let a := s.at t
      10000 ≤ ns ∧ a.floor.cause = none ∧ a.pow.tripped = false) ∧
    (∃ (ns : Nat), ns < 1000) ∧
    (∃ (s : State) (t : Nat), let a := s.at t
      a.pins.porst = true) :=
  ⟨⟨S0, R0, 0, 0, by decide +kernel⟩,
    ⟨inState .ready, R0, 0, 0, by decide +kernel, by decide +kernel, by decide +kernel, (fun n h => by injection h with h; subst h; decide +kernel), by decide +kernel, by decide +kernel⟩,
    ⟨run, R0, 0, 0, by decide +kernel⟩,
    ⟨run.modFloor (fun f => { f with resets := [(1, 0, 10)] }), R0, 0, 0, by decide +kernel⟩,
    ⟨S0.modFloor (fun f => { f with resets := [(1, 0, 10)] }), R0, 5, 0, by decide +kernel⟩,
    ⟨S0, causeFirmware, 0, by decide +kernel, (Or.inr (by decide +kernel))⟩,
    ⟨S0, 0, by decide +kernel⟩,
    ⟨S0, 10000, 0, by decide +kernel⟩,
    ⟨999, by decide +kernel⟩,
    ⟨S0.modPins (fun p => { p with porst := true }), 0, by decide +kernel⟩⟩

theorem witness_LicencesAreKept :
    (∃ (s : State) (r : Requester) (data : Bytes) (t : Nat) (k : Nat), let a := s.reach t
      let id := fieldAt data 8 4
      a.Accepts r kLicenceInstall 0 ∧ data.length = 30048 ∧ bit (a.dget kLockState) 2 = false ∧ (List.range 32).find? (fun k => (a.licence k).isNone) = some k ∧ ((∀ j x, j < 32 → a.licence j = some x → x.id ≠ id))) ∧
    (∃ (s : State) (r : Requester) (id : Nat) (t : Nat) (k : Nat) (x : Licence), let a := s.reach t
      a.Accepts r kLicenceRemove id ∧ bit (a.dget kLockState) 2 = false ∧ k < 32 ∧ a.licence k = some x ∧ x.id = id ∧ ((∀ j y, j < 32 → a.licence j = some y → y.id = id → j = k))) ∧
    (∃ (s : State) (r : Requester) (id : Nat) (t : Nat), let a := s.reach t
      a.Accepts r kLicenceRemove id ∧ bit (a.dget kLockState) 2 = false ∧ ((∀ j y, j < 32 → a.licence j = some y → y.id ≠ id))) :=
  ⟨⟨S0, R0, zeros, 0, 0, by decide +kernel, (List.length_replicate), by decide +kernel, by decide +kernel, (fun j x hj h => by cases h)⟩,
    ⟨(S0.modFloor (fun f => { f with licences := [(3, some ⟨9, 1, []⟩)] })), R0, 9, 0, 3, ⟨9, 1, []⟩, by decide +kernel, by decide +kernel, by decide +kernel, by decide +kernel, by decide +kernel, (fun j y hj h e => by match j, hj, h with
      | 3, _, _ => rfl
      | 0, _, h => cases h
      | 1, _, h => cases h
      | 2, _, h => cases h
      | j + 4, _, h => cases h)⟩,
    ⟨S0, R0, 9, 0, by decide +kernel, by decide +kernel, (fun j x hj h => by cases h)⟩⟩

theorem witness_PowerStatesAreEnteredAndLeft :
    (∃ (s : State) (w : Nat) (t : Nat), let a := s.reach t
      a.hostSees 0 = true ∧ a.dget kPowerResult ≠ resPending ∧ a.dead = false ∧ a.rel.mgmtUp = true ∧ a.pow.waking = none ∧ bits w 3 0 = powerCode a.pow.state ∧ bits w 3 0 ≤ 3) ∧
    (∃ (s : State) (w : Nat) (t : Nat), let a := s.reach t
      let c := bits w 3 0
      a.dget kPowerResult ≠ resPending ∧ a.dead = false ∧ a.rel.mgmtUp = true ∧ a.pow.waking = none ∧ powerCode a.pow.state < c ∧ c ≤ 3) ∧
    (∃ (s : State) (r : Requester) (c : Nat) (t : Nat), let a := s.reach t
      a.Accepts r kPowerTarget c ∧ c ≤ 3 ∧ a.dget kPowerResult ≠ resPending) ∧
    (∃ (s : State) (p : Nat) (c : Nat) (t : Nat) (e : Entry), let a := s.reach t
      a.Accepts (.mailbox p) kPowerTarget c ∧ c ≤ 3 ∧ a.dget kPowerResult = resPending ∧ a.pow.entry = some e) ∧
    (∃ (s : State) (w : Nat) (t : Nat), let a := s.reach t
      a.dget kPowerResult ≠ resPending ∧ a.dead = false ∧ a.rel.mgmtUp = true ∧ a.pow.waking = none ∧ bits w 3 0 < powerCode a.pow.state ∧ bits w 3 0 ≤ 3) ∧
    (∃ (s : State) (w : Nat) (t : Nat), let a := s.reach t
      a.dget kPowerResult ≠ resPending ∧ a.dead = false ∧ a.rel.mgmtUp = true ∧ 3 < bits w 3 0) ∧
    (∃ (s : State) (t : Nat) (x : PowerState), let a := s.reach t
      a.pow.waking = some x ∧ a.dead = false ∧ a.pow.state ≠ .parked) ∧
    (∃ (s : State) (t : Nat) (x : PowerState), let a := s.reach t
      a.pow.waking = some x ∧ a.dead = false ∧ a.pow.state = .drowse ∧ a.pow.next = none ∧ (x ≠ .active ∨ a.pow.deferred = [])) ∧
    (∃ (s : State) (t : Nat) (x : PowerState), let a := s.reach t
      a.pow.waking = some x ∧ a.dead = false ∧ a.pow.state = .parked) ∧
    (∃ (s : State) (pin : Nat) (t : Nat), let a := s.reach t
      pin < 8 ∧ a.dead = false) ∧
    (∃ (s : State) (r : Requester) (h : Nat) (v : Nat) (t : Nat), let a := s.reach t
      h < 2 ∧ a.Accepts r (kProfReq h) v ∧ v < 2) ∧
    (∃ (s : State) (h : Nat) (t : Nat) (q : Nat × Nat), let a := s.at t
      (a.half h).pendProf = some q ∧ h < 2 ∧ a.rel.mgmtUp = true ∧ q.2 + a.dget kProfileWait * 1000000 ≤ a.now) ∧
    (∃ (s : State) (h : Nat) (t : Nat) (q : Nat × Nat), let a := s.at t
      (a.half h).pendProf = some q ∧ h < 2 ∧ a.rel.mgmtUp = true ∧ ((∀ n ∈ a.halfParts h, (a.part n).seq.isOpen = false))) ∧
    (∃ (s : State) (r : Requester) (h : Nat) (v : Nat) (t : Nat), let a := s.reach t
      h < 2 ∧ a.Accepts r (kClockReq h) v ∧ 500 ≤ v ∧ v ≤ 2000 ∧ v % 250 = 0) :=
  ⟨⟨seen, 0, 0, by decide +kernel⟩,
    ⟨seen, 3, 0, by decide +kernel⟩,
    ⟨S0, R0, 3, 0, by decide +kernel⟩,
    ⟨(powered (fun p => { p with entry := some ⟨.standby, [], 10, none, false⟩ })).dset kPowerResult resPending, 0, 0, 0, ⟨.standby, [], 10, none, false⟩, by decide +kernel⟩,
    ⟨seen.modPow (fun p => { p with state := .drowse }), 0, 0, by decide +kernel⟩,
    ⟨seen, 4, 0, by decide +kernel⟩,
    ⟨powered (fun p => { p with state := .drowse, waking := some .active }), 0, .active, by decide +kernel⟩,
    ⟨powered (fun p => { p with state := .drowse, waking := some .active }), 0, .active, by decide +kernel, by decide +kernel, by decide +kernel, by decide +kernel, (Or.inr (by decide +kernel))⟩,
    ⟨powered (fun p => { p with state := .parked, waking := some .drowse }), 0, .drowse, by decide +kernel⟩,
    ⟨S0, 7, 0, by decide +kernel⟩,
    ⟨S0, R0, 1, 1, 0, by decide +kernel⟩,
    ⟨S0.modHalf 1 (fun x => { x with pendProf := some (0, 0) }), 1, 100000000000, (0, 0), by decide +kernel⟩,
    ⟨S0.modHalf 1 (fun x => { x with pendProf := some (0, 0) }), 1, 0, (0, 0), by decide +kernel⟩,
    ⟨S0, R0, 1, 500, 0, by decide +kernel⟩⟩

theorem witness_LimitsAndTripsAct :
    (∃ (s : State) (h : Nat) (t : Nat), let a := s.at t
      h < 2 ∧ a.answers = true) ∧
    (∃ (s : State) (t : Nat), let a := s.at t
      a.dead = false ∧ a.pow.west.limitBase.isSome = true) ∧
    (∃ (s : State) (t : Nat), let a := s.at t
      a.dead = false ∧ a.pow.west.limitBase = none) ∧
    (∃ (s : State) (h : Nat) (t : Nat), let a := s.at t
      h < 2 ∧ a.dead = false) ∧
    (∃ (s : State) (dom : Nat) (t : Nat) (temp : BitVec 32), let a := s.at t
      dom < 3 ∧ a.dead = false ∧ below 1 temp (a.dget kThrottleTemp) = false) ∧
    (∃ (s : State) (p : BitVec 32) (us : Nat) (t : Nat), let a := s.at t
      a.dead = false ∧ 10000 ≤ us ∧ below 10 p (9 * a.limitW) = true) ∧
    (∃ (s : State) (h : Nat) (t : Nat) (i : Nat), let a := s.at t
      a.dead = false ∧ h < 2 ∧ (a.half h).currentAt = some i ∧ i + 1000000 ≤ a.now) ∧
    (∃ (s : State) (d : Nat) (us : Nat) (t : Nat) (temp : BitVec 32), let a := s.at t
      a.dead = false ∧ d < 3 ∧ 10000 ≤ us ∧ below 1 temp ((a.dget kThrottleTemp : Int) - 5) = true) ∧
    (∃ (s : State) (t : Nat) (temp : BitVec 32), let a := s.at t
      a.dead = false ∧ below 1 temp 110 = false) :=
  ⟨⟨S0, 1, 0, by decide +kernel⟩,
    ⟨S0.modHalf 0 (fun x => { x with limitBase := some 700 }), 0, by decide +kernel⟩,
    ⟨S0, 0, by decide +kernel⟩,
    ⟨S0, 1, 0, by decide +kernel⟩,
    ⟨S0, 2, 0, 0x43480000, by decide +kernel⟩,
    ⟨S0, 0, 10000, 0, by decide +kernel⟩,
    ⟨S0.modHalf 1 (fun x => { x with currentAt := some 0 }), 1, 1000000, 0, by decide +kernel⟩,
    ⟨S0, 2, 10000, 0, 0, by decide +kernel⟩,
    ⟨S0, 0, 0x42DC0000, by decide +kernel⟩⟩

theorem witness_CoolantIsWatched :
    (∃ (s : State) (src : CoolantEvent) (t : Nat), let a := s.reach t
      a.dead = false ∧ ((match src with | .gpio => ∃ d, a.pinFor true = some d ∧ 10000000 ≤ d | .rise rate change => above rate (a.dget kRiseRateLimit) = true ∧ above (fabs change) 10 = false | src => eventSource src ∈ a.pow.coolSrc))) ∧
    (∃ (s : State) (rate : BitVec 32) (change : BitVec 32) (t : Nat), let a := s.reach t
      (above rate (a.dget kRiseRateLimit) = false ∨ above (fabs change) 10 = true)) ∧
    (∃ (s : State) (rate : BitVec 32) (change : BitVec 32) (t : Nat), let a := s.reach t
      a.dead = false ∧ above rate (a.dget kRiseRateLimit) = true ∧ above (fabs change) 10 = false ∧ a.flag 4 = true) ∧
    (∃ (s : State) (rate : BitVec 32) (change : BitVec 32) (t : Nat), let a := s.reach t
      a.dead = false ∧ above rate (a.dget kRiseRateLimit) = true ∧ above (fabs change) 10 = false ∧ a.flag 4 = false) ∧
    (∃ (s : State) (t : CoolantCalm), let a := s.reach t.t
      a.flag 4 = true ∧ a.reportLoss = false ∧ ((∀ i, a.pow.coolClear = some i → i + 10000000000 ≤ a.now)) ∧ a.pinFor true = none ∧ ((.gpio ∈ a.pow.coolSrc → 8 ≤ a.dget kCoolantOkGpio ∨ ∃ d, a.pinFor false = some d ∧ 10000000000 ≤ d)) ∧ ((.rise ∈ a.pow.coolSrc → 10000 ≤ t.ms ∧ below 2 t.rate (a.dget kRiseRateLimit) = true)) ∧ a.dead = false) ∧
    (∃ (s : State) (r : Requester) (flow : Nat) (inlet : Nat) (t : Nat), let a := s.reach t
      a.Accepts r kCoolantReport 0 ∧ flow < 2 ^ 32 ∧ inlet < 2 ^ 32) ∧
    (∃ (s : State) (t : Nat), let a := s.reach t
      a.dead = false ∧ a.dget kCoolantReportTimeout ≠ 0 ∧ a.pow.reportAt + a.dget kCoolantReportTimeout * 1000000 ≤ a.now) :=
  ⟨⟨S0, .rise 0x461C4000 0, 0, by decide +kernel, (⟨by decide +kernel, by decide +kernel⟩)⟩,
    ⟨S0, 0, 0, 0, (Or.inl (by decide +kernel))⟩,
    ⟨(S0.dset kEmergencyFlags 16), 0x461C4000, 0, 0, by decide +kernel⟩,
    ⟨S0, 0x461C4000, 0, 0, by decide +kernel⟩,
    ⟨coolant, calm, by decide +kernel, by decide +kernel, (none_holds (fun i => i + 10000000000 ≤ (coolant.reach calm.t).now) coolant_clear), by decide +kernel, (nil_holds coolant_src), (nil_holds coolant_src), by decide +kernel⟩,
    ⟨S0, R0, 5, 20, 0, by decide +kernel⟩,
    ⟨S0.dset kCoolantReportTimeout 1, 1000000, by decide +kernel⟩⟩

theorem witness_FaultsAreReportedAndAcknowledged :
    (∃ (rep : FaultReport), rep.code ≠ 0x0701) ∧
    (∃ (rep : FaultReport), rep.code = 0x0201) ∧
    (∃ (s : State) (r : Requester) (v : Nat) (t : Nat), let a := s.at t
      a.Accepts r kFaultAck v ∧ a.dget kFaultSeq < v) ∧
    (∃ (s : State) (r : Requester) (v : Nat) (t : Nat), let a := s.at t
      a.Accepts r kFaultAck v ∧ v ≤ a.dget kFaultSeq) ∧
    (∃ (s : State) (cl : Nat) (t : Nat), let a := s.at t
      (a.cluster cl).restarting = none) ∧
    (∃ (s : State) (t : Nat), let a := s.at t
      a.rel.mgmtUp = true) ∧
    (∃ (s : State) (t : Nat), let a := s.at t
      a.rel.mgmtUp = false ∧ a.dead = false) ∧
    (∃ (s : State) (t : Nat), let a := s.at t
      a.rel.mgmtUp = false ∧ a.dead = false ∧ a.rel.withheld = []) :=
  ⟨⟨faultOf 0x0303, by decide +kernel⟩,
    ⟨faultOf 0x0201, by decide +kernel⟩,
    ⟨S0, R0, 1, 0, by decide +kernel⟩,
    ⟨S0.dset kFaultSeq 3, R0, 3, 0, by decide +kernel⟩,
    ⟨S0, 127, 0, by decide +kernel⟩,
    ⟨S0, 0, by decide +kernel⟩,
    ⟨S0.modRel (fun r => { r with mgmtUp := false, withheld := [faultOf 0x0303] }), 0, by decide +kernel⟩,
    ⟨S0.modRel (fun r => { r with mgmtUp := false }), 0, by decide +kernel⟩⟩

theorem witness_SparesTakeOver :
    (∃ (s : State) (c : Nat) (t : Nat) (x : CatchUp), let a := s.at t
      (a.core c).catchUp = some x ∧ a.takeoverReady c = true ∧ x.cold = false) ∧
    (∃ (s : State) (c : Nat) (t : Nat) (p : Nat) (x : CatchUp), let a := s.at t
      (a.core c).catchUp = some x ∧ (a.core c).mode = .excused ∧ x.cold = false ∧ a.nextReplay c x.next = some p) ∧
    (∃ (s : State) (c : Nat) (t : Nat) (x : CatchUp), let a := s.at t
      (a.core c).catchUp = some x ∧ (a.core c).mode = .excused ∧ x.cold = false ∧ a.nextReplay c x.next = none) ∧
    (∃ (s : State) (c : Nat) (t : Nat) (x : CatchUp), let a := s.at t
      (a.core c).catchUp = some x ∧ a.takeoverReady c = true ∧ x.cold = true) ∧
    (∃ (s : State) (c : Nat) (k : Nat), (s.core c).cairn.writing = some k ∧ (s.core c).mode = .live) ∧
    (∃ (s : State) (i : Nat) (t : Nat), let a := s.at t
      a.slicePresent i = true ∧ (a.slice i).failed = true) ∧
    (∃ (s : State) (cl : Nat) (t : Nat) (p : Nat) (old : List LdsRec), let a := s.at t
      (a.cluster cl).rebuild = some (old, p)) ∧
    (∃ (s : State) (r : Requester) (c : Nat) (t : Nat), let a := s.at t
      a.Accepts r kTestCommand (2 ^ 28 + c) ∧ a.corePresent c = true ∧ (a.spareOf (clusterOf c)).isSome = true ∧ a.takeoverBusy (clusterOf c) = false) ∧
    (∃ (s : State) (r : Requester) (c : Nat) (t : Nat), let a := s.at t
      a.Accepts r kTestCommand (2 ^ 28 + c) ∧ a.corePresent c = false) ∧
    (∃ (s : State) (r : Requester) (c : Nat) (t : Nat), let a := s.at t
      a.Accepts r kTestCommand (2 ^ 28 + c) ∧ a.corePresent c = true ∧ ((a.spareOf (clusterOf c) = none ∨ a.takeoverBusy (clusterOf c) = true))) ∧
    (∃ (s : State) (c : Nat) (slot : Nat) (t : Nat), let a := s.at t
      a.rel.testCore.find? (fun e => e.1 == c) = some (c, slot)) ∧
    (∃ (s : State) (c : Nat) (slot : Nat) (t : Nat), let a := s.at t
      a.rel.testCore.find? (fun e => e.1 == c) = some (c, slot)) :=
  ⟨⟨failed ⟨0, 0, 0, [], 0, 16, false, true⟩, 0, 0, ⟨0, 0, 0, [], 0, 16, false, true⟩, by decide +kernel⟩,
    ⟨(replaying ⟨0, 0, 0, [], 0, 16, false, false⟩).modCluster 0 (fun q => { q with journal := [(4, [])] }), 0, 0, 4, ⟨0, 0, 0, [], 0, 16, false, false⟩, by decide +kernel⟩,
    ⟨replaying ⟨0, 0, 0, [], 0, 16, false, false⟩, 0, 0, ⟨0, 0, 0, [], 0, 16, false, false⟩, by decide +kernel⟩,
    ⟨failed ⟨0, 0, 0, [], 0, 16, true, true⟩, 0, 0, ⟨0, 0, 0, [], 0, 16, true, true⟩, by decide +kernel⟩,
    ⟨S0.modCore 5 (fun k => { k with cairn := { k.cairn with writing := some 8 } }), 5, 8, by decide +kernel⟩,
    ⟨S0.modSlice 63 (fun x => { x with failed := true }), 63, 0, by decide +kernel⟩,
    ⟨run.modCluster 0 (fun q => { q with rebuild := some ([], 5) }), 0, 0, 5, [], by decide +kernel⟩,
    ⟨S0, R0, 2047, 0, by decide +kernel⟩,
    ⟨S0, R0, 2048, 0, by decide +kernel⟩,
    ⟨S0.modCore 2047 (fun k => { k with mode := .failed }), R0, 2047, 0, by decide +kernel, by decide +kernel, (Or.inr (by decide +kernel))⟩,
    ⟨S0.modRel (fun r => { r with testCore := [(3, 2)] }), 3, 2, 0, by decide +kernel⟩,
    ⟨S0.modRel (fun r => { r with testCore := [(3, 2)] }), 3, 2, 0, by decide +kernel⟩⟩

theorem witness_FirmwareIsUpdated :
    (∃ (s : State) (r : Requester) (t : Nat), let a := (s.reach t).svnTick
      let x := a.dget kFwStageAddr
      let n := a.dget kFwStageLength
      a.Accepts r kFwCommand 1 ∧ a.bootLocked = false ∧ a.stageBusy false = false ∧ a.memOn = true ∧ 30080 ≤ n ∧ x % 32 = 0 ∧ (framesOf x n).all (fun f => softOwner (a.frameOwner f) && a.frameOwner f != 0xFF) = true ∧ a.spaceOk spLp x n = true) ∧
    (∃ (s : State) (r : Requester) (data : Bytes) (t : Nat), let a := (s.reach t).svnTick
      a.Accepts r kFwChunk 0 ∧ 9 ≤ data.length ∧ data.length ≤ 1024 ∧ a.bootLocked = false ∧ a.stageBusy true = false ∧ fieldAt data 0 4 = 0 ∧ data.length - 8 ≤ fieldAt data 4 4) ∧
    (∃ (s : State) (r : Requester) (data : Bytes) (d0 : Bytes) (t : Nat), let a := (s.reach t).svnTick
      a.Accepts r kFwChunk 0 ∧ 9 ≤ data.length ∧ data.length ≤ 1024 ∧ a.bootLocked = false ∧ a.stageBusy true = false ∧ fieldAt data 0 4 ≠ 0 ∧ a.sec.chunks = some (fieldAt data 4 4, d0) ∧ d0.length = fieldAt data 0 4 ∧ d0.length + (data.length - 8) ≤ fieldAt data 4 4) ∧
    (∃ (s : State) (r : Requester) (data : Bytes) (t : Nat), let a := (s.reach t).svnTick
      a.Accepts r kFwChunk 0 ∧ 9 ≤ data.length ∧ data.length ≤ 1024 ∧ a.bootLocked = false ∧ a.stageBusy true = false ∧ fieldAt data 0 4 ≠ 0 ∧ ((∀ d0, a.sec.chunks = some (fieldAt data 4 4, d0) → d0.length ≠ fieldAt data 0 4 ∨ fieldAt data 4 4 < d0.length + (data.length - 8)))) ∧
    (∃ (s : State) (t : Nat) (b : Bytes), let a := (s.reach t).svnTick
      ((a.sec.copying = some b ∧ a.dget kFwState = 1) ∨ (a.sec.copying = none ∧ a.dget kFwState = 2 ∧ ∃ n, a.sec.chunks = some (n, b)))) ∧
    (∃ (s : State) (r : Requester) (t : Nat), let a := s.reach t
      a.Accepts r kFwCommand 2 ∧ a.dget kFwState = 3) ∧
    (∃ (s : State) (t : Nat), let a := (s.reach t).svnTick
      a.dget kFwState = 5 ∧ a.activationWait = 0 ∧ a.answers = true) ∧
    (∃ (s : State) (r : Requester) (t : Nat), let a := s.reach t
      a.Accepts r kFwCommand 3 ∧ a.dget kFwState = 5) ∧
    (∃ (s : State) (r : Requester) (t : Nat), let a := s.reach t
      a.Accepts r kFwCommand 4 ∧ a.onTrial = true) ∧
    (∃ (s : State) (r : Requester) (t : Nat), let a := s.reach t
      a.Accepts r kFwCommand 5 ∧ a.onTrial = true) ∧
    (∃ (s : State) (r : Requester) (t : Nat), let a := s.reach t
      a.Accepts r kFwCommand 6 ∧ a.bootMode = 0 ∧ a.sec.running = 0) :=
  ⟨⟨((S0.dset kFwStageAddr 0).dset kFwStageLength 30080).modMem (fun m => { m with owners := [(0, 0x10)] }), R0, 0, by decide +kernel⟩,
    ⟨S0, R0, natLe 12 (2 ^ 32 * 40000), 0, by decide +kernel⟩,
    ⟨S0.modSec (fun x => { x with chunks := some (6, [1, 2]) }), R0, natLe 12 (6 * 2 ^ 32 + 2), [1, 2], 0, by decide +kernel⟩,
    ⟨S0, R0, natLe 12 (6 * 2 ^ 32 + 2), 0, by decide +kernel, by decide +kernel, by decide +kernel, by decide +kernel, by decide +kernel, by decide +kernel, (fun d0 h => by have k : (none : Option (Nat × Bytes)) = some _ := h; cases k)⟩,
    ⟨(S0.dset kFwState 2).modSec (fun x => { x with chunks := some (1, [7]) }), 0, [7], (Or.inr ⟨by decide +kernel, by decide +kernel, 1, by decide +kernel⟩)⟩,
    ⟨S0.dset kFwState 3, R0, 0, by decide +kernel⟩,
    ⟨S0.dset kFwState 5, 0, by decide +kernel⟩,
    ⟨S0.dset kFwState 5, R0, 0, by decide +kernel⟩,
    ⟨S0.modSec (fun x => { x with running := 1, boot0 := some (1, 3) }), R0, 0, by decide +kernel⟩,
    ⟨S0.modSec (fun x => { x with running := 1, boot0 := some (1, 3) }), R0, 0, by decide +kernel⟩,
    ⟨S0, R0, 0, by decide +kernel⟩⟩

theorem witness_QuotesAndTokensAreTaken :
    (∃ (s : State) (r : Requester) (t : Nat), let a := (s.reach t).svnTick
      a.Accepts r kAttestCommand 1 ∧ a.dget kAttestState ≠ 1) ∧
    (∃ (s : State) (t : Nat), let a := s.reach t
      a.dget kAttestState = 1 ∧ a.answers = true) ∧
    (∃ (s : State) (r : Requester) (data : Bytes) (t : Nat), let a := s.reach t
      a.Accepts r kDebugToken 0 ∧ data.length = 30048 ∧ bit (a.dget kLockState) 1 = true) ∧
    (∃ (s : State) (r : Requester) (data : Bytes) (t : Nat), let a := s.reach t
      a.Accepts r kDebugToken 0 ∧ data.length = 30048 ∧ bit (a.dget kLockState) 1 = false) ∧
    (∃ (s : State) (r : Requester) (v : Nat) (t : Nat), let a := s.reach t
      a.Accepts r kJtagMode v ∧ v < 2) :=
  ⟨⟨S0, R0, 0, by decide +kernel⟩,
    ⟨S0.dset kAttestState 1, 0, by decide +kernel⟩,
    ⟨S0.dset kLockState 2, R0, zeros, 0, by decide +kernel, (List.length_replicate), by decide +kernel⟩,
    ⟨S0, R0, zeros, 0, by decide +kernel, (List.length_replicate), by decide +kernel⟩,
    ⟨S0, R0, 1, 0, by decide +kernel⟩⟩

theorem witness_SuppliesAndSmbusAct :
    (∃ (s : State) (x : Nat) (t : Nat), let a := s.reach t
      x < 10 ∧ a.dead = false) ∧
    (∃ (s : State) (x : Nat) (t : Nat), let a := s.reach t
      a.dead = false ∧ ((x = 0 → a.pow.vinLow = false ∧ ∀ i, a.pow.vinBack = some i → i + 9000000 ≤ a.now))) ∧
    (∃ (s : State) (t : Nat), let a := s.reach t
      a.dead = false ∧ a.pow.vinLow = true ∧ a.pow.vinBack = none) ∧
    (∃ (s : State) (t : Nat), let a := s.reach t
      a.dead = false) ∧
    (∃ (s : State) (t : Nat), let a := s.reach t
      a.dead = false) ∧
    (∃ (s : State) (code : Nat) (t : Nat) (v : Nat), let a := s.reach t
      a.pins.porst = false ∧ a.smbReg code = some v) ∧
    (∃ (s : State) (code : Nat) (t : Nat), let a := s.reach t
      a.pins.porst = false ∧ a.smbReg code = none) ∧
    (∃ (s : State) (t : Nat) (data : Bytes) (pec : Option Byte), let a := s.reach t
      a.pins.porst = false ∧ data.length = 4 ∧ ((∀ p, pec = some p → p = crc8 (natLe 1 (2 * a.smbOwn) ++ natLe 1 0x23 ++ natLe 1 4 ++ data)))) ∧
    (∃ (s : State) (code : Nat) (count : Nat) (t : Nat), let a := s.reach t
      a.pins.porst = false ∧ (code ≠ 0x23 ∨ count ≠ 4)) ∧
    (∃ (s : State) (t : Nat), let a := s.reach t
      a.pins.porst = false) ∧
    (∃ (s : State) (t : Nat), let a := s.reach t
      a.pins.smbAlert = true ∧ a.pins.porst = false) :=
  ⟨⟨S0, 9, 0, by decide +kernel⟩,
    ⟨powered (fun p => { p with supplies := [0], vinBack := some 0 }), 0, 9000000, by decide +kernel, (fun _ => ⟨by decide +kernel, fun i h => by injection h with h; subst h; decide +kernel⟩)⟩,
    ⟨powered (fun p => { p with supplies := [0], vinLow := true }), 0, by decide +kernel⟩,
    ⟨S0, 0, by decide +kernel⟩,
    ⟨S0, 0, by decide +kernel⟩,
    ⟨S0, 0x20, 0, S0.estopReg, by decide +kernel⟩,
    ⟨S0, 0x22, 0, by decide +kernel⟩,
    ⟨S0, 0, natLe 4 1, none, by decide +kernel, by decide +kernel, (fun p h => by cases h)⟩,
    ⟨S0, 0x23, 5, 0, by decide +kernel⟩,
    ⟨S0, 0, by decide +kernel⟩,
    ⟨S0.modPins (fun p => { p with smbAlert := true }), 0, by decide +kernel⟩⟩

theorem witness_UnboundSourcesAreRefused :
    (∃ (n : Nat), n < 8) ∧
    (∃ (s : State) (r : Requester) (n : Nat) (t : Nat), let a := s.at t
      a.Accepts r (kPartitionCommand n) 3 ∧ a.pow.state = .active ∧ a.pow.entry = none ∧ a.dget (kCadenceSource n) = 0) :=
  ⟨⟨7, by decide +kernel⟩,
    ⟨inState .ready, R0, 0, 0, by decide +kernel⟩⟩

theorem witness_GuardStaysInItsRange :
    (∃ (n : Nat), n < 8) ∧
    (∃ (s : State) (r : Requester) (n : Nat) (v : Nat) (t : Nat), let a := s.serve t
      n < 8 ∧ a.Accepts r (kGuard n) v ∧ v < 2 ^ 32 ∧ (v < 20 ∨ a.dget (kPeriod n) < 4 * v ∨ a.dget (kPeriod n) < a.dget (kSlackTarget n) + v)) ∧
    (∃ (s : State) (r : Requester) (n : Nat) (v : Nat) (t : Nat), let a := s.serve t
      n < 8 ∧ a.Accepts r (kPeriod n) v ∧ v < 2 ^ 32 ∧ running (a.part n) = false ∧ (v < 4 * a.dget (kGuard n) ∨ v < a.dget (kStretchLimit n) ∨ v < a.dget (kSlackTarget n) + a.dget (kGuard n))) ∧
    (∃ (s : State) (r : Requester) (n : Nat) (v : Nat) (t : Nat), let a := s.serve t
      n < 8 ∧ a.Accepts r (kGuard n) v ∧ 20 ≤ v ∧ v ≤ 2500 ∧ 4 * v ≤ a.dget (kPeriod n) ∧ a.dget (kStretchLimit n) ≤ a.dget (kPeriod n) ∧ a.dget (kSlackTarget n) + v ≤ a.dget (kPeriod n)) :=
  ⟨⟨7, by decide +kernel⟩,
    ⟨S0, R0, 7, 19, 0, by decide +kernel⟩,
    ⟨S0, R0, 7, 159, 0, by decide +kernel⟩,
    ⟨S0, R0, 7, 20, 0, by decide +kernel⟩⟩

theorem witness_RefractoryNeuronsSpikeOnce :
    (∃ r : Nat, 0 < popRefract r) ∧ (∃ r : Nat, popSingle r = false ∧ popRefract r = 0) ∧ (∃ r : Nat, popSingle r = true) ∧ (∃ w : BitVec 64, 0 < swRef w) :=
  ⟨⟨refractory, by decide +kernel⟩, ⟨0, by decide +kernel⟩, ⟨single, by decide +kernel⟩, 1#64 <<< 48, by decide +kernel⟩

theorem witness_ClusterMasksAreChecked :
    (∃ (s : State) (r : Requester) (n : Nat) (t : Nat), let a := s.at t
      a.Accepts r (kPartitionCommand n) 1 ∧ n < 8 ∧ (a.part n).state = .absent ∧ ((a.dget (kClusterMask n) = 0 ∨ ∃ c ∈ maskList 128 (a.dget (kClusterMask n)), a.partOf c ≠ none ∨ a.clCores c = []))) ∧
    (∃ (s : State) (r : Requester) (n : Nat) (t : Nat), let a := s.at t
      a.Accepts r (kPartitionCommand n) 1 ∧ n < 8 ∧ (a.part n).state = .absent ∧ a.dget (kClusterMask n) ≠ 0 ∧ ((∀ c ∈ maskList 128 (a.dget (kClusterMask n)), a.partOf c = none ∧ a.clCores c ≠ []))) ∧
    (∃ (s : State) (r : Requester) (n : Nat) (t : Nat) (data : Bytes), let a := s.serve t
      n < 8 ∧ a.Accepts r (kClusterMask n) (leNat data) ∧ data.length = 16) :=
  ⟨⟨S0.dset (kClusterMask 7) 0, R0, 7, 0, by decide +kernel⟩,
    ⟨S0.dset (kClusterMask 7) (2 ^ 127), R0, 7, 0, by decide +kernel⟩,
    ⟨S0, R0, 7, 0, natLe 16 (2 ^ 127), by decide +kernel⟩⟩

theorem witness_NotifyBindingsFollowTheirQueue :
    (∃ (s : State) (f : Nat) (k : Nat) (w : Nat), let q := w % 2 ^ 20
      s.hostSees f = true ∧ f ≤ 8 ∧ k < 8 ∧ bit w 31 = true ∧ s.qThere q = true ∧ (s.queue q).state = 1 ∧ (s.queue q).kind = 0 ∧ (s.queue q).reader = f) ∧
    (∃ (s : State) (f : Nat) (k : Nat) (w : Nat), let q := w % 2 ^ 20
      s.hostSees f = true ∧ f ≤ 8 ∧ k < 8 ∧ bit w 31 = true ∧ (s.qThere q = false ∨ (s.queue q).state ≠ 1 ∨ (s.queue q).kind ≠ 0 ∨ (s.queue q).reader ≠ f)) ∧
    (∃ (s : State) (h : OpHead), let a := s.at h.t
      let q := h.object
      a.barred h = false ∧ a.qThere q = true ∧ (a.queue q).state ≠ 0 ∧ (a.queue q).reader = h.issuer) ∧
    (∃ (s : State) (h : OpHead), let a := s.at h.t
      let q := h.object
      a.barred h = false ∧ a.qThere q = true ∧ (a.queue q).state ≠ 0 ∧ (a.queue q).owner = h.issuer) :=
  ⟨⟨(ringWith id).dset kPcieState 2, 0, 7, 2 ^ 31, by decide +kernel⟩,
    ⟨(ringWith (fun r => { r with reader := 1 })).dset kPcieState 2, 0, 7, 2 ^ 31, by decide +kernel⟩,
    ⟨ringWith id, op 0, by decide +kernel⟩,
    ⟨ringWith id, op 0, by decide +kernel⟩⟩

theorem witness_HostReturnsAfterALoss :
    (∃ (s : State) (f : Nat) (w : Nat) (t : Nat), let a := s.reach t
      a.hostSees f = true ∧ f ≤ 8 ∧ w % 2 ^ 32 ≠ 0) ∧
    (∃ (s : State) (f : Nat) (t : Nat), let a := s.at t
      f < 9 ∧ (a.func f).present = true) ∧
    (∃ (s : State) (h : OpHead) (reader : Nat), let a := s.at h.t
      let r := a.queue h.object
      a.barred h = false ∧ a.qThere h.object = true ∧ r.state = 2 ∧ r.owner = h.issuer ∧ epListed reader = true ∧ reader ≠ 0x30 ∧ a.groupStatus (h.object / 16384) { r with reader := reader } = qOk) :=
  ⟨⟨seen.modFunc 0 (fun g => { g with lost := true }), 0, 1, 0, by decide +kernel⟩,
    ⟨S0, 0, 0, by decide +kernel⟩,
    ⟨ringWith (fun r => { r with state := 2 }), op 0, 0, by decide +kernel⟩⟩

theorem witness_SubindexZeroIsTheHighest :
    (∃ index sub : Nat, entryNsub index ≠ 0 ∧ (entryRow index sub).isSome = true) ∧
    (∃ (index : Nat), entryRow index 0 = none) ∧
    (∃ (s : State) (r : Requester) (index : Nat) (t : Nat), let a := s.serve t
      entryNsub index ≠ 0 ∧ a.hears r = true ∧ a.gate 2 (entryKey index 0) = true) :=
  ⟨⟨0x1000, 1, by decide +kernel⟩,
    ⟨0xFFFF, by decide +kernel⟩,
    ⟨S0, R0, 0x1000, 0, by decide +kernel⟩⟩

theorem witness_OrphanedQueuesRefuse :
    (∃ (s : State) (h : OpHead) (msg : Bytes), let a := s.at h.t
      let r := a.queue h.object
      a.barred h = false ∧ a.qThere h.object = true ∧ r.state = 2 ∧ r.kind = 0 ∧ maySend r h.issuer = true ∧ msgOk msg h.rcq = true ∧ a.descsOk msg = true) ∧
    (∃ (s : State) (h : OpHead) (l : List (Nat × BitVec 32)), let a := s.at h.t
      let r := a.queue h.object
      a.barred h = false ∧ a.qThere h.object = true ∧ r.state = 2 ∧ r.kind ≠ 0 ∧ maySend r h.issuer = true ∧ l ≠ [] ∧ l.length ≤ 256) :=
  ⟨⟨ringWith (fun r => { r with state := 2 }), op 0, note, by decide +kernel⟩,
    ⟨ringWith (fun r => { r with state := 2, kind := 1 }), op 0, [(0, 1)], by decide +kernel⟩⟩

theorem witness_ResetLeavesThePartInert :
    (∃ (n : Nat), n < 8) ∧
    (∃ (k : Nat), k < 32) ∧
    (∃ (p : Nat), p < 2) :=
  ⟨⟨7, by decide +kernel⟩,
    ⟨31, by decide +kernel⟩,
    ⟨1, by decide +kernel⟩⟩

theorem witness_VirtualFunctionsAreIsolated :
    reqVf (Requester.mailbox 11) = some 1 ∧ (Instr.create (Requester.mailbox 11) ⟨0, []⟩ 0) ∈ [Instr.create (Requester.mailbox 11) ⟨0, []⟩ 0, .load (Requester.mailbox 11) 0 0, .enable (Requester.mailbox 11) 0 0, .disable (Requester.mailbox 11) 0 0, .disableNow (Requester.mailbox 11) 0 0, .swap (Requester.mailbox 11) 0 0, .unload (Requester.mailbox 11) 0 0, .destroy (Requester.mailbox 11) 0 0, .keepCommit (Requester.mailbox 11) 0 0, .keepErase (Requester.mailbox 11) 0 0] ∧
      (∃ v, Instr.counterClear (Requester.mailbox 11) 0 v 0 ∈ [Instr.stationEnable (Requester.mailbox 11) 0 v 0, .stationDisableNow (Requester.mailbox 11) 0 v 0, .counterClear (Requester.mailbox 11) 0 v 0]) ∧ (∃ sub data, Instr.neuronAccess (Requester.mailbox 11) 0 0 none 0 = .neuronAccess (Requester.mailbox 11) 0 sub data 0) :=
  ⟨by decide +kernel, by decide +kernel, ⟨0, by decide +kernel⟩, 0, none, rfl⟩

theorem witness_LockedEntriesRefuseWrites :
    ∃ (s : State) (r : Requester) (index : Nat) (sub : Nat) (t : Nat) (data : Bytes), let a := s.serve t
      let k := entryKey index sub
      (entryRow (k / 256) (k % 256)).isSome = true ∧ a.hears r = true ∧ a.gate 2 k = true ∧ a.reqWrites r k (leNat data) = true ∧ a.locked k = true :=
  ⟨S0.dset kLockState 2, R0, ix kJtagMode, sx kJtagMode, 0, natLe 1 1, by decide +kernel⟩

theorem witness_ReadsChangeNothingElse :
    (∃ index sub off maxlen snap, naIndex (entryKey index sub / 256) = none ∧ Instr.readEntry R0 1 0x1000 1 0 4 0 0 = .readEntry R0 1 index sub off maxlen snap 0) ∧ (∃ index first, naIndex index = none ∧ Instr.readIndex R0 1 0x1000 0 0 = .readIndex R0 1 index first 0) ∧
      (∃ index sub, Instr.describe R0 1 0x1000 1 0 = .describe R0 1 index sub 0) ∧ (∃ body, Instr.echo R0 1 [] 0 = .echo R0 1 body 0) :=
  ⟨⟨0x1000, 1, 0, 4, 0, by decide +kernel, rfl⟩, ⟨0x1000, 0, by decide +kernel, rfl⟩, ⟨0x1000, 1, rfl⟩, [], rfl⟩

theorem witness_FaultsLeaveThePitchesAlone :
    (∃ rep, Instr.fault (faultOf 0x0303) 0 = .fault rep 0) ∧ (∃ cl d, Instr.controllerRestart 0 0 0 = .controllerRestart cl d 0) ∧ (∃ d, Instr.mgmtRestart 0 0 = .mgmtRestart d 0) :=
  ⟨⟨_, rfl⟩, ⟨0, 0, rfl⟩, 0, rfl⟩

theorem witness_SyncArithmeticIsExact :
    (∃ (s : State) (h : OpHead) (n : Nat), let a := s.at h.t
      a.yThere h.object = true ∧ (a.sync h.object).kind = 2 ∧ 0 < n ∧ (a.sync h.object).value + n < 2 ^ 32 ∧ ((∀ e ∈ a.slices, e.2.waits = [])) ∧ h.rcq = noQueue) ∧
    (∃ (s : State) (h : OpHead), let a := s.at h.t
      a.yThere h.object = true ∧ (a.sync h.object).kind = 1 ∧ ((∀ e ∈ a.slices, e.2.waits = [])) ∧ h.rcq = noQueue) :=
  ⟨⟨synced 2 (2 ^ 32 - 2) 0, op 0, 1, by decide +kernel⟩,
    ⟨synced 1 (2 ^ 64 - 1) 0, op 0, by decide +kernel⟩⟩

theorem witness_ExtendedPositionFollowsTheCounts :
    (∃ (s : State) (t : Nat), let a := s.at t
      a.dget kQuadPosition = ofInt 32 a.clk.quadExt) ∧
    (∃ (s : State) (n : Nat) (t : Nat) (x : Bool) (y : Bool), let a := s.at t
      let d := (quadState x y + 4 - quadState a.clk.phaseA a.clk.phaseB) % 4
      let q := (a.part n).seq
      n ∈ a.bound 3 ∧ (d = 1 ∨ d = 3) ∧ a.quadFast = false ∧ a.dget (kPitchBase n) + q.ticks < 2 ^ 48) ∧
    (∃ (s : State) (r : Requester) (n : Nat) (t : Nat), let a := s.at t
      a.Accepts r (kPartitionCommand n) 3 ∧ a.pow.state = .active ∧ a.pow.entry = none ∧ a.dget (kCadenceSource n) = 3 ∧ a.dget (kQuadCounts n) = 0) ∧
    (∃ (s : State) (r : Requester) (n : Nat) (t : Nat), let a := s.at t
      a.Accepts r (kPartitionCommand n) 3 ∧ a.pow.state = .active ∧ a.pow.entry = none ∧ n < 8 ∧ (a.part n).state = .ready ∧ a.dget (kCadenceSource n) = 3 ∧ a.dget (kQuadCounts n) ≠ 0) ∧
    (∃ (s : State) (r : Requester) (n : Nat) (v : Nat) (t : Nat), let a := s.serve t
      n < 8 ∧ a.Accepts r (kQuadCounts n) v ∧ v < 2 ^ 32 ∧ (v = 0 ∨ 16777215 < v)) ∧
    (∃ (s : State) (t : Nat), let a := s.reach t
      a.dead = false ∧ (if a.sec.recovery then a.sec.resetDue else a.rel.mgmtUp) = true) :=
  ⟨⟨S0, 0, by decide +kernel⟩,
    ⟨(inState .enabled).dset (kCadenceSource 0) 3, 0, 0, true, false, by decide +kernel⟩,
    ⟨(inState .ready).dset (kCadenceSource 0) 3, R0, 0, 0, by decide +kernel⟩,
    ⟨((inState .ready).dset (kCadenceSource 0) 3).dset (kQuadCounts 0) 1, R0, 0, 0, by decide +kernel⟩,
    ⟨S0, R0, 7, 0, 0, by decide +kernel⟩,
    ⟨S0, 0, by decide +kernel⟩⟩

theorem witness_UnloadAndDestroyFreeMemory :
    (∃ (s : State) (r : Requester) (n : Nat) (t : Nat), let a := s.at t
      let i := a.sel r (kImageSlot n)
      a.Accepts r (kPartitionCommand n) 7 ∧ n < 8 ∧ ((a.part n).state = .created ∨ (a.part n).state = .ready ∨ (a.part n).state = .enabled) ∧ ¬ ((a.part n).active = some i ∧ (a.part n).state = .enabled) ∧ i < 2) ∧
    (∃ (s : State) (r : Requester) (n : Nat) (t : Nat), let a := s.at t
      a.Accepts r (kPartitionCommand n) 7 ∧ (a.part n).active = some (a.sel r (kImageSlot n)) ∧ (a.part n).state = .enabled) ∧
    (∃ (s : State) (r : Requester) (n : Nat) (t : Nat), let a := s.at t
      a.Accepts r (kPartitionCommand n) 8 ∧ n < 8 ∧ ((a.part n).state = .created ∨ (a.part n).state = .ready)) :=
  ⟨⟨inState .created, R0, 0, 0, by decide +kernel⟩,
    ⟨run, R0, 0, 0, by decide +kernel⟩,
    ⟨inState .ready, R0, 0, 0, by decide +kernel⟩⟩

theorem witness_PitchCommandsComplete :
    (∃ (s : State) (n : Nat) (k : Nat) (t : Nat), let a := s.at t
      let late := a.schedNow n - ((a.dget (kOriginTime n) + k * a.periodNs n : Nat) : Int)
      n ∈ a.bound 1 ∧ k < 2 ^ 48 ∧ 0 ≤ late ∧ late < a.periodNs n ∧ ((∀ j, lastTickNo (a.part n).seq = some j → j < k)) ∧ ((lastTickNo (a.part n).seq = none → (a.part n).seq.enabledAt + 50000 + late.toNat ≤ a.now))) ∧
    (∃ (s : State) (rising : Bool) (t : Nat), let a := s.at t
      ((rising = true ↔ a.dget kCinEdge = 0)) ∧ ((∀ i, a.clk.cinAt = some i → i + a.dget kCinMinInterval * 1000 ≤ a.now))) ∧
    (∃ (s : State) (f : Nat) (t : Nat), let a := s.at t
      a.hostSees f = true) ∧
    (∃ (s : State) (n : Nat) (t : Nat) (num : Nat) (inst : Nat), let a := s.at t
      (a.part n).seq.pendTick = some (num, inst) ∧ a.mayOpen n inst = true) ∧
    (∃ (s : State) (n : Nat) (t : Nat), let a := s.at t
      (a.part n).seq.isOpen = true ∧ (a.part n).seq.openAt * 100 + a.eff (kWatchFraction n) * (a.periodNs n - a.guardNs n) ≤ a.now * 100) ∧
    (∃ (s : State) (n : Nat) (t : Nat), let a := s.at t
      (a.part n).seq.isOpen = true ∧ (a.part n).seq.openAt + a.periodNs n - a.guardNs n < a.now) ∧
    (∃ (s : State) (n : Nat) (d : Nat) (t : Nat), let a := s.at t
      (a.part n).seq.isOpen = true ∧ a.truncDue n = some d ∧ d ≤ a.now) ∧
    (∃ (s : State) (n : Nat) (c : Nat) (t : Nat), let a := s.at t
      let q := (a.part n).seq
      q.isOpen = true ∧ ((q.openAt + 10 * a.periodNs n ≤ a.now ∨ (∃ x, q.truncAt = some x ∧ a.truncLate n x = true) ∨ ∃ x, q.absorbAt = some x ∧ x + 60000 ≤ a.now)) ∧ c ∈ a.partCores n ∧ (a.core c).belaySent = false) ∧
    (∃ (s : State) (n : Nat) (t : Nat), let a := s.at t
      running (a.part n) = true ∧ 2 ≤ a.dget (kCadenceSource n) ∧ a.dget (kCadenceState n) ≠ 3 ∧ (a.part n).seq.lastTick + a.eff (kCadenceTimeout n) * a.periodNs n ≤ a.now) ∧
    (∃ (s : State) (m : SyncInfo) (t : Nat), let a := s.at t
      a.dget kTimePort = m.port ∧ m.port < 4 ∧ a.timeUp m.port = true ∧ m.domain = 0 ∧ m.p2p = true ∧ -7 ≤ m.log ∧ m.log ≤ 0 ∧ (m.port < 2 ∨ m.sub = 0)) ∧
    (∃ (s : State) (t : Nat), let a := s.at t
      a.dget kTimeState = 1 ∧ a.clk.syncAt + 3 * 1000000000 / 2 ^ (-a.clk.syncLog).toNat ≤ a.now) ∧
    (∃ (s : State) (t : Nat), let a := s.at t
      a.dget kTimeState = 2 ∧ a.clk.lostSaid = false ∧ a.clk.holdSince + a.dget kHoldoverLimit * 1000000 < a.now) ∧
    (∃ (s : State) (n : Nat) (cl : Nat) (x : Nat) (t : Nat), let a := s.at t
      (a.part n).seq.isOpen = true ∧ (a.part n).mask.testBit cl = true ∧ (a.cluster cl).belaySent = true ∧ x ∈ partClusters (a.part n) ∧ x ≠ cl ∧ x ∉ (a.part n).seq.belays) ∧
    (∃ (s : State) (n : Nat) (t : Nat), let a := s.at t
      (a.part n).hostLoss = true ∧ (a.part n).contLeft = some 0) :=
  ⟨⟨((S0.modPart 0 (fun p => { p with state := .enabled })).dset (kCadenceSource 0) 1).modClk (fun c => { c with tsn := 950000 }), 0, 1, 50000, by decide +kernel, by decide +kernel, by decide +kernel, by decide +kernel, (fun j h => by have k : (none : Option Nat) = some j := h; cases k), by decide +kernel⟩,
    ⟨S0.modClk (fun c => { c with cinAt := some 0 }), true, 250000, by decide +kernel, (fun i h => by injection h with h; subst h; decide +kernel)⟩,
    ⟨seen, 0, 0, by decide +kernel⟩,
    ⟨gap.modPart 0 (fun p => { p with seq := { p.seq with everOpen := false, pendTick := some (6, 0) } }), 0, 0, 6, 0, by decide +kernel⟩,
    ⟨run, 0, 960000, by decide +kernel⟩,
    ⟨run, 0, 960001, by decide +kernel⟩,
    ⟨run, 0, 1060000, 1060000, by decide +kernel⟩,
    ⟨run, 0, 0, 10000000, by decide +kernel, (Or.inl (by decide +kernel)), by decide +kernel, by decide +kernel⟩,
    ⟨run.dset (kCadenceSource 0) 2, 0, 10000000000, by decide +kernel⟩,
    ⟨(S0.dset kTimePort 2).modDataPort 0 (fun p => { p with up := [(0, true)] }), ⟨2, 0, 0, 0, true⟩, 0, by decide +kernel, by decide +kernel, by decide +kernel, by decide +kernel, by decide +kernel, by decide +kernel, by decide +kernel, (Or.inr (by decide +kernel))⟩,
    ⟨S0.dset kTimeState 1, 3000000000, by decide +kernel⟩,
    ⟨S0.dset kTimeState 2, 1000000001, by decide +kernel⟩,
    ⟨(run.modPart 0 (fun p => { p with mask := 3 })).modCluster 0 (fun q => { q with belaySent := true }), 0, 0, 1, 0, by decide +kernel⟩,
    ⟨run.modPart 0 (fun p => { p with hostLoss := true, contLeft := some 0 }), 0, 0, by decide +kernel⟩⟩

theorem witness_CoreCommandsComplete :
    (∃ (s : State) (c : Nat) (t : Nat), let a := s.at t
      a.corePresent c = true ∧ (a.coreP c).seq.isOpen = true ∧ (a.core c).isOpen = false) ∧
    (∃ (s : State) (c : Nat), s.liveCore c = true ∧ s.drained c = true) ∧
    (∃ (s : State) (c : Nat), (s.core c).isOpen = true ∧ (s.core c).belaySent = true ∧ s.noHauls c = true ∧ s.noCopies c = true) ∧
    (∃ (s : State) (c : Nat) (t : Nat), let a := s.at t
      (a.coreP c).seq.isOpen = false) ∧
    (∃ (s : State) (c : Nat) (t : Nat), let a := s.at t
      (a.coreP c).seq.truncAt.isSome = true ∧ a.liveCore c = true ∧ (a.core c).belaySent = false ∧ (a.core c).absorbed = false ∧ a.drained c = false) ∧
    (∃ (s : State) (c : Nat), (s.coreP c).seq.absorbAt.isSome = true ∧ s.liveCore c = true ∧ (s.core c).belaySent = false ∧ s.drained c = false) ∧
    (∃ (s : State) (c : Nat) (r : Nat), s.mayRead c = true ∧ s.nextPrefetch c = some r) ∧
    (∃ (s : State) (c : Nat) (r : Nat) (w : List Nat), s.mayRead c = true ∧ (s.core c).deferred = r :: w) ∧
    (∃ (s : State) (c : Nat) (row : Nat) (done : Bool), (s.core c).reads.find? (fun q => q.row == row) = some ⟨row, done⟩) ∧
    (∃ (s : State) (c : Nat) (t : Nat) (e : EvRec) (r : List EvRec), let a := s.at t
      a.liveCore c = true ∧ (a.core c).sweepDone = false ∧ (a.core c).truncated = false ∧ (a.core c).absorbed = false ∧ (a.core c).intake = e :: r) ∧
    (∃ (s : State) (c : Nat) (t : Nat), let a := s.at t
      a.sweepDue c = true) ∧
    (∃ (s : State) (c : Nat) (dst : Nat) (t : Nat) (o : OpenHaul), let a := s.at t
      (a.core c).openHauls.find? (fun o => o.dst == dst) = some o ∧ o.opened + 256 ≤ a.now) ∧
    (∃ (s : State) (id : Nat) (t : Nat) (h : Haul), let a := s.at t
      mget dNone a.hauls id = some h ∧ h.kind ≠ .remote ∧ id < a.haulNext) ∧
    (∃ (s : State) (cl : Nat) (e : JEntry) (r : List JEntry), (s.cluster cl).journalBuf = e :: r) ∧
    (∃ (s : State) (c : Nat) (t : Nat), let a := s.at t
      (a.core c).stalled = true ∧ (a.cluster (clusterOf c)).journalBuf.length < 512) ∧
    (∃ (s : State) (k : Nat) (t : Nat), let a := s.at t
      (a.stream k).encoding = true ∧ (a.stream k).unlaunched = [] ∧ a.noEncoded k = true ∧ a.noEncodedCopies k = true) ∧
    (∃ (s : State) (cl : Nat), ((∀ k ∈ s.clusterStreams ((s.partOf cl).getD 8) cl, k ∈ (s.cluster cl).encDone))) :=
  ⟨⟨run, 0, 0, by decide +kernel⟩,
    ⟨liveWith (fun k => { k with sweepDone := true }), 0, by decide +kernel⟩,
    ⟨liveWith (fun k => { k with belaySent := true }), 0, by decide +kernel⟩,
    ⟨gap, 0, 0, by decide +kernel⟩,
    ⟨live.modPart 0 (fun p => { p with seq := { p.seq with truncAt := some 0 } }), 0, 0, by decide +kernel⟩,
    ⟨live.modPart 0 (fun p => { p with seq := { p.seq with absorbAt := some 0 } }), 0, by decide +kernel⟩,
    ⟨rows.modCore 0 (fun k => { k with ring := [{ word := event, target := 6 }] }), 0, 0, by decide +kernel⟩,
    ⟨rows.modCore 0 (fun k => { k with deferred := [0] }), 0, 0, [], by decide +kernel⟩,
    ⟨rows.modCore 0 (fun k => { k with reads := [⟨0, true⟩] }), 0, 0, true, by decide +kernel⟩,
    ⟨atIntake, 0, 0, { word := event, target := 5 }, [], by decide +kernel⟩,
    ⟨live, 0, 0, by decide +kernel⟩,
    ⟨liveWith (fun k => { k with openHauls := [⟨1, [], [], 0⟩] }), 0, 1, 256, ⟨1, [], [], 0⟩, by decide +kernel⟩,
    ⟨{ S0 with hauls := [(3, some ⟨.event, 1, 0, [], [], 5, 0⟩)], haulNext := 4 }, 3, 0, ⟨.event, 1, 0, [], [], 5, 0⟩, by decide +kernel⟩,
    ⟨S0.modCluster 0 (fun q => { q with journalBuf := [.release 0 0] }), 0, .release 0 0, [], by decide +kernel⟩,
    ⟨liveWith (fun k => { k with stalled := true }), 0, 0, by decide +kernel⟩,
    ⟨(withTile 4 0).modStream 0 (fun q => { q with encoding := true }), 0, 0, by decide +kernel⟩,
    ⟨live, 0, by decide +kernel⟩⟩

theorem witness_LoadsMemoryAndPacketsComplete :
    (∃ (s : State) (n : Nat) (t : Nat) (l : Loading) (w : List Loading) (tl : Tile), let a := s.at t
      (a.part n).loading = l :: w ∧ (slotAt (a.part n) l.slot).tiles[l.next]? = some tl) ∧
    (∃ (s : State) (n : Nat) (t : Nat) (l : Loading) (w : List Loading) (tl : Tile), let a := s.at t
      (a.part n).loading = l :: w ∧ (slotAt (a.part n) l.slot).tiles[l.next]? = some tl ∧ ((∃ j, j < (tl.len + 31) / 32 ∧ a.wordBad (l.addr + tl.off + 32 * j) = true) ∨ (∃ g ∈ tl.granules, a.addrOut g = true))) ∧
    (∃ (s : State) (n : Nat) (t : Nat) (q : NeuronReq) (w : List NeuronReq) (x : Bytes), let a := s.at t
      let b := a.modPart n (fun p => { p with waiting := w })
      (a.part n).waiting = q :: w ∧ (a.part n).seq.isOpen = false ∧ q.data = some x ∧ (b.naTargetOk n q.target = false ∨ b.naGone q.target = false ∧ b.naWriteOk n q.sub q.target x = false)) ∧
    (∃ (s : State) (i : Nat) (off : Nat) (t : Nat), let a := s.at t
      a.subServes i = true ∧ a.poisoned i off = false) ∧
    (∃ (s : State) (i : Nat) (off : Nat) (t : Nat), let a := s.at t
      a.subServes i = true ∧ a.poisoned i off = true) ∧
    (∃ (s : State) (i : Nat) (temp : Nat) (t : Nat), let a := s.at t
      a.subServes i = true ∧ 4 ≤ max temp (a.slice i).trainTemp - min temp (a.slice i).trainTemp) ∧
    (∃ (s : State) (i : Nat) (temp : Nat) (t : Nat), let a := s.at t
      a.subServes i = true ∧ max temp (a.slice i).trainTemp - min temp (a.slice i).trainTemp < 4 ∧ a.now < (a.slice i).trainAt + 200000000) ∧
    (∃ (s : State) (f : Nat) (off : Nat) (len : Nat) (t : Nat), let a := s.at t
      let x := winBase (a.func f).winLo (a.func f).winHi + off
      a.hostSees f = true ∧ f ≤ 8 ∧ 0 < len ∧ (bit (a.func f).winLo 0 = false ∨ a.barBytes f < off + len ∨ a.spaceOk spLp x len = false ∨ a.spaceMay f false spLp x len = false)) ∧
    (∃ (s : State) (f : Nat) (off : Nat) (t : Nat) (data : Bytes), let a := s.at t
      let x := winBase (a.func f).winLo (a.func f).winHi + off
      let n := data.length
      a.hostSees f = true ∧ f ≤ 8 ∧ 0 < n ∧ (bit (a.func f).winLo 0 = false ∨ a.barBytes f < off + n ∨ a.spaceOk spLp x n = false ∨ a.spaceMay f false spLp x n = false ∨ a.activeFrame x n = true)) ∧
    (∃ (s : State) (f : Nat) (off : Nat) (len : Nat) (t : Nat), let a := s.at t
      let x := winBase (a.func f).winLo (a.func f).winHi + off
      a.hostSees f = true ∧ f ≤ 8 ∧ 0 < len ∧ bit (a.func f).winLo 0 = true ∧ off + len ≤ a.barBytes f ∧ a.spaceOk spLp x len = true ∧ a.spaceMay f false spLp x len = true ∧ a.spaceBad spLp x len = true) ∧
    (∃ (s : State) (src : Nat) (dst : Nat) (seq : Nat) (t : Nat) (v : Unacked), let a := (s.at t).fabricDue
      a.fab.unacked.find? (a.isCopy src dst seq) = some v) ∧
    (∃ (s : State) (src : Nat) (dst : Nat) (seq : Nat) (t : Nat) (v : Unacked), let a := (s.at t).fabricDue
      a.fab.unacked.find? (a.isCopy src dst seq) = some v ∧ ((∀ i, v.sentAt = some i → i + a.dget kAckTimeout * 1000 ≤ a.now)) ∧ v.busyAt = none ∧ v.lost = false ∧ a.dget kResendLimit ≤ v.resends) ∧
    (∃ (s : State) (p : Packet) (t : Nat), let a := (s.at t).fabricDue
      p.seq ∉ (mget dMarks a.fab.recv (a.marksKey p)).held) :=
  ⟨⟨landing, 0, 0, ⟨0, 0, 0⟩, [], tileIn, by decide +kernel⟩,
    ⟨landing.modMem (fun m => { m with poison := [17] }), 0, 0, ⟨0, 0, 0⟩, [], tileIn, by decide +kernel, by decide +kernel, (Or.inl ⟨0, by decide +kernel, by decide +kernel⟩)⟩,
    ⟨gap.modPart 0 (fun p => { p with waiting := [{ req := R0, sub := 2, target := 2 ^ 31, data := some [] }] }), 0, 0, { req := R0, sub := 2, target := 2 ^ 31, data := some [] }, [], [], by decide +kernel⟩,
    ⟨S0, 0, 0, 0, by decide +kernel⟩,
    ⟨S0.modMem (fun m => { m with poison := [(((S0.at 0).addrBack 0 0).getD 0) / 32] }), 0, 0, 0, by decide +kernel⟩,
    ⟨S0, 0, 30, 0, by decide +kernel⟩,
    ⟨S0, 0, 0, 0, by decide +kernel⟩,
    ⟨seen, 0, 0, 8, 0, by decide +kernel⟩,
    ⟨seen, 0, 0, 0, natLe 8 5, by decide +kernel⟩,
    ⟨(seen.modFunc 0 (fun g => { g with winLo := 1 })).modMem (fun m => { m with poison := [0] }), 0, 0, 8, 0, by decide +kernel⟩,
    ⟨copied, 0, 1, 0, 0, { pkt := pkt, sentAt := some 0 }, by decide +kernel⟩,
    ⟨S0.modFab (fun f => { f with unacked := [{ pkt := pkt, sentAt := some 0, resends := S0.dget kResendLimit }] }), 0, 1, 0, 1000000000000, { pkt := pkt, sentAt := some 0, resends := S0.dget kResendLimit }, by decide +kernel, (fun i h => by injection h with h; subst h; decide +kernel), by decide +kernel, by decide +kernel, by decide +kernel⟩,
    ⟨S0, pkt, 0, by decide +kernel⟩⟩

end Sys2Proof.Tests

end
end

section
/-!
PROOFS of the statements on scope (spec 00): what the reset state reads as, entry by entry, and O48.
-/

namespace Sys2Proof.Machine

/-! ### The units of the reset state -/

/-- No partition is listed at reset, so each one is as an unlisted one. -/
@[simp] theorem State.part_reset (n : Nat) : State.reset.part n = {} := mget_nil dPart n
/-- No stream is listed at reset. -/
@[simp] theorem State.stream_reset (k : Nat) : State.reset.stream k = {} := mget_nil dStream k
/-- No readout group is listed at reset. -/
@[simp] theorem State.rgroup_reset (g : Nat) : State.reset.rgroup g = {} := mget_nil dGroup g

/-! ### The entries of the reset state -/

/-- The entries that the bring-up before the reset state leaves at another value than their default (R5, R379). -/
def bringupKeys : List Nat := [kDeviceState, kBootCount, kBringupStep]

theorem State.dget_reset {k : Nat} (h : k ∉ bringupKeys) : State.reset.dget k = entryDefault k := by
  simp only [bringupKeys, kDeviceState, kBootCount, kBringupStep, List.mem_cons, List.not_mem_nil, or_false, not_or] at h
  obtain ⟨hstate, hcount, hstep⟩ := h
  simp only [State.dget, State.reset, mget_cons, mget_nil, Ne.symm hstate, Ne.symm hcount, Ne.symm hstep, if_false]

theorem State.dget_reset_eq_zero {k : Nat} (h : k ∉ bringupKeys ∧ entryDefault k = 0) : State.reset.dget k = 0 :=
  (State.dget_reset h.1).trans h.2

/-- R5, Table 2.9: source 0 is UNBOUND. -/
theorem dget_reset_cadenceSource {n : Nat} (hn : n < 8) : State.reset.dget (kCadenceSource n) = 0 :=
  State.dget_reset_eq_zero (by decide +revert)

/-- R5, Tables 6.11 and 6.16: the bits of TRACE and APPLY are among these. -/
theorem dget_reset_stationEnable {n : Nat} (hn : n < 8) : State.reset.dget (kStationEnable n) = 0 :=
  State.dget_reset_eq_zero (by decide +revert)

theorem dget_reset_streamEnable {k : Nat} (hk : k < 32) : State.reset.dget (kStreamEnable k) = 0 :=
  State.dget_reset_eq_zero (by decide +revert)

theorem dget_reset_groupEnable : State.reset.dget kGroupEnable = 0 := State.dget_reset_eq_zero (by decide)

theorem dget_reset_outputEnable : State.reset.dget kOutputEnable = 0 := State.dget_reset_eq_zero (by decide)

theorem dget_reset_portEnable {p : Nat} (hp : p < 2) : State.reset.dget (kPortEnable p) = 0 :=
  State.dget_reset_eq_zero (by decide +revert)

theorem dget_reset_lockState : State.reset.dget kLockState = 0 := State.dget_reset_eq_zero (by decide)

/-! ### The part is inert -/

theorem reset_partition_inert {n : Nat} (hn : n < 8) :
    (State.reset.part n).state = .absent ∧ (State.reset.part n).mask = 0 ∧ (State.reset.part n).stations = 0 ∧
      State.reset.dget (kCadenceSource n) = 0 ∧ State.reset.dget (kStationEnable n) % 4 = 0 := by
  simp [dget_reset_cadenceSource hn, dget_reset_stationEnable hn]

theorem reset_stream_inert {k : Nat} (hk : k < 32) :
    State.reset.dget (kStreamEnable k) = 0 ∧ (State.reset.stream k).force = false := by
  simp [dget_reset_streamEnable hk]

/-- Settles O48, from what each kind of unit and each entry reads as at reset. -/
theorem resetLeavesThePartInert : Obligations.ResetLeavesThePartInert := by
  unfold Obligations.ResetLeavesThePartInert
  exact ⟨fun _ hn => reset_partition_inert hn, fun _ hk => reset_stream_inert hk, dget_reset_groupEnable,
    fun g => by rw [State.rgroup_reset], dget_reset_outputEnable, fun _ hp => dget_reset_portEnable hp, dget_reset_lockState, rfl, rfl⟩

end Sys2Proof.Machine
end

section
/-!
PROOFS of the statements on pitches (spec 02): the ticks of each source (O4).
-/

namespace Sys2Proof.Machine

/-! ### The part of the state that the schedule changes -/

/-- From `s` to `u` only time, the partitions and the dictionary have changed. -/
def OnlySched (s u : State) : Prop := u = { s with clk := u.clk, parts := u.parts, dict := u.dict }

variable {s u v : State}

theorem OnlySched.refl (s : State) : OnlySched s s := rfl
theorem OnlySched.trans (h : OnlySched s u) (k : OnlySched u v) : OnlySched s v := by
  unfold OnlySched at *
  rw [h] at k
  exact k
theorem OnlySched.dset (h : OnlySched s u) (k x : Nat) : OnlySched s (u.dset k x) := h.trans rfl
theorem OnlySched.modPart (h : OnlySched s u) (n : Nat) (f : Part → Part) : OnlySched s (u.modPart n f) := h.trans rfl
theorem OnlySched.modClk (h : OnlySched s u) (f : Clock → Clock) : OnlySched s (u.modClk f) := h.trans rfl
theorem OnlySched.each {f : State → Nat → State} (hf : ∀ s n, OnlySched s (f s n)) (l : List Nat) (s : State) :
    OnlySched s (s.each l f) := by
  induction l generalizing s with
  | nil => exact .refl s
  | cons n r ih => exact (hf s n).trans (ih (f s n))
theorem OnlySched.heldVals (h : OnlySched s u) : u.heldVals = s.heldVals := by rw [h]

/-! ### An operation on one partition, for each of several -/

/-- The entries that a tick of partition `n` reads or writes. -/
def tickKeys (n : Nat) : List Nat :=
  [kTicksMerged n, kCadenceState n, kPitchBase n, kQuadCounts n, kQuadMode, kCadenceSource n, kPeriod n]

/-- From `s` to `u` nothing has changed that a tick of partition `n` reads. -/
structure Alike (n : Nat) (s u : State) : Prop where
  part : u.part n = s.part n
  now : u.now = s.now
  ext : u.clk.quadExt = s.clk.quadExt
  held : u.heldVals = s.heldVals
  keys : ∀ k ∈ tickKeys n, u.dget k = s.dget k

theorem Alike.refl (n : Nat) (s : State) : Alike n s s := ⟨rfl, rfl, rfl, rfl, fun _ _ => rfl⟩
theorem Alike.symm {n : Nat} (h : Alike n s u) : Alike n u s := ⟨h.part.symm, h.now.symm, h.ext.symm, h.held.symm, fun k hk => (h.keys k hk).symm⟩
theorem Alike.trans {n : Nat} (h : Alike n s u) (k : Alike n u v) : Alike n s v :=
  ⟨k.part.trans h.part, k.now.trans h.now, k.ext.trans h.ext, k.held.trans h.held, fun x hx => (k.keys x hx).trans (h.keys x hx)⟩
theorem Alike.merged {n : Nat} (h : Alike n s u) : u.dget (kTicksMerged n) = s.dget (kTicksMerged n) := h.keys _ (by simp [tickKeys])
theorem Alike.cadence {n : Nat} (h : Alike n s u) : u.dget (kCadenceState n) = s.dget (kCadenceState n) := h.keys _ (by simp [tickKeys])
theorem Alike.base {n : Nat} (h : Alike n s u) : u.dget (kPitchBase n) = s.dget (kPitchBase n) := h.keys _ (by simp [tickKeys])
theorem Alike.counts {n : Nat} (h : Alike n s u) : u.dget (kQuadCounts n) = s.dget (kQuadCounts n) := h.keys _ (by simp [tickKeys])
theorem Alike.mode {n : Nat} (h : Alike n s u) : u.dget kQuadMode = s.dget kQuadMode := h.keys _ (by simp [tickKeys])
theorem Alike.source {n : Nat} (h : Alike n s u) : u.dget (kCadenceSource n) = s.dget (kCadenceSource n) := h.keys _ (by simp [tickKeys])
theorem Alike.period {n : Nat} (h : Alike n s u) : u.periodNs n = s.periodNs n := by
  simp only [State.periodNs, State.eff, h.held, h.keys (kPeriod n) (by simp [tickKeys])]

theorem State.mem_bound {src n : Nat} : n ∈ s.bound src ↔ n < 8 ∧ running (s.part n) = true ∧ s.dget (kCadenceSource n) = src := by
  simp [State.bound]
theorem Alike.mem_bound {n : Nat} (h : Alike n s u) (src : Nat) : n ∈ u.bound src ↔ n ∈ s.bound src := by
  rw [State.mem_bound, State.mem_bound, h.part, h.source]

/-- An entry set that a tick of partition `n` does not read. -/
theorem Alike.dset_of_notMem {n k : Nat} (hk : k ∉ tickKeys n) (s : State) (x : Nat) : Alike n s (s.dset k x) :=
  ⟨rfl, rfl, rfl, rfl, fun _ hj => s.dget_dset_ne (ne_of_mem_of_not_mem hj hk) x⟩
theorem Alike.modPart_of_ne {n m : Nat} (hm : m ≠ n) (s : State) (f : Part → Part) : Alike m s (s.modPart n f) :=
  ⟨s.part_modPart_ne hm f, rfl, rfl, rfl, fun _ _ => rfl⟩

section Each

variable {f : State → Nat → State}

/-- An operation on each partition of a list leaves the other partitions as they were. -/
theorem each_alike (hf : ∀ s n m, n < 8 → m < 8 → m ≠ n → Alike m s (f s n)) {l : List Nat} (hl : ∀ n ∈ l, n < 8) {m : Nat} (hm : m < 8)
    (hml : m ∉ l) (s : State) : Alike m s (s.each l f) := by
  induction l generalizing s with
  | nil => exact .refl m s
  | cons n r ih =>
    obtain ⟨hn, hr⟩ := List.forall_mem_cons.1 hl
    obtain ⟨hmn, hmr⟩ : m ≠ n ∧ m ∉ r := by simpa using hml
    exact (hf s n m hn hm hmn).trans (ih hr hmr (f s n))

/-- What an operation on one partition does, it does to each partition of a list. -/
theorem each_spec {P : Nat → State → State → Prop} (hf : ∀ s n m, n < 8 → m < 8 → m ≠ n → Alike m s (f s n))
    (hP : ∀ s n, n < 8 → P n s (f s n)) (hcongr : ∀ {n a b u v}, Alike n a b → Alike n u v → P n a u → P n b v) {l : List Nat}
    (hl : ∀ n ∈ l, n < 8) (hnd : l.Nodup) {m : Nat} (hml : m ∈ l) (s : State) : P m s (s.each l f) := by
  induction l generalizing s with
  | nil => cases hml
  | cons n r ih =>
    obtain ⟨hn, hr⟩ := List.forall_mem_cons.1 hl
    obtain ⟨hnr, hndr⟩ := List.nodup_cons.1 hnd
    have hm8 := hl m hml
    by_cases hmn : m = n
    · subst hmn
      exact hcongr (.refl m s) (each_alike hf hr hn hnr (f s m)) (hP s m hn)
    · have hmr : m ∈ r := (List.mem_cons.1 hml).resolve_left hmn
      exact hcongr (hf s n m hn hm8 hmn).symm (.refl m _) (ih hr hndr hmr (f s n))

theorem each_part (hf : ∀ s n m, m ≠ n → (f s n).part m = s.part m) {l : List Nat} {m : Nat} (hml : m ∉ l) (s : State) :
    (s.each l f).part m = s.part m := by
  induction l generalizing s with
  | nil => rfl
  | cons n r ih =>
    obtain ⟨hmn, hmr⟩ : m ≠ n ∧ m ∉ r := by simpa using hml
    exact (ih hmr (f s n)).trans (hf s n m hmn)

theorem each_dget {k : Nat} {l : List Nat} (hf : ∀ s, ∀ n ∈ l, (f s n).dget k = s.dget k) (s : State) : (s.each l f).dget k = s.dget k := by
  induction l generalizing s with
  | nil => rfl
  | cons n r ih => exact (ih (fun s m hm => hf s m (List.mem_cons_of_mem n hm)) (f s n)).trans (hf s n List.mem_cons_self)

theorem each_clk (hf : ∀ s n, (f s n).clk = s.clk) (l : List Nat) (s : State) : (s.each l f).clk = s.clk := by
  induction l generalizing s with
  | nil => rfl
  | cons n r ih => exact (ih (f s n)).trans (hf s n)

end Each

/-! ### Ticks (R39, R44, R45) -/

theorem Ticked.congr {a b u v : State} {n num inst : Nat} {gone : List Nat} (h : Alike n a b) (k : Alike n u v)
    (t : Ticked a u n num inst gone) : Ticked b v n num inst gone := by
  simpa only [Ticked, h.part, h.now, h.merged, k.part, k.merged, k.cadence] using t

theorem State.tick_of_end {n num : Nat} (inst : Nat) (h : ¬ num < 2 ^ 48) (s : State) : s.tick n num inst = s := by
  rw [State.tick, if_pos (by simpa [pitchEnd] using h)]

/-- A tick of partition `n` touches its sequencer, TICKS_MERGED and CADENCE_STATE alone. -/
theorem State.tick_eq (s : State) {n num : Nat} (inst : Nat) (h : num < 2 ^ 48) :
    s.tick n num inst = (((if (s.part n).seq.pendTick = none then s else s.dadd (kTicksMerged n) 1).modPart n (fun p => { p with
      hold := false
      seq := { p.seq with
        ticks := p.seq.ticks + 1
        lastTick := s.now
        pendTick := some (num, inst)
        pendMerge := p.seq.pendMerge ++ (p.seq.pendTick.map (·.1)).toList } })).dset (kCadenceState n) 2) := by
  rw [State.tick, if_neg (by simpa [pitchEnd] using h)]
  cases hp : (s.part n).seq.pendTick <;> simp [State.modPart, mmod, State.part] at hp ⊢ <;> simp [hp, State.now]

theorem State.tick_ticked (s : State) {n num : Nat} (inst : Nat) (h : num < 2 ^ 48) : Ticked s (s.tick n num inst) n num inst [] := by
  have hk : kTicksMerged n ≠ kCadenceState n := by simp only [kTicksMerged, kCadenceState]; omega
  rw [s.tick_eq inst h]
  cases hp : (s.part n).seq.pendTick <;> simp [Ticked, hp, State.dget_dset_ne _ hk]

theorem Ticked.ticks_of_tickCounted (s : State) {n : Nat} (h : s.dget (kPitchBase n) + (s.part n).seq.ticks < 2 ^ 48) :
    Ticked s (s.tickCounted n) n (s.dget (kPitchBase n) + (s.part n).seq.ticks) s.now [] := s.tick_ticked s.now h

theorem State.onlySched_tick (s : State) (n num inst : Nat) : OnlySched s (s.tick n num inst) := by
  by_cases h : num < 2 ^ 48
  · rw [s.tick_eq inst h]
    split
    · exact ((OnlySched.refl s).modPart _ _).dset _ _
    · exact (((OnlySched.refl s).dset _ _).modPart _ _).dset _ _
  · rw [State.tick_of_end inst h]
    exact .refl s

/-- The entries that a tick of partition `n` writes are no entries of another partition. -/
theorem merged_notMem_tickKeys {n m : Nat} (h : m ≠ n) : kTicksMerged n ∉ tickKeys m := by
  simp only [tickKeys, kTicksMerged, kCadenceState, kPitchBase, kQuadCounts, kQuadMode, kCadenceSource, kPeriod, List.mem_cons, List.not_mem_nil, or_false]
  omega
theorem cadence_notMem_tickKeys {n m : Nat} (hn : n < 8) (hm : m < 8) (h : m ≠ n) : kCadenceState n ∉ tickKeys m := by
  simp only [tickKeys, kTicksMerged, kCadenceState, kPitchBase, kQuadCounts, kQuadMode, kCadenceSource, kPeriod, List.mem_cons, List.not_mem_nil, or_false]
  omega

theorem State.alike_tick (s : State) {n m : Nat} (num inst : Nat) (hn : n < 8) (hm : m < 8) (h : m ≠ n) : Alike m s (s.tick n num inst) := by
  by_cases hnum : num < 2 ^ 48
  · rw [s.tick_eq inst hnum]
    refine Alike.trans (.trans ?_ (.modPart_of_ne h _ _)) (.dset_of_notMem (cadence_notMem_tickKeys hn hm h) _ _)
    split
    · exact .refl m s
    · exact .dset_of_notMem (merged_notMem_tickKeys h) _ _
  · rw [State.tick_of_end inst hnum]
    exact .refl m s

/-- A tick writes no other entry than TICKS_MERGED and CADENCE_STATE of its partition. -/
theorem State.dget_tick (s : State) {n num inst k : Nat} (hm : k ≠ kTicksMerged n) (hc : k ≠ kCadenceState n) :
    (s.tick n num inst).dget k = s.dget k := by
  by_cases hnum : num < 2 ^ 48
  · rw [s.tick_eq inst hnum, State.dget_dset_ne _ hc]
    split
    · rfl
    · exact State.dget_dadd_ne _ hm _
  · rw [State.tick_of_end inst hnum]

theorem State.part_tick_of_ne (s : State) {n m : Nat} (num inst : Nat) (h : m ≠ n) : (s.tick n num inst).part m = s.part m := by
  by_cases hnum : num < 2 ^ 48
  · rw [s.tick_eq inst hnum, State.part_dset, State.part_modPart_ne _ h]
    split <;> rfl
  · rw [State.tick_of_end inst hnum]

/-! ### TSN_TICK (R32, R34) -/

/-- The ticks that a re-anchor skips, and the one that waits, are merged with the tick that comes. -/
theorem State.passOver_ticked (s : State) {n num : Nat} (gone : List Nat) (inst : Nat) (h : num < 2 ^ 48) :
    Ticked s ((s.passOver n gone).tick n num inst) n num inst gone := by
  by_cases hg : gone = []
  · subst hg
    exact s.tick_ticked inst h
  · have hk : kTicksMerged n ≠ kCadenceState n := by simp only [kTicksMerged, kCadenceState]; omega
    rw [State.tick_eq _ inst h]
    cases hp : (s.part n).seq.pendTick <;>
      simp [State.passOver, Ticked, hg, hp, State.dget_dset_ne _ hk, Nat.add_comm]

theorem State.passOver_part_of_ne (s : State) {n m : Nat} (gone : List Nat) (h : m ≠ n) : (s.passOver n gone).part m = s.part m := by
  rw [State.passOver]
  split
  · rfl
  · exact State.part_modPart_ne _ h _
theorem State.onlySched_passOver (s : State) (n : Nat) (gone : List Nat) : OnlySched s (s.passOver n gone) := by
  rw [State.passOver]
  split
  · exact .refl s
  · exact ((OnlySched.refl s).dset _ _).modPart _ _
theorem State.slew_tick (s : State) (n num inst : Nat) : ((s.tick n num inst).part n).seq.slew = (s.part n).seq.slew := by
  by_cases hnum : num < 2 ^ 48
  · rw [s.tick_eq inst hnum]
    split <;> simp
  · rw [State.tick_of_end inst hnum]
theorem State.slew_passOver (s : State) (n : Nat) (gone : List Nat) : ((s.passOver n gone).part n).seq.slew = (s.part n).seq.slew := by
  rw [State.passOver]
  split <;> simp
theorem State.now_passOver (s : State) (n : Nat) (gone : List Nat) : (s.passOver n gone).now = s.now := by
  rw [State.passOver]
  split <;> rfl
theorem State.clk_tick (s : State) (n num inst : Nat) : (s.tick n num inst).clk = s.clk := by
  by_cases hnum : num < 2 ^ 48
  · rw [s.tick_eq inst hnum]
    split <;> rfl
  · rw [State.tick_of_end inst hnum]
theorem State.clk_passOver (s : State) (n : Nat) (gone : List Nat) : (s.passOver n gone).clk = s.clk := by
  rw [State.passOver]
  split <;> rfl

theorem State.slewStep_of_zero {n : Nat} (h : (s.part n).seq.slew = 0) : s.slewStep n = s := by
  rw [State.slewStep, if_pos h]
/-- Slewing changes the offset of its partition and the count of free values alone. -/
theorem State.slewStep_cases (s : State) (n : Nat) : s.slewStep n = s ∨ ∃ c d, s.slewStep n =
    (s.modClk (fun k => { k with free := c })).modPart n (fun p => { p with seq := { p.seq with slew := d } }) := by
  rw [State.slewStep]
  split
  · exact .inl rfl
  · exact .inr ⟨_, _, rfl⟩

/-- What TSN_TICK leaves of its partition, slewing leaves too. -/
theorem Ticked.slewStep {a u : State} {n num inst : Nat} {gone : List Nat} (h : Ticked a u n num inst gone) :
    Ticked a (u.slewStep n) n num inst gone := by
  obtain e | ⟨c, d, e⟩ := u.slewStep_cases n
  · rwa [e]
  · rw [e]
    simpa [Ticked] using h
theorem State.slewStep_part_of_ne (s : State) {n m : Nat} (h : m ≠ n) : (s.slewStep n).part m = s.part m := by
  obtain e | ⟨c, d, e⟩ := s.slewStep_cases n
  · rw [e]
  · rw [e, State.part_modPart_ne _ h, State.part_modClk]
theorem State.onlySched_slewStep (s : State) (n : Nat) : OnlySched s (s.slewStep n) := by
  obtain e | ⟨c, d, e⟩ := s.slewStep_cases n
  · rw [e]
    exact .refl s
  · rw [e]
    exact ((OnlySched.refl s).modClk _).modPart _ _
/-- Slewing leaves local time and the synchronised time. -/
theorem State.slewStep_clock (s : State) (n : Nat) : (s.slewStep n).clk.now = s.clk.now ∧ (s.slewStep n).clk.tsn = s.clk.tsn := by
  obtain e | ⟨c, d, e⟩ := s.slewStep_cases n <;> rw [e] <;> exact ⟨rfl, rfl⟩

/-- TSN_TICK `k` at an instant of its schedule, `late` ns after that of the tick (R32). -/
structure TickDue (a : State) (n k late : Nat) : Prop where
  instant : a.schedNow n - ((a.dget (kOriginTime n) + k * a.periodNs n : Nat) : Int) = late
  bound : n ∈ a.bound 1
  small : k < 2 ^ 48
  before : late < a.periodNs n
  first : lastTickNo (a.part n).seq = none → (a.part n).seq.enabledAt + 50000 + late ≤ a.now
  follows : ∀ j, lastTickNo (a.part n).seq = some j → j < k

theorem exec_tsnTick {n k t late : Nat} (h : TickDue (s.at t) n k late) : exec (.tsnTick n k t) s = .next
    ((((s.at t).passOver n (skipped (lastTickNo ((s.at t).part n).seq) k)).tick n k ((s.at t).now - late)).slewStep n) := by
  show execTsnTick n k t s = _
  simp only [execTsnTick, h.instant, Int.toNat_natCast, pitchEnd, State.now_passOver]
  rw [if_pos]
  simp only [List.contains_iff_mem.2 h.bound, h.small, Int.natCast_nonneg, Int.ofNat_lt.2 h.before, decide_true, Bool.true_and]
  split
  · exact decide_eq_true (h.follows _ ‹_›)
  · exact decide_eq_true (h.first ‹_›)

/-- TSN_TICK: the tick waits, and the ones that it passes over are merged with it (R32, R34). -/
theorem tsnTick_ticks {n k t late : Nat} (h : TickDue (s.at t) n k late) : ∃ u, exec (.tsnTick n k t) s = .next u ∧
    Ticked (s.at t) u n k ((s.at t).now - late) (skipped (lastTickNo ((s.at t).part n).seq) k) ∧
    (∀ m, m ≠ n → u.part m = (s.at t).part m) ∧ (((s.at t).part n).seq.slew = 0 → u.clk = (s.at t).clk) ∧ u.clk.now = (s.at t).clk.now ∧
    u.clk.tsn = (s.at t).clk.tsn ∧ OnlySched (s.at t) u := by
  refine ⟨_, exec_tsnTick h, (State.passOver_ticked _ _ _ h.small).slewStep, fun m hm => ?_, fun h0 => ?_, ?_, ?_, ?_⟩
  · rw [State.slewStep_part_of_ne _ hm, State.part_tick_of_ne _ _ _ hm, State.passOver_part_of_ne _ _ hm]
  · rw [State.slewStep_of_zero, State.clk_tick, State.clk_passOver]
    rw [State.slew_tick, State.slew_passOver, h0]
  · rw [(State.slewStep_clock _ n).1, State.clk_tick, State.clk_passOver]
  · rw [(State.slewStep_clock _ n).2, State.clk_tick, State.clk_passOver]
  · exact ((State.onlySched_passOver _ n _).trans (State.onlySched_tick _ _ _ _)).trans (State.onlySched_slewStep _ _)

/-! ### CADENCE_IN_EDGE (R35) -/

/-- What a counted tick does to its partition (Table 2.1): the tick waits, unless its number has passed the last one (R46). -/
def CountedTick (n : Nat) (a u : State) : Prop :=
  if a.dget (kPitchBase n) + (a.part n).seq.ticks < 2 ^ 48 then
    Ticked a u n (a.dget (kPitchBase n) + (a.part n).seq.ticks) a.now [] else u.part n = a.part n

theorem CountedTick.congr {n : Nat} {a b u v : State} (h : Alike n a b) (k : Alike n u v) (c : CountedTick n a u) : CountedTick n b v := by
  unfold CountedTick at *
  rw [h.base, h.part, h.now, k.part]
  by_cases hn : a.dget (kPitchBase n) + (a.part n).seq.ticks < 2 ^ 48
  · rw [if_pos hn] at c ⊢
    exact c.congr h k
  · rwa [if_neg hn] at c ⊢

theorem State.tickCounted_counted (s : State) (n : Nat) : CountedTick n s (s.tickCounted n) := by
  unfold CountedTick
  split
  · exact s.tick_ticked s.now ‹_›
  · rw [State.tickCounted, State.tick_of_end _ ‹_›]

theorem State.alike_tickCounted (s : State) (n m : Nat) (hn : n < 8) (hm : m < 8) (h : m ≠ n) : Alike m s (s.tickCounted n) :=
  s.alike_tick _ _ hn hm h

theorem State.bound_lt {src n : Nat} (h : n ∈ s.bound src) : n < 8 := (State.mem_bound.1 h).1
theorem State.bound_nodup (s : State) (src : Nat) : (s.bound src).Nodup := List.nodup_range.filter _

/-- A tick of each partition bound to a source is a counted tick of those and leaves the others. -/
theorem each_tickCounted_bound (s : State) {src n : Nat} (h : n ∈ s.bound src) : CountedTick n s (s.each (s.bound src) State.tickCounted) :=
  each_spec State.alike_tickCounted (fun s n _ => s.tickCounted_counted n) CountedTick.congr (fun _ => State.bound_lt) (s.bound_nodup src) h s
theorem each_tickCounted_part (s : State) {l : List Nat} {n : Nat} (h : n ∉ l) : (s.each l State.tickCounted).part n = s.part n :=
  each_part (fun s _ _ h => s.part_tick_of_ne _ _ h) h s

theorem onlySched_each_tickCounted (s : State) (l : List Nat) : OnlySched s (s.each l State.tickCounted) :=
  OnlySched.each (fun s n => s.onlySched_tick n _ _) l s

/-- The edge accepted and noted, before the partitions bound to CADENCE_IN tick. -/
def State.cinTaken (a : State) : State :=
  ((a.modClk (fun c => { c with cinAt := some a.now })).dadd64 kCinCount 1).dset kCinLastTime a.tsnNow

theorem exec_cadenceInEdge {rising : Bool} {t : Nat} (hr : rising = true ↔ (s.at t).dget kCinEdge = 0)
    (hi : ∀ i, (s.at t).clk.cinAt = some i → i + (s.at t).dget kCinMinInterval * 1000 ≤ (s.at t).now) :
    exec (.cadenceInEdge rising t) s = .next ((s.at t).cinTaken.each ((s.at t).cinTaken.bound 2) State.tickCounted) := by
  show execCadenceInEdge rising t s = _
  have hedge : rising = ((s.at t).dget kCinEdge == 0) := by rw [Bool.eq_iff_iff, hr, beq_iff_eq]
  unfold execCadenceInEdge
  extract_lets a soon
  have hsoon : soon = false := by
    dsimp only [soon]
    split
    · exact decide_eq_false (Nat.not_lt.2 (hi _ ‹_›))
    · rfl
  rw [if_neg (by simp [hedge, a]), hsoon, if_neg (by decide)]
  rfl

theorem alike_cinTaken (n : Nat) (a : State) : Alike n a a.cinTaken := by
  refine ⟨rfl, rfl, rfl, rfl, fun k hk => ?_⟩
  have hne : k ≠ kCinLastTime ∧ k ≠ kCinCount := by
    simp only [tickKeys, kTicksMerged, kCadenceState, kPitchBase, kQuadCounts, kQuadMode, kCadenceSource, kPeriod, List.mem_cons, List.not_mem_nil, or_false] at hk
    simp only [kCinLastTime, kCinCount]
    omega
  rw [State.cinTaken, State.dget_dset_ne _ hne.1, State.dget_dadd64_ne _ hne.2, State.dget_modClk]

/-- Ticks leave the entries that they do not write. -/
theorem each_tickCounted_dget (s : State) (src : Nat) {k : Nat} (h : ∀ n < 8, k ≠ kTicksMerged n ∧ k ≠ kCadenceState n) :
    (s.each (s.bound src) State.tickCounted).dget k = s.dget k :=
  each_dget (fun s n hn => s.dget_tick (h n (State.bound_lt hn)).1 (h n (State.bound_lt hn)).2) s

theorem cadenceInEdge_ticks {rising : Bool} {t : Nat} (hr : rising = true ↔ (s.at t).dget kCinEdge = 0)
    (hi : ∀ i, (s.at t).clk.cinAt = some i → i + (s.at t).dget kCinMinInterval * 1000 ≤ (s.at t).now) :
    ∃ u, exec (.cadenceInEdge rising t) s = .next u ∧ u.clk = { (s.at t).clk with cinAt := some (s.at t).now } ∧
      u.dget kCinLastTime = (s.at t).tsnNow ∧ u.dget kCinCount = wrapAdd 64 ((s.at t).dget kCinCount) 1 ∧
      (∀ n ∈ (s.at t).bound 2, CountedTick n (s.at t) u) ∧ (∀ n ∉ (s.at t).bound 2, u.part n = (s.at t).part n) ∧ OnlySched (s.at t) u := by
  have hlast : ∀ n < 8, kCinLastTime ≠ kTicksMerged n ∧ kCinLastTime ≠ kCadenceState n := by
    simp only [kCinLastTime, kTicksMerged, kCadenceState]
    omega
  have hcount : ∀ n < 8, kCinCount ≠ kTicksMerged n ∧ kCinCount ≠ kCadenceState n := by
    simp only [kCinCount, kTicksMerged, kCadenceState]
    omega
  have hb : ∀ n, n ∈ (s.at t).cinTaken.bound 2 ↔ n ∈ (s.at t).bound 2 := fun n => (alike_cinTaken n (s.at t)).mem_bound 2
  refine ⟨_, exec_cadenceInEdge hr hi, ?_, ?_, ?_, fun n hn => ?_, fun n hn => ?_, ?_⟩
  · exact each_clk (fun s n => s.clk_tick n _ _) _ _
  · rw [each_tickCounted_dget _ 2 hlast, State.cinTaken, State.dget_dset_self]
  · rw [each_tickCounted_dget _ 2 hcount, State.cinTaken, State.dget_dset_ne _ (by decide), State.dget_dadd64_self, State.dget_modClk]
  · exact (each_tickCounted_bound _ ((hb n).2 hn)).congr (alike_cinTaken n (s.at t)).symm (.refl n _)
  · exact each_tickCounted_part _ (mt (hb n).1 hn)
  · exact (((((OnlySched.refl _).modClk _).dset _ _).dset _ _)).trans (onlySched_each_tickCounted _ _)

theorem cadenceInEdge_rejected {rising : Bool} {t i : Nat} (hr : rising = true ↔ (s.at t).dget kCinEdge = 0)
    (hi : (s.at t).clk.cinAt = some i) (hs : (s.at t).now < i + (s.at t).dget kCinMinInterval * 1000) :
    exec (.cadenceInEdge rising t) s = .next ((s.at t).dadd kCinRejected 1) := by
  have hedge : rising = ((s.at t).dget kCinEdge == 0) := by rw [Bool.eq_iff_iff, hr, beq_iff_eq]
  show execCadenceInEdge rising t s = _
  simp only [execCadenceInEdge, hi, decide_eq_true hs, if_true]
  rw [if_neg (by simp [hedge])]

/-! ### QUAD_TRANSITION (R36, R37) -/

/-- Has the position reached the next threshold of partition `n` (R37)? -/
abbrev State.passed (s : State) (n : Nat) : Prop :=
  (s.part n).seq.quadP0 + ((s.part n).seq.quadJ * s.dget (kQuadCounts n) : Nat) ≤ s.clk.quadExt
/-- Does a legal count, with the position that it leads to in `s`, tick partition `n` (R37)? -/
abbrev State.quadTicks (s : State) (n : Nat) : Prop :=
  if s.dget kQuadMode = 0 then s.passed n else s.dget (kQuadCounts n) ≤ (s.part n).seq.quadAbs + 1

/-- A legal count is noted in the sequencer of partition `n` (R37): the threshold that it passes, and in ABSOLUTE the count. -/
structure QuadNoted (n : Nat) (s m : State) : Prop where
  dict : m.dict = s.dict
  clk : m.clk = s.clk
  others : ∀ k, k ≠ n → m.part k = s.part k
  part : m.part n = { s.part n with seq := { (s.part n).seq with
    quadJ := if s.passed n then (s.part n).seq.quadJ + 1 else (s.part n).seq.quadJ
    quadAbs := if s.dget kQuadMode = 0 then (s.part n).seq.quadAbs else if s.quadTicks n then 0 else (s.part n).seq.quadAbs + 1 } }
  only : OnlySched s m

/-- The threshold that the position passes is the last one passed. -/
theorem State.passedNoted (s : State) (n : Nat) :
    let m := if s.passed n then s.modPart n (fun p => { p with seq := { p.seq with quadJ := p.seq.quadJ + 1 } }) else s
    m.dict = s.dict ∧ m.clk = s.clk ∧ (∀ k, k ≠ n → m.part k = s.part k) ∧
      m.part n = { s.part n with seq := { (s.part n).seq with quadJ := if s.passed n then (s.part n).seq.quadJ + 1 else (s.part n).seq.quadJ } } ∧
      OnlySched s m := by
  by_cases h : s.passed n
  · simp only [if_pos h]
    exact ⟨rfl, rfl, fun k hk => s.part_modPart_ne hk _, s.part_modPart_self n _, (OnlySched.refl s).modPart n _⟩
  · simpa only [if_neg h, implies_true, true_and] using OnlySched.refl s

/-- A legal count is noted, and ticks the partition when it must. -/
theorem State.quadTick_cases (s : State) (n : Nat) :
    ∃ m, QuadNoted n s m ∧ s.quadTick n = if s.quadTicks n then m.tickCounted n else m := by
  obtain ⟨hdict, hclk, hothers, hpart, honly⟩ := s.passedNoted n
  simp only [State.quadTick, decide_eq_true_eq]
  generalize hm : (if s.passed n then s.modPart n (fun p => { p with seq := { p.seq with quadJ := p.seq.quadJ + 1 } }) else s) = m
    at hdict hclk hothers hpart honly ⊢
  have hmode : m.dget kQuadMode = s.dget kQuadMode := by rw [State.dget, hdict]; rfl
  rw [hmode]
  by_cases h0 : s.dget kQuadMode = 0
  · refine ⟨m, ⟨hdict, hclk, hothers, ?_, honly⟩, ?_⟩
    · simpa [h0] using hpart
    · simp only [h0, State.quadTicks, if_true]
  · by_cases hc : s.dget (kQuadCounts n) ≤ (s.part n).seq.quadAbs + 1
    · refine ⟨m.modPart n (fun p => { p with seq := { p.seq with quadAbs := 0 } }),
        ⟨hdict, hclk, fun k hk => (m.part_modPart_ne hk _).trans (hothers k hk), ?_, honly.modPart n _⟩, ?_⟩
      · have ht : s.quadTicks n := by rwa [State.quadTicks, if_neg h0]
        simp [hpart, h0, ht]
      · simp only [h0, hc, State.quadTicks, if_false, if_true]
    · refine ⟨m.modPart n (fun p => { p with seq := { p.seq with quadAbs := p.seq.quadAbs + 1 } }),
        ⟨hdict, hclk, fun k hk => (m.part_modPart_ne hk _).trans (hothers k hk), ?_, honly.modPart n _⟩, ?_⟩
      · have ht : ¬ s.quadTicks n := by rwa [State.quadTicks, if_neg h0]
        simp [hpart, h0, ht]
      · simp only [h0, hc, State.quadTicks, if_false]

theorem QuadNoted.dget {n : Nat} {s m : State} (h : QuadNoted n s m) (k : Nat) : m.dget k = s.dget k := by rw [State.dget, h.dict, State.dget]

theorem QuadNoted.ticked {n num inst : Nat} {s m u : State} (h : QuadNoted n s m) (t : Ticked m u n num inst []) : Ticked s u n num inst [] := by
  have hnow : m.now = s.now := congrArg Clock.now h.clk
  simpa only [Ticked, h.part, h.dget, hnow] using t

/-- What a legal count does to a partition bound to QUADRATURE (R37), in the state `a` in which the position has moved. -/
structure QuadTicked (n : Nat) (a u : State) : Prop where
  p0 : (u.part n).seq.quadP0 = (a.part n).seq.quadP0
  j : (u.part n).seq.quadJ = if a.passed n then (a.part n).seq.quadJ + 1 else (a.part n).seq.quadJ
  abs : (u.part n).seq.quadAbs =
    if a.dget kQuadMode = 0 then (a.part n).seq.quadAbs else if a.quadTicks n then 0 else (a.part n).seq.quadAbs + 1
  tick : a.dget (kPitchBase n) + (a.part n).seq.ticks < 2 ^ 48 → a.quadTicks n →
    Ticked a u n (a.dget (kPitchBase n) + (a.part n).seq.ticks) a.now []
  stay : ¬ a.quadTicks n → (u.part n).seq.pendTick = (a.part n).seq.pendTick ∧ (u.part n).seq.ticks = (a.part n).seq.ticks

theorem Alike.passed {n : Nat} (h : Alike n s u) : u.passed n ↔ s.passed n := by simp only [State.passed, h.part, h.counts, h.ext]
theorem Alike.quadTicks {n : Nat} (h : Alike n s u) : u.quadTicks n ↔ s.quadTicks n := by
  simp only [State.quadTicks, h.passed, h.part, h.counts, h.mode]

theorem QuadTicked.congr {n : Nat} {a b u v : State} (h : Alike n a b) (k : Alike n u v) (c : QuadTicked n a u) : QuadTicked n b v where
  p0 := by rw [k.part, h.part, c.p0]
  j := by simp only [k.part, h.passed, h.part, c.j]
  abs := by simp only [k.part, h.quadTicks, h.part, h.mode, c.abs]
  tick hn ht := by
    rw [h.base, h.part] at hn ⊢
    rw [h.now]
    exact (c.tick hn (h.quadTicks.1 ht)).congr h k
  stay ht := by
    rw [k.part, h.part]
    exact c.stay (mt h.quadTicks.2 ht)

/-- A tick leaves the places of the partition in the quadrature cycle. -/
theorem State.quad_tick (s : State) (n num inst : Nat) : let q := ((s.tick n num inst).part n).seq
    q.quadP0 = (s.part n).seq.quadP0 ∧ q.quadJ = (s.part n).seq.quadJ ∧ q.quadAbs = (s.part n).seq.quadAbs := by
  by_cases hnum : num < 2 ^ 48
  · rw [s.tick_eq inst hnum]
    split <;> simp
  · rw [State.tick_of_end inst hnum]
    exact ⟨rfl, rfl, rfl⟩

theorem State.quadTick_ticked (s : State) (n : Nat) : QuadTicked n s (s.quadTick n) := by
  obtain ⟨m, hm, he⟩ := s.quadTick_cases n
  have hpart := hm.part
  rw [he]
  by_cases ht : s.quadTicks n
  · rw [if_pos ht]
    obtain ⟨hp0, hj, habs⟩ := m.quad_tick n (m.dget (kPitchBase n) + (m.part n).seq.ticks) m.now
    have hnow : m.now = s.now := congrArg Clock.now hm.clk
    refine ⟨hp0.trans (by rw [hpart]), hj.trans (by rw [hpart]), habs.trans (by rw [hpart]), fun hn _ => ?_, fun h => absurd ht h⟩
    have hb : m.dget (kPitchBase n) + (m.part n).seq.ticks = s.dget (kPitchBase n) + (s.part n).seq.ticks := by rw [hpart, hm.dget]
    have := Ticked.ticks_of_tickCounted m (hb ▸ hn)
    rw [hb, hnow] at this
    exact hm.ticked this
  · rw [if_neg ht]
    exact ⟨by rw [hpart], by rw [hpart], by rw [hpart], fun _ h => absurd h ht, fun _ => by rw [hpart]; exact ⟨rfl, rfl⟩⟩

theorem State.quadTick_part_of_ne (s : State) (n m : Nat) (h : m ≠ n) : (s.quadTick n).part m = s.part m := by
  obtain ⟨_, hk, he⟩ := s.quadTick_cases n
  rw [he]
  split
  · exact (State.part_tick_of_ne _ _ _ h).trans (hk.others m h)
  · exact hk.others m h
theorem State.clk_quadTick (s : State) (n : Nat) : (s.quadTick n).clk = s.clk := by
  obtain ⟨m, hm, he⟩ := s.quadTick_cases n
  rw [he]
  split
  · exact (State.clk_tick _ _ _ _).trans hm.clk
  · exact hm.clk
theorem State.dget_quadTick (s : State) {n k : Nat} (hm : k ≠ kTicksMerged n) (hc : k ≠ kCadenceState n) :
    (s.quadTick n).dget k = s.dget k := by
  obtain ⟨_, h, he⟩ := s.quadTick_cases n
  rw [he]
  split
  · exact (State.dget_tick _ hm hc).trans (h.dget k)
  · exact h.dget k
theorem State.onlySched_quadTick (s : State) (n : Nat) : OnlySched s (s.quadTick n) := by
  obtain ⟨m, h, he⟩ := s.quadTick_cases n
  rw [he]
  split
  · exact h.only.trans (State.onlySched_tick _ _ _ _)
  · exact h.only
theorem State.alike_quadTick (s : State) (n m : Nat) (hn : n < 8) (hm : m < 8) (h : m ≠ n) : Alike m s (s.quadTick n) where
  part := s.quadTick_part_of_ne n m h
  now := congrArg Clock.now (s.clk_quadTick n)
  ext := congrArg Clock.quadExt (s.clk_quadTick n)
  held := (s.onlySched_quadTick n).heldVals
  keys _ hk := s.dget_quadTick (ne_of_mem_of_not_mem hk (merged_notMem_tickKeys h)) (ne_of_mem_of_not_mem hk (cadence_notMem_tickKeys hn hm h))

/-- How far the two phases have moved round the quadrature cycle (R36). -/
abbrev State.quadMove (a : State) (x y : Bool) : Nat := (quadState x y + 4 - quadState a.clk.phaseA a.clk.phaseB) % 4
/-- Is the transition a legal count (R36)? -/
abbrev State.quadLegal (a : State) (x y : Bool) : Prop := (a.quadMove x y = 1 ∨ a.quadMove x y = 3) ∧ a.quadFast = false
/-- The two phases noted, with the instant of the last edge. -/
def State.quadSeen (a : State) (x y : Bool) : State :=
  a.modClk (fun c => { c with phaseA := x, phaseB := y, quadAt := if a.quadMove x y = 0 then c.quadAt else some a.now })
/-- The position moved by a legal count, and shown in QUAD_POSITION (R37). -/
def State.quadCounted (a : State) (x y : Bool) : State :=
  let b := (a.quadSeen x y).modClk (fun c => { c with quadExt := c.quadExt + (if a.quadMove x y = 1 then 1 else -1) })
  b.dset kQuadPosition (ofInt 32 b.clk.quadExt)

theorem exec_quadTransition {t : Nat} {x y : Bool} : exec (.quadTransition x y t) s = .next (
    if (s.at t).quadMove x y = 0 then (s.at t).quadSeen x y
    else if (s.at t).quadLegal x y then ((s.at t).quadCounted x y).each (((s.at t).quadCounted x y).bound 3) State.quadTick
    else ((s.at t).quadSeen x y).dadd kQuadErrors 1) := by
  show execQuadTransition x y t s = _
  unfold execQuadTransition
  extract_lets a d fast b c e
  by_cases h0 : d = 0
  · rw [if_pos h0, if_pos (show a.quadMove x y = 0 from h0)]
    rfl
  · rw [if_neg h0, if_neg (show ¬ a.quadMove x y = 0 from h0)]
    have hd : d < 4 := Nat.mod_lt _ (by decide)
    have hlegal : (decide (d = 2) || fast) = true ↔ ¬ a.quadLegal x y := by
      have hm : a.quadMove x y = d := rfl
      cases hf : a.quadFast <;> simp [State.quadLegal, hm, hf, fast]
      omega
    by_cases hl : a.quadLegal x y
    · rw [if_neg (by rw [hlegal]; exact not_not.2 hl), if_pos (show (s.at t).quadLegal x y from hl)]
      rfl
    · rw [if_pos (hlegal.2 hl), if_neg (show ¬ (s.at t).quadLegal x y from hl)]
      rfl

theorem State.quadCounted_dget (a : State) {x y : Bool} {k : Nat} (h : k ≠ kQuadPosition) : (a.quadCounted x y).dget k = a.dget k :=
  State.dget_dset_ne _ h _
theorem State.quadCounted_source (a : State) (x y : Bool) (n : Nat) : (a.quadCounted x y).dget (kCadenceSource n) = a.dget (kCadenceSource n) :=
  a.quadCounted_dget (by simp only [kCadenceSource, kQuadPosition]; omega)
theorem State.quadCounted_counts (a : State) (x y : Bool) (n : Nat) : (a.quadCounted x y).dget (kQuadCounts n) = a.dget (kQuadCounts n) :=
  a.quadCounted_dget (by simp only [kQuadCounts, kQuadPosition]; omega)
theorem State.quadCounted_base (a : State) (x y : Bool) (n : Nat) : (a.quadCounted x y).dget (kPitchBase n) = a.dget (kPitchBase n) :=
  a.quadCounted_dget (by simp only [kPitchBase, kQuadPosition]; omega)
theorem State.quadCounted_mode (a : State) (x y : Bool) : (a.quadCounted x y).dget kQuadMode = a.dget kQuadMode :=
  a.quadCounted_dget (by decide)
theorem State.quadCounted_bound (a : State) {x y : Bool} {n : Nat} : n ∈ (a.quadCounted x y).bound 3 ↔ n ∈ a.bound 3 := by
  rw [State.mem_bound, State.mem_bound, State.quadCounted_source]
  rfl

/-- A legal count: the position moves, and each partition bound to QUADRATURE takes note of it (R36, R37). -/
theorem quadTransition_legal {t : Nat} {x y : Bool} (h : (s.at t).quadLegal x y) : ∃ u, exec (.quadTransition x y t) s = .next u ∧
    u.clk = ((s.at t).quadCounted x y).clk ∧
    (∀ k, (∀ n < 8, k ≠ kTicksMerged n ∧ k ≠ kCadenceState n) → u.dget k = ((s.at t).quadCounted x y).dget k) ∧
    (∀ n ∈ (s.at t).bound 3, QuadTicked n ((s.at t).quadCounted x y) u) ∧ (∀ n ∉ (s.at t).bound 3, u.part n = (s.at t).part n) ∧
    OnlySched (s.at t) u := by
  have h0 : (s.at t).quadMove x y ≠ 0 := by rcases h.1 with e | e <;> rw [e] <;> decide
  refine ⟨_, exec_quadTransition, ?_, ?_, ?_, ?_, ?_⟩ <;> rw [if_neg h0, if_pos h]
  · exact each_clk State.clk_quadTick _ _
  · exact fun k hk => each_dget (fun s n hn => s.dget_quadTick (hk n (State.bound_lt hn)).1 (hk n (State.bound_lt hn)).2) _
  · exact fun n hn => each_spec State.alike_quadTick (fun s n _ => s.quadTick_ticked n) QuadTicked.congr (fun _ => State.bound_lt)
      (State.bound_nodup _ _) ((s.at t).quadCounted_bound.2 hn) _
  · exact fun n hn => each_part State.quadTick_part_of_ne (mt (s.at t).quadCounted_bound.1 hn) _
  · exact ((((OnlySched.refl _).modClk _).modClk _).dset _ _).trans (OnlySched.each State.onlySched_quadTick _ _)

/-- A transition that is no legal count is noted, and counted unless no phase has moved (R36). -/
theorem quadTransition_illegal {t : Nat} {x y : Bool} (h : ¬ (s.at t).quadLegal x y) : exec (.quadTransition x y t) s = .next (
    if (s.at t).quadMove x y = 0 then (s.at t).quadSeen x y else ((s.at t).quadSeen x y).dadd kQuadErrors 1) := by
  rw [exec_quadTransition, if_neg h]

theorem quadTransition_ticks (t : Nat) (x y : Bool) :
    let a := s.at t
    let d := a.quadMove x y
    let pos := a.clk.quadExt + (if ¬ a.quadLegal x y then 0 else if d = 1 then 1 else -1)
    ∃ u, exec (.quadTransition x y t) s = .next u ∧
      u.clk = { a.clk with phaseA := x, phaseB := y, quadExt := pos, quadAt := if d = 0 then a.clk.quadAt else some a.now } ∧
      (a.quadLegal x y → u.dget kQuadPosition = ofInt 32 pos) ∧
      u.dget kQuadErrors = (if d = 0 ∨ a.quadLegal x y then a.dget kQuadErrors else satAdd 32 (a.dget kQuadErrors) 1) ∧
      (∀ n, n ∉ a.bound 3 ∨ ¬ a.quadLegal x y → u.part n = a.part n) ∧
      (∀ n ∈ a.bound 3, a.quadLegal x y → QuadTicked n (a.quadCounted x y) u) ∧ OnlySched a u := by
  intro a d pos
  by_cases hl : a.quadLegal x y
  · obtain ⟨u, he, hclk, hdget, hticks, hpart, honly⟩ := quadTransition_legal hl
    have hpos : (a.quadCounted x y).clk.quadExt = pos := by simp [pos, hl, State.quadCounted, State.quadSeen, State.modClk, d]
    refine ⟨u, he, ?_, fun _ => ?_, ?_, fun n hn => hpart n (hn.resolve_right (not_not.2 hl)), fun n hn _ => hticks n hn, honly⟩
    · rw [hclk, ← hpos]
      rfl
    · rw [hdget _ (by simp only [kQuadPosition, kTicksMerged, kCadenceState]; omega), ← hpos]
      exact State.dget_dset_self _ _ _
    · rw [if_pos (.inr hl), hdget _ (by simp only [kQuadErrors, kTicksMerged, kCadenceState]; omega)]
      exact State.quadCounted_dget a (by decide)
  · have hpos : pos = a.clk.quadExt := by simp [pos, hl]
    refine ⟨_, quadTransition_illegal hl, ?_, fun h => absurd h hl, ?_, fun n _ => ?_, fun n _ h => absurd h hl, ?_⟩
    · rw [hpos, apply_ite State.clk, State.dadd_clk, ite_self]
      rfl
    · by_cases h0 : d = 0
      · rw [if_pos h0, if_pos (.inl h0)]
        rfl
      · rw [if_neg h0, if_neg (by tauto)]
        exact State.dget_dadd_self _ _ _
    · split <;> rfl
    · split
      · exact (OnlySched.refl _).modClk _
      · exact ((OnlySched.refl _).modClk _).dset _ _

/-! ### PITCH_TRIGGER (R38) -/

/-- A set TRIGGER bit of partition `n`, on which the function may act: a tick, or counted where the partition is not bound to HOST_TICK. -/
def State.trigger (s : State) (n : Nat) : State :=
  if (s.bound 4).contains n then s.tickCounted n else if s.dget (kCadenceSource n) = 4 then s else s.dadd kTriggerIgnored 1

theorem exec_pitchTrigger {f w t : Nat} (h : (s.at t).hostSees f = true) :
    exec (.pitchTrigger f w t) s = .next ((s.at t).each ((maskList 8 w).filter (mayTrigger f)) State.trigger) := by
  show execPitchTrigger f w t s = _
  simp only [execPitchTrigger, h, Bool.not_true, Bool.false_eq_true, if_false]
  rfl

theorem State.trigger_of_bound {n : Nat} (h : n ∈ s.bound 4) : s.trigger n = s.tickCounted n := if_pos (List.contains_iff_mem.2 h)
theorem State.trigger_of_not_bound {n : Nat} (h : n ∉ s.bound 4) :
    s.trigger n = if s.dget (kCadenceSource n) = 4 then s else s.dadd kTriggerIgnored 1 := if_neg (mt List.contains_iff_mem.1 h)

/-- What a TRIGGER bit does to its partition. -/
def Triggered (n : Nat) (a u : State) : Prop := (n ∈ a.bound 4 → CountedTick n a u) ∧ (n ∉ a.bound 4 → u.part n = a.part n)

theorem Triggered.congr {n : Nat} {a b u v : State} (h : Alike n a b) (k : Alike n u v) (c : Triggered n a u) : Triggered n b v :=
  ⟨fun hn => (c.1 ((h.mem_bound 4).1 hn)).congr h k, fun hn => by rw [k.part, h.part]; exact c.2 (mt (h.mem_bound 4).2 hn)⟩

theorem State.trigger_triggered (s : State) (n : Nat) : Triggered n s (s.trigger n) := by
  refine ⟨fun hn => ?_, fun hn => ?_⟩
  · rw [State.trigger_of_bound hn]
    exact s.tickCounted_counted n
  · rw [State.trigger_of_not_bound hn]
    split <;> rfl

theorem ignored_notMem_tickKeys {m : Nat} : kTriggerIgnored ∉ tickKeys m := by
  simp only [tickKeys, kTicksMerged, kCadenceState, kPitchBase, kQuadCounts, kQuadMode, kCadenceSource, kPeriod, kTriggerIgnored, List.mem_cons, List.not_mem_nil, or_false]
  omega

theorem State.alike_trigger (s : State) (n m : Nat) (hn : n < 8) (hm : m < 8) (h : m ≠ n) : Alike m s (s.trigger n) := by
  by_cases hb : n ∈ s.bound 4
  · rw [State.trigger_of_bound hb]
    exact s.alike_tickCounted n m hn hm h
  · rw [State.trigger_of_not_bound hb]
    split
    · exact .refl m s
    · exact .dset_of_notMem ignored_notMem_tickKeys _ _

theorem State.trigger_part_of_ne (s : State) (n m : Nat) (h : m ≠ n) : (s.trigger n).part m = s.part m := by
  by_cases hb : n ∈ s.bound 4
  · rw [State.trigger_of_bound hb]
    exact s.part_tick_of_ne _ _ h
  · rw [State.trigger_of_not_bound hb]
    split <;> rfl

theorem State.onlySched_trigger (s : State) (n : Nat) : OnlySched s (s.trigger n) ∧ (s.trigger n).clk = s.clk := by
  by_cases hb : n ∈ s.bound 4
  · rw [State.trigger_of_bound hb]
    exact ⟨s.onlySched_tick _ _ _, s.clk_tick _ _ _⟩
  · rw [State.trigger_of_not_bound hb]
    split
    · exact ⟨.refl s, rfl⟩
    · exact ⟨(OnlySched.refl s).dset _ _, rfl⟩

/-- No TRIGGER bit changes a CADENCE_SOURCE. -/
theorem State.trigger_source (s : State) (n m : Nat) : (s.trigger n).dget (kCadenceSource m) = s.dget (kCadenceSource m) := by
  by_cases hb : n ∈ s.bound 4
  · rw [State.trigger_of_bound hb]
    exact s.dget_tick (by simp only [kCadenceSource, kTicksMerged]; omega) (by simp only [kCadenceSource, kCadenceState]; omega)
  · rw [State.trigger_of_not_bound hb]
    split
    · rfl
    · exact s.dget_dadd_ne (by simp only [kCadenceSource, kTriggerIgnored]; omega) 1

/-- A TRIGGER bit counts in TRIGGER_IGNORED where its partition is not bound to HOST_TICK. -/
theorem State.trigger_ignored (s : State) {n : Nat} (hn : n < 8) : (s.trigger n).dget kTriggerIgnored =
    if s.dget (kCadenceSource n) = 4 then s.dget kTriggerIgnored else satAdd 32 (s.dget kTriggerIgnored) 1 := by
  by_cases hb : n ∈ s.bound 4
  · rw [State.trigger_of_bound hb, if_pos (State.mem_bound.1 hb).2.2]
    exact s.dget_tick (by simp only [kTriggerIgnored, kTicksMerged]; omega) (by simp only [kTriggerIgnored, kCadenceState]; omega)
  · rw [State.trigger_of_not_bound hb]
    split
    · rfl
    · exact s.dget_dadd_self _ 1

theorem satAdd_satAdd (w a b c : Nat) : satAdd w (satAdd w a b) c = satAdd w a (b + c) := by
  simp only [satAdd]
  omega

theorem each_trigger_ignored {l : List Nat} (hl : ∀ n ∈ l, n < 8) (s : State) :
    let m := l.filter (fun n => s.dget (kCadenceSource n) != 4)
    (s.each l State.trigger).dget kTriggerIgnored = if m = [] then s.dget kTriggerIgnored else satAdd 32 (s.dget kTriggerIgnored) m.length := by
  induction l generalizing s with
  | nil => rfl
  | cons n r ih =>
    obtain ⟨hn, hr⟩ := List.forall_mem_cons.1 hl
    have ihr := ih hr (s.trigger n)
    simp only [s.trigger_source n, s.trigger_ignored hn] at ihr
    refine ihr.trans ?_
    by_cases h4 : s.dget (kCadenceSource n) = 4
    · simp [h4]
    · by_cases hm : r.filter (fun n => s.dget (kCadenceSource n) != 4) = []
      · simp [h4, hm]
      · simp [h4, hm, satAdd_satAdd, Nat.add_comm]

theorem mem_trigger_list {f w n : Nat} : n ∈ (maskList 8 w).filter (mayTrigger f) ↔ n < 8 ∧ bit w n = true ∧ mayTrigger f n = true := by
  simp [maskList, bit, and_comm]

theorem trigger_list_filter (f w : Nat) (p : Nat → Bool) : ((maskList 8 w).filter (mayTrigger f)).filter p =
    (List.range 8).filter (fun n => bit w n && mayTrigger f n && p n) := by
  simp only [maskList, List.filter_filter, bit]
  exact List.filter_congr (fun n _ => by rw [Bool.and_comm, Bool.and_comm (mayTrigger f n)])

theorem pitchTrigger_ticks {f w t : Nat} (h : (s.at t).hostSees f = true) :
    let a := s.at t
    ∃ u, exec (.pitchTrigger f w t) s = .next u ∧
      (∀ n ∈ a.bound 4, bit w n = true → mayTrigger f n = true → CountedTick n a u) ∧
      (∀ n, ¬ (n ∈ a.bound 4 ∧ bit w n = true ∧ mayTrigger f n = true) → u.part n = a.part n) ∧
      (let l := (List.range 8).filter (fun n => bit w n && mayTrigger f n && a.dget (kCadenceSource n) != 4);
        u.dget kTriggerIgnored = if l = [] then a.dget kTriggerIgnored else satAdd 32 (a.dget kTriggerIgnored) l.length) ∧
      OnlySched a u ∧ u.clk = a.clk := by
  intro a
  have hl : ∀ n ∈ (maskList 8 w).filter (mayTrigger f), n < 8 := fun n hn => (mem_trigger_list.1 hn).1
  have hspec : ∀ n ∈ (maskList 8 w).filter (mayTrigger f), Triggered n a (a.each ((maskList 8 w).filter (mayTrigger f)) State.trigger) :=
    fun n hn => each_spec State.alike_trigger (fun s n _ => s.trigger_triggered n) Triggered.congr hl ((List.nodup_range.filter _).filter _) hn a
  refine ⟨_, exec_pitchTrigger h, fun n hn hw hf => ?_, fun n hn => ?_, ?_, ?_, ?_⟩
  · exact (hspec n (mem_trigger_list.2 ⟨State.bound_lt hn, hw, hf⟩)).1 hn
  · by_cases hm : n ∈ (maskList 8 w).filter (mayTrigger f)
    · exact (hspec n hm).2 (fun hb => hn ⟨hb, (mem_trigger_list.1 hm).2⟩)
    · exact each_part State.trigger_part_of_ne hm a
  · have := each_trigger_ignored hl a
    rwa [trigger_list_filter] at this
  · exact OnlySched.each (fun s n => (s.onlySched_trigger n).1) _ a
  · exact each_clk (fun s n => (s.onlySched_trigger n).2) _ a

/-! ### The statement -/

theorem CountedTick.ticked {n : Nat} {a u : State} (h : CountedTick n a u) (hn : a.dget (kPitchBase n) + (a.part n).seq.ticks < 2 ^ 48) :
    Ticked a u n (a.dget (kPitchBase n) + (a.part n).seq.ticks) a.now [] := by
  rwa [CountedTick, if_pos hn] at h
theorem CountedTick.part_eq {n : Nat} {a u : State} (h : CountedTick n a u) (hn : ¬ a.dget (kPitchBase n) + (a.part n).seq.ticks < 2 ^ 48) :
    u.part n = a.part n := by
  rwa [CountedTick, if_neg hn] at h

theorem OnlySched.of_clk (h : OnlySched s u) (k : u.clk = s.clk) : u = { s with parts := u.parts, dict := u.dict } := by
  rw [OnlySched, k] at h
  exact h

/-- In the state in which the position has moved, the condition for a tick is that of the statement. -/
theorem State.quadCounted_ticks {a : State} {x y : Bool} {n : Nat} (pos : Int)
    (hpos : (a.quadCounted x y).clk.quadExt = pos) : (a.quadCounted x y).quadTicks n ↔
    if a.dget kQuadMode = 0 then (a.part n).seq.quadP0 + ((a.part n).seq.quadJ * a.dget (kQuadCounts n) : Nat) ≤ pos
    else a.dget (kQuadCounts n) ≤ (a.part n).seq.quadAbs + 1 := by
  simp only [State.quadTicks, State.passed, State.quadCounted_mode, State.quadCounted_counts, hpos]
  rfl

theorem State.quadCounted_ext {a : State} {x y : Bool} :
    (a.quadCounted x y).clk.quadExt = a.clk.quadExt + (if a.quadMove x y = 1 then 1 else -1) := rfl

/-- What is ticked from the state in which the position has moved is ticked from the state before. -/
theorem Ticked.of_quadCounted {a u : State} {x y : Bool} {n num inst : Nat} {gone : List Nat}
    (h : Ticked (a.quadCounted x y) u n num inst gone) : Ticked a u n num inst gone := by
  have hm : (a.quadCounted x y).dget (kTicksMerged n) = a.dget (kTicksMerged n) :=
    a.quadCounted_dget (by simp only [kTicksMerged, kQuadPosition]; omega)
  rw [Ticked, hm] at h
  exact h

/-- Settles O4, source by source. -/
theorem ticksReachTheirPartitions : Obligations.TicksReachTheirPartitions := by
  unfold Obligations.TicksReachTheirPartitions
  refine ⟨fun s n k t => ?_, fun s rising t => ?_, fun s rising t i => ?_, fun s t x y => ?_, fun s f w t => ?_⟩
  · intro a late hb hk h0 hp hlast
    refine tsnTick_ticks ⟨(Int.toNat_of_nonneg h0).symm, hb, hk, (Int.toNat_lt h0).2 hp, fun h => ?_, fun j h => ?_⟩
    · rcases hlast with ⟨_, hf⟩ | ⟨j, hj, _⟩
      · exact hf
      · cases h.symm.trans hj
    · rcases hlast with ⟨hf, _⟩ | ⟨i, hi, hik⟩
      · cases h.symm.trans hf
      · cases h.symm.trans hi
        exact hik
  · intro a hr hi
    obtain ⟨u, he, hclk, hlast, hcount, hticks, hpart, honly⟩ := cadenceInEdge_ticks hr hi
    refine ⟨u, he, hclk, hlast, hcount, fun n => ?_, honly⟩
    by_cases hn : n ∈ a.bound 2
    · have hc := hticks n hn
      by_cases hs : a.dget (kPitchBase n) + (a.part n).seq.ticks < 2 ^ 48
      · exact (if_pos ⟨hn, hs⟩).mpr (hc.ticked hs)
      · exact (if_neg fun h => hs h.2).mpr (hc.part_eq hs)
    · exact (if_neg fun h => hn h.1).mpr (hpart n hn)
  · exact fun hr hi hs => cadenceInEdge_rejected hr hi hs
  · intro a d legal pos
    obtain ⟨u, he, hclk, hpos, herr, hpart, hticks, honly⟩ := quadTransition_ticks (s := s) t x y
    refine ⟨u, he, hclk, hpos, herr, hpart, fun n hn hl hs => ?_, honly⟩
    have hq := hticks n hn hl
    have hext : (a.quadCounted x y).clk.quadExt = pos := by simp only [pos, State.quadCounted_ext, not_not.2 hl, if_false]; rfl
    have hbase : (a.quadCounted x y).dget (kPitchBase n) = a.dget (kPitchBase n) := a.quadCounted_base x y n
    have hiff := State.quadCounted_ticks (n := n) pos hext
    by_cases hd : (a.quadCounted x y).quadTicks n
    · have hT := (hq.tick (by rw [hbase]; exact hs) hd).of_quadCounted
      rw [hbase] at hT
      exact (if_pos (hiff.1 hd)).mpr hT
    · exact (if_neg (mt hiff.2 hd)).mpr (hq.stay hd).1
  · intro a h
    obtain ⟨u, he, hticks, hpart, hign, honly, hclk⟩ := pitchTrigger_ticks (f := f) (w := w) h
    refine ⟨u, he, fun n => ?_, hign, honly.of_clk hclk⟩
    by_cases hn : n ∈ a.bound 4 ∧ bit w n = true ∧ mayTrigger f n = true
    · obtain ⟨hb, hw, hf⟩ := hn
      have hc := hticks n hb hw hf
      by_cases hs : a.dget (kPitchBase n) + (a.part n).seq.ticks < 2 ^ 48
      · exact (if_pos ⟨hw, hf, hb, hs⟩).mpr (hc.ticked hs)
      · exact (if_neg fun h => hs h.2.2.2).mpr (hc.part_eq hs)
    · exact (if_neg fun h => hn ⟨h.2.2.1, h.1, h.2.1⟩).mpr (hpart n hn)

end Sys2Proof.Machine
end

section
/-!
PROOFS of the statements on pitches (spec 02): synchronisation, holdover and belays (O6).
-/

namespace Sys2Proof.Machine

variable {s u v : State}

/-! ### What an emergency object leaves (R429) -/

/-- The entries that an emergency object counts in. -/
def noticeKeys : List Nat := [kEmergenciesIssued, kEmergencySuppressed, kNoticeOverflows]

/-- From `s` to `u` entries are written and emergency objects are issued, and no more than that. -/
structure Aged (s u : State) : Prop where
  only : u = { s with clk := u.clk, dict := u.dict, ports := u.ports, rel := u.rel, outbox := u.outbox }
  clk : u.clk = { s.clk with free := u.clk.free }

/-- From `s` to `u` emergency objects are issued, and no more than that. -/
structure Warned (s u : State) : Prop extends Aged s u where
  dget : ∀ k ∉ noticeKeys, u.dget k = s.dget k

theorem Aged.trans (h : Aged s u) (k : Aged u v) : Aged s v where
  only := by
    have := k.only
    rw [h.only] at this
    exact this
  clk := by
    have := k.clk
    rw [h.clk] at this
    exact this
theorem Aged.each {f : State → Nat → State} (hf : ∀ s n, Aged s (f s n)) (l : List Nat) (s : State) : Aged s (s.each l f) := by
  induction l generalizing s with
  | nil => exact ⟨rfl, rfl⟩
  | cons n r ih => exact (hf s n).trans (ih (f s n))

theorem Warned.refl (s : State) : Warned s s := ⟨⟨rfl, rfl⟩, fun _ _ => rfl⟩
theorem Warned.trans (h : Warned s u) (k : Warned u v) : Warned s v :=
  ⟨h.toAged.trans k.toAged, fun x hx => (k.dget x hx).trans (h.dget x hx)⟩
theorem Warned.parts (h : Warned s u) : u.parts = s.parts := by rw [h.only]
theorem Warned.part (h : Warned s u) (n : Nat) : u.part n = s.part n := by rw [State.part, h.parts, State.part]
theorem Aged.now (h : Aged s u) : u.clk.now = s.clk.now := by rw [h.clk]
theorem Aged.lostSaid (h : Aged s u) : u.clk.lostSaid = s.clk.lostSaid := by rw [h.clk]

theorem Warned.dadd {k : Nat} (hk : k ∈ noticeKeys) (s : State) (x : Nat) : Warned s (s.dadd k x) :=
  ⟨⟨rfl, rfl⟩, fun _ hj => s.dget_dadd_ne (ne_of_mem_of_not_mem hk hj).symm x⟩
theorem Warned.modRel (s : State) (f : Rel → Rel) : Warned s (s.modRel f) := ⟨⟨rfl, rfl⟩, fun _ _ => rfl⟩
theorem Warned.modMailbox (s : State) (k : Nat) (f : Mailbox → Mailbox) : Warned s (s.modMailbox k f) := ⟨⟨rfl, rfl⟩, fun _ _ => rfl⟩
theorem Warned.modFunc (s : State) (k : Nat) (f : Func → Func) : Warned s (s.modFunc k f) := ⟨⟨rfl, rfl⟩, fun _ _ => rfl⟩
theorem Warned.takeFree (s : State) : Warned s s.takeFree.2 := ⟨⟨rfl, rfl⟩, fun _ _ => rfl⟩
theorem Warned.outs (s : State) (l : List Output) : Warned s (s.outs l) := by
  rw [State.outs_eq]
  exact ⟨⟨rfl, rfl⟩, fun _ _ => rfl⟩
theorem Warned.each {f : State → Nat → State} (hf : ∀ s n, Warned s (f s n)) (l : List Nat) (s : State) : Warned s (s.each l f) := by
  induction l generalizing s with
  | nil => exact .refl s
  | cons n r ih => exact (hf s n).trans (ih (f s n))

theorem State.warned_raiseCause (s : State) (f b : Nat) : Warned s (s.raiseCause f b) := by
  unfold State.raiseCause
  extract_lets g a
  split
  · exact .refl s
  · split
    · exact .modFunc s f _
    · exact (Warned.modFunc s f _).trans (.outs _ _)
theorem State.warned_queueNotice (s : State) (msg : Bytes) (k : Nat) : Warned s (s.queueNotice msg k) := by
  unfold State.queueNotice
  extract_lets m
  split
  · exact .refl s
  · split
    · exact .modMailbox s k _
    · exact (Warned.modMailbox s k _).trans (.dadd (by decide) _ _)
theorem State.warned_issue (s : State) (ecode sev n detail : Nat) : Warned s (s.issue ecode sev n detail) := by
  unfold State.issue
  extract_lets near body msg a b c
  split
  · exact .dadd (by decide) s _
  · have hc : Warned s c := (((Warned.modRel s _).trans (.dadd (by decide) _ _)).trans
      (.each (fun s k => s.warned_queueNotice msg k) _ _)).trans (.each (fun s f => s.warned_raiseCause f 2) _ _)
    split
    · exact hc
    · exact hc.trans (.outs _ _)
theorem State.warned_emergency (s : State) (ecode sev n detail : Nat) : Warned s (s.emergency ecode sev n detail) := by
  unfold State.emergency
  split
  · exact s.warned_issue ecode sev n detail
  · exact .modRel s _
theorem State.warned_warn (s : State) (ecode n detail : Nat) : Warned s (s.warn ecode n detail) :=
  (Warned.takeFree s).trans (State.warned_emergency _ _ _ _ _)

/-! ### SYNC_MESSAGE (R34, R341, R342) -/

theorem State.untick_part_of_ne (s : State) {n m : Nat} (h : m ≠ n) : (s.untick n).part m = s.part m := State.part_modPart_ne _ h _
theorem State.untick_slew (s : State) (n : Nat) : ((s.untick n).part n).seq.slew = (s.part n).seq.slew := by
  rw [State.untick, State.part_modPart_self]
  split <;> rfl

/-- The offset that a synchronisation leaves a partition to slew (R34). -/
def Retimed (n : Nat) (offset : Int) (a u : State) : Prop :=
  (u.part n).seq.slew =
    if a.periodNs n < 2 * ((a.part n).seq.slew + offset).natAbs then 0 else (a.part n).seq.slew + offset

theorem Retimed.congr {n : Nat} {offset : Int} {a b u v : State} (h : Alike n a b) (k : Alike n u v) (r : Retimed n offset a u) :
    Retimed n offset b v := by
  simpa only [Retimed, h.part, h.period, k.part] using r

theorem State.retime_retimed (s : State) (n : Nat) (offset : Int) : Retimed n offset s (s.retime n offset) := by
  unfold Retimed State.retime
  extract_lets d a
  split
  · split
    · rw [State.untick_slew, State.part_dadd, State.part_modPart_self]
    · rw [State.part_dadd, State.part_modPart_self]
  · rw [State.part_modPart_self]

/-- A retiming touches the sequencer of its partition and TIME_STEPS alone. -/
theorem State.retime_frame (s : State) (n : Nat) (offset : Int) : OnlySched s (s.retime n offset) ∧ (s.retime n offset).clk = s.clk ∧
    (∀ m, m ≠ n → (s.retime n offset).part m = s.part m) ∧ ∀ k, k ≠ kTimeSteps → (s.retime n offset).dget k = s.dget k := by
  unfold State.retime
  extract_lets d a
  have ha : OnlySched s a := ((OnlySched.refl s).modPart _ _).dset _ _
  have hk : ∀ k, k ≠ kTimeSteps → a.dget k = s.dget k := fun k hk => State.dget_dadd_ne _ hk 1
  have hp : ∀ m, m ≠ n → a.part m = s.part m := fun m hm => (State.part_dadd _ _ _ _).trans (State.part_modPart_ne _ hm _)
  split
  · split
    · exact ⟨ha.modPart _ _, rfl, fun m hm => (a.untick_part_of_ne hm).trans (hp m hm), hk⟩
    · exact ⟨ha, rfl, hp, hk⟩
  · exact ⟨(OnlySched.refl s).modPart _ _, rfl, fun m hm => State.part_modPart_ne _ hm _, fun _ _ => rfl⟩

theorem State.alike_retime (s : State) (offset : Int) {n m : Nat} (h : m ≠ n) : Alike m s (s.retime n offset) := by
  obtain ⟨honly, hclk, hpart, hdget⟩ := s.retime_frame n offset
  refine ⟨hpart m h, congrArg Clock.now hclk, congrArg Clock.quadExt hclk, honly.heldVals, fun k hk => hdget k ?_⟩
  rintro rfl
  simp only [tickKeys, kTimeSteps, kTicksMerged, kCadenceState, kPitchBase, kQuadCounts, kQuadMode, kCadenceSource, kPeriod, List.mem_cons,
    List.not_mem_nil, or_false] at hk
  omega

/-- The messages with an offset below 1 µs that have come running, with this one. -/
def State.goodSyncs (a : State) (offset : Int) : Nat := if offset.natAbs < 1000 then min 8 (a.clk.goodSync + 1) else 0
/-- The counter set to the synchronised time. -/
def State.synced (a : State) (m : SyncInfo) (offset : Int) : State :=
  let b := a.modClk (fun c => { c with tsn := c.tsn + offset, goodSync := a.goodSyncs offset, syncAt := a.now, syncLog := m.log })
  if a.goodSyncs offset = 8 then b.dset kTimeState 1 else b

theorem State.synced_clk (a : State) (m : SyncInfo) (offset : Int) : (a.synced m offset).clk =
    { a.clk with tsn := a.clk.tsn + offset, goodSync := a.goodSyncs offset, syncAt := a.now, syncLog := m.log } := by
  unfold State.synced
  extract_lets b
  split <;> rfl
theorem State.synced_timeState (a : State) (m : SyncInfo) (offset : Int) :
    (a.synced m offset).dget kTimeState = if a.goodSyncs offset = 8 then 1 else a.dget kTimeState := by
  unfold State.synced
  extract_lets b
  split
  · exact State.dget_dset_self _ _ _
  · rfl
theorem State.onlySched_synced (a : State) (m : SyncInfo) (offset : Int) : OnlySched a (a.synced m offset) := by
  unfold State.synced
  extract_lets b
  split
  · exact ((OnlySched.refl a).modClk _).dset _ _
  · exact (OnlySched.refl a).modClk _
theorem State.alike_synced (a : State) (m : SyncInfo) (offset : Int) (n : Nat) : Alike n a (a.synced m offset) := by
  have hb : ∀ f : Clock → Clock, (f a.clk).now = a.clk.now → (f a.clk).quadExt = a.clk.quadExt → Alike n a (a.modClk f) :=
    fun f hn he => ⟨rfl, hn, he, rfl, fun _ _ => rfl⟩
  unfold State.synced
  extract_lets b
  split
  · refine (hb _ rfl rfl).trans (.dset_of_notMem ?_ _ _)
    simp only [tickKeys, kTimeState, kTicksMerged, kCadenceState, kPitchBase, kQuadCounts, kQuadMode, kCadenceSource, kPeriod, List.mem_cons,
      List.not_mem_nil, or_false]
    omega
  · exact hb _ rfl rfl

/-- A message that the part uses, on the port that TIME_PORT names (R341, Table 12.13). -/
structure SyncUsed (a : State) (m : SyncInfo) : Prop where
  port : a.dget kTimePort = m.port
  code : m.port < 4
  up : a.timeUp m.port = true
  domain : m.domain = 0
  p2p : m.p2p = true
  fast : -7 ≤ m.log
  slow : m.log ≤ 0
  sub : m.port < 2 ∨ m.sub = 0

theorem exec_syncMessage {m : SyncInfo} {t : Nat} (offset : Int) (h : SyncUsed (s.at t) m) : exec (.syncMessage m offset t) s = .next
    (if offset = 0 then (s.at t).synced m offset
     else ((s.at t).synced m offset).each (((s.at t).synced m offset).bound 1) (fun s n => s.retime n offset)) := by
  show execSyncMessage m offset t s = _
  refine congrArg Host.Outcome.next (if_neg ?_)
  have hok : syncOk m = true := by
    simp only [syncOk, h.domain, h.p2p, h.fast, h.slow, Bool.and_eq_true, Bool.or_eq_true, decide_eq_true_eq, beq_iff_eq, h.sub, and_self]
  simp [h.port, h.code, h.up, hok]

theorem syncMessage_sets {m : SyncInfo} {t : Nat} (offset : Int) (h : SyncUsed (s.at t) m) : ∃ u, exec (.syncMessage m offset t) s = .next u ∧
    u.clk = ((s.at t).synced m offset).clk ∧ u.dget kTimeState = ((s.at t).synced m offset).dget kTimeState ∧
    (∀ n ∈ (s.at t).bound 1, offset ≠ 0 → Retimed n offset (s.at t) u) ∧
    (∀ n, ¬ (n ∈ (s.at t).bound 1 ∧ offset ≠ 0) → u.part n = (s.at t).part n) ∧ OnlySched (s.at t) u := by
  have hal := (s.at t).alike_synced m offset
  have honly := (s.at t).onlySched_synced m offset
  refine ⟨_, exec_syncMessage offset h, ?_⟩
  split
  · exact ⟨rfl, rfl, fun _ _ h0 => absurd ‹_› h0, fun n _ => (hal n).part, honly⟩
  · generalize (s.at t).synced m offset = b at hal honly ⊢
    have hf : ∀ s n m, n < 8 → m < 8 → m ≠ n → Alike m s (s.retime n offset) := fun s _ _ _ _ h => s.alike_retime offset h
    have hb := fun n => (hal n).mem_bound 1
    refine ⟨each_clk (fun s n => (s.retime_frame n offset).2.1) _ b, each_dget (fun s n _ => ?_) b, fun n hn _ => ?_, fun n hn => ?_, ?_⟩
    · exact (s.retime_frame n offset).2.2.2 _ (by decide)
    · exact (each_spec hf (fun s n _ => s.retime_retimed n offset) Retimed.congr (fun _ => State.bound_lt) (State.bound_nodup _ _)
        ((hb n).2 hn) b).congr (hal n).symm (.refl n _)
    · have hn' : n ∉ b.bound 1 := fun hm => hn ⟨(hb n).1 hm, ‹_›⟩
      exact (each_part (fun s n m => (s.retime_frame n offset).2.2.1 m) hn' b).trans (hal n).part
    · exact honly.trans (.each (fun s n => (s.retime_frame n offset).1) _ b)

/-! ### HOLDOVER (R33, R342) -/

theorem exec_syncTimeout {t : Nat} (hs : (s.at t).dget kTimeState = 1)
    (h : (s.at t).clk.syncAt + 3 * 1000000000 / 2 ^ (-(s.at t).clk.syncLog).toNat ≤ (s.at t).now) :
    exec (.syncTimeout t) s = .next (((s.at t).dset kTimeState 2).modClk
      (fun c => { c with goodSync := 0, holdSince := (s.at t).now, lostSaid := false })) := by
  show execSyncTimeout t s = _
  rw [execSyncTimeout, if_pos h, State.holdover, if_pos hs]

/-- TIME_LOST of a partition that the end of HOLDOVER reaches, with its emergency object (R33). -/
def State.loseTime (s : State) (n : Nat) : State := (s.dset (kTimeLost n) 1).warn 0x0001 n 0

theorem timeLost_notMem_noticeKeys (n : Nat) : kTimeLost n ∉ noticeKeys := by
  simp only [noticeKeys, kTimeLost, kEmergenciesIssued, kEmergencySuppressed, kNoticeOverflows, List.mem_cons, List.not_mem_nil, or_false]
  omega

theorem State.loseTime_self (s : State) (n : Nat) : (s.loseTime n).dget (kTimeLost n) = 1 :=
  ((State.warned_warn _ _ _ _).dget _ (timeLost_notMem_noticeKeys n)).trans (State.dget_dset_self _ _ _)
theorem State.loseTime_keeps (n : Nat) {m : Nat} (h : s.dget (kTimeLost m) = 1) : (s.loseTime n).dget (kTimeLost m) = 1 := by
  rw [State.loseTime, (State.warned_warn _ _ _ _).dget _ (timeLost_notMem_noticeKeys m)]
  by_cases e : kTimeLost m = kTimeLost n
  · rw [e, State.dget_dset_self]
  · rw [State.dget_dset_ne _ e, h]

theorem each_loseTime_keeps (l : List Nat) {m : Nat} (h : s.dget (kTimeLost m) = 1) : (s.each l State.loseTime).dget (kTimeLost m) = 1 := by
  induction l generalizing s with
  | nil => exact h
  | cons n r ih => exact ih (State.loseTime_keeps n h)
theorem each_loseTime {l : List Nat} {m : Nat} (hm : m ∈ l) (s : State) : (s.each l State.loseTime).dget (kTimeLost m) = 1 := by
  induction hm generalizing s with
  | head r => exact each_loseTime_keeps r (s.loseTime_self m)
  | tail n _ ih => exact ih (s.loseTime n)

theorem State.aged_loseTime (s : State) (n : Nat) : Aged s (s.loseTime n) := Aged.trans (u := s.dset (kTimeLost n) 1) ⟨rfl, rfl⟩ (State.warned_warn _ _ _ _).toAged

theorem exec_holdoverLimit {t : Nat} (hs : (s.at t).dget kTimeState = 2) (hl : (s.at t).clk.lostSaid = false)
    (h : (s.at t).clk.holdSince + (s.at t).dget kHoldoverLimit * 1000000 < (s.at t).now) : exec (.holdoverLimit t) s = .next
      (((s.at t).modClk (fun c => { c with lostSaid := true })).each
        ((List.range 8).filter (fun n => running ((s.at t).part n) && (s.at t).dget (kCadenceSource n) == 1)) State.loseTime) := by
  show execHoldoverLimit t s = _
  rw [execHoldoverLimit, if_pos (by simp [hs, hl, h])]
  rfl

/-! ### Belays (R41) and the end of CONTINUE (R450) -/

/-- A cluster belay held by the sequencer, with the instant of its half. -/
def State.noteBelay (s : State) (n cl : Nat) : State :=
  (s.modPart n (fun p => { p with seq := { p.seq with
    belays := p.seq.belays ++ [cl]
    westAt := if halfOf cl = 0 then s.now else p.seq.westAt
    eastAt := if halfOf cl = 0 then p.seq.eastAt else s.now } })).dset kVc0Peak
      (max (s.dget kVc0Peak) (min (2 ^ 32 - 1) (s.now - (s.cluster cl).pathFrom)))

theorem exec_clusterBelay {n cl t : Nat} (ho : ((s.at t).part n).seq.isOpen = true) (hm : ((s.at t).part n).mask.testBit cl = true)
    (hs : ((s.at t).cluster cl).belaySent = true) (hb : cl ∉ ((s.at t).part n).seq.belays) :
    exec (.clusterBelay n cl t) s = .next (
      if ∀ x ∈ partClusters ((s.at t).part n), x = cl ∨ x ∈ ((s.at t).part n).seq.belays then ((s.at t).noteBelay n cl).closePitch n
      else (s.at t).noteBelay n cl) := by
  show execClusterBelay n cl t s = _
  rw [execClusterBelay, if_pos (by simp [ho, hm, hs, hb])]
  simp only [List.all_eq_true, Bool.or_eq_true, beq_iff_eq, List.contains_iff_mem]
  rfl

theorem exec_continueExpiry {n t : Nat} (hl : ((s.at t).part n).hostLoss = true) (hc : ((s.at t).part n).contLeft = some 0) :
    exec (.continueExpiry n t) s = .next (
      let b := (s.at t).modPart n (fun p => { p with quiesced := true, contLeft := none })
      if ((s.at t).part n).state = .enabled then b.disableBelay n else b) := by
  show execContinueExpiry n t s = _
  rw [execContinueExpiry, if_pos (by simp [hl, hc]), State.quiesce, State.part_modPart_self]

/-- Settles O6, command by command. -/
theorem timeAndBelaysAreNoted : Obligations.TimeAndBelaysAreNoted := by
  unfold Obligations.TimeAndBelaysAreNoted
  refine ⟨fun s m offset t => ?_, fun s t => exec_syncTimeout, fun s t => ?_, fun s n cl t => exec_clusterBelay, fun s n t => ?_⟩
  · intro a good hport hcode hup hdomain hp2p hfast hslow hsub
    obtain ⟨u, he, hclk, hstate, hticked, hpart, honly⟩ := syncMessage_sets offset ⟨hport, hcode, hup, hdomain, hp2p, hfast, hslow, hsub⟩
    refine ⟨u, he, hclk.trans (a.synced_clk m offset), hstate.trans (a.synced_timeState m offset), fun n => ?_, ?_⟩
    · by_cases hn : n ∈ a.bound 1 ∧ offset ≠ 0
      · exact (if_pos hn).mpr (hticked n hn.1 hn.2)
      · exact (if_neg hn).mpr (hpart n hn)
    · exact honly
  · intro a hs hl hlim
    have haged := Aged.each State.aged_loseTime ((List.range 8).filter (fun n => running (a.part n) && a.dget (kCadenceSource n) == 1))
      (a.modClk (fun c => { c with lostSaid := true }))
    refine ⟨_, exec_holdoverLimit hs hl hlim, haged.lostSaid, haged.now, fun n hn hr hc => ?_, haged.only⟩
    exact each_loseTime (List.mem_filter.2 ⟨List.mem_range.2 hn, Bool.and_eq_true_iff.2 ⟨hr, beq_iff_eq.2 hc⟩⟩) _
  · intro a hl hc
    refine (exec_continueExpiry hl hc).trans (congrArg Host.Outcome.next ?_)
    dsimp only
    by_cases he : (a.part n).state = .enabled
    · rw [if_pos he, if_neg (not_not.2 he), State.disableBelay, State.part_modPart_self]
    · rw [if_neg he, if_pos he]

end Sys2Proof.Machine
end

section
/-!
PROOFS of the statements on pitches (spec 02): writes of the schedule and ENABLE (O40, O41).
-/

namespace Sys2Proof.Machine

variable {s u v : State}

/-! ### Little-endian numbers -/

theorem length_natLe (n v : Nat) : (natLe n v).length = n := by
  induction n generalizing v with
  | zero => rfl
  | succ n ih => rw [natLe, List.length_cons, ih]
theorem leNat_natLe (n v : Nat) : leNat (natLe n v) = v % 256 ^ n := by
  induction n generalizing v with
  | zero => rw [natLe, leNat, pow_zero, Nat.mod_one]
  | succ n ih => rw [natLe, leNat, ih, BitVec.toNat_ofNat, pow_succ' 256 n, Nat.mod_mul]

/-! ### A write that is performed -/

/-- The common checks of a write pass, and change nothing. -/
theorem State.writeCheck_of_accepts {r : Requester} {k v : Nat} (h : s.Accepts r k v) : s.writeCheck r k v = (stOk, s) := by
  obtain ⟨_, _, hwrites, hlocked, hro, hoff⟩ := h
  simp [State.writeCheck, hwrites, hlocked, hro, hoff]

/-- ENABLE or LOAD in ACTIVE, with no power transition: the command acts, and is answered. -/
theorem State.wakeTyped_of_active {r : Requester} {n cmd : Nat} (f : State → Nat × State) (h : s.Accepts r (kPartitionCommand n) cmd)
    (ha : s.pow.state = .active) (he : s.pow.entry = none) :
    s.wakeTyped r n cmd f = (f s).2.answer r (kPartitionCommand n) (f s).1 := by
  obtain ⟨hhears, hgate, _⟩ := id h
  simp only [State.wakeTyped, State.orWake, State.writeCheck_of_accepts h, hhears, hgate, ha, he]
  simp

theorem exec_enable {r : Requester} {n t : Nat} (h : (s.at t).Accepts r (kPartitionCommand n) 3) (ha : (s.at t).pow.state = .active)
    (he : (s.at t).pow.entry = none) :
    exec (.enable r n t) s = .next (((s.at t).doEnable n).2.answer r (kPartitionCommand n) ((s.at t).doEnable n).1) :=
  congrArg Host.Outcome.next (State.wakeTyped_of_active _ h ha he)

/-- ENABLE of a partition without a cadence source, or one whose QUAD_COUNTS is 0, is refused (R28, R37). -/
theorem State.doEnable_refused {n : Nat} (h : s.dget (kCadenceSource n) = 0 ∨ s.dget (kCadenceSource n) = 3 ∧ s.dget (kQuadCounts n) = 0) :
    s.doEnable n = (stState, s) := by
  rw [State.doEnable, if_pos (.inr h)]
theorem State.doEnable_taken {n : Nat} (hn : n < 8) (hr : (s.part n).state = .ready) (hs : s.dget (kCadenceSource n) = 3)
    (hc : s.dget (kQuadCounts n) ≠ 0) : s.doEnable n = (stOk, s.startPart n) := by
  rw [State.doEnable, if_neg]
  simp [State.partIs, hn, hr, hs, hc]

/-- Settles O40: the reset value of CADENCE_SOURCE, and the refusal of ENABLE. -/
theorem unboundSourcesAreRefused : Obligations.UnboundSourcesAreRefused := by
  unfold Obligations.UnboundSourcesAreRefused
  refine ⟨fun n => dget_reset_cadenceSource, fun s r n t => ?_⟩
  intro a h ha he hs
  rw [exec_enable h ha he, State.doEnable_refused (.inl hs)]

/-! ### A write of a schedule entry (Table 2.9) -/

/-- An entry of the schedule of partition `n` whose value is a number of four bytes. -/
structure SchedEntry (n j k : Nat) (e : EntryRow) : Prop where
  key : k = entryKey (0x2110 + n) j
  sub : j < 16
  row : entryRow (0x2110 + n) j = some e
  acc : e.acc = .rw
  minLen : e.minLen = 4
  maxLen : e.maxLen = 4

/-- A number written to a schedule entry reaches the schedule's own rules if its range holds it (R349). -/
theorem registerWrite_sched {r : Requester} {n j k v t : Nat} {e : EntryRow} (hn : n < 8) (he : SchedEntry n j k e)
    (hp : perReq k = false) (h : (s.serve t).Accepts r k v) (hv : v < 2 ^ 32) :
    exec (.registerWrite (.entry r (0x2110 + n) j) (natLe 4 v) t) s = .next
      (if valueOk e v then (((s.serve t).writeSched n j k v).2.answer r k ((s.serve t).writeSched n j k v).1)
       else (s.serve t).answer r k stRange) := by
  obtain ⟨hkey, hj, hrow, hacc, hmin, hmax⟩ := he
  obtain ⟨hhears, hgate, _⟩ := id h
  rw [entryKey] at hkey
  have hindex : k / 256 = 0x2110 + n := by omega
  have hsub : k % 256 = j := by omega
  have hcmd : k ≠ kPartitionCommand (k / 65536 % 16) := by simp only [kPartitionCommand]; omega
  have hna : naIndex (0x2110 + n) = none := if_neg (by omega)
  have hnum : leNat (natLe 4 v) = v := (leNat_natLe 4 v).trans (Nat.mod_eq_of_lt hv)
  have heff : (s.serve t).writeEffect r k v (natLe 4 v) = (s.serve t).writeSched n j k v := by
    simp only [State.writeEffect, hp, hindex, hsub]
    rw [if_neg (by decide), if_pos (by omega), Nat.add_sub_cancel_left]
  have hentry : (s.serve t).writeEntry r none k (natLe 4 v) =
      if valueOk e v then (some ((s.serve t).writeSched n j k v).1, ((s.serve t).writeSched n j k v).2) else (some stRange, s.serve t) := by
    simp only [State.writeEntry, hindex, hsub, hrow, hnum, State.writeCheck_of_accepts h, length_natLe, hacc, hmin, hmax, hcmd, hna, heff]
    by_cases hok : valueOk e v = true <;> simp [hok]
  show execRegisterWrite (.entry r (0x2110 + n) j) (natLe 4 v) t s = _
  simp only [execRegisterWrite, ← hkey, entryKey, hhears, hgate, State.writeWhole, hentry]
  by_cases hok : valueOk e v = true <;> simp [hok, State.writeAnswer]

/-- The row of QUAD_COUNTS. -/
def rowQuadCounts : EntryRow := ⟨0x2110, 1, 8, 0x04, 0x04, .u32, .rw, 4, 4, 1, 16777215, 1, [], 0, 0, "QUAD_COUNTS", "counts"⟩
/-- The row of PERIOD. -/
def rowPeriod : EntryRow := ⟨0x2110, 1, 8, 0x02, 0x02, .u32, .rw, 4, 4, 250, 10000, 1, [], 1000, 0, "PERIOD", "µs"⟩
/-- The row of GUARD. -/
def rowGuard : EntryRow := ⟨0x2110, 1, 8, 0x05, 0x05, .u32, .rw, 4, 4, 20, 2500, 1, [], 40, 0, "GUARD", "µs"⟩

theorem schedEntry_quadCounts {n : Nat} (hn : n < 8) : SchedEntry n 4 (kQuadCounts n) rowQuadCounts :=
  ⟨by simp only [kQuadCounts, entryKey]; omega, by decide, by decide +revert, rfl, rfl, rfl⟩
theorem schedEntry_period {n : Nat} (hn : n < 8) : SchedEntry n 2 (kPeriod n) rowPeriod :=
  ⟨by simp only [kPeriod, entryKey]; omega, by decide, by decide +revert, rfl, rfl, rfl⟩
theorem schedEntry_guard {n : Nat} (hn : n < 8) : SchedEntry n 5 (kGuard n) rowGuard :=
  ⟨by simp only [kGuard, entryKey]; omega, by decide, by decide +revert, rfl, rfl, rfl⟩

theorem perReq_quadCounts {n : Nat} (hn : n < 8) : perReq (kQuadCounts n) = false := by decide +revert
theorem perReq_period {n : Nat} (hn : n < 8) : perReq (kPeriod n) = false := by decide +revert
theorem perReq_guard {n : Nat} (hn : n < 8) : perReq (kGuard n) = false := by decide +revert

theorem valueOk_quadCounts (v : Nat) : valueOk rowQuadCounts v = true ↔ 1 ≤ v ∧ v ≤ 16777215 := by
  change ((decide (1 ≤ v) && decide (v ≤ 16777215) && (v - 1) % 1 == 0) = true) ↔ _
  simp [Nat.mod_one]
theorem valueOk_guard (v : Nat) : valueOk rowGuard v = true ↔ 20 ≤ v ∧ v ≤ 2500 := by
  change ((decide (20 ≤ v) && decide (v ≤ 2500) && (v - 20) % 1 == 0) = true) ↔ _
  simp [Nat.mod_one]

/-- GUARD with `v` for it keeps the schedule's ranges (R47). -/
theorem State.schedFits_guard (s : State) (n v : Nat) : s.schedFits n (kGuard n) v = true ↔
    4 * v ≤ s.dget (kPeriod n) ∧ s.dget (kStretchLimit n) ≤ s.dget (kPeriod n) ∧ s.dget (kSlackTarget n) + v ≤ s.dget (kPeriod n) := by
  have hperiod : kPeriod n ≠ kGuard n := by simp only [kPeriod, kGuard]; omega
  have hstretch : kStretchLimit n ≠ kGuard n := by simp only [kStretchLimit, kGuard]; omega
  have hslack : kSlackTarget n ≠ kGuard n := by simp only [kSlackTarget, kGuard]; omega
  simp [State.schedFits, hperiod, hstretch, hslack, and_assoc]
/-- PERIOD with `v` for it keeps the schedule's ranges (R47). -/
theorem State.schedFits_period (s : State) (n v : Nat) : s.schedFits n (kPeriod n) v = true ↔
    4 * s.dget (kGuard n) ≤ v ∧ s.dget (kStretchLimit n) ≤ v ∧ s.dget (kSlackTarget n) + s.dget (kGuard n) ≤ v := by
  have hguard : kGuard n ≠ kPeriod n := by simp only [kPeriod, kGuard]; omega
  have hstretch : kStretchLimit n ≠ kPeriod n := by simp only [kStretchLimit, kPeriod]; omega
  have hslack : kSlackTarget n ≠ kPeriod n := by simp only [kSlackTarget, kPeriod]; omega
  simp [State.schedFits, hguard, hstretch, hslack, and_assoc]

/-- A value of GUARD that breaks the schedule's ranges is refused (R47). -/
theorem State.writeSched_guard_range {n v : Nat} (h : ¬ s.schedFits n (kGuard n) v = true) : s.writeSched n 5 (kGuard n) v = (stRange, s) := by
  rw [State.writeSched, if_neg (by simp), if_pos (by simp [h])]
theorem State.writeSched_guard {n v : Nat} (h : s.schedFits n (kGuard n) v = true) : s.writeSched n 5 (kGuard n) v =
    (stOk, if running (s.part n) then s.dsetHeld (kGuard n) v else (s.dset (kGuard n) v).release (fun x => x == kGuard n)) := by
  rw [State.writeSched, if_neg (by simp), if_neg (by simp [h])]
/-- A value of PERIOD that breaks the schedule's ranges is refused (R47). -/
theorem State.writeSched_period_range {n v : Nat} (hr : running (s.part n) = false) (h : ¬ s.schedFits n (kPeriod n) v = true) :
    s.writeSched n 2 (kPeriod n) v = (stRange, s) := by
  rw [State.writeSched, if_neg (by simp [hr]), if_pos (by simp [h])]

theorem dget_reset_guard {n : Nat} (hn : n < 8) : State.reset.dget (kGuard n) = 40 :=
  (State.dget_reset (by decide +revert)).trans (by decide +revert)

/-- Settles O41: both writes go through the schedule's rules. -/
theorem guardStaysInItsRange : Obligations.GuardStaysInItsRange := by
  unfold Obligations.GuardStaysInItsRange
  refine ⟨fun n => dget_reset_guard, fun s r n v t => ?_, fun s r n v t => ?_, fun s r n v t => ?_⟩
  · intro a hn h hv hbad
    rw [registerWrite_sched hn (schedEntry_guard hn) (perReq_guard hn) h hv]
    split
    · next hok =>
      have hok := (valueOk_guard v).1 hok
      have hfits : ¬ a.schedFits n (kGuard n) v = true := by
        rw [State.schedFits_guard]
        omega
      rw [State.writeSched_guard_range hfits]
    · rfl
  · intro a hn h hv hr hbad
    rw [registerWrite_sched hn (schedEntry_period hn) (perReq_period hn) h hv]
    split
    · have hfits : ¬ a.schedFits n (kPeriod n) v = true := by
        rw [State.schedFits_period]
        omega
      rw [State.writeSched_period_range hr hfits]
    · rfl
  · intro a hn h hlo hhi hquarter hstretch hslack
    rw [registerWrite_sched hn (schedEntry_guard hn) (perReq_guard hn) h (by omega), if_pos ((valueOk_guard v).2 ⟨hlo, hhi⟩),
      State.writeSched_guard ((State.schedFits_guard _ n v).2 ⟨hquarter, hstretch, hslack⟩)]

end Sys2Proof.Machine
end

section
/-!
PROOFS of the statements on pitches (spec 02): the marks of a core (O7).
-/

namespace Sys2Proof.Machine

variable {s u v : State}

/-! ### Counters -/

/-- From `s` to `u` only counters of cores and entries of the dictionary have changed. -/
def Counted (s u : State) : Prop := u = { s with cm := { s.cm with counters := u.cm.counters }, dict := u.dict }

theorem Counted.refl (s : State) : Counted s s := rfl
theorem Counted.trans (h : Counted s u) (k : Counted u v) : Counted s v := by
  unfold Counted at *
  rw [h] at k
  exact k
theorem Counted.core (h : Counted s u) (c : Nat) : u.core c = s.core c := by rw [h]; rfl
theorem Counted.cluster (h : Counted s u) (c : Nat) : u.cluster c = s.cluster c := by rw [h]; rfl

theorem State.counted_bump (s : State) (c off a : Nat) : Counted s (s.bump c off a) := by
  unfold State.bump
  extract_lets b
  have hb : Counted s b := rfl
  split
  · exact .refl s
  · split
    · exact hb
    · split
      · split <;> exact hb.trans rfl
      · exact hb
theorem State.counted_ringPeak (s : State) (c : Nat) : Counted s (s.ringPeak c) := by
  unfold State.ringPeak
  extract_lets n b
  have hb : Counted s b := rfl
  split
  · exact hb.trans rfl
  · exact hb

/-! ### The work of one core -/

/-- The fields of a core that OPEN and the marks of a pitch set. -/
def Core.marks (k : Core) : Bool × Nat × Nat × Bool × Bool × Bool × Bool :=
  (k.isOpen, k.pitch, k.openedAt, k.sweepDone, k.belaySent, k.truncated, k.absorbed)

/-- From `s` to `u` core `c` has taken or lost records: no other core has changed, and no mark of the pitch. -/
structure Worked (c : Nat) (s u : State) : Prop where
  only : u = { s with cores := u.cores, cm := u.cm, clusters := u.clusters, parts := u.parts, dict := u.dict }
  cm : u.cm = { s.cm with counters := u.cm.counters }
  others : ∀ d, d ≠ c → u.core d = s.core d
  marks : (u.core c).marks = (s.core c).marks

variable {c : Nat}

theorem Worked.refl (c : Nat) (s : State) : Worked c s s := ⟨rfl, rfl, fun _ _ => rfl, rfl⟩
theorem Worked.trans (h : Worked c s u) (k : Worked c u v) : Worked c s v where
  only := by
    have := k.only
    rw [h.only] at this
    exact this
  cm := by
    have := k.cm
    rw [h.cm] at this
    exact this
  others d hd := (k.others d hd).trans (h.others d hd)
  marks := k.marks.trans h.marks
theorem Worked.modCore (h : Worked c s u) {f : Core → Core} (hf : ∀ k, (f k).marks = k.marks := by intro _; rfl) : Worked c s (u.modCore c f) :=
  h.trans ⟨rfl, rfl, fun _ hd => u.core_modCore_ne hd f, by rw [State.core_modCore_self, hf]⟩
theorem Worked.modPart (h : Worked c s u) (n : Nat) (f : Part → Part) : Worked c s (u.modPart n f) :=
  h.trans ⟨rfl, rfl, fun _ _ => rfl, rfl⟩
theorem Worked.modCluster (h : Worked c s u) (n : Nat) (f : Cluster → Cluster) : Worked c s (u.modCluster n f) :=
  h.trans ⟨rfl, rfl, fun _ _ => rfl, rfl⟩
theorem Worked.ledgerFlag (h : Worked c s u) (n b : Nat) : Worked c s (u.ledgerFlag n b) := h.modPart n _
theorem Worked.ledgerDropAt (h : Worked c s u) (n t d : Nat) : Worked c s (u.ledgerDropAt n t d) := h.modPart n _
theorem Worked.bump (h : Worked c s u) (off a : Nat) : Worked c s (u.bump c off a) := by
  refine h.trans ?_
  rw [u.counted_bump c off a]
  exact ⟨rfl, rfl, fun _ _ => rfl, rfl⟩
theorem Worked.ringPeak (h : Worked c s u) : Worked c s (u.ringPeak c) := by
  refine h.trans ?_
  rw [u.counted_ringPeak c]
  exact ⟨rfl, rfl, fun _ _ => rfl, rfl⟩
theorem Worked.ledgerDrop (h : Worked c s u) (n a : Nat) : Worked c s (u.ledgerDrop n c a) := by
  unfold State.ledgerDrop
  split
  · exact h
  · exact .ledgerFlag (.modCore h) _ _
theorem Worked.journalPut (h : Worked c s u) (cl : Nat) (es : List JEntry) : Worked c s (u.journalPut cl es) := by
  unfold State.journalPut
  split
  · exact h.modCluster cl _
  · exact h
theorem Worked.bobbinPut (h : Worked c s u) (r : EvRec) : Worked c s (u.bobbinPut c r) := by
  unfold State.bobbinPut
  extract_lets k
  split
  · exact .ringPeak (.modCore h)
  · split
    · exact .bump (.modCore h) _ _
    · exact .ledgerDropAt (.bump h _ _) _ _ _
theorem Worked.releaseOne (h : Worked c s u) (p : Nat) (r : LdsRec) : Worked c s (u.releaseOne c p r) := by
  unfold State.releaseOne
  extract_lets b d
  have hb : Worked c s b := h.journalPut _ _
  split
  · exact hb.ledgerDrop _ _
  · exact hb
  · split
    · exact hb.bobbinPut _
    · have hd : Worked c s d := .bump (.modCore hb) _ _
      split
      · exact hd.ledgerFlag _ _
      · exact hd
theorem Worked.releaseCore (h : Worked c s u) (p : Nat) : Worked c s (u.releaseCore c p) := by
  unfold State.releaseCore
  extract_lets cl mine b
  have hb : Worked c s b := h.modCluster cl _
  generalize b = b at hb ⊢
  induction mine generalizing b with
  | nil => exact hb
  | cons r l ih => exact ih _ (hb.releaseOne p r)
theorem Worked.noteLate (h : Worked c s u) (l : List EvRec) : Worked c s (u.noteLate c l) := by
  unfold State.noteLate
  extract_lets a
  split
  · exact h
  · exact .ledgerFlag (.modCore h) _ _
theorem Worked.openLive (h : Worked c s u) (p : Nat) : Worked c s (u.openLive c p) := by
  unfold State.openLive
  extract_lets k got early b
  have hb : Worked c s b := .bump (.noteLate (.modCore h) _) _ _
  exact .modCore (.releaseCore hb p)

/-! ### OPEN at a used live core -/

/-- Noting late deliveries changes nothing of a core but its ledger. -/
theorem State.noteLate_core (s : State) (c : Nat) (l : List EvRec) :
    (s.noteLate c l).core c = { s.core c with led := ((s.noteLate c l).core c).led } := by
  unfold State.noteLate
  extract_lets a
  split
  · rfl
  · rw [State.ledgerFlag, State.core_modPart, State.core_modCore_self]
theorem State.noteLate_cluster (s : State) (c : Nat) (l : List EvRec) (cl : Nat) : (s.noteLate c l).cluster cl = s.cluster cl := by
  unfold State.noteLate
  extract_lets a
  split <;> rfl

/-- With no record of a core due, its long-delay store releases none. -/
theorem State.releaseCore_core (p : Nat) (h : ∀ e ∈ (s.cluster (clusterOf c)).lds, e.core = c % 16 → bucketDue e.target p = false) (d : Nat) :
    (s.releaseCore c p).core d = s.core d := by
  have hnone : (s.cluster (clusterOf c)).lds.filter (fun e => e.core == c % 16 && bucketDue e.target p) = [] := by
    rw [List.filter_eq_nil_iff]
    intro e he
    by_cases hc : e.core = c % 16 <;> simp [hc, h e he]
  rw [State.releaseCore, hnone]
  rfl

/-- With no long-delay record due, INTAKE takes the slots due from the ring, ahead of what came early. -/
theorem State.openLive_detaches (s : State) (c p : Nat)
    (h : ∀ e ∈ (s.cluster (clusterOf c)).lds, e.core = c % 16 → bucketDue e.target p = false) :
    ((s.openLive c p).core c).intake = detach (s.core c).ring p ++ (s.core c).intake ∧
      ((s.openLive c p).core c).ring = (s.core c).ring.filter (fun e => decide (p < e.target)) := by
  unfold State.openLive
  extract_lets k got early b
  have hlate := State.noteLate_core (s.modCore c (fun k => { k with
    intake := got
    ring := k.ring.filter (fun e => decide (p < e.target)) })) c got
  have hcore : b.core c = _ := (State.counted_bump _ c 0x18 got.length).core c
  rw [hlate, State.core_modCore_self] at hcore
  have hcluster : b.cluster (clusterOf c) = s.cluster (clusterOf c) :=
    ((State.counted_bump _ c 0x18 got.length).cluster _).trans (State.noteLate_cluster _ _ _ _)
  rw [State.core_modCore_self, State.releaseCore_core p (by rwa [hcluster]), hcore]
  exact ⟨rfl, rfl⟩

theorem State.openBase_core_of_ne (s : State) {c d : Nat} (h : d ≠ c) (p : Nat) : (s.openBase c p).core d = s.core d :=
  State.core_modCore_ne _ h _
theorem State.openBase_marks (s : State) (c p : Nat) : ((s.openBase c p).core c).marks = (true, p, s.now, false, false, false, false) := by
  rw [State.openBase, State.core_modCore_self]
  rfl
theorem State.openBase_intake (s : State) (c p : Nat) : ((s.openBase c p).core c).intake = (s.core c).intake := by
  rw [State.openBase, State.core_modCore_self]
  rfl
theorem State.openBase_ring (s : State) (c p : Nat) : ((s.openBase c p).core c).ring = (s.core c).ring := by
  rw [State.openBase, State.core_modCore_self]
  rfl

/-- The memory that OPEN clears. -/
theorem Worked.cleared {p : Nat} (h : Worked c (s.openBase c p) u) : u.cm.acc = mclear s.cm.acc (c * 16384) 16384 ∧
    u.cm.osum = mclear s.cm.osum (c * 2048) 2048 ∧ u.cm.neurons = s.cm.neurons := by
  rw [h.cm]
  exact ⟨rfl, rfl, rfl⟩
/-- What OPEN and the work after it change. -/
theorem Worked.opened {p : Nat} (h : Worked c (s.openBase c p) u) :
    u = { s with cores := u.cores, cm := u.cm, clusters := u.clusters, parts := u.parts, dict := u.dict } := h.only
/-- The core, as OPEN leaves it. -/
theorem Worked.openMarks {p : Nat} (h : Worked c (s.openBase c p) u) : (u.core c).isOpen = true ∧ (u.core c).pitch = p ∧
    (u.core c).openedAt = s.now ∧ (u.core c).sweepDone = false ∧ (u.core c).belaySent = false ∧ (u.core c).truncated = false ∧
    (u.core c).absorbed = false := by
  simpa only [Core.marks, Prod.mk.injEq] using h.marks.trans (s.openBase_marks c p)
theorem exec_openPicot {t : Nat} (hc : (s.at t).corePresent c = true) (ho : ((s.at t).coreP c).seq.isOpen = true)
    (hk : ((s.at t).core c).isOpen = false) :
    exec (.openPicot c t) s = .next ((s.at t).openCore c ((s.at t).coreP c).seq.pitch) := by
  show execOpenPicot c t s = _
  refine congrArg Host.Outcome.next (if_pos ?_)
  simp [hc, ho, hk]
theorem State.openCore_live {p : Nat} (hm : (s.core c).mode = .live) (hu : usesCore (activeSlot (s.coreP c)) c = true) :
    s.openCore c p = (s.openBase c p).openLive c p := by
  simp [State.openCore, hm, hu]

/-! ### The other marks -/

theorem exec_drain (hl : s.liveCore c = true) (hb : (s.core c).belaySent = false) (hd : s.drained c = true) :
    exec (.drain c) s = .next (s.modCore c (fun k => { k with belaySent := true, belayAt := s.now })) := by
  show execDrain c s = _
  refine congrArg Host.Outcome.next (if_pos ?_)
  simp [hl, hb, hd]
theorem exec_belay (ho : (s.core c).isOpen = true) (hb : (s.core c).belaySent = true) (hh : s.noHauls c = true) (hp : s.noCopies c = true) :
    exec (.belay c) s = .next ((s.modCore c (fun k => { k with belayRcvd := true })).tryClusterBelay (clusterOf c) (s.core c).belayAt) := by
  show execBelay c s = _
  refine congrArg Host.Outcome.next (if_pos ?_)
  simp [ho, hb, hh, hp]
theorem exec_closePicot {t : Nat} (ho : ((s.at t).core c).isOpen = true) (hp : ((s.at t).coreP c).seq.isOpen = false) :
    exec (.closePicot c t) s = .next (((s.at t).modCore c (fun k => { k with isOpen := false, belaySent := false, belayRcvd := false })).modFab
      (fun f => { f with toSwitch := f.toSwitch.filter (· != c) })) := by
  show execClosePicot c t s = _
  refine congrArg Host.Outcome.next (if_pos ?_)
  simp [ho, hp]
theorem exec_truncate {t : Nat} (ht : ((s.at t).coreP c).seq.truncAt.isSome = true) (hl : (s.at t).liveCore c = true)
    (hb : ((s.at t).core c).belaySent = false) (hn : ((s.at t).core c).truncated = false) (ha : ((s.at t).core c).absorbed = false)
    (hd : (s.at t).drained c = false) :
    exec (.truncate c t) s = .next ((s.at t).modCore c (fun k => { k with
      truncated := true, intake := [], deferred := [], openHauls := []
      led := { k.led with truncIn := k.led.truncIn + realRecs k.intake, withheld := k.led.withheld + haulEvents k.openHauls } })) := by
  show execTruncate c t s = _
  refine congrArg Host.Outcome.next (if_neg ?_)
  have hsome : ((s.at t).coreP c).seq.truncAt.isNone = false := by rw [← Option.not_isSome, ht]; rfl
  simp [hsome, hl, hb, hn, ha, hd]
theorem exec_absorb (ha : (s.coreP c).seq.absorbAt.isSome = true) (hl : s.liveCore c = true) (hb : (s.core c).belaySent = false)
    (hn : (s.core c).absorbed = false) (hd : s.drained c = false) : exec (.absorb c) s = .next (s.absorbCore c) := by
  show execAbsorb c s = _
  refine congrArg Host.Outcome.next (if_pos ?_)
  simp [State.mayAbsorb, ha, hl, hb, hn, hd]

/-- From `s` to `u` core `c` has counted work that ABSORB discards. -/
structure Absorbed (c : Nat) (s u : State) : Prop where
  only : u = { s with cores := u.cores, cm := u.cm, dict := u.dict }
  others : ∀ d, d ≠ c → u.core d = s.core d
  core : u.core c = { s.core c with led := (u.core c).led }

theorem Absorbed.trans (h : Absorbed c s u) (k : Absorbed c u v) : Absorbed c s v where
  only := by
    have := k.only
    rw [h.only] at this
    exact this
  others d hd := (k.others d hd).trans (h.others d hd)
  core := by
    have := k.core
    rw [h.core] at this
    exact this
theorem Counted.absorbed (h : Counted s u) : Absorbed c s u := by
  rw [h]
  exact ⟨rfl, fun _ _ => rfl, rfl⟩

theorem State.absorbed_absorbCount (s : State) (c off a : Nat) : Absorbed c s (s.absorbCount c off a) := by
  unfold State.absorbCount
  extract_lets b
  have hb : Absorbed c s b := (s.counted_bump c off a).absorbed.trans
    ⟨rfl, fun d hd => State.core_modCore_ne _ hd _, by rw [State.core_modCore_self]⟩
  split
  · exact hb.trans ⟨rfl, fun _ _ => rfl, rfl⟩
  · exact hb

/-- Work absorbed and counted: nothing of the other cores has changed. -/
theorem Absorbed.modCore_frame (h : Absorbed c s u) (f : Core → Core) : (∀ d, d ≠ c → (u.modCore c f).core d = s.core d) ∧
    u.modCore c f = { s with cores := (u.modCore c f).cores, cm := (u.modCore c f).cm, dict := (u.modCore c f).dict } := by
  refine ⟨fun d hd => (u.core_modCore_ne hd f).trans (h.others d hd), ?_⟩
  rw [h.only]
  rfl

/-- ABSORB counts the work of a core, and then discards it. -/
theorem State.absorbCore_eq (s : State) (c : Nat) : ∃ u, Absorbed c s u ∧
    s.absorbCore c = u.modCore c (fun k => { k with absorbed := true, intake := [], deferred := [], openHauls := [] }) :=
  ⟨_, ((s.absorbed_absorbCount c _ _).trans (State.absorbed_absorbCount _ c _ _)).trans (State.absorbed_absorbCount _ c _ _), rfl⟩

theorem absorb_discards {u : State} (h : Absorbed c s u) :
    (u.modCore c (fun k => { k with absorbed := true, intake := [], deferred := [], openHauls := [] })).core c =
      { s.core c with absorbed := true, intake := [], deferred := [], openHauls := [], led := (u.core c).led } := by
  rw [State.core_modCore_self, h.core]

/-- Settles O7, mark by mark. -/
theorem coresOpenDrainAndClose : Obligations.CoresOpenDrainAndClose := by
  unfold Obligations.CoresOpenDrainAndClose
  refine ⟨fun s c t => ?_, fun s c => exec_drain, fun s c => exec_belay, fun s c t => exec_closePicot, fun s c t => exec_truncate, fun s c => ?_⟩
  · intro a p hc ho hk hm hu
    have hw : Worked c (a.openBase c p) ((a.openBase c p).openLive c p) := (Worked.refl c _).openLive p
    have hdetach := (a.openBase c p).openLive_detaches c p
    rw [State.openBase_ring, State.openBase_intake] at hdetach
    have hexec := (exec_openPicot hc ho hk).trans (congrArg _ (State.openCore_live hm hu))
    generalize (a.openBase c p).openLive c p = u at hw hdetach hexec
    obtain ⟨hopen, hpitch, hat, hsweep, hbelay, htrunc, habs⟩ := hw.openMarks
    obtain ⟨hacc, hosum, hneurons⟩ := hw.cleared
    exact ⟨u, hexec, hopen, hpitch, hat, hsweep, hbelay, htrunc, habs, hacc, hosum, hneurons,
      fun d hd => (hw.others d hd).trans (a.openBase_core_of_ne hd p), hdetach, hw.opened⟩
  · intro ha hl hb hn hd
    obtain ⟨u, hu, he⟩ := s.absorbCore_eq c
    have hcore := absorb_discards hu
    refine ⟨_, (exec_absorb ha hl hb hn hd).trans (congrArg _ he), ?_, hu.modCore_frame _⟩
    rw [hcore]

end Sys2Proof.Machine
end

section
/-!
PROOFS of the statements on pitches (spec 02): what work outside the sequencers leaves alone, `Calm s u`.
-/

namespace Sys2Proof.Machine

/-- What a partition keeps while its settings, outputs and memory change: its sequencer, its state, and the marks of a host loss. -/
def Part.marks (p : Part) : Seq × PartState × Bool × Option Nat := (p.seq, p.state, p.quiesced, p.contLeft)
/-- What a core keeps while it fetches, emits and is reported on: the pitch in progress, INTAKE, and whether it has swept. -/
def Core.inPitch (k : Core) : Bool × Nat × List EvRec × Bool := (k.isOpen, k.pitch, k.intake, k.sweepDone)

/-- From `s` to `u` no sequencer, no state of a partition and no mark of a host loss has changed, every core stands where it stood in its
pitch, journals have only been added to, and the extended position has not moved. -/
structure Calm (s u : State) : Prop where
  ext : u.clk.quadExt = s.clk.quadExt
  part : ∀ n, (u.part n).marks = (s.part n).marks
  core : ∀ c, (u.core c).inPitch = (s.core c).inPitch
  buf : ∀ c, (s.cluster c).journalBuf <+: (u.cluster c).journalBuf

variable {s u v : State}

theorem Calm.refl (s : State) : Calm s s := ⟨rfl, fun _ => rfl, fun _ => rfl, fun _ => List.prefix_rfl⟩
theorem Calm.trans (h : Calm s u) (k : Calm u v) : Calm s v :=
  ⟨k.ext.trans h.ext, fun n => (k.part n).trans (h.part n), fun c => (k.core c).trans (h.core c),
    fun c => (h.buf c).trans (k.buf c)⟩
theorem Calm.seq (h : Calm s u) (n : Nat) : (u.part n).seq = (s.part n).seq := congrArg (·.1) (h.part n)
theorem Calm.quiesced (h : Calm s u) (n : Nat) : (u.part n).quiesced = (s.part n).quiesced := congrArg (·.2.2.1) (h.part n)
theorem Calm.contLeft (h : Calm s u) (n : Nat) : (u.part n).contLeft = (s.part n).contLeft := congrArg (·.2.2.2) (h.part n)
theorem Calm.isOpen (h : Calm s u) (c : Nat) : (u.core c).isOpen = (s.core c).isOpen := congrArg (·.1) (h.core c)
theorem Calm.pitch (h : Calm s u) (c : Nat) : (u.core c).pitch = (s.core c).pitch := congrArg (·.2.1) (h.core c)
theorem Calm.intake (h : Calm s u) (c : Nat) : (u.core c).intake = (s.core c).intake := congrArg (·.2.2.1) (h.core c)
theorem Calm.sweepDone (h : Calm s u) (c : Nat) : (u.core c).sweepDone = (s.core c).sweepDone := congrArg (·.2.2.2) (h.core c)

theorem Calm.ite {p : Prop} [Decidable p] {a b : State} (ha : Calm s a) (hb : Calm s b) : Calm s (if p then a else b) := by
  split <;> assumption
theorem Calm.foldl {α : Type} {f : State → α → State} (hf : ∀ u x, Calm s u → Calm s (f u x)) (l : List α) (h : Calm s u) : Calm s (l.foldl f u) := by
  induction l generalizing u with
  | nil => exact h
  | cons x r ih => exact ih (hf u x h)
theorem Calm.each {f : State → Nat → State} (hf : ∀ u x, Calm s u → Calm s (f u x)) (l : List Nat) (h : Calm s u) : Calm s (u.each l f) :=
  h.foldl hf l

/-! ### The basic updates -/

theorem Calm.modPart (h : Calm s u) (n : Nat) {f : Part → Part} (hf : ∀ p, (f p).marks = p.marks := by intro _; rfl) : Calm s (u.modPart n f) := by
  refine ⟨h.ext, fun m => ?_, h.core, h.buf⟩
  by_cases e : m = n
  · rw [e, State.part_modPart_self, hf, h.part]
  · rw [State.part_modPart_ne _ e, h.part]
theorem Calm.modCore (h : Calm s u) (c : Nat) {f : Core → Core} (hf : ∀ k, (f k).inPitch = k.inPitch := by intro _; rfl) : Calm s (u.modCore c f) := by
  refine ⟨h.ext, h.part, fun d => ?_, h.buf⟩
  by_cases e : d = c
  · rw [e, State.core_modCore_self, hf, h.core]
  · rw [State.core_modCore_ne _ e, h.core]
theorem Calm.modCluster (h : Calm s u) (c : Nat) {f : Cluster → Cluster}
    (hf : ∀ q, q.journalBuf <+: (f q).journalBuf := by intro _; exact List.prefix_rfl) : Calm s (u.modCluster c f) := by
  refine ⟨h.ext, h.part, h.core, fun d => ?_⟩
  by_cases e : d = c
  · subst e
    rw [State.cluster_modCluster_self]
    exact (h.buf d).trans (hf _)
  · rw [State.cluster_modCluster_ne _ e]
    exact h.buf d
theorem Calm.modStream (h : Calm s u) (k : Nat) (f : Stream → Stream) : Calm s (u.modStream k f) := ⟨h.ext, h.part, h.core, h.buf⟩
theorem Calm.modGroup (h : Calm s u) (g : Nat) (f : Group → Group) : Calm s (u.modGroup g f) := ⟨h.ext, h.part, h.core, h.buf⟩
theorem Calm.modCm (h : Calm s u) (f : CoreMem → CoreMem) : Calm s (u.modCm f) := ⟨h.ext, h.part, h.core, h.buf⟩
theorem Calm.modPow (h : Calm s u) (f : Power → Power) : Calm s (u.modPow f) := ⟨h.ext, h.part, h.core, h.buf⟩
theorem Calm.modRel (h : Calm s u) (f : Rel → Rel) : Calm s (u.modRel f) := ⟨h.ext, h.part, h.core, h.buf⟩
theorem Calm.modMem (h : Calm s u) (f : Mem → Mem) : Calm s (u.modMem f) := ⟨h.ext, h.part, h.core, h.buf⟩
theorem Calm.modPins (h : Calm s u) (f : Pins → Pins) : Calm s (u.modPins f) := ⟨h.ext, h.part, h.core, h.buf⟩
theorem Calm.release (h : Calm s u) (p : Nat → Bool) : Calm s (u.release p) := ⟨h.ext, h.part, h.core, h.buf⟩
theorem Calm.dset (h : Calm s u) (k x : Nat) : Calm s (u.dset k x) := ⟨h.ext, h.part, h.core, h.buf⟩
theorem Calm.dadd (h : Calm s u) (k x : Nat) : Calm s (u.dadd k x) := ⟨h.ext, h.part, h.core, h.buf⟩
theorem Calm.dadd64 (h : Calm s u) (k x : Nat) : Calm s (u.dadd64 k x) := ⟨h.ext, h.part, h.core, h.buf⟩
theorem Calm.out (h : Calm s u) (o : Output) : Calm s (u.out o) := by
  rw [State.out, State.outs_eq]
  exact ⟨h.ext, h.part, h.core, h.buf⟩
theorem Warned.calm (h : Warned s u) : Calm s u := by
  refine ⟨by rw [h.clk], fun n => by rw [h.part], fun c => ?_, fun c => ?_⟩
  · rw [State.core, h.only]
    rfl
  · rw [State.cluster, State.cluster, h.only]

/-! ### Slots, projections and tiles -/

theorem modSlot_marks (p : Part) (i : Nat) (f : Slot → Slot) : (modSlot p i f).marks = p.marks := by
  unfold modSlot
  split <;> rfl
theorem Calm.setSlot (h : Calm s u) (n i : Nat) (f : Slot → Slot) : Calm s (u.setSlot n i f) := h.modPart n fun p => modSlot_marks p i f
theorem Calm.modProj (h : Calm s u) (n p : Nat) (f : Proj → Proj) : Calm s (u.modProj n p f) := by
  refine h.modPart n fun q => ?_
  split
  · exact modSlot_marks q _ _
  · rfl
theorem Calm.tileWriteHdr (h : Calm s u) (t : Tile) (o : Nat) (b : Bytes) : Calm s (u.tileWriteHdr t o b) :=
  .foldl (fun _ _ k => .ite (k.modMem _) k) _ h
theorem Calm.dropRows (h : Calm s u) (t : Tile) : Calm s (u.dropRows t) := .foldl (fun _ r k => k.modCore r.core) _ h
theorem Calm.switchProj (h : Calm s u) (n p : Nat) : Calm s (u.switchProj n p) := by
  unfold State.switchProj
  extract_lets q sl
  split
  · exact h
  · exact ((h.modProj _ _ _).dropRows _ |>.tileWriteHdr _ _ _).dadd _ _
theorem Calm.readOn (h : Calm s u) (n : Nat) : Calm s (u.readOn n) := by
  unfold State.readOn
  split
  · exact h
  · exact ⟨h.ext, h.part, h.core, h.buf⟩
theorem Calm.applySwitches (h : Calm s u) (n : Nat) : Calm s (u.applySwitches n) :=
  .each (fun _ _ k => .ite (k.switchProj _ _) k) _ (h.readOn n)

/-! ### Caches, streams and groups -/

theorem Calm.relist (h : Calm s u) (n c : Nat) : Calm s (u.relist n c) := by
  unfold State.relist
  extract_lets want a
  refine .foldl (fun b r k => ?_) _ (h.modCore c)
  split
  · exact k
  · dsimp only
    split
    · exact k.modCore c
    · exact k.modCore c
theorem Calm.settleCaches (h : Calm s u) (n adapt limit : Nat) : Calm s (u.settleCaches n adapt limit) :=
  .ite (.each (fun _ c k => k.relist n c) _ h) (.ite (.each (fun _ c k => k.modCore c) _ h) h)
theorem Calm.forceStreams (h : Calm s u) (n : Nat) : Calm s (u.forceStreams n) :=
  .each (fun _ _ k => .ite k (k.modStream _ _)) _ h
theorem Calm.forceGroups (h : Calm s u) (n : Nat) : Calm s (u.forceGroups n) :=
  .each (fun _ _ k => .ite k (k.modGroup _ _)) _ h
theorem Calm.bump (h : Calm s u) (c off a : Nat) : Calm s (u.bump c off a) := by
  rw [u.counted_bump c off a]
  exact ⟨h.ext, h.part, h.core, h.buf⟩
theorem Calm.absorbCount (h : Calm s u) (c off a : Nat) : Calm s (u.absorbCount c off a) := by
  unfold State.absorbCount
  extract_lets b
  have hb : Calm s b := .modCore (h.bump c off a) c
  split
  · exact hb.dadd64 _ _
  · exact hb

/-! ### The governor's requirements -/

theorem Calm.modHalf (h : Calm s u) (x : Nat) (f : Half → Half) : Calm s (u.modHalf x f) := .ite (h.modPow _) (h.modPow _)
theorem Calm.joinHalf (h : Calm s u) (n x : Nat) : Calm s (u.joinHalf n x) := h.modHalf x _
theorem Calm.follow (h : Calm s u) (x : Nat) : Calm s (u.follow x) := by
  unfold State.follow
  split
  · exact h
  · exact h.modHalf x _
theorem Calm.setNeed (h : Calm s u) (n x w : Nat) : Calm s (u.setNeed n x w) := .follow (.modPart h n) x

/-! ### Ledgers and reports -/

theorem Calm.mark (h : Calm s u) (n type x y z : Nat) : Calm s (u.mark n type x y z) := .modPart h n
theorem Calm.ledgerFlag (h : Calm s u) (n b : Nat) : Calm s (u.ledgerFlag n b) := .modPart h n
theorem Calm.ledgerDrop (h : Calm s u) (n c a : Nat) : Calm s (u.ledgerDrop n c a) := .ite h (.ledgerFlag (.modCore h c) n 4)
theorem Calm.updateFaultN (h : Calm s u) : Calm s u.updateFaultN := by
  unfold State.updateFaultN
  extract_lets act a low calm
  exact .modPins (h.dset _ _) _
theorem Calm.emergency (h : Calm s u) (ecode sev n detail : Nat) : Calm s (u.emergency ecode sev n detail) :=
  h.trans (u.warned_emergency ecode sev n detail).calm
theorem Calm.overClear (h : Calm s u) (a n : Nat) : Calm s (u.overClear a n) := h.modMem _
theorem Calm.report (h : Calm s u) (r : FaultReport) : Calm s (u.report r) := by
  unfold State.report
  extract_lets seq sec used logged a b c d e f
  have hb : Calm s b := (h.dset _ _).modRel _
  have hc : Calm s c := .ite (.overClear (.overClear hb _ _) _ _) hb
  have he : Calm s e := .updateFaultN (.ite hc (hc.dadd _ _))
  have hf : Calm s f := by
    dsimp only [f]
    split
    · exact (he.mark _ _ _ _ _).ledgerFlag _ _
    · exact he
  exact .ite (h.modRel _) (.ite hf (.emergency (hf.dadd _ _) _ _ _ _))
theorem Calm.reportUnit (h : Calm s u) (code sev kind unit : Nat) (n : Option Nat) (detail : Nat) :
    Calm s (u.reportUnit code sev kind unit n detail) := h.report _

/-! ### Core memory -/

theorem Calm.setNeuron (h : Calm s u) (g : Nat) (w : BitVec 64) : Calm s (u.setNeuron g w) := h.modCm _
theorem Calm.loadRecords (h : Calm s u) (t : Tile) (c : Nat) : Calm s (u.loadRecords t c) :=
  .each (fun _ _ k => k.modCm _) _ (.each (fun _ _ k => k.modCm _) _ h)
theorem Calm.loadWords (h : Calm s u) (t : Tile) (c : Nat) : Calm s (u.loadWords t c) := .each (fun _ _ k => k.setNeuron _ _) _ h
theorem Calm.enterResident (h : Calm s u) (sl : Slot) (c : Nat) : Calm s (u.enterResident sl c).1 := by
  unfold State.enterResident
  have hfold : ∀ (l : List Nat) (p : State × Bool), Calm s p.1 → Calm s (l.foldl (fun (p : State × Bool) r =>
      let x := p.1.rowUnits sl c r
      if p.2 then p
      else if 32 * (residentUnits (p.1.core c).cache + x) ≤ 1024 * p.1.eff (kCacheResidentLimit (p.1.coreN c)) then
        (p.1.modCore c (fun k => { k with cache := k.cache ++ [⟨.row, r, .resident, 0, x, false⟩] }), false)
      else (p.1, true)) p).1 := by
    intro l
    induction l with
    | nil => exact fun _ hp => hp
    | cons r l ih =>
      refine fun p hp => ih _ ?_
      dsimp only
      split
      · exact hp
      · split
        · exact hp.modCore c
        · exact hp
  exact hfold _ _ h
theorem Calm.loadSpare (h : Calm s u) (c : Nat) : Calm s (u.loadSpare c) := by
  unfold State.loadSpare
  extract_lets sl ca a b base d
  have ha : Calm s a := .modCore h c
  have hb : Calm s b := by
    dsimp only [b]
    split
    · exact ha
    · exact .ite (ha.loadRecords _ c) ((ha.loadRecords _ c).loadWords _ c)
  exact .enterResident (.ite (hb.modCm _) hb) sl c
theorem Calm.clearGuard (h : Calm s u) (c : Nat) : Calm s (u.clearGuard c) := h.modCm _

end Sys2Proof.Machine
end

section
/-!
PROOFS of the statements on pitches (spec 02): every command of time and of a pitch completes (O56).
-/

namespace Sys2Proof.Machine

variable {s u v : State}

/-! ### PITCH_OPEN (R39) -/

theorem Calm.openProjs (h : Calm s u) (n p : Nat) : Calm s (u.openProjs n p) :=
  .modPart (.each (fun _ _ k => k.modProj _ _ _) _ (.foldl (fun _ _ k => k.mark _ _ _ _ _) _ h)) n


/-- The sequencer of a partition whose pitch `num` opens at `now`. -/
def Opened (n num now : Nat) (u : State) : Prop :=
  (u.part n).seq.isOpen = true ∧ (u.part n).seq.pitch = num ∧ (u.part n).seq.openAt = now

theorem Opened.of_seq {n num now : Nat} (h : Opened n num now u) (k : (v.part n).seq = (u.part n).seq) : Opened n num now v := by
  rwa [Opened, k]

theorem State.modHalf_clk (s : State) (h : Nat) (f : Half → Half) : (s.modHalf h f).clk = s.clk := by
  unfold State.modHalf
  split <;> rfl

theorem State.opened_openPitch (s : State) (n num inst : Nat) : Opened n num s.now (s.openPitch n num inst) := by
  unfold State.openPitch
  extract_lets p free held a b c d e f g
  have hclk : d.clk = s.clk := by
    have hb : b.clk = s.clk := by
      dsimp only [b]
      split <;> rfl
    have hc : c.clk = b.clk := each_clk (fun s h => s.modHalf_clk h _) _ b
    calc d.clk = c.clk := rfl
      _ = s.clk := hc.trans hb
  have he : Opened n num s.now e := by
    rw [Opened, State.part_modPart_self]
    exact ⟨rfl, rfl, congrArg Clock.now hclk⟩
  have hf : Opened n num s.now f :=
    he.of_seq (((Calm.refl _).openProjs n num).seq n |>.trans ((State.openScales_sq n num (SeqKept.refl e)).kept n).1)
  have hg : SeqKept f g := State.each_sq _ (fun _ _ k => State.modCluster_sq _ _ k) (SeqKept.refl f)
  refine hf.of_seq ((State.each_sq _ (fun _ _ k => ?_) hg).kept n).1
  split
  · exact State.encodeStream_sq _ _ _ _ _ k
  · exact k

theorem exec_pitchOpen {n t num inst : Nat} (hp : ((s.at t).part n).seq.pendTick = some (num, inst)) (hm : (s.at t).mayOpen n inst = true) :
    exec (.pitchOpen n t) s = .next ((s.at t).openPitch n num inst) := by
  show execPitchOpen n t s = _
  simp only [execPitchOpen, hp, hm, if_true]

/-! ### Marks of an open pitch (R43, R51, R56, R57) -/

/-- WATCH_POINT marks the pitch (R51). -/
theorem watchPoint_watched {n t : Nat} (ho : ((s.at t).part n).seq.isOpen = true)
    (hw : ((s.at t).part n).seq.openAt * 100 + (s.at t).eff (kWatchFraction n) * ((s.at t).periodNs n - (s.at t).guardNs n) ≤ (s.at t).now * 100) :
    ∃ u, exec (.watchPoint n t) s = .next u ∧ (u.part n).seq.watched = true := by
  refine ⟨_, rfl, ?_⟩
  by_cases hq : ((s.at t).part n).seq.watched = true
  · rw [if_neg (by simp [hq])]
    exact hq
  · rw [if_pos (by simp [ho, hq, hw])]
    extract_lets a hs
    have ha : (a.part n).seq.watched = true := by rw [State.part_modPart_self]
    split
    · exact ha
    · rw [State.part_dadd, (Calm.each (fun _ _ k => k.setNeed _ _ _) _ (Calm.refl a)).seq n]
      exact ha

theorem State.overran_overrun (s : State) (n : Nat) : ((s.overran n).part n).seq.overrun = true := by
  unfold State.overran
  split
  · assumption
  · rw [State.ledgerFlag, State.part_modPart_self, State.part_dadd, State.part_modPart_self]
theorem exec_deadline {n t : Nat} (ho : ((s.at t).part n).seq.isOpen = true) (hd : (s.at t).deadlineOf n < (s.at t).now) :
    exec (.deadline n t) s = .next ((s.at t).overran n) := by
  show execDeadline n t s = _
  refine congrArg Host.Outcome.next (if_pos ?_)
  simp [ho, hd]

/-- TRUNCATE_INSTANT sets the truncate instant, once (R57). -/
theorem truncateInstant_truncAt {n d t : Nat} (ho : ((s.at t).part n).seq.isOpen = true) (hd : (s.at t).truncDue n = some d) (hl : d ≤ (s.at t).now) :
    ∃ u, exec (.truncateInstant n t) s = .next u ∧ (u.part n).seq.truncAt = some (((s.at t).part n).seq.truncAt.getD (s.at t).now) := by
  refine ⟨_, rfl, ?_⟩
  dsimp only
  rw [hd]
  dsimp only
  cases hq : ((s.at t).part n).seq.truncAt with
  | some x => rw [if_neg (by simp), hq, Option.getD_some]
  | none =>
    rw [if_pos (by simp [ho, hl]), State.ledgerFlag, State.part_modPart_self, State.part_dadd, State.part_modPart_self, Option.getD_none]

/-- Is the belay picot of a core overdue in the open pitch (R43, R58, R172)? -/
def State.belayLate (a : State) (n : Nat) : Prop :=
  (a.part n).seq.openAt + 10 * a.periodNs n ≤ a.now ∨ (∃ x, (a.part n).seq.truncAt = some x ∧ a.truncLate n x = true) ∨
    ∃ x, (a.part n).seq.absorbAt = some x ∧ x + 60000 ≤ a.now

theorem exec_belayTimeout {n c t : Nat} (ho : ((s.at t).part n).seq.isOpen = true) (hl : (s.at t).belayLate n) (hc : c ∈ (s.at t).partCores n)
    (hb : ((s.at t).core c).belaySent = false) (hq : c ∉ ((s.at t).part n).seq.timedOut) : exec (.belayTimeout n c t) s = .next
      (((s.at t).modPart n (fun p => { p with seq := { p.seq with timedOut := p.seq.timedOut ++ [c] } })).failCore c 0x0101 0) := by
  show execBelayTimeout n c t s = _
  unfold execBelayTimeout
  extract_lets a q late
  have hlate : late = true := by
    rcases hl with h | ⟨x, hx, h⟩ | ⟨x, hx, h⟩
    · simp [late, q, a, h]
    · simp [late, q, a, hx, h]
    · simp [late, q, a, hx, h]
  refine congrArg Host.Outcome.next (if_pos ?_)
  simp [q, a, ho, hlate, hc, hb, hq]
theorem exec_belayTimeout_again {n c t : Nat} (hq : c ∈ ((s.at t).part n).seq.timedOut) : exec (.belayTimeout n c t) s = .next (s.at t) := by
  show execBelayTimeout n c t s = _
  unfold execBelayTimeout
  extract_lets a q late
  exact congrArg Host.Outcome.next (if_neg (by simp [q, a, hq]))

/-- A core that has not sent its belay picot in time is noted as such (R43). -/
theorem belayTimeout_timedOut {n c t : Nat} (ho : ((s.at t).part n).seq.isOpen = true)
    (hl : (s.at t).belayLate n) (hc : c ∈ (s.at t).partCores n) (hb : ((s.at t).core c).belaySent = false) :
    ∃ u, exec (.belayTimeout n c t) s = .next u ∧ c ∈ (u.part n).seq.timedOut := by
  by_cases hq : c ∈ ((s.at t).part n).seq.timedOut
  · exact ⟨_, exec_belayTimeout_again hq, hq⟩
  · refine ⟨_, exec_belayTimeout ho hl hc hb hq, ?_⟩
    rw [State.failCore, ((State.declareFailed_sq c (State.reportUnit_sq _ _ _ _ _ _ (SeqKept.refl _))).kept n).1, State.part_modPart_self]
    exact List.mem_append_right _ (List.mem_singleton_self c)

/-! ### The end of a run (R173) -/

theorem State.absorbCount_parts (s : State) (c off a : Nat) : (s.absorbCount c off a).parts = s.parts := by
  rw [(s.absorbed_absorbCount c off a).only]
theorem State.discardPending_parts (s : State) (c : Nat) : (s.discardPending c).parts = s.parts := s.absorbCount_parts c _ _

/-- A disable that takes effect leaves a quiesced partition quiesced, and ends its CONTINUE. -/
theorem State.disableEffect_loss (s : State) (n : Nat) :
    ((s.disableEffect n).part n).quiesced = (s.part n).quiesced ∧ ((s.disableEffect n).part n).contLeft = none := by
  unfold State.disableEffect
  extract_lets p a b c d e adapt limit
  have ha : a.parts = s.parts := by
    have hfold : ∀ (l : List Nat) (b : State), (b.each l (fun s c => (s.discardPending c).modCore c (fun k => { k with
        isOpen := false
        intake := []
        mode := if k.mode = .excused then .live else k.mode
        catchUp := if k.mode = .excused then none else k.catchUp }))).parts = b.parts := by
      intro l
      induction l with
      | nil => exact fun _ => rfl
      | cons c l ih => exact fun b => (ih _).trans (b.discardPending_parts c)
    exact hfold _ s
  have hd : d.part n = s.part n := by
    rw [State.part, State.part, ← ha]
    dsimp only [d]
    split <;> rfl
  have hcalm : Calm e (((((e.release (e.stopKey n)).settleCaches n adapt limit).forceStreams n).forceGroups n).applySwitches n) :=
    ((((Calm.refl e).release _).settleCaches n adapt limit |>.forceStreams n).forceGroups n).applySwitches n
  rw [hcalm.quiesced, hcalm.contLeft, State.part_modPart_self, hd]
  exact ⟨rfl, rfl⟩
theorem State.disableBelay_quiesced (s : State) (n : Nat) : ((s.disableBelay n).part n).quiesced = (s.part n).quiesced := by
  unfold State.disableBelay
  split
  · rw [State.part_modPart_self]
  · exact (s.disableEffect_loss n).1
theorem State.disableBelay_contLeft {n : Nat} (h : (s.part n).contLeft = none) : ((s.disableBelay n).part n).contLeft = none := by
  unfold State.disableBelay
  split
  · rwa [State.part_modPart_self]
  · exact (s.disableEffect_loss n).2

/-! ### CADENCE_LOSS (R62) -/

theorem State.startHold_part (s : State) (n : Nat) (was : Bool) (m : Nat) : (s.startHold n was).part m = s.part m := by
  have hfold : ∀ (l : List Nat) (b : State),
      (b.each l (fun s g => s.modGroup g (fun q => { q with held := if was then q.held.or q.last else q.last }))).part m = b.part m := by
    intro l
    induction l with
    | nil => exact fun _ => rfl
    | cons g l ih => exact fun b => ih _
  exact hfold _ s

theorem Warned.eff (h : Warned s u) {k : Nat} (hk : k ∉ noticeKeys) : u.eff k = s.eff k := by
  have hh : u.heldVals = s.heldVals := by rw [h.only]
  rw [State.eff, State.eff, hh, h.dget k hk]

/-- CADENCE_STATE LOST, with its emergency object. -/
def State.loseCadence (a : State) (n : Nat) : State := (a.dset (kCadenceState n) 3).warn 0x0002 n 0

theorem State.loseCadence_action (a : State) (n : Nat) : (a.loseCadence n).eff (kCadenceLossAction n) = a.eff (kCadenceLossAction n) := by
  have hnotice : kCadenceLossAction n ∉ noticeKeys := by
    simp only [noticeKeys, kCadenceLossAction, kEmergenciesIssued, kEmergencySuppressed, kNoticeOverflows, List.mem_cons, List.not_mem_nil, or_false]
    omega
  have hkey : kCadenceLossAction n ≠ kCadenceState n := by
    simp only [kCadenceLossAction, kCadenceState]
    omega
  rw [State.loseCadence, (State.warned_warn _ _ _ _).eff hnotice, State.eff, State.dget_dset_ne _ hkey]
  rfl

theorem exec_cadenceLoss {n t : Nat} (hr : running ((s.at t).part n) = true) (hs : 2 ≤ (s.at t).dget (kCadenceSource n))
    (hc : (s.at t).dget (kCadenceState n) ≠ 3)
    (hl : ((s.at t).part n).seq.lastTick + (s.at t).eff (kCadenceTimeout n) * (s.at t).periodNs n ≤ (s.at t).now) :
    exec (.cadenceLoss n t) s = .next
      (let b := (s.at t).loseCadence n
       if b.eff (kCadenceLossAction n) = 0 then (b.modPart n (fun p => { p with hold := true })).startHold n (b.holding n)
       else
         let d := b.modPart n (fun p => { p with quiesced := true })
         if ((s.at t).part n).state = .enabled then d.disableBelay n else d) := by
  show execCadenceLoss n t s = _
  refine congrArg Host.Outcome.next (if_pos ?_)
  simp [hr, hs, hc, hl]

/-- A loss of the cadence holds the outputs of its partition, or quiesces it. -/
theorem cadenceLoss_acts {n t : Nat} (hr : running ((s.at t).part n) = true) (hs : 2 ≤ (s.at t).dget (kCadenceSource n))
    (hc : (s.at t).dget (kCadenceState n) ≠ 3)
    (hl : ((s.at t).part n).seq.lastTick + (s.at t).eff (kCadenceTimeout n) * (s.at t).periodNs n ≤ (s.at t).now) :
    ∃ u, exec (.cadenceLoss n t) s = .next u ∧
      if (s.at t).eff (kCadenceLossAction n) = 0 then (u.part n).hold = true else (u.part n).quiesced = true := by
  refine ⟨_, exec_cadenceLoss hr hs hc hl, ?_⟩
  extract_lets b d
  have hb : b.eff (kCadenceLossAction n) = (s.at t).eff (kCadenceLossAction n) := (s.at t).loseCadence_action n
  by_cases h0 : (s.at t).eff (kCadenceLossAction n) = 0
  · rw [if_pos h0, if_pos (hb.trans h0), State.startHold_part, State.part_modPart_self]
  · have hd : (d.part n).quiesced = true := by rw [State.part_modPart_self]
    rw [if_neg h0, if_neg (hb.trans_ne h0)]
    split
    · exact (d.disableBelay_quiesced n).trans hd
    · exact hd

/-! ### Belays and the end of CONTINUE (R41, R450) -/

theorem State.noteBelay_belays (s : State) (n cl : Nat) : ((s.noteBelay n cl).part n).seq.belays = (s.part n).seq.belays ++ [cl] := by
  rw [State.noteBelay, State.part_dset, State.part_modPart_self]

/-- A cluster belay that is not the last one is held by the sequencer. -/
theorem clusterBelay_held {n cl x t : Nat} (ho : ((s.at t).part n).seq.isOpen = true) (hm : ((s.at t).part n).mask.testBit cl = true)
    (hs : ((s.at t).cluster cl).belaySent = true) (hx : x ∈ partClusters ((s.at t).part n)) (hne : x ≠ cl)
    (hn : x ∉ ((s.at t).part n).seq.belays) : ∃ u, exec (.clusterBelay n cl t) s = .next u ∧ cl ∈ (u.part n).seq.belays := by
  by_cases hb : cl ∈ ((s.at t).part n).seq.belays
  · refine ⟨_, rfl, ?_⟩
    dsimp only
    rw [if_neg (by simp [hb])]
    exact hb
  · refine ⟨_, exec_clusterBelay ho hm hs hb, ?_⟩
    rw [if_neg (fun hall => (hall x hx).elim hne hn), State.noteBelay_belays]
    exact List.mem_append_right _ (List.mem_singleton_self cl)

theorem continueExpiry_quiesces {n t : Nat} (hl : ((s.at t).part n).hostLoss = true) (hc : ((s.at t).part n).contLeft = some 0) :
    ∃ u, exec (.continueExpiry n t) s = .next u ∧ (u.part n).quiesced = true ∧ (u.part n).contLeft = none := by
  refine ⟨_, exec_continueExpiry hl hc, ?_⟩
  extract_lets b
  have hb : (b.part n).quiesced = true ∧ (b.part n).contLeft = none := by
    rw [State.part_modPart_self]
    exact ⟨rfl, rfl⟩
  split
  · exact ⟨(b.disableBelay_quiesced n).trans hb.1, State.disableBelay_contLeft hb.2⟩
  · exact hb

/-- Settles O56, command by command. -/
theorem pitchCommandsComplete : Obligations.PitchCommandsComplete := by
  unfold Obligations.PitchCommandsComplete
  refine ⟨fun s n k t => ?_, fun s rising t => ?_, fun s t x y => ?_, fun s f w t => ?_, fun s n t num inst => ?_, fun s n t => watchPoint_watched,
    fun s n t => ?_, fun s n d t => truncateInstant_truncAt, fun s n c t => belayTimeout_timedOut, fun s n t => cadenceLoss_acts,
    fun s m offset t => ?_, fun s t => ?_, fun s t => ?_, fun s n cl x t => clusterBelay_held, fun s n t => continueExpiry_quiesces⟩
  · intro a late hb hk h0 hp hlast hfirst
    obtain ⟨u, he, ht, _⟩ := tsnTick_ticks ⟨(Int.toNat_of_nonneg h0).symm, hb, hk, (Int.toNat_lt h0).2 hp, hfirst, hlast⟩
    exact ⟨u, he, ht.1⟩
  · intro a hr hi
    obtain ⟨u, he, _, _, hcount, hticks, _⟩ := cadenceInEdge_ticks hr hi
    exact ⟨u, he, hcount, fun n hn hs => ((hticks n hn).ticked hs).1⟩
  · obtain ⟨u, he, hclk, _⟩ := quadTransition_ticks (s := s) t x y
    exact ⟨u, he, by rw [hclk], by rw [hclk]⟩
  · intro a h
    obtain ⟨u, he, hticks, _⟩ := pitchTrigger_ticks (f := f) (w := w) h
    exact ⟨u, he, fun n hn hw hf hs => ((hticks n hn hw hf).ticked hs).1⟩
  · exact fun hp hm => ⟨_, exec_pitchOpen hp hm, (s.at t).opened_openPitch n num inst⟩
  · exact fun ho hd => ⟨_, exec_deadline ho hd, (s.at t).overran_overrun n⟩
  · intro a hport hcode hup hdomain hp2p hfast hslow hsub
    obtain ⟨u, he, hclk, _⟩ := syncMessage_sets offset ⟨hport, hcode, hup, hdomain, hp2p, hfast, hslow, hsub⟩
    exact ⟨u, he, by rw [hclk, State.synced_clk]⟩
  · exact fun hs h => ⟨_, exec_syncTimeout hs h, (s.at t).dget_dset_self kTimeState 2, rfl⟩
  · intro a hs hl hlim
    refine ⟨_, exec_holdoverLimit hs hl hlim, fun n hn hr hc => ?_⟩
    exact each_loseTime (List.mem_filter.2 ⟨List.mem_range.2 hn, Bool.and_eq_true_iff.2 ⟨hr, beq_iff_eq.2 hc⟩⟩) _

end Sys2Proof.Machine
end

section
/-!
PROOFS of the statements on pitches (spec 02): every command of a core in its pitch completes (O57).
-/

namespace Sys2Proof.Machine

variable {s u v : State} {c : Nat}

/-! ### EMIT and TRACE (R84, R120, R189) -/


theorem Calm.storeHalf (h : Calm s u) (n : Nat) (t : Tile) (o : Nat) (x : F32) : Calm s (u.storeHalf n t o x) := (h.tileWriteHdr _ _ _).dadd _ _
theorem Calm.raiseTrace (h : Calm s u) (n : Nat) (t : Tile) (o : Nat) (d : F16) (p k : Nat) : Calm s (u.raiseTrace n t o d p k) :=
  (h.storeHalf _ _ _ _).tileWriteHdr _ _ _
theorem Calm.tracePost (h : Calm s u) (n : Nat) (t : Tile) (r : Run) (bank q k p : Nat) : Calm s (u.tracePost n t r bank q k p) :=
  .dadd64 (.raiseTrace (.foldl (fun _ _ k => k.storeHalf _ _ _ _) _ h) _ _ _ _ _ _) _ _
theorem Calm.tracePre (h : Calm s u) (n : Nat) (t : Tile) (r : Run) (bank x : Nat) (row : Row) (k p : Nat) :
    Calm s (u.tracePre n t r bank x row k p) :=
  .dadd64 (.raiseTrace (.foldl (fun _ _ k => .ite (k.dadd _ _) (k.storeHalf _ _ _ _)) _ h) _ _ _ _ _ _) _ _
theorem Calm.traceSpike (h : Calm s u) (sl : Slot) (c : Nat) (sp : Spike) : Calm s (u.traceSpike sl c sp) :=
  .ite h (.ite (h.absorbCount _ _ _) (.foldl (fun _ _ k => k.tracePost _ _ _ _ _ _ _) _ h))

theorem Calm.pushHaul (h : Calm s u) (x : Haul) : Calm s (u.pushHaul x) := ⟨h.ext, h.part, h.core, h.buf⟩
theorem Calm.launchHaul (h : Calm s u) (c : Nat) (o : OpenHaul) : Calm s (u.launchHaul c o) := by
  unfold State.launchHaul
  extract_lets kind a
  exact .bump (.pushHaul (.modCore h c) _) c _ _
theorem Calm.launchAll (h : Calm s u) (c : Nat) : Calm s (u.launchAll c) := .foldl (fun _ _ k => k.launchHaul c _) _ h
theorem Calm.emitTo (h : Calm s u) (c dst : Nat) (ev : List (BitVec 64)) (rem : List RemoteRec) : Calm s (u.emitTo c dst ev rem) := by
  unfold State.emitTo
  extract_lets k a b
  have ha : Calm s a := by
    refine .ite h ?_
    split
    · exact h.launchHaul c _
    · exact h
  have hb : Calm s b := by
    refine ha.modCore c fun k => ?_
    split <;> rfl
  split
  · exact .ite (hb.launchHaul c _) hb
  · exact hb
theorem Calm.sendEvent (h : Calm s u) (c g n e : Nat) : Calm s (u.sendEvent c g n e) := .ite (h.emitTo _ _ _ _) (.ite (h.emitTo _ _ _ _) h)
theorem Calm.cacheRead (h : Calm s u) (c : Nat) (kd : CacheKind) (i units : Nat) : Calm s (u.cacheRead c kd i units) := by
  unfold State.cacheRead
  extract_lets l a
  have ha : Calm s a := h.bump c _ _
  split
  · exact .bump (h.modCore c) c _ _
  · split
    · exact ha.modCore c
    · exact ha
theorem Calm.discardEvents (h : Calm s u) (c a : Nat) : Calm s (u.discardEvents c a) := .ite (h.modCore c) (h.absorbCount c _ _)
theorem Calm.emitSpike (h : Calm s u) (sl : Slot) (c : Nat) (sp : Spike) : Calm s (u.emitSpike sl c sp) := by
  unfold State.emitSpike
  extract_lets a held es b
  have ha : Calm s a := h.traceSpike sl c sp
  have hb : Calm s b := .ite (ha.cacheRead _ _ _ _) (ha.bump _ _ _)
  exact .ite (.modCore (ha.bump _ _ _) c) (.ite (ha.discardEvents _ _) (.foldl (fun _ _ k => k.sendEvent _ _ _ _) _ hb))

/-- What JOURNAL and EMIT take of the first spike that waits. -/
def State.takeSpike (s : State) (c : Nat) (sp : Spike) (r : List Spike) : State :=
  (s.modCluster (clusterOf c) (fun q => { q with journalBuf := q.journalBuf ++ [.spike sp.n sp.withheld (c * 16384 + sp.q)] })).modCore c
    (fun k => { k with emitQ := r })

theorem Calm.takeSpike (h : Calm s u) (c : Nat) (sp : Spike) (r : List Spike) : Calm s (u.takeSpike c sp r) :=
  .modCore (.modCluster h _ fun _ => List.prefix_append _ _) c

theorem State.emitWaiting_nil (sl : Slot) (fuel : Nat) (h : (s.core c).emitQ = []) : s.emitWaiting sl c (fuel + 1) =
    let b := s.modCore c (fun k => { k with stalled := false })
    if (b.core c).sweepDone then b.launchAll c else b := by
  rw [State.emitWaiting, h]
theorem State.emitWaiting_full (sl : Slot) (fuel : Nat) {sp : Spike} {r : List Spike} (h : (s.core c).emitQ = sp :: r)
    (hf : 512 ≤ (s.cluster (clusterOf c)).journalBuf.length) : s.emitWaiting sl c (fuel + 1) = s.modCore c (fun k => { k with stalled := true }) := by
  rw [State.emitWaiting, h]
  exact if_pos hf
theorem State.emitWaiting_cons (sl : Slot) (fuel : Nat) {sp : Spike} {r : List Spike} (h : (s.core c).emitQ = sp :: r)
    (hf : (s.cluster (clusterOf c)).journalBuf.length < 512) :
    s.emitWaiting sl c (fuel + 1) = ((s.takeSpike c sp r).emitSpike sl c sp).emitWaiting sl c fuel := by
  rw [State.emitWaiting, h]
  exact if_neg (Nat.not_le.2 hf)

theorem Calm.emitWaiting (h : Calm s u) (sl : Slot) (c fuel : Nat) : Calm s (u.emitWaiting sl c fuel) := by
  induction fuel generalizing u with
  | zero => exact h
  | succ fuel ih =>
    cases hq : (u.core c).emitQ with
    | nil =>
      rw [State.emitWaiting_nil sl fuel hq]
      have hb : Calm s (u.modCore c (fun k => { k with stalled := false })) := h.modCore c
      exact .ite (hb.launchAll c) hb
    | cons sp r =>
      by_cases hf : 512 ≤ (u.cluster (clusterOf c)).journalBuf.length
      · rw [State.emitWaiting_full sl fuel hq hf]
        exact h.modCore c
      · rw [State.emitWaiting_cons sl fuel hq (Nat.not_le.1 hf)]
        exact ih ((h.takeSpike c sp r).emitSpike sl c sp)

/-! ### FETCH and ACCUMULATE (R94 to R96, R131) -/

theorem Calm.enterRow (h : Calm s u) (c row units : Nat) (l : List CacheObj) : Calm s (u.enterRow c row units l) := .modCore h c
theorem Calm.demandFetch (h : Calm s u) (sl : Slot) (c row : Nat) : Calm s (u.demandFetch sl c row).2 := by
  unfold State.demandFetch
  split
  · dsimp only
    exact .bump (.modCore h c) c _ _
  · split
    · exact h
    · split
      · dsimp only
        exact h.bump c _ _
      · extract_lets a units got
        have ha : Calm s a := (h.cacheRead _ _ _ _).bump _ _ _
        split
        · exact .ite (ha.enterRow _ _ _ _) ha
        · dsimp only
          exact ha.bump _ _ _
theorem Calm.fetchRow (h : Calm s u) (sl : Slot) (c : Nat) (w : BitVec 64) : Calm s (u.fetchRow sl c w).2 := by
  unfold State.fetchRow
  extract_lets g
  split <;> exact h.demandFetch sl c _
theorem Calm.addAcc (h : Calm s u) (c q : Nat) (x : Int) : Calm s (u.addAcc c q x) := .bump (h.modCm _) _ _ _
theorem Calm.outlierAdd (h : Calm s u) (c slot : Nat) (w : F16) (n : Nat) : Calm s (u.outlierAdd c slot w n) :=
  .bump (.modCm (h.bump _ _ _) _) _ _ _
theorem Calm.accumulateRow (h : Calm s u) (c n : Nat) (r : Row) : Calm s (u.accumulateRow c n r) :=
  .foldl (fun _ _ k => k.outlierAdd _ _ _ _) _ (.foldl (fun _ _ k => .foldl (fun _ _ k => k.addAcc _ _ _) _ (k.bump _ _ _)) _ h)
theorem Calm.accumulateEvent (h : Calm s u) (sl : Slot) (c t : Nat) (trace : Bool) (w : BitVec 64) :
    Calm s (u.accumulateEvent sl c t trace w) := by
  have hf := h.fetchRow sl c w
  unfold State.accumulateEvent
  split
  · next b hb =>
    rw [hb] at hf
    exact (Calm.bump hf _ _ _).reportUnit _ _ _ _ _ _
  · next row b hb =>
    rw [hb] at hf
    have ha : Calm s (b.accumulateRow c (evCount w) row) := Calm.accumulateRow hf _ _ _
    refine .ite ha ?_
    split
    · exact ha
    · exact ha.tracePre _ _ _ _ _ _ _ _

/-! ### OPEN in every mode (R122, R437, R440) -/

/-- Pitch `p` is open in core `c`. -/
def AtPitch (c p : Nat) (u : State) : Prop := (u.core c).isOpen = true ∧ (u.core c).pitch = p

variable {p : Nat}

theorem AtPitch.calm (h : AtPitch c p u) (k : Calm u v) : AtPitch c p v := ⟨(k.isOpen c).trans h.1, (k.pitch c).trans h.2⟩
theorem AtPitch.worked (h : AtPitch c p u) (k : Worked c u v) : AtPitch c p v := by
  have hm := k.marks
  simp only [Core.marks, Prod.mk.injEq] at hm
  exact ⟨hm.1.trans h.1, hm.2.1.trans h.2⟩
theorem State.atPitch_openBase (s : State) (c p : Nat) : AtPitch c p (s.openBase c p) := by
  rw [AtPitch, State.openBase, State.core_modCore_self]
  exact ⟨rfl, rfl⟩
theorem AtPitch.releaseCore (h : AtPitch c p u) : AtPitch c p (u.releaseCore c p) := h.worked ((Worked.refl c u).releaseCore p)
theorem AtPitch.openLive (h : AtPitch c p u) : AtPitch c p (u.openLive c p) := h.worked ((Worked.refl c u).openLive p)
theorem AtPitch.openIdle (h : AtPitch c p u) : AtPitch c p (u.openIdle c) := by
  rw [AtPitch, State.openIdle, State.core_modCore_self]
  exact h
theorem Calm.rejoin (h : Calm s u) (c : Nat) (x : CatchUp) (j : Nat) (cold : Bool) : Calm s (u.rejoin c x j cold) := by
  unfold State.rejoin
  extract_lets n a b d e
  have he : Calm s e := .dset (.dset (.modRel (.modCore h c) _) _ _) _ _
  exact .ite he (he.mark _ _ _ _ _)
theorem Calm.coldAtOpen (h : Calm s u) (c p : Nat) (x : CatchUp) : Calm s (u.coldAtOpen c p x) :=
  .reportUnit (.rejoin (.dadd (.loadSpare (.modCore (h.ledgerDrop _ _ _) c) c) _ _) _ _ _ _) _ _ _ _ _ _

/-- OPEN at a core that stands idle for the pitch. -/
theorem State.atPitch_idle (s : State) (c p : Nat) : AtPitch c p (((s.openBase c p).releaseCore c p).openIdle c) :=
  (s.atPitch_openBase c p).releaseCore.openIdle
theorem State.atPitch_openCore (s : State) (c p : Nat) : AtPitch c p (s.openCore c p) := by
  have hbase := s.atPitch_openBase c p
  unfold State.openCore
  extract_lets used
  split
  · exact s.atPitch_idle c p
  · exact s.atPitch_idle c p
  · split
    · exact s.atPitch_idle c p
    · split
      · exact (hbase.calm ((Calm.refl _).rejoin _ _ _ _)).openLive
      · split
        · exact (hbase.calm ((Calm.refl _).coldAtOpen _ _ _)).openLive
        · exact AtPitch.openIdle (hbase.releaseCore.calm ((Calm.refl _).modCore c))
  · split
    · exact hbase.openLive
    · exact hbase.openIdle

/-! ### Prefetches (R131, R133) -/

theorem State.core_bump (s : State) (c off a d : Nat) : (s.bump c off a).core d = s.core d := (s.counted_bump c off a).core d

/-- With room in the cache, a prefetch asks for its row. -/
theorem State.issuePrefetch_reads {sl : Slot} {r : Nat} {l : List CacheObj}
    (h : s.roomIn c (s.core c).cache (s.rowUnits sl c r + 1) = some l) : ∃ q ∈ ((s.issuePrefetch sl c r).core c).reads, q.row = r := by
  unfold State.issuePrefetch
  rw [h]
  dsimp only
  split
  · refine ⟨⟨r, true⟩, ?_, rfl⟩
    rw [State.core_bump, State.core_bump, State.core_modCore_self]
    exact List.mem_append_right _ (List.mem_singleton_self _)
  · refine ⟨⟨r, false⟩, ?_, rfl⟩
    rw [State.core_bump, State.core_modCore_self]
    exact List.mem_append_right _ (List.mem_singleton_self _)
/-- Without room, it is deferred. -/
theorem State.issuePrefetch_deferred {sl : Slot} {r : Nat} (h : s.roomIn c (s.core c).cache (s.rowUnits sl c r + 1) = none) :
    r ∈ ((s.issuePrefetch sl c r).core c).deferred := by
  unfold State.issuePrefetch
  rw [h]
  dsimp only
  rw [State.core_bump, State.core_modCore_self]
  dsimp only
  split
  · next hc => exact List.contains_iff_mem.1 hc
  · exact List.mem_append_right _ (List.mem_singleton_self r)

theorem exec_prefetch {r : Nat} (hm : s.mayRead c = true) (hn : s.nextPrefetch c = some r) :
    exec (.prefetch c) s = .next ((s.issuePrefetch (activeSlot (s.coreP c)) c r).modCore c repin) := by
  show execPrefetch c s = _
  rw [execPrefetch, hm, hn]
  rfl
theorem prefetch_asks {r : Nat} (hm : s.mayRead c = true) (hn : s.nextPrefetch c = some r) :
    ∃ u, exec (.prefetch c) s = .next u ∧ ((∃ q ∈ (u.core c).reads, q.row = r) ∨ r ∈ (u.core c).deferred) := by
  refine ⟨_, exec_prefetch hm hn, ?_⟩
  rw [State.core_modCore_self]
  cases h : s.roomIn c (s.core c).cache (s.rowUnits (activeSlot (s.coreP c)) c r + 1) with
  | some l => exact .inl (State.issuePrefetch_reads h)
  | none => exact .inr (State.issuePrefetch_deferred h)
theorem prefetchRetry_asks {r : Nat} {w : List Nat} (hm : s.mayRead c = true) (hd : (s.core c).deferred = r :: w) :
    ∃ u, exec (.prefetchRetry c) s = .next u ∧ ((∃ q ∈ (u.core c).reads, q.row = r) ∨ u = s) := by
  refine ⟨_, rfl, ?_⟩
  rw [hm, hd]
  dsimp only
  cases h : s.roomIn c (s.core c).cache (s.rowUnits (activeSlot (s.coreP c)) c r + 1) with
  | some l => exact .inl (State.issuePrefetch_reads h)
  | none => exact .inr rfl

/-- The reads of a core but those of one row. -/
theorem no_read_of_row {k : Core} {row : Nat} (q : RowRead) (hq : q ∈ k.reads.filter (fun q => q.row != row)) : q.row ≠ row := by
  simpa using (List.mem_filter.1 hq).2

/-- READ_DATA ends the read of a row, or its directory read. -/
theorem readData_completes {row : Nat} {ok done : Bool} (hf : (s.core c).reads.find? (fun q => q.row == row) = some ⟨row, done⟩) :
    ∃ u, exec (.readData c row ok) s = .next u ∧ ∀ q ∈ (u.core c).reads, q.row = row →
      done = false ∧ q.dirDone = true ∧ (s.core c).truncated = false ∧ (s.core c).absorbed = false := by
  refine ⟨_, rfl, ?_⟩
  rw [hf]
  dsimp only
  split
  · rw [State.core_modCore_self]
    exact fun q hq hr => absurd hr (no_read_of_row q hq)
  · next hlive =>
    split
    · next hdone =>
      rw [State.core_bump, State.core_modCore_self]
      intro q hq hr
      obtain ⟨x, _, rfl⟩ := List.mem_map.1 hq
      simp only [Bool.or_eq_true, not_or, Bool.not_eq_true] at hlive
      refine ⟨by simpa using hdone, ?_, hlive.1.1, hlive.1.2⟩
      split
      · rfl
      · next hx =>
        rw [if_neg hx] at hr
        exact absurd (beq_iff_eq.2 hr) hx
    · split
      · rw [State.enterRow, State.core_modCore_self, State.core_modCore_self]
        exact fun q hq hr => absurd hr (no_read_of_row q hq)
      · rw [State.core_modCore_self]
        exact fun q hq hr => absurd hr (no_read_of_row q hq)

/-! ### Hauls (R120, R121) -/

/-- A haul pushed is in flight under the next number. -/
theorem State.pushHaul_flies (s : State) (h : Haul) : mget dNone (s.pushHaul h).hauls s.haulNext = some h :=
  mget_mset_self (α := Option Haul) dNone s.hauls s.haulNext (some h)

theorem haulOpenTimeout_launches {dst t : Nat} {o : OpenHaul} (hf : ((s.at t).core c).openHauls.find? (fun o => o.dst == dst) = some o)
    (ht : o.opened + 256 ≤ (s.at t).now) : ∃ u, exec (.haulOpenTimeout c dst t) s = .next u ∧ (∀ q ∈ (u.core c).openHauls, q.dst ≠ dst) ∧
      ∃ h, mget dNone u.hauls (s.at t).haulNext = some h ∧ h.src = c ∧ h.dst = dst ∧ h.events = o.events ∧ h.remotes = o.remotes := by
  have hdst : o.dst = dst := by simpa using List.find?_some hf
  refine ⟨(s.at t).launchHaul c o, ?_, ?_⟩
  · show execHaulOpenTimeout c dst t s = _
    simp only [execHaulOpenTimeout, hf, ht, if_true]
  · generalize s.at t = a
    unfold State.launchHaul
    extract_lets kind b
    have hcount := (b.pushHaul ⟨kind, c, o.dst, o.events, o.remotes, (b.core c).pitch, b.coreN c⟩).counted_bump c 0x10
      (o.events.length + o.remotes.length)
    refine ⟨fun q hq => ?_, ⟨kind, c, o.dst, o.events, o.remotes, (b.core c).pitch, b.coreN c⟩, ?_, rfl, hdst, rfl, rfl⟩
    · rw [hcount.core] at hq
      have hb : (b.core c).openHauls = (a.core c).openHauls.filter (fun q => q.dst != o.dst) := by rw [State.core_modCore_self]
      have hmem : q ∈ (b.core c).openHauls := hq
      rw [hb, hdst] at hmem
      simpa using (List.mem_filter.1 hmem).2
    · rw [hcount]
      exact b.pushHaul_flies _

theorem Worked.absorbCount (h : Worked c s u) (off a : Nat) : Worked c s (u.absorbCount c off a) := by
  unfold State.absorbCount
  extract_lets b
  have hb : Worked c s b := .modCore (.bump h _ _)
  split
  · exact hb.trans ⟨rfl, rfl, fun _ _ => rfl, rfl⟩
  · exact hb
theorem Worked.ldsPut (h : Worked c s u) (w : BitVec 64) (t : Nat) (remote : Bool) : Worked c s (u.ldsPut c w t remote) := by
  unfold State.ldsPut
  extract_lets cl n a b
  split
  · exact (.modCluster (.modCluster h _ _) _ _ : Worked c s _).trans ⟨rfl, rfl, fun _ _ => rfl, rfl⟩
  · have hd : Worked c s ((u.modCluster cl (fun q => { q with dropLds := satAdd 32 q.dropLds 1 })).dadd64 (kDropLdsFull n) 1) :=
      (h.modCluster _ _).trans ⟨rfl, rfl, fun _ _ => rfl, rfl⟩
    exact hd.ledgerDropAt _ _ _
theorem Worked.arriveEvent (h : Worked c s u) (p : Nat) (remote : Bool) (w : BitVec 64) : Worked c s (u.arriveEvent c p remote w) := by
  unfold State.arriveEvent
  split
  · exact h
  · split
    · exact h.bump _ _
    · split
      · exact h.ledgerDrop _ _
      · exact h
      · extract_lets t st fits a
        have ha : Worked c s a := h.bobbinPut _
        split
        · split
          · exact ha.journalPut _ _
          · exact ha
        · exact h.ldsPut _ _ _
theorem Worked.arriveEncoded (h : Worked c s u) (p k : Nat) (w : BitVec 64) : Worked c s (u.arriveEncoded c p k w) := by
  unfold State.arriveEncoded
  extract_lets q cut
  split
  · exact h
  · split
    · exact h.bump _ _
    · split
      · exact .modCore h
      · split
        · exact h.absorbCount _ _
        · split
          · exact h.ledgerDrop _ _
          · exact h
          · exact h
          · split
            · exact h.absorbCount _ _
            · exact .bump (.modCore h) _ _

/-- Haul `id`, which has a number given out, is in flight no more. -/
def HaulGone (id : Nat) (u : State) : Prop := mget dNone u.hauls id = none ∧ id < u.haulNext

theorem HaulGone.worked {id : Nat} (h : HaulGone id u) (k : Worked c u v) : HaulGone id v := by
  rw [HaulGone, k.only]
  exact h
theorem HaulGone.foldl {id : Nat} {α : Type} {f : State → α → State} (hf : ∀ u x, Worked c u (f u x)) (l : List α) (h : HaulGone id u) :
    HaulGone id (l.foldl f u) := by
  induction l generalizing u with
  | nil => exact h
  | cons x r ih => exact ih (h.worked (hf u x))
/-- A haul launched takes a number that is still free. -/
theorem HaulGone.pushHaul {id : Nat} (h : HaulGone id u) (x : Haul) : HaulGone id (u.pushHaul x) :=
  ⟨(mget_mset_ne (α := Option Haul) dNone u.hauls (Nat.ne_of_lt h.2) (some x)).trans h.1, Nat.lt_succ_of_lt h.2⟩
theorem HaulGone.launchEncoded {id : Nat} (h : HaulGone id u) (n k : Nat) : HaulGone id (u.launchEncoded n k) := by
  unfold State.launchEncoded
  extract_lets st
  split
  · exact h
  · extract_lets mine rest x a b d
    have hb : HaulGone id d := by
      dsimp only [d, b, State.journalStream]
      split <;> exact h
    exact hb.pushHaul x

theorem State.arriveHaul_gone {id : Nat} {x : Haul} (hk : x.kind ≠ .remote) (hid : id < s.haulNext) : HaulGone id (s.arriveHaul id x) := by
  unfold State.arriveHaul
  extract_lets done dead sunk
  have hdone : HaulGone id done := ⟨mget_mset_self (α := Option Haul) dNone s.hauls id none, hid⟩
  have hsunk : HaulGone id sunk := by
    dsimp only [sunk]
    split <;> exact hdone
  split
  · next h => exact absurd h hk
  · exact .foldl (fun u _ => (Worked.refl x.dst u).arriveEvent _ _ _) _ hsunk
  · exact .foldl (fun u _ => (Worked.refl x.dst u).arriveEvent _ _ _) _ hsunk
  · exact (HaulGone.foldl (fun u _ => (Worked.refl x.dst u).arriveEncoded _ _ _) _ hsunk).launchEncoded _ _
theorem HaulGone.ackHaul {id : Nat} (h : HaulGone id u) (x : Haul) : HaulGone id (u.ackHaul x) := by
  unfold State.ackHaul
  split
  · unfold State.completePacket
    extract_lets k held a
    split
    · rw [State.sendAck, State.out, State.outs_eq]
      exact h
    · exact h
  · exact h

theorem exec_eventHaulArrival {id t : Nat} {x : Haul} (hh : mget dNone (s.at t).hauls id = some x) (hk : x.kind ≠ .remote) :
    exec (.eventHaulArrival id t) s = .next (((s.at t).arriveHaul id x).ackHaul x) := by
  show execEventHaulArrival id t s = _
  simp only [execEventHaulArrival, hh, if_neg hk]

/-! ### Journals and encoders (R136, R137, R214) -/

theorem State.journalPut_journalBuf (s : State) (cl : Nat) (es : List JEntry) :
    ((s.journalPut cl es).cluster cl).journalBuf = (s.cluster cl).journalBuf := by
  unfold State.journalPut
  split
  · rw [State.cluster_modCluster_self]
  · rfl
theorem State.tryClusterBelay_journalBuf (s : State) (cl since : Nat) :
    ((s.tryClusterBelay cl since).cluster cl).journalBuf = (s.cluster cl).journalBuf := by
  unfold State.tryClusterBelay
  split
  · rw [State.cluster_modCluster_self]
  · rfl
theorem journalRecord_writes {cl : Nat} {e : JEntry} {r : List JEntry} (h : (s.cluster cl).journalBuf = e :: r) :
    ∃ u, exec (.journalRecord cl) s = .next u ∧ (u.cluster cl).journalBuf = r := by
  refine ⟨_, rfl, ?_⟩
  rw [h]
  dsimp only
  rw [State.tryClusterBelay_journalBuf, State.journalPut_journalBuf, State.cluster_modCluster_self]

theorem journalStallEnd_goesOn {t : Nat} (hs : ((s.at t).core c).stalled = true) (hl : ((s.at t).cluster (clusterOf c)).journalBuf.length < 512) :
    ∃ u, exec (.journalStallEnd c t) s = .next u ∧ (∀ x r, ((s.at t).core c).emitQ = x :: r →
      (u.cluster (clusterOf c)).journalBuf[((s.at t).cluster (clusterOf c)).journalBuf.length]? = some (.spike x.n x.withheld (c * 16384 + x.q))) := by
  refine ⟨_, congrArg Host.Outcome.next (if_pos (by simp [hs, hl])), fun x r hq => ?_⟩
  generalize s.at t = a at *
  rw [State.emitWaiting_cons _ _ hq hl]
  have hbuf : ((a.takeSpike c x r).cluster (clusterOf c)).journalBuf =
      (a.cluster (clusterOf c)).journalBuf ++ [.spike x.n x.withheld (c * 16384 + x.q)] := by
    rw [State.takeSpike, State.cluster_modCore, State.cluster_modCluster_self]
  have hpre := (((Calm.refl (a.takeSpike c x r)).emitSpike (activeSlot (a.coreP c)) c x).emitWaiting (activeSlot (a.coreP c)) c (a.core c).emitQ.length).buf (clusterOf c)
  rw [hbuf] at hpre
  obtain ⟨l, hl⟩ := hpre
  rw [← hl]
  simp

theorem each_keeps {α : Type} {f : State → Nat → State} {π : State → α} (hf : ∀ s n, π (f s n) = π s) (l : List Nat) (s : State) :
    π (s.each l f) = π s := by
  induction l generalizing s with
  | nil => rfl
  | cons n r ih => exact (ih (f s n)).trans (hf s n)

theorem State.sendEncodeDone_encoding (s : State) (k : Nat) : ((s.sendEncodeDone k).stream k).encoding = false := by
  unfold State.sendEncodeDone
  extract_lets a
  have ha : (a.stream k).encoding = false := by rw [State.stream_modStream_self]
  split
  · exact ha
  · refine (each_keeps (π := fun s => (s.stream k).encoding) ?_ _ a).trans ha
    exact fun _ _ => rfl
theorem exec_encodeDone {k t : Nat} (he : ((s.at t).stream k).encoding = true) (hu : ((s.at t).stream k).unlaunched = [])
    (hn : (s.at t).noEncoded k = true) (hc : (s.at t).noEncodedCopies k = true) :
    exec (.encodeDone k t) s = .next ((s.at t).sendEncodeDone k) :=
  congrArg Host.Outcome.next (if_pos (by simp [he, hu, hn, hc]))
theorem encodeDoneReceive_forwards {cl : Nat} (h : ∀ k ∈ s.clusterStreams ((s.partOf cl).getD 8) cl, k ∈ (s.cluster cl).encDone) :
    ∃ u, exec (.encodeDoneReceive cl) s = .next u ∧ (u.cluster cl).encFwd = true := by
  refine ⟨_, congrArg Host.Outcome.next (if_pos (by simpa using h)), ?_⟩
  refine (each_keeps (π := fun s => (s.cluster cl).encFwd) ?_ _ _).trans ?_
  · exact fun _ _ => rfl
  · rw [State.cluster_modCluster_self]

/-! ### Accumulation and the sweep (R72, R96) -/

theorem eventAccumulate_takes {t : Nat} {e : EvRec} {r : List EvRec} (hl : (s.at t).liveCore c = true) (hs : ((s.at t).core c).sweepDone = false)
    (ht : ((s.at t).core c).truncated = false) (ha : ((s.at t).core c).absorbed = false) (hi : ((s.at t).core c).intake = e :: r) :
    ∃ u, exec (.eventAccumulate c t) s = .next u ∧ (u.core c).intake = r := by
  refine ⟨_, congrArg Host.Outcome.next (if_neg (by simp [hl, hs, ht, ha])), ?_⟩
  rw [hi]
  dsimp only
  have hb : (((s.at t).modCore c (fun k => repin { k with intake := r })).core c).intake = r := by
    rw [State.core_modCore_self]
    rfl
  generalize (s.at t).modCore c (fun k => repin { k with intake := r }) = b at hb ⊢
  split
  · exact hb
  · split
    · rw [State.core_bump]
      exact hb
    · exact (Calm.intake (.modCore ((Calm.refl b).accumulateEvent _ _ _ _ _) c) c).trans hb

theorem State.integrateAll_sweepDone (s : State) (c : Nat) : ((s.integrateAll c).core c).sweepDone = true := by
  unfold State.integrateAll
  extract_lets groups q r b
  have hb : (b.core c).sweepDone = true := by rw [State.core_modCore_self]
  exact (((Calm.refl b).emitWaiting _ c _).sweepDone c).trans hb
theorem exec_integrateSweep {t : Nat} (h : (s.at t).sweepDue c = true) : exec (.integrateSweep c t) s = .next ((s.at t).integrateAll c) :=
  congrArg Host.Outcome.next (if_neg (by simp [h]))

/-! ### Marks that may stand already -/

theorem drain_sent (hl : s.liveCore c = true) (hd : s.drained c = true) : ∃ u, exec (.drain c) s = .next u ∧ (u.core c).belaySent = true := by
  cases hb : (s.core c).belaySent with
  | true => exact ⟨s, congrArg Host.Outcome.next (if_neg (by simp [hb])), hb⟩
  | false => exact ⟨_, exec_drain hl hb hd, by rw [State.core_modCore_self]⟩
theorem State.tryClusterBelay_core (s : State) (cl since d : Nat) : (s.tryClusterBelay cl since).core d = s.core d := by
  unfold State.tryClusterBelay
  split <;> rfl
theorem closePicot_closed {t : Nat} (hp : ((s.at t).coreP c).seq.isOpen = false) :
    ∃ u, exec (.closePicot c t) s = .next u ∧ (u.core c).isOpen = false := by
  cases ho : ((s.at t).core c).isOpen with
  | true => exact ⟨_, exec_closePicot ho hp, by rw [State.core_modFab, State.core_modCore_self]⟩
  | false => exact ⟨s.at t, congrArg Host.Outcome.next (if_neg (by simp [ho])), ho⟩
theorem truncate_truncated {t : Nat} (ht : ((s.at t).coreP c).seq.truncAt.isSome = true) (hl : (s.at t).liveCore c = true)
    (hb : ((s.at t).core c).belaySent = false) (ha : ((s.at t).core c).absorbed = false) (hd : (s.at t).drained c = false) :
    ∃ u, exec (.truncate c t) s = .next u ∧ (u.core c).truncated = true := by
  cases hn : ((s.at t).core c).truncated with
  | true => exact ⟨s.at t, congrArg Host.Outcome.next (if_pos (by simp [hn])), hn⟩
  | false => exact ⟨_, exec_truncate ht hl hb hn ha hd, by rw [State.core_modCore_self]⟩
theorem absorb_absorbed (ha : (s.coreP c).seq.absorbAt.isSome = true) (hl : s.liveCore c = true) (hb : (s.core c).belaySent = false)
    (hd : s.drained c = false) : ∃ u, exec (.absorb c) s = .next u ∧ (u.core c).absorbed = true := by
  cases hn : (s.core c).absorbed with
  | true => exact ⟨s, congrArg Host.Outcome.next (if_neg (by simp [State.mayAbsorb, hn])), hn⟩
  | false =>
    obtain ⟨u, _, he⟩ := s.absorbCore_eq c
    exact ⟨_, exec_absorb ha hl hb hn hd, by rw [he, State.core_modCore_self]⟩

/-- Settles O57, command by command. -/
theorem coreCommandsComplete : Obligations.CoreCommandsComplete := by
  unfold Obligations.CoreCommandsComplete
  refine ⟨fun s c t => ?_, fun s c => drain_sent, fun s c => ?_, fun s c t => closePicot_closed, fun s c t => truncate_truncated,
    fun s c => absorb_absorbed, fun s c r => prefetch_asks, fun s c r w => prefetchRetry_asks, fun s c row ok done => readData_completes,
    fun s c t e r => eventAccumulate_takes, fun s c t => ?_, fun s c dst t o => haulOpenTimeout_launches, fun s id t h => ?_,
    fun s cl e r => journalRecord_writes, fun s c t => journalStallEnd_goesOn, fun s k t => ?_, fun s cl => encodeDoneReceive_forwards⟩
  · exact fun hc ho hk => ⟨_, exec_openPicot hc ho hk, (s.at t).atPitch_openCore c _⟩
  · intro ho hb hh hp
    refine ⟨_, exec_belay ho hb hh hp, ?_⟩
    rw [State.tryClusterBelay_core, State.core_modCore_self]
  · exact fun h => ⟨_, exec_integrateSweep h, (s.at t).integrateAll_sweepDone c⟩
  · exact fun hh hk hid => ⟨_, exec_eventHaulArrival hh hk, (State.arriveHaul_gone hk hid |>.ackHaul h).1⟩
  · exact fun he hu hn hc => ⟨_, exec_encodeDone he hu hn hc, (s.at t).sendEncodeDone_encoding k⟩

end Sys2Proof.Machine
end

section
/-!
PROOFS of the statements on pitches (spec 02): what ENABLE does to the extended position and to the counts of its partition (R37).
-/

namespace Sys2Proof.Machine

variable {s u v : State}

/-! ### What ENABLE does before and after it starts the sequencer (R165) -/

theorem Calm.tileWrite (h : Calm s u) (t : Tile) (o : Nat) (bs : Bytes) : Calm s (u.tileWrite t o bs) := h.tileWriteHdr t _ bs
theorem Calm.restoreProj (h : Calm s u) (n i : Nat) (p : Nat × Nat × Nat × List Nat) : Calm s (u.restoreProj n i p) := by
  unfold State.restoreProj
  extract_lets sl
  split
  · exact h
  · refine .setSlot (.tileWriteHdr (.foldl (fun v r k => ?_) _ h) _ _ _) n i _
    split
    · exact k
    · exact .each (fun _ _ k => (k.tileWrite _ _ _).tileWrite _ _ _) _ k
theorem Calm.keepRestore (h : Calm s u) (n i : Nat) : Calm s (u.keepRestore n i) := by
  unfold State.keepRestore
  extract_lets sl
  refine .ite h (.ite (h.dset _ _) ?_)
  split
  · exact h.dset _ _
  · exact .ite (.dset (.foldl (fun _ p k => k.restoreProj n i p) _ h) _ _) (h.dset _ _)
theorem Calm.refill (h : Calm s u) (n : Nat) : Calm s (u.refill n) := by
  unfold State.refill
  exact .modPow (.each (fun _ c k => k.loadSpare c) _ h) _
theorem Calm.restartGuard (h : Calm s u) (n : Nat) : Calm s (u.restartGuard n) :=
  .dset (.modPart (.each (fun _ c k => k.clearGuard c) _ h) n) _ _
theorem Calm.restartConverters (h : Calm s u) (n : Nat) (fresh : Nat → Bool) : Calm s (u.restartConverters n fresh) :=
  .foldl (fun _ _ k => .ite (k.modStream _ _) (.ite (k.modGroup _ _) k)) _ h
theorem Calm.answer (h : Calm s u) (r : Requester) (k code : Nat) : Calm s (u.answer r k code) := by
  unfold State.answer
  split
  · exact h
  · exact (h.dadd64 _ _).out _

/-- The sequencer of partition `n` starts to count from where the extended position stands, which `s` gives. -/
structure QuadStarted (n : Nat) (s u : State) : Prop where
  p0 : (u.part n).seq.quadP0 = s.clk.quadExt
  j : (u.part n).seq.quadJ = 1
  abs : (u.part n).seq.quadAbs = 0
  ext : u.clk.quadExt = s.clk.quadExt

theorem QuadStarted.calm {n : Nat} (h : QuadStarted n s u) (k : Calm u v) : QuadStarted n s v :=
  ⟨by rw [k.seq, h.p0], by rw [k.seq, h.j], by rw [k.seq, h.abs], k.ext.trans h.ext⟩
/-- A partition set to a sequencer that stands at the present position, from a state that has not moved the position. -/
theorem Calm.quadStarted {n : Nat} {f : Part → Part} (h : Calm s u) (hp : ∀ p, (f p).seq.quadP0 = u.clk.quadExt)
    (hj : ∀ p, (f p).seq.quadJ = 1) (ha : ∀ p, (f p).seq.quadAbs = 0) : QuadStarted n s (u.modPart n f) :=
  ⟨by rw [State.part_modPart_self, hp, h.ext], by rw [State.part_modPart_self, hj], by rw [State.part_modPart_self, ha], h.ext⟩

theorem State.startPart_quadStarted (s : State) (n : Nat) : QuadStarted n s (s.startPart n) := by
  unfold State.startPart
  extract_lets p i a b d woe st0 st e w g h x y z
  have ha : Calm s a := ((Calm.refl s).keepRestore n i).refill n
  have hd : Calm s d := .setSlot (ha.release _) n i _
  have hh : Calm s h := .each (fun _ c k => k.modCore c) _ (((hd.dset _ _).dset _ _).dset _ _)
  have hx : QuadStarted n s x := hh.quadStarted (fun _ => rfl) (fun _ => rfl) (fun _ => rfl)
  have hy : Calm x y := .dset (((Calm.refl x).restartGuard n).restartConverters n _) _ _
  have hz : Calm x z := .ite (.each (fun _ _ k => k.modGroup _ _) _ hy) hy
  refine hx.calm (.each (fun _ k hk => .ite (hk.modStream _ _) (hk.modGroup _ _)) _ (.each (fun _ k hk => hk.joinHalf n k) _ hz))

/-- ENABLE of a READY partition bound to QUADRATURE: P0 is the position and j is 1 (R37). -/
theorem enable_quadStarted {r : Requester} {n t : Nat} (h : (s.at t).Accepts r (kPartitionCommand n) 3) (ha : (s.at t).pow.state = .active)
    (he : (s.at t).pow.entry = none) (hn : n < 8) (hr : ((s.at t).part n).state = .ready) (hs : (s.at t).dget (kCadenceSource n) = 3)
    (hc : (s.at t).dget (kQuadCounts n) ≠ 0) : ∃ u, exec (.enable r n t) s = .next u ∧ QuadStarted n (s.at t) u := by
  refine ⟨_, exec_enable h ha he, ?_⟩
  rw [State.doEnable_taken hn hr hs hc]
  exact ((s.at t).startPart_quadStarted n).calm ((Calm.refl _).answer r _ _)

/-- A write of QUAD_COUNTS outside its range is refused (R37, R349). -/
theorem registerWrite_quadCounts_range {r : Requester} {n v t : Nat} (hn : n < 8) (h : (s.serve t).Accepts r (kQuadCounts n) v) (hv : v < 2 ^ 32)
    (hbad : v = 0 ∨ 16777215 < v) :
    exec (.registerWrite (.entry r (0x2110 + n) 4) (natLe 4 v) t) s = .next ((s.serve t).answer r (kQuadCounts n) stRange) := by
  rw [registerWrite_sched hn (schedEntry_quadCounts hn) (perReq_quadCounts hn) h hv, if_neg]
  rw [valueOk_quadCounts]
  omega

/-! ### A transition (R36, R37) -/

/-- The position moves by a legal count alone, and QUAD_POSITION shows it. -/
theorem quadTransition_position {t : Nat} {x y : Bool} (h : (s.at t).dget kQuadPosition = ofInt 32 (s.at t).clk.quadExt) :
    ∃ u, exec (.quadTransition x y t) s = .next u ∧
      u.clk.quadExt = (s.at t).clk.quadExt + (if (s.at t).quadFast = true then 0 else if (s.at t).quadMove x y = 1 then 1
        else if (s.at t).quadMove x y = 3 then -1 else 0) ∧ u.dget kQuadPosition = ofInt 32 u.clk.quadExt := by
  by_cases hl : (s.at t).quadLegal x y
  · obtain ⟨u, he, hclk, hdget, _⟩ := quadTransition_legal hl
    refine ⟨u, he, ?_, ?_⟩
    · rw [hclk, State.quadCounted_ext]
      rcases hl with ⟨e | e, hf⟩ <;> simp [e, hf]
    · rw [hdget _ fun n hn => by simp only [kQuadPosition, kTicksMerged, kCadenceState]; omega, hclk]
      exact State.dget_dset_self _ _ _
  · refine ⟨_, quadTransition_illegal hl, ?_⟩
    have hmove : (if (s.at t).quadFast = true then 0 else if (s.at t).quadMove x y = 1 then 1
        else if (s.at t).quadMove x y = 3 then -1 else 0 : Int) = 0 := by
      rw [State.quadLegal] at hl
      split
      · rfl
      · next hf =>
        rw [if_neg (fun e => hl ⟨.inl e, by simpa using hf⟩), if_neg (fun e => hl ⟨.inr e, by simpa using hf⟩)]
    rw [hmove, add_zero]
    split
    · exact ⟨rfl, h⟩
    · exact ⟨rfl, (State.dget_dset_ne _ (by decide) _).trans h⟩

/-- What a legal count does to the places of partition `n` in the quadrature cycle, and to its ticks, told from the state before it. -/
theorem quadTransition_counts {n t : Nat} {x y : Bool} (hn : n ∈ (s.at t).bound 3) (hl : (s.at t).quadLegal x y)
    (hlast : (s.at t).dget (kPitchBase n) + ((s.at t).part n).seq.ticks < 2 ^ 48) :
    let b := (s.at t).quadCounted x y
    let q := ((s.at t).part n).seq
    ∃ u, exec (.quadTransition x y t) s = .next u ∧ (u.part n).seq.quadP0 = q.quadP0 ∧
      (u.part n).seq.quadJ = (if b.passed n then q.quadJ + 1 else q.quadJ) ∧
      (u.part n).seq.quadAbs = (if b.dget kQuadMode = 0 then q.quadAbs else if b.quadTicks n then 0 else q.quadAbs + 1) ∧
      (u.part n).seq.ticks = (if b.quadTicks n then q.ticks + 1 else q.ticks) ∧
      (u.part n).seq.pendTick = (if b.quadTicks n then some ((s.at t).dget (kPitchBase n) + q.ticks, (s.at t).now) else q.pendTick) := by
  intro b q
  obtain ⟨u, he, _, _, hticks, _⟩ := quadTransition_legal hl
  obtain ⟨hp0, hj, habs, htick, hstay⟩ := hticks n hn
  refine ⟨u, he, hp0, hj, habs, ?_⟩
  rw [State.quadCounted_base] at htick
  by_cases hd : b.quadTicks n
  · obtain ⟨hpend, _, hcount, _⟩ := htick hlast hd
    rw [if_pos hd, if_pos hd]
    exact ⟨hcount, hpend⟩
  · obtain ⟨hpend, hcount⟩ := hstay hd
    rw [if_neg hd, if_neg hd]
    exact ⟨hcount, hpend⟩

end Sys2Proof.Machine
end

section
/-!
PROOFS of the statements on pitches (spec 02): a device reset starts the extended position at 0, which nothing in bring-up moves, the
restore of the configuration store included (O54).
-/

namespace Sys2Proof.Machine

/-- From `s` to `u` the extended position has not moved. -/
def Still (s u : State) : Prop := u.clk.quadExt = s.clk.quadExt

variable {s u v : State}

theorem Still.refl (s : State) : Still s s := rfl
theorem Still.trans (h : Still s u) (k : Still u v) : Still s v := Eq.trans k h
theorem Calm.still (h : Calm s u) : Still s u := h.ext

theorem Still.ite {p : Prop} [Decidable p] {a b : State} (ha : Still s a) (hb : Still s b) : Still s (if p then a else b) := by
  split <;> assumption
theorem Still.ite_snd {α : Type} {p : Prop} [Decidable p] {a b : α × State} (ha : Still s a.2) (hb : Still s b.2) :
    Still s (if p then a else b).2 := by
  split <;> assumption
theorem Still.foldl {α : Type} {f : State → α → State} (hf : ∀ u x, Still s u → Still s (f u x)) (l : List α) (h : Still s u) :
    Still s (l.foldl f u) := by
  induction l generalizing u with
  | nil => exact h
  | cons x r ih => exact ih (hf u x h)
theorem Still.each {f : State → Nat → State} (hf : ∀ u x, Still s u → Still s (f u x)) (l : List Nat) (h : Still s u) : Still s (u.each l f) :=
  h.foldl hf l

theorem Still.modPart (h : Still s u) (n : Nat) (f : Part → Part) : Still s (u.modPart n f) := h
theorem Still.modClk (h : Still s u) {f : Clock → Clock} (hf : ∀ c, (f c).quadExt = c.quadExt) : Still s (u.modClk f) := (hf u.clk).trans h
theorem Still.dset (h : Still s u) (k x : Nat) : Still s (u.dset k x) := h
theorem Still.dadd (h : Still s u) (k x : Nat) : Still s (u.dadd k x) := h
theorem Still.modSec (h : Still s u) (f : Sec → Sec) : Still s (u.modSec f) := h
theorem Still.modMem (h : Still s u) (f : Mem → Mem) : Still s (u.modMem f) := h
theorem Still.modFloor (h : Still s u) (f : Floor → Floor) : Still s (u.modFloor f) := h
theorem Still.modFab (h : Still s u) (f : Fabric → Fabric) : Still s (u.modFab f) := h
theorem Still.modHalf (h : Still s u) (x : Nat) (f : Half → Half) : Still s (u.modHalf x f) := h.trans ((Calm.refl u).modHalf x f).still
theorem Still.updateFaultN (h : Still s u) : Still s u.updateFaultN := h.trans (Calm.refl u).updateFaultN.still
theorem Still.report (h : Still s u) (r : FaultReport) : Still s (u.report r) := h.trans ((Calm.refl u).report r).still
theorem Still.outs (h : Still s u) (o : List Output) : Still s (u.outs o) := .ite h h

/-! ### The boot ROM (R458) -/

theorem Still.writeBoot (h : Still s u) (m : Nat) : Still s (u.writeBoot m) := by
  unfold State.writeBoot
  extract_lets seq
  split <;> exact h
theorem Still.setBoot (h : Still s u) (m : Nat) : Still s (u.setBoot m) := .ite h (h.writeBoot m)
theorem Still.copyB (h : Still s u) : Still s u.copyB := h
theorem Still.bootDebug (h : Still s u) : Still s u.bootDebug := by
  unfold State.bootDebug
  extract_lets a
  have ha : Still s a := .ite h (.modSec (.dset (.dset h _ _) _ _) _)
  exact ha
theorem Still.bootRom (h : Still s u) : Still s u.bootRom := by
  unfold State.bootRom
  extract_lets a m
  have ha : Still s a := h.bootDebug
  split
  · exact (ha.setBoot 0).modSec _
  · extract_lets b w d e f
    have hb : Still s b := (ha.dset _ _).setBoot _
    have he : Still s e := .ite ((hb.modSec _).dset _ _) (hb.modSec _)
    exact .ite (he.modSec _).copyB (he.modSec _)

/-! ### Reconciliation (R384 to R386) -/

theorem Still.logDefect (h : Still s u) (kind origin unit detail : Nat) : Still s (u.logDefect kind origin unit detail) := .ite h h
theorem Still.judge (h : Still s u) (f : BringupFacts) (x : UnitId) : Still s (u.judge f x).2 :=
  .ite_snd h (.ite_snd h (.ite_snd (h.logDefect _ _ _ _) (.ite h (h.dset _ _))))
theorem Still.judgeFold {β : Type} (h : Still s u) {g : β × State → UnitId → β × State} (hg : ∀ a x, Still s a.2 → Still s (g a x).2)
    (l : List UnitId) (b : β) : Still s (l.foldl g (b, u)).2 := by
  induction l generalizing b u with
  | nil => exact h
  | cons x r ih => exact ih (hg _ x h) _
theorem Still.judgeAll (h : Still s u) (f : BringupFacts) : Still s (u.judgeAll f).2 := by
  unfold State.judgeAll
  refine h.judgeFold ?_ _ _
  exact fun _ x k => k.judge f x
theorem Still.reconcile (h : Still s u) (f : BringupFacts) : Still s (u.reconcile f) := by
  unfold State.reconcile
  exact .dset (.modFab (.modFloor (.modFloor (.modFloor (.dset (h.judgeAll f) _ _) _) _) _) _) _ _

/-! ### Writes of storable entries (R374, R377) -/

/-- Is the entry with key `k` storable? -/
def storableAt (k : Nat) : Bool := match entryRow (k / 256) (k % 256) with
  | some e => storable e (k / 256) k
  | none => false

/-- An index of 0x3n04 is of the neuron access alone, whose entries are not storable. -/
theorem neuronAccess_named : ∀ e ∈ entryRows, ∀ m < 8, rowHasIndex e (256 * (m + 0x30) + 4) = true → "NA_".toList.isPrefixOf e.name.toList = true := by
  decide +kernel

/-- Entries of the device whose writes act (commands, enables, tokens, grants): none of them is storable. -/
def actingEntries : List Nat :=
  [kResetCommand, kOutputEnable, kLockSet, kPowerTarget, kCoolantReport, kFaultAck, kTestCommand, kGroupEnable, kGroupDisableNow,
    kQueueGrants, kSyncGrants, kPageGrants, kFrameOwner, kConflictClear, kRouteCommand, kAddrMode, kNodeAddressStored, kFwCommand, kFwChunk,
    kJtagMode, kDebugToken, kLicenceInstall, kLicenceRemove, kAttestCommand, kStoreCommand]
theorem storableAt_acting : ∀ k ∈ actingEntries, storableAt k = false := by decide +kernel
theorem storableAt_partition : ∀ n < 16, storableAt (kPartitionCommand n) = false ∧ storableAt (kStationEnable n) = false ∧
    storableAt (kStationDisableNow n) = false ∧ storableAt (kCounterClear n) = false ∧ storableAt (kKeepCommand n) = false := by decide +kernel
theorem storableAt_stream : ∀ m < 32, storableAt (256 * (0x4010 + m) + 1) = false ∧ storableAt (256 * (0x4010 + m) + 2) = false ∧
    storableAt (256 * (0x4010 + m) + 0x0B) = false := by decide +kernel
theorem storableAt_objEnable : ∀ m < 32, storableAt (kObjEnable m) = false := by decide +kernel
theorem storableAt_portEnable : ∀ p < 2, storableAt (kPortEnable p) = false := by decide +kernel

/-- A storable entry is another than one that is not. -/
theorem ne_of_storableAt {k c : Nat} (hk : storableAt k = true) (hc : storableAt c = false) : k ≠ c := by
  rintro rfl
  rw [hk] at hc
  cases hc

theorem storable_parts {e : EntryRow} {i k : Nat} (h : storable e i k = true) :
    e.acc ≠ .rwc ∧ perReq k = false ∧ "NA_".toList.isPrefixOf e.name.toList = false := by
  simp only [storable, Bool.and_eq_true, Bool.or_eq_true, beq_iff_eq, Bool.not_eq_true'] at h
  obtain ⟨⟨⟨⟨⟨⟨⟨hacc, hper⟩, _⟩, hna⟩, _⟩, _⟩, _⟩, _⟩ := h
  exact ⟨by rcases hacc with e | e <;> rw [e] <;> decide, hper, hna⟩

theorem naIndex_of_storable {e : EntryRow} {k : Nat} (hrow : entryRow (k / 256) (k % 256) = some e) (h : storable e (k / 256) k = true) :
    naIndex (k / 256) = none := by
  refine if_neg fun hi => ?_
  have hcovers : rowCovers e (k / 256) (k % 256) = true := List.find?_some (p := fun r => rowCovers r (k / 256) (k % 256)) hrow
  simp only [rowCovers, Bool.and_eq_true] at hcovers
  have hindex : k / 256 = 256 * (k / 256 / 256 - 0x30 + 0x30) + 4 := by omega
  rw [hindex] at hcovers
  have hnamed := neuronAccess_named e (List.mem_of_find?_eq_some (p := fun r => rowCovers r (k / 256) (k % 256)) hrow) (k / 256 / 256 - 0x30) (by omega) hcovers.1.1
  rw [(storable_parts h).2.2] at hnamed
  cases hnamed

theorem Still.writeHeld (h : Still s u) (busy : Bool) (k v : Nat) : Still s (u.writeHeld busy k v).2 := .ite h h
theorem Still.writeSched (h : Still s u) (n j k v : Nat) : Still s (u.writeSched n j k v).2 := .ite_snd h (.ite_snd h (.ite h h))
theorem Still.sendReqs (h : Still s u) (p : Nat) : Still s (u.sendReqs p) := .outs h _
theorem Still.writePeer (h : Still s u) (n k v : Nat) : Still s (u.writePeer n k v).2 :=
  .ite_snd h (.ite_snd h (.sendReqs (.sendReqs (h.dset _ _) 0) 1))
theorem Still.writePart {n k : Nat} (h : Still s u) (r : Requester) (i j v : Nat) (hn : n < 16) (hk : storableAt k = true) :
    Still s (u.writePart r n i j k v).2 := by
  obtain ⟨hcommand, hstation, hnow, hcounters, hkeep⟩ := storableAt_partition n hn
  unfold State.writePart
  extract_lets run o
  rw [if_neg (ne_of_storableAt hk hcommand), if_neg (ne_of_storableAt hk hstation), if_neg (ne_of_storableAt hk hnow),
    if_neg (ne_of_storableAt hk hcounters), if_neg (ne_of_storableAt hk hkeep)]
  refine .ite_snd (.ite_snd h h) (.ite_snd (h.writeHeld _ _ _) (.ite_snd (h.writeHeld _ _ _) (.ite_snd (.ite_snd h ?_) (.ite_snd (h.writePeer _ _ _)
    (.ite_snd (h.writeHeld _ _ _) h)))))
  exact (h.writeHeld run k v).trans ((Calm.refl _).settleCaches n _ _).still
theorem Still.writeStream {m j k : Nat} (h : Still s u) (v : Nat) (b : Bytes) (hm : m < 32) (hj : k = 256 * (0x4010 + m) + j)
    (hk : storableAt k = true) : Still s (u.writeStream m j k v b).2 := by
  obtain ⟨henable, hnow, hsample⟩ := storableAt_stream m hm
  subst hj
  unfold State.writeStream
  rw [if_neg (fun e => ne_of_storableAt hk henable (by rw [e])), if_neg (fun e => ne_of_storableAt hk hnow (by rw [e])),
    if_neg (fun e => ne_of_storableAt hk hsample (by rw [e]))]
  exact .ite_snd (.ite_snd h h) (h.writeHeld _ _ _)
theorem Still.writeObj {m k : Nat} (h : Still s u) (v : Nat) (hm : m < 32) (hk : storableAt k = true) : Still s (u.writeObj m k v).2 := by
  unfold State.writeObj
  rw [if_neg (ne_of_storableAt hk (storableAt_objEnable m hm))]
  exact .ite_snd h h
theorem Still.writePort {p k : Nat} (h : Still s u) (v : Nat) (hp : p < 2) (hk : storableAt k = true) : Still s (u.writePort p k v).2 := by
  unfold State.writePort
  rw [if_neg (ne_of_storableAt hk (storableAt_portEnable p hp))]
  exact .ite_snd h (.ite_snd (.ite_snd h (.sendReqs (h.dset _ _) p)) h)

/-! What the device's storable entries do: the profiles and clocks of the halves, FAULT_N, the frames and the route weights. -/

theorem Still.clampWoe (h : Still s u) (x : Nat) : Still s (u.clampWoe x) :=
  .each (fun _ n k => (k.modPart n _).dset _ _) _ h
theorem Still.switchProf (h : Still s u) (x q : Nat) : Still s (u.switchProf x q) := by
  unfold State.switchProf
  extract_lets v0 f v1 a settle
  have ha : Still s a := .each (fun _ n k => k.modPart n _) _ h
  exact .dadd (.clampWoe (ha.modHalf _ _) x) _ _
theorem Still.pursueProf (h : Still s u) (x : Nat) : Still s (u.pursueProf x) :=
  .ite (h.modHalf _ _) (.ite (h.switchProf _ _) (.ite h (h.modHalf _ _)))
theorem Still.doProfReq (h : Still s u) (x v : Nat) : Still s (u.doProfReq x v).2 := .ite_snd h (.pursueProf (h.dset _ _) x)
theorem Still.doClockReq (h : Still s u) (x v : Nat) : Still s (u.doClockReq x v).2 := .ite_snd h h
theorem Still.doFrameAll (h : Still s u) (v : Nat) : Still s (u.doFrameAll v).2 := by
  unfold State.doFrameAll
  refine .ite_snd h (.ite_snd h ?_)
  show Still s (State.modClk _ _)
  exact .modClk (.each (fun _ n k => k.modPart n _) _ ((h.dset _ _).modMem _)) (fun _ => rfl)
theorem Still.doRouteWeights (h : Still s u) (r : Requester) (b : Bytes) : Still s (u.doRouteWeights r b).2 :=
  .ite_snd h (.ite_snd h (.ite_snd h (.each (fun _ _ k => k.modFab _) _ h)))

theorem Still.writeDevice {k : Nat} (h : Still s u) (r : Requester) (v : Nat) (b : Bytes) (hk : storableAt k = true) :
    Still s (u.writeDevice r k v b).2 := by
  have hne : ∀ c ∈ actingEntries, k ≠ c := fun c hc => ne_of_storableAt hk (storableAt_acting c hc)
  simp only [actingEntries, List.forall_mem_cons, List.not_mem_nil, false_imp_iff, implies_true, and_true] at hne
  simp only [State.writeDevice, hne, if_false, false_or]
  exact .ite_snd (h.doProfReq _ _) (.ite_snd (h.doProfReq _ _) (.ite_snd (.ite_snd h h) (.ite_snd (.ite_snd h h) (.ite_snd (h.doClockReq _ _)
    (.ite_snd (h.doClockReq _ _) (.ite_snd (.updateFaultN (h.dset _ _)) (.ite_snd (h.doFrameAll _) (.ite_snd (.ite_snd h h)
    (.ite_snd (h.doRouteWeights _ _) h)))))))))

theorem Still.writeEffect {k : Nat} (h : Still s u) (r : Requester) (v : Nat) (b : Bytes) (hper : perReq k = false) (hk : storableAt k = true) :
    Still s (u.writeEffect r k v b).2 := by
  unfold State.writeEffect
  extract_lets i j
  rw [if_neg (by simp [hper])]
  have hkey : k = 256 * i + j := (Nat.div_add_mod k 256).symm
  split
  · exact h.writeSched _ _ _ _
  · split
    · exact h.writePart r _ _ _ (by omega) hk
    · split
      · exact h.writeStream v b (by omega) (by omega) hk
      · split
        · exact h.writeObj v (by omega) hk
        · split
          · exact h.writePort v (by omega) hk
          · rw [if_neg (ne_of_storableAt hk (storableAt_acting kStoreCommand (by simp [actingEntries])))]
            exact .ite_snd (.ite_snd h h) (h.writeDevice r v b hk)

theorem Still.writeCheck (h : Still s u) (r : Requester) (k v : Nat) : Still s (u.writeCheck r k v).2 :=
  .ite_snd h (.ite_snd h (.ite_snd h (.ite_snd h h)))
/-- A storable entry restored. -/
theorem Still.writeEntry {k : Nat} (h : Still s u) (r : Requester) (tag : Option Nat) (b : Bytes) (hk : storableAt k = true) :
    Still s (u.writeEntry r tag k b).2 := by
  have hk' := hk
  unfold storableAt at hk'
  unfold State.writeEntry
  extract_lets v c n
  split
  · exact h
  · next e hrow =>
    rw [hrow] at hk'
    obtain ⟨hacc, hper, _⟩ := storable_parts hk'
    have hcommand : k ≠ kPartitionCommand n := ne_of_storableAt hk (storableAt_partition n (by omega)).1
    refine .ite_snd (h.writeCheck r k v) (.ite_snd h ?_)
    rw [if_neg (by simpa using hacc)]
    refine .ite_snd h ?_
    rw [if_neg (fun e => hcommand e.1), if_neg (fun e => hcommand e.1), naIndex_of_storable hrow hk']
    exact h.writeEffect r v b hper hk

theorem Still.restoreOne (h : Still s u) (e : Nat × Bytes) : Still s (u.restoreOne e) := by
  unfold State.restoreOne
  extract_lets ok o
  by_cases hok : ok = true
  · have hk : storableAt e.1 = true := by
      dsimp only [ok] at hok
      unfold storableAt
      split at hok
      · simp_all
      · cases hok
    have ho : Still s o.2 := h.writeEntry .restore none e.2 hk
    exact .ite h (.ite ho h)
  · rw [if_pos (by simpa using hok)]
    exact h
theorem Still.restoreStore (h : Still s u) : Still s u.restoreStore := by
  unfold State.restoreStore
  split
  · exact h
  · refine .foldl (fun _ e k => k.restoreOne e) _ ?_
    unfold State.storeEntries
    split <;> exact h

/-! ### Bring-up (R379, R382) -/

theorem Still.bringFail (h : Still s u) (step : Nat) : Still s (u.bringFail step) := .updateFaultN ((h.dset _ _).dset _ _)
theorem Still.takeAddress (h : Still s u) (a : Nat) : Still s (u.takeAddress a) := .ite h h
theorem Still.readdress (h : Still s u) : Still s u.readdress := .takeAddress (u := (u.dset kAddrConflict 0).modPorts _) h _
theorem Still.loadRope (h : Still s u) : Still s u.loadRope := .ite h h
theorem Still.openDefects (h : Still s u) : Still s u.openDefects := h
theorem Still.loadLicences (h : Still s u) : Still s u.loadLicences := .each (fun _ _ k => k.modFloor _) _ h
theorem Still.licenceEntries (h : Still s u) : Still s u.licenceEntries := h
theorem Still.svnTick (h : Still s u) : Still s u.svnTick := .ite h h
theorem Still.confirmTrial (h : Still s u) : Still s u.confirmTrial := by
  unfold State.confirmTrial
  extract_lets a b
  have hb : Still s b := (((h.writeBoot 2).copyB.writeBoot 0).dset _ _).dset _ _
  exact .ite (hb.modSec _).svnTick hb
theorem Still.bootReady (h : Still s u) (b : Boot) : Still s (u.bootReady b) := by
  unfold State.bootReady
  extract_lets a d e f
  have he : Still s e := .ite (.dset (u := d) h _ _) h
  have hf : Still s f := .updateFaultN he
  exact .ite hf.confirmTrial hf
theorem Still.bootEnd (h : Still s u) : Still s u.bootEnd := by
  unfold State.bootEnd
  split
  · exact .ite (h.bootReady _) h
  · exact h
theorem Still.bringFirmware (h : Still s u) (f : BringupFacts) (fallback : Bool) : Still s (u.bringFirmware f fallback) := by
  unfold State.bringFirmware
  extract_lets a b d e
  have hb : Still s b := .each (fun _ _ k => k.dset _ _) _ h.openDefects.loadLicences.licenceEntries.readdress
  have hd : Still s d := hb.reconcile f
  have he : Still s e := hd.restoreStore
  exact .ite (hb.bringFail 3) (.ite (((hd.dset _ _).report _).bringFail 7) (.ite (he.bringFail 9) (he.modFloor _).bootEnd))
theorem Still.bringUp (h : Still s u) (cause : Nat) (f : BringupFacts) : Still s (u.bringUp cause f) := by
  unfold State.bringUp
  extract_lets a m b
  have ha : Still s a := .ite h (h.dset _ _)
  have hb : Still s b := (ha.dset _ _).loadRope.bootRom
  exact .ite (hb.readdress.bringFail 2) (hb.bringFirmware f _)

/-- A device reset starts the position at 0 (R37). -/
theorem State.deviceReset_quadExt (s : State) (cause : Nat) (f : BringupFacts) : (s.deviceReset cause f).clk.quadExt = 0 := by
  have hclocks : Still (s.restart true) (s.restart true).setClocks := .each (fun _ x k => k.modHalf x _) _ (.refl _)
  exact hclocks.bringUp cause f
theorem exec_deviceReset_firmware {t : Nat} {f : BringupFacts} (hd : (s.reach t).dead = false)
    (hdue : (if (s.reach t).sec.recovery then (s.reach t).sec.resetDue else (s.reach t).rel.mgmtUp) = true) :
    exec (.deviceReset causeFirmware f t) s = .next ((s.reach t).deviceReset causeFirmware f) :=
  congrArg Host.Outcome.next (if_neg (by simp [hd, State.resetIsDue, hdue]))

/-- Settles O54: the reset values, a transition, ENABLE, the range of QUAD_COUNTS, and a device reset. -/
theorem extendedPositionFollowsTheCounts : Obligations.ExtendedPositionFollowsTheCounts := by
  unfold Obligations.ExtendedPositionFollowsTheCounts
  refine ⟨rfl, State.dget_reset_eq_zero (by decide), fun s t x y => quadTransition_position, fun s n t x y => ?_, fun s r n t => ?_,
    fun s r n t => ?_, fun s r n v t => registerWrite_quadCounts_range, fun s t f => ?_⟩
  · intro a d pos q c reached ticks hn hd hf hlast
    obtain ⟨u, he, hp0, hj, habs, hticks, hpend⟩ := quadTransition_counts hn ⟨hd, hf⟩ hlast
    have hreached : (a.quadCounted x y).passed n ↔ reached := by
      rw [State.passed, State.quadCounted_counts, State.quadCounted_ext]
      rfl
    have hticked : (a.quadCounted x y).quadTicks n ↔ ticks := State.quadCounted_ticks pos State.quadCounted_ext
    have hmode : (a.quadCounted x y).dget kQuadMode = 0 ↔ a.dget kQuadMode = 0 := by rw [State.quadCounted_mode]
    exact ⟨u, he, hp0, hj.trans (if_congr hreached rfl rfl), habs.trans (if_congr hmode rfl (if_congr hticked rfl rfl)),
      hticks.trans (if_congr hticked rfl rfl), hpend.trans (if_congr hticked rfl rfl)⟩
  · intro a h ha he hs hc
    rw [exec_enable h ha he, State.doEnable_refused (.inr ⟨hs, hc⟩)]
  · intro a h ha he hn hr hs hc
    obtain ⟨u, he, hu⟩ := enable_quadStarted h ha he hn hr hs hc
    exact ⟨u, he, hu.p0, hu.j, hu.abs, hu.ext⟩
  · exact fun hd hdue => ⟨_, exec_deviceReset_firmware hd hdue, State.deviceReset_quadExt _ _ f⟩

end Sys2Proof.Machine
end

section
/-!
PROOFS of the statements on neurons (spec 03): the count of a spike (O42).
-/

namespace Sys2Proof.Machine

variable {r : Nat} {w : BitVec 64} {x : F32}

/-- A refractory position emits nothing (R77). -/
theorem integrate_n_of_refractory (h : 0 < swRef w) : (integrate r w x).n = 0 := by
  rw [integrate, if_pos h]

/-- The count of a spike stays within its cap (R78, R79). -/
theorem integrate_n_le_countCap (r : Nat) (w : BitVec 64) (x : F32) : (integrate r w x).n ≤ countCap r := by
  by_cases h : 0 < swRef w
  · rw [integrate_n_of_refractory h]
    exact Nat.zero_le _
  · rw [integrate, if_neg h]
    extract_lets
    split
    · exact Nat.min_le_right _ _
    · exact Nat.zero_le _

theorem countCap_of_refract (h : 0 < popRefract r) : countCap r = 1 := by simp [countCap, h]
theorem countCap_of_single (h : popSingle r = true) : countCap r = 1 := by simp [countCap, h]
theorem countCap_of_multi (hs : popSingle r = false) (hr : popRefract r = 0) : countCap r = popCount r := by simp [countCap, hs, hr]

/-- Settles O42, from the cap that each kind of population puts on a count. -/
theorem refractoryNeuronsSpikeOnce : Obligations.RefractoryNeuronsSpikeOnce := by
  unfold Obligations.RefractoryNeuronsSpikeOnce
  intro r w x
  have hcap := integrate_n_le_countCap r w x
  refine ⟨fun hr => ?_, fun hs hr => ?_, fun hs => ?_, integrate_n_of_refractory⟩
  · rw [countCap_of_refract hr] at hcap
    exact Nat.le_one_iff_eq_zero_or_eq_one.1 hcap
  · rwa [countCap_of_multi hs hr] at hcap
  · rwa [countCap_of_single hs] at hcap

end Sys2Proof.Machine
end

section
/-!
PROOFS of the statements on neurons (spec 03): stations, neuron accesses and counter clears (O12).
-/

namespace Sys2Proof.Machine

variable {s u v : State}

/-- A write that is performed gives what its own meaning gives, and its status is answered. -/
theorem State.typed_of_accepts {r : Requester} {k v : Nat} (f : State → Nat × State) (h : s.Accepts r k v) :
    s.typed r k v f = (f s).2.answer r k (f s).1 := by
  obtain ⟨hhears, hgate, _⟩ := id h
  simp [State.typed, State.checked, State.writeCheck_of_accepts h, hhears, hgate]

/-! ### STATION_ENABLE (R174) -/

theorem exec_stationEnable {r : Requester} {n v t : Nat} (h : (s.at t).Accepts r (kStationEnable n) v)
    (hl : (s.at t).plasticLicensed = true ∨ bit (v % 16) 0 = false ∧ bit (v % 16) 1 = false) :
    exec (.stationEnable r n v t) s = .next ((((s.at t).dset (kStationEnable n) (v % 16)).modPart n (fun p => { p with
      stations := if running p = false then v % 16 else if p.seq.isOpen = true then p.stations else p.stations &&& (v % 16) })).answer r
        (kStationEnable n) stOk) := by
  refine congrArg Host.Outcome.next ((State.typed_of_accepts _ h).trans ?_)
  have hok : ¬ (!(s.at t).plasticLicensed && ((bit (v % 16) 0 && !bit ((s.at t).dget (kStationEnable n)) 0) ||
      (bit (v % 16) 1 && !bit ((s.at t).dget (kStationEnable n)) 1))) = true := by
    rcases hl with hl | ⟨h0, h1⟩
    · simp [hl]
    · simp [h0, h1]
  simp only [State.doStationEnable, if_neg hok, Bool.not_eq_true']

/-! ### STATION_DISABLE_NOW (R174, Table 6.11) -/

/-- From `s` to `u` work has been discarded: no station in force has changed, nor STATION_ENABLE of partition `n`. -/
structure StationsKept (n : Nat) (s u : State) : Prop where
  stations : ∀ m, (u.part m).stations = (s.part m).stations
  enable : u.dget (kStationEnable n) = s.dget (kStationEnable n)
  queues : u.queues = s.queues
  syncs : u.syncs = s.syncs
  keep : u.keep = s.keep
  sec : u.sec = s.sec

variable {n : Nat}

theorem StationsKept.refl (n : Nat) (s : State) : StationsKept n s s := ⟨fun _ => rfl, rfl, rfl, rfl, rfl, rfl⟩
theorem StationsKept.trans (h : StationsKept n s u) (k : StationsKept n u v) : StationsKept n s v :=
  ⟨fun m => (k.stations m).trans (h.stations m), k.enable.trans h.enable, k.queues.trans h.queues, k.syncs.trans h.syncs,
    k.keep.trans h.keep, k.sec.trans h.sec⟩
theorem StationsKept.ite {p : Prop} [Decidable p] {a b : State} (ha : StationsKept n s a) (hb : StationsKept n s b) :
    StationsKept n s (if p then a else b) := by
  split <;> assumption
theorem StationsKept.foldl {α : Type} {f : State → α → State} (hf : ∀ u x, StationsKept n s u → StationsKept n s (f u x)) (l : List α)
    (h : StationsKept n s u) : StationsKept n s (l.foldl f u) := by
  induction l generalizing u with
  | nil => exact h
  | cons x r ih => exact ih (hf u x h)
theorem StationsKept.each {f : State → Nat → State} (hf : ∀ u x, StationsKept n s u → StationsKept n s (f u x)) (l : List Nat)
    (h : StationsKept n s u) : StationsKept n s (u.each l f) := h.foldl hf l
theorem StationsKept.modCore (h : StationsKept n s u) (c : Nat) (f : Core → Core) : StationsKept n s (u.modCore c f) :=
  h.trans ⟨fun _ => rfl, rfl, rfl, rfl, rfl, rfl⟩
theorem StationsKept.modRem (h : StationsKept n s u) (e m : Nat) (f : RemoteBuf → RemoteBuf) : StationsKept n s (u.modRem e m f) :=
  h.trans ⟨fun _ => rfl, rfl, rfl, rfl, rfl, rfl⟩
theorem StationsKept.modPart (h : StationsKept n s u) (m : Nat) {f : Part → Part} (hf : ∀ p, (f p).stations = p.stations := by intro _; rfl) :
    StationsKept n s (u.modPart m f) := by
  refine h.trans ⟨fun j => ?_, rfl, rfl, rfl, rfl, rfl⟩
  by_cases e : j = m
  · rw [e, State.part_modPart_self, hf]
  · rw [State.part_modPart_ne _ e]
theorem StationsKept.dset (h : StationsKept n s u) {k : Nat} (hk : kStationEnable n ≠ k) (x : Nat) : StationsKept n s (u.dset k x) :=
  h.trans ⟨fun _ => rfl, u.dget_dset_ne hk x, rfl, rfl, rfl, rfl⟩

/-- An entry that no core counter sums to is left by the counters. -/
theorem State.dget_bump {j c off : Nat} (hj : ∀ m k, sumKey m off = some k → j ≠ k) (s : State) (a : Nat) : (s.bump c off a).dget j = s.dget j := by
  unfold State.bump
  extract_lets b
  split
  · rfl
  · split
    · rfl
    · next m _ =>
      split
      · next k hk =>
        split
        · exact b.dget_dadd_ne (hj m k hk) a
        · exact b.dget_dadd64_ne (hj m k hk) a
      · rfl

/-- TRACE's discarded updates (offset 0x88 of Table 6.13) have no sum but ABSORB_TOTAL. -/
theorem StationsKept.absorbTrace (h : StationsKept n s u) (c a : Nat) : StationsKept n s (u.absorbCount c 0x88 a) := by
  have hbump : StationsKept n s (u.bump c 0x88 a) := by
    refine h.trans ?_
    have hdget : (u.bump c 0x88 a).dget (kStationEnable n) = u.dget (kStationEnable n) := State.dget_bump (by simp [sumKey]) u a
    have hcounted := u.counted_bump c 0x88 a
    refine ⟨fun m => ?_, hdget, ?_, ?_, ?_, ?_⟩ <;> rw [hcounted]
    rfl
  unfold State.absorbCount
  extract_lets b
  split
  · exact (hbump.modCore c _).dset (by simp only [kStationEnable, kAbsorbTotal]; omega) _
  · exact hbump.modCore c _
theorem StationsKept.countRem (h : StationsKept n s u) (e m a : Nat) : StationsKept n s (u.countRem e m 5 a) :=
  .ite h ((h.modRem e m _).dset (by simp only [kStationEnable, remoteKey, kRemoteSent]; omega) _)
theorem StationsKept.lpWrite (h : StationsKept n s u) (a : Nat) (b : Bytes) : StationsKept n s (u.lpWrite a b) :=
  h.trans ⟨fun _ => rfl, rfl, rfl, rfl, rfl, rfl⟩
theorem StationsKept.tileWrite (h : StationsKept n s u) (t : Tile) (o : Nat) (b : Bytes) : StationsKept n s (u.tileWrite t o b) :=
  .foldl (fun _ _ k => .ite (k.lpWrite _ _) k) _ h
theorem modSlot_stations (p : Part) (i : Nat) (f : Slot → Slot) : (modSlot p i f).stations = p.stations := by
  unfold modSlot
  split <;> rfl
theorem StationsKept.modProj (h : StationsKept n s u) (m p : Nat) (f : Proj → Proj) : StationsKept n s (u.modProj m p f) := by
  refine h.modPart m fun q => ?_
  split
  · exact modSlot_stations q _ _
  · rfl

theorem StationsKept.dropTrace (h : StationsKept n s u) (m : Nat) : StationsKept n s (u.dropTrace m) :=
  .ite h (.each (fun _ _ k => k.absorbTrace _ _) _ h)
theorem StationsKept.abandonApply (h : StationsKept n s u) (m p : Nat) : StationsKept n s (u.abandonApply m p) := by
  unfold State.abandonApply
  extract_lets sl
  split
  · exact h
  · extract_lets nsyn a b
    have hb : StationsKept n s b := (h.tileWrite _ _ _).modProj _ _ _
    exact .ite h (.dset (.modPart hb m) (by simp only [kStationEnable, kApplyAbandoned]; omega) _)
theorem StationsKept.dropRemoteOut (h : StationsKept n s u) (m : Nat) : StationsKept n s (u.dropRemoteOut m) :=
  .countRem (.modRem (.countRem (.modRem (.each (fun _ _ k => k.modCore _ _) _ h) _ _ _) _ _ _) _ _ _) _ _ _
theorem StationsKept.dropRemoteIn (h : StationsKept n s u) (m : Nat) : StationsKept n s (u.dropRemoteIn m) :=
  .countRem (.modRem (.countRem (.modRem h _ _ _) _ _ _) _ _ _) _ _ _
theorem StationsKept.answer (h : StationsKept n s u) (r : Requester) (k code : Nat) : StationsKept n s (u.answer r k code) := by
  have hout : StationsKept n s (u.counted.out (.status r k code)) := by
    rw [State.out, State.outs_eq]
    exact .trans (.dset h (by simp only [kStationEnable, kDictRequests]; omega) _) ⟨fun _ => rfl, rfl, rfl, rfl, rfl, rfl⟩
  unfold State.answer
  split
  · exact h
  · exact hout

/-- The functions `w` of partition `m` stopped, once the updates that wait for TRACE have been discarded. -/
def State.stopStations (s : State) (m w : Nat) : State :=
  ((if bit w 0 = true then s.dropTrace m else s).dset (kStationEnable m)
    (s.dget (kStationEnable m) - (s.dget (kStationEnable m) &&& w))).modPart m (fun p => { p with stations := p.stations - (p.stations &&& w) })

/-- The work of the stopped functions `w` of partition `m` beyond TRACE discarded: APPLYs, remote records out and in. -/
def State.discardWork (s : State) (m w : Nat) : State :=
  let s := if bit w 1 then s.each (projList (activeSlot (s.part m))) (fun s p => s.abandonApply m p) else s
  let s := if bit w 2 then s.dropRemoteOut m else s
  if bit w 3 then s.dropRemoteIn m else s

theorem StationsKept.discardWork (h : StationsKept n s u) (m w : Nat) : StationsKept n s (u.discardWork m w) := by
  unfold State.discardWork
  extract_lets a b
  have ha : StationsKept n s a := .ite (.each (fun _ _ k => k.abandonApply _ _) _ h) h
  have hb : StationsKept n s b := .ite (ha.dropRemoteOut m) ha
  exact .ite (hb.dropRemoteIn m) hb
theorem State.discardWork_of_none {m w : Nat} (h1 : bit w 1 = false) (h2 : bit w 2 = false) (h3 : bit w 3 = false) : s.discardWork m w = s := by
  simp [State.discardWork, h1, h2, h3]

theorem exec_stationDisableNow {r : Requester} {m v t : Nat} (h : (s.at t).Accepts r (kStationDisableNow m) v) :
    exec (.stationDisableNow r m v t) s = .next
      ((((s.at t).stopStations m (v % 16)).discardWork m (v % 16)).answer r (kStationDisableNow m) stOk) :=
  congrArg Host.Outcome.next (State.typed_of_accepts _ h)

theorem State.stopStations_spec (s : State) (m w : Nat) : let u := s.stopStations m w
    u.dget (kStationEnable m) = s.dget (kStationEnable m) - (s.dget (kStationEnable m) &&& w) ∧
    (u.part m).stations = (s.part m).stations - ((s.part m).stations &&& w) ∧ (∀ j, j ≠ m → (u.part j).stations = (s.part j).stations) ∧
    u.queues = s.queues ∧ u.syncs = s.syncs ∧ u.keep = s.keep ∧ u.sec = s.sec := by
  unfold State.stopStations
  have hb : StationsKept m s (if bit w 0 = true then s.dropTrace m else s) := .ite (.dropTrace (.refl m s) m) (.refl m s)
  generalize (if bit w 0 = true then s.dropTrace m else s) = b at hb
  refine ⟨b.dget_dset_self _ _, ?_, fun j hj => ?_, hb.queues, hb.syncs, hb.keep, hb.sec⟩
  · rw [State.part_modPart_self, State.part_dset, hb.stations]
  · rw [State.part_modPart_ne _ hj, State.part_dset, hb.stations]

theorem stationDisableNow_stops {r : Requester} {m v t : Nat} (h : (s.at t).Accepts r (kStationDisableNow m) v) :
    let a := s.at t
    let old := a.dget (kStationEnable m)
    let w := v % 16
    ∃ u, exec (.stationDisableNow r m v t) s = .next u ∧ u.dget (kStationEnable m) = old - (old &&& w) ∧
      (u.part m).stations = (a.part m).stations - ((a.part m).stations &&& w) ∧ (∀ j, j ≠ m → (u.part j).stations = (a.part j).stations) ∧
      u.queues = a.queues ∧ u.syncs = a.syncs ∧ u.keep = a.keep ∧ u.sec = a.sec := by
  intro a old w
  obtain ⟨henable, hself, hother, hqueues, hsyncs, hkeep, hsec⟩ := a.stopStations_spec m w
  refine ⟨_, exec_stationDisableNow h, ?_⟩
  have hu : StationsKept m (a.stopStations m w) (((a.stopStations m w).discardWork m w).answer r (kStationDisableNow m) stOk) :=
    ((StationsKept.refl m _).discardWork m w).answer _ _ _
  exact ⟨hu.enable.trans henable, (hu.stations m).trans hself, fun j hj => (hu.stations j).trans (hother j hj), hu.queues.trans hqueues,
    hu.syncs.trans hsyncs, hu.keep.trans hkeep, hu.sec.trans hsec⟩
theorem exec_stationDisableNow_trace {r : Requester} {m v t : Nat} (h : (s.at t).Accepts r (kStationDisableNow m) v)
    (h1 : bit (v % 16) 1 = false) (h2 : bit (v % 16) 2 = false) (h3 : bit (v % 16) 3 = false) :
    exec (.stationDisableNow r m v t) s = .next (((s.at t).stopStations m (v % 16)).answer r (kStationDisableNow m) stOk) := by
  rw [exec_stationDisableNow h, State.discardWork_of_none h1 h2 h3]

/-! ### Neuron accesses (R178, R70, R360) -/

theorem exec_neuronAccess {r : Requester} {n sub t : Nat} {data : Option Bytes} (hh : (s.at t).hears r = true)
    (hg : (s.at t).gate (if data.isSome then 2 else 1) (naKey n sub) = true) (hlo : 2 ≤ sub) (hhi : sub ≤ 5) (hn : n < 8)
    (hr : (s.at t).reqReads r (naKey n sub) = true) (hlen : ∀ b, data = some b → b.length = naLength sub)
    (ho : (s.at t).domainOff (naKey n sub) 0 = false) :
    exec (.neuronAccess r n sub data t) s = .next (
      let q : NeuronReq := { req := r, sub := sub, target := (s.at t).sel r (kNaTarget n), data := data }
      let b := if data.isSome then s.at t else (s.at t).counted
      if running ((s.at t).part n) then (b.modPart n (fun p => { p with waiting := p.waiting ++ [q] })).dset (kNaStatus n) 1
      else b.naPerform n q) := by
  have hany : data.any (fun b => b.length != naLength sub) = false := by
    cases data with
    | none => rfl
    | some b => simp [hlen b rfl]
  have hpart : (if data.isSome then s.at t else (s.at t).counted).part n = (s.at t).part n := by split <;> rfl
  show execNeuronAccess r n sub data t s = _
  rw [← hpart]
  simp only [execNeuronAccess, hh, hg, hr, ho, hany, Nat.not_lt.2 hlo, Nat.not_lt.2 hhi, Nat.not_le.2 hn, or_self, Bool.not_true,
    Bool.false_eq_true, if_false, State.naRequest]

theorem exec_neuronAccessPerform {n t : Nat} {q : NeuronReq} {w : List NeuronReq} (hw : ((s.at t).part n).waiting = q :: w)
    (ho : ((s.at t).part n).seq.isOpen = false) :
    exec (.neuronAccessPerform n t) s = .next (((s.at t).modPart n (fun p => { p with waiting := w })).naPerform n q) := by
  show execNeuronAccessPerform n t s = _
  simp [execNeuronAccessPerform, hw, ho]

section Perform

variable {n : Nat} {q : NeuronReq}

theorem State.naPerform_read (ht : s.naTargetOk n q.target = true) (hg : s.naGone q.target = false) (hd : q.data = none) (hs : q.sub ≠ 0) :
    s.naPerform n q = (s.dset (kNaStatus n) 2).readNew q.req (q.tag.getD 0) (naKey n q.sub) q.off q.maxlen
      ((s.dset (kNaStatus n) 2).naRead q.sub q.target) := by
  simp [State.naPerform, ht, hg, hd, hs]
theorem State.naPerform_write {x : Bytes} (ht : s.naTargetOk n q.target = true) (hg : s.naGone q.target = false) (hd : q.data = some x)
    (hw : s.naWriteOk n q.sub q.target x = true) :
    s.naPerform n q = ((s.naWrite n q.sub q.target x).dset (kNaStatus n) 2).writeAnswer q.req q.tag (naKey n q.sub) x.length stOk := by
  simp [State.naPerform, ht, hg, hd, hw]
theorem State.naPerform_gone (ht : s.naTargetOk n q.target = true) (hg : s.naGone q.target = true) :
    s.naPerform n q = (s.internalError n (q.target / 16384)).naRefuse n q stHardware := by
  simp [State.naPerform, ht, hg]

end Perform

/-! ### COUNTER_CLEAR (R179) -/

theorem State.doCounterClear_taken {r : Requester} {n v : Nat} (hv : v = 1 ∨ v = 2)
    (hm : v = 1 → (s.part n).mask.testBit (clusterOf (s.sel r (kCoreSelect n))) = true) :
    s.doCounterClear r n v = (stOk,
      let c := if v = 1 then some (s.sel r (kCoreSelect n)) else none
      if running (s.part n) then s.modPart n (fun p => { p with clears := p.clears ++ [c] }) else s.clearWhat n c) := by
  have hknown : ¬ (v ≠ 1 ∧ v ≠ 2) := by omega
  have hinside : ¬ (v = 1 ∧ (!(s.part n).mask.testBit (clusterOf (s.sel r (kCoreSelect n)))) = true) := fun h => by simp [hm h.1] at h
  rw [State.doCounterClear, if_neg hknown]
  dsimp only
  rw [if_neg hinside]

/-- Settles O12, command by command. -/
theorem stationsAndNeuronsAreReached : Obligations.StationsAndNeuronsAreReached := by
  unfold Obligations.StationsAndNeuronsAreReached
  refine ⟨fun s r n v t => exec_stationEnable, fun s r n v t => exec_stationDisableNow_trace, fun s r n v t => ?_, fun s r n sub t data => ?_,
    fun s n t q w => ?_, fun s n t q w x => ?_, fun s n t q w => ?_, fun s r n v t => ?_⟩
  · exact fun h _ => stationDisableNow_stops h
  · exact exec_neuronAccess
  · exact fun hw ho ht hg hd hs => (exec_neuronAccessPerform hw ho).trans (congrArg _ (State.naPerform_read ht hg hd hs))
  · exact fun hw ho ht hg hd hok => (exec_neuronAccessPerform hw ho).trans (congrArg _ (State.naPerform_write ht hg hd hok))
  · exact fun hw ho ht hg => (exec_neuronAccessPerform hw ho).trans (congrArg _ (State.naPerform_gone ht hg))
  · intro a c h hv hm
    refine congrArg Host.Outcome.next ((State.typed_of_accepts _ h).trans ?_)
    rw [State.doCounterClear_taken hv hm]

end Sys2Proof.Machine
end

section
/-!
PROOFS of the statements on neurons (spec 03): events, the sweep and its spikes, hauls and journals (O9).
-/

namespace Sys2Proof.Machine

variable {s u v : State} {c : Nat}

/-! ### EVENT_ACCUMULATE (R96, R119) -/

/-- INTAKE of core `c` hands on its first event, and the cache is pinned again by what remains. -/
def State.handOn (s : State) (c : Nat) (r : List EvRec) : State := s.modCore c (fun k => repin { k with intake := r })

theorem exec_eventAccumulate {t : Nat} {e : EvRec} {r : List EvRec} (hl : (s.at t).liveCore c = true) (hs : ((s.at t).core c).sweepDone = false)
    (ht : ((s.at t).core c).truncated = false) (ha : ((s.at t).core c).absorbed = false) (hi : ((s.at t).core c).intake = e :: r) :
    exec (.eventAccumulate c t) s = .next (
      let i := (s.at t).handOn c r
      if e.word = 0 then i
      else if evCount e.word = 0 then i.bump c 0x6C 1
      else (i.accumulateEvent (activeSlot (i.coreP c)) c ((s.at t).core c).pitch (i.traceOn c) e.word).modCore c repin) := by
  refine congrArg Host.Outcome.next ((if_neg (by simp [hl, hs, ht, ha])).trans ?_)
  rw [hi]
  rfl

theorem State.accumulateEvent_row {sl : Slot} {p : Nat} {trace : Bool} {w : BitVec 64} {row : Row} {b : State}
    (h : s.fetchRow sl c w = (some row, b)) : s.accumulateEvent sl c p trace w =
      let d := b.accumulateRow c (evCount w) row
      if trace = false then d else match d.rowRun sl c (evRow w) with
        | none => d
        | some x => d.tracePre (d.coreN c) x.1 x.2 (mget dProj sl.projs x.2.proj).bank (evRow w) row (evCount w) p := by
  rw [State.accumulateEvent, h]
  exact if_congr (by simp) rfl rfl
/-- Counting leaves the slot and the partition of a core. -/
theorem State.accumulateEvent_fault {sl : Slot} {p : Nat} {trace : Bool} {w : BitVec 64} {b : State}
    (h : s.fetchRow sl c w = (none, b)) : s.accumulateEvent sl c p trace w =
      let d := b.bump c 0x60 1
      d.reportUnit 0x0106 0 1 (d.physCore c) (d.partOf (clusterOf c)) (evRow w) := by
  have hcounted := b.counted_bump c 0x60 1
  have hphys : (b.bump c 0x60 1).physCore c = b.physCore c := by rw [hcounted]; rfl
  have hpart : (b.bump c 0x60 1).partOf (clusterOf c) = b.partOf (clusterOf c) := by rw [hcounted]; rfl
  rw [State.accumulateEvent, h]
  dsimp only
  rw [hphys, hpart]

/-! ### What EMIT leaves alone (R84, R120) -/

/-- The spikes of a core that wait at EMIT, and whether JOURNAL stalls it. -/
def Core.waits (k : Core) : List Spike × Bool := (k.emitQ, k.stalled)

/-- From `s` to `u` spikes have been journaled and their events sent: of the core memories, counters alone have changed. -/
structure Emitting (s u : State) : Prop where
  only : u = { s with cm := u.cm, cores := u.cores, clusters := u.clusters, hauls := u.hauls, haulNext := u.haulNext, dict := u.dict, mem := u.mem }
  cm : u.cm = { s.cm with counters := u.cm.counters }

/-- From `s` to `u` the events of spikes have been sent, and every core has the spikes waiting that it had. -/
structure Sending (s u : State) : Prop extends Emitting s u where
  waits : ∀ d, (u.core d).waits = (s.core d).waits

theorem Emitting.trans (h : Emitting s u) (k : Emitting u v) : Emitting s v where
  only := by
    have := k.only
    rw [h.only] at this
    exact this
  cm := by
    have := k.cm
    rw [h.cm] at this
    exact this
theorem Emitting.frame (h : Emitting s u) :
    u.cm.neurons = s.cm.neurons ∧ u.queues = s.queues ∧ u.syncs = s.syncs ∧ u.keep = s.keep ∧ u.sec = s.sec := by
  rw [h.only, h.cm]
  exact ⟨rfl, rfl, rfl, rfl, rfl⟩
theorem Emitting.modCore (h : Emitting s u) (c : Nat) (f : Core → Core) : Emitting s (u.modCore c f) := h.trans ⟨rfl, rfl⟩
theorem Emitting.modCluster (h : Emitting s u) (c : Nat) (f : Cluster → Cluster) : Emitting s (u.modCluster c f) := h.trans ⟨rfl, rfl⟩

theorem Sending.refl (s : State) : Sending s s := ⟨⟨rfl, rfl⟩, fun _ => rfl⟩
theorem Sending.trans (h : Sending s u) (k : Sending u v) : Sending s v := ⟨h.toEmitting.trans k.toEmitting, fun d => (k.waits d).trans (h.waits d)⟩
theorem Sending.ite {p : Prop} [Decidable p] {a b : State} (ha : Sending s a) (hb : Sending s b) : Sending s (if p then a else b) := by
  split <;> assumption
theorem Sending.foldl {α : Type} {f : State → α → State} (hf : ∀ u x, Sending s u → Sending s (f u x)) (l : List α) (h : Sending s u) :
    Sending s (l.foldl f u) := by
  induction l generalizing u with
  | nil => exact h
  | cons x r ih => exact ih (hf u x h)
theorem Sending.modCore (h : Sending s u) (c : Nat) {f : Core → Core} (hf : ∀ k, (f k).waits = k.waits := by intro _; rfl) :
    Sending s (u.modCore c f) := by
  refine h.trans ⟨⟨rfl, rfl⟩, fun d => ?_⟩
  by_cases e : d = c
  · rw [e, State.core_modCore_self, hf]
  · rw [State.core_modCore_ne _ e]
theorem Sending.modMem (h : Sending s u) (f : Mem → Mem) : Sending s (u.modMem f) := h.trans ⟨⟨rfl, rfl⟩, fun _ => rfl⟩
theorem Sending.dadd (h : Sending s u) (k x : Nat) : Sending s (u.dadd k x) := h.trans ⟨⟨rfl, rfl⟩, fun _ => rfl⟩
theorem Sending.dadd64 (h : Sending s u) (k x : Nat) : Sending s (u.dadd64 k x) := h.trans ⟨⟨rfl, rfl⟩, fun _ => rfl⟩
theorem Sending.bump (h : Sending s u) (c off a : Nat) : Sending s (u.bump c off a) := by
  refine h.trans ?_
  rw [u.counted_bump c off a]
  exact ⟨⟨rfl, rfl⟩, fun _ => rfl⟩
theorem Sending.absorbCount (h : Sending s u) (c off a : Nat) : Sending s (u.absorbCount c off a) := by
  unfold State.absorbCount
  extract_lets b
  have hb : Sending s b := .modCore (h.bump c off a) c
  split
  · exact hb.dadd64 _ _
  · exact hb
theorem Sending.tileWriteHdr (h : Sending s u) (t : Tile) (o : Nat) (b : Bytes) : Sending s (u.tileWriteHdr t o b) :=
  .foldl (fun _ _ k => .ite (k.modMem _) k) _ h
theorem Sending.storeHalf (h : Sending s u) (n : Nat) (t : Tile) (o : Nat) (x : F32) : Sending s (u.storeHalf n t o x) :=
  (h.tileWriteHdr _ _ _).dadd _ _
theorem Sending.tracePost (h : Sending s u) (n : Nat) (t : Tile) (r : Run) (bank q k p : Nat) : Sending s (u.tracePost n t r bank q k p) :=
  .dadd64 (.tileWriteHdr (.storeHalf (.foldl (fun _ _ k => k.storeHalf _ _ _ _) _ h) _ _ _ _) _ _ _) _ _
theorem Sending.traceSpike (h : Sending s u) (sl : Slot) (c : Nat) (sp : Spike) : Sending s (u.traceSpike sl c sp) :=
  .ite h (.ite (h.absorbCount _ _ _) (.foldl (fun _ _ k => k.tracePost _ _ _ _ _ _ _) _ h))
theorem Sending.pushHaul (h : Sending s u) (x : Haul) : Sending s (u.pushHaul x) := h.trans ⟨⟨rfl, rfl⟩, fun _ => rfl⟩
theorem Sending.launchHaul (h : Sending s u) (c : Nat) (o : OpenHaul) : Sending s (u.launchHaul c o) := by
  unfold State.launchHaul
  extract_lets kind a
  have ha : Sending s a := h.modCore c
  exact .bump (ha.pushHaul _) c _ _
theorem Sending.launchAll (h : Sending s u) (c : Nat) : Sending s (u.launchAll c) := .foldl (fun _ _ k => k.launchHaul c _) _ h
theorem Sending.emitTo (h : Sending s u) (c dst : Nat) (ev : List (BitVec 64)) (rem : List RemoteRec) : Sending s (u.emitTo c dst ev rem) := by
  unfold State.emitTo
  extract_lets k a b
  have ha : Sending s a := by
    refine .ite h ?_
    split
    · exact h.launchHaul c _
    · exact h
  have hb : Sending s b := by
    refine ha.modCore c fun k => ?_
    split <;> rfl
  split
  · exact .ite (hb.launchHaul c _) hb
  · exact hb
theorem Sending.sendEvent (h : Sending s u) (c g n e : Nat) : Sending s (u.sendEvent c g n e) :=
  .ite (h.emitTo _ _ _ _) (.ite (h.emitTo _ _ _ _) h)
theorem Sending.cacheRead (h : Sending s u) (c : Nat) (kd : CacheKind) (i units : Nat) : Sending s (u.cacheRead c kd i units) := by
  unfold State.cacheRead
  extract_lets l a
  have ha : Sending s a := h.bump c _ _
  split
  · exact .bump (h.modCore c) c _ _
  · split
    · exact ha.modCore c
    · exact ha
theorem Sending.discardEvents (h : Sending s u) (c a : Nat) : Sending s (u.discardEvents c a) := .ite (h.modCore c) (h.absorbCount c _ _)
theorem Sending.emitSpike (h : Sending s u) (sl : Slot) (c : Nat) (sp : Spike) : Sending s (u.emitSpike sl c sp) := by
  unfold State.emitSpike
  extract_lets a held es b
  have ha : Sending s a := h.traceSpike sl c sp
  have hb : Sending s b := .ite (ha.cacheRead _ _ _ _) (ha.bump _ _ _)
  exact .ite (.modCore (ha.bump _ _ _) c) (.ite (ha.discardEvents _ _) (.foldl (fun _ _ k => k.sendEvent _ _ _ _) _ hb))

/-! ### EMIT's work on the spikes that wait (R84, R137) -/

/-- With nothing more to emit, core `c` stalls no longer, and after its sweep launches its open hauls. -/
theorem State.emitWaiting_done (s : State) (sl : Slot) (c fuel : Nat) (h : (s.core c).emitQ = []) :
    Sending (s.modCore c (fun k => { k with stalled := false })) (s.emitWaiting sl c (fuel + 1)) := by
  rw [State.emitWaiting_nil sl fuel h]
  exact .ite ((Sending.refl _).launchAll c) (.refl _)

theorem State.emitWaiting_emitting (s : State) (sl : Slot) (c fuel : Nat) : Emitting s (s.emitWaiting sl c fuel) := by
  induction fuel generalizing s with
  | zero => exact (Sending.refl s).toEmitting
  | succ fuel ih =>
    have hs : Emitting s s := (Sending.refl s).toEmitting
    cases hq : (s.core c).emitQ with
    | nil => exact (hs.modCore c _).trans (s.emitWaiting_done sl c fuel hq).toEmitting
    | cons sp r =>
      by_cases hf : 512 ≤ (s.cluster (clusterOf c)).journalBuf.length
      · rw [State.emitWaiting_full sl fuel hq hf]
        exact hs.modCore c _
      · rw [State.emitWaiting_cons sl fuel hq (Nat.not_le.1 hf)]
        have htaken : Emitting s (s.takeSpike c sp r) := (hs.modCluster _ _).modCore c _
        exact htaken.trans (((Sending.refl _).emitSpike sl c sp).toEmitting.trans (ih _))

/-- With fuel for every spike that waits, EMIT goes on until none waits or JOURNAL is full (R137). -/
theorem State.emitWaiting_ends (s : State) (sl : Slot) (c fuel : Nat) (h : (s.core c).emitQ.length < fuel) :
    let u := s.emitWaiting sl c fuel
    (u.core c).stalled = false ∧ (u.core c).emitQ = [] ∨
      (u.core c).stalled = true ∧ 512 ≤ (u.cluster (clusterOf c)).journalBuf.length := by
  intro u
  induction fuel generalizing s with
  | zero => exact absurd h (Nat.not_lt_zero _)
  | succ fuel ih =>
    cases hq : (s.core c).emitQ with
    | nil =>
      have hwaits := (s.emitWaiting_done sl c fuel hq).waits c
      rw [State.core_modCore_self] at hwaits
      exact .inl ⟨congrArg (·.2) hwaits, (congrArg (·.1) hwaits).trans hq⟩
    | cons sp r =>
      by_cases hf : 512 ≤ (s.cluster (clusterOf c)).journalBuf.length
      · dsimp only [u]
        rw [State.emitWaiting_full sl fuel hq hf, State.core_modCore_self]
        exact .inr ⟨rfl, hf⟩
      · have hleft : ((s.takeSpike c sp r).emitSpike sl c sp |>.core c).emitQ = r := by
          refine (congrArg (·.1) (((Sending.refl _).emitSpike sl c sp).waits c)).trans ?_
          rw [State.takeSpike, State.core_modCore_self]
          rfl
        dsimp only [u]
        rw [State.emitWaiting_cons sl fuel hq (Nat.not_le.1 hf)]
        refine ih _ ?_
        rw [hleft]
        rw [hq, List.length_cons] at h
        omega

theorem exec_journalStallEnd {t : Nat} (hs : ((s.at t).core c).stalled = true)
    (hl : ((s.at t).cluster (clusterOf c)).journalBuf.length < 512) : exec (.journalStallEnd c t) s = .next
      ((s.at t).emitWaiting (activeSlot ((s.at t).coreP c)) c (((s.at t).core c).emitQ.length + 1)) :=
  congrArg Host.Outcome.next (if_pos (by simp [hs, hl]))

/-- With nothing to emit and the sweep to come, the end of a stall is all that happens. -/
theorem State.emitWaiting_unswept {sl : Slot} {fuel : Nat} (hq : (s.core c).emitQ = []) (hs : (s.core c).sweepDone = false) :
    s.emitWaiting sl c (fuel + 1) = s.modCore c (fun k => { k with stalled := false }) := by
  rw [State.emitWaiting_nil sl fuel hq]
  dsimp only
  rw [if_neg]
  rw [State.core_modCore_self]
  simp [hs]

/-! ### INTEGRATE_SWEEP (R72, R105) -/

theorem State.bump_as {s₀ : State} (c off a : Nat) (h : Aside s₀ s) : Aside s₀ (s.bump c off a) := by
  rw [s.counted_bump c off a]
  exact ⟨h.pending, h.reqs, h.queues, h.syncs, h.mem, h.keep, h.sec, h.pins⟩
theorem State.guardCount_as {s₀ : State} (ri rs : Nat) (acc : Int) (x : F32) (h : Aside s₀ s) : Aside s₀ (s.guardCount ri rs acc x) :=
  ite_as h (State.modCm_as _ h)
theorem State.sweepPos_as {s₀ : State} (slots : List (Nat × Nat)) (c : Nat) (clamp replay withheld : Bool) (setOf : Nat → Nat) (q : Nat)
    (h : Aside s₀ s) : Aside s₀ (s.sweepPos slots c clamp replay withheld setOf q).1 := by
  unfold State.sweepPos
  extract_lets g w ri rs acc x k a cx i b f d e
  have ha : Aside s₀ a := ite_as h (State.guardCount_as _ _ _ _ h)
  have hb : Aside s₀ b := State.bump_as _ _ _ (State.bump_as _ _ _ ha)
  have hd : Aside s₀ d := State.bump_as _ _ _ (State.bump_as _ _ _ (State.bump_as _ _ _ (State.modCm_as _ hb)))
  have he : Aside s₀ e := State.bump_as _ _ _ hd
  exact ite_fst_as he (State.bump_as _ _ _ (State.bump_as _ _ _ he))
theorem State.sweep_as {s₀ : State} (c : Nat) (replay withheld : Bool) (setOf : Nat → Nat) (h : Aside s₀ s) :
    Aside s₀ (s.sweep c replay withheld setOf).1 := by
  unfold State.sweep
  extract_lets clamp slots pos x
  have hx : Aside s₀ x.1 := by
    refine foldl_fst_as pos (fun _ q k => ?_) h
    exact State.sweepPos_as slots c clamp replay withheld setOf q k
  exact State.bump_as _ _ _ hx
theorem State.writeCairn_as {s₀ : State} (c : Nat) (h : Aside s₀ s) : Aside s₀ (s.writeCairn c) := by
  unfold State.writeCairn
  split
  · exact h
  · exact ite_as (State.modCore_as _ _ h) (State.modCore_as _ _ (State.modCm_as _ h))

/-- What the end of a sweep and the emission of its spikes leave alone. -/
theorem Aside.sweepEnd (h : Aside s v) (c : Nat) (f : Core → Core) (sl : Slot) (fuel : Nat) :
    let u := ((v.noteLoad c).modCore c f).emitWaiting sl c fuel
    u.cm.neurons = v.cm.neurons ∧ u.queues = s.queues ∧ u.syncs = s.syncs ∧ u.keep = s.keep ∧ u.sec = s.sec := by
  intro u
  have hend : Aside s ((v.noteLoad c).modCore c f) := State.modCore_as _ _ (State.dmax_as _ _ h)
  obtain ⟨hneurons, hqueues, hsyncs, hkeep, hsec⟩ := (State.emitWaiting_emitting _ sl c fuel : Emitting ((v.noteLoad c).modCore c f) u).frame
  exact ⟨hneurons, hqueues.trans hend.queues, hsyncs.trans hend.syncs, hkeep.trans hend.keep, hsec.trans hend.sec⟩
/-- The whole sweep of core `c`: the cairn that is due, and then RESCALE and INTEGRATE at every position. -/
def State.swept (s : State) (c : Nat) : State × List Spike :=
  (s.writeCairn c).sweep c false ((s.coreP c).seq.truncAt.isSome || (s.coreP c).seq.absorbAt.isSome)
    (fun g => (mget dScale (s.coreP c).win.groups g).cur)

theorem State.swept_as (s : State) (c : Nat) : Aside s (s.swept c).1 := State.sweep_as _ _ _ _ (State.writeCairn_as c (.refl s))
theorem State.integrateAll_eq (s : State) (c : Nat) :
    ∃ f sl fuel, s.integrateAll c = (((s.swept c).1.noteLoad c).modCore c f).emitWaiting sl c fuel := ⟨_, _, _, rfl⟩

/-- A sweep leaves the neuron state words as RESCALE and INTEGRATE wrote them, and no queue, sync object, keep set or key is touched. -/
theorem State.integrateAll_sweeps (s : State) (c : Nat) : let u := s.integrateAll c
    (u.core c).sweepDone = true ∧ u.cm.neurons = (s.swept c).1.cm.neurons ∧ u.queues = s.queues ∧ u.syncs = s.syncs ∧ u.keep = s.keep ∧
      u.sec = s.sec := by
  refine ⟨s.integrateAll_sweepDone c, ?_⟩
  obtain ⟨f, sl, fuel, he⟩ := s.integrateAll_eq c
  rw [he]
  exact (s.swept_as c).sweepEnd c f sl fuel

/-! ### Hauls (R120, R121) -/

theorem exec_haulOpenTimeout {dst t : Nat} {o : OpenHaul} (hf : ((s.at t).core c).openHauls.find? (fun o => o.dst == dst) = some o)
    (ht : o.opened + 256 ≤ (s.at t).now) : exec (.haulOpenTimeout c dst t) s = .next ((s.at t).launchHaul c o) := by
  show execHaulOpenTimeout c dst t s = _
  simp only [execHaulOpenTimeout, hf, ht, if_true]

/-- A haul taken out of flight, counted where its core's leaf sinks it (R436). -/
def State.takeHaul (s : State) (id : Nat) (h : Haul) : State :=
  let done : State := { s with hauls := mset dNone s.hauls id none }
  if (s.core h.dst).mode == CoreMode.failed || (s.core h.dst).mode == CoreMode.lost then done.dadd64 kSunkAtFailed 1 else done

theorem State.takeHaul_eq (s : State) (id : Nat) (h : Haul) :
    s.takeHaul id h = { s with hauls := mset dNone s.hauls id none, dict := (s.takeHaul id h).dict } := by
  unfold State.takeHaul
  extract_lets done
  split <;> rfl
theorem State.takeHaul_of_mode {id : Nat} {h : Haul} (hm : (s.core h.dst).mode = .live ∨ (s.core h.dst).mode = .excused) :
    s.takeHaul id h = { s with hauls := mset dNone s.hauls id none } := by
  rcases hm with hm | hm <;> simp [State.takeHaul, hm]
theorem State.arriveHaul_event {id : Nat} {h : Haul} (hk : h.kind = .event) :
    s.arriveHaul id h = h.events.foldl (fun s w => s.arriveEvent h.dst h.pitch false w) (s.takeHaul id h) := by
  unfold State.arriveHaul
  rw [hk]
  rfl

/-- The acknowledgement of a haul changes the fabric and what leaves the part. -/
theorem State.ackHaul_eq (s : State) (h : Haul) : s.ackHaul h = { s with fab := (s.ackHaul h).fab, outbox := (s.ackHaul h).outbox } := by
  unfold State.ackHaul
  split
  · unfold State.completePacket
    extract_lets k held a
    split
    · rw [State.sendAck, State.out, State.outs_eq]
      rfl
    · rfl
  · rfl
theorem State.core_ackHaul (s : State) (h : Haul) (d : Nat) : (s.ackHaul h).core d = s.core d := by
  rw [s.ackHaul_eq h]
  rfl

theorem Worked.arriveEvents {h : Haul} (l : List (BitVec 64)) (hw : Worked h.dst s u) :
    Worked h.dst s (l.foldl (fun s w => s.arriveEvent h.dst h.pitch false w) u) := by
  induction l generalizing u with
  | nil => exact hw
  | cons w l ih => exact ih (hw.arriveEvent _ _ w)

theorem State.arriveHaul_takes {id : Nat} {h : Haul} (hk : h.kind = .event) : let u := (s.arriveHaul id h).ackHaul h
    mget dNone u.hauls id = none ∧ (∀ d, d ≠ h.dst → u.core d = s.core d) ∧ u.queues = s.queues ∧ u.syncs = s.syncs ∧ u.mem = s.mem := by
  intro u
  have hw : Worked h.dst (s.takeHaul id h) (s.arriveHaul id h) := by
    rw [State.arriveHaul_event hk]
    exact (Worked.refl _ _).arriveEvents h.events
  have htake : ∀ d, (s.takeHaul id h).core d = s.core d := fun d => by rw [State.takeHaul_eq]; rfl
  refine ⟨?_, fun d hd => (State.core_ackHaul _ h d).trans ((hw.others d hd).trans (htake d)), ?_⟩
  · dsimp only [u]
    rw [State.ackHaul_eq, hw.only, State.takeHaul_eq]
    exact mget_mset_self (α := Option Haul) dNone s.hauls id none
  · dsimp only [u]
    rw [State.ackHaul_eq, hw.only, State.takeHaul_eq]
    exact ⟨rfl, rfl, rfl⟩

/-- An event of 1 to 32 pitches of delay goes to BOBBIN (R121, R125). -/
theorem State.arriveEvent_bobbin {p : Nat} {w : BitVec 64} (hm : (s.core c).mode = .live ∨ (s.core c).mode = .excused) (hw : w ≠ 0)
    (hc : evCount w ≠ 0) (hlo : 1 ≤ evDelay w) (hhi : evDelay w ≤ 32) : s.arriveEvent c p false w =
      s.bobbinPut c { word := evSetDelay w ((p + evDelay w) % 1024), target := p + evDelay w } := by
  have hfault : ¬ (evCount w = 0 ∨ evDelay w = 0) := by omega
  rw [State.arriveEvent, if_neg hw, if_neg hfault]
  rcases hm with hm | hm <;> simp [hm, hhi]
theorem State.bobbinPut_segment {r : EvRec} (h : ringCount (s.core c) (r.target % 32) % 32 ≠ 0 ∨ segsUsed (s.core c) < 256) :
    s.bobbinPut c r = (s.modCore c (fun k => { k with ring := k.ring ++ [r] })).ringPeak c := if_pos h

/-- A haul of one event that BOBBIN has a segment for. -/
theorem State.arriveHaul_ring {id : Nat} {h : Haul} {w : BitVec 64} (hk : h.kind = .event) (he : h.events = [w])
    (hm : (s.core h.dst).mode = .live ∨ (s.core h.dst).mode = .excused) (hw : w ≠ 0) (hc : evCount w ≠ 0) (hlo : 1 ≤ evDelay w)
    (hhi : evDelay w ≤ 32) (hr : ringCount (s.core h.dst) ((h.pitch + evDelay w) % 32) % 32 ≠ 0 ∨ segsUsed (s.core h.dst) < 256) :
    s.arriveHaul id h = (State.modCore { s with hauls := mset dNone s.hauls id none } h.dst (fun k => { k with
      ring := k.ring ++ [{ word := evSetDelay w ((h.pitch + evDelay w) % 1024), target := h.pitch + evDelay w }] })).ringPeak h.dst := by
  rw [State.arriveHaul_event hk, he, State.takeHaul_of_mode hm]
  exact (State.arriveEvent_bobbin (s := { s with hauls := mset dNone s.hauls id none }) hm hw hc hlo hhi).trans (State.bobbinPut_segment hr)

theorem exec_eventHaulArrival_event {id t : Nat} {h : Haul} (hh : mget dNone (s.at t).hauls id = some h) (hk : h.kind = .event) :
    exec (.eventHaulArrival id t) s = .next (((s.at t).arriveHaul id h).ackHaul h) :=
  exec_eventHaulArrival hh (by rw [hk]; exact HaulKind.noConfusion)

/-! ### Journals (R136) -/

theorem exec_journalRecord {cl : Nat} {e : JEntry} {r : List JEntry} (h : (s.cluster cl).journalBuf = e :: r) :
    exec (.journalRecord cl) s = .next
      (((s.modCluster cl (fun q => { q with journalBuf := r })).journalPut cl [e]).tryClusterBelay cl s.now) := by
  show execJournalRecord cl s = _
  rw [execJournalRecord, h]
theorem State.journalPut_local {cl : Nat} (h : s.localArea cl = true) (es : List JEntry) : s.journalPut cl es = s.modCluster cl (fun q => { q with
    journal := trimJournal (journalAdd q.journal (s.pitchOf ((s.partOf cl).getD 8)) es), jNext := (q.jNext + jSum es) % journalRing }) :=
  if_pos h

/-! ### ENCODE_DONE (R214) -/

/-- ENCODE_DONE of stream `k` told to a cluster. -/
def State.tellDone (k : Nat) (s : State) (cl : Nat) : State := s.modCluster cl (fun q => { q with encDone := q.encDone ++ [k] })

theorem State.tellDone_self (s : State) (k cl : Nat) : k ∈ ((s.tellDone k cl).cluster cl).encDone := by
  rw [State.tellDone, State.cluster_modCluster_self]
  exact List.mem_append_right _ (List.mem_singleton_self k)
theorem State.tellDone_keeps {k x : Nat} (cl : Nat) (h : k ∈ (s.cluster x).encDone) : k ∈ ((s.tellDone k cl).cluster x).encDone := by
  by_cases e : x = cl
  · rw [e]
    exact s.tellDone_self k cl
  · rwa [State.tellDone, State.cluster_modCluster_ne _ e]
theorem each_tellDone_keeps {k x : Nat} (l : List Nat) (h : k ∈ (s.cluster x).encDone) : k ∈ ((s.each l (State.tellDone k)).cluster x).encDone := by
  induction l generalizing s with
  | nil => exact h
  | cons cl l ih => exact ih (State.tellDone_keeps cl h)
theorem each_tellDone {k x : Nat} {l : List Nat} (h : x ∈ l) (s : State) : k ∈ ((s.each l (State.tellDone k)).cluster x).encDone := by
  induction h generalizing s with
  | head l => exact each_tellDone_keeps l (s.tellDone_self k x)
  | tail cl _ ih => exact ih (s.tellDone k cl)
theorem each_tellDone_eq (s : State) (k : Nat) (l : List Nat) :
    s.each l (State.tellDone k) = { s with clusters := (s.each l (State.tellDone k)).clusters } := by
  induction l generalizing s with
  | nil => rfl
  | cons cl l ih => exact ih (s.tellDone k cl)

theorem State.sendEncodeDone_of_convOf {k n : Nat} {tl : Tile} (h : s.convOf k = some (n, tl)) : s.sendEncodeDone k =
    (s.modStream k (fun q => { q with encoding := false })).each ((s.stCores tl).map clusterOf).eraseDups (State.tellDone k) := by
  have hconv : (s.modStream k (fun q => { q with encoding := false })).convOf k = some (n, tl) := h
  unfold State.sendEncodeDone
  dsimp only
  rw [hconv]
  rfl

theorem State.sendEncodeDone_tells {k n : Nat} {tl : Tile} (h : s.convOf k = some (n, tl)) : let u := s.sendEncodeDone k
    (u.stream k).encoding = false ∧ (∀ c ∈ s.stCores tl, k ∈ (u.cluster (clusterOf c)).encDone) ∧
      u = { s with streams := u.streams, clusters := u.clusters } := by
  intro u
  have hu : u = _ := State.sendEncodeDone_of_convOf h
  refine ⟨s.sendEncodeDone_encoding k, fun c hc => ?_, ?_⟩
  · rw [hu]
    exact each_tellDone (List.mem_eraseDups.2 (List.mem_map_of_mem hc)) _
  · rw [hu, each_tellDone_eq]
    rfl

/-- Settles O9, command by command. -/
theorem eventsReachTheirPitch : Obligations.EventsReachTheirPitch := by
  unfold Obligations.EventsReachTheirPitch
  refine ⟨fun s c t e r row b => ?_, fun s c t e r b => ?_, fun s c t e r => ?_, fun s c t => ?_, fun s c dst t o => exec_haulOpenTimeout,
    fun s id t h => ?_, fun s id t h w => ?_, fun s cl e r => ?_, fun s c t => ?_, fun s k t n tl => ?_, fun s cl => ?_⟩
  · intro a i hl hs ht ha hi hw hc hf
    refine (exec_eventAccumulate hl hs ht ha hi).trans (congrArg _ ((if_neg hw).trans ((if_neg hc).trans ?_)))
    exact congrArg (·.modCore c repin) (State.accumulateEvent_row hf)
  · intro a i hl hs ht ha hi hw hc hf
    refine (exec_eventAccumulate hl hs ht ha hi).trans (congrArg _ ((if_neg hw).trans ((if_neg hc).trans ?_)))
    exact congrArg (·.modCore c repin) (State.accumulateEvent_fault hf)
  · intro a hl hs ht ha hi hpad
    rw [exec_eventAccumulate hl hs ht ha hi]
    by_cases hw : e.word = 0
    · simp only [hw, if_true]
      rfl
    · simp only [hw, if_false, hpad.resolve_left hw, if_true]
      rfl
  · exact fun h => ⟨_, exec_integrateSweep h, (s.at t).integrateAll_sweeps c⟩
  · exact fun hh hk => ⟨_, exec_eventHaulArrival_event hh hk, State.arriveHaul_takes hk⟩
  · intro a k tgt hh hk he hm hw hc hlo hhi hr
    have hput := State.arriveHaul_ring (id := id) hk he hm hw hc hlo hhi hr
    obtain ⟨hgone, hothers, _⟩ := State.arriveHaul_takes (s := a) (id := id) hk
    refine ⟨_, exec_eventHaulArrival_event hh hk, ?_, hgone, hothers, ?_⟩
    · rw [State.core_ackHaul, hput, (State.counted_ringPeak _ _).core, State.core_modCore_self]
      rfl
    · have hland := State.counted_ringPeak (State.modCore { a with hauls := mset dNone a.hauls id none } h.dst (fun k => { k with
        ring := k.ring ++ [{ word := evSetDelay w (tgt % 1024), target := tgt }] })) h.dst
      rw [← hput] at hland
      rw [State.ackHaul_eq, hland]
      rfl
  · intro h hl
    rw [exec_journalRecord h, State.journalPut_local (s := s.modCluster cl _) hl]
    rfl
  · intro a hs hl
    refine ⟨_, exec_journalStallEnd hs hl, a.emitWaiting_ends _ c _ (Nat.lt_succ_self _), fun hq hs => State.emitWaiting_unswept hq hs⟩
  · exact fun he hu hn hc hconv => ⟨_, exec_encodeDone he hu hn hc, State.sendEncodeDone_tells hconv⟩
  · exact fun h => congrArg Host.Outcome.next (if_pos (by simpa using h))

end Sys2Proof.Machine
end

section
/-!
PROOFS of the statements on event delivery (spec 05): row reads (O8).
-/

namespace Sys2Proof.Machine

variable {s u v : State} {c row : Nat}

/-! ### Row reads (R131 to R133) -/

/-- A prefetch issued where the cache has room `l`: the directory entry of the row is read first, unless it is cached. -/
theorem State.issuePrefetch_room {sl : Slot} {l : List CacheObj} (h : s.roomIn c (s.core c).cache (s.rowUnits sl c row + 1) = some l) :
    s.issuePrefetch sl c row =
      let b := s.modCore c (fun k => { k with cache := l, deferred := k.deferred.filter (· != row) })
      if cacheFind l .dir row = none then (b.modCore c (fun k => { k with reads := k.reads ++ [⟨row, false⟩] })).bump c 0x28 1
      else ((b.modCore c (fun k => { k with cache := cacheHit k.cache .dir row, reads := k.reads ++ [⟨row, true⟩] })).bump c 0x20 1).bump c
        0x28 1 := by
  unfold State.issuePrefetch
  rw [h]
  dsimp only
  rw [State.core_modCore_self]
  dsimp only
  cases cacheFind l .dir row with
  | none => rw [if_pos rfl]
  | some o => rw [if_neg (Option.some_ne_none o)]
theorem State.issuePrefetch_full {sl : Slot} (h : s.roomIn c (s.core c).cache (s.rowUnits sl c row + 1) = none) :
    s.issuePrefetch sl c row = (s.modCore c (fun k => { k with
      deferred := if k.deferred.contains row then k.deferred else k.deferred ++ [row] })).bump c 0x74 1 := by
  rw [State.issuePrefetch, h]

theorem exec_prefetchRetry {w : List Nat} {l : List CacheObj} (hm : s.mayRead c = true) (hd : (s.core c).deferred = row :: w)
    (hl : s.roomIn c (s.core c).cache (s.rowUnits (activeSlot (s.coreP c)) c row + 1) = some l) :
    exec (.prefetchRetry c) s = .next (s.issuePrefetch (activeSlot (s.coreP c)) c row) := by
  show execPrefetchRetry c s = _
  simp only [execPrefetchRetry, hm, hd, hl]
  rfl

/-- The work of a core leaves what its rows are and the room of the caches. -/
theorem State.roomIn_modCore (s : State) (d : Nat) (f : Core → Core) (l : List CacheObj) (need : Nat) :
    (s.modCore d f).roomIn c l need = s.roomIn c l need := rfl
theorem State.rowUnits_modCore (s : State) (d : Nat) (f : Core → Core) (sl : Slot) : (s.modCore d f).rowUnits sl c row = s.rowUnits sl c row := rfl
theorem State.rowBad_modCore (s : State) (d : Nat) (f : Core → Core) (sl : Slot) : (s.modCore d f).rowBad sl c row = s.rowBad sl c row := rfl

/-- The reads of the other rows go on. -/
def State.endRead (s : State) (c row : Nat) : State := s.modCore c (fun k => { k with reads := k.reads.filter (fun q => q.row != row) })

theorem exec_readData_dropped {ok : Bool} {q : RowRead} (hq : (s.core c).reads.find? (fun q => q.row == row) = some q)
    (hdrop : (s.core c).truncated = true ∨ (s.core c).absorbed = true ∨
      q.dirDone = false ∧ (ok = false ∨ s.dirBad (activeSlot (s.coreP c)) c row = true)) :
    exec (.readData c row ok) s = .next (s.endRead c row) := by
  show execReadData c row ok s = _
  rw [execReadData, hq]
  exact congrArg Host.Outcome.next (if_pos (by simpa [or_assoc] using hdrop))

/-- The directory entry enters, and the read goes on to the row. -/
theorem exec_readData_dir {l : List CacheObj} (hq : (s.core c).reads.find? (fun q => q.row == row) = some ⟨row, false⟩)
    (ht : (s.core c).truncated = false) (ha : (s.core c).absorbed = false) (hl : s.roomIn c (s.core c).cache 1 = some l)
    (hd : s.dirBad (activeSlot (s.coreP c)) c row = false) :
    exec (.readData c row true) s = .next (((s.modCore c (fun k => { k with cache := l ++ [⟨.dir, row, .cached, 0, 1, false⟩] })).modCore c
      (fun k => { k with reads := k.reads.map (fun q => if q.row == row then { q with dirDone := true } else q) })).bump c 0x28 1) := by
  show execReadData c row true s = _
  simp only [execReadData, hq, ht, ha, hd, hl]
  rfl

/-- A row with room enters. -/
theorem exec_readData_row {l : List CacheObj} (hq : (s.core c).reads.find? (fun q => q.row == row) = some ⟨row, true⟩)
    (ht : (s.core c).truncated = false) (ha : (s.core c).absorbed = false) (hc : cacheFind (s.core c).cache .row row = none)
    (hl : s.roomIn c (s.core c).cache (s.rowUnits (activeSlot (s.coreP c)) c row) = some l)
    (hb : s.rowBad (activeSlot (s.coreP c)) c row = false) :
    exec (.readData c row true) s = .next ((s.endRead c row).enterRow c row (s.rowUnits (activeSlot (s.coreP c)) c row) l) := by
  show execReadData c row true s = _
  simp only [execReadData, hq, ht, ha, hc, State.roomIn_modCore, State.rowUnits_modCore, State.rowBad_modCore, hl, hb]
  rfl

/-- Settles O8, command by command. -/
theorem rowsArePrefetched : Obligations.RowsArePrefetched := by
  unfold Obligations.RowsArePrefetched
  refine ⟨fun s c r l hm hn hl => ?_, fun s c r hm hn hl _ => ?_, fun s c r w l hm hd hl => ?_, fun s c row ok l hq ht ha hl hok hd => ?_,
    fun s c row ok q => exec_readData_dropped, fun s c row l => ?_⟩
  · rw [exec_prefetch hm hn, State.issuePrefetch_room hl]
  · rw [exec_prefetch hm hn, State.issuePrefetch_full hl]
  · rw [exec_prefetchRetry hm hd hl, State.issuePrefetch_room hl]
  · rw [hok]
    exact exec_readData_dir hq ht ha hl hd
  · intro sl hq ht ha hc hl hb
    exact exec_readData_row hq ht ha hc hl hb

end Sys2Proof.Machine
end

section
/-!
PROOFS of the statements on event delivery (spec 05): records between modules (O23).
-/

namespace Sys2Proof.Machine

variable {s u v : State} {e n : Nat}

/-! ### REMOTE_HAUL (R119, R138) -/

/-- A remote haul reaches its edge router: its record faults are counted, its other records buffered. -/
theorem State.arriveHaul_remote {id : Nat} {h : Haul} (hk : h.kind = .remote) (hd : h.dst = 2048 + e) :
    s.arriveHaul id h = (State.dadd { s with hauls := mset dNone s.hauls id none } (kRecordFaults h.part)
      (h.remotes.filter (fun r => inFlightBad r.event)).length).modRem e h.part (fun b => { b with
        out := b.out ++ (h.remotes.filter (fun r => inFlightOk r.event)).map (fun r => (r.peer, h.pitch, r)) }) := by
  have he : e = h.dst - 2048 := by omega
  rw [he, State.arriveHaul, hk]

theorem exec_remoteHaul {id t : Nat} {h : Haul} (hh : mget dNone (s.at t).hauls id = some h) (hk : h.kind = .remote)
    (hd : h.dst = 2048 + e) (hroom : (s.at t).outRoom e h.remotes.length = true) :
    exec (.remoteHaul e id t) s = .next (((s.at t).arriveHaul id h).ackHaul h) := by
  show execRemoteHaul e id t s = _
  rw [execRemoteHaul, hh]
  exact congrArg Host.Outcome.next (if_neg (by simp [hk, hd, hroom]))

/-! ### REMOTE_TRANSMIT, REMOTE_SEND_FAILED and ROCE_ACK (R138, R142, R451) -/

/-- The records that wait at edge router `e` for peer `k` of partition `n`, of pitch `p`. -/
def State.outFor (s : State) (e n k p : Nat) : List (Nat × Nat × RemoteRec) :=
  (s.remBuf e n).out.filter (fun r => r.1 == k && r.2.1 == p)
/-- The other records that wait there. -/
def State.outOthers (s : State) (e n k p : Nat) : List (Nat × Nat × RemoteRec) :=
  (s.remBuf e n).out.filter (fun r => !(r.1 == k && r.2.1 == p))

theorem exec_remoteTransmit {peer t p k : Nat} {r : RemoteRec} (hf : ((s.at t).remBuf e n).out.find? (fun r => r.1 == peer) = some (k, p, r))
    (hdue : ((s.at t).part n).seq.isOpen = false ∨ ((s.at t).part n).seq.pitch ≠ p ∨ 255 ≤ ((s.at t).outFor e n peer p).length) :
    exec (.remoteTransmit e n peer t) s = .next (
      ((s.at t).modRem e n (fun b => { b with out := ((s.at t).outFor e n peer p).drop 255 ++ (s.at t).outOthers e n peer p })).sendRemote
        e n peer p ((((s.at t).outFor e n peer p).take 255).map (fun r => r.2.2))) := by
  have hgo : ¬ (((s.at t).outFor e n peer p).length < 255 ∧ ((s.at t).part n).seq.isOpen ∧ ((s.at t).part n).seq.pitch = p) := by
    rintro ⟨hshort, hopen, hpitch⟩
    rcases hdue with hclosed | hother | hfull
    · exact Bool.false_ne_true (hclosed.symm.trans hopen)
    · exact hother hpitch
    · omega
  show execRemoteTransmit e n peer t s = _
  rw [execRemoteTransmit, hf]
  exact congrArg Host.Outcome.next (if_neg hgo)

theorem State.dropRemote_pos {k p cnt : Nat} (h : 0 < cnt) :
    s.dropRemote n k p cnt = (s.countRem (peerEdge (s.peer n k)) n 5 cnt).mark n 10 k cnt p := if_neg (Nat.ne_of_gt h)

theorem exec_remoteSendFailed {peer pitch nrec t : Nat}
    (hs : (peer, pitch, nrec) ∈ ((s.at t).remBuf (peerEdge ((s.at t).peer n peer)) n).sent) :
    exec (.remoteSendFailed n peer pitch nrec t) s = .next (
      ((((s.at t).modRem (peerEdge ((s.at t).peer n peer)) n (fun b => { b with sent := b.sent.erase (peer, pitch, nrec) })).dropRemote n peer
        pitch nrec).peerFailed n peer pitch)) := by
  show execRemoteSendFailed n peer pitch nrec t s = _
  exact congrArg Host.Outcome.next (if_neg (by simpa using hs))

theorem exec_roceAck {peer t : Nat} {x : Nat × Nat × Nat}
    (hf : ((s.at t).remBuf (peerEdge ((s.at t).peer n peer)) n).sent.find? (fun m => m.1 == peer) = some x) :
    exec (.roceAck n peer t) s = .next (
      ((s.at t).modRem (peerEdge ((s.at t).peer n peer)) n (fun b => { b with sent := b.sent.erase x })).peerOk n peer) := by
  show execRoceAck n peer t s = _
  simp only [execRoceAck, hf]

/-! ### REMOTE_MESSAGE (R119, R139) -/

/-- The records of a message but for padding. -/
def rmRecords (msg : Bytes) : List RemoteRec := ((List.range (rmCount msg)).map (rmRecord msg)).filter (fun r => r.event != 0)
/-- The records of `l` that partition `n` accepts and edge router `e` has room for. -/
def State.rrKept (s : State) (e n : Nat) (l : List RemoteRec) : List RemoteRec :=
  ((l.filter (s.rrOk n)).filter (fun r => inFlightOk r.event)).take (32768 - s.inbound e)
/-- The record faults among those that it accepts. -/
def State.rrBad (s : State) (n : Nat) (l : List RemoteRec) : List RemoteRec := (l.filter (s.rrOk n)).filter (fun r => inFlightBad r.event)

theorem exec_remoteMessage_taken {m : MessagePath} {t : Nat} {msg : Bytes} (hform : rmFormOk msg = true)
    (htaken : ((s.at t).messageMarked m msg).rmTaken msg = true) :
    exec (.remoteMessage m msg t) s = .next (
      let a := (s.at t).messageMarked m msg
      let n := fieldAt msg 5 1
      let kept := a.rrKept m.edge n (rmRecords msg)
      let bad := a.rrBad n (rmRecords msg)
      ((bad.foldl (fun s r => s.bump r.dcore 0x6C 1) (a.modRem m.edge n (fun b =>
        { b with inb := b.inb ++ kept.map (fun r => (fieldAt msg 8 8, r)) }))).countRem m.edge n 1 kept.length).countRem m.edge n 5
          ((rmRecords msg).length - bad.length - kept.length)) :=
  congrArg Host.Outcome.next (if_neg (by simp [hform, htaken]))
theorem exec_remoteMessage_refused {m : MessagePath} {t : Nat} {msg : Bytes}
    (h : rmFormOk msg = false ∨ ((s.at t).messageMarked m msg).rmTaken msg = false) :
    exec (.remoteMessage m msg t) s = .next (let a := (s.at t).messageMarked m msg
      if fieldAt msg 5 1 < 8 then a.countRem m.edge (fieldAt msg 5 1) 5 (rmCount msg) else a) := by
  have hrefused : (!(rmFormOk msg && ((s.at t).messageMarked m msg).rmTaken msg)) = true := by
    rcases h with h | h <;> simp [h]
  exact congrArg Host.Outcome.next (if_pos hrefused)

/-! ### REMOTE_INJECT (R140, R141) -/

/-- The buffered records of `l` against closed pitch `p`: counted where late or early, with the events to inject and their cores. -/
def State.injectAll (s : State) (e n p : Nat) (l : List (Nat × RemoteRec)) : State × List (Nat × BitVec 64) :=
  l.foldl (fun (a : State × List (Nat × BitVec 64)) x =>
    let o := a.1.injectOne e n p x
    (o.1, a.2 ++ o.2.toList)) (s, [])
/-- The events of `l` put in flight, in hauls of at most 256 events for one core. -/
def State.pushInjected (s : State) (e n p : Nat) (l : List (Nat × BitVec 64)) : State :=
  (l.map (·.1)).eraseDups.foldl (fun s c =>
    let ev := (l.filter (fun x => x.1 == c)).map (·.2)
    (hauls256 ((ev.length + 255) / 256) ev).foldl (fun s h => s.pushHaul ⟨.injected, 2048 + e, c, h, [], p, n⟩) s) s
/-- What edge router `e` holds for partition `n` is injected at closed pitch `p`. -/
def State.injectBuf (s : State) (e n p : Nat) : State :=
  let r := (s.modRem e n (fun b => { b with inb := [] })).injectAll e n p (s.remBuf e n).inb
  r.1.pushInjected e n p r.2

theorem exec_remoteInject {t : Nat} (hever : ((s.at t).part n).seq.everOpen = true) (hclosed : ((s.at t).part n).seq.isOpen = false)
    (hrun : running ((s.at t).part n) = true) (hgap : (s.at t).now + 5000 ≤ ((s.at t).part n).seq.belayAt + (s.at t).guardNs n) :
    exec (.remoteInject e n t) s = .next ((s.at t).injectBuf e n ((s.at t).part n).seq.pitch) :=
  congrArg Host.Outcome.next (if_neg (by simp [hever, hclosed, hrun, hgap]))

/-- From `s` to `u` records of edge router `e` for partition `n` have been counted and put in flight under new numbers. -/
structure Injecting (e n : Nat) (s u : State) : Prop where
  only : u = { s with remote := u.remote, dict := u.dict, hauls := u.hauls, haulNext := u.haulNext }
  inb : (u.remBuf e n).inb = (s.remBuf e n).inb
  out : (u.remBuf e n).out = (s.remBuf e n).out
  next : s.haulNext ≤ u.haulNext
  flying : ∀ i, i < s.haulNext → mget dNone u.hauls i = mget dNone s.hauls i

@[simp] theorem State.remBuf_modRem_self (s : State) (e n : Nat) (f : RemoteBuf → RemoteBuf) : (s.modRem e n f).remBuf e n = f (s.remBuf e n) :=
  mget_mmod_self dRemote _ _ f

theorem Injecting.refl (e n : Nat) (s : State) : Injecting e n s s := ⟨rfl, rfl, rfl, le_rfl, fun _ _ => rfl⟩
theorem Injecting.trans (h : Injecting e n s u) (k : Injecting e n u v) : Injecting e n s v where
  only := by
    have := k.only
    rw [h.only] at this
    exact this
  inb := k.inb.trans h.inb
  out := k.out.trans h.out
  next := h.next.trans k.next
  flying i hi := (k.flying i (Nat.lt_of_lt_of_le hi h.next)).trans (h.flying i hi)
theorem Injecting.foldl {α : Type} {f : State → α → State} (hf : ∀ u x, Injecting e n s u → Injecting e n s (f u x)) (l : List α)
    (h : Injecting e n s u) : Injecting e n s (l.foldl f u) := by
  induction l generalizing u with
  | nil => exact h
  | cons x r ih => exact ih (hf u x h)
theorem Injecting.countRem (h : Injecting e n s u) (j a : Nat) : Injecting e n s (u.countRem e n j a) := by
  refine h.trans ?_
  unfold State.countRem
  split
  · exact .refl e n u
  · have hbuf := u.remBuf_modRem_self e n (fun b => { b with counts := mset dZero b.counts j (wrapAdd 64 (mget dZero b.counts j) a) })
    exact ⟨rfl, (congrArg RemoteBuf.inb hbuf :), (congrArg RemoteBuf.out hbuf :), le_rfl, fun _ _ => rfl⟩
/-- A haul put in flight takes a number of its own. -/
theorem Injecting.pushHaul (h : Injecting e n s u) (x : Haul) : Injecting e n s (u.pushHaul x) :=
  h.trans ⟨rfl, rfl, rfl, Nat.le_succ _, fun _ hi => mget_mset_ne (α := Option Haul) dNone u.hauls (Nat.ne_of_lt hi) (some x)⟩
theorem Injecting.injectOne (h : Injecting e n s u) (p : Nat) (x : Nat × RemoteRec) : Injecting e n s (u.injectOne e n p x).1 := by
  unfold State.injectOne
  extract_lets t w
  split
  · split
    · exact h.countRem 2 1
    · exact h.countRem 3 1
  · split
    · exact h.countRem 4 1
    · exact h
theorem Injecting.injectAll (h : Injecting e n s u) (p : Nat) (l : List (Nat × RemoteRec)) : Injecting e n s (u.injectAll e n p l).1 := by
  unfold State.injectAll
  generalize ([] : List (Nat × BitVec 64)) = sent
  induction l generalizing u sent with
  | nil => exact h
  | cons x r ih => exact ih (h.injectOne p x) _
theorem Injecting.pushInjected (h : Injecting e n s u) (p : Nat) (l : List (Nat × BitVec 64)) : Injecting e n s (u.pushInjected e n p l) :=
  .foldl (fun _ _ k => .foldl (fun _ _ k => k.pushHaul _) _ k) _ h

/-- Once the buffer is empty, injecting what it held goes on as above. -/
theorem State.injectBuf_injecting (s : State) (e n p : Nat) :
    Injecting e n (s.modRem e n (fun b => { b with inb := [] })) (s.injectBuf e n p) :=
  ((Injecting.refl e n _).injectAll p _).pushInjected p _
theorem State.injectBuf_empty {p : Nat} (h : (s.remBuf e n).inb = []) : s.injectBuf e n p = s.modRem e n (fun b => { b with inb := [] }) := by
  rw [State.injectBuf, h]
  rfl

/-- Settles O23, command by command. -/
theorem remoteEventsTravel : Obligations.RemoteEventsTravel := by
  unfold Obligations.RemoteEventsTravel
  refine ⟨fun s e id t h => ?_, fun s e n peer t p k r => ?_, fun s n peer pitch nrec t => ?_, fun s m t msg => ?_,
    fun s m t msg => exec_remoteMessage_refused, fun s e n t => ?_, fun s e n t => ?_, fun s n peer t x => exec_roceAck⟩
  · intro a hh hk hd hroom
    rw [exec_remoteHaul hh hk hd hroom, State.arriveHaul_remote hk hd]
  · intro a mine rest b hf hdue
    exact exec_remoteTransmit hf hdue
  · intro a e hs hpos
    rw [exec_remoteSendFailed hs, State.dropRemote_pos hpos]
    rfl
  · intro a e n recs bad kept hform htaken
    exact exec_remoteMessage_taken hform htaken
  · intro a hever hclosed hrun hgap
    have hi := a.injectBuf_injecting e n (a.part n).seq.pitch
    have hbuf := a.remBuf_modRem_self e n (fun b => { b with inb := [] })
    exact ⟨_, exec_remoteInject hever hclosed hrun hgap, hi.inb.trans (congrArg RemoteBuf.inb hbuf),
      hi.out.trans (congrArg RemoteBuf.out hbuf :), fun i h hlt hfl => (hi.flying i hlt).trans hfl, hi.only⟩
  · intro a hever hclosed hrun hgap hempty
    rw [exec_remoteInject hever hclosed hrun hgap, State.injectBuf_empty hempty]

end Sys2Proof.Machine
end

section
/-!
PROOFS of the statements on stations and tiles (spec 06): image slots, their frames, and the commands of a partition (O10, O43, O55).
-/

namespace Sys2Proof.Machine

variable {s u v : State} {n i : Nat}

/-! ### Slots of a partition -/

/-- A slot read after a slot was changed. -/
theorem slotAt_modSlot (p : Part) (i j : Nat) (f : Slot → Slot) :
    slotAt (modSlot p i f) j = if i = 0 ↔ j = 0 then f (slotAt p j) else slotAt p j := by
  by_cases hi : i = 0 <;> by_cases hj : j = 0 <;> simp [slotAt, modSlot, hi, hj]
@[simp] theorem slotAt_modSlot_self (p : Part) (i : Nat) (f : Slot → Slot) : slotAt (modSlot p i f) i = f (slotAt p i) := by
  rw [slotAt_modSlot, if_pos Iff.rfl]
theorem otherSlot_eq_zero (h : i < 2) : otherSlot i = 0 ↔ ¬ i = 0 := by
  rw [otherSlot]
  omega
theorem slotAt_modSlot_other (h : i < 2) (p : Part) (f : Slot → Slot) :
    slotAt (modSlot p i f) (otherSlot i) = slotAt p (otherSlot i) := by
  rw [slotAt_modSlot, if_neg]
  rw [otherSlot_eq_zero h]
  tauto
theorem slotAt_modSlot_of_other (h : i < 2) (p : Part) (f : Slot → Slot) :
    slotAt (modSlot p (otherSlot i) f) i = slotAt p i := by
  rw [slotAt_modSlot, if_neg]
  rw [otherSlot_eq_zero h]
  tauto
/-- A changed slot leaves everything else of its partition. -/
theorem modSlot_only (p : Part) (i : Nat) (f : Slot → Slot) :
    modSlot p i f = { p with slot0 := (modSlot p i f).slot0, slot1 := (modSlot p i f).slot1 } := by
  unfold modSlot
  split <;> rfl
@[simp] theorem modSlot_state (p : Part) (i : Nat) (f : Slot → Slot) : (modSlot p i f).state = p.state := by rw [modSlot_only]
@[simp] theorem modSlot_loading (p : Part) (i : Nat) (f : Slot → Slot) : (modSlot p i f).loading = p.loading := by rw [modSlot_only]
@[simp] theorem modSlot_seq (p : Part) (i : Nat) (f : Slot → Slot) : (modSlot p i f).seq = p.seq := by rw [modSlot_only]

/-! ### The answer of a command -/

/-- An answer is counted and leaves the part: nothing else. -/
theorem State.answer_only (s : State) (r : Requester) (k code : Nat) :
    s.answer r k code = { s with dict := (s.answer r k code).dict, outbox := (s.answer r k code).outbox } := by
  unfold State.answer
  split
  · rfl
  · rw [State.out, State.outs_eq]
    rfl
@[simp] theorem State.answer_parts (s : State) (r : Requester) (k code : Nat) : (s.answer r k code).parts = s.parts := by rw [State.answer_only]
@[simp] theorem State.part_answer (s : State) (r : Requester) (k code m : Nat) : (s.answer r k code).part m = s.part m := by
  rw [State.part, State.answer_parts, State.part]
theorem State.dget_answer {j : Nat} (h : j ≠ kDictRequests) (s : State) (r : Requester) (k code : Nat) :
    (s.answer r k code).dget j = s.dget j := by
  unfold State.answer
  split
  · rfl
  · rw [State.dget_out, State.counted, State.dget_dadd64_ne _ h]

/-! ### Frames (R169, R273) -/

variable {α : Type} {d : Nat → α} {m : SMap α} {q : Nat × α → Bool} {k : Nat}

/-- A store from which nothing at `k` is taken out. -/
theorem mget_filter_of_kept (h : ∀ e : Nat × α, e.1 = k → q e = true) : mget d (m.filter q) k = mget d m k := by
  induction m with
  | nil => rfl
  | cons e r ih =>
    by_cases hq : q e = true
    · rw [List.filter_cons_of_pos hq, mget_cons, mget_cons, ih]
    · rw [List.filter_cons_of_neg hq, mget_cons, ih, if_neg (mt (h e) hq)]
/-- A store from which at `k` only the value `x` is taken out: another value stays. -/
theorem mget_filter_of_ne {x : α} (h : ∀ e : Nat × α, e.1 = k → q e = false → e.2 = x) (hx : mget d m k ≠ x) :
    mget d (m.filter q) k = mget d m k := by
  induction m with
  | nil => rfl
  | cons e r ih =>
    rw [mget_cons] at hx
    by_cases hk : e.1 = k
    · rw [if_pos hk] at hx
      have hq : q e = true := by
        by_contra hq
        exact hx (h e hk (by simpa using hq))
      rw [List.filter_cons_of_pos hq, mget_cons, mget_cons, if_pos hk, if_pos hk]
    · rw [if_neg hk] at hx
      by_cases hq : q e = true
      · rw [List.filter_cons_of_pos hq, mget_cons, mget_cons, ih hx]
      · rw [List.filter_cons_of_neg hq, mget_cons, ih hx, if_neg hk]
/-- A store from which at `k` the value `x` is taken out wherever it stands does not read `x` there. -/
theorem mget_filter_ne_of_out {x : α} (h : ∀ e : Nat × α, e.1 = k → q e = true → e.2 ≠ x) (hd : d k ≠ x) :
    mget d (m.filter q) k ≠ x := by
  induction m with
  | nil => exact hd
  | cons e r ih =>
    by_cases hq : q e = true
    · rw [List.filter_cons_of_pos hq, mget_cons]
      split
      · next hk => exact h e hk hq
      · exact ih
    · rwa [List.filter_cons_of_neg hq]

/-- Does a tile of either slot of the partition lie in frame `f`? -/
def Part.holdsFrame (p : Part) (f : Nat) : Prop := ∃ tl ∈ p.slot0.tiles ++ p.slot1.tiles, ∃ g ∈ tl.granules, f = g / 2 ^ 30

/-- A frame's owner rests on FRAME_ALL, the floor plan and the owners noted. -/
theorem State.frameOwner_congr (hd : u.dget kFrameAll = s.dget kFrameAll) (hf : u.floor = s.floor) (hm : u.mem.owners = s.mem.owners)
    (f : Nat) : u.frameOwner f = s.frameOwner f := by
  simp only [State.frameOwner, State.frameCount, State.framesHalf, State.framesHalfAt, State.frameAll, State.frameAllMax, State.setSlices,
    State.inSet, hd, hf, hm]
@[simp] theorem State.frameOwner_modPart (s : State) (m : Nat) (g : Part → Part) (f : Nat) :
    (s.modPart m g).frameOwner f = s.frameOwner f := State.frameOwner_congr (State.dget_modPart _ _ _ _) rfl rfl f
theorem State.frameOwner_dset {j : Nat} (h : kFrameAll ≠ j) (s : State) (x f : Nat) : (s.dset j x).frameOwner f = s.frameOwner f :=
  State.frameOwner_congr (State.dget_dset_ne s h x) rfl rfl f
theorem State.frameOwner_answer (s : State) (r : Requester) (k code f : Nat) : (s.answer r k code).frameOwner f = s.frameOwner f := by
  refine State.frameOwner_congr (s.dget_answer (by decide) r k code) ?_ ?_ f <;> rw [State.answer_only]

/-- Does the sweep of partition `n` leave a frame with its owner? -/
def State.staysOwned (s : State) (n : Nat) (e : Nat × Nat) : Bool :=
  e.2 != n || (((s.part n).slot0.tiles ++ (s.part n).slot1.tiles).flatMap (fun t => t.granules.map (· / 2 ^ 30))).contains e.1
theorem State.owners_sweepFrames (s : State) (n : Nat) : (s.sweepFrames n).mem.owners = s.mem.owners.filter (s.staysOwned n) := rfl
theorem State.staysOwned_iff (e : Nat × Nat) : s.staysOwned n e = true ↔ e.2 ≠ n ∨ (s.part n).holdsFrame e.1 := by
  rw [State.staysOwned, Bool.or_eq_true, bne_iff_ne, List.contains_iff_mem]
  simp only [Part.holdsFrame, List.mem_flatMap, List.mem_map, eq_comm]
/-- The sweep keeps for a partition the frames that it uses. -/
theorem State.frameOwner_sweepFrames (hn : n < 8) (f : Nat) :
    (s.sweepFrames n).frameOwner f = n ↔ s.frameOwner f = n ∧ (s.part n).holdsFrame f := by
  have hall : (s.sweepFrames n).frameAll = s.frameAll := rfl
  have hcount : (s.sweepFrames n).frameCount = s.frameCount := rfl
  rw [State.frameOwner, State.frameOwner, hall, hcount, State.owners_sweepFrames]
  split
  · omega
  · split
    · omega
    · by_cases hu : (s.part n).holdsFrame f
      · rw [mget_filter_of_kept fun e he => State.staysOwned_iff e |>.2 (.inr (he ▸ hu))]
        exact (and_iff_left hu).symm
      · have hout : mget dOwner (s.mem.owners.filter (s.staysOwned n)) f ≠ n :=
          mget_filter_ne_of_out (fun e he hq => (State.staysOwned_iff e |>.1 hq).resolve_right (he ▸ hu)) (by rw [dOwner]; omega)
        exact iff_of_false hout fun h => hu h.2
/-- The sweep leaves the frames of others. -/
theorem State.frameOwner_sweepFrames_of_ne {f : Nat} (h : s.frameOwner f ≠ n) : (s.sweepFrames n).frameOwner f = s.frameOwner f := by
  have hall : (s.sweepFrames n).frameAll = s.frameAll := rfl
  have hcount : (s.sweepFrames n).frameCount = s.frameCount := rfl
  rw [State.frameOwner] at h
  rw [State.frameOwner, State.frameOwner, hall, hcount, State.owners_sweepFrames]
  split
  · rfl
  · split
    · rfl
    · rw [if_neg ‹_›, if_neg ‹_›] at h
      refine mget_filter_of_ne (x := n) (fun e _ hq => ?_) h
      by_contra hne
      exact Bool.false_ne_true (hq.symm.trans (State.staysOwned_iff e |>.2 (.inl hne)))

/-! ### A slot emptied (R169) -/

@[simp] theorem State.part_sweepFrames (s : State) (n m : Nat) : (s.sweepFrames n).part m = s.part m := rfl
@[simp] theorem State.part_emptySlot_self (s : State) (n i : Nat) (st : SlotState) :
    (s.emptySlot n i st).part n = modSlot (s.part n) i (fun _ => { state := st }) := by
  rw [State.emptySlot, State.part_sweepFrames, State.setSlot, State.part_modPart_self]
theorem State.part_emptySlot_ne {m : Nat} (h : m ≠ n) (s : State) (i : Nat) (st : SlotState) : (s.emptySlot n i st).part m = s.part m := by
  rw [State.emptySlot, State.part_sweepFrames, State.setSlot, State.part_modPart_ne _ h]
/-- With a slot emptied, a partition uses the frames of its other slot. -/
theorem holdsFrame_modSlot (h : i < 2) (p : Part) (st : SlotState) (f : Nat) : (modSlot p i (fun _ => { state := st })).holdsFrame f ↔
    ∃ tl ∈ (slotAt p (otherSlot i)).tiles, ∃ g ∈ tl.granules, f = g / 2 ^ 30 := by
  have hi : i = 0 ∨ i = 1 := by omega
  rcases hi with rfl | rfl <;> simp [Part.holdsFrame, modSlot, slotAt, otherSlot]
theorem State.frameOwner_emptySlot (hn : n < 8) (hi : i < 2) (st : SlotState) (f : Nat) : (s.emptySlot n i st).frameOwner f = n ↔
    s.frameOwner f = n ∧ ∃ tl ∈ (slotAt (s.part n) (otherSlot i)).tiles, ∃ g ∈ tl.granules, f = g / 2 ^ 30 := by
  rw [State.emptySlot, State.frameOwner_sweepFrames hn, State.setSlot, State.part_modPart_self, holdsFrame_modSlot hi]
  rfl
theorem State.frameOwner_emptySlot_of_ne {f : Nat} (h : s.frameOwner f ≠ n) (st : SlotState) :
    (s.emptySlot n i st).frameOwner f = s.frameOwner f := State.frameOwner_sweepFrames_of_ne (s := s.setSlot n i _) h

end Sys2Proof.Machine
end

section
/-!
PROOFS of the statements on stations and tiles (spec 06): CREATE and CLUSTER_MASK, UNLOAD and DESTROY (O43, O55).
-/

namespace Sys2Proof.Machine

variable {s u v : State} {n i t : Nat} {r : Requester}

theorem State.partIs_iff {l : List PartState} : s.partIs n l = true ↔ n < 8 ∧ (s.part n).state ∈ l := by
  simp [State.partIs]

/-! ### CREATE (R163) -/

theorem exec_create {m : CreateOp} (h : (s.at t).Accepts r (kPartitionCommand m.part) 1) : exec (.create r m t) s =
    .next (((s.at t).doCreate m.part m.fails).2.answer r (kPartitionCommand m.part) ((s.at t).doCreate m.part m.fails).1) :=
  congrArg Host.Outcome.next (State.typed_of_accepts _ h)

/-- Does CLUSTER_MASK name a cluster that is not to be had? -/
theorem State.clusterTaken_iff (s : State) (l : List Nat) :
    l.any (fun c => (s.partOf c).isSome || (s.clCores c).isEmpty) = true ↔ ∃ c ∈ l, s.partOf c ≠ none ∨ s.clCores c = [] := by
  simp [Option.isSome_iff_ne_none]
theorem State.doCreate_refused {fails : List Nat} (hn : n < 8) (hs : (s.part n).state = .absent)
    (hm : s.dget (kClusterMask n) = 0 ∨ ∃ c ∈ maskList 128 (s.dget (kClusterMask n)), s.partOf c ≠ none ∨ s.clCores c = []) :
    s.doCreate n fails = (stArgument, s) := by
  have his : s.partIs n [.absent] = true := State.partIs_iff.2 ⟨hn, by simp [hs]⟩
  rw [State.doCreate, if_neg (by simp [his]), if_pos (hm.imp_right (s.clusterTaken_iff _).2)]
theorem State.doCreate_taken {fails : List Nat} (hn : n < 8) (hs : (s.part n).state = .absent) (hm : s.dget (kClusterMask n) ≠ 0)
    (hc : ∀ c ∈ maskList 128 (s.dget (kClusterMask n)), s.partOf c = none ∧ s.clCores c ≠ []) :
    s.doCreate n fails = (stOk, (s.switchIslands (s.wokenClusters (maskList 128 (s.dget (kClusterMask n)))) fails).modPart n (fun p =>
      { p with state := .created, mask := s.dget (kClusterMask n), active := none, slot0 := {}, slot1 := {} })) := by
  have his : s.partIs n [.absent] = true := State.partIs_iff.2 ⟨hn, by simp [hs]⟩
  rw [State.doCreate, if_neg (by simp [his]), if_neg]
  rintro (h0 | htaken)
  · exact hm h0
  · obtain ⟨c, hcl, hbad⟩ := (s.clusterTaken_iff _).1 htaken
    obtain ⟨hfree, hcores⟩ := hc c hcl
    exact hbad.elim (absurd hfree) hcores

/-! ### A write of CLUSTER_MASK (R163) -/

/-- A value of the right length and range, written whole to an entry that no command or neuron access stands behind, has its effect. -/
theorem State.writeEntry_of_accepts {k : Nat} {b : Bytes} {e : EntryRow} {tag : Option Nat} (h : s.Accepts r k (leNat b))
    (hrow : entryRow (k / 256) (k % 256) = some e) (hlo : e.minLen ≤ b.length) (hhi : b.length ≤ e.maxLen) (hacc : e.acc = .rw)
    (hval : valueOk e (leNat b) = true) (hcmd : k ≠ kPartitionCommand (k / 65536 % 16)) (hna : naIndex (k / 256) = none) :
    s.writeEntry r tag k b = (some (s.writeEffect r k (leNat b) b).1, (s.writeEffect r k (leNat b) b).2) := by
  have hlen : ¬ (b.length < e.minLen ∨ e.maxLen < b.length) := by omega
  simp [State.writeEntry, hrow, State.writeCheck_of_accepts h, hlen, hacc, hval, hcmd, hna]

/-- The row of CLUSTER_MASK. -/
def rowClusterMask : EntryRow := ⟨0x3000, 256, 8, 0x02, 0x02, .blob, .rw, 16, 16, 0, 0, 1, [], 0, 0, "CLUSTER_MASK", ""⟩

theorem entryRow_clusterMask (hn : n < 8) : entryRow (kClusterMask n / 256) (kClusterMask n % 256) = some rowClusterMask := by
  decide +revert
theorem perReq_clusterMask (hn : n < 8) : perReq (kClusterMask n) = false := by decide +revert
theorem naIndex_clusterMask (hn : n < 8) : naIndex (kClusterMask n / 256) = none := by decide +revert
/-- CLUSTER_MASK is set in ABSENT, and refuses a write in another state. -/
theorem State.writeEffect_clusterMask (hn : n < 8) (v : Nat) (b : Bytes) : s.writeEffect r (kClusterMask n) v b =
    if (s.part n).state = .absent then (stOk, s.dset (kClusterMask n) v) else (stState, s) := by
  have hindex : kClusterMask n / 256 = 0x3000 + 0x100 * n := by simp only [kClusterMask]; omega
  have hpart : (0x3000 + 0x100 * n) / 256 - 0x30 = n := by omega
  have hcmd : kClusterMask n ≠ kPartitionCommand n := by simp only [kClusterMask, kPartitionCommand]; omega
  simp only [State.writeEffect, perReq_clusterMask hn, hindex, hpart]
  rw [if_neg (by decide), if_neg (by omega), if_pos (by omega), State.writePart, if_neg hcmd, if_pos rfl]

theorem registerWrite_clusterMask {data : Bytes} (hn : n < 8) (h : (s.serve t).Accepts r (kClusterMask n) (leNat data))
    (hl : data.length = 16) : exec (.registerWrite (.entry r (0x3000 + 0x100 * n) 2) data t) s = .next
      (if ((s.serve t).part n).state = .absent then ((s.serve t).dset (kClusterMask n) (leNat data)).answer r (kClusterMask n) stOk
       else (s.serve t).answer r (kClusterMask n) stState) := by
  obtain ⟨hhears, hgate, _⟩ := id h
  have hkey : entryKey (0x3000 + 0x100 * n) 2 = kClusterMask n := by simp only [entryKey, kClusterMask]; omega
  have hcmd : kClusterMask n ≠ kPartitionCommand (kClusterMask n / 65536 % 16) := by
    simp only [kPartitionCommand, kClusterMask]
    omega
  have hentry := State.writeEntry_of_accepts (tag := none) h (entryRow_clusterMask hn) hl.ge hl.le rfl rfl hcmd (naIndex_clusterMask hn)
  rw [State.writeEffect_clusterMask hn] at hentry
  show execRegisterWrite (.entry r (0x3000 + 0x100 * n) 2) data t s = _
  simp only [execRegisterWrite, hkey, hhears, hgate, State.writeWhole, hentry]
  by_cases ha : ((s.serve t).part n).state = .absent <;> simp [ha, State.writeAnswer]

/-- Settles O43: both outcomes of CREATE in ABSENT, and the write of CLUSTER_MASK. -/
theorem clusterMasksAreChecked : Obligations.ClusterMasksAreChecked := by
  unfold Obligations.ClusterMasksAreChecked
  refine ⟨fun s r n t fails => ?_, fun s r n t fails => ?_, fun s r n t data hn => registerWrite_clusterMask hn⟩
  · intro a h hn hs hm
    rw [exec_create (m := ⟨n, fails⟩) h, State.doCreate_refused hn hs hm]
  · intro a h hn hs hm hc
    refine ⟨_, exec_create (m := ⟨n, fails⟩) h, ?_⟩
    rw [State.doCreate_taken hn hs hm hc, State.part_answer, State.part_modPart_self]
    exact ⟨rfl, rfl⟩

/-! ### UNLOAD (R169) -/

theorem exec_unload (h : (s.at t).Accepts r (kPartitionCommand n) 7) : exec (.unload r n t) s =
    .next (((s.at t).doUnload r n).2.answer r (kPartitionCommand n) ((s.at t).doUnload r n).1) :=
  congrArg Host.Outcome.next (State.typed_of_accepts _ h)

theorem State.doUnload_refused (h : (s.part n).active = some (s.sel r (kImageSlot n))) (hs : (s.part n).state = .enabled) :
    s.doUnload r n = (stState, s) := by
  rw [State.doUnload, if_pos (.inr ⟨h, hs⟩)]
/-- Slot `i` of partition `n` unloaded: it is EMPTY, no LOAD of it goes on, no SWAP waits, and the partition without its ACTIVE slot is CREATED. -/
def State.unloaded (s : State) (n i : Nat) : State :=
  let b := (s.emptySlot n i .empty).modPart n (fun p => { p with loading := p.loading.filter (fun l => l.slot != i) })
  if (s.part n).active = some i then b.modPart n (fun p => { p with active := none, state := .created, pendSwap := false })
  else b.modPart n (fun p => { p with pendSwap := false })
theorem State.doUnload_taken (hn : n < 8) (hs : (s.part n).state = .created ∨ (s.part n).state = .ready ∨ (s.part n).state = .enabled)
    (ha : ¬ ((s.part n).active = some (s.sel r (kImageSlot n)) ∧ (s.part n).state = .enabled)) :
    s.doUnload r n = (stOk, s.unloaded n (s.sel r (kImageSlot n))) := by
  have his : s.partIs n [.created, .ready, .enabled] = true := State.partIs_iff.2 ⟨hn, by simpa using hs⟩
  rw [State.doUnload, if_neg (by simpa [his] using ha)]
  simp only [State.unloaded, beq_iff_eq]

/-- What UNLOAD leaves of its partition beside the slot. -/
theorem State.part_unloaded (s : State) (n i : Nat) : ∃ a st, (s.unloaded n i).part n =
    { modSlot (s.part n) i (fun _ => {}) with
      active := a, state := st, pendSwap := false, loading := (s.part n).loading.filter (fun l => l.slot != i) } := by
  unfold State.unloaded
  extract_lets b
  have hb : b.part n = { modSlot (s.part n) i (fun _ => {}) with loading := (s.part n).loading.filter (fun l => l.slot != i) } := by
    rw [State.part_modPart_self, State.part_emptySlot_self, modSlot_loading]
  split
  · exact ⟨none, .created, by rw [State.part_modPart_self, hb]⟩
  · exact ⟨_, _, by rw [State.part_modPart_self, hb]⟩
theorem State.unloaded_part_ne {m : Nat} (h : m ≠ n) : (s.unloaded n i).part m = s.part m := by
  unfold State.unloaded
  extract_lets b
  have hb : b.part m = s.part m := by rw [State.part_modPart_ne _ h, State.part_emptySlot_ne h]
  split <;> rwa [State.part_modPart_ne _ h]
theorem State.unloaded_frameOwner (s : State) (n i f : Nat) : (s.unloaded n i).frameOwner f = (s.emptySlot n i .empty).frameOwner f := by
  unfold State.unloaded
  extract_lets b
  split <;> simp only [b, State.frameOwner_modPart]

/-! ### DESTROY (R169) -/

theorem exec_destroy (h : (s.at t).Accepts r (kPartitionCommand n) 8) : exec (.destroy r n t) s =
    .next (((s.at t).doDestroy n).2.answer r (kPartitionCommand n) ((s.at t).doDestroy n).1) :=
  congrArg Host.Outcome.next (State.typed_of_accepts _ h)

/-- Partition `n` destroyed: its slots emptied, its clusters and its mask given back. -/
def State.destroyed (s : State) (n : Nat) : State :=
  (((s.emptySlot n 0 .empty).emptySlot n 1 .empty).modPart n (fun p => { p with
    state := .absent, mask := 0, active := none, loading := [], pendSwap := false, waiting := [], clears := [] })).dset (kClusterMask n) 0
theorem State.doDestroy_taken (hn : n < 8) (hs : (s.part n).state = .created ∨ (s.part n).state = .ready) :
    s.doDestroy n = (stOk, s.destroyed n) := by
  have his : s.partIs n [.created, .ready] = true := State.partIs_iff.2 ⟨hn, by simpa using hs⟩
  rw [State.doDestroy, if_neg (by simp [his])]
  rfl

theorem State.part_destroyed (s : State) (n : Nat) : (s.destroyed n).part n = { s.part n with
    slot0 := {}, slot1 := {}, state := .absent, mask := 0, active := none, loading := [], pendSwap := false, waiting := [], clears := [] } := by
  rw [State.destroyed, State.part_dset, State.part_modPart_self, State.part_emptySlot_self, State.part_emptySlot_self]
  rfl
theorem State.destroyed_part_ne {m : Nat} (h : m ≠ n) : (s.destroyed n).part m = s.part m := by
  rw [State.destroyed, State.part_dset, State.part_modPart_ne _ h, State.part_emptySlot_ne h, State.part_emptySlot_ne h]
theorem State.partOf_mask {c : Nat} (h : s.partOf c = some n) : (s.part n).mask.testBit c = true :=
  List.find?_some (p := fun n => (s.part n).mask.testBit c) h
theorem State.destroyed_frameOwner (hn : n < 8) (f : Nat) : (s.destroyed n).frameOwner f ≠ n := by
  have hkey : kFrameAll ≠ kClusterMask n := by simp only [kFrameAll, kClusterMask]; omega
  rw [State.destroyed, State.frameOwner_dset hkey, State.frameOwner_modPart, ne_eq, State.frameOwner_emptySlot hn (by decide), State.part_emptySlot_self]
  rintro ⟨_, tl, htl, _⟩
  cases htl

/-- Settles O55: what a slot's and a partition's memory is after each command. -/
theorem unloadAndDestroyFreeMemory : Obligations.UnloadAndDestroyFreeMemory := by
  unfold Obligations.UnloadAndDestroyFreeMemory
  refine ⟨fun s r n t => ?_, fun s r n t => ?_, fun s r n t => ?_⟩
  · intro a i h hn hs ha hi
    refine ⟨_, exec_unload h, ?_⟩
    rw [State.doUnload_taken hn hs ha]
    obtain ⟨act, st, hpart⟩ := a.part_unloaded n i
    simp only [State.part_answer, State.frameOwner_answer, State.unloaded_frameOwner]
    rw [hpart]
    exact ⟨slotAt_modSlot_self _ i _, slotAt_modSlot_other hi _ _, State.frameOwner_emptySlot hn hi _,
      fun f hf => State.frameOwner_emptySlot_of_ne hf _, fun m hm => State.unloaded_part_ne hm⟩
  · intro a h ha hs
    rw [exec_unload h, State.doUnload_refused ha hs]
  · intro a h hn hs
    refine ⟨_, exec_destroy h, ?_⟩
    have hpart := a.part_destroyed n
    have hkey : kClusterMask n ≠ kDictRequests := by simp only [kClusterMask, kDictRequests]; omega
    rw [State.doDestroy_taken hn hs]
    simp only [State.part_answer, State.frameOwner_answer, State.dget_answer hkey, hpart, true_and]
    refine ⟨fun c hc => ?_, State.dget_dset_self _ _ _, State.destroyed_frameOwner hn, fun m hm => State.destroyed_part_ne hm⟩
    have hbit := State.partOf_mask hc
    rw [State.part_answer, hpart] at hbit
    exact Bool.false_ne_true ((Nat.zero_testBit c).symm.trans hbit)

end Sys2Proof.Machine
end

section
/-!
PROOFS of the statements on stations and tiles (spec 06): what the work on one partition leaves alone, `Beside` and `Within`.
-/

namespace Sys2Proof.Machine

variable {s u v : State} {n : Nat}

/-- From `s` to `u` no other partition than `n` has changed, and no queue, no sync object, no keep set, no secret and no clock. -/
structure Beside (n : Nat) (s u : State) : Prop where
  others : ∀ m, m ≠ n → u.part m = s.part m
  queues : u.queues = s.queues
  syncs : u.syncs = s.syncs
  keep : u.keep = s.keep
  sec : u.sec = s.sec
  clk : u.clk = s.clk

/-- What a partition keeps while its memory, its converters and its windows start again. -/
def Part.face (p : Part) : PartState × Seq × Option Nat × Bool × SlotState × SlotState :=
  (p.state, p.seq, p.active, p.pendSwap, p.slot0.state, p.slot1.state)

/-- From `s` to `u` partition `n` has changed in nothing that `Part.face` shows, and nothing beside it has. -/
structure Within (n : Nat) (s u : State) : Prop extends Beside n s u where
  face : (u.part n).face = (s.part n).face

theorem Beside.trans (h : Beside n s u) (k : Beside n u v) : Beside n s v :=
  ⟨fun m hm => (k.others m hm).trans (h.others m hm), k.queues.trans h.queues, k.syncs.trans h.syncs, k.keep.trans h.keep,
    k.sec.trans h.sec, k.clk.trans h.clk⟩
theorem Beside.modPart (n : Nat) (s : State) (f : Part → Part) : Beside n s (s.modPart n f) :=
  ⟨fun _ hm => s.part_modPart_ne hm f, rfl, rfl, rfl, rfl, rfl⟩

theorem Within.refl (n : Nat) (s : State) : Within n s s := ⟨⟨fun _ _ => rfl, rfl, rfl, rfl, rfl, rfl⟩, rfl⟩
theorem Within.trans (h : Within n s u) (k : Within n u v) : Within n s v := ⟨h.toBeside.trans k.toBeside, k.face.trans h.face⟩
theorem Within.state (h : Within n s u) : (u.part n).state = (s.part n).state := congrArg (·.1) h.face
theorem Within.seq (h : Within n s u) : (u.part n).seq = (s.part n).seq := congrArg (·.2.1) h.face
theorem Within.active (h : Within n s u) : (u.part n).active = (s.part n).active := congrArg (·.2.2.1) h.face
theorem Within.pendSwap (h : Within n s u) : (u.part n).pendSwap = (s.part n).pendSwap := congrArg (·.2.2.2.1) h.face
theorem Within.slotState (h : Within n s u) (j : Nat) : (slotAt (u.part n) j).state = (slotAt (s.part n) j).state := by
  unfold slotAt
  split
  · exact congrArg (·.2.2.2.2.1) h.face
  · exact congrArg (·.2.2.2.2.2) h.face

theorem Within.ite {p : Prop} [Decidable p] {a b : State} (ha : Within n s a) (hb : Within n s b) : Within n s (if p then a else b) := by
  split <;> assumption
theorem Within.foldl {α : Type} {f : State → α → State} (hf : ∀ u x, Within n s u → Within n s (f u x)) (l : List α) (h : Within n s u) :
    Within n s (l.foldl f u) := by
  induction l generalizing u with
  | nil => exact h
  | cons x r ih => exact ih (hf u x h)
theorem Within.each {f : State → Nat → State} (hf : ∀ u x, Within n s u → Within n s (f u x)) (l : List Nat) (h : Within n s u) :
    Within n s (u.each l f) := h.foldl hf l
theorem Within.foldl_fst {α β : Type} {f : State × β → α → State × β} (hf : ∀ p x, Within n s p.1 → Within n s (f p x).1) (l : List α)
    {p : State × β} (h : Within n s p.1) : Within n s (l.foldl f p).1 := by
  induction l generalizing p with
  | nil => exact h
  | cons x r ih => exact ih (hf p x h)

/-! ### Changes beside the partitions -/

/-- A change of the other fields of the state. -/
theorem Within.aside (h : Within n s u) (hv : v = { u with
    dict := v.dict, heldVals := v.heldVals, cm := v.cm, cores := v.cores, clusters := v.clusters, streams := v.streams, groups := v.groups
    mem := v.mem, fab := v.fab, floor := v.floor, pow := v.pow, rel := v.rel, outbox := v.outbox }) : Within n s v := by
  rw [hv]
  exact h.trans ⟨⟨fun _ _ => rfl, rfl, rfl, rfl, rfl, rfl⟩, rfl⟩
theorem Within.modCore (h : Within n s u) (c : Nat) (f : Core → Core) : Within n s (u.modCore c f) := h.aside rfl
theorem Within.modCluster (h : Within n s u) (c : Nat) (f : Cluster → Cluster) : Within n s (u.modCluster c f) := h.aside rfl
theorem Within.modStream (h : Within n s u) (k : Nat) (f : Stream → Stream) : Within n s (u.modStream k f) := h.aside rfl
theorem Within.modGroup (h : Within n s u) (g : Nat) (f : Group → Group) : Within n s (u.modGroup g f) := h.aside rfl
theorem Within.modCm (h : Within n s u) (f : CoreMem → CoreMem) : Within n s (u.modCm f) := h.aside rfl
theorem Within.modMem (h : Within n s u) (f : Mem → Mem) : Within n s (u.modMem f) := h.aside rfl
theorem Within.modPow (h : Within n s u) (f : Power → Power) : Within n s (u.modPow f) := h.aside rfl
theorem Within.modFab (h : Within n s u) (f : Fabric → Fabric) : Within n s (u.modFab f) := h.aside rfl
theorem Within.modFloor (h : Within n s u) (f : Floor → Floor) : Within n s (u.modFloor f) := h.aside rfl
theorem Within.modRel (h : Within n s u) (f : Rel → Rel) : Within n s (u.modRel f) := h.aside rfl
theorem Within.dset (h : Within n s u) (k x : Nat) : Within n s (u.dset k x) := h.aside rfl
theorem Within.dadd (h : Within n s u) (k x : Nat) : Within n s (u.dadd k x) := h.aside rfl
theorem Within.dadd64 (h : Within n s u) (k x : Nat) : Within n s (u.dadd64 k x) := h.aside rfl
theorem Within.release (h : Within n s u) (p : Nat → Bool) : Within n s (u.release p) := h.aside rfl
theorem Within.bump (h : Within n s u) (c off a : Nat) : Within n s (u.bump c off a) := by
  refine h.trans ?_
  rw [u.counted_bump c off a]
  exact (Within.refl n u).aside rfl
theorem Within.absorbCount (h : Within n s u) (c off a : Nat) : Within n s (u.absorbCount c off a) := by
  unfold State.absorbCount
  extract_lets b
  have hb : Within n s b := (h.bump c off a).modCore c _
  split
  · exact hb.dadd64 _ _
  · exact hb
theorem Within.answer (h : Within n s u) (r : Requester) (k code : Nat) : Within n s (u.answer r k code) := by
  refine h.trans ?_
  rw [State.answer_only]
  exact (Within.refl n u).aside rfl
theorem Within.joinHalf (h : Within n s u) (m x : Nat) : Within n s (u.joinHalf m x) := .ite (h.modPow _) (h.modPow _)

/-! ### Tiles and slots -/

theorem Within.modPart (h : Within n s u) {f : Part → Part} (hf : ∀ p, (f p).face = p.face := by intro _; rfl) :
    Within n s (u.modPart n f) :=
  h.trans ⟨.modPart n u f, by rw [State.part_modPart_self, hf]⟩
theorem modSlot_face {f : Slot → Slot} (hf : ∀ q, (f q).state = q.state) (p : Part) (i : Nat) : (modSlot p i f).face = p.face := by
  unfold modSlot
  split <;> simp only [Part.face, hf]
theorem Within.setSlot (h : Within n s u) (i : Nat) {f : Slot → Slot} (hf : ∀ q, (f q).state = q.state := by intro _; rfl) :
    Within n s (u.setSlot n i f) := h.modPart fun p => modSlot_face hf p i
theorem Within.tileWriteHdr (h : Within n s u) (t : Tile) (o : Nat) (b : Bytes) : Within n s (u.tileWriteHdr t o b) :=
  .foldl (fun _ _ k => .ite (k.modMem _) k) _ h
theorem Within.tileWrite (h : Within n s u) (t : Tile) (o : Nat) (b : Bytes) : Within n s (u.tileWrite t o b) := h.tileWriteHdr t _ b

/-! ### Core memory -/

theorem Within.loadRecords (h : Within n s u) (t : Tile) (c : Nat) : Within n s (u.loadRecords t c) :=
  .each (fun _ _ k => k.modCm _) _ (.each (fun _ _ k => k.modCm _) _ h)
theorem Within.loadWords (h : Within n s u) (t : Tile) (c : Nat) : Within n s (u.loadWords t c) := .each (fun _ _ k => k.modCm _) _ h
theorem Within.enterResident (h : Within n s u) (sl : Slot) (c : Nat) : Within n s (u.enterResident sl c).1 := by
  refine .foldl_fst (fun p r hp => ?_) _ h
  dsimp only
  split
  · exact hp
  · split
    · exact hp.modCore _ _
    · exact hp
theorem Within.loadCore (h : Within n s u) (sl : Slot) (c : Nat) : Within n s (u.loadCore sl c) := by
  unfold State.loadCore
  split
  · exact h
  · exact .enterResident (((h.loadRecords _ c).loadWords _ c).modCore _ _) sl c
theorem Within.loadSpare (h : Within n s u) (c : Nat) : Within n s (u.loadSpare c) := by
  unfold State.loadSpare
  extract_lets sl ca a b base d
  have ha : Within n s a := h.modCore c _
  have hb : Within n s b := by
    dsimp only [b]
    split
    · exact ha
    · exact .ite (ha.loadRecords _ c) ((ha.loadRecords _ c).loadWords _ c)
  exact .enterResident (.ite (hb.modCm _) hb) sl c

/-! ### Restarts (R109, R212, R217, R221) -/

theorem Within.restartGuard (h : Within n s u) : Within n s (u.restartGuard n) :=
  .dset (.modPart (.each (fun _ _ k => k.modCm _) _ h)) _ _
theorem Within.restartConverters (h : Within n s u) (fresh : Nat → Bool) : Within n s (u.restartConverters n fresh) :=
  .foldl (fun _ _ k => .ite (k.modStream _ _) (.ite (k.modGroup _ _) k)) _ h

end Sys2Proof.Machine
end

section
/-!
PROOFS of the statements on stations and tiles (spec 06): ENABLE starts a partition, a swap changes its ACTIVE slot.
-/

namespace Sys2Proof.Machine

variable {s u v : State} {n i : Nat}

/-! ### ENABLE (R28, R165) -/

theorem Within.restoreProj (h : Within n s u) (i : Nat) (p : Nat × Nat × Nat × List Nat) : Within n s (u.restoreProj n i p) := by
  unfold State.restoreProj
  extract_lets sl
  split
  · exact h
  · refine .setSlot (.tileWriteHdr (.foldl (fun v r k => ?_) _ h) _ _ _) i
    split
    · exact k
    · exact .each (fun _ _ k => (k.tileWrite _ _ _).tileWrite _ _ _) _ k
theorem Within.keepRestore (h : Within n s u) (i : Nat) : Within n s (u.keepRestore n i) := by
  unfold State.keepRestore
  extract_lets sl
  refine .ite h (.ite (h.dset _ _) ?_)
  split
  · exact h.dset _ _
  · exact .ite (.dset (.foldl (fun _ p k => k.restoreProj i p) _ h) _ _) (h.dset _ _)
theorem Within.refill (h : Within n s u) : Within n s (u.refill n) := by
  unfold State.refill
  exact .modPow (.each (fun _ c k => k.loadSpare c) _ h) _

theorem State.joinHalf_dict (s : State) (m x : Nat) : (s.joinHalf m x).dict = s.dict := by
  unfold State.joinHalf State.modHalf
  split <;> rfl

/-- The last work of ENABLE: held outputs, the supply of the halves of `p`, and the converters of its ACTIVE slot. -/
def State.joinRun (s : State) (n : Nat) (p : Part) : State :=
  let s := if s.holding n then s.each (s.partGroups n) (fun s g => s.modGroup g (fun q => { q with held := q.held.or q.last })) else s
  let s := s.each (partHalves p) (fun s h => s.joinHalf n h)
  s.each ((activeSlot p).tiles.filter (fun t => t.kind == 4) |>.map (·.owner)) (fun s k =>
    if k < 32 then s.modStream k (fun q => { q with staleRun := 0, lostDue := false })
    else s.modGroup (k - 32) (fun q => { q with since := 0, upTo := none }))
theorem Within.joinRun (h : Within n s u) (p : Part) : Within n s (u.joinRun n p) := by
  unfold State.joinRun
  extract_lets a b
  have ha : Within n s a := .ite (.each (fun _ g k => k.modGroup g _) _ h) h
  have hb : Within n s b := .each (fun _ x k => k.joinHalf n x) _ ha
  exact .each (fun _ _ k => .ite (k.modStream _ _) (k.modGroup _ _)) _ hb
theorem State.joinRun_dict (s : State) (n : Nat) (p : Part) : (s.joinRun n p).dict = s.dict := by
  unfold State.joinRun
  extract_lets a b
  have ha : a.dict = s.dict := by
    dsimp only [a]
    split
    · refine each_keeps (π := State.dict) ?_ _ s
      exact fun _ _ => rfl
    · rfl
  have hb : b.dict = a.dict := each_keeps (π := State.dict) (fun s x => s.joinHalf_dict n x) _ a
  refine (each_keeps (π := State.dict) (fun s k => ?_) _ b).trans (hb.trans ha)
  split <;> rfl

/-- Partition `n`, started by ENABLE: its schedule stands at its beginning (R165). -/
structure Started (n : Nat) (s u : State) : Prop extends Beside n s u where
  state : (u.part n).state = .enabled
  isOpen : (u.part n).seq.isOpen = false
  ticks : (u.part n).seq.ticks = 0
  enabledAt : (u.part n).seq.enabledAt = s.now
  everOpen : (u.part n).seq.everOpen = false
  pendTick : (u.part n).seq.pendTick = none
  cadence : u.dget (kCadenceState n) = 1

theorem State.startPart_started (s : State) (n : Nat) : Started n s (s.startPart n) := by
  unfold State.startPart
  extract_lets p i a b d woe st0 st e w g h x y
  change Started n s (y.joinRun n p)
  have hd : Within n s d := .setSlot ((((Within.refl n s).keepRestore i).refill).release _) i
  have hh : Within n s h := .each (fun _ c k => k.modCore c _) _ (((hd.dset _ _).dset _ _).dset _ _)
  have hu : Within n x (y.joinRun n p) := .joinRun (.dset (((Within.refl n x).restartGuard).restartConverters _) _ _) p
  have hdict : (y.joinRun n p).dget (kCadenceState n) = y.dget (kCadenceState n) := by rw [State.dget, State.joinRun_dict, State.dget]
  refine ⟨(hh.toBeside.trans (.modPart n h _)).trans hu.toBeside, ?_, ?_, ?_, ?_, ?_, ?_, hdict.trans (State.dget_dset_self _ _ _)⟩
  · rw [hu.state, State.part_modPart_self]
  · rw [hu.seq, State.part_modPart_self]
  · rw [hu.seq, State.part_modPart_self]
  · rw [hu.seq, State.part_modPart_self]
    exact congrArg Clock.now hh.clk
  · rw [hu.seq, State.part_modPart_self]
  · rw [hu.seq, State.part_modPart_self]

/-! ### Swaps (R166, R168) -/

theorem Within.discardPending (h : Within n s u) (c : Nat) : Within n s (u.discardPending c) :=
  .modCluster (.modCore (h.absorbCount c _ _) c _) _ _
theorem Within.spareTakes (h : Within n s u) (c sp : Nat) : Within n s (u.spareTakes c sp) :=
  .dadd (.modFab (.modMem (h.modFloor _) _) _) _ _
theorem Within.swapTakes (h : Within n s u) (c : Nat) : Within n s (u.swapTakes c) := by
  unfold State.swapTakes
  split
  · exact h
  · split
    · exact h.modCore c _
    · exact .modCore (.dadd (h.spareTakes c _) _ _) c _

/-- Partition `p` with its ACTIVE slot `i` made LOADED, and its other slot, which `f` changes, in its place. -/
def Part.swapped (p : Part) (i : Nat) (f : Slot → Slot) : Part :=
  { modSlot (modSlot p i (fun q => { q with state := .loaded })) (otherSlot i) f with
    active := some (otherSlot i), pendSwap := false }

/-- A swap outside a run, to a LOADED slot: the two slots change, and all that follows stays within the partition. -/
theorem State.swapNow_within (copy : Bool) (ha : (s.part n).active = some i) (hl : (slotAt (s.part n) (otherSlot i)).state = .loaded)
    (hr : (s.part n).state ≠ .enabled) : ∃ f : Slot → Slot, (∀ q, (f q).state = .active) ∧
      Within n (s.modPart n (fun p => p.swapped i f)) (s.swapNow n copy) := by
  unfold State.swapNow
  split
  · next h => cases h.symm.trans ha
  · next j h =>
    obtain rfl : j = i := Option.some.inj (h.symm.trans ha)
    extract_lets k sl delta old replaced shared a b c d e g x
    have hb : Within n a b := (Within.refl n a).restartGuard
    have hc : Within n a c := .each (fun _ c k => .ite (k.modCore c _) k) _ hb
    have hd : Within n a d := .each (fun _ c k => (k.discardPending c).modCore c _) _ hb
    have he : Within n a e := .modRel (.each (fun _ c k => k.swapTakes c) _ hd) _
    have hg : Within n a g := .each (fun _ c k => k.loadCore sl c) _ he
    rw [if_neg (by simp [sl, k, hl, hr])]
    exact ⟨fun q => { q with
      state := .active
      trimmed := s.trims n sl
      projs := shared.foldl (fun m p => mset dProj m p (mget dProj old.projs p)) q.projs }, fun _ => rfl,
      .ite (hc.restartConverters _) (.modPart (hg.restartConverters _))⟩

end Sys2Proof.Machine
end

section
/-!
PROOFS of the statements on stations and tiles (spec 06): LOAD, and the other commands of a partition (O10).
-/

namespace Sys2Proof.Machine

variable {s u v : State} {n i t : Nat} {r : Requester}

/-! ### LOAD (R164, R487) -/

theorem exec_load (h : (s.at t).Accepts r (kPartitionCommand n) 2) (ha : (s.at t).pow.state = .active) (he : (s.at t).pow.entry = none) :
    exec (.load r n t) s = .next (((s.at t).doLoad r n).2.answer r (kPartitionCommand n) ((s.at t).doLoad r n).1) :=
  congrArg Host.Outcome.next (State.wakeTyped_of_active _ h ha he)

/-- Slot `i` of partition `n` made ready for a LOAD: it holds nothing, and LOAD_ERROR and LOAD_PROGRESS are 0. -/
def State.readied (s : State) (n i : Nat) : State := ((s.emptySlot n i .loading).dset (kLoadError n) 0).dset (kLoadProgress n) 0
/-- The checks of a LOAD of slot `i` on the slot made ready. -/
def State.readyCheck (s : State) (r : Requester) (n i : Nat) : Fail :=
  (s.readied n i).loadCheck r n i (s.dget (kImageAddr n)) ((s.readied n i).dget (kImageLength n))

/-- From `s` to `u` partition `n` has taken and given back frames: no other partition has changed, and no byte of memory. -/
structure Framed (n : Nat) (s u : State) : Prop where
  only : u = { s with parts := u.parts, dict := u.dict, mem := u.mem, outbox := u.outbox }
  mem : u.mem = { s.mem with owners := u.mem.owners }
  others : ∀ m, m ≠ n → u.part m = s.part m

theorem Framed.refl (n : Nat) (s : State) : Framed n s s := ⟨rfl, rfl, fun _ _ => rfl⟩
theorem Framed.trans (h : Framed n s u) (k : Framed n u v) : Framed n s v where
  only := by
    have := k.only
    rw [h.only] at this
    exact this
  mem := by
    have := k.mem
    rw [h.mem] at this
    exact this
  others m hm := (k.others m hm).trans (h.others m hm)
theorem Framed.modPart (h : Framed n s u) (f : Part → Part) : Framed n s (u.modPart n f) :=
  h.trans ⟨rfl, rfl, fun _ hm => u.part_modPart_ne hm f⟩
theorem Framed.dset (h : Framed n s u) (k x : Nat) : Framed n s (u.dset k x) := h.trans ⟨rfl, rfl, fun _ _ => rfl⟩
theorem Framed.setOwner (h : Framed n s u) (f o : Nat) : Framed n s (u.setOwner f o) := h.trans ⟨rfl, rfl, fun _ _ => rfl⟩
theorem Framed.emptySlot (h : Framed n s u) (i : Nat) (st : SlotState) : Framed n s (u.emptySlot n i st) :=
  (h.modPart _).trans ⟨rfl, rfl, fun _ _ => rfl⟩
theorem Framed.answer (h : Framed n s u) (r : Requester) (k code : Nat) : Framed n s (u.answer r k code) := by
  refine h.trans ?_
  rw [State.answer_only]
  exact ⟨rfl, rfl, fun _ _ => rfl⟩
theorem Framed.each {f : State → Nat → State} (hf : ∀ u x, Framed n s u → Framed n s (f u x)) (l : List Nat) (h : Framed n s u) :
    Framed n s (u.each l f) := by
  induction l generalizing u with
  | nil => exact h
  | cons x r ih => exact ih (hf u x h)
theorem Framed.readied (h : Framed n s u) (i : Nat) : Framed n s (u.readied n i) := ((h.emptySlot i _).dset _ _).dset _ _
theorem Framed.failLoad (h : Framed n s u) (i code idx : Nat) : Framed n s (u.failLoad n i code idx) := ((h.emptySlot i _).modPart _).dset _ _
theorem Framed.startLoad (h : Framed n s u) (i a : Nat) : Framed n s (u.startLoad n i a) := by
  unfold State.startLoad
  exact .modPart (.each (fun _ f k => k.setOwner f n) _ h) _

@[simp] theorem State.part_readied_self (s : State) (n i : Nat) :
    (s.readied n i).part n = modSlot (s.part n) i (fun _ => { state := .loading }) := State.part_emptySlot_self s n i _
/-- A LOAD that starts: its slot is LOADING, and its first tile is to land. -/
theorem State.part_startLoad (s : State) (n i a : Nat) : ∃ sl : Slot, sl.state = .loading ∧
    (s.startLoad n i a).part n = { modSlot (s.part n) i (fun _ => sl) with loading := (s.part n).loading ++ [⟨i, a, 0⟩] } := by
  unfold State.startLoad
  extract_lets hdr tab tiles masks b
  have hb : b.part n = s.part n := by
    refine each_keeps (π := fun s => s.part n) ?_ _ s
    exact fun _ _ => rfl
  refine ⟨{ state := .loading, hdr := hdr, masks := masks, tiles := tiles }, rfl, ?_⟩
  rw [State.part_modPart_self, hb]
theorem State.dget_startLoad (s : State) (n i a k : Nat) : (s.startLoad n i a).dget k = s.dget k := by
  unfold State.startLoad
  extract_lets hdr tab tiles masks b
  rw [State.dget_modPart]
  refine each_keeps (π := fun s => s.dget k) ?_ _ s
  exact fun _ _ => rfl

/-- The state in which its checks leave a LOAD of slot `i`, made ready in `s` (R164): the slot FAILED, or the load from address `a` started. -/
def State.loadEnd (s : State) (n i a : Nat) : Fail → State
  | some f => s.failLoad n i f.1 f.2
  | none => s.startLoad n i a
theorem State.loadEnd_none (s : State) (n i a : Nat) : s.loadEnd n i a none = s.startLoad n i a := rfl
theorem Framed.loadEnd (h : Framed n s u) (i a : Nat) (f : Fail) : Framed n s (u.loadEnd n i a f) := by
  cases f with
  | none => exact h.startLoad i a
  | some f => exact h.failLoad i _ _
/-- Slot `i` of partition `n` after a LOAD. -/
def State.loaded (s : State) (r : Requester) (n i : Nat) : State := (s.readied n i).loadEnd n i (s.dget (kImageAddr n)) (s.readyCheck r n i)
theorem State.loaded_framed (s : State) (r : Requester) (n i : Nat) : Framed n s (s.loaded r n i) := ((Framed.refl n s).readied i).loadEnd i _ _
theorem State.loaded_of_check {f : Nat × Nat} (h : s.readyCheck r n i = some f) : s.loaded r n i = (s.readied n i).failLoad n i f.1 f.2 :=
  congrArg ((s.readied n i).loadEnd n i (s.dget (kImageAddr n))) h
theorem State.loaded_of_pass (h : s.readyCheck r n i = none) : (slotAt ((s.loaded r n i).part n) i).state = .loading ∧
    ((s.loaded r n i).part n).loading = (s.part n).loading ++ [⟨i, s.dget (kImageAddr n), 0⟩] ∧
      (s.loaded r n i).dget (kLoadError n) = 0 ∧ (s.loaded r n i).dget (kLoadProgress n) = 0 := by
  have hne : kLoadError n ≠ kLoadProgress n := by simp only [kLoadError, kLoadProgress]; omega
  obtain ⟨sl, hsl, hpart⟩ := (s.readied n i).part_startLoad n i (s.dget (kImageAddr n))
  rw [State.loaded, h, State.loadEnd_none]
  refine ⟨?_, ?_, ?_, ?_⟩
  · rw [hpart]
    exact (congrArg Slot.state (slotAt_modSlot_self _ i _)).trans hsl
  · rw [hpart, State.part_readied_self]
    exact congrArg (· ++ [_]) (modSlot_loading _ _ _)
  · rw [State.dget_startLoad, State.readied, State.dget_dset_ne _ hne, State.dget_dset_self]
  · rw [State.dget_startLoad, State.readied, State.dget_dset_self]

theorem State.doLoad_taken (hn : n < 8) (hs : (s.part n).state = .created ∨ (s.part n).state = .ready ∨ (s.part n).state = .enabled)
    (hl : let st := (slotAt (s.part n) (s.sel r (kImageSlot n))).state
      st = .empty ∨ st = .loaded ∨ st = .failed) :
    s.doLoad r n = (stOk, s.loaded r n (s.sel r (kImageSlot n))) := by
  have his : s.partIs n [.created, .ready, .enabled] = true := State.partIs_iff.2 ⟨hn, by simpa using hs⟩
  have hgo : ¬ ((!s.partIs n [.created, .ready, .enabled]) = true ∨ ¬ ((slotAt (s.part n) (s.sel r (kImageSlot n))).state = .empty ∨
      (slotAt (s.part n) (s.sel r (kImageSlot n))).state = .loaded ∨ (slotAt (s.part n) (s.sel r (kImageSlot n))).state = .failed)) := by
    rw [his]
    exact fun h => h.elim Bool.false_ne_true fun h => h hl
  rw [State.doLoad, if_neg hgo]
  generalize s.sel r (kImageSlot n) = i
  change (match s.readyCheck r n i with
    | some f => (stOk, (s.readied n i).failLoad n i f.1 f.2)
    | none => (stOk, (s.readied n i).startLoad n i (s.dget (kImageAddr n)))) = _
  unfold State.loaded
  cases s.readyCheck r n i <;> rfl

/-! ### ENABLE (R28, R165) -/

theorem State.doEnable_started (hn : n < 8) (hr : (s.part n).state = .ready) (hs : s.dget (kCadenceSource n) ≠ 0)
    (hc : s.dget (kCadenceSource n) ≠ 3 ∨ s.dget (kQuadCounts n) ≠ 0) : s.doEnable n = (stOk, s.startPart n) := by
  have his : s.partIs n [.ready] = true := State.partIs_iff.2 ⟨hn, by simp [hr]⟩
  rw [State.doEnable, if_neg]
  rintro (h | h | ⟨h3, h0⟩)
  · simp [his] at h
  · exact hs h
  · exact hc.elim (absurd h3) (absurd h0)
theorem Started.answer (h : Started n s u) (r : Requester) (k code : Nat) : Started n s (u.answer r k code) := by
  have hkey : kCadenceState n ≠ kDictRequests := by simp only [kCadenceState, kDictRequests]; omega
  have hpart := u.part_answer r k code n
  exact ⟨h.toBeside.trans ((Within.refl n u).answer r k code).toBeside, by rw [hpart, h.state], by rw [hpart, h.isOpen],
    by rw [hpart, h.ticks], by rw [hpart, h.enabledAt], by rw [hpart, h.everOpen], by rw [hpart, h.pendTick],
    (State.dget_answer hkey u r k code).trans h.cadence⟩

/-! ### DISABLE and DISABLE_NOW (R170, R171) -/

theorem State.doDisable_waits (hn : n < 8) (hs : (s.part n).state = .enabled) (ho : (s.part n).seq.isOpen = true) : s.doDisable n =
    (stOk, s.modPart n (fun p => { p with state := .disabling, disable := some (p.disable.getD .belay) })) := by
  have his : s.partIs n [.enabled] = true := State.partIs_iff.2 ⟨hn, by simp [hs]⟩
  rw [State.doDisable, if_pos his, State.disableBelay, if_pos ho]
theorem State.doDisableNow_absorbs (hn : n < 8) (hs : (s.part n).state = .enabled ∨ (s.part n).state = .disabling)
    (ho : (s.part n).seq.isOpen = true) : s.doDisableNow n = (stOk, (s.modPart n (fun p => { p with
      state := .disabling, disable := some .now, seq := { p.seq with absorbAt := some (p.seq.absorbAt.getD s.now) } })).ledgerFlag n 2) := by
  have his : s.partIs n [.enabled, .disabling] = true := State.partIs_iff.2 ⟨hn, by simpa using hs⟩
  rw [State.doDisableNow, if_pos his, State.disableAbsorb, if_pos ho]

/-! ### SWAP (R166) -/

/-- A SWAP that waits is cancelled by the next. -/
theorem State.doSwap_cancels (hn : n < 8) (hs : (s.part n).state = .ready ∨ (s.part n).state = .enabled) (ha : (s.part n).active = some i)
    (hp : (s.part n).pendSwap = true) : s.doSwap n = (stOk, s.modPart n (fun p => { p with pendSwap := false })) := by
  have his : s.partIs n [.ready, .enabled] = true := State.partIs_iff.2 ⟨hn, by simpa using hs⟩
  simp only [State.doSwap, ha, his, hp, Bool.not_true, Bool.false_eq_true, if_false, if_true]
/-- In ENABLED a SWAP to an image of the same clock mode waits for the belay. -/
theorem State.doSwap_waits (hn : n < 8) (hs : (s.part n).state = .enabled) (ha : (s.part n).active = some i) (hp : (s.part n).pendSwap = false)
    (hl : (slotAt (s.part n) (otherSlot i)).state = .loaded)
    (hw : hdrWoe (slotAt (s.part n) (otherSlot i)).hdr = hdrWoe (slotAt (s.part n) i).hdr) :
    s.doSwap n = (stOk, s.modPart n (fun p => { p with pendSwap := true })) := by
  have his : s.partIs n [.ready, .enabled] = true := State.partIs_iff.2 ⟨hn, by simp [hs]⟩
  simp [State.doSwap, ha, his, hp, hl, hw, hs]
/-- In READY a SWAP acts at once, unless an APPLY is in progress. -/
theorem State.doSwap_ready (hn : n < 8) (hs : (s.part n).state = .ready) (ha : (s.part n).active = some i) (hp : (s.part n).pendSwap = false)
    (hl : (slotAt (s.part n) (otherSlot i)).state = .loaded) : s.doSwap n =
    (stOk, if applying (activeSlot (s.part n)) then s.modPart n (fun p => { p with pendSwap := true }) else s.swapNow n false) := by
  have his : s.partIs n [.ready, .enabled] = true := State.partIs_iff.2 ⟨hn, by simp [hs]⟩
  by_cases happly : applying (activeSlot (s.part n)) = true <;> simp [State.doSwap, ha, his, hp, hl, hs, happly]

/-- Settles O10, command by command. -/
theorem partitionCommandsTakeEffect : Obligations.PartitionCommandsTakeEffect := by
  unfold Obligations.PartitionCommandsTakeEffect
  refine ⟨fun s r m t => ?_, fun s r n t => ?_, fun s r n t => ?_, fun s r n t => ?_, fun s r n t => ?_, fun s r n t i => ?_,
    fun s r n t i => ?_, fun s r n t i => ?_, fun s r n t => ?_, fun s r n t => ?_⟩
  · intro a n h hn hs hm hc
    rw [exec_create h, State.doCreate_taken hn hs hm hc]
  · intro a i addr b h ha he hn hs hl
    have hframe := (a.loaded_framed r n i).answer r (kPartitionCommand n) stOk
    refine ⟨_, (exec_load h ha he).trans (by rw [State.doLoad_taken hn hs hl]), fun hnone => ?_, fun f hf => ?_, hframe.others,
      by rw [hframe.mem], by rw [hframe.mem], hframe.only⟩
    · have herr : kLoadError n ≠ kDictRequests := by simp only [kLoadError, kDictRequests]; omega
      have hprog : kLoadProgress n ≠ kDictRequests := by simp only [kLoadProgress, kDictRequests]; omega
      rw [State.part_answer, State.dget_answer herr, State.dget_answer hprog]
      exact State.loaded_of_pass hnone
    · exact congrArg (State.answer · r (kPartitionCommand n) stOk) (State.loaded_of_check hf)
  · intro a h ha he hn hr hs hc
    have hstart := (a.startPart_started n).answer r (kPartitionCommand n) stOk
    refine ⟨_, (exec_enable h ha he).trans (by rw [State.doEnable_started hn hr hs hc]), ?_⟩
    exact ⟨hstart.state, hstart.isOpen, hstart.ticks, hstart.enabledAt, hstart.everOpen, hstart.pendTick, hstart.cadence, hstart.others,
      hstart.queues, hstart.syncs, hstart.sec, hstart.clk⟩
  · intro a h hn hs ho
    refine congrArg Host.Outcome.next ((State.typed_of_accepts _ h).trans ?_)
    rw [State.doDisable_waits hn hs ho]
  · intro a h hn hs ho
    refine congrArg Host.Outcome.next ((State.typed_of_accepts _ h).trans ?_)
    rw [State.doDisableNow_absorbs hn hs ho]
  · intro a p h hn hs ha hp hl hw
    refine congrArg Host.Outcome.next ((State.typed_of_accepts _ h).trans ?_)
    rw [State.doSwap_waits hn hs ha hp hl hw]
  · intro a p h hn hs ha hp hl
    refine congrArg Host.Outcome.next ((State.typed_of_accepts _ h).trans ?_)
    rw [State.doSwap_ready hn hs ha hp hl]
  · intro a p h hn hs ha hp
    refine congrArg Host.Outcome.next ((State.typed_of_accepts _ h).trans ?_)
    rw [State.doSwap_cancels hn hs ha hp]
  · intro a i h hn hs ha
    rw [exec_unload h, State.doUnload_taken hn hs fun hact => ha.elim (absurd hact.1) (absurd hact.2)]
    rfl
  · intro a h hn hs
    rw [exec_destroy h, State.doDestroy_taken hn hs]
    rfl

end Sys2Proof.Machine
end

section
/-!
PROOFS of the statements on stations and tiles (spec 06): a tile lands, a swap takes effect (O11).
-/

namespace Sys2Proof.Machine

variable {s : State} {n i t : Nat}

/-! ### TILE_LANDED (R487) -/

theorem exec_tileLanded {l : Loading} {w : List Loading} (e : Bool) (h : ((s.at t).part n).loading = l :: w) :
    exec (.tileLanded n e t) s = .next ((s.at t).landTile n l e) := by
  change Host.Outcome.next (match ((s.at t).part n).loading with
    | [] => s.at t
    | l :: _ => (s.at t).landTile n l e) = _
  rw [h]

/-- A tile whose bytes cannot be read or whose granules cannot be written: a data word at `src` is bad, or a granule stands in a
memory that is out. -/
def State.tileBad (s : State) (src : Nat) (tl : Tile) : Bool :=
  (List.range ((tl.len + 31) / 32)).any (fun j => s.wordBad (src + 32 * j)) || tl.granules.any s.addrOut
theorem State.tileBad_iff {src : Nat} {tl : Tile} : s.tileBad src tl = true ↔
    (∃ j, j < (tl.len + 31) / 32 ∧ s.wordBad (src + 32 * j) = true) ∨ ∃ g ∈ tl.granules, s.addrOut g = true := by
  simp only [State.tileBad, Bool.or_eq_true, List.any_eq_true, List.mem_range]

theorem State.landTile_fails {l : Loading} {tl : Tile} {e : Bool} (h : (slotAt (s.part n) l.slot).tiles[l.next]? = some tl)
    (hb : e = true ∨ s.tileBad (l.addr + tl.off) tl = true) : s.landTile n l e = s.failLoad n l.slot 0x0F l.next := by
  unfold State.landTile
  simp only [h]
  refine if_pos ?_
  rw [Bool.or_assoc, Bool.or_eq_true]
  exact hb

/-- The bytes of a tile copied into its granules, and the combining queue of its group made if it is the group's first (R206). -/
def State.tileCopied (s : State) (n i : Nat) (tl : Tile) (bytes : Bytes) : State :=
  let b := (List.range tl.granules.length).foldl (fun s j => s.lpWrite (tl.granules.getD j 0) ((bytes.drop (2048 * j)).take 2048)) s
  if tl.kind = 4 ∧ 32 ≤ tl.owner ∧ slotHolds (slotAt (b.part n) (otherSlot i)) tl.owner = false then b.createCombine (tl.owner - 32) else b
/-- What follows the copy of tile `k`, in state `c` (R487): the tile's checks, then the next tile, or after the last one the checks of the image. -/
def State.tileChecked (c : State) (n i k : Nat) (sl : Slot) (tl : Tile) (bytes : Bytes) : State :=
  let tl' := { tl with count := fieldAt bytes 0x14 4 }
  let d := (c.setSlot n i (fun q => { q with tiles := q.tiles.set k tl' })).dadd64 (kLoadProgress n) tl.len
  let full := withBase (slotAt (d.part n) i) (slotAt (d.part n) (otherSlot i))
  match d.tileCheck sl.hdr tl' bytes k with
  | some f => d.failLoad n i f.1 f.2
  | none =>
    if k + 1 < sl.tiles.length then
      d.modPart n (fun p => { p with loading := p.loading.map (fun q => if q.slot = i then { q with next := k + 1 } else q) })
    else match d.crossCheck n full (slotAt (d.part n) (otherSlot i)) (slotAt (d.part n) i).tiles.length with
      | some f => d.failLoad n i f.1 f.2
      | none => (d.setSlot n i (fun _ => full)).finishLoad n i

theorem State.landTile_lands {l : Loading} {tl : Tile} (h : (slotAt (s.part n) l.slot).tiles[l.next]? = some tl)
    (hb : s.tileBad (l.addr + tl.off) tl = false) : s.landTile n l false =
      (s.tileCopied n l.slot tl (s.lpRead (l.addr + tl.off) tl.len)).tileChecked n l.slot l.next (slotAt (s.part n) l.slot) tl
        (s.lpRead (l.addr + tl.off) tl.len) := by
  unfold State.landTile
  simp only [h]
  refine (if_neg ?_).trans ?_
  · rw [Bool.false_or]
    exact Bool.not_eq_true _ ▸ hb
  · refine congrArg (State.tileChecked · n l.slot l.next (slotAt (s.part n) l.slot) tl (s.lpRead (l.addr + tl.off) tl.len)) ?_
    exact if_congr (by rw [Bool.not_eq_true']) rfl rfl

/-! ### SWAP_TAKE_EFFECT (R166) -/

/-- What a swap leaves of a READY partition: its two slots have changed places. -/
theorem State.swapNow_ready (hi : i < 2) (hs : (s.part n).state = .ready) (ha : (s.part n).active = some i)
    (hl : (slotAt (s.part n) (otherSlot i)).state = .loaded) : let u := s.swapNow n false
    (u.part n).active = some (otherSlot i) ∧ (slotAt (u.part n) (otherSlot i)).state = .active ∧ (slotAt (u.part n) i).state = .loaded ∧
      (u.part n).pendSwap = false ∧ (u.part n).state = .ready ∧ (u.part n).seq = (s.part n).seq ∧ Beside n s u := by
  obtain ⟨f, hf, hu⟩ := s.swapNow_within false ha hl (by rw [hs]; decide)
  intro u
  refine ⟨?_, ?_, ?_, ?_, ?_, ?_, (Beside.modPart n s _).trans hu.toBeside⟩
  · rw [hu.active, State.part_modPart_self, Part.swapped]
  · rw [hu.slotState, State.part_modPart_self]
    exact (congrArg Slot.state (slotAt_modSlot_self _ _ f)).trans (hf _)
  · rw [hu.slotState, State.part_modPart_self]
    refine (congrArg Slot.state (slotAt_modSlot_of_other hi _ f)).trans ?_
    exact congrArg Slot.state (slotAt_modSlot_self _ i _)
  · rw [hu.pendSwap, State.part_modPart_self, Part.swapped]
  · rw [hu.state, State.part_modPart_self]
    exact (modSlot_state _ _ _).trans ((modSlot_state _ _ _).trans hs)
  · rw [hu.seq, State.part_modPart_self]
    exact (modSlot_seq _ _ _).trans (modSlot_seq _ _ _)

/-- Settles O11: a load goes on, a swap takes effect in READY, a swap copy ends. -/
theorem loadsAndSwapsGoOn : Obligations.LoadsAndSwapsGoOn := by
  unfold Obligations.LoadsAndSwapsGoOn
  refine ⟨fun s n t i addr k tl w => ?_, fun s n t i => ?_, fun s n t => rfl⟩
  · intro a sl bytes b c tl' d full hload htile hread hgran
    have hgood : a.tileBad (addr + tl.off) tl = false := by
      rw [← Bool.not_eq_true, State.tileBad_iff]
      rintro (⟨j, hj, hbad⟩ | ⟨g, hg, hout⟩)
      · exact Bool.false_ne_true ((hread j hj).symm.trans hbad)
      · exact Bool.false_ne_true ((hgran g hg).symm.trans hout)
    exact (exec_tileLanded false hload).trans (congrArg Host.Outcome.next (State.landTile_lands htile hgood))
  · intro a hp hs happly ha hi hl
    have hdue : a.swapDue n = true := by simp [State.swapDue, hp, hs, happly]
    obtain ⟨hact, hnew, hold, hpend, hstate, hseq, hbeside⟩ := State.swapNow_ready hi hs ha hl
    refine ⟨_, congrArg Host.Outcome.next (if_pos hdue), hact, hnew, hold, hpend, hstate, hseq, hbeside.others, hbeside.queues,
      hbeside.syncs, hbeside.keep, hbeside.sec⟩

end Sys2Proof.Machine
end

section
/-!
PROOFS of the statements on stations and tiles (spec 06): tile descriptors, APPLY and the keep set (O13).
-/

namespace Sys2Proof.Machine

variable {s : State} {n i t : Nat}

/-! ### The slices at an instant -/

/-- The slices, and where they stand. -/
def State.slicing (s : State) : SMap Slice × SMap Nat := (s.slices, s.floor.sliceMap)

theorem State.writeBoot_slicing (s : State) (m : Nat) : (s.writeBoot m).slicing = s.slicing := by
  unfold State.writeBoot
  extract_lets seq
  split <;> rfl
theorem State.copyB_slicing (s : State) : s.copyB.slicing = s.slicing := rfl
theorem State.dset_slicing (s : State) (k x : Nat) : (s.dset k x).slicing = s.slicing := rfl
theorem State.svnTick_slicing (s : State) : s.svnTick.slicing = s.slicing := by
  unfold State.svnTick
  split <;> rfl
theorem State.confirmTrial_slicing (s : State) : s.confirmTrial.slicing = s.slicing := by
  unfold State.confirmTrial
  extract_lets a b
  have hb : b.slicing = s.slicing := by
    dsimp only [b, a]
    rw [State.dset_slicing, State.dset_slicing, State.writeBoot_slicing, State.copyB_slicing, State.writeBoot_slicing]
  clear_value b
  split
  · exact (State.svnTick_slicing _).trans hb
  · exact hb
/-- The end of bring-up moves no slice. -/
theorem State.bootEnd_slicing (s : State) : s.bootEnd.slicing = s.slicing := by
  unfold State.bootEnd
  split
  · split
    · unfold State.bootReady
      extract_lets a b d e
      have hd : d.slicing = s.slicing := by
        dsimp only [d]
        split <;> rfl
      split
      · exact e.confirmTrial_slicing.trans hd
      · exact hd
    · rfl
  · rfl
theorem State.setFuncs_slicing (s : State) (v : FuncSettings) : (s.setFuncs v).slicing = s.slicing := by
  unfold State.setFuncs
  extract_lets a
  have ha : a.slicing = s.slicing := by
    refine (each_keeps (π := State.slicing) ?_ _ _).trans rfl
    exact fun _ _ => rfl
  refine (each_keeps (π := State.slicing) ?_ _ a).trans ha
  exact fun _ _ => rfl
theorem State.crsEnd_slicing (s : State) : s.crsEnd.slicing = s.slicing := by
  unfold State.crsEnd
  split
  · split
    · exact State.setFuncs_slicing _ _
    · rfl
  · rfl
theorem State.at_slicing (s : State) (t : Nat) : (s.at t).slicing = s.slicing := by
  rw [State.at, State.crsEnd_slicing, State.bootEnd_slicing]
  rfl
/-- Which slices are present does not wait for an instant. -/
theorem State.slicePresent_at (s : State) (t i : Nat) : (s.at t).slicePresent i = s.slicePresent i :=
  congrArg (fun x : SMap Slice × SMap Nat => decide (i < 64) && mget dSliceMap x.2 i != 255 && !(mget dSlice x.1 i).lost) (s.at_slicing t)

/-! ### Tile descriptors (R157 to R159) -/

theorem exec_descriptorSubmit (h : (s.at t).slicePresent i = true) :
    exec (.descriptorSubmit i t) s = .next ((s.at t).submitDescriptor i).settle :=
  congrArg Host.Outcome.next (if_pos ((s.slicePresent_at t i).symm.trans h))
/-- A descriptor that is taken: it starts when its checks pass, and completes with their status otherwise. -/
theorem State.submitDescriptor_taken {b : Bytes} (hb : s.headBody (submitQueue i) = some b) (hl : (s.slice i).descs.length < 64)
    (hf : bit (fieldAt (Machine.slice b 0 32) 1 1) 0 = false ∨
      ∀ e ∈ (s.slice i).descs, e.owner ≠ senderFunction (rhSender (s.ringHdr (s.queue (submitQueue i)) (s.queue (submitQueue i)).head))) :
    let h := s.ringHdr (s.queue (submitQueue i)) (s.queue (submitQueue i)).head
    let f := senderFunction (rhSender h)
    let c := s.popHead (submitQueue i) (rhLen h)
    let d := Machine.slice b 0 32
    s.submitDescriptor i = if c.dsCheck f d = qOk then c.modSlice i (fun x => { x with descs := x.descs ++ [⟨d, f⟩] })
      else c.dsFinish i d (c.dsCheck f d) 0 0 := by
  intro h f c d
  unfold State.submitDescriptor
  extract_lets q
  rw [hb]
  refine if_neg ?_
  rintro (hfull | ⟨hfence, hown⟩)
  · exact Nat.not_le_of_lt hl hfull
  · obtain ⟨e, he, heq⟩ := List.any_eq_true.1 hown
    exact hf.elim (fun h0 => Bool.false_ne_true (h0.symm.trans hfence)) fun hne => hne e he (eq_of_beq heq)

theorem exec_descriptorComplete {j : Nat} {e : Desc} {memErr : Option Nat} (h : ((s.at t).slice i).descs[j]? = some e) :
    let m := ((s.at t).modSlice i (fun x => { x with descs := x.descs.eraseIdx j })).dsMove e.owner e.raw memErr
    exec (.descriptorComplete i j memErr t) s = .next (m.1.dsFinish i e.raw m.2.2.2 m.2.2.1 m.2.1).settle := by
  show execDescriptorComplete i j memErr t s = _
  simp only [execDescriptorComplete, h]

/-! ### APPLY (R193) -/

theorem exec_applyComplete {p : Nat} {tl : Tile} : let a := s.at t
    let sl := activeSlot (a.part n)
    let b := (a.applyProj n sl tl (mget dProj sl.projs p)).modProj n p (fun q => { q with done := true })
    findTile sl 5 p = some tl → (mget dProj sl.projs p).apply = true → (mget dProj sl.projs p).done = false → applyBehind sl p = false →
    exec (.applyComplete n p t) s = .next (if running (b.part n) then b else b.applySwitches n) := by
  intro a sl b htile happly hdone hbehind
  show execApplyComplete n p t s = _
  unfold execApplyComplete
  extract_lets pr
  rw [htile]
  refine congrArg Host.Outcome.next (if_neg ?_)
  simp [pr, happly, hdone, hbehind]

/-! ### The keep set (R197, R200) -/

theorem State.doKeep_taken {v : Nat} {l : List KeepSection} (ha : s.keepAllowed n = stOk)
    (hs : s.newSections n (if v = 1 then [s.makeSection n] else []) = l) (hl : bankLength l ≤ 25165824) : s.doKeep n v =
      (stOk, State.dset { s with keep := { s.keep with commit := some (n, l), reading := if (v == 1) = true then some n else none, read := 0 } }
        (kKeepState n) 2) := by
  rw [State.doKeep, if_pos ha, hs, State.startCommit, if_neg (Nat.not_lt_of_le hl)]

/-- The bank that was not current, written with sections `l`, in state `s` (R197). -/
def State.bankWritten (s : State) (l : List KeepSection) : Mem :=
  (s.mramWrite (bankBase ((s.currentBank.map (1 - ·)).getD 0)) (bankBytes (s.keepSequence + 1) l)).mem
/-- Partition `n` has committed: every partition counts the commit, and KEEP_STATE of `n` is 1. -/
def State.commitCounted (s : State) (n : Nat) : State := (s.each (List.range 8) (fun s m => s.dadd (kKeepCommits m) 1)).dset (kKeepState n) 1
/-- The end of a commit of partition `n` with sections `l` (R197), before the switches that it made wait. -/
def State.committed (s : State) (n : Nat) (l : List KeepSection) : State := State.commitCounted { s with
  keep := { s.keep with commit := none, reading := none, lastAt := some s.now }
  mem := s.bankWritten l } n

theorem State.each_dadd_only (k : Nat → Nat) (x : Nat) (l : List Nat) (s : State) :
    s.each l (fun s m => s.dadd (k m) x) = { s with dict := (s.each l (fun s m => s.dadd (k m) x)).dict } := by
  induction l generalizing s with
  | nil => rfl
  | cons m r ih => exact ih (s.dadd (k m) x)
theorem State.dset_only {u : State} (h : u = { s with dict := u.dict }) (k x : Nat) : u.dset k x = { s with dict := (u.dset k x).dict } := by
  rw [h]
  rfl
/-- Each counter of a list is raised once. -/
theorem State.dget_each_dadd {k : Nat → Nat} (hk : ∀ i j, k i = k j → i = j) (x : Nat) {l : List Nat} (hl : l.Nodup) (m : Nat) (s : State) :
    (s.each l (fun s m => s.dadd (k m) x)).dget (k m) = if m ∈ l then satAdd 32 (s.dget (k m)) x else s.dget (k m) := by
  induction l generalizing s with
  | nil => rfl
  | cons j r ih =>
    obtain ⟨hj, hr⟩ := List.nodup_cons.1 hl
    refine (ih hr (s.dadd (k j) x)).trans ?_
    by_cases hm : m = j
    · subst hm
      simp [hj]
    · simp [hm, State.dget_dadd_ne s (fun h => hm (hk _ _ h))]

theorem State.commitCounted_only (s : State) (n : Nat) : s.commitCounted n = { s with dict := (s.commitCounted n).dict } :=
  State.dset_only (State.each_dadd_only kKeepCommits 1 (List.range 8) s) _ _
theorem State.dget_commitCounted (s : State) (n : Nat) {m : Nat} (hm : m < 8) :
    (s.commitCounted n).dget (kKeepCommits m) = satAdd 32 (s.dget (kKeepCommits m)) 1 := by
  have hne : kKeepCommits m ≠ kKeepState n := by simp only [kKeepCommits, kKeepState]; omega
  have hinj : ∀ i j, kKeepCommits i = kKeepCommits j → i = j := fun i j h => by simp only [kKeepCommits] at h; omega
  rw [State.commitCounted, State.dget_dset_ne _ hne, State.dget_each_dadd hinj 1 List.nodup_range, if_pos (List.mem_range.2 hm)]
theorem State.committed_only (s : State) (n : Nat) (l : List KeepSection) : s.committed n l = { s with
    keep := { s.keep with commit := none, reading := none, lastAt := some s.now }
    mem := s.bankWritten l
    dict := (s.committed n l).dict } := State.commitCounted_only _ n
theorem State.committed_mem (s : State) (n : Nat) (l : List KeepSection) : (s.committed n l).mem =
    (s.mramWrite (bankBase ((s.currentBank.map (1 - ·)).getD 0)) (bankBytes (s.keepSequence + 1) l)).mem := by
  rw [State.committed_only, State.bankWritten]
theorem exec_keepCommitDone {l : List KeepSection} (h : (s.at t).keep.commit = some (n, l)) : exec (.keepCommitDone t) s =
    .next (if running ((s.at t).part n) then (s.at t).committed n l else ((s.at t).committed n l).applySwitches n) := by
  have hpart : ((s.at t).committed n l).part n = (s.at t).part n := by rw [State.committed_only, State.part, State.part]
  rw [← hpart]
  show execKeepCommitDone t s = _
  simp only [execKeepCommitDone, h]
  unfold State.committed State.commitCounted State.bankWritten
  cases (s.at t).currentBank <;> rfl

/-- Settles O13: descriptors, APPLY, and the commits of the keep set. -/
theorem descriptorsAndKeepSetsComplete : Obligations.DescriptorsAndKeepSetsComplete := by
  unfold Obligations.DescriptorsAndKeepSetsComplete
  refine ⟨fun s i t b => ?_, fun s i j t e memErr => exec_descriptorComplete, fun s n p t tl => exec_applyComplete, fun s r n t => ?_,
    fun s r n t => ?_, fun s n t l => ?_⟩
  · intro a q h f c d hp hb hl hf
    exact (exec_descriptorSubmit hp).trans (congrArg (fun u => Host.Outcome.next u.settle) (State.submitDescriptor_taken hb hl hf))
  · intro a l h ha hl
    refine congrArg Host.Outcome.next ((State.typed_of_accepts _ h).trans ?_)
    rw [State.doKeep_taken ha (congrArg (a.newSections n) (if_pos rfl)) hl]
    rfl
  · intro a l h ha hl
    refine congrArg Host.Outcome.next ((State.typed_of_accepts _ h).trans ?_)
    rw [State.doKeep_taken ha (congrArg (a.newSections n) (if_neg (by decide))) hl]
    rfl
  · intro a bank h
    have honly := a.committed_only n l
    exact ⟨_, exec_keepCommitDone h, a.committed_mem n l, congrArg State.keep honly, State.dget_dset_self _ _ _, fun m hm => State.dget_commitCounted _ n hm,
      by rw [honly]⟩

end Sys2Proof.Machine
end

section
/-!
PROOFS of the statements on stations and tiles (spec 06): loads, accesses, memory units and packets that complete otherwise (O58).
-/

namespace Sys2Proof.Machine

variable {s : State} {n i t : Nat}

/-! ### Neuron accesses (R178) -/

theorem State.naPerform_refused {q : NeuronReq} {x : Bytes} (hd : q.data = some x)
    (h : s.naTargetOk n q.target = false ∨ s.naGone q.target = false ∧ s.naWriteOk n q.sub q.target x = false) :
    s.naPerform n q = (s.dset (kNaStatus n) 3).writeAnswer q.req q.tag (naKey n q.sub) 0 stArgument := by
  have hrefuse : s.naRefuse n q stArgument = (s.dset (kNaStatus n) 3).writeAnswer q.req q.tag (naKey n q.sub) 0 stArgument := by
    simp only [State.naRefuse, hd]
  rw [← hrefuse]
  by_cases ht : s.naTargetOk n q.target = true
  · obtain ⟨hg, hw⟩ := h.resolve_left (by simp [ht])
    simp [State.naPerform, ht, hg, hd, hw]
  · simp [State.naPerform, ht]

/-! ### Words read and trainings (R269, R272) -/

theorem exec_readError {off : Nat} (e : WordError) (h : (s.at t).subServes i = true) :
    exec (.lpddr6ReadError i off e t) s = .next ((s.at t).readWord i off e false) := congrArg Host.Outcome.next (if_pos h)
theorem State.readWord_correctable {off : Nat} {keep : Bool} (h : s.poisoned i off = false) : s.readWord i off .correctable keep = s.corrected i :=
  if_neg (by simp [h])
theorem State.readWord_poisoned {off : Nat} {e : WordError} {keep : Bool} (h : s.poisoned i off = true) : s.readWord i off e keep = s := if_pos h

/-- Is a training of subchannel `i` due at `temp`, 200 ms after the last or 4 °C away from it (R272)? -/
def State.trainDue (s : State) (i temp : Nat) : Bool :=
  decide ((s.slice i).trainAt + 200000000 ≤ s.now) || decide (4 ≤ max temp (s.slice i).trainTemp - min temp (s.slice i).trainTemp)
theorem State.trainDue_iff {temp : Nat} : s.trainDue i temp = true ↔
    (s.slice i).trainAt + 200000000 ≤ s.now ∨ 4 ≤ max temp (s.slice i).trainTemp - min temp (s.slice i).trainTemp := by
  rw [State.trainDue, Bool.or_eq_true, decide_eq_true_eq, decide_eq_true_eq]
theorem exec_retrain_due {temp : Nat} (h : (s.at t).subServes i = true) (hd : (s.at t).trainDue i temp = true) :
    exec (.retrain i temp true t) s = .next (((s.at t).modSlice i (fun x => { x with temp := temp })).modSlice i (fun x =>
      { x with retrains := satAdd 32 x.retrains 1, trainAt := (s.at t).now, trainTemp := temp })) := by
  refine congrArg Host.Outcome.next ((if_neg (by simp [h])).trans ((if_neg ?_).trans (if_pos rfl)))
  change ¬ (!(s.at t).trainDue i temp) = true
  simp [hd]
theorem exec_retrain_early {temp : Nat} {ok : Bool} (h : (s.at t).subServes i = true) (hd : (s.at t).trainDue i temp = false) :
    exec (.retrain i temp ok t) s = .next ((s.at t).modSlice i (fun x => { x with temp := temp })) := by
  refine congrArg Host.Outcome.next ((if_neg (by simp [h])).trans (if_pos ?_))
  change (!(s.at t).trainDue i temp) = true
  simp [hd]

/-! ### BAR2 (R274) -/

/-- May function `f` reach `len` bytes at `off` through its BAR2? -/
def State.barOk (s : State) (f off len : Nat) : Bool :=
  bit (s.func f).winLo 0 && decide (off + len ≤ s.barBytes f) && s.spaceOk spLp (winBase (s.func f).winLo (s.func f).winHi + off) len &&
    s.spaceMay f false spLp (winBase (s.func f).winLo (s.func f).winHi + off) len
theorem State.barOk_iff {f off len : Nat} : s.barOk f off len = true ↔ bit (s.func f).winLo 0 = true ∧ off + len ≤ s.barBytes f ∧
    s.spaceOk spLp (winBase (s.func f).winLo (s.func f).winHi + off) len = true ∧
      s.spaceMay f false spLp (winBase (s.func f).winLo (s.func f).winHi + off) len = true := by
  simp only [State.barOk, Bool.and_eq_true, decide_eq_true_eq, and_assoc]
theorem State.barOk_eq_false_iff {f off len : Nat} : s.barOk f off len = false ↔ bit (s.func f).winLo 0 = false ∨ s.barBytes f < off + len ∨
    s.spaceOk spLp (winBase (s.func f).winLo (s.func f).winHi + off) len = false ∨
      s.spaceMay f false spLp (winBase (s.func f).winLo (s.func f).winHi + off) len = false := by
  simp only [State.barOk, Bool.and_eq_false_iff, decide_eq_false_iff_not, not_le, or_assoc]

theorem exec_bar2Read {f off len : Nat} (hh : (s.at t).hostSees f = true) (hf : f ≤ 8) (hl : 0 < len) : let a := s.at t
    let x := winBase (a.func f).winLo (a.func f).winHi + off
    exec (.bar2Access f off len none t) s = .next (if (!a.barOk f off len) = true then
        (a.out (.readData f false (List.replicate len 0xFF#8))).dadd kBar2Discards 1
      else if a.spaceBad spLp x len = true then a.out (.readData f true (List.replicate len 0xFF#8))
      else a.out (.readData f false (a.lpRead x len))) := by
  refine congrArg Host.Outcome.next (if_neg ?_)
  simp only [hh, Bool.not_true, Bool.false_or, Bool.or_eq_true, decide_eq_true_eq]
  omega
theorem exec_bar2Write_refused {f off : Nat} {data : Bytes} (hh : (s.at t).hostSees f = true) (hf : f ≤ 8) (hl : 0 < data.length)
    (hr : (s.at t).barOk f off data.length = false ∨
      (s.at t).activeFrame (winBase ((s.at t).func f).winLo ((s.at t).func f).winHi + off) data.length = true) :
    exec (.bar2Access f off 0 (some data) t) s = .next ((s.at t).dadd kBar2Discards 1) := by
  refine congrArg Host.Outcome.next ((if_neg ?_).trans (if_neg ?_))
  · simp only [hh, Bool.not_true, Bool.false_or, Bool.or_eq_true, decide_eq_true_eq]
    omega
  · change ¬ ((s.at t).barOk f off data.length && !(s.at t).activeFrame _ data.length) = true
    rcases hr with h | h <;> simp [h]

/-! ### Packets (R295 to R301) -/

theorem exec_nack_order {src dst seq expected : Nat} {v : Unacked} : let a := (s.at t).fabricDue
    let l := a.fab.unacked.filter (fun x => x.pkt.src == src && a.leafIndex x.pkt.dst == a.leafIndex dst && decide (seqAbove x.pkt.seq expected < 32768))
    a.fab.unacked.find? (a.isCopy src dst seq) = some v →
    exec (.nack src dst seq 3 expected t) s = .next ((sortBy (fun x => seqAbove x.pkt.seq expected) l).foldl (fun s x => s.again x) a) := by
  intro a l h
  show execNack src dst seq 3 expected t s = _
  unfold execNack
  extract_lets
  rw [h]
  rfl

theorem exec_ackTimeout {src dst seq : Nat} {v : Unacked} (h : (s.at t).fabricDue.fab.unacked.find? ((s.at t).fabricDue.isCopy src dst seq) = some v)
    (hs : ∀ i, v.sentAt = some i → i + (s.at t).fabricDue.dget kAckTimeout * 1000 ≤ (s.at t).fabricDue.now) (hb : v.busyAt = none) :
    exec (.ackTimeout src dst seq t) s = .next ((s.at t).fabricDue.again v) := by
  show execAckTimeout src dst seq t s = _
  simp only [execAckTimeout, h, hb]
  refine congrArg Host.Outcome.next (if_pos ?_)
  cases hv : v.sentAt with
  | none => rfl
  | some i => simp [hs i hv]
theorem State.again_usedUp {v : Unacked} (hl : v.lost = false) (hr : s.dget kResendLimit ≤ v.resends) :
    s.again v = (s.modFab (fun f => { f with unacked := f.unacked.map (fun x =>
      if s.isCopy v.pkt.src v.pkt.dst v.pkt.seq x then { x with lost := true } else x) })).unreachable v.pkt := by
  rw [State.again, if_neg (by simp [hl]), if_neg (Nat.not_lt_of_le hr)]

/-- The marks without a number that is not held are the marks. -/
theorem SeqMarks.release_of_notMem {m : SeqMarks} {q : Nat} (h : q ∉ m.held) : { m with held := m.held.filter (· != q) } = m := by
  have : m.held.filter (· != q) = m.held := List.filter_eq_self.2 fun x hx => bne_iff_ne.2 fun he => h (he ▸ hx)
  rw [this]
/-- A packet that is not held completes without an ACK of its own. -/
theorem State.completePacket_of_notMem {p : Packet} (h : p.seq ∉ (mget dMarks s.fab.recv (s.marksKey p)).held) :
    (∀ k, mget dMarks (s.completePacket p).fab.recv k = mget dMarks s.fab.recv k) ∧ s.completePacket p =
      { s with fab := { s.fab with recv := (s.completePacket p).fab.recv, edgeHeld := (s.completePacket p).fab.edgeHeld } } := by
  have hheld : (mget dMarks s.fab.recv (s.marksKey p)).held.contains p.seq = false := by simpa using h
  have heq : s.completePacket p = (s.modMarks (s.marksKey p) (fun m => { m with held := m.held.filter (· != p.seq) })).modFab (fun f =>
      { f with edgeHeld := f.edgeHeld.filter (fun e => !(e.key == s.marksKey p && e.seq == p.seq)) }) := if_neg (by rw [hheld]; exact Bool.false_ne_true)
  rw [heq]
  refine ⟨fun k => ?_, rfl⟩
  change mget dMarks (mmod dMarks s.fab.recv (s.marksKey p) (fun m => { m with held := m.held.filter (· != p.seq) })) k = _
  rw [mget_mmod]
  split
  · next hk => rw [SeqMarks.release_of_notMem h, hk]
  · rfl
theorem State.acceptHeld_of_notMem {p : Packet} (h : p.seq ∉ (mget dMarks s.fab.recv (s.marksKey p)).held) :
    (∀ k, mget dMarks (s.acceptHeld p).fab.recv k = mget dMarks s.fab.recv k) ∧ s.acceptHeld p =
      { s with fab := { s.fab with recv := (s.acceptHeld p).fab.recv, edgeHeld := (s.acceptHeld p).fab.edgeHeld } } := by
  unfold State.acceptHeld
  split
  · exact ⟨fun _ => rfl, rfl⟩
  · rw [if_neg (by simpa using h)]
    exact State.completePacket_of_notMem h

/-- Settles O58, command by command. -/
theorem loadsMemoryAndPacketsComplete : Obligations.LoadsMemoryAndPacketsComplete := by
  unfold Obligations.LoadsMemoryAndPacketsComplete
  refine ⟨fun s n t l w tl => ?_, fun s n t l w tl => ?_, fun s n t q w x => ?_, fun s i off t => ?_, fun s i off t e => ?_, fun s i temp t => ?_,
    fun s i temp t ok => ?_, fun s f off len t => ?_, fun s f off t data => ?_, fun s f off len t => ?_,
    fun s src dst seq expected t v => exec_nack_order, fun s src dst seq t v => ?_, fun s p e t => ?_⟩
  · intro a hload htile
    exact (exec_tileLanded true hload).trans (congrArg Host.Outcome.next (State.landTile_fails htile (.inl rfl)))
  · intro a hload htile hbad
    exact (exec_tileLanded false hload).trans (congrArg Host.Outcome.next (State.landTile_fails htile (.inr (State.tileBad_iff.2 hbad))))
  · intro a b hw ho hd h
    exact (exec_neuronAccessPerform hw ho).trans (congrArg Host.Outcome.next (State.naPerform_refused hd h))
  · intro a hs hp
    exact (exec_readError _ hs).trans (congrArg Host.Outcome.next (State.readWord_correctable hp))
  · intro a hs hp
    exact (exec_readError e hs).trans (congrArg Host.Outcome.next (State.readWord_poisoned hp))
  · exact fun hs hd => exec_retrain_due hs (State.trainDue_iff.2 (.inr hd))
  · intro a hs hd hearly
    refine exec_retrain_early hs (Bool.eq_false_iff.2 fun hdue => ?_)
    exact (State.trainDue_iff.1 hdue).elim (Nat.not_le_of_lt hearly) (Nat.not_le_of_lt hd)
  · intro a x hh hf hl hr
    refine (exec_bar2Read hh hf hl).trans (congrArg Host.Outcome.next (if_pos ?_))
    rw [State.barOk_eq_false_iff.2 hr]
    rfl
  · intro a x n hh hf hl hr
    refine exec_bar2Write_refused hh hf hl ?_
    rw [State.barOk_eq_false_iff, or_assoc, or_assoc, or_assoc]
    exact hr
  · intro a x hh hf hl hwin hlen hok hmay hbad
    refine (exec_bar2Read hh hf hl).trans (congrArg Host.Outcome.next ((if_neg ?_).trans (if_pos hbad)))
    rw [State.barOk_iff.2 ⟨hwin, hlen, hok, hmay⟩]
    exact Bool.false_ne_true
  · intro a h hs hb hl hr
    exact (exec_ackTimeout h hs hb).trans (congrArg Host.Outcome.next (State.again_usedUp hl hr))
  · intro a h
    obtain ⟨hmarks, honly⟩ := State.acceptHeld_of_notMem h
    exact ⟨_, congrArg Host.Outcome.next (if_pos rfl), hmarks, honly⟩

end Sys2Proof.Machine
end

section
/-!
PROOFS of the statements on converters (spec 08): samples of input streams, and the enables of streams (O14).
-/

namespace Sys2Proof.Machine

variable {s u : State} {r : Requester} {k n t v : Nat} {data : Bytes}

/-! ### Samples (R206, R207, R330) -/

/-- A congestion notification leaves the part: nothing else. -/
theorem State.ecnMarked_only (s : State) (ecn : Bool) (p q : Nat) : s.ecnMarked ecn p q = { s with outbox := (s.ecnMarked ecn p q).outbox } := by
  unfold State.ecnMarked
  split
  · rw [State.out, State.outs_eq]
  · rfl
@[simp] theorem State.dget_ecnMarked (s : State) (ecn : Bool) (p q j : Nat) : (s.ecnMarked ecn p q).dget j = s.dget j := by
  rw [State.ecnMarked_only]
  rfl
@[simp] theorem State.samplePath_ecnMarked (s : State) (ecn : Bool) (p q x k : Nat) : (s.ecnMarked ecn p q).samplePath x k = s.samplePath x k := by
  rw [State.ecnMarked_only]
  rfl

/-- A sample on a path of its own, not the ingest queue, that SOURCE names and that is up reaches the stream. -/
theorem exec_sample {src : SamplePath} : let e := s.at t
    let a := e.ecnMarked (src.ecn && src.path == 2) (e.dget (kEthPort k)) (0x020000 + k)
    k < 32 → a.dget (kSource k) = src.path → 2 ≤ src.path → (src.path = 2 ∨ src.path = 3 → a.samplePath src.path k = true) →
    exec (.sample src k data t) s = .next (a.takeSample k data) := by
  intro e a hk hs hp hup
  rw [State.dget_ecnMarked] at hs
  rw [State.samplePath_ecnMarked] at hup
  refine congrArg Host.Outcome.next ((if_neg ?_).trans (if_neg (by omega)))
  rintro (h | h | h | ⟨h, hdown⟩)
  · omega
  · exact h hs
  · omega
  · rw [hup h] at hdown
    exact Bool.noConfusion hdown

theorem State.takeSample_disabled (hp : s.streamPresent k = true) (hf : (s.stream k).force = false) :
    s.takeSample k data = s.dadd (kDisabledDrops k) 1 := by
  simp only [State.takeSample, hp, hf, Bool.not_true, Bool.not_false, Bool.false_eq_true, if_false, if_true]

/-- R207: SEQ is newer in the arithmetic of 32 bits. -/
theorem seqNewer_of_ahead {q : Nat} {held : Option Nat}
    (h : ∀ x, held = some x → 0 < (q + 2 ^ 32 - x) % 2 ^ 32 ∧ (q + 2 ^ 32 - x) % 2 ^ 32 < 2 ^ 31) : seqNewer q held = true := by
  cases held with
  | none => rfl
  | some x =>
    obtain ⟨hne, hlt⟩ := h x rfl
    exact Bool.and_eq_true_iff.2 ⟨decide_eq_true (Nat.ne_of_gt hne), decide_eq_true hlt⟩

/-- Sample `x` becomes the stream's pending one; one that an earlier instant brought stays beside it. -/
def Stream.sampled (st : Stream) (x : Sample) : Stream := { st with
  pending := some x
  heldSeq := some x.seq
  before := match st.pending with
    | none => none
    | some y => if y.came < x.came then some y else st.before }

theorem State.takeSample_newer (hp : s.streamPresent k = true) (hf : (s.stream k).force = true) (hok : s.sampleOk k data = true)
    (hq : seqNewer (fieldAt data 4 4) (s.stream k).heldSeq = true) :
    s.takeSample k data = (State.modStream (if (s.stream k).pending.isSome then s.dadd (kSamplesSuperseded k) 1 else s) k (fun st =>
      st.sampled { seq := fieldAt data 4 4, stamp := fieldAt data 8 8, vals := data.drop 16, came := s.now })).dadd64 (kSamplesAccepted k) 1 := by
  have hnow : (if (s.stream k).pending.isSome then s.dadd (kSamplesSuperseded k) 1 else s).now = s.now := by split <;> rfl
  simp only [State.takeSample, hp, hf, hok, hq, Bool.not_true, Bool.false_eq_true, if_false, hnow]
  rfl

/-- The message at the head of the ingest queue is taken as a sample (R203). -/
theorem exec_sample_ingest {ecn : Bool} : let a := s.at t
    let q := ingestQueue k
    k < 32 → a.dget (kSource k) = 1 → a.headBody q = some data → exec (.sample ⟨1, ecn⟩ k data t) s = .next
      ((a.popHead q (rhLen (a.ringHdr (a.queue q) (a.queue q).head))).takeSample k data).settle := by
  intro a q hk hs hb
  have hin : ¬ (32 ≤ k ∨ a.dget (kSource k) ≠ 1 ∨ 1 = 0 ∨ ((1 = 2 ∨ 1 = 3) ∧ (!a.samplePath 1 k) = true)) := by
    simp [hk, hs]
  have htake : a.takeIngest k data = ((a.popHead q (rhLen (a.ringHdr (a.queue q) (a.queue q).head))).takeSample k data).settle := by
    rw [State.takeIngest, if_pos hb]
  exact congrArg Host.Outcome.next ((if_neg hin).trans ((if_pos rfl).trans htake))

theorem State.doStreamSample_taken (hlo : 16 ≤ data.length) (hhi : data.length ≤ 1040) (hs : s.dget (kSource k) = 4) :
    s.doStreamSample k data = (stOk, s.takeSample k data) :=
  (if_neg (by omega)).trans (if_neg (not_not_intro hs))

/-! ### STREAM_ENABLE (R227) -/

/-- A write of STREAM_ENABLE with its conditions met: the entry is set, and a stream whose partition does not run follows it at once. -/
theorem State.doStreamEnable_taken (hv : v < 2) (hs : v = 1 → s.dget (kSource k) ≠ 0 ∧ (s.dget (kSource k) = 3 → s.udpTaken k = false)) :
    s.doStreamEnable k v = (stOk, let b := s.dset (kStreamEnable k) v
      if s.heldRunning k = true ∨ ((s.stream k).force = true ↔ v = 1) then b else b.modStream k (fun q =>
        if v = 1 then { q with force := true, chans := [], staleRun := 0, mode := .waiting, heldSeq := none }
        else { q with force := false, pending := none, before := none })) := by
  have hfree : ¬ (v = 1 ∧ (s.dget (kSource k) = 0 ∨ (s.dget (kSource k) = 3 ∧ s.udpTaken k = true))) := by
    rintro ⟨h1, h0 | ⟨h3, hudp⟩⟩
    · exact (hs h1).1 h0
    · exact Bool.false_ne_true (((hs h1).2 h3).symm.trans hudp)
  have hwait : ((s.dset (kStreamEnable k) v).heldRunning k || ((s.dset (kStreamEnable k) v).stream k).force == (v == 1)) = true ↔
      s.heldRunning k = true ∨ ((s.stream k).force = true ↔ v = 1) := by
    rw [Bool.or_eq_true]
    exact or_congr Iff.rfl (beq_iff_eq.trans (Bool.eq_iff_iff.trans (iff_congr Iff.rfl beq_iff_eq)))
  rw [State.doStreamEnable, if_neg (Nat.not_le.2 hv), if_neg hfree]
  exact congrArg (Prod.mk stOk) (if_congr hwait rfl rfl)

/-! ### STREAM_DISABLE_NOW (R228) -/

theorem kStreamEnable_ne_kAbsorbTotal : k < 32 → n < 8 → kStreamEnable k ≠ kAbsorbTotal n := by
  simp only [kStreamEnable, kAbsorbTotal]
  omega
theorem State.holder_lt (h : s.holder k = some n) : n < 8 := List.mem_range.1 (List.mem_of_find?_eq_some h)
/-- The holder of a converter rests on the partitions alone. -/
theorem State.holder_congr (h : u.parts = s.parts) (k : Nat) : u.holder k = s.holder k := by simp only [State.holder, State.part, h]

/-- From `s` to `u` encoded events have been discarded and counted: no stream has changed, nor STREAM_ENABLE of stream `k`. -/
structure StreamsKept (k : Nat) (s u : State) : Prop where
  enable : u.dget (kStreamEnable k) = s.dget (kStreamEnable k)
  streams : u.streams = s.streams
  aside : Aside s u

theorem StreamsKept.refl (k : Nat) (s : State) : StreamsKept k s s := ⟨rfl, rfl, .refl s⟩
theorem StreamsKept.ite {p : Prop} [Decidable p] {a b : State} (ha : StreamsKept k s a) (hb : StreamsKept k s b) :
    StreamsKept k s (if p then a else b) := by
  split <;> assumption
theorem StreamsKept.dset (h : StreamsKept k s u) {j : Nat} (hj : kStreamEnable k ≠ j) (x : Nat) : StreamsKept k s (u.dset j x) :=
  ⟨(u.dget_dset_ne hj x).trans h.enable, h.streams, State.dset_as j x h.aside⟩
theorem StreamsKept.modCore (h : StreamsKept k s u) (c : Nat) (f : Core → Core) : StreamsKept k s (u.modCore c f) :=
  ⟨h.enable, h.streams, State.modCore_as c f h.aside⟩
theorem StreamsKept.modCluster (h : StreamsKept k s u) (cl : Nat) (f : Cluster → Cluster) : StreamsKept k s (u.modCluster cl f) :=
  ⟨h.enable, h.streams, State.modCluster_as cl f h.aside⟩
theorem StreamsKept.mark (h : StreamsKept k s u) (m type x y z : Nat) : StreamsKept k s (u.mark m type x y z) :=
  ⟨h.enable, h.streams, State.mark_as m type x y z h.aside⟩
theorem StreamsKept.answer (h : StreamsKept k s u) (r : Requester) (j code : Nat) : StreamsKept k s (u.answer r j code) := by
  have hkey : kStreamEnable k ≠ kDictRequests := by simp only [kStreamEnable, kDictRequests]; omega
  refine ⟨(State.dget_answer hkey u r j code).trans h.enable, ?_, ?_⟩ <;> rw [State.answer_only]
  · exact h.streams
  · exact State.mk_as h.aside

/-- The events discarded from INTAKE (offset 0x7C of Table 6.13) have no sum but ABSORB_TOTAL. -/
theorem StreamsKept.absorbIntake (h : StreamsKept k s u) (hk : k < 32) (c a : Nat) : StreamsKept k s (u.absorbCount c 0x7C a) := by
  have hbump : StreamsKept k s (u.bump c 0x7C a) := by
    refine ⟨(State.dget_bump (by simp [sumKey]) u a).trans h.enable, ?_, ?_⟩ <;> rw [u.counted_bump c 0x7C a]
    · exact h.streams
    · exact State.mk_as h.aside
  unfold State.absorbCount
  extract_lets b
  split
  next m hm =>
    exact (hbump.modCore c _).dset (kStreamEnable_ne_kAbsorbTotal hk (List.mem_range.1 (List.mem_of_find?_eq_some hm))) _
  next => exact hbump.modCore c _
theorem StreamsKept.dropIntake (h : StreamsKept k s u) (hk : k < 32) (j c : Nat) : StreamsKept k s (u.dropIntake j c) :=
  .ite h (.absorbIntake (h.modCore c _) hk c _)

/-- Stream `k` out of force at once, with nothing held. -/
def State.streamStopped (s : State) (k : Nat) (absorbed : Bool) : State := s.modStream k (fun q =>
  { q with force := false, pending := none, before := none, unlaunched := [], absorbed := absorbed })
/-- ENCODE_DONE goes at once where `b` says that ENCODE is at work. -/
def State.encodeEnded (s : State) (k : Nat) (b : Bool) : State := if b then s.sendEncodeDone k else s

theorem State.doStreamNow_unheld (h : s.holder k = none) : s.doStreamNow k 1 = (stOk,
    (((s.dset (kStreamEnable k) 0).dadd (kAbsorbedEncode k) (s.stream k).unlaunched.length).streamStopped k false).encodeEnded k
      (s.stream k).encoding) := by
  unfold State.doStreamNow
  rw [if_neg (by decide), if_neg (by decide)]
  extract_lets st cut gone a b op c d
  have hcut : cut = false := by simp only [cut, h]
  have hgone : gone = st.unlaunched.length := by simp only [gone, hcut]; rfl
  have hb : b = a := by simp only [b, hcut]; rfl
  have hhold : b.holder k = none := by rw [hb]; exact h
  have hop : op = false := by simp only [op, hhold]
  have hc : c = b := by simp only [c, hhold]
  simp only [d, hc, hop, hb, a, hgone]
  rfl

/-- What stream `k` of partition `n` has encoded is discarded and counted; then the stream stops. -/
theorem State.doStreamNow_held (hk : k < 32) (h : s.holder k = some n) : ∃ b, StreamsKept k (s.dset (kStreamEnable k) 0) b ∧
    s.doStreamNow k 1 = (stOk,
      (b.streamStopped k ((s.part n).seq.isOpen && (s.stream k).force)).encodeEnded k (s.stream k).encoding) := by
  unfold State.doStreamNow
  rw [if_neg (by decide), if_neg (by decide)]
  extract_lets st cut gone a b op c d
  have ha : StreamsKept k (s.dset (kStreamEnable k) 0) a := .dset (.refl k _) (by simp only [kStreamEnable, kAbsorbedEncode]; omega) _
  have hb : StreamsKept k (s.dset (kStreamEnable k) 0) b := .ite (List.foldlRecOn _ _ ha fun _ hu _ _ => hu.modCore _ _) ha
  have hparts : b.parts = s.parts := by
    simp only [b]
    split
    · exact List.foldlRecOn (motive := fun (u : State) => u.parts = s.parts) _ _ rfl fun _ hu _ _ => hu
    · rfl
  have hhold : b.holder k = some n := (State.holder_congr hparts k).trans h
  have hop : op = ((s.part n).seq.isOpen && (s.stream k).force) := by
    simp only [op, hhold, State.part, hparts]
    rfl
  have hc : StreamsKept k (s.dset (kStreamEnable k) 0) c := by
    have hdrop : StreamsKept k (s.dset (kStreamEnable k) 0) (b.each (b.partCores n) (fun s c => s.dropIntake k c)) :=
      List.foldlRecOn _ _ hb fun _ hu _ _ => hu.dropIntake hk _ _
    simp only [c, hhold]
    exact .ite (.dset (hdrop.mark n _ _ _ _) (kStreamEnable_ne_kAbsorbTotal hk (State.holder_lt h)) _) hdrop
  exact ⟨c, hc, by rw [← hop]; rfl⟩

/-- ENCODE_DONE clears the stream's own mark, and tells clusters: no more of the streams changes. -/
theorem State.sendEncodeDone_kept (s : State) (k : Nat) : StreamsKept k (s.modStream k (fun q => { q with encoding := false })) (s.sendEncodeDone k) := by
  unfold State.sendEncodeDone
  extract_lets a
  split
  · exact .refl k a
  · exact List.foldlRecOn _ _ (.refl k a) fun _ hu _ _ => hu.modCluster _ _

/-- A stream stopped at once stays stopped when ENCODE_DONE goes; no other stream changes. -/
theorem State.encodeEnded_streamStopped (s : State) (k : Nat) (absorbed b : Bool) : let u := (s.streamStopped k absorbed).encodeEnded k b
    (u.stream k).force = false ∧ (u.stream k).pending = none ∧ (u.stream k).unlaunched = [] ∧ (u.stream k).absorbed = absorbed ∧
    (∀ j, j ≠ k → u.stream j = s.stream j) ∧ u.dget (kStreamEnable k) = s.dget (kStreamEnable k) ∧ Aside s u := by
  have haside : Aside s (s.streamStopped k absorbed) := State.modStream_as k _ (.refl s)
  cases b with
  | false =>
    refine ⟨?_, ?_, ?_, ?_, fun j hj => s.stream_modStream_ne hj _, rfl, haside⟩ <;>
      rw [State.encodeEnded, if_neg Bool.false_ne_true, State.streamStopped, State.stream_modStream_self]
  | true =>
    have hkept := (s.streamStopped k absorbed).sendEncodeDone_kept k
    have hstream (j : Nat) : ((s.streamStopped k absorbed).sendEncodeDone k).stream j =
        ((s.streamStopped k absorbed).modStream k (fun q => { q with encoding := false })).stream j := by
      rw [State.stream, hkept.streams, State.stream]
    refine ⟨?_, ?_, ?_, ?_, fun j hj => ?_, hkept.enable, haside.trans ((State.modStream_as k _ (.refl _)).trans hkept.aside)⟩
    case refine_5 => exact (hstream j).trans ((State.stream_modStream_ne _ hj _).trans (s.stream_modStream_ne hj _))
    all_goals rw [State.encodeEnded, if_pos rfl, hstream, State.stream_modStream_self, State.streamStopped, State.stream_modStream_self]

/-- STREAM_DISABLE_NOW of a stream that a partition holds (R228). -/
theorem streamDisableNow_stops (hk : k < 32) (h : (s.at t).Accepts r (kStreamDisableNow k) 1) (hn : (s.at t).holder k = some n) :
    let a := s.at t
    ∃ u, exec (.streamDisableNow r k 1 t) s = .next u ∧ u.dget (kStreamEnable k) = 0 ∧ (u.stream k).force = false ∧
      (u.stream k).pending = none ∧ (u.stream k).unlaunched = [] ∧ (u.stream k).absorbed = ((a.part n).seq.isOpen && (a.stream k).force) ∧
      (∀ j, j ≠ k → u.stream j = a.stream j) ∧ Aside a u := by
  intro a
  obtain ⟨b, hb, hdo⟩ := State.doStreamNow_held hk hn
  have hexec : exec (.streamDisableNow r k 1 t) s = .next ((a.doStreamNow k 1).2.answer r (kStreamDisableNow k) (a.doStreamNow k 1).1) :=
    congrArg Host.Outcome.next (State.typed_of_accepts _ h)
  rw [hdo] at hexec
  obtain ⟨hforce, hpending, hgone, habsorbed, hothers, henable, haside⟩ := b.encodeEnded_streamStopped k
    ((a.part n).seq.isOpen && (a.stream k).force) (a.stream k).encoding
  generalize (b.streamStopped k _).encodeEnded k _ = c at hexec hforce hpending hgone habsorbed hothers henable haside
  have hans := (StreamsKept.refl k c).answer r (kStreamDisableNow k) stOk
  have hstream (j : Nat) : (c.answer r (kStreamDisableNow k) stOk).stream j = c.stream j := by rw [State.stream, hans.streams, State.stream]
  refine ⟨_, hexec, ?_⟩
  simp only [hstream]
  refine ⟨hans.enable.trans (henable.trans (hb.enable.trans (State.dget_dset_self _ _ _))), hforce, hpending, hgone, habsorbed, fun j hj => ?_, ?_⟩
  · rw [hothers j hj, State.stream, hb.streams]
    rfl
  · exact (State.dset_as _ _ (.refl a)).trans (hb.aside.trans (haside.trans hans.aside))

/-- Settles O14, command by command. -/
theorem streamsTakeTheirSamples : Obligations.StreamsTakeTheirSamples := by
  unfold Obligations.StreamsTakeTheirSamples
  refine ⟨fun s src k t data => ?_, fun s src k t data => ?_, fun s ecn k t data => exec_sample_ingest, fun s r k t data => ?_,
    fun s r k v t => ?_, fun s r k t => ?_, fun s r k n t => ?_⟩
  · intro e a q hk hs hp hup hthere hforce hok hnew
    exact (exec_sample hk hs hp hup).trans (congrArg _ (State.takeSample_newer hthere hforce hok (seqNewer_of_ahead hnew)))
  · intro e a hk hs hp hup hthere hforce
    rw [exec_sample hk hs hp hup, State.takeSample_disabled hthere hforce]
  · intro a h hlo hhi hs
    refine congrArg Host.Outcome.next ((State.typed_of_accepts _ h).trans ?_)
    rw [State.doStreamSample_taken hlo hhi hs]
  · intro a h hv hs
    refine congrArg Host.Outcome.next ((State.typed_of_accepts _ h).trans ?_)
    rw [State.doStreamEnable_taken hv hs]
  · intro a h hn
    refine congrArg Host.Outcome.next ((State.typed_of_accepts _ h).trans ?_)
    rw [State.doStreamNow_unheld hn]
    rfl
  · intro a hk h hn
    obtain ⟨u, hexec, henable, hforce, hpending, hgone, habsorbed, hothers, haside⟩ := streamDisableNow_stops hk h hn
    exact ⟨u, hexec, henable, hforce, hpending, hgone, habsorbed, hothers, haside.queues, haside.syncs, haside.keep, haside.sec⟩

end Sys2Proof.Machine
end

section
/-!
PROOFS of the statements on converters (spec 08): DECODE of a word that cannot be read (O15).
-/

namespace Sys2Proof.Machine

/-- The tile of group 0, in granule 0 of the local memory. -/
def groupTile : Tile := ⟨4, 0, 32, 0, 0, 2048, 1, [0]⟩
/-- Partition 0 with group 0 in its ACTIVE slot, on a tile of one channel. Pitch 5 is due to the group, and the word of that channel in its
combining queue has a persistent parity error (R260). -/
def groupWithBadWord : State := { State.reset with
  parts := [(0, { active := some 0, slot0 := { tiles := [groupTile] } })]
  groups := [(0, { due := [(5, 1, 0)] })]
  mem := { State.reset.mem with lp := [(65, 1)], sramBad := [combineSram 0 0] } }

theorem groupWithBadWord_due : ((groupWithBadWord.at 0).rgroup 0).due = [(5, 1, 0)] := by decide +kernel
theorem groupWithBadWord_groupOf : (groupWithBadWord.at 0).groupOf 0 = some (0, groupTile) := by decide +kernel
/-- No error has been counted yet. -/
theorem groupWithBadWord_parity : (groupWithBadWord.at 0).dget kParityPersistent = 0 := by decide +kernel
/-- DECODE reads the word, and PARITY_PERSISTENT counts its error. -/
theorem decode_counts_parity : ∃ u, exec (.decode 0 0) groupWithBadWord = .next u ∧ u.dget kParityPersistent = 1 :=
  ⟨_, rfl, by decide +kernel⟩

/-- Refutes O15: its DECODE clause keeps the dictionary, and a DECODE that finds a word of the combining queue with a persistent parity error
counts and reports it there (R260). -/
theorem not_readoutsAndOutputsAreDriven : ¬ Obligations.ReadoutsAndOutputsAreDriven := by
  unfold Obligations.ReadoutsAndOutputsAreDriven
  rintro ⟨hdecode, -⟩
  obtain ⟨u, _, hu, -, -, -, -, -, -, -, honly, -⟩ := hdecode groupWithBadWord 0 0 0 5 1 0 _ [] groupWithBadWord_due groupWithBadWord_groupOf
  obtain ⟨v, hv, hcount⟩ := decode_counts_parity
  obtain rfl : u = v := Host.Outcome.next.inj (hu.symm.trans hv)
  have hkept : u.dget kParityPersistent = (groupWithBadWord.at 0).dget kParityPersistent := by
    rw [honly]
    rfl
  exact Nat.one_ne_zero (hcount.symm.trans (hkept.trans groupWithBadWord_parity))

end Sys2Proof.Machine
end

section
/-!
PROOFS of the statements on memory (spec 10): accesses through a BAR2 window (O20).
-/

namespace Sys2Proof.Machine

variable {s : State} {t : Nat}

/-! ### Bytes of LPDDR6 after a store -/

theorem State.lpRead_one (s : State) (y : Nat) : s.lpRead y 1 = [mget (dLp s.mem.lpFree) s.mem.lp y] := rfl
/-- Each byte of a store reads back as it was written. -/
theorem State.lpRead_lpWrite_inside (s : State) (x : Nat) {data : Bytes} {j : Nat} (h : j < data.length) :
    (s.lpWrite x data).lpRead (x + j) 1 = [data.getD j 0] := by
  have hbyte := (mget_writeRange (dLp s.mem.lpFree) s.mem.lp x data (x + j)).trans (if_pos (by omega))
  rw [Nat.add_sub_cancel_left] at hbyte
  exact congrArg (fun b => [b]) hbyte
/-- A byte outside a store reads as before. -/
theorem State.lpRead_lpWrite_outside (s : State) {x y : Nat} {data : Bytes} (h : y < x ∨ x + data.length ≤ y) :
    (s.lpWrite x data).lpRead y 1 = s.lpRead y 1 := by
  rw [State.lpRead_one, State.lpRead_one, s.lpWrite_other x data y h]
/-- A store changes LPDDR6 and its poison alone (R269). -/
theorem State.lpWrite_only (s : State) (x : Nat) (data : Bytes) : s.lpWrite x data = { s with mem := (s.lpWrite x data).mem } := rfl
theorem State.lpWrite_mem_only (s : State) (x : Nat) (data : Bytes) : (s.lpWrite x data).mem =
    { s.mem with lp := (s.lpWrite x data).mem.lp, poison := (s.lpWrite x data).mem.poison } := rfl

/-! ### BAR2 (R274) -/

/-- A write that the window, the space and the frames allow is stored. -/
theorem exec_bar2Write {f off : Nat} {data : Bytes} (hh : (s.at t).hostSees f = true) (hf : f ≤ 8) (hl : 0 < data.length)
    (hok : (s.at t).barOk f off data.length = true)
    (hframe : (s.at t).activeFrame (winBase ((s.at t).func f).winLo ((s.at t).func f).winHi + off) data.length = false) :
    exec (.bar2Access f off 0 (some data) t) s =
      .next ((s.at t).lpWrite (winBase ((s.at t).func f).winLo ((s.at t).func f).winHi + off) data) := by
  refine congrArg Host.Outcome.next ((if_neg ?_).trans (if_pos ?_))
  · simp only [hh, Bool.not_true, Bool.false_or, Bool.or_eq_true, decide_eq_true_eq]
    omega
  · change ((s.at t).barOk f off data.length && !(s.at t).activeFrame _ data.length) = true
    rw [hok, hframe]
    rfl

/-- Settles O20: a write, a read, and a read through a closed window. -/
theorem bar2ReachesMemory : Obligations.Bar2ReachesMemory := by
  unfold Obligations.Bar2ReachesMemory
  refine ⟨fun s f off t data => ?_, fun s f off len t => ?_, fun s f off len t => ?_⟩
  · intro a x hh hf hl hwin hlen hspace hmay hframe
    have hok : a.barOk f off data.length = true := State.barOk_iff.2 ⟨hwin, hlen, hspace, hmay⟩
    exact ⟨_, exec_bar2Write hh hf hl hok hframe, fun j hj => a.lpRead_lpWrite_inside x hj, fun y hy => a.lpRead_lpWrite_outside hy,
      a.lpWrite_only x data, a.lpWrite_mem_only x data⟩
  · intro a x hh hf hl hwin hlen hspace hmay hgood
    have hok : a.barOk f off len = true := State.barOk_iff.2 ⟨hwin, hlen, hspace, hmay⟩
    refine (exec_bar2Read hh hf hl).trans (congrArg Host.Outcome.next ((if_neg ?_).trans (if_neg ?_)))
    · rw [hok]
      exact Bool.false_ne_true
    · exact Bool.eq_false_iff.1 hgood
  · intro a hh hf hl hwin
    refine (exec_bar2Read hh hf hl).trans (congrArg Host.Outcome.next (if_pos ?_))
    rw [State.barOk_eq_false_iff.2 (.inl hwin)]
    rfl

end Sys2Proof.Machine
end

section
/-!
PROOFS of the statements on the fabric (spec 11): packets on their way, at their endpoint and at their source (O21).
-/

namespace Sys2Proof.Machine

variable {s c : State} {p : Packet} {e : Trip} {acc : Acceptance} {spine : Option Nat} {t : Nat}

/-! ### A packet at its source and on its way (R296, R302, R306, R309) -/

theorem exec_packetArrival_unsent (hacc : acc ≠ .completes) (hu : (s.at t).fabricDue.unsent p = true) :
    exec (.packetArrival ⟨p, e, acc⟩ t) s = .next (s.at t).fabricDue :=
  congrArg Host.Outcome.next ((if_neg hacc).trans (if_pos hu))
theorem exec_packetArrival_sent (hacc : acc ≠ .completes) (hu : (s.at t).fabricDue.unsent p = false) :
    exec (.packetArrival ⟨p, e, acc⟩ t) s = .next ((s.at t).fabricDue.sendPacket p e acc) :=
  congrArg Host.Outcome.next ((if_neg hacc).trans (if_neg (Bool.eq_false_iff.1 hu)))

theorem State.sendPacket_stale (h : (s.noteCopy p).staleGen p.gen = true) : s.sendPacket p e acc = (s.noteCopy p).dadd kStaleGen 1 := if_pos h
/-- A packet that has a path goes its way over it. -/
theorem State.Routed.sendPacket (h : s.Routed p e c spine) : s.sendPacket p e acc = c.travel p e acc spine := by
  obtain ⟨-, hgen, ⟨hbeside, rfl, rfl⟩ | ⟨hcross, u, hup, rfl, rfl⟩⟩ := h
  · simp [State.sendPacket, hgen, hbeside]
  · simp [State.sendPacket, hgen, hcross, hup]
theorem exec_packetArrival_routed (hacc : acc ≠ .completes) (h : (s.at t).fabricDue.Routed p e c spine) :
    exec (.packetArrival ⟨p, e, acc⟩ t) s = .next (c.travel p e acc spine) :=
  (exec_packetArrival_sent hacc h.1).trans (congrArg Host.Outcome.next h.sendPacket)

/-- The state after the hops that a packet passes have counted the parity errors `l` of its words. -/
def State.hopErrors (s : State) (l : List FlitError) : State := (l.filter parityShows).foldl (fun s x => s.hopError x.hop) s
theorem State.hopErrors_of_hidden {l : List FlitError} (h : ∀ x ∈ l, parityShows x = false) : s.hopErrors l = s := by
  rw [State.hopErrors, List.filter_eq_nil_iff.2 fun x hx => Bool.eq_false_iff.1 (h x hx)]
  rfl
theorem State.hopErrors_singleton {x : FlitError} (h : parityShows x = true) : s.hopErrors [x] = s.hopError x.hop := by
  rw [State.hopErrors, List.filter_singleton, h]
  rfl

/-- Is the packet sunk on its way: by an error in its header, or at an excluded link (R296, R306)? -/
def State.sinks (s : State) (p : Packet) (e : Trip) (spine : Option Nat) : Bool :=
  (e.errors.filter parityShows).any (fun x => x.flit == 0) ||
    ((s.hopErrors e.errors).pathLinks p spine).any (fun k => (s.hopErrors e.errors).fab.excluded.contains k)
theorem State.sinks_iff : s.sinks p e spine = true ↔ (∃ x ∈ e.errors, parityShows x = true ∧ x.flit = 0) ∨
    ∃ k ∈ (s.hopErrors e.errors).pathLinks p spine, k ∈ (s.hopErrors e.errors).fab.excluded := by
  simp [State.sinks]
theorem State.travel_eq : s.travel p e acc spine =
    if s.sinks p e spine then (s.hopErrors e.errors).dadd kWormDrops 1 else (s.hopErrors e.errors).endPacket p e.errors acc := rfl
/-- A packet that no header error and no excluded link sinks reaches its endpoint. -/
theorem State.travel_arrives (hhead : ∀ x ∈ e.errors, parityShows x = true → x.flit ≠ 0) (hclear : (s.hopErrors e.errors).PathClear p spine) :
    s.travel p e acc spine = (s.hopErrors e.errors).endPacket p e.errors acc := by
  refine State.travel_eq.trans (if_neg fun h => ?_)
  rcases State.sinks_iff.1 h with ⟨x, hx, hshow, hflit⟩ | ⟨k, hk, hout⟩
  · exact hhead x hx hshow hflit
  · exact hclear k hk hout
/-- Without an error that shows, a clear path leads to the endpoint and counts nothing. -/
theorem State.travel_hidden (h : ∀ x ∈ e.errors, parityShows x = false) (hclear : s.PathClear p spine) :
    s.travel p e acc spine = s.endPacket p e.errors acc := by
  have hkeep : s.hopErrors e.errors = s := State.hopErrors_of_hidden h
  rw [State.travel_arrives (fun x hx hshow => absurd hshow (Bool.eq_false_iff.1 (h x hx))) (hkeep.symm ▸ hclear), hkeep]
theorem State.travel_perfect (he : e.errors = []) (hclear : s.PathClear p spine) : s.travel p e acc spine = s.endPacket p [] acc := by
  rw [State.travel_hidden (fun x hx => absurd (he ▸ hx) List.not_mem_nil) hclear, he]

/-! ### A packet at its endpoint (R290, R297, R300, R301, R310) -/

theorem State.endPacket_crc {l : List FlitError} (hk : isAck p.kind = false) (h : arrives p l = none) :
    s.endPacket p l acc = (s.dadd kCrcErrors 1).sendNack p 1 0 := by
  simp only [State.endPacket, hk, h, Bool.false_eq_true, if_false]
theorem State.endPacket_damaged {l : List FlitError} {q : Packet} (hk : isAck p.kind = false) (h : arrives p l = some q)
    (hd : l.any parityShows = true) : s.endPacket p l acc = s.sendNack p 2 0 := by
  simp only [State.endPacket, hk, h, hd, Bool.false_eq_true, if_false, if_true]
theorem arrives_nil (p : Packet) : arrives p [] = some p := if_pos rfl
theorem State.endPacket_whole (hk : isAck p.kind = false) : s.endPacket p [] acc = s.receivePacket p acc := by
  simp only [State.endPacket, hk, arrives_nil, List.any_nil, Bool.false_eq_true, if_false]

/-- What an endpoint asks of a packet before it accepts it, in the order of its checks. -/
structure State.Takes (s : State) (p : Packet) (acc : Acceptance) : Prop where
  format : s.formatOk p = true
  order : p.ordered = true → pktNewer p.seq (mget dMarks s.fab.recv (s.marksKey p)).expected = false
  new : seqNew (mget dMarks s.fab.recv (s.marksKey p)) p.seq = true
  read : p.kind = 0x12 → acc ≠ .later
  awake : s.resetPort p.dst = false
  remote : p.kind = 0x21 → s.remoteRoomFor p = true
  edge : edgeHaul p = true → s.edgeRoom p = true
theorem State.Takes.receivePacket (h : s.Takes p acc) : s.receivePacket p acc = s.acceptPacket p acc := by
  have horder : ¬ (p.ordered && pktNewer p.seq (mget dMarks s.fab.recv (s.marksKey p)).expected) = true := fun hn => by
    obtain ⟨hord, hnewer⟩ := Bool.and_eq_true_iff.1 hn
    exact Bool.false_ne_true ((h.order hord).symm.trans hnewer)
  have hbusy : ¬ (s.resetPort p.dst = true ∨ p.kind = 0x12 ∧ acc = .later) := by
    rintro (hr | ⟨hread, hlater⟩)
    · exact Bool.false_ne_true (h.awake.symm.trans hr)
    · exact h.read hread hlater
  have hroom : ¬ ((edgeHaul p && !s.edgeRoom p) || (p.kind == 0x21 && !s.remoteRoomFor p)) = true := fun hfull => by
    rcases Bool.or_eq_true_iff.1 hfull with hedge | hrem
    · obtain ⟨hhaul, hno⟩ := Bool.and_eq_true_iff.1 hedge
      exact Bool.false_ne_true ((Bool.not_eq_true' _ ▸ hno).symm.trans (h.edge hhaul))
    · obtain ⟨hkind, hno⟩ := Bool.and_eq_true_iff.1 hrem
      exact Bool.false_ne_true ((Bool.not_eq_true' _ ▸ hno).symm.trans (h.remote (beq_iff_eq.1 hkind)))
  unfold State.receivePacket
  rw [if_neg (by simp [h.format]), if_neg horder, if_neg (by simp [h.new]), if_neg hbusy, if_neg hroom]
/-- A packet without an error, over a clear path, that its endpoint takes is accepted. -/
theorem State.Takes.travel (h : s.Takes p acc) (he : e.errors = []) (hclear : s.PathClear p spine) (hk : isAck p.kind = false) :
    s.travel p e acc spine = s.acceptPacket p acc := by
  rw [State.travel_perfect he hclear, State.endPacket_whole hk, h.receivePacket]

theorem State.acceptPacket_atOnce (ha : acceptedAtOnce p acc = true) (hedge : edgeHaul p = true → acc ≠ .later) :
    s.acceptPacket p acc = ((s.modMarks (s.marksKey p) (fun m => seqMark m p.seq true)).takePacket p).sendAck p := by
  have hhold : (edgeHaul p && acc == .later) = false := by
    cases hhaul : edgeHaul p with
    | false => rfl
    | true => exact beq_eq_false_iff_ne.2 (hedge hhaul)
  simp only [State.acceptPacket, ha, hhold, Bool.true_or, Bool.false_eq_true, if_false, if_true]
/-- A packet that its endpoint holds is taken and acknowledged, unless its slice has failed. -/
theorem State.acceptHeld_of_mem (h : p.seq ∈ (mget dMarks s.fab.recv (s.marksKey p)).held)
    (hslice : portType p.dst = 2 → (s.slice (portBits p.dst)).failed = false) : s.acceptHeld p = (s.takePacket p).completePacket p := by
  refine (if_neg fun hf => ?_).trans (if_pos (List.contains_iff_mem.2 h))
  obtain ⟨htype, hfailed⟩ := Bool.and_eq_true_iff.1 hf
  exact Bool.false_ne_true ((hslice (beq_iff_eq.1 htype)).symm.trans hfailed)

/-! ### Copies at their source (R295, R299) -/

/-- The copy `v` sent again, as a re-send that counts. -/
theorem State.again_resends {v : Unacked} (hl : v.lost = false) (hr : v.resends < s.dget kResendLimit) : s.again v = s.resend v true := by
  rw [State.again, if_neg (by simp [hl]), if_pos hr]
theorem exec_nack_busy {src dst seq expected : Nat} {v : Unacked} : let a := (s.at t).fabricDue
    a.fab.unacked.find? (a.isCopy src dst seq) = some v →
    exec (.nack src dst seq 4 expected t) s = .next (a.modFab (fun f => { f with unacked := f.unacked.map (fun x =>
      if a.isCopy src dst seq x then { x with busyAt := some (a.now + 1000) } else x) })) := by
  intro a h
  change execNack src dst seq 4 expected t s = _
  simp only [execNack, a, h, if_true]
theorem exec_nack_again {src dst seq reason expected : Nat} {v : Unacked}
    (h : (s.at t).fabricDue.fab.unacked.find? ((s.at t).fabricDue.isCopy src dst seq) = some v) (h3 : reason ≠ 3) (h4 : reason ≠ 4) :
    exec (.nack src dst seq reason expected t) s = .next ((s.at t).fabricDue.again v) := by
  change execNack src dst seq reason expected t s = _
  simp only [execNack, h, h3, h4, if_false]

/-! ### Links (R295, R306) -/

theorem State.excludeLink_new {sw link : Nat} (h : s.linkOut sw link = false) (hp : link < switchPorts sw) :
    s.excludeLink sw link = (s.excludeEnds sw link).reportUnit 0x0501 0 7 sw none link :=
  if_neg (by simp [h, hp])

/-- Settles O21: on its way, at its endpoint, at its source, and its links. -/
theorem packetsAreAcknowledgedOrResent : Obligations.PacketsAreAcknowledgedOrResent := by
  unfold Obligations.PacketsAreAcknowledgedOrResent
  refine ⟨fun s p e acc t => exec_packetArrival_unsent, fun s p e acc t => ?_, fun s c p e acc t spine => ?_, fun s c p e acc t spine => ?_,
    fun s c p e acc t spine => ?_, fun s c p q e acc t spine x => ?_, fun s c p e acc t spine => ?_, fun s c p e acc t spine => ?_,
    fun s p e t => ?_, fun s src dst seq expected t v => exec_nack_busy, fun s src dst seq reason expected t v => ?_, fun s src dst seq t => rfl,
    fun s src dst seq t i v => ?_, fun s sw link t => rfl, fun s sw link t => ?_⟩
  · intro a hacc hu hstale
    exact (exec_packetArrival_sent hacc hu).trans (congrArg Host.Outcome.next (State.sendPacket_stale hstale))
  · intro a hacc hr hhead
    exact (exec_packetArrival_routed hacc hr).trans (congrArg Host.Outcome.next (if_pos (State.sinks_iff.2 (.inl hhead))))
  · intro a hacc hr he hout
    have hkeep : c.hopErrors e.errors = c := by rw [he]; rfl
    have hsinks : c.sinks p e spine = true := State.sinks_iff.2 (.inr (hkeep.symm ▸ hout))
    rw [exec_packetArrival_routed hacc hr, State.travel_eq, if_pos hsinks, hkeep]
  · intro a hacc hr hclear hhidden hk hcrc
    rw [exec_packetArrival_routed hacc hr, State.travel_hidden hhidden hclear, State.endPacket_crc hk hcrc]
    rfl
  · intro a hacc hr _ he hshow hflit hclear hk hq
    have hhop : c.hopErrors e.errors = c.hopError x.hop := by rw [he, State.hopErrors_singleton hshow]
    have hhead : ∀ y ∈ e.errors, parityShows y = true → y.flit ≠ 0 := fun y hy _ => by
      rw [he, List.mem_singleton] at hy
      exact hy ▸ hflit
    rw [exec_packetArrival_routed hacc hr, State.travel_arrives hhead (hhop.symm ▸ hclear), hhop,
      State.endPacket_damaged hk hq (by simp [he, hshow])]
    rfl
  · intro a m hacc hr hclear he hk hformat horder hnew hread hawake hremote hedge
    have htakes : c.Takes p acc := ⟨hformat, horder, hnew, hread, hawake, hremote, hedge⟩
    exact (exec_packetArrival_routed hacc hr).trans (congrArg Host.Outcome.next (htakes.travel he hclear hk))
  · intro a m hacc hr hclear he hk hformat horder hnew hread hawake hremote hedge honce hlater
    have htakes : c.Takes p acc := ⟨hformat, horder, hnew, hread, hawake, hremote, hedge⟩
    rw [exec_packetArrival_routed hacc hr, htakes.travel he hclear hk, State.acceptPacket_atOnce honce hlater]
  · intro a hheld hslice
    exact congrArg Host.Outcome.next ((if_pos rfl).trans (State.acceptHeld_of_mem hheld hslice))
  · intro a p h h3 h4 hl hr
    exact (exec_nack_again h h3 h4).trans (congrArg Host.Outcome.next (State.again_resends hl hr))
  · intro a p h hs hi hb hl hr
    have hdue : ∀ j, v.sentAt = some j → j + a.dget kAckTimeout * 1000 ≤ a.now := fun j hj => Option.some.inj (hs.symm.trans hj) ▸ hi
    exact (exec_ackTimeout h hdue hb).trans (congrArg Host.Outcome.next (State.again_resends hl hr))
  · exact fun hout hp => congrArg Host.Outcome.next (State.excludeLink_new hout hp)

end Sys2Proof.Machine
end

section
/-!
PROOFS of the statements on the fabric (spec 11): routing generations, weights, congestion records and clocks (O22).
-/

namespace Sys2Proof.Machine

variable {s : State} {t : Nat}

/-! ### Changing generations (R308, R309) -/

theorem State.doRebuild_idle (h : s.dget kRouteState = rsIdle) : s.doRebuild = (stOk, s.startGen) := if_pos h

/-- The switches have been told to drain the old generation: no source is left on it. -/
def State.drainGen (s : State) : State :=
  ((s.dset kRouteState rsDraining).modFab (fun f => { f with toSwitch := [], unitsLeft := [] })).outs (s.genSwitches.map (fun i =>
    Output.picot 0x16 0xA000 (leafPort i) (s.dget kRouteGen)))
theorem exec_genDrain (hs : (s.at t).fabricDue.dget kRouteState = rsSwitching)
    (hc : ∀ c ∈ (s.at t).fabricDue.fab.toSwitch, (s.at t).fabricDue.oldSource c = false)
    (hu : ∀ c ∈ (s.at t).fabricDue.fab.unitsLeft, (s.at t).fabricDue.oldUnits c = false) :
    exec (.genDrain t) s = .next (s.at t).fabricDue.drainGen := by
  refine congrArg Host.Outcome.next (if_neg ?_)
  rw [hs, List.any_eq_false.2 fun c h => Bool.eq_false_iff.1 (hc c h), List.any_eq_false.2 fun c h => Bool.eq_false_iff.1 (hu c h)]
  decide
theorem State.drainGen_only (s : State) :
    s.drainGen = { s with dict := s.drainGen.dict, fab := s.drainGen.fab, outbox := s.drainGen.outbox } := by
  simp only [State.drainGen, State.outs_eq]
  rfl
theorem State.drainGen_fab (s : State) : s.drainGen.fab = { s.fab with toSwitch := [], unitsLeft := [] } := State.outs_fab _ _
theorem State.dget_drainGen (s : State) (k : Nat) : s.drainGen.dget k = (s.dset kRouteState rsDraining).dget k := State.dget_outs _ _ k

theorem exec_genDone {i : Nat} (hs : (s.at t).dget kRouteState = rsDraining) (hi : (s.at t).genSwitches.contains i = true)
    (hd : (s.at t).fab.doneFrom.contains i = false) : let b := (s.at t).modFab (fun f => { f with doneFrom := f.doneFrom ++ [i] })
    exec (.genDone i t) s = .next (if b.genSwitches.all (fun j => b.fab.doneFrom.contains j) then b.retireGen else b) := by
  refine congrArg Host.Outcome.next (if_neg ?_)
  rw [hs, hi, hd]
  decide

/-! ### Route weights (R305, R312) -/

/-- Are these 32 weights of switch `i` within their bounds? -/
def weightsOk (i : Nat) (v : Nat → Nat) : Bool :=
  (List.range 32).all (fun u => if u < uplinks i then decide (1 ≤ v u) && decide (v u ≤ 15) else v u == 0)
theorem weightsOk_of_bounds {i : Nat} {v : Nat → Nat} (hin : ∀ u, u < uplinks i → 1 ≤ v u ∧ v u ≤ 15)
    (hout : ∀ u, uplinks i ≤ u → u < 32 → v u = 0) : weightsOk i v = true := by
  refine List.all_eq_true.2 fun u hu => ?_
  split
  · next h => simp [hin u h]
  · next h => exact beq_iff_eq.2 (hout u (Nat.le_of_not_lt h) (List.mem_range.1 hu))
theorem State.doRouteWeights_ok {r : Requester} {b : Bytes} : let i := s.sel r kWeightSelect
    let v := fun u => (b.getD u 0).toNat
    s.dget kRouteAdapt ≠ 1 → b.length = 32 → weightsOk i v = true →
    s.doRouteWeights r b = (stOk, s.each (List.range (uplinks i)) (fun s u => s.setWeight i u (v u))) := by
  intro i v hadapt hlen hw
  refine (if_neg hadapt).trans ((if_neg (not_not.2 hlen)).trans (if_neg ?_))
  change ¬ (!weightsOk i v) = true
  rw [hw]
  decide

/-! ### Congestion records (R311 to R313) -/

/-- The interval of switch `sw` ends: its haul leaves for the management core. -/
def State.sendCmap (s : State) (sw : Nat) (l : List Nat) : State :=
  (s.modFab (fun f => { f with cmapAt := mset dZero f.cmapAt sw s.now })).out (.cmapHaul sw (cmapBytes sw s.tsnNow l))
theorem exec_cmapInterval {sw : Nat} {ports : List (List PortSample)} (hp : switchPorts sw ≠ 0)
    (hi : mget dZero (s.at t).fab.cmapAt sw + (s.at t).dget kCmapInterval * 1000000 ≤ (s.at t).now) : let a := s.at t
    let l := (List.range (switchPorts sw)).map (fun k => a.cmapEntry sw k (ports.getD k []))
    exec (.cmapInterval sw ports t) s = .next (if a.rel.mgmtUp then (a.sendCmap sw l).takeCmap sw l else a.sendCmap sw l) := by
  intro a l
  have hrel : (a.sendCmap sw l).rel = a.rel := State.out_rel _ _
  rw [← hrel]
  exact congrArg Host.Outcome.next (if_neg (not_or.2 ⟨hp, Nat.not_lt_of_le hi⟩))

theorem State.adjust_cmap (s : State) (i u starved : Nat) : (s.adjust i u starved).fab.cmap = s.fab.cmap := by
  unfold State.adjust
  extract_lets w
  split
  · rfl
  · split <;> rfl
theorem State.telemetry_cmap (s : State) (b : Bytes) : (s.telemetry b).fab.cmap = s.fab.cmap := by
  unfold State.telemetry
  split
  · rfl
  · split
    · rfl
    · change (s.out _).fab.cmap = s.fab.cmap
      rw [State.out_fab]
theorem State.tsnNow_sendCmap (s : State) (sw : Nat) (l : List Nat) : (s.sendCmap sw l).tsnNow = s.tsnNow := by
  rw [State.tsnNow, State.sendCmap, State.out_clk]
  rfl
theorem State.takeCmap_cmap (s : State) (sw : Nat) (l : List Nat) :
    (s.takeCmap sw l).fab.cmap = mset dNone s.fab.cmap sw (some (s.tsnNow, l)) := by
  unfold State.takeCmap
  extract_lets b c
  refine (State.telemetry_cmap _ _).trans ?_
  dsimp only [c]
  split
  · rfl
  · split
    · rfl
    · exact each_keeps (π := fun s => s.fab.cmap) (fun s u => s.adjust_cmap _ u _) _ b
/-- Without adaptation of weights and without telemetry, a record is noted and nothing else. -/
theorem State.takeCmap_noted {sw : Nat} {l : List Nat} (ha : s.dget kRouteAdapt = 0) (ht : s.dget kTelemEnable = 0) :
    s.takeCmap sw l = s.modFab (fun f => { f with cmap := mset dNone f.cmap sw (some (s.tsnNow, l)) }) := by
  unfold State.takeCmap
  extract_lets b c
  have hc : c = b := by
    dsimp only [c]
    split
    · rfl
    · exact if_pos ha
  rw [hc]
  exact if_pos ht

/-- Settles O22: generations, weights, congestion records and clocks. -/
theorem routesAreRebuilt : Obligations.RoutesAreRebuilt := by
  unfold Obligations.RoutesAreRebuilt
  refine ⟨fun s r t => ?_, fun s t => ?_, fun s i t => exec_genDone, fun s n t => ?_, fun s r t => ?_, fun s r data t => ?_,
    fun s sw t ports => ?_, fun s h t => ?_⟩
  · intro a h hidle
    refine congrArg Host.Outcome.next ((State.typed_of_accepts _ h).trans ?_)
    rw [State.doRebuild_idle hidle]
    rfl
  · intro a hs hc hu
    refine ⟨_, exec_genDrain hs hc hu, ?_, a.drainGen_fab, fun k hk => ?_, a.drainGen_only⟩
    · rw [State.dget_drainGen, State.dget_dset_self]
    · rw [State.dget_drainGen, State.dget_dset_ne _ hk]
  · exact fun hs hdue => congrArg Host.Outcome.next (if_pos ⟨hs, hdue⟩)
  · exact fun h => congrArg Host.Outcome.next (State.typed_of_accepts _ h)
  · intro a i v h hadapt hlen hin hout
    refine congrArg Host.Outcome.next ((State.typed_of_accepts _ h).trans ?_)
    rw [State.doRouteWeights_ok hadapt hlen (weightsOk_of_bounds hin hout)]
  · intro a l b hp hi
    have hb : b = a.sendCmap sw l := rfl
    have htsn : b.tsnNow = a.tsnNow := a.tsnNow_sendCmap sw l
    refine ⟨_, exec_cmapInterval hp hi, fun hdown => if_neg (Bool.eq_false_iff.1 hdown), fun hup => ?_, fun hup ha ht => ?_⟩
    · rw [if_pos hup, State.takeCmap_cmap, ← hb, htsn]
      exact congrArg (fun f => mset dNone f.cmap sw _) (State.out_fab _ _)
    · have hadapt : b.dget kRouteAdapt = 0 := (State.dget_out _ _ _).trans ha
      have htelem : b.dget kTelemEnable = 0 := (State.dget_out _ _ _).trans ht
      rw [if_pos hup, ← hb, State.takeCmap_noted hadapt htelem, htsn]
  · exact fun hh => congrArg Host.Outcome.next (if_pos ⟨hh, rfl⟩)

end Sys2Proof.Machine
end

section
/-!
PROOFS of the statements on ports (spec 12): the bindings of QNOTIFY (O44).
-/

namespace Sys2Proof.Machine

/-- From `s` to `u` every function has its QNOTIFY bindings as they were (R321). -/
def SameBindings (s u : State) : Prop := ∀ f, (u.func f).notify = (s.func f).notify

variable {s u v : State}

theorem SameBindings.refl (s : State) : SameBindings s s := fun _ => rfl
theorem SameBindings.ite {p : Prop} [Decidable p] {a b : State} (ha : SameBindings s a) (hb : SameBindings s b) :
    SameBindings s (if p then a else b) := by
  split <;> assumption
theorem SameBindings.foldl {α : Type} {f : State → α → State} (hf : ∀ u x, SameBindings s u → SameBindings s (f u x)) (l : List α)
    (h : SameBindings s u) : SameBindings s (l.foldl f u) := by
  induction l generalizing u with
  | nil => exact h
  | cons x r ih => exact ih (hf u x h)
theorem SameBindings.each {f : State → Nat → State} (hf : ∀ u x, SameBindings s u → SameBindings s (f u x)) (l : List Nat)
    (h : SameBindings s u) : SameBindings s (u.each l f) := h.foldl hf l

/-- A change that leaves the ports. -/
theorem SameBindings.aside (h : SameBindings s u) (hv : v.ports = u.ports) : SameBindings s v := fun f => by
  rw [State.func, hv]
  exact h f
theorem SameBindings.modFunc (h : SameBindings s u) (f : Nat) {g : Func → Func} (hg : ∀ x, (g x).notify = x.notify := by intro _; rfl) :
    SameBindings s (u.modFunc f g) := by
  intro j
  by_cases e : j = f
  · rw [e, State.func_modFunc_self, hg, h]
  · rw [State.func_modFunc_ne _ e, h]
theorem SameBindings.modMailbox (h : SameBindings s u) (k : Nat) (f : Mailbox → Mailbox) : SameBindings s (u.modMailbox k f) := h
theorem SameBindings.modPart (h : SameBindings s u) (n : Nat) (f : Part → Part) : SameBindings s (u.modPart n f) := h
theorem SameBindings.modSlice (h : SameBindings s u) (i : Nat) (f : Slice → Slice) : SameBindings s (u.modSlice i f) := h
theorem SameBindings.qadd (h : SameBindings s u) (i k a : Nat) : SameBindings s (u.qadd i k a) := h
theorem SameBindings.qadd64 (h : SameBindings s u) (i k a : Nat) : SameBindings s (u.qadd64 i k a) := h
theorem SameBindings.modQueue (h : SameBindings s u) (q : Nat) (f : Queue → Queue) : SameBindings s (u.modQueue q f) := h
theorem SameBindings.modSync (h : SameBindings s u) (j : Nat) (f : SyncObj → SyncObj) : SameBindings s (u.modSync j f) := h
theorem SameBindings.modRel (h : SameBindings s u) (f : Rel → Rel) : SameBindings s (u.modRel f) := h
theorem SameBindings.modMem (h : SameBindings s u) (f : Mem → Mem) : SameBindings s (u.modMem f) := h
theorem SameBindings.modPins (h : SameBindings s u) (f : Pins → Pins) : SameBindings s (u.modPins f) := h
theorem SameBindings.dset (h : SameBindings s u) (k x : Nat) : SameBindings s (u.dset k x) := h
theorem SameBindings.dadd (h : SameBindings s u) (k x : Nat) : SameBindings s (u.dadd k x) := h
theorem SameBindings.outs (h : SameBindings s u) (l : List Output) : SameBindings s (u.outs l) := h.aside (u.outs_ports l)
theorem SameBindings.out (h : SameBindings s u) (o : Output) : SameBindings s (u.out o) := h.outs [o]

/-! ### Causes, notices and reports -/

theorem SameBindings.raiseCause (h : SameBindings s u) (f b : Nat) : SameBindings s (u.raiseCause f b) :=
  .ite h (.ite (h.modFunc f) ((h.modFunc f).out _))
theorem SameBindings.queueNotice (h : SameBindings s u) (msg : Bytes) (k : Nat) : SameBindings s (u.queueNotice msg k) :=
  .ite h (.ite (h.modMailbox k _) ((h.modMailbox k _).dadd _ _))
theorem SameBindings.issue (h : SameBindings s u) (ecode sev n detail : Nat) : SameBindings s (u.issue ecode sev n detail) := by
  unfold State.issue
  extract_lets near body msg a b c
  have hb : SameBindings s b := .each (fun _ k h => h.queueNotice msg k) _ ((h.modRel _).dadd _ _)
  have hc : SameBindings s c := .each (fun _ f h => h.raiseCause f 2) _ hb
  exact .ite (h.dadd _ _) (.ite hc (hc.outs _))
theorem SameBindings.emergency (h : SameBindings s u) (ecode sev n detail : Nat) : SameBindings s (u.emergency ecode sev n detail) :=
  .ite (h.issue ecode sev n detail) (h.modRel _)
theorem SameBindings.updateFaultN (h : SameBindings s u) : SameBindings s u.updateFaultN := (h.dset _ _).modPins _
theorem SameBindings.report (h : SameBindings s u) (r : FaultReport) : SameBindings s (u.report r) := by
  unfold State.report
  extract_lets seq sec used logged a b c d e f
  have hb : SameBindings s b := (h.dset _ _).modRel _
  have hc : SameBindings s c := .ite ((hb.modMem _).modMem _) hb
  have he : SameBindings s e := .updateFaultN (.ite hc (hc.dadd _ _))
  have hf : SameBindings s f := by
    dsimp only [f]
    split
    · exact (he.modPart _ _).modPart _ _
    · exact he
  exact .ite (h.modRel _) (.ite hf (.emergency (hf.dadd _ _) _ _ _ _))
theorem SameBindings.sramError (h : SameBindings s u) (w : Nat) : SameBindings s (u.sramError w) :=
  .report ((h.dadd _ _).modMem _) _

/-! ### Rings and outcomes (R237 to R244) -/

theorem SameBindings.notify (h : SameBindings s u) (q : Nat) : SameBindings s (u.notify q) :=
  .each (fun _ f h => .each (fun _ k h => .ite (h.raiseCause f (4 + k)) h) _ h) _ h
theorem State.mramPut_ports (s : State) (a : Nat) (b : Bytes) : (s.mramPut a b).ports = s.ports :=
  List.foldlRecOn (motive := fun (u : State) => u.ports = s.ports) (List.range b.length) _ rfl fun _ h _ _ => h
theorem State.spaceWrite_ports (s : State) (ep sp a : Nat) (b : Bytes) : (s.spaceWrite ep sp a b).ports = s.ports := by
  unfold State.spaceWrite
  split
  · rfl
  · split
    · rfl
    · split
      · exact s.mramPut_ports a b
      · exact s.out_ports _
theorem SameBindings.spaceWrite (h : SameBindings s u) (ep sp a : Nat) (b : Bytes) : SameBindings s (u.spaceWrite ep sp a b) :=
  h.aside (u.spaceWrite_ports ep sp a b)
theorem SameBindings.place (h : SameBindings s u) (q : Nat) (rec : Bytes) : SameBindings s (u.place q rec).2 := by
  unfold State.place
  extract_lets r p a b c
  split
  · exact h
  · split
    · exact h
    · have ha : SameBindings s a := .ite h ((h.spaceWrite _ _ _ _).qadd64 _ _ _)
      have hc : SameBindings s c := (ha.spaceWrite _ _ _ _).modQueue _ _
      dsimp only
      exact (hc.qadd64 _ _ _).notify q
theorem SameBindings.loseCompletion (h : SameBindings s u) (i q : Nat) : SameBindings s (u.loseCompletion i q) :=
  .ite ((h.qadd _ _ _).modQueue _ _) (h.qadd _ _ _)
theorem SameBindings.complete (h : SameBindings s u) (i q : Nat) (rec : Bytes) : SameBindings s (u.complete i q rec) := by
  unfold State.complete
  extract_lets busy p
  have hp : SameBindings s p.2 := by
    dsimp only [p]
    split
    · exact h
    · exact h.place q rec
  split
  · exact h.loseCompletion i q
  · split
    · exact hp
    · exact h.loseCompletion i q
    · exact h.loseCompletion i q
    · exact .ite (h.modSlice _ _) (h.loseCompletion i q)
theorem SameBindings.giveBack (h : SameBindings s u) (o : OpHead) (status value : Nat) : SameBindings s (u.giveBack o status value) := by
  unfold State.giveBack
  split
  · exact .ite (h.modFunc _) h
  · exact h.out _
theorem SameBindings.finish (h : SameBindings s u) (o : OpHead) (i op obj status value : Nat) (descs : Bytes) :
    SameBindings s (u.finish o i op obj status value descs) :=
  .ite (h.giveBack o status value) ((h.giveBack o status value).complete _ _ _)

/-! ### Waiting operations proceed (R245) -/

theorem SameBindings.receiveHead (h : SameBindings s u) {o : OpHead} {op q addr len : Nat} (hv : u.receiveHead o op q addr len = some v) :
    SameBindings s v := by
  unfold State.receiveHead at hv
  extract_lets r i hd n a b c at hv
  have ha : SameBindings s a := .report ((h.modQueue _ _).qadd _ _ _) _
  have hb : SameBindings s b := .report ((h.modQueue _ _).qadd _ _ _) _
  split at hv
  · cases hv
  split at hv
  · cases hv
    exact ha.finish _ _ _ _ _ _ _
  split at hv
  · cases hv
    exact hb.finish _ _ _ _ _ _ _
  split at hv
  · cases hv
    exact h.finish _ _ _ _ _ _ _
  split at hv
  · cases hv
    exact h.finish _ _ _ _ _ _ _
  split at hv
  · cases hv
    exact (h.sramError _).finish _ _ _ _ _ _ _
  · cases hv
    exact .finish ((h.spaceWrite _ _ _ _).modQueue _ _) _ _ _ _ _ _ _
theorem SameBindings.receiveFrom (h : SameBindings s u) {o : OpHead} {addr len : Nat} (hv : u.receiveFrom o addr len = some v) :
    SameBindings s v := by
  unfold State.receiveFrom at hv
  extract_lets i g at hv
  split at hv
  · cases hv
  · obtain ⟨w, hw, rfl⟩ := Option.map_eq_some_iff.1 hv
    exact .ite (h.receiveHead hw) ((h.receiveHead hw).modSlice _ _)
theorem SameBindings.readRound (h : SameBindings s u) (o : OpHead) (addr len : Nat) : SameBindings s (u.readRound o addr len) := by
  unfold State.readRound
  extract_lets q r i n c b bad a
  have ha : SameBindings s a := .ite (h.spaceWrite _ _ _ _) ((h.spaceWrite _ _ _ _).spaceWrite _ _ _ _)
  split
  · exact h.finish _ _ _ _ _ _ _
  · split
    · exact h.finish _ _ _ _ _ _ _
    · split
      · exact (h.sramError _).finish _ _ _ _ _ _ _
      · exact .finish (ha.modQueue _ _) _ _ _ _ _ _ _
/-- A wait that proceeds finishes, with its record placed or its sync object taken from, or it receives. -/
theorem SameBindings.proceed (h : SameBindings s u) {i : Nat} {before : List Waiter} {w : Waiter} (hv : u.proceed i before w = some v) :
    SameBindings s v := by
  unfold State.proceed at hv
  extract_lets o obj ahead r p y at hv
  have hp : SameBindings s p.2 := h.place _ _
  have hfin {a : State} (ha : SameBindings s a) {o : OpHead} {i op obj status value : Nat} {descs : Bytes}
      (e : some (a.finish o i op obj status value descs) = some v) : SameBindings s v := by
    cases e
    exact ha.finish _ _ _ _ _ _ _
  split at hv
  · split at hv
    · exact hfin h hv
    · split at hv
      · cases hv
      · split at hv
        · exact hfin hp hv
        · exact hfin h hv
        · cases hv
  · split at hv
    · split at hv
      · exact hfin h hv
      · split at hv
        · exact hfin h hv
        · exact h.receiveHead hv
    · split at hv
      · split at hv
        · exact hfin h hv
        · exact h.receiveFrom hv
      · split at hv
        · split at hv
          · exact hfin h hv
          · split at hv
            · exact hfin h hv
            · split at hv
              · exact Option.some.inj hv ▸ h.readRound _ _ _
              · cases hv
        · split at hv
          · exact hfin h hv
          · split at hv
            · split at hv
              · exact hfin h hv
              · cases hv
            · split at hv
              · split at hv
                · exact hfin (h.modSync _ _) hv
                · cases hv
              · split at hv
                · exact hfin h hv
                · split at hv
                  · exact hfin h hv
                  · cases hv
theorem SameBindings.proceedAny (h : SameBindings s u) {i : Nat} {l before : List Waiter} (hv : u.proceedAny i before l = some v) :
    SameBindings s v := by
  induction l generalizing before with
  | nil => cases hv
  | cons w r ih =>
    rw [State.proceedAny] at hv
    split at hv
    · next x hx =>
      cases hv
      exact (h.modSlice i _).proceed hx
    · exact ih hv
theorem SameBindings.settleN (h : SameBindings s u) (n : Nat) : SameBindings s (State.settleN n u) := by
  induction n generalizing u with
  | zero => exact h
  | succ n ih =>
    rw [State.settleN]
    split
    · next x hx =>
      obtain ⟨e, _, he⟩ := List.exists_of_findSome?_eq_some hx
      exact ih (h.proceedAny he)
    · exact h
theorem SameBindings.settle (h : SameBindings s u) : SameBindings s u.settle := h.settleN _

/-! ### QNOTIFY, and queues that leave OPEN (R321) -/

theorem State.mayNotify_iff {f q : Nat} : s.mayNotify f q = true ↔
    s.qThere q = true ∧ (s.queue q).state = 1 ∧ (s.queue q).kind = 0 ∧ (s.queue q).reader = f := by
  simp [State.mayNotify, and_assoc]

/-- What QNOTIFY `k` of function `f` holds after a write of `w` (R321). -/
def State.bindingAfter (s : State) (f k w : Nat) : Nat :=
  if s.mayNotify f (w % 2 ^ 20) then (if bit w 31 then 2 ^ 31 + w % 2 ^ 20 else w % 2 ^ 20)
  else mget dZero (s.func f).notify k % 2 ^ 20
theorem exec_qnotify {f k w : Nat} (hf : s.hostSees f = true) (h8 : f ≤ 8) (hk : k < 8) :
    exec (.qnotify f k w) s = .next (s.modFunc f (fun g => { g with notify := mset dZero g.notify k (s.bindingAfter f k w) })) :=
  congrArg Host.Outcome.next (if_neg (by simp [hf, h8, hk]))

/-- What an operation for each number of a list keeps holds after all. -/
theorem each_holds {P : State → Prop} {f : State → Nat → State} (hkeep : ∀ s n, P s → P (f s n)) (l : List Nat) (h : P s) : P (s.each l f) := by
  induction l generalizing s with
  | nil => exact h
  | cons n r ih => exact ih (hkeep s n h)
/-- What an operation for each number of a list keeps, and brings about for number `m` of them, holds after all. -/
theorem each_reaches {P : State → Prop} {f : State → Nat → State} (hkeep : ∀ s n, P s → P (f s n)) {l : List Nat} {m : Nat} (hm : m ∈ l)
    (hP : ∀ s, P (f s m)) (s : State) : P (s.each l f) := by
  induction hm generalizing s with
  | head r => exact each_holds hkeep r (hP s)
  | tail n _ ih => exact ih (f s n)

/-- Is QNOTIFY `k` of function `f` not bound to queue `q`? -/
def State.Unbound (s : State) (q f k : Nat) : Prop := mget dZero (s.func f).notify k ≠ 2 ^ 31 + q
/-- QNOTIFY `k` of function `f` disabled, if it is bound to queue `q`. -/
def State.unbindOne (s : State) (q f k : Nat) : State :=
  if mget dZero (s.func f).notify k = 2 ^ 31 + q then s.modFunc f (fun g => { g with notify := mset dZero g.notify k q }) else s

theorem SameBindings.unbound (h : SameBindings s u) {q f k : Nat} (hs : s.Unbound q f k) : u.Unbound q f k := by
  rw [State.Unbound, h]
  exact hs
theorem State.unbindOne_self (s : State) (q f k : Nat) : (s.unbindOne q f k).Unbound q f k := by
  unfold State.unbindOne
  split
  · rw [State.Unbound, State.func_modFunc_self, mget_mset_self]
    omega
  · assumption
theorem State.unbindOne_keeps {q g j : Nat} (h : s.Unbound q g j) (f k : Nat) : (s.unbindOne q f k).Unbound q g j := by
  by_cases e : f = g ∧ k = j
  · obtain ⟨rfl, rfl⟩ := e
    exact s.unbindOne_self q f k
  · unfold State.unbindOne
    split
    · unfold State.Unbound at *
      by_cases ef : g = f
      · have ek : j ≠ k := fun ek => e ⟨ef.symm, ek.symm⟩
        rwa [ef, State.func_modFunc_self, mget_mset_ne _ _ ek, ← ef]
      · rwa [State.func_modFunc_ne _ ef]
    · exact h
theorem State.unbind_eq (s : State) (q : Nat) :
    s.unbind q = s.each (List.range 9) (fun s f => s.each (List.range 8) (fun s k => s.unbindOne q f k)) := rfl
theorem State.unbind_unbound (s : State) (q : Nat) {f k : Nat} (hf : f < 9) (hk : k < 8) : (s.unbind q).Unbound q f k := by
  have hkeep (g : Nat) (s : State) (j : Nat) (h : s.Unbound q f k) : (s.unbindOne q g j).Unbound q f k := State.unbindOne_keeps h g j
  rw [State.unbind_eq]
  refine each_reaches (P := (State.Unbound · q f k)) ?_ (List.mem_range.2 hf) ?_ s
  · exact fun s g h => each_holds (P := (State.Unbound · q f k)) (hkeep g) _ h
  · exact each_reaches (P := (State.Unbound · q f k)) (hkeep f) (List.mem_range.2 hk) (fun s => s.unbindOne_self q f k)
theorem State.orphan_unbound (s : State) (q : Nat) {f k : Nat} (hf : f < 9) (hk : k < 8) : (s.orphan q).Unbound q f k :=
  ((SameBindings.refl _).modQueue q _).unbound (s.unbind_unbound q hf hk)
theorem State.dropQueue_unbound (s : State) (q : Nat) {f k : Nat} (hf : f < 9) (hk : k < 8) : (s.dropQueue q).Unbound q f k :=
  ((SameBindings.refl _).modQueue q _).unbound ((s.returnAll q).unbind_unbound q hf hk)

theorem exec_detach {h : OpHead} (hb : (s.at h.t).barred h = false) (hq : (s.at h.t).qThere h.object = true)
    (hs : ((s.at h.t).queue h.object).state ≠ 0) (hr : ((s.at h.t).queue h.object).reader = h.issuer) :
    exec (.detach h) s = .next ((((s.at h.t).orphan h.object).settle.finish h (h.object / 16384) 4 h.object qOk 0 []).settle) := by
  have hfree : ¬ ((s.at h.t).barred h = true ∨ (!(s.at h.t).qThere h.object) = true ∨ ((s.at h.t).queue h.object).state = 0) := by
    simp [hb, hq, hs]
  exact congrArg (fun u => Host.Outcome.next (State.settle u)) ((if_neg hfree).trans (if_neg (not_not.2 hr)))
theorem exec_queueDestroy {h : OpHead} (hb : (s.at h.t).barred h = false) (hq : (s.at h.t).qThere h.object = true)
    (hs : ((s.at h.t).queue h.object).state ≠ 0) (ho : ((s.at h.t).queue h.object).owner = h.issuer) :
    exec (.queueDestroy h) s = .next ((((s.at h.t).dropQueue h.object).finish h (h.object / 16384) 2 h.object qOk
      ((s.at h.t).messages ((s.at h.t).queue h.object)).length []).settle) := by
  have hfree : ¬ ((s.at h.t).barred h = true ∨ (!(s.at h.t).qThere h.object) = true ∨ ((s.at h.t).queue h.object).state = 0) := by
    simp [hb, hq, hs]
  exact congrArg (fun u => Host.Outcome.next (State.settle u)) ((if_neg hfree).trans (if_neg (not_not.2 ho)))

/-- Settles O44: the write of QNOTIFY by cases on the queue, and no operation after the end of a binding makes one. -/
theorem notifyBindingsFollowTheirQueue : Obligations.NotifyBindingsFollowTheirQueue := by
  unfold Obligations.NotifyBindingsFollowTheirQueue
  refine ⟨fun s f k w => ?_, fun s f k w => ?_, fun s h => ?_, fun s h => ?_⟩
  · intro q hf h8 hk hen hmay
    rw [exec_qnotify hf h8 hk, State.bindingAfter, if_pos (State.mayNotify_iff.2 hmay), if_pos hen]
  · intro q hf h8 hk hen hmay
    rw [exec_qnotify hf h8 hk, State.bindingAfter, if_neg]
    rw [State.mayNotify_iff, not_and_or, not_and_or, not_and_or, Bool.not_eq_true]
    exact hmay
  · intro a q hb hq hs hr
    refine ⟨_, exec_detach hb hq hs hr, fun f k hf hk => ?_⟩
    exact (((SameBindings.refl _).settle.finish _ _ _ _ _ _ _).settle).unbound (a.orphan_unbound h.object hf hk)
  · intro a q hb hq hs ho
    refine ⟨_, exec_queueDestroy hb hq hs ho, fun f k hf hk => ?_⟩
    exact (((SameBindings.refl _).finish _ _ _ _ _ _ _).settle).unbound (a.dropQueue_unbound h.object hf hk)

end Sys2Proof.Machine
end

section
/-!
PROOFS of the statements on ports (spec 12): data ports, their connections and what arrives over them (O25).
-/

namespace Sys2Proof.Machine

variable {s u v : State}

/-! ### What follows a change of a data port's links -/

/-- From `s` to `u` the time counter may have lost its source, and causes, requests and answers have left the part: no data port has changed,
and no entry but TIME_STATE and the count of requests. -/
structure Announced (s u : State) : Prop where
  only : u = { s with clk := u.clk, dict := u.dict, ports := u.ports, outbox := u.outbox }
  data : u.ports.data = s.ports.data
  dget : ∀ k, k ≠ kTimeState → k ≠ kDictRequests → u.dget k = s.dget k

theorem Announced.refl (s : State) : Announced s s := ⟨rfl, rfl, fun _ _ _ => rfl⟩
theorem Announced.trans (h : Announced s u) (k : Announced u v) : Announced s v where
  only := by
    have := k.only
    rw [h.only] at this
    exact this
  data := k.data.trans h.data
  dget x hx hy := (k.dget x hx hy).trans (h.dget x hx hy)
theorem Announced.ite {p : Prop} [Decidable p] {a b : State} (ha : Announced s a) (hb : Announced s b) : Announced s (if p then a else b) := by
  split <;> assumption
theorem Announced.dataPort (h : Announced s u) (p : Nat) : u.dataPort p = s.dataPort p := by rw [State.dataPort, h.data, State.dataPort]

theorem State.announced_outs (s : State) (l : List Output) : Announced s (s.outs l) := by
  rw [State.outs_eq]
  exact ⟨rfl, rfl, fun _ _ _ => rfl⟩
/-- A cause rises, and its message leaves: nothing else (R320). -/
theorem State.raiseCause_only (s : State) (f b : Nat) : s.raiseCause f b =
    { s with ports := { s.ports with funcs := (s.raiseCause f b).ports.funcs }, outbox := (s.raiseCause f b).outbox } := by
  unfold State.raiseCause
  extract_lets g a
  split
  · rfl
  · split
    · rfl
    · rw [State.out, State.outs_eq]
      rfl
theorem State.clk_raiseCause (s : State) (f b : Nat) : (s.raiseCause f b).clk = s.clk := by rw [State.raiseCause_only]
theorem State.dget_raiseCause (s : State) (f b k : Nat) : (s.raiseCause f b).dget k = s.dget k := by
  rw [State.raiseCause_only]
  rfl
theorem State.announced_raiseCause (s : State) (f b : Nat) : Announced s (s.raiseCause f b) := by
  rw [State.raiseCause_only]
  exact ⟨rfl, rfl, fun _ _ _ => rfl⟩
theorem State.announced_answer (s : State) (r : Requester) (k code : Nat) : Announced s (s.answer r k code) := by
  refine ⟨?_, ?_, fun j _ hj => s.dget_answer hj r k code⟩
  · rw [State.answer_only]
  · rw [State.answer_only]
theorem State.announced_holdover (s : State) : Announced s s.holdover :=
  .ite ⟨rfl, rfl, fun _ hk _ => s.dget_dset_ne hk 2⟩ (.refl s)
theorem State.announced_timePortDown (s : State) (code : Nat) : Announced s (s.timePortDown code) := .ite s.announced_holdover (.refl s)

/-- HOLDOVER comes only of the port that TIME_PORT names, and from SYNCED (R342). -/
theorem State.timePortDown_of_idle {code : Nat} (h : s.dget kTimePort ≠ code ∨ s.dget kTimeState ≠ 1) : s.timePortDown code = s := by
  unfold State.timePortDown
  split
  · exact if_neg (h.resolve_left (not_not.2 ‹_›))
  · rfl
theorem State.timePortDown_state {code : Nat} (h : s.dget kTimePort = code) : (s.timePortDown code).dget kTimeState ≠ 1 := by
  rw [State.timePortDown, if_pos h, State.holdover]
  split
  · rw [State.dget_modClk, State.dget_dset_self]
    decide
  · assumption

/-! ### PORT_ENABLE (R329) -/

theorem exec_portEnable {r : Requester} {p x t : Nat} (hp : p < 2) (h : (s.at t).Accepts r (kPortEnable p) x) :
    exec (.portEnable r p x t) s = .next (((s.at t).doPortEnable p x).2.answer r (kPortEnable p) ((s.at t).doPortEnable p x).1) :=
  congrArg Host.Outcome.next ((if_neg (Nat.not_le_of_lt hp)).trans (State.typed_of_accepts _ h))

/-- A port as a changed PORT_ENABLE leaves it: without lanes, in training or down. -/
def State.portStarted (s : State) (p x : Nat) : State :=
  (((s.dset (kPortEnable p) x).dclear (kPortWidth p)).dclear (kPortLanes p)).modDataPort p (fun _ => { training := x == 1 })

theorem State.doPortEnable_same {p x : Nat} (hx : x < 2) (h : s.dget (kPortEnable p) = x) : s.doPortEnable p x = (stOk, s) := by
  rw [State.doPortEnable, if_neg (Nat.not_le_of_lt hx), if_pos h.symm]
theorem State.doPortEnable_on {p : Nat} (h : s.dget (kPortEnable p) = 0) : s.doPortEnable p 1 =
    (stOk, if (List.range 4).any (fun k => s.subUp p k) = true then (s.portStarted p 1).portEvent else s.portStarted p 1) := by
  rw [State.doPortEnable, h]
  rfl
theorem State.doPortEnable_off {p : Nat} (h : s.dget (kPortEnable p) = 1) : s.doPortEnable p 0 =
    (stOk, if (List.range 4).any (fun k => s.subUp p k) = true then ((s.portStarted p 0).timePortDown (dataCode p)).portEvent
      else (s.portStarted p 0).timePortDown (dataCode p)) := by
  rw [State.doPortEnable, h]
  rfl

theorem State.dget_portStarted {p x k : Nat} (he : k ≠ kPortEnable p) (hw : k ≠ kPortWidth p) (hl : k ≠ kPortLanes p) :
    (s.portStarted p x).dget k = s.dget k := by
  rw [State.portStarted, State.dget_modDataPort, State.dget_dclear_ne _ hl, State.dget_dclear_ne _ hw, State.dget_dset_ne _ he]
theorem State.dget_portStarted_enable (s : State) (p x : Nat) : (s.portStarted p x).dget (kPortEnable p) = x := by
  rw [State.portStarted, State.dget_modDataPort, State.dget_dclear_ne, State.dget_dclear_ne, State.dget_dset_self]
  · simp only [kPortEnable, kPortWidth]
    omega
  · simp only [kPortEnable, kPortLanes]
    omega

/-- A port taken out: it is down, and the time counter loses it. -/
theorem portEnable_off {r : Requester} {p t : Nat} (hp : p < 2) (h : (s.at t).Accepts r (kPortEnable p) 0)
    (h1 : (s.at t).dget (kPortEnable p) = 1) : let b := (s.at t).portStarted p 0
    ∃ u, exec (.portEnable r p 0 t) s = .next u ∧ Announced b u ∧ u.clk = (b.timePortDown (dataCode p)).clk ∧
      u.dget kTimeState = (b.timePortDown (dataCode p)).dget kTimeState := by
  intro b
  refine ⟨_, exec_portEnable hp h, ?_, ?_, ?_⟩ <;> rw [State.doPortEnable_off h1] <;> dsimp only
  · exact ((b.announced_timePortDown (dataCode p)).trans (.ite (State.announced_raiseCause _ _ _) (.refl _))).trans (State.announced_answer _ _ _ _)
  · rw [State.answer_only]
    split
    · exact State.clk_raiseCause _ _ _
    · rfl
  · rw [State.dget_answer (by decide)]
    split
    · exact State.dget_raiseCause _ _ _ _
    · rfl

/-! ### Training (R329, R330) -/

theorem exec_portRetrain {p fec t : Nat} (hp : p < 2) (ht : ((s.at t).dataPort p).training = false)
    (hup : ∃ k, k < 4 ∧ (s.at t).subUp p k = true) : exec (.portRetrain p fec t) s = .next (
      let b := (s.at t).dadd64 (kFecUncorrected p) fec
      if 1 ≤ fec ∧ fec ≤ 16 then b else ((b.modDataPort p (fun q => { q with training := true })).dadd (kRetrains p) 1).portEvent) := by
  obtain ⟨k, hk, hs⟩ := hup
  have hany : (List.range 4).any (fun k => (s.at t).subUp p k) = true := List.any_eq_true.2 ⟨k, List.mem_range.2 hk, hs⟩
  refine congrArg Host.Outcome.next (if_neg ?_)
  rw [ht, hany]
  simpa using hp

/-- The lanes that PORT_MODE gives a subport. -/
def ownLanes (mode sub : Nat) : Nat := if mode = 0 then 15 else if mode = 1 then 3 * 4 ^ sub else 2 ^ sub
/-- A data port once a subport's training has ended on the lanes `run`. -/
def DataPort.trained (q : DataPort) (mode sub run : Nat) : DataPort :=
  { q with
    training := false
    up := mset dDown q.up sub (run != 0)
    lanes := q.lanes - (q.lanes &&& ownLanes mode sub) + run
    allowed := if run = 0 then q.allowed else q.allowed - (q.allowed &&& ownLanes mode sub) + run }
/-- The port and its entries once a subport's training has ended on the lanes `run`. -/
def State.subTrained (s : State) (p sub run : Nat) : State :=
  let s := s.modDataPort p (fun q => q.trained (s.dget (kPortMode p)) sub run)
  let s := s.dset (kPortLanes p) (s.dataPort p).lanes
  if sub = 0 then s.dset (kPortWidth p) (100 * (maskList 4 run).length) else s

theorem State.subTrained_only (s : State) (p sub run : Nat) :
    s.subTrained p sub run = { s with dict := (s.subTrained p sub run).dict, ports := (s.subTrained p sub run).ports } := by
  unfold State.subTrained
  extract_lets a b
  split <;> rfl
theorem State.dataPort_subTrained (s : State) (p sub run j : Nat) : (s.subTrained p sub run).dataPort j =
    (s.modDataPort p (fun q => q.trained (s.dget (kPortMode p)) sub run)).dataPort j := by
  unfold State.subTrained
  extract_lets a b
  split <;> rfl
theorem State.dget_subTrained_lanes (s : State) (p sub run : Nat) :
    (s.subTrained p sub run).dget (kPortLanes p) = ((s.subTrained p sub run).dataPort p).lanes := by
  rw [State.dataPort_subTrained]
  unfold State.subTrained
  extract_lets a b
  have hb : b.dget (kPortLanes p) = (a.dataPort p).lanes := State.dget_dset_self _ _ _
  split
  · have hne : kPortLanes p ≠ kPortWidth p := by simp only [kPortLanes, kPortWidth]; omega
    rw [State.dget_dset_ne _ hne, hb]
  · exact hb
theorem State.dget_subTrained_width (s : State) (p run : Nat) :
    (s.subTrained p 0 run).dget (kPortWidth p) = 100 * (maskList 4 run).length := by
  rw [State.subTrained, if_pos rfl, State.dget_dset_self]

theorem exec_dataPortLinkUp {p sub lanes : Nat} (hp : p < 2) (hi : s.iodOn = true) (hs : sub < subports (s.dget (kPortMode p)))
    (he : s.dget (kPortEnable p) ≠ 0) (ht : (s.dataPort p).training = true) : exec (.dataPortLinkUp p sub lanes) s = .next (
      let b := s.subTrained p sub (runLanes (s.dget (kPortMode p)) sub (lanes &&& (s.dataPort p).allowed))
      let c := (if b.subUp p 0 then b else b.timePortDown (dataCode p)).sendReqs p
      if s.subUp p sub = c.subUp p sub then c else c.portEvent) := by
  refine congrArg Host.Outcome.next (if_neg ?_)
  rw [hi, ht]
  simp [hp, hs, he]

/-- A subport's training ends: what follows it changes no data port and no entry but TIME_STATE. -/
theorem dataPortLinkUp_trains {p sub lanes : Nat} (hp : p < 2) (hi : s.iodOn = true) (hs : sub < subports (s.dget (kPortMode p)))
    (he : s.dget (kPortEnable p) ≠ 0) (ht : (s.dataPort p).training = true) : ∃ u, exec (.dataPortLinkUp p sub lanes) s = .next u ∧
      Announced (s.subTrained p sub (runLanes (s.dget (kPortMode p)) sub (lanes &&& (s.dataPort p).allowed))) u := by
  refine ⟨_, exec_dataPortLinkUp hp hi hs he ht, ?_⟩
  extract_lets b c
  have hc : Announced b c := Announced.trans (.ite (.refl b) (b.announced_timePortDown _)) (State.announced_outs _ _)
  exact .ite hc (hc.trans (c.announced_raiseCause 0 3))

/-! ### Connections (R331) -/

/-- What arrives on a data port that is up reaches the part. -/
theorem portUp_heard {p : Nat} (hp : p < 2) (hup : s.portUp p = true) : ¬ (2 ≤ p ∨ (!s.portUp p) = true) := by simp [hp, hup]

theorem exec_cmReq {p service peer qpn t : Nat} (hp : p < 2) (hup : (s.at t).portUp p = true) : exec (.cmReq p service peer qpn t) s = .next (
      if (s.at t).cmAccepts p service peer then
        ((s.at t).modDataPort p (fun q => { q with conns := mset dNone q.conns service (some ⟨qpn, peer, false⟩) })).out (.cm p 2 service)
      else ((s.at t).dadd (kCmRefused p) 1).out (.cm p 3 service)) :=
  congrArg Host.Outcome.next (if_neg (portUp_heard hp hup))

theorem exec_cmMessage_rep {p qpn : Nat} (hp : p < 2) (hup : s.portUp p = true) (hc : mget dNone (s.dataPort p).conns qpn = none)
    (hq : 0x010000 ≤ qpn ∧ qpn < 0x010200 ∧ peerValid (s.peer ((qpn - 0x010000) / 64) (qpn % 64)) = true ∧
      peerPort (s.peer ((qpn - 0x010000) / 64) (qpn % 64)) = p) :
    let v := s.peer ((qpn - 0x010000) / 64) (qpn % 64)
    exec (.cmMessage p .rep qpn) s = .next ((s.modDataPort p (fun q => { q with
      conns := mset dNone q.conns qpn (some ⟨peerQpn v, peerId v, true⟩), slowed := q.slowed.filter (· != qpn) })).out (.cm p 4 qpn)) := by
  refine congrArg Host.Outcome.next ((if_neg (portUp_heard hp hup)).trans ?_)
  rw [hc]
  exact if_pos hq

/-! ### What arrives over a data port (R327, R330, R332) -/

theorem State.portUp_ecnMarked (s : State) (ecn : Bool) (p q j : Nat) : (s.ecnMarked ecn p q).portUp j = s.portUp j := by
  unfold State.ecnMarked
  split
  · rw [State.out, State.outs_eq]
    rfl
  · rfl
theorem exec_rdmaWrite {p rkey addr t : Nat} {m : LoadPath} {data : Bytes} (hp : p < 2)
    (hup : ((s.at t).ecnMarked m.ecn p m.qpn).portUp p = true) : let a := (s.at t).ecnMarked m.ecn p m.qpn
    exec (.rdmaWrite p m rkey addr data t) s = .next (if a.rdmaOk p m.qpn rkey addr data.length then a.lpWrite addr data
      else (a.dadd (kRdmaRefused p) 1).out (.roceNak p m.qpn 2)) := by
  rw [State.portUp_ecnMarked] at hup
  exact congrArg Host.Outcome.next (if_neg (portUp_heard hp hup))

theorem exec_congestionNotification {p qpn : Nat} (hc : s.connected p qpn = true) (hq : qpn ∉ (s.dataPort p).slowed) :
    exec (.congestionNotification p qpn) s = .next (s.modDataPort p (fun q => { q with slowed := q.slowed ++ [qpn] })) :=
  congrArg Host.Outcome.next (if_pos (by simp [hc, hq]))

theorem exec_neighbourSolicitation {p k : Nat} {data : Bytes} (hp : p < 2) (hup : s.portUp p = true) (hk : k < subports (s.dget (kPortMode p)))
    (hs : s.subUp p k = true) (ha : (s.subAddr p k).take 16 = data.take 16) :
    exec (.icmpv6Message p .neighbourSolicitation data) s = .next (s.out (.icmp (dataCode p) 136 data)) := by
  have hmine : (List.range (subports (s.dget (kPortMode p)))).any (fun k => s.subUp p k && (s.subAddr p k).take 16 == data.take 16) = true :=
    List.any_eq_true.2 ⟨k, List.mem_range.2 hk, by rw [hs, ha]; simp⟩
  exact congrArg Host.Outcome.next ((if_neg (portUp_heard hp hup)).trans (if_pos hmine))

/-- Settles O25, command by command. -/
theorem dataPortsConnectAndWrite : Obligations.DataPortsConnectAndWrite := by
  unfold Obligations.DataPortsConnectAndWrite
  refine ⟨fun s r p t => ?_, fun s r p t => ?_, fun s r p x t => ?_, fun s p fec t => ?_, fun s p fec t => ?_, fun s p service peer qpn t => ?_,
    fun s p service peer qpn t => ?_, fun s p qpn c => ?_, fun s p qpn => ?_, fun s p m rkey addr t data => ?_, fun s p m rkey addr t data => ?_,
    fun s p qpn => exec_congestionNotification, fun s p data => ?_, fun s p k data => ?_, fun s p sub lanes => ?_⟩
  · intro a hp h h0
    rw [exec_portEnable hp h, State.doPortEnable_on h0]
    rfl
  · intro a hp h h1
    obtain ⟨u, hu, han, hclk, hstate⟩ := portEnable_off hp h h1
    have hport : (a.portStarted p 0).dget kTimePort = a.dget kTimePort := by
      apply State.dget_portStarted <;> simp only [kTimePort, kPortEnable, kPortWidth, kPortLanes] <;> omega
    have htime : (a.portStarted p 0).dget kTimeState = a.dget kTimeState := by
      apply State.dget_portStarted <;> simp only [kTimeState, kPortEnable, kPortWidth, kPortLanes] <;> omega
    refine ⟨u, hu, ?_, ?_, ?_, fun hidle => ?_, fun hmine => ?_, fun k he hw hl ht hr => ?_, ?_⟩
    · rw [han.dget, State.dget_portStarted_enable] <;> simp only [kTimeState, kPortEnable, kDictRequests] <;> omega
    · exact (han.dataPort p).trans (State.dataPort_modDataPort_self _ _ _)
    · exact (han.dataPort _).trans (State.dataPort_modDataPort_ne _ (by omega) _)
    · rw [hclk, State.timePortDown_of_idle (by rwa [hport, htime])]
      rfl
    · rw [hstate]
      exact State.timePortDown_state (hport.trans hmine)
    · rw [han.dget k ht hr, State.dget_portStarted he hw hl]
    · exact han.only
  · intro a hp hx h hsame
    rw [exec_portEnable hp h, State.doPortEnable_same hx hsame]
  · intro a hp ht hup hfec
    rw [exec_portRetrain hp ht hup]
    exact congrArg Host.Outcome.next (if_neg (by omega))
  · intro a hp ht hup hlo hhi
    rw [exec_portRetrain hp ht hup]
    exact congrArg Host.Outcome.next (if_pos ⟨hlo, hhi⟩)
  · intro a hp hup hok
    rw [exec_cmReq hp hup, if_pos hok]
  · intro a hp hup hbad
    rw [exec_cmReq hp hup, if_neg (Bool.eq_false_iff.1 hbad)]
  · intro hp hup hc
    refine ⟨?_, ?_, ?_⟩ <;> refine congrArg Host.Outcome.next ((if_neg (portUp_heard hp hup)).trans ?_) <;> rw [hc]
  · exact fun hp hup hc hlo hhi hvalid hport => exec_cmMessage_rep hp hup hc ⟨hlo, hhi, hvalid, hport⟩
  · intro a hp hup hok
    refine ⟨_, (exec_rdmaWrite hp hup).trans (congrArg Host.Outcome.next (if_pos hok)), fun j hj => a.lpRead_lpWrite_inside addr hj,
      fun y hy => a.lpRead_lpWrite_outside hy, a.lpWrite_only addr data, a.lpWrite_mem_only addr data⟩
  · intro a hp hup hbad
    exact (exec_rdmaWrite hp hup).trans (congrArg Host.Outcome.next (if_neg (Bool.eq_false_iff.1 hbad)))
  · exact fun hp hup => congrArg Host.Outcome.next (if_neg (portUp_heard hp hup))
  · exact fun hp hup hk _ hs ha => exec_neighbourSolicitation hp hup hk hs ha
  · intro mode run hp hi hs he ht
    obtain ⟨u, hu, han⟩ := dataPortLinkUp_trains (lanes := lanes) hp hi hs he ht
    have hdp : u.dataPort p = (s.dataPort p).trained mode sub run := by
      rw [han.dataPort, State.dataPort_subTrained, State.dataPort_modDataPort_self]
    refine ⟨u, hu, ?_, fun k => ?_, ?_, fun h0 => ?_, ?_, ?_, ?_⟩
    · rw [hdp]
      rfl
    · rw [hdp]
      exact mget_mset _ _ _ _ _
    · rw [han.dataPort, han.dget, State.dget_subTrained_lanes] <;> simp only [kPortLanes, kTimeState, kDictRequests] <;> omega
    · subst h0
      rw [han.dget, State.dget_subTrained_width] <;> simp only [kPortWidth, kTimeState, kDictRequests] <;> omega
    · rw [hdp]
      rfl
    · rw [han.dataPort, State.dataPort_subTrained, State.dataPort_modDataPort_ne _ (by omega)]
    · rw [han.only, State.subTrained_only]

end Sys2Proof.Machine
end

section
/-!
PROOFS of the statements on ports (spec 12): the field ring, rope control and cyclic output objects (O26).
-/

namespace Sys2Proof.Machine

variable {s u v : State}

/-! ### The field ports (R334, R336) -/

theorem exec_fieldFrame {p dst len t : Nat} {cls : FrameClass} {body : Bytes} (hp : p < 2) (hin : (s.at t).bridgeDue.fieldUp p = true)
    (hout : (s.at t).bridgeDue.fieldUp (1 - p) = true) (hd : dst ≠ fieldMac p) : exec (.fieldFrame p dst cls len body t) s = .next (
      let a := (s.at t).bridgeDue
      if bridgeBytes < ((a.bridgeOf (1 - p)).map (·.len)).foldl (· + ·) 0 + len then a.dadd kRopeFwdDrops 1
      else a.takeFree.2.modPorts (fun q => { q with bridge := mmod dFrames q.bridge (1 - p) (· ++
        [{ cls := cls, len := len, body := body, arrived := a.now, leaves := a.now + a.takeFree.1.toNat % 5001 }]) })) := by
  refine congrArg Host.Outcome.next (if_neg ?_)
  simp [hp, hin, hout, hd]
theorem exec_fieldLinkDown {p t : Nat} (hp : p < 2) (hup : (s.at t).fieldUp p = true) : exec (.fieldLinkDown p t) s = .next
    ((((((s.at t).dset (if p = 0 then kF0Link else kF1Link) 0).dadd kLinkDowns 1).ropeSend 2 p [1 - p]).timePortDown p).raiseCause 0 3) :=
  congrArg Host.Outcome.next (if_neg (by simp [hp, hup]))
theorem exec_fieldLinkUp {p t : Nat} (hp : p < 2) (hdown : (s.at t).fieldUp p = false) : exec (.fieldLinkUp p t) s = .next
    (((s.at t).dset (if p = 0 then kF0Link else kF1Link) 1).raiseCause 0 3) :=
  congrArg Host.Outcome.next (if_neg (by simp [hp, hdown]))

/-! ### Checks and announcements (R336 to R338) -/

/-- The address that HOPS of the first check frame gives (R337). -/
theorem State.takeAddress_hops (s : State) (hops : Nat) : s.takeAddress (hops + 2) =
    if hops ≤ 61 then (s.dset kNodeAddress (hops + 2)).dset kNodeState 0 else (s.dset kNodeAddress 0).dset kNodeState 1 :=
  if_congr (by omega) rfl rfl
/-- A check frame of the primary in a state that has noted it: the first gives the address, under POSITION. -/
theorem exec_ropeCheck_primary (s : State) (hops t : Nat) : exec (.ropeCheck true hops t) s = .next (
    let a := (s.at t).modPorts (fun p => { p with checkAt := max p.checkAt t })
    let b := a.modPorts (fun p => { p with hops := some hops })
    if a.ports.hops ≠ none then a else if a.dget kAddrMode ≠ 0 then b else b.takeAddress (hops + 2)) := by
  refine congrArg Host.Outcome.next ?_
  generalize (s.at t).modPorts (fun p => { p with checkAt := max p.checkAt t }) = a
  by_cases hfirst : a.ports.hops = none
  · simp [hfirst] <;> rfl
  · simp [hfirst, Option.isNone_iff_eq_none]

/-! ### STATE (R336, R339) -/

/-- The entries that STATE writes. -/
def ropeKeys : List Nat := [kRopeState, kPresentNodes, kLostNodes]

/-- From `s` to `u` partitions have noted peers lost or present, and warnings, requests and causes have left: no sequencer has changed, no
queue, sync object or memory, and no entry that STATE writes. -/
structure PeersNoted (s u : State) : Prop extends SeqKept s u, Aside s u where
  entries : ∀ k ∈ ropeKeys, u.dget k = s.dget k

theorem PeersNoted.refl (s : State) : PeersNoted s s := ⟨.refl s, .refl s, fun _ _ => rfl⟩
theorem PeersNoted.trans (h : PeersNoted s u) (k : PeersNoted u v) : PeersNoted s v :=
  ⟨h.toSeqKept.trans k.toSeqKept, h.toAside.trans k.toAside, fun x hx => (k.entries x hx).trans (h.entries x hx)⟩
theorem PeersNoted.each {f : State → Nat → State} (hf : ∀ s n, PeersNoted s (f s n)) (l : List Nat) (s : State) : PeersNoted s (s.each l f) := by
  induction l generalizing s with
  | nil => exact .refl s
  | cons n r ih => exact (hf s n).trans (ih (f s n))
theorem Warned.peersNoted (h : Warned s u) : PeersNoted s u := by
  refine ⟨⟨fun n => ?_⟩, ?_, fun k hk => h.dget k ?_⟩
  · rw [h.part]
    exact ⟨rfl, rfl, rfl⟩
  · rw [h.only]
    exact State.mk_as (Aside.refl s)
  · revert k
    decide
theorem State.peersNoted_modPart (s : State) (n : Nat) (f : Part → Part)
    (hf : ∀ p, (f p).seq = p.seq ∧ (f p).state = p.state ∧ (f p).mask = p.mask) : PeersNoted s (s.modPart n f) :=
  ⟨State.modPart_sq n hf (.refl s), State.modPart_as n f (.refl s), fun _ _ => rfl⟩

/-- Partition `p` notes that peer `k` is down. -/
def Part.peerDowned (k : Nat) (p : Part) : Part := { p with peerDown := p.peerDown ++ [k] }
/-- Partition `p` notes that peer `k` is lost. -/
def Part.peerLost (k : Nat) (p : Part) : Part := { p with peerOut := p.peerOut.filter (fun e => e.1 != k) ++ [(k, none)] }
/-- Partition `p` notes that peer `k` is present again. -/
def Part.peerFound (k : Nat) (p : Part) : Part :=
  { p with peerOut := p.peerOut.map (fun e => if e.1 == k && e.2.isNone then (k, some p.seq.pitch) else e) }

theorem State.losePeer_eq (s : State) (n k : Nat) : s.losePeer n k =
    if (s.part n).peerDown.contains k then s else (s.modPart n (Part.peerDowned k)).warn 0x000B n k := rfl
theorem State.nodeLost_eq (s : State) (a : Nat) : s.nodeLost a = (s.warn 0x0005 0xFF a).each (List.range 8) (fun s n =>
    s.each ((List.range 64).filter (fun k => s.peerNode n k == a)) (fun s k => (s.modPart n (Part.peerLost k)).losePeer n k)) := rfl
theorem State.nodeBack_eq (s : State) (a : Nat) : s.nodeBack a = ((s.each (List.range 8) (fun s n =>
    s.each ((List.range 64).filter (fun k => s.peerNode n k == a)) (fun s k => s.modPart n (Part.peerFound k)))).sendReqs 0).sendReqs 1 := rfl

theorem State.peersNoted_losePeer (s : State) (n k : Nat) : PeersNoted s (s.losePeer n k) := by
  rw [State.losePeer_eq]
  split
  · exact .refl s
  · exact (s.peersNoted_modPart n (Part.peerDowned k) fun _ => ⟨rfl, rfl, rfl⟩).trans (State.warned_warn _ _ _ _).peersNoted
theorem State.peersNoted_nodeLost (s : State) (a : Nat) : PeersNoted s (s.nodeLost a) := by
  rw [State.nodeLost_eq]
  refine (State.warned_warn s _ _ _).peersNoted.trans (.each (fun s n => .each (fun s k => ?_) _ s) _ _)
  exact (s.peersNoted_modPart n (Part.peerLost k) fun _ => ⟨rfl, rfl, rfl⟩).trans (State.peersNoted_losePeer _ n k)
theorem State.peersNoted_nodeBack (s : State) (a : Nat) : PeersNoted s (s.nodeBack a) := by
  rw [State.nodeBack_eq]
  refine (PeersNoted.each (fun s n => .each (fun s k => ?_) _ s) _ s).trans
    ((Warned.outs _ _).peersNoted.trans (Warned.outs _ _).peersNoted)
  exact s.peersNoted_modPart n (Part.peerFound k) fun _ => ⟨rfl, rfl, rfl⟩

/-- STATE as the dictionary mirrors it. -/
def State.mirrored (s : State) (rope present lost : Nat) : State :=
  ((s.dset kRopeState rope).dset kPresentNodes (present % 2 ^ 64)).dset kLostNodes (lost % 2 ^ 64)
theorem State.dget_mirrored (s : State) (rope present lost : Nat) : (s.mirrored rope present lost).dget kRopeState = rope ∧
    (s.mirrored rope present lost).dget kPresentNodes = present % 2 ^ 64 ∧ (s.mirrored rope present lost).dget kLostNodes = lost % 2 ^ 64 := by
  have hrp : kRopeState ≠ kPresentNodes := by decide
  have hrl : kRopeState ≠ kLostNodes := by decide
  have hpl : kPresentNodes ≠ kLostNodes := by decide
  refine ⟨?_, ?_, ?_⟩ <;> simp [State.mirrored, State.dget_dset_ne, hrp, hrl, hpl]
theorem ropeState_mirrors {rope : Nat} (present lost t : Nat) (hr : rope ≤ 1) : ∃ u, exec (.ropeState rope present lost t) s = .next u ∧
    PeersNoted ((s.at t).mirrored rope present lost) u := by
  refine ⟨_, congrArg Host.Outcome.next (if_neg (Nat.not_lt_of_le hr)), ?_⟩
  extract_lets oldP oldL changed b c d
  have hd : PeersNoted b d := (PeersNoted.each State.peersNoted_nodeLost _ b).trans (.each State.peersNoted_nodeBack _ c)
  split
  · exact hd.trans (State.warned_raiseCause _ _ _).peersNoted
  · exact hd

/-! ### Cyclic output objects (R343, R344) -/

theorem exec_objEnable {r : Requester} {j x t : Nat} (hj : j < 32) (h : (s.at t).Accepts r (kObjEnable j) x) :
    exec (.objEnable r j x t) s = .next (((s.at t).doObjEnable j x).2.answer r (kObjEnable j) ((s.at t).doObjEnable j x).1) :=
  congrArg Host.Outcome.next ((if_neg (Nat.not_le_of_lt hj)).trans (State.typed_of_accepts _ h))
theorem State.doObjEnable_off (s : State) (j : Nat) :
    s.doObjEnable j 0 = (stOk, (s.dset (kObjEnable j) 0).dset kObjEnabled (setBit (s.dget kObjEnabled) j false)) := by
  simp [State.doObjEnable]
/-- A well-formed object: its groups stand in slices that are present and are its partition's, and it fits its destination (R343). -/
theorem State.doObjEnable_on {j : Nat} (hg : s.objGroups j ≠ []) (hd : s.dget (kObjDest j) ≠ 0)
    (hown : ∀ g ∈ s.objGroups j, s.slicePresent (g % 64) = true ∧ s.holder (32 + g) = some (s.dget (kObjPartition j)))
    (hsize : s.objSize j ≤ s.objLimit j) :
    s.doObjEnable j 1 = (stOk, (s.dset (kObjEnable j) 1).dset kObjEnabled (setBit (s.dget kObjEnabled) j true)) := by
  have hany : (s.objGroups j).any (fun g => !s.slicePresent (g % 64) || s.holder (32 + g) != some (s.dget (kObjPartition j))) = false := by
    refine List.any_eq_false.2 fun g hg => ?_
    obtain ⟨hpresent, hholder⟩ := hown g hg
    simp [hpresent, hholder]
  have hempty : (s.objGroups j).isEmpty = false := by simpa using hg
  have hfit : ¬ s.objLimit j < s.objSize j := Nat.not_lt_of_le hsize
  unfold State.doObjEnable
  rw [hany, hempty]
  simp [hd, hfit]

theorem exec_objectTransmit {j t p : Nat} (hp : (s.at t).objPitch j = some p) (hset : (s.at t).objSet j = true)
    (hmay : (s.at t).objMay j = true) (hrun : running ((s.at t).part ((s.at t).dget (kObjPartition j))) = true) :
    exec (.objectTransmit j t) s = .next ((((s.at t).deliver j (some p)).modObj j (fun o => { o with
      sentFor := some p, lastSent := (s.at t).now })).each ((s.at t).objGroups j) (fun s g => s.trimPast g)) := by
  refine congrArg Host.Outcome.next ?_
  rw [hp]
  exact if_neg (by simp [hset, hmay, hrun])
theorem exec_objectIdleTransmit {j t : Nat} (hset : (s.at t).objSet j = true) (hmay : (s.at t).objMay j = true)
    (hrun : running ((s.at t).part ((s.at t).dget (kObjPartition j))) = false)
    (hdue : ((s.at t).obj j).lastSent + (s.at t).dget (kObjIdlePeriod j) * 1000000 ≤ (s.at t).now) :
    exec (.objectIdleTransmit j t) s = .next (((s.at t).deliver j none).modObj j (fun o => { o with
      sentFor := none, lastSent := (s.at t).now })) :=
  congrArg Host.Outcome.next (if_neg (by simp [hset, hmay, hrun, hdue]))

/-- Settles O26, command by command. -/
theorem fieldAndObjectsAreServed : Obligations.FieldAndObjectsAreServed := by
  unfold Obligations.FieldAndObjectsAreServed
  refine ⟨fun s p dst len t cls body => ?_, fun s p t => exec_fieldLinkDown, fun s p t => exec_fieldLinkUp, fun s hops t => ?_,
    fun s hops t => rfl, fun s t => ?_, fun s rope present lost t => ?_, fun s t => ?_, fun s mac t => ?_, fun s r j t => ?_, fun s r j t => ?_,
    fun s j t p => exec_objectTransmit, fun s j t => exec_objectIdleTransmit⟩
  · intro a used hp hin hout hd
    rw [exec_fieldFrame hp hin hout hd]
    refine ⟨fun hfull => congrArg Host.Outcome.next (if_pos hfull), fun hroom => ?_⟩
    have hd : a.takeFree.1.toNat % 5001 ≤ 5000 := Nat.le_of_lt_succ (Nat.mod_lt _ (by decide))
    exact ⟨_, _, congrArg Host.Outcome.next (if_neg (Nat.not_lt_of_le hroom)), hd, rfl, rfl⟩
  · intro a
    rw [exec_ropeCheck_primary]
    simp only [State.takeAddress_hops]
    rfl
  · exact fun hs hdue => congrArg Host.Outcome.next (if_pos ⟨hs, hdue⟩)
  · intro a hr hp hl
    obtain ⟨u, hu, hnoted⟩ := ropeState_mirrors (s := s) present lost t hr
    obtain ⟨hrope, hpresent, hlost⟩ := a.dget_mirrored rope present lost
    refine ⟨u, hu, ?_, ?_, ?_, fun n => (hnoted.kept n).1, hnoted.queues, hnoted.syncs, hnoted.mem, hnoted.keep, hnoted.sec⟩
    · rw [hnoted.entries _ (by decide), hrope]
    · rw [hnoted.entries _ (by decide), hpresent, Nat.mod_eq_of_lt hp]
    · rw [hnoted.entries _ (by decide), hlost, Nat.mod_eq_of_lt hl]
  · exact fun hdue => congrArg Host.Outcome.next (if_neg (Nat.not_lt_of_le hdue))
  · intro a haddr hmac
    exact congrArg Host.Outcome.next (if_neg (by simp [a, haddr, hmac] at *))
  · intro a hj h hg hd hown hsize
    rw [exec_objEnable hj h, State.doObjEnable_on hg hd hown hsize]
  · intro a hj h
    rw [exec_objEnable hj h, State.doObjEnable_off]

end Sys2Proof.Machine
end

section
/-!
PROOFS of the statements on the dictionary (spec 13): the subindices of an index, and the writes that are turned away (O46, O49, O50).
-/

namespace Sys2Proof.Machine

variable {s u : State} {r : Requester} {t : Nat} {data : Bytes}

/-! ### Keys and rows (R347, R348) -/

theorem entryKey_index {sub : Nat} (h : sub < 256) (index : Nat) : entryKey index sub / 256 = index := by
  rw [entryKey]
  omega
theorem entryKey_sub {sub : Nat} (h : sub < 256) (index : Nat) : entryKey index sub % 256 = sub := by
  rw [entryKey]
  omega

/-- No row of the tables stands at subindex 0, and each holds a subindex. -/
theorem entryRows_sub : ∀ e ∈ entryRows, 1 ≤ e.subLo ∧ e.subLo ≤ e.subHi := by decide +kernel

theorem entryRow_isSome_iff {index sub : Nat} :
    (entryRow index sub).isSome = true ↔ ∃ e ∈ entryRows, rowHasIndex e index = true ∧ e.subLo ≤ sub ∧ sub ≤ e.subHi := by
  simp [entryRow, rowCovers, and_assoc]
theorem entryRow_sub_zero (index : Nat) : entryRow index 0 = none := by
  rw [← Option.not_isSome_iff_eq_none, entryRow_isSome_iff]
  rintro ⟨e, he, _, hlo, _⟩
  have := (entryRows_sub e he).1
  omega

/-- The highest subindices of the rows that cover an index. -/
def subTops (index : Nat) : List Nat := (entryRows.filter (fun e => rowHasIndex e index)).map (·.subHi)
theorem mem_subTops {index top : Nat} : top ∈ subTops index ↔ ∃ e ∈ entryRows, rowHasIndex e index = true ∧ e.subHi = top := by
  simp [subTops, and_assoc]
theorem entryNsub_eq (index : Nat) : entryNsub index = (subTops index).max?.getD 0 := by
  have hfold : entryNsub index = (subTops index).foldl max 0 := List.foldl_map.symm
  rw [hfold, List.foldl_max, Nat.zero_max]
theorem le_entryNsub {index sub : Nat} (h : (entryRow index sub).isSome = true) : sub ≤ entryNsub index := by
  obtain ⟨e, he, hindex, _, hhi⟩ := entryRow_isSome_iff.1 h
  rw [entryNsub_eq]
  exact hhi.trans (List.le_max?_getD_of_mem (mem_subTops.2 ⟨e, he, hindex, rfl⟩))
theorem one_le_of_entryRow {index sub : Nat} (h : (entryRow index sub).isSome = true) : 1 ≤ sub := by
  obtain ⟨e, he, _, hlo, _⟩ := entryRow_isSome_iff.1 h
  exact (entryRows_sub e he).1.trans hlo
/-- NSUB is the subindex of an entry, in an index that has one. -/
theorem entryRow_entryNsub {index : Nat} (h : entryNsub index ≠ 0) : (entryRow index (entryNsub index)).isSome = true := by
  rw [entryNsub_eq] at h ⊢
  cases hmax : (subTops index).max? with
  | none => simp [hmax] at h
  | some top =>
    obtain ⟨e, he, hindex, htop⟩ := mem_subTops.1 (List.max?_mem hmax)
    rw [Option.getD_some, ← htop]
    exact entryRow_isSome_iff.2 ⟨e, he, hindex, (entryRows_sub e he).2, le_rfl⟩

/-! ### A plain write of an entry (R352) -/

theorem exec_registerWrite_entry {index sub : Nat} (hh : (s.serve t).hears r = true) (hg : (s.serve t).gate 2 (entryKey index sub) = true) :
    exec (.registerWrite (.entry r index sub) data t) s = .next ((s.serve t).writeWhole r none (entryKey index sub) data) :=
  congrArg Host.Outcome.next ((if_neg (by simp [hh])).trans (if_neg (by simp [hg])))
theorem State.writeWhole_answered {k code : Nat} (h : s.writeEntry r none k data = (some code, u)) :
    s.writeWhole r none k data = u.answer r k code := by
  rw [State.writeWhole, h]
  rfl

/-- Subindex 0 takes no write (R348). -/
theorem State.writeEntry_nsub {index : Nat} (tag : Option Nat) (h : entryNsub index ≠ 0) :
    s.writeEntry r tag (entryKey index 0) data = (some stAccess, s) := by
  simp [State.writeEntry, entryKey_index, entryKey_sub, entryRow_sub_zero, h]

/-- Settles O46: the tables give no row to subindex 0, and the highest subindex is that of a row. -/
theorem subindexZeroIsTheHighest : Obligations.SubindexZeroIsTheHighest := by
  unfold Obligations.SubindexZeroIsTheHighest
  refine ⟨fun index h => ?_, fun s r index h => ?_, fun s r index t data => ?_⟩
  · exact ⟨entryRow_entryNsub h, entryRow_sub_zero index, fun sub hsub => ⟨one_le_of_entryRow hsub, le_entryNsub hsub⟩⟩
  · simp [State.entryBytes, entryKey_index, entryKey_sub, h]
  · intro a h hh hg
    rw [exec_registerWrite_entry hh hg, State.writeWhole_answered (State.writeEntry_nsub none h)]

/-! ### A locked entry (R350, R366) -/

theorem State.writeCheck_of_locked {k x : Nat} (hw : s.reqWrites r k x = true) (hl : s.locked k = true) :
    s.writeCheck r k x = (stAccess, s.dadd kLockedWrites 1) := by
  simp [State.writeCheck, hw, hl]
/-- A write that the common checks refuse ends there. -/
theorem State.writeEntry_of_refused {k code : Nat} (tag : Option Nat) (hrow : (entryRow (k / 256) (k % 256)).isSome = true)
    (hc : s.writeCheck r k (leNat data) = (code, u)) (hcode : code ≠ stOk) : s.writeEntry r tag k data = (some code, u) := by
  obtain ⟨e, he⟩ := Option.isSome_iff_exists.1 hrow
  simp [State.writeEntry, he, hc, hcode]

/-- Settles O50, from the check of the lock. -/
theorem lockedEntriesRefuseWrites : Obligations.LockedEntriesRefuseWrites := by
  unfold Obligations.LockedEntriesRefuseWrites
  intro s r index sub t data a k hrow hh hg hw hl
  have hentry := State.writeEntry_of_refused none hrow (State.writeCheck_of_locked hw hl) (by decide)
  rw [exec_registerWrite_entry hh hg, State.writeWhole_answered hentry]

/-! ### A virtual function and another partition (R351) -/

/-- From `s` to `u` an answer has left the part and has been counted, and nothing else. -/
def AnswerOnly (s u : State) : Prop :=
  u = { s with dict := u.dict, outbox := u.outbox } ∧ ∀ k, k ≠ kDictRequests → u.dget k = s.dget k

theorem AnswerOnly.refl (s : State) : AnswerOnly s s := ⟨rfl, fun _ _ => rfl⟩
theorem State.answerOnly_answer (s : State) (r : Requester) (k code : Nat) : AnswerOnly s (s.answer r k code) :=
  ⟨s.answer_only r k code, fun _ hj => State.dget_answer hj s r k code⟩

theorem AnswerOnly.ite {p : Prop} [Decidable p] {a b : State} (ha : p → AnswerOnly s a) (hb : ¬ p → AnswerOnly s b) :
    AnswerOnly s (if p then a else b) := by
  split
  · exact ha ‹_›
  · exact hb ‹_›

/-- The entries of partition `m`'s own indices, 0x3m00 to 0x3mFF. -/
def ofPartition (m k : Nat) : Prop := 0x3000 + 0x100 * m ≤ k / 256 ∧ k / 256 < 0x3100 + 0x100 * m

section OtherPartition

variable {n m k : Nat} (hr : reqVf r = some n) (hn : n < 8) (hm : m < 8) (hne : m ≠ n) (hk : ofPartition m k)
include hr hn hm hne hk

theorem State.reqReads_other (s : State) : s.reqReads r k = false := by
  obtain ⟨hlo, hhi⟩ := hk
  simp only [State.reqReads, hr, State.heldStreamIndex, State.heldStatusIndex, Bool.or_eq_false_iff, Bool.and_eq_false_iff, beq_eq_false_iff_ne,
    decide_eq_false_iff_not]
  omega
theorem State.reqWrites_other (s : State) (x : Nat) : s.reqWrites r k x = false := by
  obtain ⟨hlo, hhi⟩ := hk
  simp only [State.reqWrites, hr, State.heldStreamIndex, Bool.or_eq_false_iff, Bool.and_eq_false_iff, beq_eq_false_iff_ne,
    decide_eq_false_iff_not]
  omega
theorem State.writeCheck_other (s : State) (x : Nat) : s.writeCheck r k x = (stAccess, s) := by
  simp [State.writeCheck, State.reqWrites_other hr hn hm hne hk]

theorem State.answerOnly_typed (s : State) (x : Nat) (f : State → Nat × State) : AnswerOnly s (s.typed r k x f) := by
  have hchecked : s.checked r k x f = (stAccess, s) := by
    rw [State.checked, State.writeCheck_other hr hn hm hne hk]
    rfl
  rw [State.typed, hchecked]
  exact .ite (fun _ => .refl s) fun _ => .ite (fun _ => s.answerOnly_answer _ _ _) fun _ => s.answerOnly_answer _ _ _

end OtherPartition

theorem ofPartition_partitionCommand (m : Nat) : ofPartition m (kPartitionCommand m) := by simp only [ofPartition, kPartitionCommand]; omega
theorem ofPartition_keepCommand (m : Nat) : ofPartition m (kKeepCommand m) := by simp only [ofPartition, kKeepCommand]; omega
theorem ofPartition_stationEnable (m : Nat) : ofPartition m (kStationEnable m) := by simp only [ofPartition, kStationEnable]; omega
theorem ofPartition_stationDisableNow (m : Nat) : ofPartition m (kStationDisableNow m) := by
  simp only [ofPartition, kStationDisableNow]
  omega
theorem ofPartition_counterClear (m : Nat) : ofPartition m (kCounterClear m) := by simp only [ofPartition, kCounterClear]; omega
theorem ofPartition_naKey {sub : Nat} (h : sub ≤ 5) (m : Nat) : ofPartition m (naKey m sub) := by
  simp only [ofPartition, naKey, kNaTarget]
  omega

section OtherPartition

variable {n m : Nat} (hr : reqVf r = some n) (hn : n < 8) (hm : m < 8) (hne : m ≠ n)
include hr hn hm hne

theorem State.answerOnly_wakeTyped (s : State) (cmd : Nat) (f : State → Nat × State) : AnswerOnly s (s.wakeTyped r m cmd f) := by
  have hwake : s.orWake r none m cmd f = (some stAccess, s) := by
    rw [State.orWake, State.writeCheck_other hr hn hm hne (ofPartition_partitionCommand m)]
    rfl
  rw [State.wakeTyped, hwake]
  exact .ite (fun _ => .refl s) fun _ => .ite (fun _ => s.answerOnly_answer _ _ _) fun _ => s.answerOnly_answer _ _ _

theorem State.answerOnly_neuronAccess (s : State) (sub : Nat) (data : Option Bytes) (t : Nat) :
    ∃ u, exec (.neuronAccess r m sub data t) s = .next u ∧ AnswerOnly (s.at t) u := by
  have hanswer := fun code => (s.at t).answerOnly_answer r (naKey m sub) code
  refine ⟨_, rfl, .ite (fun _ => .refl _) fun _ => .ite (fun _ => hanswer _) fun _ => .ite (fun _ => hanswer _) fun hsub => ?_⟩
  rw [if_pos (by simp [State.reqReads_other hr hn hm hne (ofPartition_naKey (by omega : sub ≤ 5) m)])]
  exact hanswer _

end OtherPartition

/-- Settles O49: each command is a write of an entry of the other partition, or a neuron access there. -/
theorem virtualFunctionsAreIsolated : Obligations.VirtualFunctionsAreIsolated := by
  unfold Obligations.VirtualFunctionsAreIsolated
  intro s r n m t fails c hr hn hm hne hc
  have hcommand := ofPartition_partitionCommand m
  have htyped := fun (k x : Nat) (hk : ofPartition m k) f => State.answerOnly_typed hr hn hm hne hk (s.at t) x f
  have hwake := State.answerOnly_wakeTyped hr hn hm hne (s.at t)
  simp only [List.mem_cons, List.not_mem_nil, or_false] at hc
  rcases hc with (rfl | rfl | rfl | rfl | rfl | rfl | rfl | rfl | rfl | rfl) | ⟨x, rfl | rfl | rfl⟩ | ⟨sub, data, rfl⟩
  · exact ⟨_, rfl, htyped _ _ hcommand _⟩
  · exact ⟨_, rfl, hwake _ _⟩
  · exact ⟨_, rfl, hwake _ _⟩
  · exact ⟨_, rfl, htyped _ _ hcommand _⟩
  · exact ⟨_, rfl, htyped _ _ hcommand _⟩
  · exact ⟨_, rfl, htyped _ _ hcommand _⟩
  · exact ⟨_, rfl, htyped _ _ hcommand _⟩
  · exact ⟨_, rfl, htyped _ _ hcommand _⟩
  · exact ⟨_, rfl, htyped _ _ (ofPartition_keepCommand m) _⟩
  · exact ⟨_, rfl, htyped _ _ (ofPartition_keepCommand m) _⟩
  · exact ⟨_, rfl, htyped _ _ (ofPartition_stationEnable m) _⟩
  · exact ⟨_, rfl, htyped _ _ (ofPartition_stationDisableNow m) _⟩
  · exact ⟨_, rfl, htyped _ _ (ofPartition_counterClear m) _⟩
  · exact State.answerOnly_neuronAccess hr hn hm hne s sub data t

end Sys2Proof.Machine
end

section
/-!
PROOFS of the statements on the dictionary (spec 13): the requests that read (O27).
-/

namespace Sys2Proof.Machine

variable {s u : State} {r : Requester} {tag k off maxlen snap t : Nat}

/-! ### The response to a READ (R354) -/

theorem State.segment_of_le {val : Bytes} (h : off ≤ val.length) (s : State) (r : Requester) (tag k maxlen snap : Nat) :
    s.segment r tag k off maxlen snap val = s.reply r 1 stOk tag (entryHead k ++ natLe 2 off ++ natLe 2 val.length ++ natLe 2 snap ++
      natLe 2 ((val.drop off).take maxlen).length ++ (val.drop off).take maxlen) :=
  if_neg (Nat.not_lt_of_le h)
/-- A READ that takes a new snapshot answers a segment of it. -/
theorem State.readNew_of_le {val : Bytes} (h : off ≤ val.length) (s : State) (r : Requester) (tag k maxlen : Nat) :
    s.readNew r tag k off maxlen val = (s.keepSnap r (k / 256, some (k % 256)) val []).2.reply r 1 stOk tag (entryHead k ++ natLe 2 off ++
      natLe 2 val.length ++ natLe 2 (s.keepSnap r (k / 256, some (k % 256)) val []).1 ++ natLe 2 ((val.drop off).take maxlen).length ++
      (val.drop off).take maxlen) :=
  State.segment_of_le h _ _ _ _ _ _
/-- A READ from the snapshot that the part keeps of the entry. -/
theorem State.readSnap_kept {val : Bytes} (hno : (s.req r).snapNo = snap) (hat : s.now < (s.req r).snapAt + keepNs)
    (hv : snapValue (s.req r) k = some val) : s.readSnap r tag k off maxlen snap = s.segment r tag k off maxlen snap val := by
  have hkey : (s.req r).snapKey ≠ none := fun h => by simp [snapValue, h] at hv
  rw [State.readSnap, if_neg (by simp [hno, hkey, hat]), hv]

section Read

variable (hh : s.hears r = true) (hlo : 1 ≤ maxlen) (hhi : maxlen ≤ 1024) (hg : s.counted.gate 1 k = true)
include hh hlo hhi hg

/-- A READ is counted before it is looked at. -/
theorem State.doRead_absent (hd : defined k = false) : s.doRead r tag k off maxlen snap = s.counted.refuse r 1 tag k stAbsent := by
  simp [State.doRead, hh, hg, hd, Nat.not_lt.2 hhi, Nat.one_le_iff_ne_zero.1 hlo]
theorem State.doRead_access (hd : defined k = true) (hr : s.counted.reqReads r k = false ∨ entryAccess k = .wo) :
    s.doRead r tag k off maxlen snap = s.counted.refuse r 1 tag k stAccess := by
  have hor : (!s.counted.reqReads r k || entryAccess k == .wo) = true := by simpa using hr
  simp only [State.doRead, hh, hg, hd, hor, Nat.not_lt.2 hhi, Nat.one_le_iff_ne_zero.1 hlo]
  simp

variable (hd : defined k = true) (hr : s.counted.reqReads r k = true) (ha : entryAccess k ≠ .wo)
include hd hr ha

theorem State.doRead_snap (hs : snap ≠ 0) : s.doRead r tag k off maxlen snap = s.counted.readSnap r tag k off maxlen snap := by
  simp [State.doRead, hh, hg, hd, hr, ha, hs, Nat.not_lt.2 hhi, Nat.one_le_iff_ne_zero.1 hlo]
theorem State.doRead_new (ho : s.counted.domainOff k 0 = false) (hna : naIndex (k / 256) = none) : s.doRead r tag k off maxlen 0 =
    (s.counted.valueOf r k).2.readNew r tag k off maxlen (s.counted.valueOf r k).1 := by
  simp [State.doRead, hh, hg, hd, hr, ha, ho, hna, Nat.not_lt.2 hhi, Nat.one_le_iff_ne_zero.1 hlo]

end Read

/-! ### PACK_MASK (R420) -/

theorem packMask_readable : defined kPackMask = true ∧ entryAccess kPackMask ≠ .wo ∧ naIndex (kPackMask / 256) = none := by decide +kernel
theorem State.valueOf_packMask (s : State) (r : Requester) : s.valueOf r kPackMask = (natLe 16 s.packMaskValue, s) := if_pos rfl

theorem exec_packMask (hh : (s.serve t).hears r = true) (hg : (s.serve t).counted.gate 1 kPackMask = true)
    (hr : (s.serve t).counted.reqReads r kPackMask = true) (ho : (s.serve t).counted.domainOff kPackMask 0 = false) :
    exec (.packMask r tag t) s = .next ((s.serve t).counted.readNew r tag kPackMask 0 1024 (natLe 16 (s.serve t).counted.packMaskValue)) := by
  obtain ⟨hdef, hacc, hna⟩ := packMask_readable
  refine congrArg Host.Outcome.next ((State.doRead_new hh (by decide) le_rfl hg hdef hr hacc ho hna).trans ?_)
  rw [State.valueOf_packMask]

/-! ### READ_INDEX (R353) -/

/-- The values of the entries `subs` of an index, each read from the state that the read before it left. -/
def State.valuesOf (s : State) (r : Requester) (index : Nat) (subs : List Nat) : List (Nat × Bytes) × State :=
  subs.foldl (fun (x : List (Nat × Bytes) × State) j =>
    (x.1 ++ [(j, (x.2.valueOf r (entryKey index j)).1)], (x.2.valueOf r (entryKey index j)).2)) ([], s)

theorem State.doReadIndex_new {index first : Nat} (hh : s.hears r = true) (hg : s.counted.gate 3 (entryKey index first) = true)
    (hn : entryNsub index ≠ 0) (hs : s.counted.readableSubs r index ≠ []) (hna : naIndex index = none)
    (ho : ∀ j ∈ s.counted.readableSubs r index, entryAccess (entryKey index j) = .wo ∨ s.counted.domainOff (entryKey index j) 0 = false) :
    s.doReadIndex r tag index first =
      let q := s.counted.valuesOf r index ((s.counted.readableSubs r index).filter (fun j => entryAccess (entryKey index j) != .wo))
      q.2.readIndexNew r tag index first q.1 ((s.counted.readableSubs r index).filter (fun j => entryAccess (entryKey index j) == .wo)) := by
  have hoff : (s.counted.readableSubs r index).any (fun j => entryAccess (entryKey index j) != .wo && s.counted.domainOff (entryKey index j) 0) = false := by
    simpa [or_iff_not_imp_left] using ho
  have hvals : (s.counted.readableSubs r index).filter (fun j =>
        !((s.counted.readableSubs r index).filter (fun j => entryAccess (entryKey index j) == .wo)).contains j) =
      (s.counted.readableSubs r index).filter (fun j => entryAccess (entryKey index j) != .wo) :=
    List.filter_congr fun j hj => by simp [hj, bne, beq_eq_decide]
  have hempty : (s.counted.readableSubs r index).isEmpty = false := by simpa using hs
  simp only [State.doReadIndex, hh, hg, hn, hempty, hoff, hna, hvals]
  rfl

/-! ### DESCRIBE and ECHO (R359) -/

theorem State.doDescribe_row {e : EntryRow} (hh : s.hears r = true) (hg : s.counted.gate 4 k = true)
    (he : entryRow (k / 256) (k % 256) = some e) :
    s.doDescribe r tag k = (s.counted.describeBody e k).2.reply r 4 stOk tag (s.counted.describeBody e k).1 := by
  simp [State.doDescribe, hh, hg, he]
theorem State.doDescribe_absent (hh : s.hears r = true) (hg : s.counted.gate 4 k = true) (he : entryRow (k / 256) (k % 256) = none)
    (hn : k % 256 ≠ 0 ∨ entryNsub (k / 256) = 0) : s.doDescribe r tag k = s.counted.refuse r 4 tag k stAbsent := by
  have hsub : ¬ (k % 256 = 0 ∧ entryNsub (k / 256) ≠ 0) := fun h => hn.elim (absurd h.1) h.2
  simp only [State.doDescribe, hh, hg, he, if_neg hsub]
  rfl
theorem State.doEcho_answered {body : Bytes} (hh : s.hears r = true) (hl : body.length ≤ 1024) (hg : s.gate 5 0 = true) :
    s.doEcho r tag body = s.counted.reply r 5 stOk tag body := by
  simp [State.doEcho, hh, hg, Nat.not_lt.2 hl]

/-- Settles O27, request by request. -/
theorem dictionaryAnswersItsReads : Obligations.DictionaryAnswersItsReads := by
  unfold Obligations.DictionaryAnswersItsReads
  refine ⟨fun s r tag index sub off maxlen t => ?_, fun s r tag index sub off maxlen snap t => ?_, fun s r tag index sub off maxlen snap t => ?_,
    fun s r tag index sub off maxlen snap t val => ?_, fun s r tag t => ?_, fun s r tag index first t => ?_,
    fun s r tag index sub t e => ?_, fun s r tag index sub t => ?_, fun s r tag t body => ?_⟩
  · intro a k p hh hlo hhi hg hd hr ha ho hna hoff
    exact congrArg Host.Outcome.next ((State.doRead_new hh hlo hhi hg hd hr ha ho hna).trans (State.readNew_of_le hoff _ _ _ _ _))
  · intro a k hh hlo hhi hg hd
    exact congrArg Host.Outcome.next (State.doRead_absent hh hlo hhi hg hd)
  · intro a k hh hlo hhi hg hd hr
    exact congrArg Host.Outcome.next (State.doRead_access hh hlo hhi hg hd hr)
  · intro a k hh hlo hhi hg hd hr ha hs hno hat hv hoff
    refine congrArg Host.Outcome.next ((State.doRead_snap hh hlo hhi hg hd hr ha hs).trans ?_)
    rw [State.readSnap_kept hno hat hv, State.segment_of_le hoff]
  · intro a val hh hg hr ho
    have hlen : val.length = 16 := length_natLe 16 _
    rw [exec_packMask hh hg hr ho, State.readNew_of_le (Nat.zero_le _), List.drop_zero, List.take_of_length_le (hlen.trans_le (by decide)), hlen]
  · intro a k subs q hh hg hn hs hna ho
    exact congrArg Host.Outcome.next (State.doReadIndex_new hh hg hn hs hna ho)
  · intro a k hh hg he
    exact congrArg Host.Outcome.next (State.doDescribe_row hh hg he)
  · intro a k hh hg he hn
    exact congrArg Host.Outcome.next (State.doDescribe_absent hh hg he hn)
  · intro a hh hl hg
    exact congrArg Host.Outcome.next (State.doEcho_answered hh hl hg)

end Sys2Proof.Machine
end

section
/-!
PROOFS of the statements on the dictionary (spec 13): WRITE, datagrams, and the timers of requesters (O28).
-/

namespace Sys2Proof.Machine

variable {s : State} {r : Requester} {tag k off total t : Nat} {data : Bytes}

/-! ### WRITE (R355) -/

/-- A segment of `n` bytes at `off` of a value of `total` does not continue what the requester has assembled. -/
def State.Misfits (s : State) (r : Requester) (k off total n : Nat) : Prop :=
  (s.req r).asmKey ≠ some k ∨ (s.req r).asmTotal ≠ total ∨ (s.req r).asmBuf.length ≠ off ∨ (s.req r).asmAt + keepNs ≤ s.now ∨ total < off + n

theorem State.not_misfits {n : Nat} (hk : (s.req r).asmKey = some k) (ht : (s.req r).asmTotal = total) (hb : (s.req r).asmBuf.length = off)
    (hat : s.now < (s.req r).asmAt + keepNs) (hn : off + n ≤ total) : ¬ s.Misfits r k off total n := by
  rintro (h | h | h | h | h)
  · exact h hk
  · exact h ht
  · exact h hb
  · exact Nat.not_le_of_lt hat h
  · exact Nat.not_lt_of_le hn h

theorem State.writeAnswer_ok (s : State) (r : Requester) (tag k n : Nat) :
    s.writeAnswer r (some tag) k n stOk = s.reply r 2 stOk tag (entryHead k ++ (natLe 2 n ++ natLe 2 0)) := rfl

section Write

variable (hh : s.hears r = true) (hl : data.length ≤ 1024) (hg : s.counted.gate 2 k = true) (hd : defined k = true)
include hh hl hg hd

theorem State.doWrite_whole : s.doWrite r tag k 0 data.length data = s.counted.writeWhole r (some tag) k data := by
  simp [State.doWrite, hh, hg, hd, Nat.not_lt.2 hl]
/-- The first segment starts an assembly, unless another requester holds the staging buffer that it needs (R462). -/
theorem State.doWrite_first (hlt : data.length < total) (hsize : total ≤ asmSize k)
    (hs : staged k = true → s.counted.stagingHeld r = false) : s.doWrite r tag k 0 total data =
      (s.counted.modReq r (fun q => { q with asmKey := some k, asmTotal := total, asmBuf := data, asmAt := s.counted.now })).writeAnswer r
        (some tag) k data.length stOk := by
  have hfree : (staged k && s.counted.stagingHeld r) = false := by simpa using hs
  have hroom : ¬ (asmSize k < total ∨ total < data.length) := by omega
  simp [State.doWrite, hh, hg, hd, Nat.not_lt.2 hl, hlt.ne, hroom, hfree]

variable (ho : off ≠ 0)
include ho

theorem State.doWrite_misfit (hm : s.counted.Misfits r k off total data.length) :
    s.doWrite r tag k off total data = (s.counted.dropAsm r).refuse r 2 tag k stArgument := by
  unfold State.Misfits at hm
  simp only [State.doWrite, hh, hg, hd, Nat.not_lt.2 hl, ho, hm]
  simp
theorem State.doWrite_next (hm : ¬ s.counted.Misfits r k off total data.length)
    (hn : ((s.counted.req r).asmBuf ++ data).length ≠ total) : s.doWrite r tag k off total data =
      (s.counted.modReq r (fun q => { q with asmBuf := (s.counted.req r).asmBuf ++ data, asmAt := s.counted.now })).writeAnswer r
        (some tag) k ((s.counted.req r).asmBuf ++ data).length stOk := by
  unfold State.Misfits at hm
  simp only [State.doWrite, hh, hg, hd, Nat.not_lt.2 hl, ho, hm, hn]
  simp
theorem State.doWrite_last (hm : ¬ s.counted.Misfits r k off total data.length)
    (hn : ((s.counted.req r).asmBuf ++ data).length = total) : s.doWrite r tag k off total data =
      (s.counted.dropAsm r).writeWhole r (some tag) k ((s.counted.req r).asmBuf ++ data) := by
  unfold State.Misfits at hm
  simp only [State.doWrite, hh, hg, hd, Nat.not_lt.2 hl, ho, hm, hn]
  simp

end Write

/-! ### Datagrams (R358, R361) -/

section Datagram

variable {addr port dst udp : Nat} {msg : Bytes}

theorem datagram_reaches (hh : s.hears r = true) (hu : udp = s.dget kDictUdpPort) : ¬ (!s.hears r || udp != s.dget kDictUdpPort) = true := by
  simp [hh, hu]
theorem datagram_addressed (hlocal : linkLocal addr = true) (hip : s.ropeIp dst = true) (hlen : 2 ≤ msg.length) :
    ¬ (!linkLocal addr || !s.ropeIp dst || decide (msg.length < 2)) = true := by
  simp [hlocal, hip, Nat.not_lt.2 hlen]

/-- One to another UDP port does not reach the dictionary (R340). -/
theorem exec_dictDatagram_elsewhere (h : udp ≠ (s.serve t).dget kDictUdpPort) :
    exec (.dictDatagram addr port dst udp msg t) s = .next (s.serve t) :=
  congrArg Host.Outcome.next (if_pos (by simp [h]))

variable (hh : (s.serve t).hears (.rope addr port) = true) (hu : udp = (s.serve t).dget kDictUdpPort)
include hh hu

theorem exec_dictDatagram_dropped (h : linkLocal addr = false ∨ (s.serve t).ropeIp dst = false) :
    exec (.dictDatagram addr port dst udp msg t) s = .next ((s.serve t).dadd kDictDrops 1) :=
  congrArg Host.Outcome.next ((if_neg (datagram_reaches hh hu)).trans (if_pos (by rcases h with h | h <;> simp [h])))

variable (hlocal : linkLocal addr = true) (hip : (s.serve t).ropeIp dst = true) (hlen : 2 ≤ msg.length)
include hlocal hip hlen

/-- One of another MAJOR is refused (R358). -/
theorem exec_dictDatagram_version (hv : fieldAt msg 0 1 ≠ 2) : exec (.dictDatagram addr port dst udp msg t) s =
    .next (((s.serve t).heardFrom (.rope addr port) (fieldAt msg 8 4) dst).refuseVersion (.rope addr port) msg) :=
  congrArg Host.Outcome.next ((if_neg (datagram_reaches hh hu)).trans ((if_neg (datagram_addressed hlocal hip hlen)).trans (if_pos hv)))

variable (hv : fieldAt msg 0 1 = 2) (hsize : fieldAt msg 4 2 = msg.length) (hd : msgDropped msg = false)
include hv hsize hd

/-- A well-formed request, repeated within the time that its response is kept. -/
theorem exec_dictDatagram_repeated {b : State} (hb : (s.serve t).heardFrom (.rope addr port) (fieldAt msg 8 4) dst = b)
    (htag : (b.req (.rope addr port)).lastTag = some (fieldAt msg 8 4)) (hat : b.now < (b.req (.rope addr port)).lastAt + cacheNs)
    (hrsp : (b.req (.rope addr port)).lastRsp ≠ []) : exec (.dictDatagram addr port dst udp msg t) s =
      .next ((b.dadd kDuplicateAnswers 1).respond (.rope addr port) (b.req (.rope addr port)).lastRsp) := by
  subst hb
  exact congrArg Host.Outcome.next ((if_neg (datagram_reaches hh hu)).trans ((if_neg (datagram_addressed hlocal hip hlen)).trans ((if_neg (not_not.2 hv)).trans
    ((if_neg (by simp [hsize, hd])).trans ((if_pos ⟨htag, hat⟩).trans (if_neg (by simpa using hrsp)))))))
/-- A well-formed new request, with fewer than eight in progress, is performed. -/
theorem exec_dictDatagram_performed {b : State} (hb : (s.serve t).heardFrom (.rope addr port) (fieldAt msg 8 4) dst = b)
    (hnew : (b.req (.rope addr port)).lastTag ≠ some (fieldAt msg 8 4) ∨ (b.req (.rope addr port)).lastAt + cacheNs ≤ b.now)
    (hroom : b.ropeCount < 8) : exec (.dictDatagram addr port dst udp msg t) s =
      .next ((b.modReq (.rope addr port) (fun q => { q with lastTag := some (fieldAt msg 8 4), lastRsp := [], lastAt := b.now })).perform
        (.rope addr port) msg) := by
  subst hb
  have hfresh := fun h : _ ∧ _ => hnew.elim (absurd h.1) (Nat.not_le_of_lt h.2)
  exact congrArg Host.Outcome.next ((if_neg (datagram_reaches hh hu)).trans ((if_neg (datagram_addressed hlocal hip hlen)).trans ((if_neg (not_not.2 hv)).trans
    ((if_neg (by simp [hsize, hd])).trans ((if_neg hfresh).trans (if_neg (Nat.not_le_of_lt hroom)))))))

end Datagram

/-- Settles O28, request by request and timer by timer. -/
theorem dictionaryTakesItsWrites : Obligations.DictionaryTakesItsWrites := by
  unfold Obligations.DictionaryTakesItsWrites
  refine ⟨fun s r tag index sub t data => ?_, fun s r tag index sub total t data => ?_, fun s r tag index sub off total t data => ?_,
    fun s r tag index sub off total t data => ?_, fun s r tag index sub off total t data => ?_, fun s addr port dst udp t msg => ?_,
    fun s addr port dst udp t msg => ?_, fun s addr port dst udp t msg => ?_, fun s addr port dst udp t msg => exec_dictDatagram_dropped,
    fun s addr port dst udp t msg => exec_dictDatagram_elsewhere, fun s r t => ?_, fun s r t => ?_, fun s addr port t => ?_⟩
  · intro a k hh hl hg hd
    exact congrArg Host.Outcome.next (State.doWrite_whole hh hl hg hd)
  · intro a k hh hl hg hd hlt hsize hs
    exact congrArg Host.Outcome.next (State.doWrite_first hh hl hg hd hlt hsize hs)
  · intro a k q hh hl hg hd ho hk ht hb hat hn
    have hlen : (q.asmBuf ++ data).length ≠ total := by rw [List.length_append, hb]; exact hn.ne
    exact congrArg Host.Outcome.next (State.doWrite_next hh hl hg hd ho (State.not_misfits hk ht hb hat hn.le) hlen)
  · intro a k q hh hl hg hd ho hk ht hb hat hn
    have hlen : (q.asmBuf ++ data).length = total := by rw [List.length_append, hb]; exact hn
    exact congrArg Host.Outcome.next (State.doWrite_last hh hl hg hd ho (State.not_misfits hk ht hb hat hn.le) hlen)
  · intro a k q hh hl hg hd ho hm
    exact congrArg Host.Outcome.next (State.doWrite_misfit hh hl hg hd ho hm)
  · intro a r b hh hu hlocal hip hlen hv hsize hd
    exact exec_dictDatagram_repeated hh hu hlocal hip hlen hv hsize hd rfl
  · intro a r hh hu hlocal hip hlen hv
    exact exec_dictDatagram_version hh hu hlocal hip hlen hv
  · intro a r b hh hu hlocal hip hlen hv hsize hd
    exact exec_dictDatagram_performed hh hu hlocal hip hlen hv hsize hd rfl
  · exact fun hkey hat => congrArg Host.Outcome.next (if_pos ⟨hkey, hat⟩)
  · exact fun hkey hat => congrArg Host.Outcome.next (if_pos ⟨hkey, hat⟩)
  · exact fun hat => congrArg Host.Outcome.next (if_pos hat)

end Sys2Proof.Machine
end

section
/-!
PROOFS of the statements on the dictionary (spec 13): mailboxes, locks, the configuration store and register writes (O29).
-/

namespace Sys2Proof.Machine

variable {s u : State} {r : Requester} {k t : Nat}

/-! ### Mailboxes (R363, R364, R367) -/

theorem exec_submit {w : Nat} (hthere : (s.serve t).mbxThere k = true) (hw : bit w 0 = true) (hbusy : ((s.serve t).mailbox k).busy = false)
    (ho : ((s.serve t).mailbox k).orphaned = false) : exec (.submit k w t) s = .next ((s.serve t).modMailbox k (fun m =>
      { m with taken := Machine.slice m.request 0 requestSize, busy := true, rspReady := false })) :=
  congrArg Host.Outcome.next (if_neg (by simp [hthere, hw, hbusy, ho]))
theorem exec_mailboxResponse (hk : k < 32) (hbusy : ((s.serve t).mailbox k).busy = true)
    (hp : (s.serve t).inProgress (.mailbox k) = false) (hh : (s.serve t).hears (.mailbox k) = true) :
    exec (.mailboxResponse k t) s = .next ((s.serve t).performMailbox k) :=
  congrArg Host.Outcome.next (if_neg (by simp [hbusy, hp, hh, hk]))

/-- A mailbox after a write of `w` to MBX_CONTROL (R367). -/
def Mailbox.controlled (w : Nat) (m : Mailbox) : Mailbox :=
  { m with
    noticeOn := if bit w 17 then bit w 1 else m.noticeOn
    rspInt := if bit w 16 then bit w 0 else m.rspInt
    notices := if (if bit w 17 then bit w 1 else m.noticeOn) then m.notices else [] }
theorem exec_mbxControl {w : Nat} (h : s.mbxThere k = true) : exec (.mbxControl k w) s = .next (s.modMailbox k (Mailbox.controlled w)) :=
  congrArg Host.Outcome.next (if_neg (by simp [h]))

/-! ### LOCK_SET (R366) -/

theorem State.doLockSet_bits {x : Nat} (h : x < 16) (s : State) : let b := s.dset kLockState (s.dget kLockState ||| x)
    s.doLockSet x = (stOk, if bit x 1 ∧ s.dget kDebugState = 1 then (b.dset kDebugState 0).modSec (fun q => { q with armed := 0 }) else b) := by
  have hdebug : kDebugState ≠ kLockState := by decide
  simp [State.doLockSet, Nat.mod_eq_of_lt h, State.dget_dset_ne, hdebug]

/-! ### STORE and ERASE (R376) -/

/-- The sequence number of the next copy. -/
def State.nextSeq (s : State) : Nat := match s.currentCopy with
  | some c => c.seq + 1
  | none => 1
theorem State.doStore_starts (h : s.dget kStoreState ≠ storeWriting) (x : Nat) : s.doStore x = (stOk, (s.modMem (fun m => { m with
    storeWr := some ⟨s.nextSeq % 2 ^ 32, if x = 1 then storableKeys.map (fun k => (k, s.storedValue k)) else []⟩ })).dset
      kStoreState storeWriting) :=
  if_neg h

/-! ### A copy of the configuration store in its place (R375) -/

/-- What the part has written last in place `i` of the configuration store. -/
def Mem.copyAt (m : Mem) (i : Nat) : Option StoreCopy := if i = 0 then m.store0 else m.store1
/-- The first address of place `i`. -/
def placeBase (i : Nat) : Nat := 0x10000 + 0x78000 * i

/-- A byte of place `i`: what a descriptor has written last, else the part's copy (R275). -/
theorem State.mramByte_place {i x : Nat} (hi : i < 2) (hlo : placeBase i ≤ x) (hhi : x < placeBase i + 0x78000) : s.mramByte x =
    ((mget dNone s.mem.patched x).map (BitVec.ofNat 8)).getD ((storeBytes (s.mem.copyAt i)).getD (x - placeBase i) 0) := by
  have hraw : mramRaw x = false := by
    simp only [placeBase] at hlo hhi
    simp only [mramRaw, Bool.or_eq_false_iff, Bool.and_eq_false_iff, decide_eq_false_iff_not]
    omega
  have hregion : s.mramRegion x = some (placeBase i, storeBytes (s.mem.copyAt i)) := by
    unfold State.mramRegion
    simp only [placeBase] at hlo hhi ⊢
    rw [if_neg (by omega)]
    obtain rfl | rfl : i = 0 ∨ i = 1 := by omega
    · exact if_pos (by omega)
    · exact (if_neg (by omega)).trans (if_pos (by omega))
  have hslots : ¬ (0x800000 ≤ x ∧ x < 0xC00000) ∧ ¬ (0xC00000 ≤ x ∧ x < 0x1000000) := by
    simp only [placeBase] at hlo hhi
    omega
  rw [State.mramByte, hraw, hregion]
  cases mget dNone s.mem.patched x <;> simp [hslots]

/-- Copy `i` depends on what place `i` holds alone. -/
theorem State.storeCopy_congr {i : Nat} (hi : i < 2) (hcopy : u.mem.copyAt i = s.mem.copyAt i)
    (hover : u.overIn (placeBase i) 0x78000 = s.overIn (placeBase i) 0x78000)
    (hpatched : ∀ x, placeBase i ≤ x → x < placeBase i + 0x78000 → mget dNone u.mem.patched x = mget dNone s.mem.patched x) :
    u.storeCopy i = s.storeCopy i := by
  have hbytes : u.mramBytes (placeBase i) 0x78000 = s.mramBytes (placeBase i) 0x78000 := by
    refine List.map_congr_left fun j hj => ?_
    have hj := List.mem_range.1 hj
    rw [State.mramByte_place hi (by omega) (by omega), State.mramByte_place hi (by omega) (by omega), hcopy, hpatched _ (by omega) (by omega)]
  show (if u.overIn (placeBase i) 0x78000 then storeParse (u.mramBytes (placeBase i) 0x78000) else u.mem.copyAt i) =
    (if s.overIn (placeBase i) 0x78000 then storeParse (s.mramBytes (placeBase i) 0x78000) else s.mem.copyAt i)
  rw [hover, hbytes, hcopy]
theorem State.currentCopy_congr (h0 : u.storeCopy 0 = s.storeCopy 0) (h1 : u.storeCopy 1 = s.storeCopy 1) : u.currentCopy = s.currentCopy := by
  rw [State.currentCopy, State.currentCopy, h0, h1]
theorem State.currentCopy_of_mem (h : u.mem = s.mem) : u.currentCopy = s.currentCopy := by
  have hcopy : ∀ i < 2, u.storeCopy i = s.storeCopy i := fun i hi =>
    State.storeCopy_congr hi (by rw [h]) (by rw [State.overIn, h, State.overIn]) fun _ _ _ => by rw [h]
  exact State.currentCopy_congr (hcopy 0 (by decide)) (hcopy 1 (by decide))

@[simp] theorem State.currentCopy_dset (s : State) (k x : Nat) : (s.dset k x).currentCopy = s.currentCopy := State.currentCopy_of_mem rfl

/-- The copy `c` written in place `i`. -/
def State.placed (s : State) (i : Nat) (c : StoreCopy) : State := (s.overClear (placeBase i) 0x78000).modMem (fun m =>
  if i = 1 then { m with store1 := some c, storeWr := none } else { m with store0 := some c, storeWr := none })

theorem State.placed_only (s : State) (i : Nat) (c : StoreCopy) : s.placed i c = { s with mem := (s.placed i c).mem } := rfl
theorem State.placed_mem (s : State) (i : Nat) (c : StoreCopy) : (s.placed i c).mem = { s.mem with
    store0 := (s.placed i c).mem.store0, store1 := (s.placed i c).mem.store1, storeWr := none, patched := (s.placed i c).mem.patched } := by
  unfold State.placed State.modMem
  dsimp only
  split <;> rfl
theorem State.placed_patched (s : State) (i : Nat) (c : StoreCopy) :
    (s.placed i c).mem.patched = mclear s.mem.patched (placeBase i) 0x78000 := by
  unfold State.placed State.modMem
  dsimp only
  split <;> rfl
theorem State.storeCopy_placed_self {i : Nat} (hi : i < 2) (s : State) (c : StoreCopy) : (s.placed i c).storeCopy i = some c := by
  have hover : (s.placed i c).overIn (placeBase i) 0x78000 = false := by
    rw [State.overIn, State.placed_patched, mclear, List.any_eq_false]
    intro e he
    simpa [imp_iff_not_or] using (List.mem_filter.1 he).2
  refine (if_neg (ne_true_of_eq_false hover)).trans ?_
  obtain rfl | rfl : i = 0 ∨ i = 1 := by omega
  · rfl
  · rfl
theorem State.storeCopy_placed_other {i j : Nat} (hi : i < 2) (hj : j < 2) (hne : j ≠ i) (s : State) (c : StoreCopy) :
    (s.placed i c).storeCopy j = s.storeCopy j := by
  have hout : ∀ x, placeBase j ≤ x → x < placeBase j + 0x78000 → ¬ (placeBase i ≤ x ∧ x < placeBase i + 0x78000) := by
    simp only [placeBase]
    omega
  refine State.storeCopy_congr hj ?_ ?_ fun x hlo hhi => ?_
  · obtain rfl | rfl : i = 0 ∨ i = 1 := by omega
    · obtain rfl : j = 1 := by omega
      rfl
    · obtain rfl : j = 0 := by omega
      rfl
  · rw [State.overIn, State.placed_patched, mclear, List.any_filter, State.overIn]
    refine congrArg (fun p => s.mem.patched.any p) (funext fun e => Bool.eq_iff_iff.2 ?_)
    have := hout e.1
    simp only [Bool.and_eq_true, Bool.not_eq_true', Bool.and_eq_false_iff, decide_eq_true_eq, decide_eq_false_iff_not]
    omega
  · rw [State.placed_patched, mclear]
    refine mget_filter_of_kept fun e he => ?_
    have := hout x hlo hhi
    simp only [Bool.not_eq_true', Bool.and_eq_false_iff, decide_eq_false_iff_not, he]
    omega

/-! ### STORE_WRITE_DONE (R376) -/

/-- The place of the copy that is not current: that of the lower sequence number, or one that holds no valid copy. -/
def State.stalePlace (s : State) : Nat := match s.storeCopy 0, s.storeCopy 1 with
  | none, _ => 0
  | some _, none => 1
  | some a, some b => if b.seq ≤ a.seq then 1 else 0
theorem State.stalePlace_lt (s : State) : s.stalePlace < 2 := by
  unfold State.stalePlace
  split
  · decide
  · decide
  · split <;> decide

/-- The current copy, if there is one, is the one in the other place. -/
theorem State.stalePlace_cases (s : State) :
    s.stalePlace = 0 ∧ s.currentCopy = s.storeCopy 1 ∨ s.stalePlace = 1 ∧ s.currentCopy = s.storeCopy 0 := by
  unfold State.stalePlace State.currentCopy
  cases s.storeCopy 0 with
  | none => exact .inl ⟨rfl, rfl⟩
  | some a =>
    cases s.storeCopy 1 with
    | none => exact .inr ⟨rfl, rfl⟩
    | some b =>
      by_cases h : b.seq ≤ a.seq
      · exact .inr ⟨if_pos h, if_neg (Nat.not_lt_of_le h)⟩
      · exact .inl ⟨if_neg h, if_pos (Nat.lt_of_not_le h)⟩

/-- A copy with a higher sequence number than the current one is current once it is written. -/
theorem State.currentCopy_placed {c : StoreCopy} (h : ∀ x, s.currentCopy = some x → x.seq < c.seq) :
    (s.placed s.stalePlace c).currentCopy = some c := by
  rcases s.stalePlace_cases with ⟨hplace, hcur⟩ | ⟨hplace, hcur⟩
  · rw [hplace, State.currentCopy, State.storeCopy_placed_self (by decide), State.storeCopy_placed_other (by decide) (by decide) (by decide), ← hcur]
    cases hx : s.currentCopy with
    | none => rfl
    | some x => exact if_neg (Nat.not_lt_of_lt (h x hx))
  · rw [hplace, State.currentCopy, State.storeCopy_placed_self (by decide), State.storeCopy_placed_other (by decide) (by decide) (by decide), ← hcur]
    cases hx : s.currentCopy with
    | none => rfl
    | some x => exact if_pos (h x hx)

theorem exec_storeWriteDone {c : StoreCopy} (hw : (s.reach t).mem.storeWr = some c) (hd : (s.reach t).dead = false) :
    exec (.storeWriteDone true t) s = .next ((((s.reach t).placed (s.reach t).stalePlace c).dset kStoreState 1).storeEntries) := by
  show execStoreWriteDone true t s = _
  cases h0 : (s.reach t).storeCopy 0 with
  | none => simp [execStoreWriteDone, hw, hd, State.placed, placeBase, State.stalePlace, h0]
  | some a =>
    cases h1 : (s.reach t).storeCopy 1 with
    | none => simp [execStoreWriteDone, hw, hd, State.placed, placeBase, State.stalePlace, h0, h1]
    | some b => by_cases h : b.seq ≤ a.seq <;> simp [execStoreWriteDone, hw, hd, State.placed, placeBase, State.stalePlace, h0, h1, h]
theorem exec_storeWriteDone_failed {c : StoreCopy} (hw : (s.reach t).mem.storeWr = some c) (hd : (s.reach t).dead = false) :
    exec (.storeWriteDone false t) s = .next (((s.reach t).modMem (fun m => { m with storeWr := none })).dset kStoreState 3) := by
  show execStoreWriteDone false t s = _
  simp [execStoreWriteDone, hw, hd]

/-- The entries that show the current copy `c` (Table 13.21). -/
theorem State.storeEntries_of_current {c : StoreCopy} (h : s.currentCopy = some c) :
    s.storeEntries = (s.dset kStoreSequence c.seq).dset kStoreEntries (c.recs.length % 2 ^ 16) := by
  rw [State.storeEntries, h]

/-- The current copy `c` shown: STORE_STATE is VALID, and the entries are those of `c`. -/
theorem State.storeEntries_shows {c : StoreCopy} (h : s.currentCopy = some c) :
    ∃ u, (s.dset kStoreState 1).storeEntries = u ∧ u = { s with dict := u.dict } ∧ u.dget kStoreState = 1 ∧
      u.dget kStoreSequence = c.seq ∧ u.dget kStoreEntries = c.recs.length % 2 ^ 16 := by
  have hcur : (s.dset kStoreState 1).currentCopy = some c := by rw [State.currentCopy_dset, h]
  have hse : kStoreState ≠ kStoreEntries := by decide
  have hss : kStoreState ≠ kStoreSequence := by decide
  have hqe : kStoreSequence ≠ kStoreEntries := by decide
  refine ⟨_, State.storeEntries_of_current hcur, rfl, ?_, ?_, State.dget_dset_self _ _ _⟩
  · rw [State.dget_dset_ne _ hse, State.dget_dset_ne _ hss, State.dget_dset_self]
  · rw [State.dget_dset_ne _ hqe, State.dget_dset_self]

/-- The end of the write of copy `c` puts it in its place, and the entries show it. -/
theorem storeWriteDone_makes_current {c : StoreCopy} (hw : (s.reach t).mem.storeWr = some c) (hd : (s.reach t).dead = false)
    (hseq : ∀ x, (s.reach t).currentCopy = some x → x.seq < c.seq) :
    ∃ u, exec (.storeWriteDone true t) s = .next u ∧ u = { (s.reach t).placed (s.reach t).stalePlace c with dict := u.dict } ∧
      u.dget kStoreState = 1 ∧ u.dget kStoreSequence = c.seq ∧ u.dget kStoreEntries = c.recs.length % 2 ^ 16 := by
  obtain ⟨u, hu, hshown⟩ := State.storeEntries_shows (State.currentCopy_placed hseq)
  exact ⟨u, by rw [exec_storeWriteDone hw hd, hu], hshown⟩

/-! ### The MSI-X table (Table 12.2) -/

theorem exec_registerWrite_msix {f o : Nat} {data : Bytes} (hh : (s.serve t).hostSees f = true) (hf : f ≤ 8) (hlo : 0x30000 ≤ o)
    (hhi : o < 0x300C0) : exec (.registerWrite (.bar0 f o) data t) s =
      .next ((s.serve t).modFunc f (fun g => { g with msix := putBytes 192 (o - 0x30000) g.msix data })) := by
  show (s.serve t).writeBar0 f o data t = _
  rw [State.writeBar0, if_neg (by simp [hh, hf]), if_neg (by omega), if_neg (by omega), if_neg (by omega), if_pos ⟨hlo, hhi⟩]

/-- Settles O29, command by command. -/
theorem mailboxesLocksAndCopiesAreKept : Obligations.MailboxesLocksAndCopiesAreKept := by
  unfold Obligations.MailboxesLocksAndCopiesAreKept
  refine ⟨fun s k w t => exec_submit, fun s k t => ?_, fun s k w => ?_, fun s k w => ?_, fun s r x t => ?_, fun s r t => ?_, fun s r t => ?_,
    fun s t c => exec_storeWriteDone_failed, fun s t c => ?_, fun s r index sub t data => ?_, fun s f o t data => exec_registerWrite_msix⟩
  · exact fun hk hbusy hp hh => exec_mailboxResponse hk hbusy hp hh
  · exact fun hthere hw => congrArg Host.Outcome.next (if_pos (by simp [hthere, hw]))
  · intro hthere
    refine ⟨_, exec_mbxControl hthere, ?_⟩
    rw [State.mailbox_modMailbox_self]
    exact ⟨rfl, rfl, rfl, fun j hj => s.mailbox_modMailbox_ne hj _, rfl, rfl⟩
  · intro a h hx
    refine congrArg Host.Outcome.next ((State.typed_of_accepts _ h).trans ?_)
    rw [State.doLockSet_bits hx]
  · intro a seq h hidle
    refine congrArg Host.Outcome.next ((State.typed_of_accepts _ h).trans ?_)
    rw [State.doStore_starts hidle]
    rfl
  · intro a seq h hidle
    refine congrArg Host.Outcome.next ((State.typed_of_accepts _ h).trans ?_)
    rw [State.doStore_starts hidle]
    rfl
  · intro a hw hd hseq
    obtain ⟨u, hu, honly, hstate, hsequence, hentries⟩ := storeWriteDone_makes_current hw hd hseq
    have hmem : u.mem = (a.placed a.stalePlace c).mem := by rw [honly]
    have hplaced := a.placed_mem a.stalePlace c
    rw [a.placed_only, ← hmem] at honly
    rw [← hmem] at hplaced
    exact ⟨u, hu, by rw [hplaced], (State.currentCopy_of_mem hmem).trans (State.currentCopy_placed hseq), hstate, hsequence, hentries, honly,
      hplaced⟩
  · exact fun hh hg => exec_registerWrite_entry hh hg

end Sys2Proof.Machine
end

section
/-!
PROOFS of the statements on the machine as a whole (spec 00): O1, O2 and O3.
-/

namespace Sys2Proof.Machine

/-- Settles O1, from the two cases of `step`. -/
theorem stepRunsTheFrontCommand : Obligations.StepRunsTheFrontCommand := by
  unfold Obligations.StepRunsTheFrontCommand
  exact ⟨fun c r s h => by rw [step, h], fun s h => by rw [step, h]⟩

/-- Settles O2: the memories list no byte, and no entry of the reset state stands at its default. -/
theorem resetIsCanonical : Obligations.ResetIsCanonical := by
  unfold Obligations.ResetIsCanonical
  rw [State.wf, reset_memory_wf, Bool.true_and]
  decide

/-- Every command answers a next state that evolves from the one it meets: an arm of `exec` each. -/
theorem exec_evolves (i : Instr) (s : State) : EvolvesTo s (exec i s) :=
  match i with
  | .tsnTick n k t => execTsnTick_ev n k t s
  | .cadenceInEdge rising t => execCadenceInEdge_ev rising t s
  | .quadTransition a b t => execQuadTransition_ev a b t s
  | .pitchTrigger f w t => execPitchTrigger_ev f w t s
  | .pitchOpen n t => execPitchOpen_ev n t s
  | .openPicot c t => execOpenPicot_ev c t s
  | .encodeDone k t => execEncodeDone_ev k t s
  | .encodeDoneReceive cl => execEncodeDoneReceive_ev cl s
  | .eventAccumulate c t => execEventAccumulate_ev c t s
  | .prefetch c => execPrefetch_ev c s
  | .prefetchRetry c => execPrefetchRetry_ev c s
  | .readData c row ok => execReadData_ev c row ok s
  | .integrateSweep c t => execIntegrateSweep_ev c t s
  | .haulOpenTimeout c dst t => execHaulOpenTimeout_ev c dst t s
  | .journalRecord cl => execJournalRecord_ev cl s
  | .journalStallEnd c t => execJournalStallEnd_ev c t s
  | .eventHaulArrival id t => execEventHaulArrival_ev id t s
  | .drain c => execDrain_ev c s
  | .belay c => execBelay_ev c s
  | .clusterBelay n cl t => execClusterBelay_ev n cl t s
  | .closePicot c t => execClosePicot_ev c t s
  | .watchPoint n t => execWatchPoint_ev n t s
  | .deadline n t => execDeadline_ev n t s
  | .truncateInstant n t => execTruncateInstant_ev n t s
  | .truncate c t => execTruncate_ev c t s
  | .belayTimeout n c t => execBelayTimeout_ev n c t s
  | .cadenceLoss n t => execCadenceLoss_ev n t s
  | .holdoverLimit t => execHoldoverLimit_ev t s
  | .syncMessage port offset t => execSyncMessage_ev port offset t s
  | .syncTimeout t => execSyncTimeout_ev t s
  | .create r n t => execCreate_ev r n t s
  | .load r n t => execLoad_ev r n t s
  | .tileLanded n memErr t => execTileLanded_ev n memErr t s
  | .enable r n t => execEnable_ev r n t s
  | .disable r n t => execDisable_ev r n t s
  | .disableNow r n t => execDisableNow_ev r n t s
  | .absorb c => execAbsorb_ev c s
  | .swap r n t => execSwap_ev r n t s
  | .swapTakeEffect n t => execSwapTakeEffect_ev n t s
  | .swapCopyDone n t => execSwapCopyDone_ev n t s
  | .unload r n t => execUnload_ev r n t s
  | .destroy r n t => execDestroy_ev r n t s
  | .stationEnable r n v t => execStationEnable_ev r n v t s
  | .stationDisableNow r n v t => execStationDisableNow_ev r n v t s
  | .neuronAccess r n sub data t => execNeuronAccess_ev r n sub data t s
  | .neuronAccessPerform n t => execNeuronAccessPerform_ev n t s
  | .counterClear r n v t => execCounterClear_ev r n v t s
  | .descriptorSubmit u t => execDescriptorSubmit_ev u t s
  | .descriptorComplete u v1 memErr t => execDescriptorComplete_ev u v1 memErr t s
  | .applyComplete n p t => execApplyComplete_ev n p t s
  | .keepCommit r n t => execKeepCommit_ev r n t s
  | .keepErase r n t => execKeepErase_ev r n t s
  | .keepCommitDone t => execKeepCommitDone_ev t s
  | .sample src k data t => execSample_ev src k data t s
  | .streamSample r k data t => execStreamSample_ev r k data t s
  | .streamEnable r k v t => execStreamEnable_ev r k v t s
  | .streamDisableNow r k v t => execStreamDisableNow_ev r k v t s
  | .decode g t => execDecode_ev g t s
  | .readoutPublish g t => execReadoutPublish_ev g t s
  | .groupEnable r mask t => execGroupEnable_ev r mask t s
  | .groupDisableNow r mask t => execGroupDisableNow_ev r mask t s
  | .estopAssert t => execEstopAssert_ev t s
  | .estopRelease t => execEstopRelease_ev t s
  | .outputEnable src w t => execOutputEnable_ev src w t s
  | .estopState src w t => execEstopState_ev src w t s
  | .queueCreate h rec => execQueueCreate_ev h rec s
  | .queueDestroy h => execQueueDestroy_ev h s
  | .attach h reader flush => execAttach_ev h reader flush s
  | .detach h => execDetach_ev h s
  | .send h msg => execSend_ev h msg s
  | .receive h addr len => execReceive_ev h addr len s
  | .receiveGroup h addr len => execReceiveGroup_ev h addr len s
  | .groupSet h reader policy => execGroupSet_ev h reader policy s
  | .addOp h done contribs => execAddOp_ev h done contribs s
  | .readClear h addr len => execReadClear_ev h addr len s
  | .syncCreate h kind init => execSyncCreate_ev h kind init s
  | .syncDestroy h => execSyncDestroy_ev h s
  | .cadd h delta => execCadd_ev h delta s
  | .cread h => execCread_ev h s
  | .cset h v => execCset_ev h v s
  | .cwaitGe h target => execCwaitGe_ev h target s
  | .post h n => execPost_ev h n s
  | .take h n => execTake_ev h n s
  | .arrive h => execArrive_ev h s
  | .breakBarrier h => execBreakBarrier_ev h s
  | .barrierReset h => execBarrierReset_ev h s
  | .waitTimeout u id t => execWaitTimeout_ev u id t s
  | .completionHoldPlace u t => execCompletionHoldPlace_ev u t s
  | .grantWrite r kind data t => execGrantWrite_ev r kind data t s
  | .parityError mem unit addr cured t => execParityError_ev mem unit addr cured t s
  | .lpddr6ReadError u off e t => execLpddr6ReadError_ev u off e t s
  | .patrolScrub u e written t => execPatrolScrub_ev u e written t s
  | .retrain u temp ok t => execRetrain_ev u temp ok t s
  | .bgtestRegion kind unit pass t => execBgtestRegion_ev kind unit pass t s
  | .retentionLost h dom => execRetentionLost_ev h dom s
  | .frameAll r v t => execFrameAll_ev r v t s
  | .frameOwner r data t => execFrameOwner_ev r data t s
  | .bar2Access f off len data t => execBar2Access_ev f off len data t s
  | .bar2Window f hi w t => execBar2Window_ev f hi w t s
  | .conflictClear r v t => execConflictClear_ev r v t s
  | .packetArrival p t => execPacketArrival_ev p t s
  | .nack src dst seq reason expected t => execNack_ev src dst seq reason expected t s
  | .ack src dst seq t => execAck_ev src dst seq t s
  | .ackTimeout src dst seq t => execAckTimeout_ev src dst seq t s
  | .creditTimeout sw link t => execCreditTimeout_ev sw link t s
  | .rebuild r t => execRebuild_ev r t s
  | .genDrain t => execGenDrain_ev t s
  | .genDone v1 t => execGenDone_ev v1 t s
  | .genSwitchTimeout n t => execGenSwitchTimeout_ev n t s
  | .resetWeights r t => execResetWeights_ev r t s
  | .routeWeights r data t => execRouteWeights_ev r data t s
  | .cmapInterval sw ports t => execCmapInterval_ev sw ports t s
  | .fabricClockChange h mhz t => execFabricClockChange_ev h mhz t s
  | .remoteHaul e id t => execRemoteHaul_ev e id t s
  | .remoteTransmit e n peer t => execRemoteTransmit_ev e n peer t s
  | .remoteSendFailed n peer pitch nrec t => execRemoteSendFailed_ev n peer pitch nrec t s
  | .remoteMessage e msg t => execRemoteMessage_ev e msg t s
  | .remoteInject e n t => execRemoteInject_ev e n t s
  | .functionLevelReset f t => execFunctionLevelReset_ev f t s
  | .perstN pin t => execPerstN_ev pin t s
  | .slotGo f k w t => execSlotGo_ev f k w t s
  | .slotDone f k status value t => execSlotDone_ev f k status value t s
  | .qnotify f k w => execQnotify_ev f k w s
  | .intCause f mask w => execIntCause_ev f mask w s
  | .hostHeartbeat f w t => execHostHeartbeat_ev f w t s
  | .heartbeatTimeout f t => execHeartbeatTimeout_ev f t s
  | .continueExpiry n t => execContinueExpiry_ev n t s
  | .portEnable r p v t => execPortEnable_ev r p v t s
  | .portRetrain p fec t => execPortRetrain_ev p fec t s
  | .cmReq p service peerId qpn t => execCmReq_ev p service peerId qpn t s
  | .rdmaWrite p qpn rkey addr data t => execRdmaWrite_ev p qpn rkey addr data t s
  | .fieldFrame p own mcast len room t => execFieldFrame_ev p own mcast len room t s
  | .fieldLinkDown p t => execFieldLinkDown_ev p t s
  | .ropeCheck primary hops t => execRopeCheck_ev primary hops t s
  | .checkTimeout t => execCheckTimeout_ev t s
  | .ropeState rope present lost t => execRopeState_ev rope present lost t s
  | .announceTimer t => execAnnounceTimer_ev t s
  | .announce node mac t => execAnnounce_ev node mac t s
  | .objectTransmit j t => execObjectTransmit_ev j t s
  | .objectIdleTransmit j t => execObjectIdleTransmit_ev j t s
  | .objEnable r j v t => execObjEnable_ev r j v t s
  | .readEntry r tag index sub off maxlen snap t => execReadEntry_ev r tag index sub off maxlen snap t s
  | .writeEntry r tag index sub off total data t => execWriteEntry_ev r tag index sub off total data t s
  | .readIndex r tag index first t => execReadIndex_ev r tag index first t s
  | .describe r tag index sub t => execDescribe_ev r tag index sub t s
  | .echo r tag body t => execEcho_ev r tag body t s
  | .dictDatagram addr port linkLocal toPart msg t => execDictDatagram_ev addr port linkLocal toPart msg t s
  | .snapshotExpiry r t => execSnapshotExpiry_ev r t s
  | .assemblyTimeout r t => execAssemblyTimeout_ev r t s
  | .submit k w t => execSubmit_ev k w t s
  | .mailboxResponse k t => execMailboxResponse_ev k t s
  | .noticeRemove k w => execNoticeRemove_ev k w s
  | .mbxControl k w => execMbxControl_ev k w s
  | .lockSet r v t => execLockSet_ev r v t s
  | .store r t => execStore_ev r t s
  | .storeErase r t => execStoreErase_ev r t s
  | .storeWriteDone ok t => execStoreWriteDone_ev ok t s
  | .registerWrite tgt data t => execRegisterWrite_ev tgt data t s
  | .coreReset r c pass t => execCoreReset_ev r c pass t s
  | .clusterReset r cl fails t => execClusterReset_ev r cl fails t s
  | .partitionReset r n fails t => execPartitionReset_ev r n fails t s
  | .deviceReset cause facts t => execDeviceReset_ev cause facts t s
  | .porstNAssert ns t => execPorstNAssert_ev ns t s
  | .bringup facts t => execBringup_ev facts t s
  | .licenceInstall r data t => execLicenceInstall_ev r data t s
  | .licenceRemove r id t => execLicenceRemove_ev r id t s
  | .powerRequest src w fail t => execPowerRequest_ev src w fail t s
  | .wake facts t => execWake_ev facts t s
  | .wakeGpio pin rising t => execWakeGpio_ev pin rising t s
  | .profileRequest r h v t => execProfileRequest_ev r h v t s
  | .profileWaitTimeout h t => execProfileWaitTimeout_ev h t s
  | .profileChange h t => execProfileChange_ev h t s
  | .fabricClockReq r h v t => execFabricClockReq_ev r h v t s
  | .thermalLoop h tj power t hotter => execThermalLoop_ev h tj power t hotter s
  | .powerLimit held t => execPowerLimit_ev held t s
  | .halfCurrent h t => execHalfCurrent_ev h t s
  | .junctionThrottle dom temp t => execJunctionThrottle_ev dom temp t s
  | .limitRelease k t => execLimitRelease_ev k t s
  | .thermalTrip sensor temp t => execThermalTrip_ev sensor temp t s
  | .coolantLoss src t => execCoolantLoss_ev src t s
  | .coolantLossEnd t => execCoolantLossEnd_ev t s
  | .coolantReport r flow inlet t => execCoolantReport_ev r flow inlet t s
  | .coolantReportTimeout t => execCoolantReportTimeout_ev t s
  | .packMask r tag t => execPackMask_ev r tag t s
  | .fault rep t => execFault_ev rep t s
  | .faultAck r v t => execFaultAck_ev r v t s
  | .takeover c t => execTakeover_ev c t s
  | .replayPitch c t => execReplayPitch_ev c t s
  | .coldTakeover c t => execColdTakeover_ev c t s
  | .cairnComplete c => execCairnComplete_ev c s
  | .sliceTakeover u t => execSliceTakeover_ev u t s
  | .storeRebuild cl t => execStoreRebuild_ev cl t s
  | .controllerRestart cl detail t => execControllerRestart_ev cl detail t s
  | .mgmtRestart detail t => execMgmtRestart_ev detail t s
  | .swapOut r c t => execSwapOut_ev r c t s
  | .swapOutTestDone c pass t => execSwapOutTestDone_ev c pass t s
  | .stage r t => execStage_ev r t s
  | .fwChunk r data t => execFwChunk_ev r data t s
  | .stagingVerify t => execStagingVerify_ev t s
  | .activate r t => execActivate_ev r t s
  | .activation facts t => execActivation_ev facts t s
  | .cancel r t => execCancel_ev r t s
  | .confirm r t => execConfirm_ev r t s
  | .reject r t => execReject_ev r t s
  | .commitSvn r t => execCommitSvn_ev r t s
  | .quote r t => execQuote_ev r t s
  | .quoteSigned t => execQuoteSigned_ev t s
  | .debugToken r data t => execDebugToken_ev r data t s
  | .jtagMode r v t => execJtagMode_ev r v t s
  | .supplyOutOfTolerance supply t => execSupplyOutOfTolerance_ev supply t s
  | .vinCLow t => execVinCLow_ev t s
  | .vinCBrownout facts t => execVinCBrownout_ev facts t s
  | .vddAonBrownout t => execVddAonBrownout_ev t s
  | .smbusBlockRead addr code t => execSmbusBlockRead_ev addr code t s
  | .smbusBlockWrite addr code count data pec t => execSmbusBlockWrite_ev addr code count data pec t s
  | .smbusTimeout t => execSmbusTimeout_ev t s
  | .alertResponse t => execAlertResponse_ev t s
  | .fieldLinkUp p t => execFieldLinkUp_ev p t s
  | .perstNRelease t => execPerstNRelease_ev t s
  | .pcieLinkUp width speed vfs => execPcieLinkUp_ev width speed vfs s
  | .dataPortLinkUp p sub lanes => execDataPortLinkUp_ev p sub lanes s
  | .supplyInTolerance supply t => execSupplyInTolerance_ev supply t s
  | .mgmtRestartDone t => execMgmtRestartDone_ev t s
  | .controllerRestartDone cl t => execControllerRestartDone_ev cl t s
  | .icmpv6Message p kind data => execIcmpv6Message_ev p kind data s
  | .roceAck n peer t => execRoceAck_ev n peer t s
  | .cmMessage p kind qpn => execCmMessage_ev p kind qpn s
  | .congestionNotification p qpn => execCongestionNotification_ev p qpn s
  | .requesterCacheExpiry addr port t => execRequesterCacheExpiry_ev addr port t s

/-- A step answers a next state that evolves from the one with the front command taken off the queue. -/
theorem step_evolves (s : State) : EvolvesTo { s with pending := s.pending.drop 1 } (step s) := by
  cases h : s.pending with
  | nil =>
    rw [stepRunsTheFrontCommand.2 s h]
    exact evolvesTo_next (by rw [List.drop_nil, ← h]; exact Evolves.refl s)
  | cons c r =>
    rw [stepRunsTheFrontCommand.1 c r s h]
    exact exec_evolves c _

/-- A state that evolves from one in canonical form is in canonical form. -/
theorem Evolves.wf {s u : State} (h : Evolves s u) (hs : s.wf = true) : u.wf = true := by
  simp only [State.wf, Bool.and_eq_true] at hs ⊢
  exact ⟨h.mem hs.1, h.dict hs.2⟩

/-- Settles O3: each clause is one of those that every command keeps (`Evolves`). -/
theorem stepKeepsTheInvariant : Obligations.StepKeepsTheInvariant := by
  unfold Obligations.StepKeepsTheInvariant
  intro s hs
  obtain ⟨u, hu, he⟩ := step_evolves s
  exact ⟨u, hu, he.wf hs, he.pending, he.now, he.fuses, he.svn⟩

end Sys2Proof.Machine
end

section
/-!
PROOFS of the statements on faults (spec 16): O52 and O35.
-/

namespace Sys2Proof.Machine

variable {s u v : State} {t : Nat}

/-! ### Fault reports and restarts leave the sequencers alone (R426, R446, R447) -/

theorem State.startController_sq (cl detail : Nat) : SeqKept s (s.startController cl detail) :=
  State.restartController_sq _ (State.reportUnit_sq _ _ _ _ _ _ (SeqKept.refl s))

theorem State.startMgmt_sq (detail : Nat) : SeqKept s (s.startMgmt detail) :=
  State.report_sq _ (State.restartMgmt_sq (SeqKept.refl s))

/-- Settles O52, by the three kinds of command. -/
theorem faultsLeaveThePitchesAlone : Obligations.FaultsLeaveThePitchesAlone := by
  unfold Obligations.FaultsLeaveThePitchesAlone
  rintro s t c (⟨rep, rfl⟩ | ⟨cl, detail, rfl⟩ | ⟨detail, rfl⟩)
  · exact ⟨_, rfl, (State.doFault_sq rep (SeqKept.refl _)).kept⟩
  · exact ⟨_, rfl, (State.startController_sq cl detail).kept⟩
  · exact ⟨_, rfl, (State.startMgmt_sq detail).kept⟩

/-! ### What a fault report changes (R426 to R429) -/

/-- What waits for the management core's return (R447): whether it runs, the reports and the emergency objects. -/
def Rel.waiting (r : Rel) : Bool × List FaultReport × List (Nat × Nat × Nat × Nat) := (r.mgmtUp, r.withheld, r.objects)

/-- From `s` to `u` faults are logged, marked and announced, and no more than that; while the management core runs nothing comes to wait for it. -/
structure Reported (s u : State) : Prop where
  only : u = { s with
    clk := u.clk, dict := u.dict, parts := u.parts, mem := u.mem, ports := u.ports, pins := u.pins, rel := u.rel, outbox := u.outbox }
  mem : u.mem = { s.mem with patched := u.mem.patched }
  waiting : s.rel.mgmtUp = true → u.rel.waiting = s.rel.waiting

theorem Reported.refl (s : State) : Reported s s := ⟨rfl, rfl, fun _ => rfl⟩
theorem Reported.up (h : Reported s u) (hs : s.rel.mgmtUp = true) : u.rel.mgmtUp = true := (congrArg (·.1) (h.waiting hs)).trans hs
theorem Reported.trans (h : Reported s u) (k : Reported u v) : Reported s v where
  only := by
    have := k.only
    rw [h.only] at this
    exact this
  mem := by
    have := k.mem
    rw [h.mem] at this
    exact this
  waiting hs := (k.waiting (h.up hs)).trans (h.waiting hs)
theorem Reported.cluster (h : Reported s u) (cl : Nat) : u.cluster cl = s.cluster cl := by
  rw [h.only]
  rfl

theorem Reported.ite {p : Prop} [Decidable p] {a b : State} (ha : Reported s a) (hb : Reported s b) : Reported s (if p then a else b) := by
  split <;> assumption
theorem Reported.foldl {α : Type} {f : State → α → State} (hf : ∀ u x, Reported u (f u x)) (l : List α) (s : State) : Reported s (l.foldl f s) := by
  induction l generalizing s with
  | nil => exact .refl s
  | cons x r ih => exact (hf s x).trans (ih (f s x))

theorem Reported.each {f : State → Nat → State} (hf : ∀ u n, Reported u (f u n)) (l : List Nat) (s : State) : Reported s (s.each l f) :=
  .foldl hf l s

theorem Reported.dset (h : Reported s u) (k x : Nat) : Reported s (u.dset k x) := h.trans ⟨rfl, rfl, fun _ => rfl⟩
theorem Reported.dadd (h : Reported s u) (k x : Nat) : Reported s (u.dadd k x) := h.dset _ _
theorem Reported.modPart (h : Reported s u) (n : Nat) (f : Part → Part) : Reported s (u.modPart n f) := h.trans ⟨rfl, rfl, fun _ => rfl⟩
theorem Reported.modPins (h : Reported s u) (f : Pins → Pins) : Reported s (u.modPins f) := h.trans ⟨rfl, rfl, fun _ => rfl⟩
theorem Reported.modRel (h : Reported s u) {f : Rel → Rel} (hf : u.rel.mgmtUp = true → (f u.rel).waiting = u.rel.waiting) :
    Reported s (u.modRel f) := h.trans ⟨rfl, rfl, hf⟩
theorem Reported.overClear (h : Reported s u) (a n : Nat) : Reported s (u.overClear a n) := h.trans ⟨rfl, rfl, fun _ => rfl⟩
theorem Reported.updateFaultN (h : Reported s u) : Reported s u.updateFaultN :=
  h.trans ⟨rfl, rfl, fun _ => rfl⟩

theorem Warned.reported (h : Warned s u) (hw : u.rel.waiting = s.rel.waiting) : Reported s u := by
  have hmem : u.mem = s.mem := by rw [h.only]
  have hpins : u.pins = s.pins := by rw [h.only]
  refine ⟨?_, by rw [hmem], fun _ => hw⟩
  rw [h.parts, hmem, hpins]
  exact h.only

theorem State.raiseCause_rel (s : State) (f b : Nat) : (s.raiseCause f b).rel = s.rel := by rw [s.raiseCause_only]
theorem State.queueNotice_rel (s : State) (msg : Bytes) (k : Nat) : (s.queueNotice msg k).rel = s.rel := by
  unfold State.queueNotice
  extract_lets m
  split
  · rfl
  · split <;> rfl
theorem State.each_rel {f : State → Nat → State} (hf : ∀ s n, (f s n).rel = s.rel) (l : List Nat) (s : State) : (s.each l f).rel = s.rel := by
  induction l generalizing s with
  | nil => rfl
  | cons n r ih => exact (ih (f s n)).trans (hf s n)
theorem State.issue_waiting (s : State) (ecode sev n detail : Nat) : (s.issue ecode sev n detail).rel.waiting = s.rel.waiting := by
  unfold State.issue
  extract_lets near body msg a b c
  have hb : b.rel = a.rel := State.each_rel (fun s k => s.queueNotice_rel msg k) _ a
  have hc : c.rel.waiting = s.rel.waiting := by
    rw [show c.rel = a.rel from (State.each_rel (fun s f => s.raiseCause_rel f 2) _ b).trans hb]
    rfl
  split
  · rfl
  · split
    · exact hc
    · rw [State.outs_rel]
      exact hc
theorem State.emergency_reported (s : State) (ecode sev n detail : Nat) : Reported s (s.emergency ecode sev n detail) := by
  unfold State.emergency
  split
  · exact (s.warned_issue ecode sev n detail).reported (s.issue_waiting ecode sev n detail)
  · next hdown => exact (Reported.refl s).modRel (fun hup => absurd hup hdown)
theorem State.report_reported (s : State) (r : FaultReport) : Reported s (s.report r) := by
  unfold State.report
  extract_lets seq sec used logged a b c d e f
  have hb : Reported s b := ((Reported.refl s).dset _ _).modRel (fun _ => rfl)
  have hc : Reported s c := .ite ((hb.overClear _ _).overClear _ _) hb
  have he : Reported s e := .updateFaultN (.ite hc (hc.dadd _ _))
  have hf : Reported s f := by
    dsimp only [f]
    split
    · exact (he.modPart _ _).modPart _ _
    · exact he
  split
  · next hdown => exact (Reported.refl s).modRel (fun hup => absurd hup (by simpa using hdown))
  · exact .ite hf ((hf.dadd _ _).trans (State.emergency_reported _ _ _ _ _))

theorem State.reportUnit_reported (s : State) (code sev kind unit : Nat) (n : Option Nat) (detail : Nat) :
    Reported s (s.reportUnit code sev kind unit n detail) := s.report_reported _

/-! ### FAULT (R426, R444, R446, R447) -/

theorem exec_fault {rep : FaultReport} (h : rep.code ≠ 0x0701) : exec (.fault rep t) s = .next (((s.at t).report rep).actOn rep) :=
  congrArg Host.Outcome.next (if_neg h)

theorem exec_fault_store {rep : FaultReport} (h : rep.code = 0x0201) :
    exec (.fault rep t) s = .next (((s.at t).report rep).clearStore rep.unit) := by
  rw [exec_fault (by simp [h]), State.actOn, if_pos h]

theorem exec_fault_controller {rep : FaultReport} (h : rep.code = 0x0202) :
    exec (.fault rep t) s = .next (((s.at t).report rep).restartController rep.unit) := by
  rw [exec_fault (by simp [h]), State.actOn, if_neg (by simp [h]), if_pos h]

theorem exec_fault_leaf {rep : FaultReport} (h : rep.code = 0x0203) :
    exec (.fault rep t) s = .next (((s.at t).report rep).loseLeaf rep.unit) := by
  rw [exec_fault (by simp [h]), State.actOn, if_neg (by simp [h]), if_neg (by simp [h]), if_pos h]

theorem exec_fault_mgmt {rep : FaultReport} (h : rep.code = 0x0701) :
    exec (.fault rep t) s = .next ((s.at t).restartMgmt.report rep) := congrArg Host.Outcome.next (if_pos h)

/-! ### FAULT_ACK (R428) -/

theorem exec_faultAck_unknown {r : Requester} {x : Nat} (ha : (s.at t).Accepts r kFaultAck x) (h : (s.at t).dget kFaultSeq < x) :
    exec (.faultAck r x t) s = .next ((s.at t).answer r kFaultAck stRange) := by
  refine congrArg Host.Outcome.next ((State.typed_of_accepts _ ha).trans ?_)
  rw [State.doFaultAck, if_pos h]

theorem exec_faultAck {r : Requester} {x : Nat} (ha : (s.at t).Accepts r kFaultAck x) (h : x ≤ (s.at t).dget kFaultSeq) :
    exec (.faultAck r x t) s =
      .next ((((s.at t).modRel (fun r => { r with acked := max r.acked x })).updateFaultN).answer r kFaultAck stOk) := by
  refine congrArg Host.Outcome.next ((State.typed_of_accepts _ ha).trans ?_)
  rw [State.doFaultAck, if_neg (Nat.not_lt.2 h)]

/-! ### Restarts (R446, R447) -/

theorem State.startController_running {cl detail : Nat} (h : (s.cluster cl).restarting = none) :
    let b := s.reportUnit 0x0202 1 4 cl (s.partOf cl) detail
    let c := b.each (b.clCores cl) (fun s c => s.clearGuard c)
    s.startController cl detail = (c.modCluster cl (fun q => { q with restarting := some c.now })).dadd kControllerRestarts 1 := by
  intro b c
  have hb : (b.cluster cl).restarting = none := by rw [(s.reportUnit_reported _ _ _ _ _ _).cluster, h]
  exact if_neg (by rw [hb]; decide)

/-- The management core stops: what it signed is dropped (R447). -/
theorem State.startMgmt_running {detail : Nat} (h : s.rel.mgmtUp = true) :
    let b := if s.dget kAttestState = 1 then (s.dset kAttestState 0).modSec (fun x => { x with signing := [] }) else s
    s.startMgmt detail = ((b.modRel (fun r => { r with mgmtUp := false })).dadd kMgmtRestarts 1).modRel (fun r =>
      { r with withheld := r.withheld ++ [⟨0x0701, 1, 8, 0, none, 0, detail⟩] }) := by
  intro b
  rw [State.startMgmt, State.restartMgmt, if_neg (by simp [h])]
  rfl

/-- The return of the management core: what it does then. -/
def State.mgmtReturns (s : State) : State :=
  ((s.rel.withheld.foldl (fun s r => s.report r) (s.modRel (fun r => { r with mgmtUp := true, withheld := [] }))).each (List.range 8)
    (fun s n => s.modPart n flushLedger)).flushObjects

theorem exec_mgmtRestartDone (hup : (s.at t).rel.mgmtUp = false) (hdead : (s.at t).dead = false) :
    exec (.mgmtRestartDone t) s = .next (s.at t).mgmtReturns := congrArg Host.Outcome.next (if_neg (by simp [hup, hdead]))

/-- The reports that waited are logged and none waits any more. -/
theorem State.mgmtReturns_reported (s : State) :
    Reported (s.modRel (fun r => { r with mgmtUp := true, withheld := [], objects := [] })) s.mgmtReturns := by
  unfold State.mgmtReturns
  generalize hb : s.modRel (fun r => { r with mgmtUp := true, withheld := [] }) = b
  generalize hc : (s.rel.withheld.foldl (fun s r => s.report r) b).each (List.range 8) (fun s n => s.modPart n flushLedger) = c
  have hbc : Reported b c :=
    hc ▸ (Reported.foldl State.report_reported _ b).trans (.each (fun u n => (Reported.refl u).modPart n flushLedger) _ _)
  have hwaiting := hbc.waiting (by rw [← hb]; rfl)
  have hflush : Reported (c.modRel (fun r => { r with objects := [] })) c.flushObjects :=
    .foldl (fun u (e : Nat × Nat × Nat × Nat) => u.emergency_reported e.1 e.2.1 e.2.2.1 e.2.2.2) _ _
  refine Reported.trans ⟨?_, ?_, fun _ => ?_⟩ hflush
  · rw [State.modRel, hbc.only, ← hb]
    rfl
  · rw [State.modRel_mem, hbc.mem, ← hb]
    rfl
  · rw [← hb] at hwaiting
    exact congrArg (fun w => (w.1, w.2.1, [])) hwaiting

/-- Settles O35, command by command. -/
theorem faultsAreReportedAndAcknowledged : Obligations.FaultsAreReportedAndAcknowledged := by
  unfold Obligations.FaultsAreReportedAndAcknowledged
  refine ⟨fun s rep t => exec_fault, fun s rep t => exec_fault_store, fun s rep t => ⟨exec_fault_controller, exec_fault_leaf, exec_fault_mgmt⟩,
    fun s r v t => exec_faultAck_unknown, fun s r v t => exec_faultAck, fun s cl detail t => ?_, fun s cl t => rfl, fun s detail t => ?_,
    fun s t => ?_, fun s t => ?_⟩
  · exact fun h => congrArg Host.Outcome.next (State.startController_running h)
  · exact fun h => congrArg Host.Outcome.next (State.startMgmt_running h)
  · intro a hup hdead
    have hr := a.mgmtReturns_reported
    have hwaiting := hr.waiting rfl
    refine ⟨a.mgmtReturns, exec_mgmtRestartDone hup hdead, congrArg (·.1) hwaiting, congrArg (·.2.1) hwaiting, congrArg (·.2.2) hwaiting,
      ?_, ?_, hr.mem, ?_, ?_⟩ <;>
    · rw [hr.only]
      rfl
  · intro a hup hdead hnone
    rw [exec_mgmtRestartDone hup hdead, State.mgmtReturns, hnone]
    rfl

end Sys2Proof.Machine
end

section
/-!
PROOFS of the statements on licences, attestation and debug (specs 14 and 17): O31 and O38.
-/

namespace Sys2Proof.Machine

variable {s : State} {r : Requester} {t : Nat}

/-! ### A write that is performed (R352) -/

/-- The part answers with the status of the operation, on the state that it leaves. -/
theorem State.typed_answers {k v st : Nat} {f : State → Nat × State} {u : State} (h : s.Accepts r k v) (ho : f s = (st, u)) :
    s.typed r k v f = u.answer r k st := by
  rw [State.typed_of_accepts f h, ho]

/-! ### Licence slots (R391, R392) -/

/-- Licence slot `k` holds `x` from now on, and the licence entries follow. -/
abbrev State.withLicence (s : State) (k : Nat) (x : Option Licence) : State :=
  ((s.overClear (0x400000 + 0x8000 * k) 0x8000).modFloor (fun f => { f with licences := mset dNone f.licences k x })).licenceEntries

theorem State.doLicenceInstall_fresh {data : Bytes} {k : Nat} (hlen : data.length = 30048) (hlock : bit (s.dget kLockState) 2 = false)
    (hfree : (List.range 32).find? (fun k => (s.licence k).isNone) = some k)
    (hnew : ∀ j x, j < 32 → s.licence j = some x → x.id ≠ fieldAt data 8 4) :
    s.doLicenceInstall data =
      if licenceValid data then (stOk, s.withLicence k (some ⟨fieldAt data 8 4, fieldAt data 0x0C 4, data⟩)) else (stArgument, s) := by
  have hnone : ((List.range 32).filterMap s.licence).any (fun x => x.id == fieldAt data 8 4) = false := by
    simp only [List.any_eq_false, List.mem_filterMap, List.mem_range, beq_iff_eq]
    rintro x ⟨j, hj, hx⟩
    exact hnew j x hj hx
  rw [State.doLicenceInstall, if_neg (by simp [hlen]), if_neg (by simp [hlock])]
  cases licenceValid data
  · rfl
  · simp only [hfree, hnone]
    rfl

/-- The slot that `doLicenceRemove` looks for: one with a licence of identity `id`. -/
def State.holdsLicence (s : State) (id k : Nat) : Bool :=
  match s.licence k with
  | some x => x.id == id
  | none => false

theorem State.holdsLicence_iff {id k : Nat} : s.holdsLicence id k = true ↔ ∃ x, s.licence k = some x ∧ x.id = id := by
  unfold State.holdsLicence
  cases s.licence k <;> simp

theorem State.doLicenceRemove_eq {id : Nat} (hlock : bit (s.dget kLockState) 2 = false) :
    s.doLicenceRemove id = match (List.range 32).find? (s.holdsLicence id) with
      | none => (stArgument, s)
      | some k => (stOk, s.withLicence k none) := by
  rw [State.doLicenceRemove, if_neg (by simp [hlock])]
  rfl

theorem State.doLicenceRemove_known {id k : Nat} {x : Licence} (hlock : bit (s.dget kLockState) 2 = false) (hk : k < 32)
    (hx : s.licence k = some x) (hid : x.id = id) (hone : ∀ j y, j < 32 → s.licence j = some y → y.id = id → j = k) :
    s.doLicenceRemove id = (stOk, s.withLicence k none) := by
  have hfound : (List.range 32).find? (s.holdsLicence id) = some k := by
    cases h : (List.range 32).find? (s.holdsLicence id) with
    | none => exact absurd (State.holdsLicence_iff.2 ⟨x, hx, hid⟩) (List.find?_eq_none.1 h k (List.mem_range.2 hk))
    | some j =>
      obtain ⟨y, hy, hyid⟩ := State.holdsLicence_iff.1 (List.find?_some h)
      rw [hone j y (List.mem_range.1 (List.mem_of_find?_eq_some h)) hy hyid]
  rw [State.doLicenceRemove_eq hlock, hfound]

theorem State.doLicenceRemove_unknown {id : Nat} (hlock : bit (s.dget kLockState) 2 = false)
    (hnone : ∀ j y, j < 32 → s.licence j = some y → y.id ≠ id) : s.doLicenceRemove id = (stArgument, s) := by
  have hmissing : (List.range 32).find? (s.holdsLicence id) = none := by
    refine List.find?_eq_none.2 (fun j hj h => ?_)
    obtain ⟨y, hy, hid⟩ := State.holdsLicence_iff.1 h
    exact hnone j y (List.mem_range.1 hj) hy hid
  rw [State.doLicenceRemove_eq hlock, hmissing]

/-- Settles O31, command by command. -/
theorem licencesAreKept : Obligations.LicencesAreKept := by
  unfold Obligations.LicencesAreKept
  refine ⟨fun s r data t k => ?_, fun s r id t k x => ?_, fun s r id t => ?_⟩
  · intro a id h hlen hlock hfree hnew
    have hdo := State.doLicenceInstall_fresh hlen hlock hfree hnew
    cases hvalid : licenceValid data <;>
    · rw [hvalid] at hdo
      exact congrArg Host.Outcome.next (State.typed_answers h hdo)
  · exact fun h hlock hk hx hid hone => congrArg Host.Outcome.next (State.typed_answers h (State.doLicenceRemove_known hlock hk hx hid hone))
  · exact fun h hlock hnone => congrArg Host.Outcome.next (State.typed_answers h (State.doLicenceRemove_unknown hlock hnone))

/-! ### Quotes (R461) -/

theorem exec_quote (h : ((s.reach t).svnTick).Accepts r kAttestCommand 1) (hidle : (s.reach t).svnTick.dget kAttestState ≠ 1) :
    exec (.quote r t) s = .next ((((s.reach t).svnTick.dset kAttestState 1).modSec (fun x =>
      { x with signing := (s.reach t).svnTick.quoteBody, quote := [] })).answer r kAttestCommand stOk) :=
  congrArg Host.Outcome.next (State.typed_answers h (if_neg hidle))

theorem exec_quoteSigned (hsigning : (s.reach t).dget kAttestState = 1) (hup : (s.reach t).answers = true) :
    exec (.quoteSigned t) s = .next ((((s.reach t).dset kAttestState 2).dadd kQuotes 1).modSec (fun x => { x with
      quote := (s.reach t).sec.signing ++ fixLen 17088 (Config.slhSign (s.reach t).akPublic (s.reach t).sec.signing), signing := [] })) :=
  congrArg Host.Outcome.next (if_neg (by simp [hsigning, hup]))

/-! ### Debug tokens (R464) -/

theorem State.doDebugToken_locked {data : Bytes} (hlen : data.length = 30048) (hlock : bit (s.dget kLockState) 1 = true) :
    s.doDebugToken data = (stAccess, s.newChallenge) := by
  rw [State.doDebugToken, if_neg (by simp [hlen]), if_pos hlock]

theorem State.doDebugToken_open {data : Bytes} (hlen : data.length = 30048) (hlock : bit (s.dget kLockState) 1 = false) :
    s.doDebugToken data = if s.tokenOk data then
      (stOk, ((s.dset kDebugState 1).modSec (fun x => { x with armed := fieldAt data 8 4 })).newChallenge) else (stArgument, s.newChallenge) := by
  rw [State.doDebugToken, if_neg (by simp [hlen]), if_neg (by simp [hlock])]

/-- Settles O38, command by command. -/
theorem quotesAndTokensAreTaken : Obligations.QuotesAndTokensAreTaken := by
  unfold Obligations.QuotesAndTokensAreTaken
  refine ⟨fun s r t => exec_quote, fun s t => exec_quoteSigned, fun s r data t => ?_, fun s r data t => ?_, fun s r v t => ?_⟩
  · exact fun h hlen hlock => congrArg Host.Outcome.next (State.typed_answers h (State.doDebugToken_locked hlen hlock))
  · intro a h hlen hlock
    have hdo := State.doDebugToken_open hlen hlock
    cases hok : a.tokenOk data <;>
    · rw [hok] at hdo
      exact congrArg Host.Outcome.next (State.typed_answers h hdo)
  · exact fun h hv => congrArg Host.Outcome.next (State.typed_answers h (if_neg (Nat.not_le.2 hv)))

end Sys2Proof.Machine
end

section
/-!
PROOFS of the statement on the package (spec 18): O39.
-/

namespace Sys2Proof.Machine

variable {s : State} {t : Nat}

/-! ### Supplies (R474) -/

theorem exec_supplyOutOfTolerance {x : Nat} (hx : x < 10) (hdead : (s.reach t).dead = false) :
    exec (.supplyOutOfTolerance x t) s =
      .next (((s.reach t).modPow (fun p => { p with supplies := x :: p.supplies.filter (· != x) })).raiseFlag 5) :=
  congrArg Host.Outcome.next (if_neg (by simp [hx, hdead]))

/-- Does a supply that is back in tolerance still wait: VIN_C, less than 9 ms after its floors ended? -/
def State.supplyWaits (s : State) (x : Nat) : Bool :=
  match s.pow.vinBack with
  | some i => x == supVinC && decide (s.now < i + 9000000)
  | none => false

theorem State.supplyWaits_eq_false {x : Nat} (h : x = 0 → ∀ i, s.pow.vinBack = some i → i + 9000000 ≤ s.now) : s.supplyWaits x = false := by
  unfold State.supplyWaits
  cases hback : s.pow.vinBack with
  | none => rfl
  | some i =>
    by_cases hx : x = 0
    · simp [h hx i hback]
    · simp [supVinC, hx]

theorem exec_supplyInTolerance {x : Nat} (hdead : (s.reach t).dead = false) (hwait : (s.reach t).supplyWaits x = false) :
    exec (.supplyInTolerance x t) s = .next (let a := s.reach t
      let b := a.modPow (fun p => { p with supplies := p.supplies.filter (· != x), vinBack := if x = 0 then none else p.vinBack })
      if x = 0 ∧ a.pow.vinLow = true then a.modPow (fun p => { p with vinLow := false, vinBack := some a.now })
      else if b.pow.supplies.isEmpty then b.dropFlag 5 else b) := by
  have hnot : ¬ ((s.reach t).dead || (s.reach t).supplyWaits x) = true := by simp [hdead, hwait]
  exact congrArg Host.Outcome.next (if_neg hnot)

/-! ### Transactions on the SMBus (R482, R483) -/

theorem State.smbHears_own (h : s.pins.porst = false) : s.smbHears s.smbOwn = true := by
  simp [State.smbHears, h]

theorem exec_smbusBlockRead_register {code v : Nat} (h : (s.reach t).pins.porst = false) (hreg : (s.reach t).smbReg code = some v) :
    exec (.smbusBlockRead (s.reach t).smbOwn code t) s = .next (let addr := (s.reach t).smbOwn
      let body := natLe 1 4 ++ natLe 4 v
      (s.reach t).smbOut (.smbus code (body ++ [crc8 (natLe 1 (2 * addr) ++ natLe 1 code ++ natLe 1 (2 * addr + 1) ++ body)]))) := by
  refine congrArg Host.Outcome.next ((if_neg (by simp [State.smbHears_own h])).trans ?_)
  rw [hreg]

theorem exec_smbusBlockRead_unknown {code : Nat} (h : (s.reach t).pins.porst = false) (hreg : (s.reach t).smbReg code = none) :
    exec (.smbusBlockRead (s.reach t).smbOwn code t) s = .next ((s.reach t).smbOut .smbusNack) := by
  refine congrArg Host.Outcome.next ((if_neg (by simp [State.smbHears_own h])).trans ?_)
  rw [hreg]

/-- A block write that the part does not take: another register, or another count. -/
theorem exec_smbusBlockWrite_refused {code count : Nat} {data : Bytes} {pec : Option Byte} (h : (s.reach t).pins.porst = false)
    (hcode : code ≠ 0x23 ∨ count ≠ 4) :
    exec (.smbusBlockWrite (s.reach t).smbOwn code count data pec t) s = .next ((s.reach t).smbOut .smbusNack) :=
  congrArg Host.Outcome.next ((if_neg (by simp [State.smbHears_own h])).trans (if_pos hcode))

/-- Is the PEC of a block write right, or missing? -/
def pecOk (body : Bytes) : Option Byte → Bool
  | some p => p == crc8 body
  | none => true

theorem pecOk_iff {body : Bytes} {pec : Option Byte} : pecOk body pec = true ↔ ∀ p, pec = some p → p = crc8 body := by
  cases pec <;> simp [pecOk]

theorem exec_smbusBlockWrite_power {data : Bytes} {pec : Option Byte} (h : (s.reach t).pins.porst = false) (hlen : data.length = 4)
    (hpec : pecOk (natLe 1 (2 * (s.reach t).smbOwn) ++ natLe 1 0x23 ++ natLe 1 4 ++ data) pec = true) :
    exec (.smbusBlockWrite (s.reach t).smbOwn 0x23 4 data pec t) s = .next ((s.reach t).doPowerReg (leNat data) none) := by
  refine congrArg Host.Outcome.next ((if_neg (by simp [State.smbHears_own h])).trans ((if_neg (by decide)).trans ((if_neg (by simp [hlen])).trans
    (if_neg ?_))))
  change ¬ (!pecOk (natLe 1 (2 * (s.reach t).smbOwn) ++ natLe 1 0x23 ++ natLe 1 4 ++ data) pec) = true
  rw [hpec]
  decide

/-- Settles O39, command by command. -/
theorem suppliesAndSmbusAct : Obligations.SuppliesAndSmbusAct := by
  unfold Obligations.SuppliesAndSmbusAct
  refine ⟨fun s x t => exec_supplyOutOfTolerance, fun s x t => ?_, fun s t => ?_, fun s t hdead => ?_, fun s t f hdead => ?_, fun s t => rfl,
    fun s code t v => exec_smbusBlockRead_register, fun s code t => exec_smbusBlockRead_unknown, fun s t data pec => ?_,
    fun s code count t data pec => exec_smbusBlockWrite_refused,
    fun s t hporst => ?_, fun s t => ?_⟩
  · intro a b hdead hvin
    rw [exec_supplyInTolerance hdead (State.supplyWaits_eq_false fun hx => (hvin hx).2)]
    have hnotLow : ¬ (x = 0 ∧ a.pow.vinLow = true) := fun h => by simp [(hvin h.1).1] at h
    refine congrArg Host.Outcome.next ((if_neg hnotLow).trans ?_)
    simp only [List.isEmpty_iff]
    rfl
  · intro a hdead hlow hback
    rw [exec_supplyInTolerance hdead (State.supplyWaits_eq_false fun _ i hi => absurd (hback.symm.trans hi) nofun)]
    exact congrArg Host.Outcome.next (if_pos ⟨rfl, hlow⟩)
  · exact congrArg Host.Outcome.next (if_neg (by simp [hdead]))
  · exact congrArg Host.Outcome.next (if_neg (by simp [hdead]))
  · exact fun hporst hlen hpec => exec_smbusBlockWrite_power hporst hlen (pecOk_iff.2 hpec)
  · exact congrArg Host.Outcome.next (if_neg (by simp [hporst]))
  · exact fun halert hporst => congrArg Host.Outcome.next (if_neg (by simp [halert, hporst]))

end Sys2Proof.Machine
end

section
/-!
PROOFS of the statement on coolant (spec 15): O34.
-/

namespace Sys2Proof.Machine

variable {s : State} {t : Nat}

/-! ### COOLANT_LOSS (R422, R423) -/

/-- Has the loss that an event shows become due? -/
def State.lossDue (s : State) : CoolantEvent → Bool
  | .gpio => (match s.pinFor true with
    | some d => decide (10000000 ≤ d)
    | none => false)
  | .rise rate change => above rate (s.dget kRiseRateLimit) && !above (fabs change) 10
  | x => s.pow.coolSrc.contains (eventSource x)

theorem exec_coolantLoss (src : CoolantEvent) : exec (.coolantLoss src t) s =
    .next (if (s.reach t).dead || !(s.reach t).lossDue src then s.reach t else (s.reach t).coolLoss (eventSource src)) := by
  cases src <;> rfl

theorem exec_coolantLoss_due {src : CoolantEvent} (hdead : (s.reach t).dead = false) (hdue : (s.reach t).lossDue src = true) :
    exec (.coolantLoss src t) s = .next ((s.reach t).coolLoss (eventSource src)) := by
  rw [exec_coolantLoss, if_neg (by simp [hdead, hdue])]

theorem exec_coolantLoss_notDue {src : CoolantEvent} (hdue : (s.reach t).lossDue src = false) :
    exec (.coolantLoss src t) s = .next (s.reach t) := by
  rw [exec_coolantLoss, if_pos (by simp [hdue])]

theorem State.lossDue_gpio (h : ∃ d, s.pinFor true = some d ∧ 10000000 ≤ d) : s.lossDue .gpio = true := by
  obtain ⟨d, hpin, hd⟩ := h
  simp [State.lossDue, hpin, hd]

theorem State.lossDue_rise {rate change : BitVec 32} :
    s.lossDue (.rise rate change) = true ↔ above rate (s.dget kRiseRateLimit) = true ∧ above (fabs change) 10 = false := by
  simp [State.lossDue]

theorem State.lossDue_rise_eq_false {rate change : BitVec 32}
    (h : above rate (s.dget kRiseRateLimit) = false ∨ above (fabs change) 10 = true) : s.lossDue (.rise rate change) = false := by
  rw [Bool.eq_false_iff, Ne, State.lossDue_rise]
  rintro ⟨hrate, hchange⟩
  rcases h with h | h
  · exact absurd (hrate.symm.trans h) (by decide)
  · exact absurd (hchange.symm.trans h) (by decide)

/-- A source of coolant loss is noted. -/
abbrev State.lossSeen (s : State) (src : CoolantSource) : State :=
  s.modPow (fun p => { p with coolSrc := src :: p.coolSrc.filter (· != src), coolClear := none })

theorem State.coolLoss_again {src : CoolantSource} (h : s.flag 4 = true) : s.coolLoss src = s.lossSeen src := by
  have hseen : (s.lossSeen src).flag 4 = true := h
  rw [State.coolLoss, if_pos hseen]

theorem State.coolLoss_first {src : CoolantSource} (h : s.flag 4 = false) : s.coolLoss src =
    let c := (((((s.lossSeen src).raiseFlag 4).dadd kCoolantLosses 1).dset kCoolantState 1).pursueProf 0).pursueProf 1
    if c.dget kCoolantLossAction = 0 then c
    else ((c.each ((List.range 8).filter (fun n => (c.part n).state == PartState.enabled)) (fun s n => s.disableBelay n)).modPow
      (fun p => { p with standby := true })).coolStandby := by
  have hseen : ¬ (s.lossSeen src).flag 4 = true := ne_true_of_eq_false h
  rw [State.coolLoss, if_neg hseen]

/-! ### COOLANT_LOSS_END (R422) -/

/-- Every source has shown no loss for 10 s. -/
theorem State.coolantCalm_of {c : CoolantCalm} (hreport : s.reportLoss = false) (hclear : ∀ i, s.pow.coolClear = some i → i + 10000000000 ≤ s.now)
    (hbad : s.pinFor true = none)
    (hgpio : .gpio ∈ s.pow.coolSrc → 8 ≤ s.dget kCoolantOkGpio ∨ ∃ d, s.pinFor false = some d ∧ 10000000000 ≤ d)
    (hrise : .rise ∈ s.pow.coolSrc → 10000 ≤ c.ms ∧ below 2 c.rate (s.dget kRiseRateLimit) = true) : s.coolantCalm c = true := by
  have hclear' : (match s.pow.coolClear with
      | some i => decide (i + 10000000000 ≤ s.now)
      | none => true) = true := by
    split
    · next i hi => exact decide_eq_true (hclear i hi)
    · rfl
  have hgpio' : (!s.pow.coolSrc.contains .gpio || decide (8 ≤ s.dget kCoolantOkGpio) || (match s.pinFor false with
      | some d => decide (10000000000 ≤ d)
      | none => false)) = true := by
    by_cases hmem : CoolantSource.gpio ∈ s.pow.coolSrc
    · rcases hgpio hmem with hpin | ⟨d, hpin, hd⟩
      · simp [hpin]
      · simp [hpin, hd]
    · simp [hmem]
  have hrise' : (!s.pow.coolSrc.contains .rise || (decide (10000 ≤ c.ms) && below 2 c.rate (s.dget kRiseRateLimit))) = true := by
    by_cases hmem : CoolantSource.rise ∈ s.pow.coolSrc
    · simp [hrise hmem]
    · simp [hmem]
  have hreport' : (!s.reportLoss) = true := by rw [hreport]; rfl
  have hbad' : (s.pinFor true).isNone = true := by rw [hbad]; rfl
  simp only [State.coolantCalm, Bool.and_eq_true]
  exact ⟨⟨⟨⟨hreport', hclear'⟩, hgpio'⟩, hbad'⟩, hrise'⟩

/-! ### COOLANT_REPORT (R422) -/

theorem exec_coolantReport {r : Requester} {flow inlet : Nat} (h : (s.reach t).Accepts r kCoolantReport 0) (hf : flow < 2 ^ 32)
    (hi : inlet < 2 ^ 32) : exec (.coolantReport r flow inlet t) s = .next (((s.reach t).doCoolReport flow inlet).answer r kCoolantReport stOk) := by
  refine congrArg Host.Outcome.next ((State.typed_of_accepts _ h).trans ?_)
  rw [Nat.mod_eq_of_lt hf, Nat.mod_eq_of_lt hi]

/-- Settles O34, command by command. -/
theorem coolantIsWatched : Obligations.CoolantIsWatched := by
  unfold Obligations.CoolantIsWatched
  refine ⟨fun s src t => ?_, fun s rate change t => ?_, fun s rate change t => ?_, fun s rate change t => ?_, fun s t => ?_,
    fun s r flow inlet t => ?_, fun s t => ?_⟩
  · intro a hdead hdue
    refine exec_coolantLoss_due hdead ?_
    cases src with
    | gpio => exact State.lossDue_gpio hdue
    | rise rate change => exact State.lossDue_rise.2 hdue
    | report => exact List.contains_iff_mem.2 hdue
    | timeout => exact List.contains_iff_mem.2 hdue
  · exact fun h => exec_coolantLoss_notDue (State.lossDue_rise_eq_false h)
  · intro a b hdead hrate hchange hflag
    rw [exec_coolantLoss_due hdead (State.lossDue_rise.2 ⟨hrate, hchange⟩)]
    exact congrArg Host.Outcome.next (State.coolLoss_again hflag)
  · intro a b c hdead hrate hchange hflag
    rw [exec_coolantLoss_due hdead (State.lossDue_rise.2 ⟨hrate, hchange⟩)]
    exact congrArg Host.Outcome.next (State.coolLoss_first hflag)
  · intro a hflag hreport hclear hbad hgpio hrise hdead
    exact congrArg Host.Outcome.next (if_neg (by
      simp [a, hflag, State.coolantCalm_of hreport hclear hbad hgpio hrise, hdead]))
  · intro a h hflow hinlet
    rw [exec_coolantReport h hflow hinlet]
    simp only [State.doCoolReport, State.now_modPow, State.now_dset, a]
  · intro a hdead hon hdue
    exact congrArg Host.Outcome.next (if_neg (by simp [a, hdead, hon, Nat.not_lt.2 hdue]))

end Sys2Proof.Machine
end

section
/-!
PROOFS of the statement on limits and trips (spec 15): O33.
-/

namespace Sys2Proof.Machine

variable {s : State} {t : Nat}

/-! ### POWER_LIMIT and HALF_CURRENT (R414) -/

/-- The power limit acts: how long it has been held, its flag, and the clocks that follow. -/
abbrev State.powerLimited (s : State) (held : Nat) : State :=
  ((s.modPow (fun p => { p with limitHeld := max held p.limitHeld, limitOff := p.limitOff || decide (10000 ≤ held) })).raiseFlag 3).setClocks

theorem exec_powerLimit_held {held : Nat} (hdead : (s.at t).dead = false) (h : (s.at t).pow.west.limitBase.isSome = true) :
    exec (.powerLimit held t) s = .next ((s.at t).powerLimited held) := by
  refine congrArg Host.Outcome.next ((if_neg (by simp [hdead])).trans ?_)
  extract_lets fresh vw ve a b
  have ha : a = s.at t := if_neg (by simp [fresh, Option.isSome_iff_ne_none.1 h])
  rw [← ha]

theorem exec_powerLimit_fresh {held : Nat} (hdead : (s.at t).dead = false) (h : (s.at t).pow.west.limitBase = none) :
    exec (.powerLimit held t) s = .next (State.powerLimited ((((s.at t).modHalf 0 (fun x => { x with limitBase := some ((s.at t).volt 0) })).modHalf 1
      (fun x => { x with limitBase := some ((s.at t).volt 1) })).dadd kPowerLimitEvents 1) held) := by
  refine congrArg Host.Outcome.next ((if_neg (by simp [hdead])).trans ?_)
  extract_lets fresh vw ve a b
  have ha : a = (((s.at t).modHalf 0 (fun x => { x with limitBase := some vw })).modHalf 1 (fun x => { x with limitBase := some ve })).dadd
      kPowerLimitEvents 1 := if_pos (by simp [fresh, h])
  rw [← ha]

theorem exec_halfCurrent {h : Nat} (hh : h < 2) (hdead : (s.at t).dead = false) :
    exec (.halfCurrent h t) s = .next (let a := s.at t
      let b := a.modHalf h (fun x => { x with currentAt := some a.now })
      (if (a.half h).currentAt = none then b.dadd kPowerLimitEvents 1 else b).raiseFlag 3) := by
  refine congrArg Host.Outcome.next ((if_neg (by simp [hh, hdead])).trans ?_)
  simp only [Option.isNone_iff_eq_none]

theorem exec_junctionThrottle {dom : Nat} {temp : BitVec 32} (hdom : dom < 3) (hdead : (s.at t).dead = false)
    (hhot : below 1 temp ((s.at t).dget kThrottleTemp) = false) : exec (.junctionThrottle dom temp t) s =
      .next (((if ((s.at t).noteTj dom temp).flag dom then (s.at t).noteTj dom temp
        else ((s.at t).noteTj dom temp).dadd kThrottleEvents 1).raiseFlag dom).setClocks) :=
  congrArg Host.Outcome.next (if_neg (by simp [hdom, hdead, hhot]))

/-! ### LIMIT_RELEASE (R414) -/

theorem exec_limitRelease_power {p : BitVec 32} {us : Nat} (hdead : (s.at t).dead = false) (hus : 10000 ≤ us)
    (hp : below 10 p (9 * (s.at t).limitW) = true) : exec (.limitRelease (.powerLimit p us) t) s =
      .next ((((((s.at t).modHalf 0 (fun x => { x with limitBase := none })).modHalf 1 (fun x => { x with limitBase := none })).modPow
        (fun p => { p with limitHeld := 0, limitOff := false })).limitsOver).setClocks) :=
  congrArg Host.Outcome.next ((if_neg (by simp [hdead])).trans (if_neg (by simp [hus, hp])))

theorem exec_limitRelease_current {h i : Nat} (hdead : (s.at t).dead = false) (hh : h < 2) (hi : ((s.at t).half h).currentAt = some i)
    (hover : i + 1000000 ≤ (s.at t).now) : exec (.limitRelease (.halfCurrent h) t) s =
      .next ((s.at t).modHalf h (fun x => { x with currentAt := none })).limitsOver := by
  refine congrArg Host.Outcome.next ((if_neg (by simp [hdead])).trans ?_)
  simp only [hi]
  exact if_pos ⟨hh, hover⟩

theorem exec_limitRelease_throttle {d us : Nat} {temp : BitVec 32} (hdead : (s.at t).dead = false) (hd : d < 3) (hus : 10000 ≤ us)
    (hcool : below 1 temp (((s.at t).dget kThrottleTemp : Int) - 5) = true) : exec (.limitRelease (.throttle d temp us) t) s =
      .next (((s.at t).noteTj d temp).dropFlag d).setClocks :=
  congrArg Host.Outcome.next ((if_neg (by simp [hdead])).trans (if_pos ⟨hd, hus, hcool⟩))

/-! ### THERMAL_TRIP (R415) -/

/-- What a trip at sensor `sensor` records. -/
def State.tripBytes (s : State) (sensor : Nat) (temp : BitVec 32) : Bytes :=
  natLe 8 s.tsnNow ++ natLe 2 sensor ++ natLe 2 0 ++ natLe 4 temp.toNat

/-- The part after a trip. -/
def State.tripped (s : State) (sensor : Nat) (temp : BitVec 32) : State :=
  ((((s.dset kTripRecord (leNat (s.tripBytes sensor temp))).dadd kLifeThermalTrips 1).modPins (fun p =>
    { p with tripN := true, ready := false })).updateFaultN.modPow (fun p => { p with
      tripped := true, entry := none, waking := none, next := none, deferred := [], heldOps := [] })).stopClocks

theorem exec_thermalTrip {sensor : Nat} {temp : BitVec 32} (hdead : (s.at t).dead = false) (hhot : below 1 temp 110 = false) :
    exec (.thermalTrip sensor temp t) s = .next ((s.at t).tripped sensor temp) :=
  congrArg Host.Outcome.next (if_neg (by simp [hdead, hhot]))

theorem State.dget_updateFaultN (s : State) {k : Nat} (h : k ≠ kFaultActive) : s.updateFaultN.dget k = s.dget k := State.dget_dset_ne _ h _
theorem State.dget_stopClocks (s : State) (k : Nat) : s.stopClocks.dget k = s.dget k := rfl

theorem State.dget_tripped {sensor : Nat} {temp : BitVec 32} {k : Nat} (h : k ≠ kFaultActive) : (s.tripped sensor temp).dget k =
    ((s.dset kTripRecord (leNat (s.tripBytes sensor temp))).dadd kLifeThermalTrips 1).dget k := by
  rw [State.tripped, State.dget_stopClocks, State.dget_modPow, State.dget_updateFaultN _ h, State.dget_modPins]

/-- From `s` to `u` what a trip leaves stands as it was: what the retained domains hold, and the clock. -/
structure Retained (s u : State) : Prop where
  keep : u.keep = s.keep
  sec : u.sec = s.sec
  floor : u.floor = s.floor
  mem : u.mem = s.mem
  clk : u.clk = s.clk

theorem Retained.trans {a b c : State} (h : Retained a b) (k : Retained b c) : Retained a c :=
  ⟨k.keep.trans h.keep, k.sec.trans h.sec, k.floor.trans h.floor, k.mem.trans h.mem, k.clk.trans h.clk⟩
theorem Retained.dset (s : State) (k v : Nat) : Retained s (s.dset k v) := ⟨rfl, rfl, rfl, rfl, rfl⟩
theorem Retained.modPins (s : State) (f : Pins → Pins) : Retained s (s.modPins f) := ⟨rfl, rfl, rfl, rfl, rfl⟩
theorem Retained.modPow (s : State) (f : Power → Power) : Retained s (s.modPow f) := ⟨rfl, rfl, rfl, rfl, rfl⟩
theorem Retained.updateFaultN (s : State) : Retained s s.updateFaultN := ⟨rfl, rfl, rfl, rfl, rfl⟩
theorem Retained.stopClocks (s : State) : Retained s s.stopClocks := ⟨rfl, rfl, rfl, rfl, rfl⟩

theorem State.retained_tripped (s : State) (sensor : Nat) (temp : BitVec 32) : Retained s (s.tripped sensor temp) :=
  ((((Retained.dset s _ _).trans (.dset _ _ _)).trans (.modPins _ _)).trans (.updateFaultN _)).trans ((Retained.modPow _ _).trans (.stopClocks _))

/-- Settles O33, command by command. -/
theorem limitsAndTripsAct : Obligations.LimitsAndTripsAct := by
  unfold Obligations.LimitsAndTripsAct
  refine ⟨fun s h tj power t hotter => ?_, fun s held t => exec_powerLimit_held, fun s held t => exec_powerLimit_fresh, fun s h t => exec_halfCurrent,
    fun s dom t temp => exec_junctionThrottle, fun s p us t => exec_limitRelease_power, fun s h t i => exec_limitRelease_current,
    fun s d us t temp => exec_limitRelease_throttle, fun s sensor t temp => ?_⟩
  · intro a b target q hh hup
    exact congrArg Host.Outcome.next (if_neg (by simp [a, hh, hup]))
  · intro a hdead hhot
    have hkept := a.retained_tripped sensor temp
    refine ⟨a.tripped sensor temp, exec_thermalTrip hdead hhot, rfl, rfl, rfl, ?_, ?_, rfl, rfl, rfl, rfl, rfl,
      hkept.keep, hkept.sec, hkept.floor, hkept.mem, hkept.clk⟩
    · rw [State.dget_tripped (by decide), State.dget_dadd_ne _ (by decide), State.dget_dset_self, State.tripBytes]
    · rw [State.dget_tripped (by decide), State.dget_dadd_self, State.dget_dset_ne _ (by decide)]

end Sys2Proof.Machine
end

section
/-!
PROOFS of the statement on spares (spec 16): O36.
-/

namespace Sys2Proof.Machine

variable {s : State} {t c : Nat} {x : CatchUp}

/-! ### Takeovers and replay (R438 to R442) -/

theorem exec_takeover (hx : ((s.at t).core c).catchUp = some x) (hready : (s.at t).takeoverReady c = true) (hwarm : x.cold = false) :
    exec (.takeover c t) s = .next (((((s.at t).spareIn c x.slot).modCore c (fun k => { k with mode := .excused, ring := [] })).modRel (fun r =>
      { r with replays := r.replays ++ [c] })).dadd kTakeovers 1) := by
  have hgo : ¬ (!(s.at t).takeoverReady c || x.cold) = true := by simp [hready, hwarm]
  change execTakeover c t s = _
  simp only [execTakeover, hx, if_neg hgo]

theorem exec_coldTakeover (hx : ((s.at t).core c).catchUp = some x) (hready : (s.at t).takeoverReady c = true) (hcold : x.cold = true) :
    exec (.coldTakeover c t) s =
      .next (((((s.at t).ledgerDrop ((s.at t).coreN c) c ((s.at t).core c).ring.length).spareIn c x.slot).modCore c (fun k =>
        { k with mode := .excused, ring := [], catchUp := some { x with ready := true, next := pitchEnd } })).dadd kColdTakeovers 1) := by
  have hgo : ¬ (!(s.at t).takeoverReady c || !x.cold) = true := by simp [hready, hcold]
  change execColdTakeover c t s = _
  simp only [execColdTakeover, hx, if_neg hgo]

theorem exec_replayPitch_next {p : Nat} (hx : ((s.at t).core c).catchUp = some x) (hmode : ((s.at t).core c).mode = .excused)
    (hwarm : x.cold = false) (hp : (s.at t).nextReplay c x.next = some p) :
    exec (.replayPitch c t) s = .next ((s.at t).replayOne c p x) := by
  have hgo : ¬ (((s.at t).core c).mode != CoreMode.excused || x.cold) = true := by simp [hmode, hwarm]
  change execReplayPitch c t s = _
  simp only [execReplayPitch, hx, if_neg hgo, hp]

theorem exec_replayPitch_ready (hx : ((s.at t).core c).catchUp = some x) (hmode : ((s.at t).core c).mode = .excused)
    (hwarm : x.cold = false) (hp : (s.at t).nextReplay c x.next = none) :
    exec (.replayPitch c t) s = .next ((s.at t).modCore c (fun k => { k with catchUp := some { x with ready := true } })) := by
  have hgo : ¬ (((s.at t).core c).mode != CoreMode.excused || x.cold) = true := by simp [hmode, hwarm]
  change execReplayPitch c t s = _
  simp only [execReplayPitch, hx, if_neg hgo, hp]

theorem exec_cairnComplete {k : Nat} (hk : (s.core c).cairn.writing = some k) (hmode : (s.core c).mode = .live) :
    exec (.cairnComplete c) s = .next (s.modCore c (fun q => { q with
      cairn := { q.cairn with writing := none, latest := some k, slot := 1 - q.cairn.slot } })) := by
  have hlive : ¬ ((s.core c).mode != CoreMode.live) = true := by simp [hmode]
  change execCairnComplete c s = _
  simp only [execCairnComplete, hk, if_neg hlive]

/-! ### Slices and long-delay stores (R443, R444) -/

theorem exec_sliceTakeover {i : Nat} (hthere : (s.at t).slicePresent i = true) (hfailed : ((s.at t).slice i).failed = true) :
    exec (.sliceTakeover i t) s = .next ((s.at t).takeSlice i).settle := congrArg Host.Outcome.next (if_pos (by simp [hthere, hfailed]))

theorem exec_storeRebuild {cl p : Nat} {old : List LdsRec} (h : ((s.at t).cluster cl).rebuild = some (old, p)) :
    exec (.storeRebuild cl t) s = .next (let a := s.at t
      let recs := a.rebuilt ((a.partOf cl).getD 8) cl old p
      let b := ((a.modCluster cl (fun q => { q with lds := q.lds ++ recs, rebuild := none })).dadd kStoreRebuilds 1).dadd64
        kStoreLoss (old.length - recs.length)
      if old.length - recs.length = 0 then b else b.reportUnit 0x0806 2 5 cl (b.partOf cl) (old.length - recs.length)) := by
  change execStoreRebuild cl t s = _
  simp only [execStoreRebuild, h]

/-! ### SWAP_OUT (R448) -/

theorem State.doSwapOut_absent (h : s.corePresent c = false) : s.doSwapOut c = (stArgument, s) := if_pos (by simp [h])

theorem State.doSwapOut_refused (hthere : s.corePresent c = true) (h : s.spareOf (clusterOf c) = none ∨ s.takeoverBusy (clusterOf c) = true) :
    s.doSwapOut c = (stState, s.dset kTestResult 4) := by
  rw [State.doSwapOut, if_neg (by simp [hthere]), if_pos (by simpa using h)]

theorem State.doSwapOut_taken (hthere : s.corePresent c = true) (hspare : (s.spareOf (clusterOf c)).isSome = true)
    (hidle : s.takeoverBusy (clusterOf c) = false) : s.doSwapOut c =
      let b := (s.modRel (fun x => { x with swapWait := x.swapWait.filter (· != c) ++ [c] })).dset kTestResult 1
      (stOk, if running (b.coreP c) then b else b.swapOutNow c) := by
  rw [State.doSwapOut, if_neg (by simp [hthere]), if_neg (by simp [Option.isSome_iff_ne_none.1 hspare, hidle])]

theorem exec_swapOutTestDone {slot : Nat} {pass : Bool} (h : (s.at t).rel.testCore.find? (fun e => e.1 == c) = some (c, slot)) :
    exec (.swapOutTestDone c pass t) s = .next ((s.at t).testEnds c slot pass) := by
  change execSwapOutTestDone c pass t s = _
  simp only [execSwapOutTestDone, h]

/-- Settles O36, command by command. -/
theorem sparesTakeOver : Obligations.SparesTakeOver := by
  unfold Obligations.SparesTakeOver
  refine ⟨fun s c t x => exec_takeover, fun s c t p x => exec_replayPitch_next, fun s c t x => exec_replayPitch_ready, fun s c t x => exec_coldTakeover,
    fun s c k => exec_cairnComplete, fun s i t => exec_sliceTakeover, fun s cl t p old => exec_storeRebuild, fun s r c t => ?_, fun s r c t => ?_,
    fun s r c t => ?_, fun s c slot t => exec_swapOutTestDone, fun s c slot t => exec_swapOutTestDone⟩
  · exact fun h hthere hspare hidle => congrArg Host.Outcome.next (State.typed_answers h (State.doSwapOut_taken hthere hspare hidle))
  · exact fun h hthere => congrArg Host.Outcome.next (State.typed_answers h (State.doSwapOut_absent hthere))
  · exact fun h hthere hno => congrArg Host.Outcome.next (State.typed_answers h (State.doSwapOut_refused hthere hno))

end Sys2Proof.Machine
end

section
/-!
PROOFS of the statement on the firmware update (spec 17): O37.
-/

namespace Sys2Proof.Machine

variable {s : State} {r : Requester} {t : Nat} {data : Bytes}

/-! ### STAGE (R465) -/

theorem State.doStage_starts (hlock : s.bootLocked = false) (hidle : s.stageBusy false = false) (hmem : s.memOn = true)
    (hlen : 30080 ≤ s.dget kFwStageLength) (halign : s.dget kFwStageAddr % 32 = 0)
    (hmine : (framesOf (s.dget kFwStageAddr) (s.dget kFwStageLength)).all (fun f => softOwner (s.frameOwner f) && s.frameOwner f != 0xFF) = true)
    (hok : s.spaceOk spLp (s.dget kFwStageAddr) (s.dget kFwStageLength) = true) :
    s.doStage = (stOk, let b := (s.eraseB.dset kFwState 1).dset kFwError 0
      if b.spaceBad spLp (s.dget kFwStageAddr) (s.dget kFwStageLength) then b.fwFail fwMemory
      else b.modSec (fun y => { y with copying := some (b.lpRead (s.dget kFwStageAddr) (s.dget kFwStageLength)), chunks := none })) := by
  have hready : ¬ (s.stageBusy false = true ∨ (!s.memOn) = true) := by simp [hidle, hmem]
  have hrange : ¬ (s.dget kFwStageLength < 30080 ∨ s.dget kFwStageAddr % 32 ≠ 0 ∨
      ¬ (framesOf (s.dget kFwStageAddr) (s.dget kFwStageLength)).all (fun f => softOwner (s.frameOwner f) && s.frameOwner f != 0xFF) = true ∨
      (!s.spaceOk spLp (s.dget kFwStageAddr) (s.dget kFwStageLength)) = true) := by
    rw [hmine, hok, halign]
    simpa using hlen
  rw [State.doStage, if_neg (by simp [hlock]), if_neg hready, if_neg hrange]

/-! ### FW_CHUNK (R465) -/

/-- The first chunk: it empties slot B, and is the whole image where it has its length. -/
theorem State.doFwChunk_first (hlo : 9 ≤ data.length) (hhi : data.length ≤ 1024) (hlock : s.bootLocked = false) (hidle : s.stageBusy true = false)
    (hzero : fieldAt data 0 4 = 0) (hfit : data.length - 8 ≤ fieldAt data 4 4) : s.doFwChunk data =
      (stOk, let b := ((s.eraseB.dset kFwState 1).dset kFwError 0).modSec (fun y => { y with chunks := some (fieldAt data 4 4, data.drop 8) })
        if data.length - 8 = fieldAt data 4 4 then b.dset kFwState 2 else b) := by
  have horder : ¬ (fieldAt data 4 4 ≠ fieldAt data 4 4 ∨ ([] : Bytes).length ≠ 0 ∨ fieldAt data 4 4 < 0 + (data.drop 8).length) := by
    simpa using hfit
  rw [State.doFwChunk, if_neg (by omega), if_neg (by simp [hlock]), if_neg (by simp [hidle])]
  simp only [hzero, if_true]
  rw [if_neg horder, Nat.zero_add, List.length_drop, List.nil_append]

/-- A chunk that follows those held. -/
theorem State.doFwChunk_next {held : Bytes} (hlo : 9 ≤ data.length) (hhi : data.length ≤ 1024) (hlock : s.bootLocked = false)
    (hidle : s.stageBusy true = false) (hnonzero : fieldAt data 0 4 ≠ 0) (hheld : s.sec.chunks = some (fieldAt data 4 4, held))
    (hplace : held.length = fieldAt data 0 4) (hfit : held.length + (data.length - 8) ≤ fieldAt data 4 4) : s.doFwChunk data =
      (stOk, let b := s.modSec (fun y => { y with chunks := some (fieldAt data 4 4, held ++ data.drop 8) })
        if held.length + (data.length - 8) = fieldAt data 4 4 then b.dset kFwState 2 else b) := by
  have horder : ¬ (fieldAt data 4 4 ≠ fieldAt data 4 4 ∨ held.length ≠ fieldAt data 0 4 ∨
      fieldAt data 4 4 < fieldAt data 0 4 + (data.drop 8).length) := by
    simpa [hplace] using hplace ▸ hfit
  rw [State.doFwChunk, if_neg (by omega), if_neg (by simp [hlock]), if_neg (by simp [hidle])]
  simp only [if_neg hnonzero, hheld]
  rw [if_neg horder, ← hplace, List.length_drop]

/-- A chunk out of its order. -/
theorem State.doFwChunk_order (hlo : 9 ≤ data.length) (hhi : data.length ≤ 1024) (hlock : s.bootLocked = false)
    (hidle : s.stageBusy true = false) (hnonzero : fieldAt data 0 4 ≠ 0) (horder : ∀ held, s.sec.chunks = some (fieldAt data 4 4, held) →
      held.length ≠ fieldAt data 0 4 ∨ fieldAt data 4 4 < held.length + (data.length - 8)) :
    s.doFwChunk data = (stOk, s.fwFail fwOrder) := by
  rw [State.doFwChunk, if_neg (by omega), if_neg (by simp [hlock]), if_neg (by simp [hidle])]
  simp only [if_neg hnonzero]
  cases hheld : s.sec.chunks with
  | none => rfl
  | some c =>
    obtain ⟨total, held⟩ := c
    refine if_pos (show total ≠ _ ∨ held.length ≠ _ ∨ _ from ?_)
    by_cases htotal : total = fieldAt data 4 4
    · have := horder held (by rw [hheld, htotal])
      rw [List.length_drop]
      omega
    · exact .inl htotal

/-! ### STAGING_VERIFY (R459, R465) -/

/-- Slot B holds the image, verified or not; in recovery mode a verified one brings a device reset. -/
def State.verified (s : State) (b : Bytes) : State :=
  let e := s.fwCheck b
  let u := ((s.modSec (fun x => { x with slotB := fwSlotOf b (e == 0), chunks := none, copying := none })).dset kFwError e).dset kFwState
    (if e = 0 then 3 else 4)
  if u.sec.recovery ∧ e = 0 then u.modSec (fun x => { x with resetDue := true }) else u

/-- The image was copied from LPDDR6, or is complete in chunks. -/
theorem exec_stagingVerify {a : State} (ha : a = (s.reach t).svnTick) {b : Bytes} (h : (a.sec.copying = some b ∧ a.dget kFwState = 1) ∨
    (a.sec.copying = none ∧ a.dget kFwState = 2 ∧ ∃ n, a.sec.chunks = some (n, b))) : exec (.stagingVerify t) s = .next (a.verified b) := by
  subst ha
  rcases h with ⟨hcopy, hstate⟩ | ⟨hcopy, hstate, n, hchunks⟩
  · change execStagingVerify t s = _
    simp only [execStagingVerify, hcopy, hstate, if_true, State.verified]
  · change execStagingVerify t s = _
    simp only [execStagingVerify, hcopy, hstate, hchunks, if_true, Option.map_some, State.verified]

/-! ### Trials and the security version (R466 to R468) -/

theorem exec_activation {f : BringupFacts} (hwaits : (s.reach t).svnTick.dget kFwState = 5) (hquiet : (s.reach t).svnTick.activationWait = 0)
    (hup : (s.reach t).svnTick.answers = true) : exec (.activation f t) s =
      .next (((((s.reach t).svnTick).dset kFwState 6).writeBoot 1).deviceReset causeFirmware f) :=
  congrArg Host.Outcome.next (if_neg (by simp [hwaits, hquiet, hup]))

/-- COMMIT_SVN of an image that runs from slot A outside a trial: at once, or once an emergency is over. -/
theorem State.doCommitSvn_taken (hboot : s.bootMode = 0) (hslot : s.sec.running = 0) : s.doCommitSvn =
    (stOk, s.modSec (fun x => if s.activationWait % 2 = 0 then { x with svnDue := false, svnFused := max x.svnFused x.runImg.svn }
      else { x with svnDue := true })) := by
  rw [State.doCommitSvn, if_pos ⟨hboot, hslot⟩, State.svnTick]
  by_cases hcalm : s.activationWait % 2 = 0
  · have hnow : ((s.modSec (fun x => { x with svnDue := true })).sec.svnDue &&
        (s.modSec (fun x => { x with svnDue := true })).activationWait % 2 == 0) = true := beq_iff_eq.2 hcalm
    simp only [if_pos hnow, if_pos hcalm]
    rfl
  · have hlater : ¬ ((s.modSec (fun x => { x with svnDue := true })).sec.svnDue &&
        (s.modSec (fun x => { x with svnDue := true })).activationWait % 2 == 0) = true := fun h => hcalm (beq_iff_eq.1 h)
    simp only [if_neg hlater, if_neg hcalm]

/-- Settles O37, command by command. -/
theorem firmwareIsUpdated : Obligations.FirmwareIsUpdated := by
  unfold Obligations.FirmwareIsUpdated
  refine ⟨fun s r t => ?_, fun s r data t => ?_, fun s r data held t => ?_, fun s r data t => ?_, fun s t b => ?_, fun s r t => ?_,
    fun s t f => exec_activation, fun s r t => ?_, fun s r t => ?_, fun s r t => ?_, fun s r t => ?_⟩
  · exact fun h hlock hidle hmem hlen halign hmine hok =>
      congrArg Host.Outcome.next (State.typed_answers h (State.doStage_starts hlock hidle hmem hlen halign hmine hok))
  · exact fun h hlo hhi hlock hidle hzero hfit =>
      congrArg Host.Outcome.next (State.typed_answers h (State.doFwChunk_first hlo hhi hlock hidle hzero hfit))
  · exact fun h hlo hhi hlock hidle hnonzero hheld hplace hfit =>
      congrArg Host.Outcome.next (State.typed_answers h (State.doFwChunk_next hlo hhi hlock hidle hnonzero hheld hplace hfit))
  · exact fun h hlo hhi hlock hidle hnonzero horder =>
      congrArg Host.Outcome.next (State.typed_answers h (State.doFwChunk_order hlo hhi hlock hidle hnonzero horder))
  · exact fun h => exec_stagingVerify rfl h
  · exact fun h hverified => congrArg Host.Outcome.next (State.typed_answers h (if_pos hverified))
  · exact fun h hwaits => congrArg Host.Outcome.next (State.typed_answers h (if_pos hwaits))
  · exact fun h htrial => congrArg Host.Outcome.next (State.typed_answers h (if_pos htrial))
  · exact fun h htrial => congrArg Host.Outcome.next (State.typed_answers h (if_pos htrial))
  · exact fun h hboot hslot => congrArg Host.Outcome.next (State.typed_answers h (State.doCommitSvn_taken hboot hslot))

end Sys2Proof.Machine
end

section
/-!
PROOFS of the statement on power states (spec 15): O32.
-/

namespace Sys2Proof.Machine

variable {s u v : State} {t : Nat}

/-! ### Power requests (R407, R408) -/

/-- A request is noted with its TAG. -/
abbrev State.tagged (s : State) (tag : Nat) : State := s.modPow (fun p => { p with tag := tag })
/-- A request for the state of code `c` is PENDING. -/
abbrev State.askedFor (s : State) (c : Nat) : State := (s.dset kPowerResult resPending).modPow (fun p => { p with target := c })

theorem State.powerRequest_unknown {tag c : Nat} {fail : Option Nat} (hc : 3 < c) :
    s.powerRequest tag c fail = (s.tagged tag).refusePower c (((s.tagged tag).refuser c).getD 0) := if_pos hc

theorem State.powerRequest_known {tag c : Nat} {fail : Option Nat} (hc : c ≤ 3) (hwaking : s.pow.waking = none) :
    s.powerRequest tag c fail =
      if c = powerCode s.pow.state then ((s.tagged tag).askedFor c).dset kPowerResult resDone
      else if c < powerCode s.pow.state then ((s.tagged tag).askedFor c).modPow (fun p => { p with waking := some (powerOf c) })
      else match (s.tagged tag).refuser c with
        | some ident => (s.tagged tag).refusePower c ident
        | none => ((s.tagged tag).askedFor c).startEntry (powerOf c) fail := by
  have hnone : ¬ (s.tagged tag).pow.waking.isSome = true := by simp [hwaking]
  rw [State.powerRequest, if_neg (Nat.not_lt.2 hc)]
  exact if_neg hnone

theorem State.powerRequest_deeper_refused {tag c ident : Nat} {fail : Option Nat} (hc : c ≤ 3) (hwaking : s.pow.waking = none)
    (hdeep : powerCode s.pow.state < c) (hr : (s.tagged tag).refuser c = some ident) :
    s.powerRequest tag c fail = (s.tagged tag).refusePower c ident := by
  rw [State.powerRequest_known hc hwaking, if_neg hdeep.ne', if_neg hdeep.le.not_gt, hr]

theorem State.powerRequest_deeper_granted {tag c : Nat} {fail : Option Nat} (hc : c ≤ 3) (hwaking : s.pow.waking = none)
    (hdeep : powerCode s.pow.state < c) (hr : (s.tagged tag).refuser c = none) :
    s.powerRequest tag c fail = ((s.tagged tag).askedFor c).startEntry (powerOf c) fail := by
  rw [State.powerRequest_known hc hwaking, if_neg hdeep.ne', if_neg hdeep.le.not_gt, hr]

theorem State.doPowerReg_taken {w : Nat} {fail : Option Nat} (hfree : s.dget kPowerResult ≠ resPending) (hdead : s.dead = false)
    (hup : s.rel.mgmtUp = true) : s.doPowerReg w fail = s.powerRequest (bits w 23 16) (bits w 3 0) fail := by
  rw [State.doPowerReg, if_neg (by simp [hfree, hdead]), if_neg (by simp [hup])]

theorem State.doPowerTarget_free {r : Requester} {c : Nat} {fail : Option Nat} (hc : c ≤ 3) (hfree : s.dget kPowerResult ≠ resPending) :
    s.doPowerTarget r c fail = (stOk, s.powerRequest 0 c fail) := by
  unfold State.doPowerTarget
  rw [if_neg (Nat.not_lt.2 hc), if_pos hfree]

/-- A write of POWER_TARGET by a host during an entry: a wake where it names a state above the one being entered. -/
theorem State.doPowerTarget_entering {p c : Nat} {fail : Option Nat} {e : Entry} (hc : c ≤ 3) (hpending : s.dget kPowerResult = resPending)
    (he : s.pow.entry = some e) : s.doPowerTarget (.mailbox p) c fail =
      if c < powerCode e.target then (stOk, (s.modPow (fun p => { p with next := some (0, c) })).wakeEvent 0x1001) else (stState, s) := by
  unfold State.doPowerTarget
  rw [if_neg (Nat.not_lt.2 hc), if_neg (fun h => h hpending)]
  simp only [he]
  rfl

/-! ### Supplies of the halves -/

/-- From `s` to `u` no more than the halves, and what partitions require of them, has changed. -/
structure Supplied (s u : State) : Prop where
  only : u = { s with pow := u.pow, parts := u.parts }
  pow : u.pow = { s.pow with west := u.pow.west, east := u.pow.east }

theorem Supplied.refl (s : State) : Supplied s s := ⟨rfl, rfl⟩
theorem Supplied.trans (h : Supplied s u) (k : Supplied u v) : Supplied s v where
  only := by
    have := k.only
    rw [h.only] at this
    exact this
  pow := by
    have := k.pow
    rw [h.pow] at this
    exact this
theorem Supplied.each {f : State → Nat → State} (hf : ∀ s n, Supplied s (f s n)) (l : List Nat) (s : State) : Supplied s (s.each l f) := by
  induction l generalizing s with
  | nil => exact .refl s
  | cons n r ih => exact (hf s n).trans (ih (f s n))
theorem Supplied.modPart (s : State) (n : Nat) (f : Part → Part) : Supplied s (s.modPart n f) := ⟨rfl, rfl⟩
theorem Supplied.modHalf (s : State) (h : Nat) (f : Half → Half) : Supplied s (s.modHalf h f) := by
  unfold State.modHalf
  split <;> exact ⟨rfl, rfl⟩
theorem Supplied.dget (h : Supplied s u) (k : Nat) : u.dget k = s.dget k := by
  rw [State.dget, h.only]
  rfl

/-! ### WAKE (R411) -/

/-- The part is in state `x`, and its request is DONE. -/
def State.wokenAs (s : State) (x : PowerState) : State :=
  ((s.modPow (fun p => { p with state := x, waking := none })).dset kPowerResult resDone).dset kDeviceState
    (if x = .active then devOperational else devLowPower)
theorem Supplied.only_woken {x : PowerState} (h : Supplied (s.wokenAs x) u) : u = { s with pow := u.pow, dict := u.dict, parts := u.parts } := by
  rw [h.only]
  rfl
/-- In ACTIVE the supplies are nominal. -/
def State.wokenSupplies (s : State) (x : PowerState) : State :=
  if x = .active then
    (s.each (List.range 8) (fun s n => s.modPart n (fun p => { p with needVolt := [] }))).each [0, 1] (fun s h =>
      s.modHalf h (fun q => { q with supply := profNominal q.profile })) else s

theorem State.wakeDone_drowse {x : PowerState} (h : s.pow.state = .drowse) :
    s.wakeDone x = ((s.wokenAs x).wokenSupplies x).afterPower := by
  unfold State.wakeDone
  extract_lets up woken done refilled trained linked supplied
  have hlinked : linked = s.wokenAs x := if_pos (by simp [up, h])
  change (linked.wokenSupplies x).afterPower = _
  rw [hlinked]

theorem State.wokenSupplies_supplied (s : State) (x : PowerState) : Supplied s (s.wokenSupplies x) := by
  unfold State.wokenSupplies
  split
  · exact (Supplied.each (fun s n => .modPart s n _) _ s).trans (.each (fun s h => .modHalf s h _) _ _)
  · exact .refl s

/-- Nothing has waited for the end of an entry or a wake. -/
theorem State.afterPower_idle (hnext : s.pow.next = none) (hdeferred : s.pow.state = .active → s.pow.deferred = []) : s.afterPower = s := by
  have hdone (h : s.pow.deferred = []) : s.modPow (fun p => { p with deferred := [] }) = s := by
    conv_rhs => rw [show s = s.modPow id from rfl]
    rw [State.modPow, State.modPow, ← h]
    rfl
  simp only [State.afterPower, hnext]
  split
  · next hactive =>
    rw [hdeferred hactive.1]
    exact hdone (hdeferred hactive.1)
  · rfl

/-- A wake from DROWSE with nothing that waits for it. -/
theorem State.wakeDone_drowse_idle {x : PowerState} (hstate : s.pow.state = .drowse) (hnext : s.pow.next = none)
    (hdeferred : x ≠ .active ∨ s.pow.deferred = []) : Supplied (s.wokenAs x) (s.wakeDone x) := by
  have h := (s.wokenAs x).wokenSupplies_supplied x
  rw [State.wakeDone_drowse hstate, State.afterPower_idle]
  · exact h
  · rw [h.pow]
    exact hnext
  · rw [h.pow]
    exact hdeferred.resolve_left ∘ not_not_intro

theorem exec_wake {x : PowerState} {f : BringupFacts} (hx : (s.reach t).pow.waking = some x) (hdead : (s.reach t).dead = false)
    (hstate : (s.reach t).pow.state ≠ .parked) : exec (.wake f t) s = .next ((s.reach t).wakeDone x) := by
  change execWake f t s = _
  simp only [execWake, hx, hdead, Bool.false_eq_true, if_false, if_neg hstate]

theorem exec_wake_parked {x : PowerState} {f : BringupFacts} (hx : (s.reach t).pow.waking = some x) (hdead : (s.reach t).dead = false)
    (hstate : (s.reach t).pow.state = .parked) : exec (.wake f t) s = .next ((s.reach t).deviceReset causeFirmware f) := by
  change execWake f t s = _
  simp only [execWake, hx, hdead, Bool.false_eq_true, if_false, if_pos hstate]

theorem exec_wakeGpio {pin : Nat} {rising : Bool} (hpin : pin < 8) (hdead : (s.reach t).dead = false) :
    exec (.wakeGpio pin rising t) s = .next (let a := s.reach t
      let b := a.modPins (fun p => { p with gpio := setBit p.gpio pin rising, gpioAt := mset dZero p.gpioAt pin a.now })
      if b.dget kWakeGpio = pin ∧ (b.dget kWakeEdge = 0 ↔ rising = true) then b.wakeEvent (0x1200 + pin) else b) := by
  refine congrArg Host.Outcome.next ((if_neg (by simp [hpin, hdead])).trans ?_)
  refine if_congr (and_congr_right fun _ => ?_) rfl rfl
  rw [Bool.eq_iff_iff, beq_iff_eq]

/-! ### Profiles and clocks (R402, R404) -/

theorem exec_profileWaitTimeout {h : Nat} {q : Nat × Nat} (hq : ((s.at t).half h).pendProf = some q) (hh : h < 2)
    (hup : (s.at t).rel.mgmtUp = true) (hdue : q.2 + (s.at t).dget kProfileWait * 1000000 ≤ (s.at t).now) :
    exec (.profileWaitTimeout h t) s = .next ((s.at t).modHalf h (fun x => { x with
      holding := true
      held := x.held ++ (((s.at t).halfParts h).filter (fun n => !((s.at t).part n).seq.isOpen)).filter (fun n => !x.held.contains n) })) := by
  have hgo : ¬ (2 ≤ h ∨ (!(s.at t).rel.mgmtUp) = true ∨ (s.at t).now < q.2 + (s.at t).dget kProfileWait * 1000000) := by
    simp [hh, hup, hdue]
  change execProfileWaitTimeout h t s = _
  simp only [execProfileWaitTimeout, hq, if_neg hgo]

theorem exec_profileChange {h : Nat} {q : Nat × Nat} (hq : ((s.at t).half h).pendProf = some q) (hh : h < 2)
    (hup : (s.at t).rel.mgmtUp = true) (hshut : ∀ n ∈ (s.at t).halfParts h, ((s.at t).part n).seq.isOpen = false) :
    exec (.profileChange h t) s = .next ((s.at t).switchProf h q.1) := by
  have hgo : ¬ (2 ≤ h ∨ (!(s.at t).rel.mgmtUp) = true ∨ ((s.at t).halfParts h).any (fun n => ((s.at t).part n).seq.isOpen) = true) := by
    simpa [hh, hup] using hshut
  change execProfileChange h t s = _
  simp only [execProfileChange, hq, if_neg hgo]

/-- The clamp of the wake-on-event clocks touches the partitions and their WOE_CLOCK_ACTUAL alone. -/
structure Clamped (s u : State) : Prop where
  only : u = { s with parts := u.parts, dict := u.dict }
  dget : ∀ k, (∀ n, k ≠ kWoeClockActual n) → u.dget k = s.dget k

theorem State.clampWoe_clamped (s : State) (h : Nat) : Clamped s (s.clampWoe h) := by
  unfold State.clampWoe
  generalize s.halfParts h = l
  induction l generalizing s with
  | nil => exact ⟨rfl, fun _ _ => rfl⟩
  | cons n r ih =>
    let one := (s.modPart n (fun p => { p with woeClock := s.woeActual n })).dset (kWoeClockActual n) (if (s.part n).woe then s.woeActual n else 0)
    obtain ⟨honly, hdget⟩ := ih one
    exact ⟨honly, fun k hk => (hdget k hk).trans (State.dget_dset_ne _ (hk n) _)⟩

theorem State.half_modHalf_self (s : State) (h : Nat) (f : Half → Half) : (s.modHalf h f).half h = f (s.half h) := by
  unfold State.modHalf State.half
  split <;> rfl

theorem State.half_modHalf_other (s : State) {h : Nat} (hh : h < 2) (f : Half → Half) : (s.modHalf h f).half (1 - h) = s.half (1 - h) := by
  interval_cases h <;> rfl

theorem each_pow {f : State → Nat → State} (hf : ∀ s n, (f s n).pow = s.pow) (l : List Nat) (s : State) : (s.each l f).pow = s.pow := by
  induction l generalizing s with
  | nil => rfl
  | cons n r ih => exact (ih (f s n)).trans (hf s n)

/-- Half `h` runs profile `q`; the other half, and all but the clocks that the profile clamps, stand as they were. -/
theorem State.switchProf_switches {h : Nat} (hh : h < 2) (q : Nat) : let u := s.switchProf h q
    (u.half h).profile = q ∧ (u.half h).pendProf = none ∧ (u.half h).holding = false ∧ (u.half h).supply = profNominal q ∧
      (u.half h).ceiling = profTop q ∧ u.half (1 - h) = s.half (1 - h) ∧
      u.dget kProfileChanges = satAdd 32 (s.dget kProfileChanges) 1 ∧
      u = { s with pow := u.pow, parts := u.parts, clk := u.clk, dict := u.dict } := by
  unfold State.switchProf
  extract_lets v0 free v1 a settle u
  dsimp only [u]
  have hpow : a.pow = s.pow := each_pow (fun s n => s.modPart_pow n _) _ free.2
  have ha : Supplied free.2 a := .each (fun s n => .modPart s n _) _ _
  generalize hb : a.modHalf h (fun x => { x with
    profile := q, supply := v1, pendProf := none, holding := false, ceiling := profTop q, settleAt := settle }) = b
  have hsup : Supplied free.2 b := hb ▸ ha.trans (.modHalf a h _)
  have hc := b.clampWoe_clamped h
  have hhalf (i : Nat) : ((b.clampWoe h).dadd kProfileChanges 1).half i = b.half i := by
    rw [State.half, State.half, State.dadd_pow, hc.only]
  have hself : b.half h = { a.half h with
      profile := q, supply := v1, pendProf := none, holding := false, ceiling := profTop q, settleAt := settle } := by
    rw [← hb, State.half_modHalf_self]
  rw [hhalf, hhalf, hself]
  refine ⟨rfl, rfl, rfl, rfl, rfl, ?_, ?_, ?_⟩
  · rw [← hb, State.half_modHalf_other _ hh, State.half, State.half, hpow]
  · rw [State.dget_dadd_self, hc.dget _ (fun n => by simp only [kProfileChanges, kWoeClockActual]; omega), hsup.dget]
    rfl
  · generalize b.clampWoe h = w at hc
    have honly := hc.only
    rw [hsup.only] at honly
    rw [honly]
    rfl

theorem exec_profileRequest {r : Requester} {h x : Nat} (hh : h < 2) (ha : (s.reach t).Accepts r (kProfReq h) x) (hx : x < 2) :
    exec (.profileRequest r h x t) s = .next ((((s.reach t).dset (kProfReq h) x).pursueProf h).answer r (kProfReq h) stOk) :=
  congrArg Host.Outcome.next ((if_neg (Nat.not_le.2 hh)).trans (State.typed_answers ha (if_neg (Nat.not_le.2 hx))))

theorem exec_fabricClockReq {r : Requester} {h x : Nat} (hh : h < 2) (ha : (s.reach t).Accepts r (kClockReq h) x) (hlo : 500 ≤ x)
    (hhi : x ≤ 2000) (hstep : x % 250 = 0) :
    exec (.fabricClockReq r h x t) s = .next (((s.reach t).dset (kClockReq h) x).answer r (kClockReq h) stOk) :=
  congrArg Host.Outcome.next ((if_neg (Nat.not_le.2 hh)).trans (State.typed_answers ha (if_neg (by omega))))

/-- Settles O32, command by command. -/
theorem powerStatesAreEnteredAndLeft : Obligations.PowerStatesAreEnteredAndLeft := by
  unfold Obligations.PowerStatesAreEnteredAndLeft
  refine ⟨fun s w t => ?_, fun s w t fail => ?_, fun s r c t fail => ?_, fun s p c t fail e => ?_, fun s w t fail => ?_, fun s w t fail => ?_,
    fun s t x f => exec_wake, fun s t x f => ?_, fun s t x f => exec_wake_parked, fun s pin t rising => exec_wakeGpio,
    fun s r h v t => exec_profileRequest, fun s h t q => exec_profileWaitTimeout, fun s h t q => ?_, fun s r h v t => exec_fabricClockReq⟩
  · intro a b hhost hfree hdead hup hwaking hsame hc
    refine congrArg Host.Outcome.next ((if_pos ⟨rfl, hhost⟩).trans ?_)
    rw [State.doPowerReg_taken hfree hdead hup, State.powerRequest_known hc hwaking, if_pos hsame]
  · intro a c b hfree hdead hup hwaking hdeep hc
    have htaken := State.doPowerReg_taken (w := w) (fail := fail) hfree hdead hup
    cases hr : b.refuser c with
    | some ident => exact congrArg Host.Outcome.next (htaken.trans (State.powerRequest_deeper_refused hc hwaking hdeep hr))
    | none => exact congrArg Host.Outcome.next (htaken.trans (State.powerRequest_deeper_granted hc hwaking hdeep hr))
  · exact fun h hc hfree => congrArg Host.Outcome.next (State.typed_answers h (State.doPowerTarget_free hc hfree))
  · intro a h hc hpending he
    have hdo := State.doPowerTarget_entering (p := p) (fail := fail) hc hpending he
    by_cases habove : c < powerCode e.target
    · rw [if_pos habove] at hdo ⊢
      exact congrArg Host.Outcome.next (State.typed_answers h hdo)
    · rw [if_neg habove] at hdo ⊢
      exact congrArg Host.Outcome.next (State.typed_answers h hdo)
  · intro a b hfree hdead hup hwaking habove hc
    refine congrArg Host.Outcome.next ?_
    rw [State.doPowerReg_taken hfree hdead hup, State.powerRequest_known hc hwaking, if_neg habove.ne, if_pos habove]
  · intro a b hfree hdead hup hc
    refine congrArg Host.Outcome.next ?_
    rw [State.doPowerReg_taken hfree hdead hup, State.powerRequest_unknown hc]
    rfl
  · intro a hx hdead hstate hnext hdeferred
    have h := State.wakeDone_drowse_idle hstate hnext hdeferred
    refine ⟨a.wakeDone x, exec_wake hx hdead (by rw [hstate]; decide), ?_, ?_, ?_, ?_, ?_⟩
    · rw [h.pow]
      rfl
    · rw [h.pow]
      rfl
    · rw [h.dget, State.wokenAs, State.dget_dset_ne _ (by decide), State.dget_dset_self]
    · rw [h.dget, State.wokenAs, State.dget_dset_self]
    · exact h.only_woken
  · exact fun hq hh hup hshut => ⟨_, exec_profileChange hq hh hup hshut, State.switchProf_switches hh q.1⟩

end Sys2Proof.Machine
end

section
/-!
PROOFS of the statements on queues and sync objects (spec 09): queues come and go (O16), orphaned queues (O47).
-/

namespace Sys2Proof.Machine

variable {s a : State} {h : OpHead}

/-- The first check of an operation is passed: no reset of the issuer's partition (R397), its object there (R232), and what else it asks for. -/
theorem not_refused {barred there : Bool} {p : Prop} (hb : barred = false) (hq : there = true) (hp : ¬ p) :
    ¬ (barred = true ∨ (!there) = true ∨ p) := by
  simp [hb, hq, hp]

theorem State.slicePresent_lt {i : Nat} (hi : s.slicePresent i = true) : i < 64 := by
  simp only [State.slicePresent, Bool.and_eq_true, decide_eq_true_eq] at hi
  exact hi.1.1

/-! ### Queues (R240, R242) and groups (R247) -/

theorem State.doCreateQ_made {rec : Bytes} (hc : a.createStatus h rec = qOk) : let r := recordQueue rec h.issuer
    a.doCreateQ h rec = ((if r.kind = 0 then a else a.spaceWrite 0x10 r.space r.base (List.replicate (queueBytes r) 0)).modQueue
      h.object (fun _ => r)).finish h (h.object / 16384) 1 h.object qOk 0 [] :=
  if_neg (not_not.2 hc)

theorem State.doAttach_attached {reader : Nat} {flush : Bool} (hb : a.barred h = false) (hq : a.qThere h.object = true)
    (hs : (a.queue h.object).state = 2) (ho : (a.queue h.object).owner = h.issuer) (hl : epListed reader = true) (hr : reader ≠ 0x30)
    (hg : a.groupStatus (h.object / 16384) { a.queue h.object with reader := reader } = qOk) :
    let b := if flush then a.returnAll h.object else a
    a.doAttach h reader flush = (b.modQueue h.object (fun x => { x with state := 1, reader := reader })).finish h (h.object / 16384) 3
      h.object qOk (b.messages (b.queue h.object)).length [] := by
  unfold State.doAttach
  dsimp only
  rw [if_neg (not_refused hb hq (by omega)), if_neg (not_not.2 ho), if_neg (not_not.2 hs), if_neg (by simp [hl, hr]), if_neg (not_not.2 hg)]

theorem State.doGroupSet_bound {reader policy : Nat} (hb : a.barred h = false) (hi : a.slicePresent (h.object / 256) = true)
    (hl : epListed reader = true) (hp : policy < 2)
    (hr : (mget dSel (a.slice (h.object / 256)).groups (h.object % 256)).reader = h.issuer ∨
      ((mget dSel (a.slice (h.object / 256)).groups (h.object % 256)).reader = 0x30 ∧ reader = h.issuer)) :
    a.doGroupSet h reader policy = (a.modSlice (h.object / 256) (fun y =>
      { y with groups := mset dSel y.groups (h.object % 256) { reader := reader, policy := policy, last := [] } })).finish h (h.object / 256)
        8 h.object qOk 0 [] := by
  have hmay : ¬ ((mget dSel (a.slice (h.object / 256)).groups (h.object % 256)).reader ≠ h.issuer ∧
      ¬ ((mget dSel (a.slice (h.object / 256)).groups (h.object % 256)).reader = 0x30 ∧ reader = h.issuer)) := by tauto
  have hi64 := State.slicePresent_lt hi
  unfold State.doGroupSet
  dsimp only
  rw [if_neg (by simp [hb, hi, hi64]), if_neg (by simp [hl, hp]), if_neg hmay]

/-- Settles O16, command by command. -/
theorem queuesAreMadeAndBound : Obligations.QueuesAreMadeAndBound := by
  unfold Obligations.QueuesAreMadeAndBound
  refine ⟨fun s h rec => ?_, fun s h => ?_, fun s h reader flush => ?_, fun s h => ?_, fun s h reader policy => ?_⟩
  · exact fun _ hc => congrArg (Host.Outcome.next ∘ State.settle) (State.doCreateQ_made hc)
  · exact fun hb hq hs ho => exec_queueDestroy hb hq hs ho
  · exact fun hb hq hs ho hl hr hg => congrArg (Host.Outcome.next ∘ State.settle) (State.doAttach_attached hb hq hs ho hl hr hg)
  · exact fun hb hq hs hr => exec_detach hb hq hs hr
  · exact fun hb hi hl hp hr => congrArg (Host.Outcome.next ∘ State.settle) (State.doGroupSet_bound hb hi hl hp hr)

/-! ### Orphaned queues (R243) -/

theorem State.doSend_orphaned {msg : Bytes} (hb : a.barred h = false) (hq : a.qThere h.object = true) (hs : (a.queue h.object).state = 2)
    (hk : (a.queue h.object).kind = 0) (hm : maySend (a.queue h.object) h.issuer = true) (hok : msgOk msg h.rcq = true)
    (hd : a.descsOk msg = true) :
    a.doSend h msg = (a.qadd64 (h.object / 16384) kOrphanSends 1).finish h (h.object / 16384) 5 h.object qOrphan 0 (msgDescs msg) := by
  unfold State.doSend
  dsimp only
  rw [if_neg (not_refused hb hq (by omega)), if_neg (by simp [hm]), if_neg (by simp [hok]), if_neg (by simp [hd]), if_pos hs]

theorem State.doAdd_orphaned {done : Bool} {l : List (Nat × BitVec 32)} (hb : a.barred h = false) (hq : a.qThere h.object = true)
    (hs : (a.queue h.object).state = 2) (hk : (a.queue h.object).kind ≠ 0) (hm : maySend (a.queue h.object) h.issuer = true) (hl : l ≠ [])
    (hn : l.length ≤ 256) :
    a.doAdd h done l = (a.qadd64 (h.object / 16384) kOrphanSends 1).finish h (h.object / 16384) 9 h.object qOrphan 0 [] := by
  have hpos := List.length_pos_iff.2 hl
  unfold State.doAdd
  dsimp only
  rw [if_neg (not_refused hb hq (by omega)), if_neg (by simp [hm]), if_neg (by omega), if_pos hs]

/-- Settles O47: the state of the queue is looked at before its room and its memory. -/
theorem orphanedQueuesRefuse : Obligations.OrphanedQueuesRefuse := by
  unfold Obligations.OrphanedQueuesRefuse
  refine ⟨fun s h msg => ?_, fun s h done l => ?_⟩
  · exact fun hb hq hs hk hm hok hd => congrArg (Host.Outcome.next ∘ State.settle) (State.doSend_orphaned hb hq hs hk hm hok hd)
  · exact fun hb hq hs hk hm hl hn => congrArg (Host.Outcome.next ∘ State.settle) (State.doAdd_orphaned hb hq hs hk hm hl hn)

end Sys2Proof.Machine
end

section
/-!
PROOFS of the statements on queues and sync objects (spec 09): messages, rounds and what waits for them (O17).
-/

namespace Sys2Proof.Machine

variable {s a b : State} {h : OpHead}

/-! ### Messages (R244 to R247) -/

/-- What SEND finds: a well-formed message for an open ring, from an endpoint that may send there (R243, R244). -/
structure SendReady (a : State) (h : OpHead) (msg : Bytes) : Prop where
  free : a.barred h = false
  there : a.qThere h.object = true
  isOpen : (a.queue h.object).state = 1
  ring : (a.queue h.object).kind = 0
  may : maySend (a.queue h.object) h.issuer = true
  formed : msgOk msg h.rcq = true
  descs : a.descsOk msg = true
  next : a.sendWaits h.object = false

/-- Where SEND finds all that, the outcome of placing the message decides (R244). -/
theorem State.doSend_places {msg : Bytes} (hs : SendReady a h msg) {p : Placed × State} (hp : a.place h.object (msgStamp msg h.issuer h.rcq h.tag) = p) :
    (p.1 = .ok → a.doSend h msg = p.2.finish h (h.object / 16384) 5 h.object qOk
      (8 * (ringUnits (a.queue h.object) - ringUsed (p.2.queue h.object))) []) ∧
    (p.1 = .full → a.doSend h msg = if h.timeout = 0 then
        (a.qadd64 (h.object / 16384) kFullSends 1).finish h (h.object / 16384) 5 h.object qFull 0 (msgDescs msg)
      else a.wait (h.object / 16384) 5 h 0 0 (msgStamp msg h.issuer h.rcq h.tag)) := by
  obtain ⟨hb, hq, ho, hk, hm, hok, hd, hn⟩ := hs
  unfold State.doSend
  dsimp only
  rw [if_neg (not_refused hb hq (by omega)), if_neg (by simp [hm]), if_neg (by simp [hok]), if_neg (by simp [hd]), if_neg (by omega),
    if_neg (by simp [hn]), hp]
  exact ⟨fun h1 => by simp only [h1], fun h1 => by simp only [h1]⟩

/-- What RECEIVE finds: a ring of which the issuer is the reader, and a landing buffer that it may use (R246). -/
structure ReceiveReady (a : State) (h : OpHead) (addr len : Nat) : Prop where
  free : a.barred h = false
  there : a.qThere h.object = true
  created : (a.queue h.object).state ≠ 0
  ring : (a.queue h.object).kind = 0
  reads : (a.queue h.object).reader = h.issuer
  lands : a.landing h.issuer addr len = qOk

theorem State.doReceive_tries {addr len : Nat} (hr : ReceiveReady a h addr len) : a.doReceive h addr len =
    (a.receiveHead h 6 h.object addr len).getD
      (if h.timeout = 0 then a.finish h (h.object / 16384) 6 h.object qEmpty 0 [] else a.wait (h.object / 16384) 6 h addr len []) := by
  obtain ⟨hb, hq, hs, hk, ho, hl⟩ := hr
  unfold State.doReceive
  dsimp only
  rw [if_neg (not_refused hb hq (by omega)), if_neg (not_not.2 ho), if_neg (not_not.2 hl)]
  cases a.receiveHead h 6 h.object addr len <;> rfl

/-- A head record that can be read, and that the landing buffer takes, is received (R246). -/
theorem State.receiveHead_received {op q addr len : Nat} (hne : (a.queue q).head ≠ (a.queue q).tail)
    (hhdr : a.spaceBad (a.queue q).space (ringAddr (a.queue q) (a.queue q).head) 8 = false)
    (hrec : a.spaceBad (a.queue q).space (ringAddr (a.queue q) (a.queue q).head) (rhLen (a.ringHdr (a.queue q) (a.queue q).head)) = false)
    (hl : a.landing h.issuer addr len = qOk) (hn : rhLen (a.ringHdr (a.queue q) (a.queue q).head) ≤ len)
    (hw : a.landBad addr (rhLen (a.ringHdr (a.queue q) (a.queue q).head)) = none) :
    let n := rhLen (a.ringHdr (a.queue q) (a.queue q).head)
    a.receiveHead h op q addr len = some (((a.land h.issuer addr (a.ringRead (a.queue q) (a.queue q).head n)).popHead q n).finish h
      (q / 16384) op q qOk n []) := by
  unfold State.receiveHead
  dsimp only
  rw [if_neg hne, if_neg (by simp [hhdr]), if_neg (by simp [hrec]), if_neg (not_not.2 hl), if_neg (Nat.not_lt.2 hn), hw]

theorem State.doReceiveGroup_tries {addr len : Nat} (hb : a.barred h = false) (hi : a.slicePresent (h.object / 256) = true)
    (hr : (mget dSel (a.slice (h.object / 256)).groups (h.object % 256)).reader = h.issuer) (hl : a.landing h.issuer addr len = qOk) :
    a.doReceiveGroup h addr len = (a.receiveFrom h addr len).getD
      (if h.timeout = 0 then a.finish h (h.object / 256) 7 h.object qEmpty 0 [] else a.wait (h.object / 256) 7 h addr len []) := by
  have hi64 := State.slicePresent_lt hi
  unfold State.doReceiveGroup
  dsimp only
  rw [if_neg (by simp [hb, hi, hi64]), if_neg (not_not.2 hr), if_neg (not_not.2 hl)]
  cases a.receiveFrom h addr len <;> rfl

/-! ### Rounds (R248, R249) -/

theorem roundReady_iff {r : Queue} : roundReady r = true ↔ r.expect ≤ r.head := by
  simp only [roundReady, Bool.or_eq_true, beq_iff_eq, decide_eq_true_eq]
  omega

/-- The contributions of an ADD added, and the contributors and contributions of the round counted (R248). -/
def State.added (a : State) (q : Nat) (done : Bool) (l : List (Nat × BitVec 32)) : State :=
  ((l.foldl (fun s e => s.combine (q / 16384) (a.queue q) e) a).qadd (q / 16384) kCombineLate
    (if (a.queue q).expect ≠ 0 ∧ (a.queue q).expect ≤ (a.queue q).head then 1 else 0)).modQueue q (fun x =>
      { x with head := x.head + (if done then 1 else 0), tail := x.tail + l.length })

theorem State.doAdd_adds {done : Bool} {l : List (Nat × BitVec 32)} (hb : a.barred h = false) (hq : a.qThere h.object = true)
    (hs : (a.queue h.object).state = 1) (hk : (a.queue h.object).kind ≠ 0) (hm : maySend (a.queue h.object) h.issuer = true) (hl : l ≠ [])
    (hn : l.length ≤ 256) (hw : a.addBad (a.queue h.object) l = none) :
    a.doAdd h done l = (if (a.queue h.object).expect ≠ 0 ∧ ¬ ((a.queue h.object).expect ≠ 0 ∧ (a.queue h.object).expect ≤ (a.queue h.object).head) ∧
        roundReady ((a.added h.object done l).queue h.object) = true then (a.added h.object done l).signalLink h.object
      else a.added h.object done l).finish h (h.object / 16384) 9 h.object qOk 0 [] := by
  have hpos := List.length_pos_iff.2 hl
  unfold State.doAdd State.added
  dsimp only
  rw [if_neg (not_refused hb hq (by omega)), if_neg (by simp [hm]), if_neg (by omega), if_neg (by omega), hw]
  simp only [Bool.and_eq_true, bne_iff_ne, Bool.not_eq_true', and_assoc, ← Bool.not_eq_true, roundReady_iff]

/-- What READ_CLEAR finds: a combining queue of which the issuer is the reader (R249). -/
structure RoundReader (a : State) (h : OpHead) : Prop where
  free : a.barred h = false
  there : a.qThere h.object = true
  created : (a.queue h.object).state ≠ 0
  combines : (a.queue h.object).kind ≠ 0
  reads : (a.queue h.object).reader = h.issuer

theorem State.doReadClear_tries {addr len : Nat} (hr : RoundReader a h) : a.doReadClear h addr len =
    if (a.queue h.object).expect ≤ (a.queue h.object).head then a.readRound h addr len
    else if h.timeout = 0 then a.finish h (h.object / 16384) 10 h.object qEmpty 0 []
    else a.wait (h.object / 16384) 10 h addr len [] := by
  obtain ⟨hb, hq, hs, hk, ho⟩ := hr
  unfold State.doReadClear
  dsimp only
  rw [if_neg (not_refused hb hq (by omega)), if_neg (not_not.2 ho)]
  simp only [roundReady_iff]

/-- A round whose words can all be read, and that the landing buffer takes, goes to the reader and is cleared (R249). -/
theorem State.readRound_read {addr len : Nat} (hl : a.landing h.issuer addr len = qOk) (hn : 4 * (a.queue h.object).maxMsg ≤ len)
    (hw : a.landBad addr (4 * (a.queue h.object).maxMsg) = none)
    (hbad : a.spaceBad (a.queue h.object).space (a.queue h.object).base (4 * (a.queue h.object).maxMsg) = false) :
    let r := a.queue h.object
    a.readRound h addr len = (((a.land h.issuer addr (a.spaceRead r.space r.base (4 * r.maxMsg)).1).spaceWrite 0x10 r.space r.base
      (List.replicate (4 * r.maxMsg) 0)).modQueue h.object (fun x => { x with head := 0, tail := 0 })).finish h (h.object / 16384) 10
        h.object qOk r.head [] := by
  unfold State.readRound
  dsimp only
  rw [if_neg (not_not.2 hl), if_neg (Nat.not_lt.2 hn), hw, hbad]
  rfl

/-! ### What waits: limits and held completions (R239, R245) -/

theorem exec_waitTimeout {i id t : Nat} {w : Waiter} (hw : ((s.at t).slice i).waits.find? (fun w => w.id == id && (match w.until_ with
      | some u => decide (u ≤ (s.at t).now)
      | none => false)) = some w) :
    exec (.waitTimeout i id t) s = .next (((((s.at t).modSlice i (fun x => { x with waits := x.waits.filter (fun e => e.id != id) })).qadd i
      kTimeouts 1).finish w.head i w.op w.head.object qTimeout 0 (if w.op = 5 then msgDescs w.msg else [])).settle) := by
  change execWaitTimeout i id t s = _
  unfold execWaitTimeout
  dsimp only
  split
  · next hnone => exact absurd (hw.symm.trans hnone) (by simp)
  · next v hv => rw [Option.some.inj (hw.symm.trans hv)]

theorem State.holdOne_placed {i q : Nat} {rec : Bytes} (hempty : (a.slice i).hold = []) (ht : a.takesCompletions q = true)
    (hw : a.sendWaits q = false) (hp : (a.place q rec).1 = .ok) : a.holdOne i (q, rec) = (a.place q rec).2 := by
  unfold State.holdOne
  dsimp only
  rw [if_neg (by simp [ht]), hempty, hw]
  simp only [List.any_nil, Bool.or_false, Bool.false_eq_true, if_false, hp]

/-- Settles O17, command by command. -/
theorem messagesAndRoundsMove : Obligations.MessagesAndRoundsMove := by
  unfold Obligations.MessagesAndRoundsMove
  refine ⟨fun s h msg => ?_, fun s h msg => ?_, fun s b h addr len => ?_, fun s h addr len => ?_, fun s h addr len => ?_, fun s h addr len => ?_,
    fun s h done l => ?_, fun s h addr len => ?_, fun s h addr len => ?_, fun s i id t w => exec_waitTimeout, fun s i t q rec => ?_,
    fun s i t => rfl⟩
  · intro a q r b hb hq ho hk hm hok hd hn hp
    exact congrArg (Host.Outcome.next ∘ State.settle) ((State.doSend_places ⟨hb, hq, ho, hk, hm, hok, hd, hn⟩ rfl).1 hp)
  · intro a q r hb hq ho hk hm hok hd hn hp
    exact congrArg (Host.Outcome.next ∘ State.settle) ((State.doSend_places ⟨hb, hq, ho, hk, hm, hok, hd, hn⟩ rfl).2 hp)
  · intro a q r hb hq hs hk ho hl hhead
    refine congrArg (Host.Outcome.next ∘ State.settle) ((State.doReceive_tries ⟨hb, hq, hs, hk, ho, hl⟩).trans ?_)
    rw [hhead, Option.getD_some]
  · intro a q r hb hq hs hk ho hl hhead
    refine congrArg (Host.Outcome.next ∘ State.settle) ((State.doReceive_tries ⟨hb, hq, hs, hk, ho, hl⟩).trans ?_)
    rw [hhead, Option.getD_none]
  · intro a q r n hb hq hs hk ho hl hne hn hw hhdr hrec
    refine congrArg (Host.Outcome.next ∘ State.settle) ((State.doReceive_tries ⟨hb, hq, hs, hk, ho, hl⟩).trans ?_)
    rw [State.receiveHead_received hne hhdr hrec hl hn hw, Option.getD_some]
  · exact fun hb hi hr hl => congrArg (Host.Outcome.next ∘ State.settle) (State.doReceiveGroup_tries hb hi hr hl)
  · exact fun hb hq hs hk hm hl hn hw => congrArg (Host.Outcome.next ∘ State.settle) (State.doAdd_adds hb hq hs hk hm hl hn hw)
  · intro a q r hb hq hs hk ho hready hl hn hw hbad
    refine congrArg (Host.Outcome.next ∘ State.settle) ((State.doReadClear_tries ⟨hb, hq, hs, hk, ho⟩).trans ?_)
    rw [if_pos hready, State.readRound_read hl hn hw hbad]
  · intro a q r hb hq hs hk ho hlow
    refine congrArg (Host.Outcome.next ∘ State.settle) ((State.doReadClear_tries ⟨hb, hq, hs, hk, ho⟩).trans ?_)
    rw [if_neg (Nat.not_le.2 hlow)]
  · intro a b hheld ht hw hp
    have hone : b.holdOne i (q, rec) = (b.place q rec).2 :=
      State.holdOne_placed (congrArg Slice.hold (a.slice_modSlice_self i _)) ht hw hp
    calc exec (.completionHoldPlace i t) s
        = .next ((a.slice i).hold.foldl (fun s e => s.holdOne i e) b).settle := rfl
      _ = .next (b.place q rec).2.settle := by rw [hheld, List.foldl_cons, List.foldl_nil, hone]

end Sys2Proof.Machine
end

section
/-!
PROOFS of the statements on queues and sync objects (spec 09): counters, semaphores and barriers (O18).
-/

namespace Sys2Proof.Machine

variable {s a : State} {h : OpHead}

theorem not_ok_ne_ok : ¬ qOk ≠ qOk := not_not.2 rfl

/-! ### Whose operation, and on which kind of object (R250, R251) -/

theorem State.syncStatus_ok {kind : Nat} (hb : a.barred h = false) (hy : a.yThere h.object = true) (hk : (a.sync h.object).kind = kind) :
    a.syncStatus h h.object kind = qOk :=
  if_neg (not_refused hb hy (not_not.2 hk))

theorem State.ownerStatus_ok {kind : Nat} (hb : a.barred h = false) (hy : a.yThere h.object = true) (hmade : (a.sync h.object).kind ≠ 0)
    (ho : (a.sync h.object).owner = h.issuer) (hk : kind = 0 ∨ (a.sync h.object).kind = kind) : a.ownerStatus h kind = qOk := by
  have hkind : ¬ (kind ≠ 0 ∧ (a.sync h.object).kind ≠ kind) := by tauto
  exact (if_neg (not_refused hb hy hmade)).trans ((if_neg (not_not.2 ho)).trans (if_neg hkind))

/-- What an owner's operation on a barrier finds. -/
theorem State.ownerStatus_barrier (hb : a.barred h = false) (hy : a.yThere h.object = true) (hk : (a.sync h.object).kind = 3)
    (ho : (a.sync h.object).owner = h.issuer) : a.ownerStatus h 3 = qOk :=
  State.ownerStatus_ok hb hy (by omega) ho (.inr hk)

/-! ### Objects come and go (R250) -/

theorem State.doSyncCreate_made {kind init : Nat} (hb : a.barred h = false) (hy : a.yThere h.object = true)
    (hfree : (a.sync h.object).kind = 0) (hg : a.grant 1 (h.object / 1024) (h.object % 1024 / 64) = h.issuer)
    (hfit : (kind = 1 ∧ init < 2 ^ 64) ∨ (kind = 2 ∧ init < 2 ^ 32) ∨ (kind = 3 ∧ 1 ≤ init ∧ init ≤ 4096)) :
    a.doSyncCreate h kind init = (a.modSync h.object (fun _ =>
      { kind := kind, owner := h.issuer, value := if kind = 3 then 0 else init, parts := if kind = 3 then init else 0 })).finish h
        (h.object / 1024) 0x10 h.object qOk 0 [] := by
  unfold State.doSyncCreate
  dsimp only
  rw [if_neg (not_refused hb hy (not_not.2 hfree)), if_neg (not_not.2 hg), if_neg (by omega), if_neg (by omega)]

theorem State.doSyncDestroy_destroyed (hb : a.barred h = false) (hy : a.yThere h.object = true) (hmade : (a.sync h.object).kind ≠ 0)
    (ho : (a.sync h.object).owner = h.issuer) : a.doSyncDestroy h =
      (a.modSync h.object (fun _ => {})).settle.finish h (h.object / 1024) 0x11 h.object qOk 0 [] :=
  if_neg (not_not.2 (State.ownerStatus_ok hb hy hmade ho (.inl rfl)))

/-! ### Counters (R251) -/

theorem State.doCadd_adds {d : Nat} (hb : a.barred h = false) (hy : a.yThere h.object = true) (hk : (a.sync h.object).kind = 1) :
    let v := ((a.sync h.object).value + d) % 2 ^ 64
    a.doCadd h d = (qOk, (a.modSync h.object (fun y => { y with value := v })).finish h (h.object / 1024) 0x12 h.object qOk v []) :=
  if_neg (not_not.2 (State.syncStatus_ok hb hy hk))

theorem State.doCread_reads (hb : a.barred h = false) (hy : a.yThere h.object = true) (hk : (a.sync h.object).kind = 1) :
    a.doCread h = a.finish h (h.object / 1024) 0x13 h.object qOk (a.sync h.object).value [] := by
  unfold State.doCread
  dsimp only
  rw [State.syncStatus_ok hb hy hk, if_pos rfl]

theorem State.doCset_sets {v : Nat} (hb : a.barred h = false) (hy : a.yThere h.object = true) (hk : (a.sync h.object).kind = 1)
    (ho : (a.sync h.object).owner = h.issuer) : a.doCset h v = (a.modSync h.object (fun y => { y with value := v % 2 ^ 64 })).finish h
      (h.object / 1024) 0x14 h.object qOk (a.sync h.object).value [] :=
  if_neg (not_not.2 (State.ownerStatus_ok hb hy (by omega) ho (.inr hk)))

theorem State.doCwait_waits {target : Nat} (hb : a.barred h = false) (hy : a.yThere h.object = true) (hk : (a.sync h.object).kind = 1)
    (hmay : target ≤ (a.sync h.object).value ∨ h.timeout ≠ 0) : a.doCwait h target =
      if target ≤ (a.sync h.object).value then a.finish h (h.object / 1024) 0x15 h.object qOk (a.sync h.object).value []
      else a.wait (h.object / 1024) 0x15 h target 0 [] := by
  refine (if_neg (not_not.2 (State.syncStatus_ok hb hy hk))).trans ?_
  split
  · rfl
  · next hlow => exact if_neg (hmay.resolve_left hlow)

/-! ### Semaphores (R251) -/

theorem State.doPost_posts {n : Nat} (hb : a.barred h = false) (hy : a.yThere h.object = true) (hk : (a.sync h.object).kind = 2)
    (hpos : 0 < n) (hfit : (a.sync h.object).value + n < 2 ^ 32) :
    let v := (a.sync h.object).value
    a.doPost h n = (qOk, (a.modSync h.object (fun y => { y with value := v + n })).finish h (h.object / 1024) 0x16 h.object qOk (v + n) []) := by
  have hn : ¬ (n = 0 ∨ 2 ^ 32 ≤ n) := by omega
  unfold State.doPost
  dsimp only
  rw [State.syncStatus_ok hb hy hk, if_neg not_ok_ne_ok, if_neg hn, if_neg (Nat.not_le.2 hfit), if_neg not_ok_ne_ok]

theorem noTaker_iff {l : List Waiter} {j : Nat} : (!l.any (fun w => w.op == 0x17 && w.head.object == j)) = true ↔
    ∀ w ∈ l, w.op = 0x17 → w.head.object ≠ j := by
  simp only [Bool.not_eq_true', List.any_eq_false, Bool.and_eq_true, beq_iff_eq, not_and, ne_eq]

theorem State.doTake_takes {n : Nat} (hb : a.barred h = false) (hy : a.yThere h.object = true) (hk : (a.sync h.object).kind = 2)
    (hpos : 0 < n) (hn : n < 2 ^ 32) :
    a.doTake h n = if n ≤ (a.sync h.object).value ∧ ∀ w ∈ (a.slice (h.object / 1024)).waits, w.op = 0x17 → w.head.object ≠ h.object then
        (a.modSync h.object (fun y => { y with value := (a.sync h.object).value - n })).finish h (h.object / 1024) 0x17 h.object qOk
          ((a.sync h.object).value - n) []
      else if h.timeout = 0 then a.finish h (h.object / 1024) 0x17 h.object qFull 0 [] else a.wait (h.object / 1024) 0x17 h n 0 [] := by
  have hsize : ¬ (n = 0 ∨ 2 ^ 32 ≤ n) := by omega
  unfold State.doTake
  dsimp only
  rw [State.syncStatus_ok hb hy hk, if_neg not_ok_ne_ok, if_neg hsize, if_neg not_ok_ne_ok]
  exact if_congr (and_comm.trans (and_congr_right' noTaker_iff)) rfl rfl

/-! ### Barriers (R251) -/

theorem State.doArrive_arrives (hb : a.barred h = false) (hy : a.yThere h.object = true) (hk : (a.sync h.object).kind = 3)
    (hbroken : (a.sync h.object).broken = false)
    (hroom : (a.sync h.object).parts ≤ (a.sync h.object).value + 1 ∨ h.timeout = 0 ∨ (a.slice (h.object / 1024)).waits.length < 1024) :
    let j := h.object
    let y := a.sync j
    a.doArrive h = (qOk, if y.parts ≤ y.value + 1 then
        (a.modSync j (fun y => { y with value := 0, phase := (y.phase + 1) % 2 ^ 32 })).settle.finish h (j / 1024) 0x18 j qOk y.phase []
      else if h.timeout = 0 then (a.modSync j (fun y => { y with value := y.value + 1 })).finish h (j / 1024) 0x18 j qOk y.phase []
      else (a.modSync j (fun y => { y with value := y.value + 1 })).wait (j / 1024) 0x18 h y.phase 0 []) := by
  have hwhole : ¬ (a.sync h.object).broken = true := Bool.not_eq_true _ ▸ hbroken
  unfold State.doArrive
  dsimp only
  rw [State.syncStatus_ok hb hy hk, if_neg not_ok_ne_ok, if_neg hwhole, if_neg not_ok_ne_ok]
  by_cases hlast : (a.sync h.object).parts ≤ (a.sync h.object).value + 1
  · rw [if_pos hlast, if_pos hlast]
  · rw [if_neg hlast, if_neg hlast]
    by_cases hnow : h.timeout = 0
    · rw [if_pos hnow, if_pos hnow]
    · rw [if_neg hnow, if_neg hnow, if_neg (by omega)]

theorem State.doBreak_breaks (hb : a.barred h = false) (hy : a.yThere h.object = true) (hk : (a.sync h.object).kind = 3)
    (ho : (a.sync h.object).owner = h.issuer) : a.doBreak h =
      (a.breakSync h.object).finish h (h.object / 1024) 0x19 h.object qOk (a.sync h.object).phase [] :=
  if_neg (not_not.2 (State.ownerStatus_barrier hb hy hk ho))

theorem State.doBarrierReset_resets (hb : a.barred h = false) (hy : a.yThere h.object = true) (hk : (a.sync h.object).kind = 3)
    (ho : (a.sync h.object).owner = h.issuer) : a.doBarrierReset h =
      (a.modSync h.object (fun y => { y with broken := false, value := 0 })).finish h (h.object / 1024) 0x1A h.object qOk
        (a.sync h.object).phase [] :=
  if_neg (not_not.2 (State.ownerStatus_barrier hb hy hk ho))

/-- An operation that answers a status and a state: its command leaves the state settled. -/
theorem next_settle {o : Nat × State} {c : Nat} {u : State} (ho : o = (c, u)) :
    Host.Outcome.next (φ := Fault) (ρ := Refusal) o.2.settle = .next u.settle := by
  rw [ho]

/-- Settles O18, command by command. -/
theorem syncObjectsCountAndRelease : Obligations.SyncObjectsCountAndRelease := by
  unfold Obligations.SyncObjectsCountAndRelease
  refine ⟨fun s h kind init => ?_, fun s h => ?_, fun s h d => ?_, fun s h => ?_, fun s h v => ?_, fun s h target => ?_, fun s h n => ?_,
    fun s h n => ?_, fun s h => ?_, fun s h => ?_, fun s h => ?_⟩
  · exact fun hb hy hfree hg hfit => congrArg (Host.Outcome.next ∘ State.settle) (State.doSyncCreate_made hb hy hfree hg hfit)
  · exact fun hb hy hmade ho => congrArg (Host.Outcome.next ∘ State.settle) (State.doSyncDestroy_destroyed hb hy hmade ho)
  · exact fun hb hy hk => next_settle (State.doCadd_adds hb hy hk)
  · exact fun hb hy hk => congrArg (Host.Outcome.next ∘ State.settle) (State.doCread_reads hb hy hk)
  · exact fun hb hy hk ho => congrArg (Host.Outcome.next ∘ State.settle) (State.doCset_sets hb hy hk ho)
  · exact fun hb hy hk hmay => congrArg (Host.Outcome.next ∘ State.settle) (State.doCwait_waits hb hy hk hmay)
  · exact fun hb hy hk hpos hfit => next_settle (State.doPost_posts hb hy hk hpos hfit)
  · exact fun hb hy hk hpos hn => congrArg (Host.Outcome.next ∘ State.settle) (State.doTake_takes hb hy hk hpos hn)
  · exact fun hb hy hk hbroken hroom => next_settle (State.doArrive_arrives hb hy hk hbroken hroom)
  · exact fun hb hy hk ho => congrArg (Host.Outcome.next ∘ State.settle) (State.doBreak_breaks hb hy hk ho)
  · exact fun hb hy hk ho => congrArg (Host.Outcome.next ∘ State.settle) (State.doBarrierReset_resets hb hy hk ho)

end Sys2Proof.Machine
end

section
/-!
PROOFS of the statements on queues and sync objects (spec 09): a POST of a partition that is under reset (O53).
-/

namespace Sys2Proof.Machine

variable {s : State} {h : OpHead} {n : Nat}

/-- Table 14.7: an operation of a partition under reset finishes STATE, whatever its object holds. -/
theorem exec_post_barred (hb : (s.at h.t).barred h = true) :
    exec (.post h n) s = .next ((s.at h.t).finish h (h.object / 1024) 0x16 h.object qState 0 []).settle := by
  have hstatus : (s.at h.t).syncStatus h h.object 2 = qState := if_pos (.inl hb)
  have hne : qState ≠ qOk := by decide
  have hpost : (s.at h.t).doPost h n = (qState, (s.at h.t).finish h (h.object / 1024) 0x16 h.object qState 0 []) := by
    unfold State.doPost
    dsimp only
    rw [hstatus, if_pos hne, if_pos hne]
  exact next_settle hpost

/-- The virtual function of partition 0 on semaphore 0, with no completion queue and no timeout. -/
def postOfReset : OpHead := ⟨1, 0, noQueue, 0, 0, false, none, 0⟩
/-- Partition 0 is under reset until instant 1,000 (R394); semaphore 0 stands at 0, and nothing waits. -/
def partitionUnderReset : State := { State.reset with
  syncs := [(0, { kind := 2, owner := 1 })]
  floor := { State.reset.floor with resets := [(3, 0, 1000)] } }

theorem partitionUnderReset_barred : (partitionUnderReset.at postOfReset.t).barred postOfReset = true := by decide +kernel
theorem partitionUnderReset_there : (partitionUnderReset.at postOfReset.t).yThere postOfReset.object = true := by decide +kernel
theorem partitionUnderReset_sync : (partitionUnderReset.at postOfReset.t).sync postOfReset.object = { kind := 2, owner := 1 } := by
  decide +kernel
theorem partitionUnderReset_slices : (partitionUnderReset.at postOfReset.t).slices = [] := by decide +kernel

/-- The POST finishes STATE, and the semaphore stands at 0 as before. -/
theorem post_under_reset_leaves_the_semaphore :
    ∃ u, exec (.post postOfReset 1) partitionUnderReset = .next u ∧ (u.sync postOfReset.object).value = 0 :=
  ⟨_, exec_post_barred partitionUnderReset_barred, by decide +kernel⟩

/-- Refutes O53: it leaves out that the issuer's partition may be under reset, when its POST finishes STATE and adds nothing (Table 14.7). -/
theorem not_syncArithmeticIsExact : ¬ Obligations.SyncArithmeticIsExact := by
  unfold Obligations.SyncArithmeticIsExact
  rintro ⟨hpost, -⟩
  have hsync := partitionUnderReset_sync
  obtain ⟨u, _, hu, -, hvalue, -⟩ := hpost partitionUnderReset postOfReset 1 partitionUnderReset_there (by rw [hsync]) Nat.one_pos
    (by rw [hsync]; decide) (by rw [partitionUnderReset_slices]; exact List.forall_mem_nil _) rfl
  obtain ⟨v, hv, hzero⟩ := post_under_reset_leaves_the_semaphore
  obtain rfl : u = v := Host.Outcome.next.inj (hu.symm.trans hv)
  rw [hsync, hzero] at hvalue
  exact Nat.zero_ne_one hvalue

end Sys2Proof.Machine
end

section
/-!
PROOFS of the statements on ports (spec 12): what comes back after a host loss (O45).
-/

namespace Sys2Proof.Machine

variable {s u : State} {f t : Nat}

/-! ### HOST_HEARTBEAT (R324, R325) -/

/-- From `s` to `u` time and free values, power, partitions and functions may have changed: no mailbox and no queue has. -/
structure MailKept (s u : State) : Prop where
  boxes : u.ports.mailboxes = s.ports.mailboxes
  queues : u.queues = s.queues

theorem MailKept.refl (s : State) : MailKept s s := ⟨rfl, rfl⟩
theorem MailKept.trans {v : State} (h : MailKept s u) (k : MailKept u v) : MailKept s v := ⟨k.boxes.trans h.boxes, k.queues.trans h.queues⟩
theorem MailKept.modFunc (s : State) (f : Nat) (g : Func → Func) : MailKept s (s.modFunc f g) := ⟨rfl, rfl⟩
theorem MailKept.mailbox (h : MailKept s u) (k : Nat) : u.mailbox k = s.mailbox k := by rw [State.mailbox, h.boxes, State.mailbox]

/-- A host loss of the partitions of a function ends: partitions alone change. -/
theorem State.endLoss_parts (s : State) (l : List Nat) : ∃ ps, s.each l (fun s n =>
    if s.lossOf n then s else s.modPart n (fun p => { p with hostLoss := false, hostHold := false, contLeft := none })) = { s with parts := ps } := by
  induction l generalizing s with
  | nil => exact ⟨s.parts, rfl⟩
  | cons n r ih =>
    by_cases hn : s.lossOf n = true
    · obtain ⟨ps, hps⟩ := ih s
      exact ⟨ps, (congrArg (fun u : State => u.each r _) (if_pos hn)).trans hps⟩
    · obtain ⟨ps, hps⟩ := ih (s.modPart n (fun p => { p with hostLoss := false, hostHold := false, contLeft := none }))
      exact ⟨ps, (congrArg (fun u : State => u.each r _) (if_neg hn)).trans hps⟩

/-- R325: the function's host loss is over; its other marks stand. -/
theorem State.endLoss_func (s : State) (f : Nat) : (s.endLoss f).func f = { s.func f with lost := false } := by
  unfold State.endLoss
  split
  · next hl =>
    have hl : (s.func f).lost = false := by simpa using hl
    rw [← hl]
  · obtain ⟨ps, hps⟩ := (s.modFunc f (fun g => { g with lost := false })).endLoss_parts (funcParts f)
    dsimp only
    rw [hps]
    exact s.func_modFunc_self f _

theorem State.mailKept_endLoss (s : State) (f : Nat) : MailKept s (s.endLoss f) := by
  unfold State.endLoss
  split
  · exact .refl s
  · obtain ⟨ps, hps⟩ := (s.modFunc f (fun g => { g with lost := false })).endLoss_parts (funcParts f)
    dsimp only
    rw [hps]
    exact ⟨rfl, rfl⟩

theorem State.wakeEvent_only (s : State) (ident : Nat) : s.wakeEvent ident = { s with clk := (s.wakeEvent ident).clk, pow := (s.wakeEvent ident).pow } := by
  unfold State.wakeEvent
  split
  · rfl
  · split <;> rfl

/-- A heartbeat taken: the function is armed, and its host loss ends (R324, R325). -/
def State.heartbeat (s : State) (f w : Nat) : State :=
  (s.modFunc f (fun g => { g with hbLast := w % 2 ^ 16, armed := true, hbAt := s.now })).endLoss f

theorem State.heartbeat_func (s : State) (f w : Nat) :
    (s.heartbeat f w).func f = { s.func f with hbLast := w % 2 ^ 16, armed := true, hbAt := s.now, lost := false } := by
  rw [State.heartbeat, State.endLoss_func, State.func_modFunc_self]

/-- A heartbeat on the way to STANDBY or PARKED is a wake (Table 15.11). -/
def State.wakeOnEntry (s : State) (ident : Nat) : State := match s.pow.entry with
  | some e => if e.target ≠ .drowse then s.wakeEvent ident else s
  | none => s

theorem State.wakeOnEntry_ports (s : State) (ident : Nat) :
    (s.wakeOnEntry ident).ports = s.ports ∧ (s.wakeOnEntry ident).queues = s.queues := by
  unfold State.wakeOnEntry
  split
  · split
    · rw [s.wakeEvent_only ident]
      exact ⟨rfl, rfl⟩
    · exact ⟨rfl, rfl⟩
  · exact ⟨rfl, rfl⟩

theorem exec_hostHeartbeat {w : Nat} (hh : (s.reach t).hostSees f = true) (hf : f ≤ 8) (hw : w % 2 ^ 32 ≠ 0) :
    exec (.hostHeartbeat f w t) s = .next (((s.reach t).heartbeat f w).wakeOnEntry (0x1100 + f)) := by
  have hbeat : (s.reach t).doHeartbeat f w = (s.reach t).heartbeat f w := by
    simp only [State.doHeartbeat, State.heartbeat, hw, if_false, bne_iff_ne.2 hw]
  refine congrArg Host.Outcome.next ((if_neg (by simp [hh, hf])).trans ?_)
  dsimp only
  rw [hbeat, State.wakeOnEntry]
  cases ((s.reach t).heartbeat f w).pow.entry with
  | none => rfl
  | some e => simp only [ne_eq, hw, not_false_eq_true, true_and]

theorem State.heartbeat_returns {w : Nat} (s : State) (f ident : Nat) : let u := (s.heartbeat f w).wakeOnEntry ident
    (u.func f).armed = true ∧ (u.func f).lost = false ∧ MailKept s u := by
  obtain ⟨hports, hqueues⟩ := (s.heartbeat f w).wakeOnEntry_ports ident
  have hfunc : ((s.heartbeat f w).wakeOnEntry ident).func f = (s.heartbeat f w).func f := by rw [State.func, hports, State.func]
  have hkept : MailKept s (s.heartbeat f w) := (MailKept.modFunc s f _).trans (State.mailKept_endLoss _ f)
  dsimp only
  rw [hfunc, State.heartbeat_func]
  exact ⟨rfl, rfl, hkept.trans ⟨congrArg Ports.mailboxes hports, hqueues⟩⟩

/-! ### FUNCTION_LEVEL_RESET (R318) -/

/-- Mailbox `k` as after reset, and its requester forgotten. -/
def State.freshMailbox (s : State) (k : Nat) : State := (s.modMailbox k (fun _ => {})).forget (.mailbox k)

theorem State.freshMailbox_self (s : State) (k : Nat) : (s.freshMailbox k).mailbox k = {} := s.mailbox_modMailbox_self k _
theorem State.freshMailbox_keeps (s : State) {j k : Nat} (h : s.mailbox j = {}) : (s.freshMailbox k).mailbox j = {} := by
  by_cases e : j = k
  · rw [e]
    exact s.freshMailbox_self k
  · exact (s.mailbox_modMailbox_ne e _).trans h

/-- Every mailbox of a list is as after reset once each of them has been reset. -/
theorem State.each_freshMailbox (s : State) {l : List Nat} {k : Nat} (hk : k ∈ l) : (s.each l State.freshMailbox).mailbox k = {} :=
  each_reaches (P := fun u => u.mailbox k = {}) (f := State.freshMailbox) (fun s _ h => s.freshMailbox_keeps h) hk (fun s => s.freshMailbox_self k) s

theorem State.resetFunction_mailbox (s : State) {f k : Nat} (hk : k ∈ funcMailboxes f) : (s.resetFunction f).mailbox k = {} :=
  State.each_freshMailbox _ hk

theorem exec_functionLevelReset {conf : PcieConf} (hf : f < 9) (hp : ((s.at t).func f).present = true) :
    exec (.functionLevelReset ⟨f, conf⟩ t) s = .next (((s.at t).resetFunction f).modFunc f (fun g => { g with conf := conf })) :=
  congrArg Host.Outcome.next (if_pos ⟨hf, hp⟩)

/-- Settles O45, command by command. -/
theorem hostReturnsAfterALoss : Obligations.HostReturnsAfterALoss := by
  unfold Obligations.HostReturnsAfterALoss
  refine ⟨fun s f w t => ?_, fun s f t conf => ?_, fun s h reader => ?_⟩
  · intro a hh hf hw
    obtain ⟨harmed, hlost, hkept⟩ := a.heartbeat_returns (w := w) f (0x1100 + f)
    exact ⟨_, exec_hostHeartbeat hh hf hw, harmed, hlost, hkept.mailbox, hkept.queues⟩
  · intro a hf hp
    refine ⟨_, exec_functionLevelReset hf hp, fun k hk => ?_⟩
    exact congrArg Mailbox.orphaned (a.resetFunction_mailbox hk)
  · exact fun hb hq hs ho hl hr hg => congrArg (Host.Outcome.next ∘ State.settle) (State.doAttach_attached hb hq hs ho hl hr hg)

end Sys2Proof.Machine
end

section
/-!
PROOFS of the statement on memory and its units (specs 09 and 10): O19.
-/

namespace Sys2Proof.Machine

variable {s a : State} {r : Requester} {t : Nat}

/-! ### Grants (R234) and CONFLICT_CLEAR (R257) -/

theorem State.doGrantWrite_granted {kind : Nat} {data : Bytes} : let i := a.dget (if kind = 2 then kPageSlice else kGrantSlice)
    let n := grantBlocks kind
    let new := fun b => (data.getD b 0).toNat
    data.length = n → (∀ b, b < n → epListed (new b) = true) → a.slicePresent i = true →
    (∀ b, b < n → new b = a.grant kind i b ∨ (a.blockFree kind i b = true ∧ (kind = 2 ∨ b + 1 ≠ n))) →
    a.doGrantWrite kind data = (stOk, a.modMem (fun m => { m with
      grants := (List.range n).foldl (fun g b => mset dGrant g (grantKey kind i b) (new b)) m.grants })) := by
  intro i n new hlen hlisted hthere hmay
  have hall : (List.range n).all (fun b => epListed (new b)) = true := by
    simpa only [List.all_eq_true, List.mem_range] using hlisted
  have hfree : (List.range n).all (fun b => new b == a.grant kind i b || (a.blockFree kind i b && (kind == 2 || b + 1 != n))) = true := by
    simpa only [List.all_eq_true, List.mem_range, Bool.or_eq_true, Bool.and_eq_true, beq_iff_eq, bne_iff_ne] using hmay
  unfold State.doGrantWrite
  dsimp only
  rw [if_neg (not_not.2 hlen), hall, hthere, hfree]
  rfl

/-! ### Parity of slice data (R260) -/

/-- The word of a slice and the slice itself, out of the number of a word in all slices. -/
theorem sramWord_split {unit addr : Nat} (h : addr < sramSize / 4) :
    4 * (unit * (sramSize / 4) + addr) / sramSize = unit ∧ (unit * (sramSize / 4) + addr) % (sramSize / 4) = addr := by
  rw [show sramSize / 4 = 1048576 from rfl] at *
  rw [show sramSize = 4194304 from rfl]
  omega

theorem State.sramError_word {unit addr : Nat} (h : addr < sramSize / 4) : let w := unit * (sramSize / 4) + addr
    a.sramError w = ((a.dadd kParityPersistent 1).modMem (fun m => { m with sramBad := m.sramBad.filter (· != w) ++ [w] })).reportUnit
      0x0301 1 2 ((a.dadd kParityPersistent 1).physSlice unit) none addr := by
  obtain ⟨hslice, hword⟩ := sramWord_split (unit := unit) h
  intro w
  unfold State.sramError
  dsimp only
  rw [hslice, hword]
  rfl

/-! ### Subchannels (R269, R270, R272) -/

theorem State.poisonWord_mapped {i off x : Nat} (h : a.addrBack i off = some x) : a.poisonWord i off = a.modMem (fun m =>
    { m with poison := m.poison.filter (· != x / 32) ++ [x / 32] }) := by
  rw [State.poisonWord, h]

theorem State.readWord_uncorrectable {i off x : Nat} (hp : a.poisoned i off = false) (h : a.addrBack i off = some x) :
    a.readWord i off .uncorrectable false = (((a.modMem (fun m => { m with poison := m.poison.filter (· != x / 32) ++ [x / 32] })).modSlice
      i (fun y => { y with ue := satAdd 32 y.ue 1, lastErr := off })).dadd kUeTotal 1).reportUnit 0x0401 0 3 i none off := by
  rw [State.readWord, if_neg (by simp [hp])]
  simp only [Bool.false_eq_true, if_false, State.poisonWord_mapped h]

theorem exec_patrolScrub {i : Nat} {e : WordError} {w : Bool} (h : (s.at t).subServes i = true) : let o := ((s.at t).slice i).scrub
    exec (.patrolScrub i e w t) s = .next (((s.at t).readWord i o e w).modSlice i (fun x =>
      { x with scrub := if 0xF0000000 ≤ o + 32 then 0 else o + 32, passes := if 0xF0000000 ≤ o + 32 then satAdd 32 x.passes 1 else x.passes })) := by
  refine congrArg Host.Outcome.next ((if_neg (by simp [h])).trans ?_)
  simp only [decide_eq_true_eq]

theorem exec_retrain {i temp : Nat} {ok : Bool} (h : (s.at t).subServes i = true)
    (hdue : ((s.at t).slice i).trainAt + 200000000 ≤ (s.at t).now) : let b := (s.at t).modSlice i (fun x => { x with temp := temp })
    exec (.retrain i temp ok t) s = .next (if ok then b.modSlice i (fun x =>
        { x with retrains := satAdd 32 x.retrains 1, trainAt := (s.at t).now, trainTemp := temp })
      else ((b.logDefect 3 5 i 0).reportUnit 0x0402 2 3 i none 0).loseSubchannel i) :=
  congrArg Host.Outcome.next ((if_neg (by simp [h])).trans (if_neg (by simp [hdue])))

/-! ### Background test (R278) -/

/-- What a store with optional values reads at `k` lies in it. -/
theorem mem_of_mget_some {α : Type} {m : SMap α} {k : Nat} {x : α} (h : mget dNone (m.map (fun e => (e.1, some e.2))) k = some x) :
    (k, x) ∈ m := by
  induction m with
  | nil => cases h
  | cons e r ih =>
    rw [List.map_cons, mget_cons] at h
    split at h
    · next hk =>
      obtain ⟨j, y⟩ := e
      cases h
      cases hk
      exact List.mem_cons_self
    · exact List.mem_cons_of_mem e (ih h)

theorem exec_bgtestRegion_passed {kind unit : Nat} : let a := s.at t
    let k := kind * 4096 + unit
    a.dget kBgtestEnable ≠ 0 → (∀ e ∈ a.mem.heldReg, e.1 = kind → e.2.1 ≠ unit) →
    (∀ x, (k, x) ∈ a.mem.bgAt → x + a.dget kBgtestInterval * 1000 ≤ a.now) → a.testable kind unit = true →
    exec (.bgtestRegion kind unit true t) s = .next ((a.modMem (fun m => { m with
      regions := mset dZero m.regions k ((mget dZero a.mem.regions k + 1) % testRegions kind), bgAt := mset dZero m.bgAt k a.now })).dadd64
      kBgtestRegions 1) := by
  intro a k hon hheld hdue htest
  have hfree : a.mem.heldReg.any (fun e => e.1 == kind && e.2.1 == unit) = false := by
    simpa only [List.any_eq_false, Bool.and_eq_true, beq_iff_eq, not_and] using hheld
  refine congrArg Host.Outcome.next (if_neg ?_)
  simp only [Bool.or_eq_true, not_or]
  refine ⟨⟨⟨by simpa using hon, ne_true_of_eq_false hfree⟩, ?_⟩, by simpa using htest⟩
  split
  · next x hx => simpa using hdue x (mem_of_mget_some hx)
  · exact Bool.false_ne_true

/-! ### FRAME_ALL (R265) and frame owners (R273) -/

/-- A partition's ledger without its records. -/
def noRecords (p : Part) : Part := { p with ledger := { p.ledger with recs := [] } }

/-- Memory as FRAME_ALL leaves it: the local areas stay, frames have free contents and no owner. -/
def framesCleared (free : Nat) (m : Mem) : Mem :=
  { m with
    lp := m.lp.filter (fun e => decide (localBase ≤ e.1)), lpFree := some free, owners := []
    poison := m.poison.filter (fun w => decide (localBase ≤ 32 * w)), poisonOff := [] }

/-- The state that FRAME_ALL leaves. -/
def State.framesSet (a : State) (v : Nat) : State :=
  ((((a.dset kFrameAll v).modMem (framesCleared a.clk.free)).each (List.range 8) (fun s n => s.modPart n noRecords)).modClk
    (fun c => { c with free := c.free + 1 }))

theorem State.doFrameAll_set {v : Nat} (h4 : 4 ≤ v) (hmax : v ≤ a.frameAllMax) (habs : ∀ n, n < 8 → (a.part n).state = .absent) :
    a.doFrameAll v = (stOk, a.framesSet v) := by
  have hany : (List.range 8).any (fun n => (a.part n).state != PartState.absent) = false := by
    simpa using habs
  unfold State.doFrameAll State.framesSet framesCleared noRecords
  rw [if_neg (by omega), if_neg (by simp [hany])]
  rfl

/-- An operation on each partition of a list changes no more than the partitions. -/
theorem each_modPart_only (f : Part → Part) (l : List Nat) (s : State) :
    s.each l (fun s n => s.modPart n f) = { s with parts := (s.each l (fun s n => s.modPart n f)).parts } := by
  induction l generalizing s with
  | nil => rfl
  | cons n r ih => exact (ih (s.modPart n f)).trans rfl

theorem State.framesSet_only (a : State) (v : Nat) : ∃ ps, a.framesSet v = { a.dset kFrameAll v with
    mem := framesCleared a.clk.free a.mem, clk := { a.clk with free := a.clk.free + 1 }, parts := ps } := by
  rw [State.framesSet, each_modPart_only]
  exact ⟨_, rfl⟩

/-- An operation on each partition of a list is done to each that stands in it once. -/
theorem part_each_modPart (f : Part → Part) {l : List Nat} (hl : l.Nodup) {n : Nat} (hn : n ∈ l) (s : State) :
    (s.each l (fun s n => s.modPart n f)).part n = f (s.part n) := by
  induction l generalizing s with
  | nil => cases hn
  | cons m r ih =>
    obtain ⟨hm, hr⟩ := List.nodup_cons.1 hl
    by_cases h : n = m
    · cases h
      exact (each_part (fun s k j hne => s.part_modPart_ne hne f) hm _).trans (s.part_modPart_self n f)
    · exact (ih hr ((List.mem_cons.1 hn).resolve_left h) _).trans (congrArg f (s.part_modPart_ne h f))

theorem State.framesSet_recs (a : State) (v : Nat) {n : Nat} (hn : n < 8) : ((a.framesSet v).part n).ledger.recs = [] := by
  have h := part_each_modPart noRecords List.nodup_range (List.mem_range.2 hn) ((a.dset kFrameAll v).modMem (framesCleared a.clk.free))
  rw [State.framesSet, State.part_modClk, h]
  rfl

/-- One byte of a write of FRAME_OWNER. -/
def State.ownFrame (new : Nat → Nat) (s : State) (f : Nat) : State := if new f = s.frameOwner f then s else s.setOwner f (new f)

theorem State.setOwner_frameOwner_ne {f g : Nat} (h : g ≠ f) (o : Nat) : (s.setOwner f o).frameOwner g = s.frameOwner g := by
  rw [State.frameOwner, State.frameOwner, State.setOwner, State.modMem]
  simp only [mget_mset_ne _ _ h]
  rfl

/-- A frame that software may give has the owner that it is given. -/
theorem State.setOwner_frameOwner_self {f : Nat} (hf : f < s.frameCount) (hsoft : softOwner (s.frameOwner f) = true) (o : Nat) :
    (s.setOwner f o).frameOwner f = o := by
  have hreserve : ¬ (s.frameAll ≤ f + 4 ∧ f < s.frameAll) := fun h => by
    rw [State.frameOwner, if_pos h] at hsoft
    exact absurd hsoft (by decide)
  have hall : (s.setOwner f o).frameAll = s.frameAll := rfl
  have hcount : (s.setOwner f o).frameCount = s.frameCount := rfl
  rw [State.frameOwner, hall, hcount, if_neg hreserve, if_neg (by omega)]
  exact mget_mset_self _ _ _ _

/-- From `s` to `u` only owners of frames have changed. -/
def OwnersOnly (s u : State) : Prop := u = s.modMem (fun m => { m with owners := u.mem.owners })

theorem State.ownersOnly_ownFrame (s : State) (new : Nat → Nat) (f : Nat) : OwnersOnly s (s.ownFrame new f) := by
  unfold State.ownFrame
  split <;> rfl
theorem OwnersOnly.trans {b u : State} (h : OwnersOnly a b) (k : OwnersOnly b u) : OwnersOnly a u := by
  unfold OwnersOnly at h k
  rw [k, h]
  rfl
theorem OwnersOnly.frameCount (h : OwnersOnly s a) : a.frameCount = s.frameCount := by
  rw [h]
  rfl

/-- Each frame of the list gets its owner, the others keep theirs, and nothing else changes. -/
theorem each_ownFrame {new : Nat → Nat} {l : List Nat} (hl : l.Nodup) (s : State)
    (hmay : ∀ f ∈ l, new f = s.frameOwner f ∨ (f < s.frameCount ∧ softOwner (s.frameOwner f) = true)) :
    OwnersOnly s (s.each l (State.ownFrame new)) ∧ (∀ f ∈ l, (s.each l (State.ownFrame new)).frameOwner f = new f) ∧
      ∀ g, g ∉ l → (s.each l (State.ownFrame new)).frameOwner g = s.frameOwner g := by
  induction l generalizing s with
  | nil => exact ⟨rfl, fun _ h => absurd h List.not_mem_nil, fun _ _ => rfl⟩
  | cons f r ih =>
    obtain ⟨hf, hr⟩ := List.nodup_cons.1 hl
    obtain ⟨hfirst, hrest⟩ := List.forall_mem_cons.1 hmay
    have honly := s.ownersOnly_ownFrame new f
    have hother : ∀ g, g ≠ f → (s.ownFrame new f).frameOwner g = s.frameOwner g := by
      intro g hg
      unfold State.ownFrame
      split
      · rfl
      · exact State.setOwner_frameOwner_ne hg _
    have hself : (s.ownFrame new f).frameOwner f = new f := by
      unfold State.ownFrame
      split
      · next h => exact h.symm
      · next h => exact State.setOwner_frameOwner_self (hfirst.resolve_left h).1 (hfirst.resolve_left h).2 _
    obtain ⟨hrOnly, hrIn, hrOut⟩ := ih hr (s.ownFrame new f) (fun g hg => by
      rw [hother g (ne_of_mem_of_not_mem hg hf), honly.frameCount]
      exact hrest g hg)
    refine ⟨honly.trans hrOnly, fun g hg => ?_, fun g hg => ?_⟩
    · rcases List.mem_cons.1 hg with rfl | hg
      · exact (hrOut g hf).trans hself
      · exact hrIn g hg
    · obtain ⟨hgf, hgr⟩ := not_or.1 (mt List.mem_cons.2 hg)
      exact (hrOut g hgr).trans (hother g hgf)

theorem State.doFrameOwner_set {data : Bytes} : let new := fun f => (data.getD f 0).toNat
    data.length = 236 →
    (∀ f, f < 236 → new f = a.frameOwner f ∨ (f < a.frameCount ∧ softOwner (a.frameOwner f) = true ∧ softOwner (new f) = true)) →
    a.doFrameOwner data = (stOk, a.each (List.range 236) (State.ownFrame new)) := by
  intro new hlen hmay
  have hall : (List.range 236).all (fun f => new f == a.frameOwner f ||
      (decide (f < a.frameCount) && softOwner (a.frameOwner f) && softOwner (new f))) = true := by
    simpa only [List.all_eq_true, List.mem_range, Bool.or_eq_true, Bool.and_eq_true, beq_iff_eq, decide_eq_true_eq, and_assoc] using hmay
  unfold State.doFrameOwner
  dsimp only
  rw [if_neg (not_not.2 hlen), if_pos hall]
  rfl

/-- A window register is written: the host sees the function, it has a BAR2, and the base is a multiple of the size (R274). -/
theorem not_ignored {seen : Bool} {f rest : Nat} (hs : seen = true) (hf : f ≤ 8) (hr : rest = 0) :
    ¬ ((!seen || decide (8 < f) || decide (rest ≠ 0)) = true) := by
  simp [hs, hf, hr]

/-- Settles O19, row by row. -/
theorem memoryUnitsAreServed : Obligations.MemoryUnitsAreServed := by
  unfold Obligations.MemoryUnitsAreServed
  refine ⟨fun s r kind t data => ?grants, fun s m unit addr t cured => rfl, fun s unit addr t => ?sliceData, fun s c addr t => rfl,
    fun s i off t x => ?uncorrectable, fun s i t e w => exec_patrolScrub, fun s i temp t => exec_retrain, fun s i temp t => exec_retrain,
    fun s kind unit t => exec_bgtestRegion_passed, fun s h => ?retention, fun s h => ?memoryLost, fun s r v t => ?frameAll,
    fun s r data t => ?frameOwner, fun s f w t => ?windowLow, fun s f w t => ?windowHigh, fun s r t => ?clearOne, fun s r t => ?clearAll⟩
  case grants =>
    intro a i n new hk h hlen hlisted hthere hmay
    exact congrArg Host.Outcome.next
      ((if_neg (by omega)).trans (State.typed_answers h (State.doGrantWrite_granted hlen hlisted hthere hmay)))
  case sliceData => exact fun h => congrArg Host.Outcome.next (State.sramError_word h)
  case uncorrectable => exact fun h hp hx => congrArg Host.Outcome.next ((if_pos h).trans (State.readWord_uncorrectable hp hx))
  case retention => exact fun hh hs => congrArg Host.Outcome.next ((if_neg (by omega)).trans (if_pos ⟨rfl, hs⟩))
  case memoryLost =>
    exact fun hh hs => congrArg Host.Outcome.next ((if_neg (by omega)).trans ((if_neg (by simp)).trans (if_pos ⟨rfl, hs⟩)))
  case frameAll =>
    intro a h h4 hmax habs
    have hdo := State.typed_answers (f := fun s => s.doFrameAll v) h (State.doFrameAll_set h4 hmax habs)
    have hrecs := fun n => a.framesSet_recs v (n := n)
    obtain ⟨ps, hset⟩ := a.framesSet_only v
    obtain ⟨honly, hdget⟩ := (a.framesSet v).answerOnly_answer r kFrameAll stOk
    generalize (a.framesSet v).answer r kFrameAll stOk = u at hdo honly hdget
    rw [hset] at honly
    refine ⟨u, congrArg Host.Outcome.next hdo, ?_, ?_, ?_, fun k hk hreq => ?_, fun n hn => ?_, ?_⟩
    · rw [hdget _ (by decide), hset]
      exact State.dget_dset_self _ _ _
    · rw [honly]
      rfl
    · rw [honly]
    · rw [hdget k hreq, hset]
      exact State.dget_dset_ne _ hk _
    · rw [honly, State.part, ← hrecs n hn, hset]
      rfl
    · rw [honly]
      rfl
  case frameOwner =>
    intro a new h hlen hmay
    have hdo := State.typed_answers (f := fun s => s.doFrameOwner data) h (State.doFrameOwner_set hlen hmay)
    obtain ⟨honly, hin, -⟩ := each_ownFrame (List.nodup_range (n := 236)) a
      (fun f hf => (hmay f (List.mem_range.1 hf)).imp_right fun hs => ⟨hs.1, hs.2.1⟩)
    refine ⟨_, congrArg Host.Outcome.next hdo, fun f hf => ?_, fun x => ?_, fun k hk => ?_, ?_⟩
    · rw [State.frameOwner_answer]
      exact hin f (List.mem_range.2 hf)
    · rw [State.answer_only, honly]
      rfl
    · rw [State.dget_answer hk, honly]
      rfl
    · rw [State.answer_only, honly]
      rfl
  case windowLow => exact fun hs hf hb => congrArg Host.Outcome.next (if_neg (not_ignored hs hf hb))
  case windowHigh => exact fun hs hf hb => congrArg Host.Outcome.next (if_neg (not_ignored hs hf hb))
  case clearOne => exact fun h => congrArg Host.Outcome.next (State.typed_answers h rfl)
  case clearAll => exact fun h => congrArg Host.Outcome.next (State.typed_answers h rfl)

end Sys2Proof.Machine
end

section
/-!
PROOFS of the statement on resets (spec 14): the operations on queues and sync objects, by which a reset clears an endpoint, leave the
floor plan (O30).
-/

namespace Sys2Proof.Machine

variable {s v : State}

/-! ### The floor plan beside queues and sync objects (chapter 9) -/

theorem foldl_keeps {α β : Type} {π : State → β} {f : State → α → State} (hf : ∀ s x, π (f s x) = π s) (l : List α) (s : State) :
    π (l.foldl f s) = π s := by
  induction l generalizing s with
  | nil => rfl
  | cons x r ih => exact (ih (f s x)).trans (hf s x)
theorem foldl_floor {α : Type} {f : State → α → State} (hf : ∀ s x, (f s x).floor = s.floor) (l : List α) (s : State) :
    (l.foldl f s).floor = s.floor := foldl_keeps (π := State.floor) hf l s

@[simp] theorem State.emergency_floor (s : State) (ecode sev n detail : Nat) : (s.emergency ecode sev n detail).floor = s.floor := by
  rw [(s.warned_emergency ecode sev n detail).only]
@[simp] theorem State.report_floor (s : State) (r : FaultReport) : (s.report r).floor = s.floor := by
  rw [(s.report_reported r).only]
@[simp] theorem State.reportUnit_floor (s : State) (code sev kind unit : Nat) (n : Option Nat) (detail : Nat) :
    (s.reportUnit code sev kind unit n detail).floor = s.floor := State.report_floor _ _
@[simp] theorem State.raiseCause_floor (s : State) (f b : Nat) : (s.raiseCause f b).floor = s.floor := by
  rw [(s.warned_raiseCause f b).only]
@[simp] theorem State.sramError_floor (s : State) (w : Nat) : (s.sramError w).floor = s.floor := State.reportUnit_floor _ _ _ _ _ _ _
@[simp] theorem State.qadd_floor (s : State) (i k a : Nat) : (s.qadd i k a).floor = s.floor := rfl
@[simp] theorem State.qadd64_floor (s : State) (i k a : Nat) : (s.qadd64 i k a).floor = s.floor := rfl

@[simp] theorem State.notify_floor (s : State) (q : Nat) : (s.notify q).floor = s.floor := by
  refine foldl_floor (fun s f => foldl_floor (fun s k => ?_) _ s) _ s
  split
  · exact s.raiseCause_floor f (4 + k)
  · rfl
@[simp] theorem State.mramPut_floor (s : State) (a : Nat) (bs : Bytes) : (s.mramPut a bs).floor = s.floor := by
  refine foldl_floor ?_ _ s
  exact fun _ _ => rfl
@[simp] theorem State.spaceWrite_floor (s : State) (ep sp a : Nat) (bs : Bytes) : (s.spaceWrite ep sp a bs).floor = s.floor := by
  unfold State.spaceWrite
  split
  · rfl
  · split
    · rfl
    · split
      · exact s.mramPut_floor a bs
      · exact s.out_floor _
@[simp] theorem State.place_floor (s : State) (q : Nat) (rec : Bytes) : (s.place q rec).2.floor = s.floor := by
  unfold State.place
  extract_lets r p a b c
  have ha : a.floor = s.floor := by
    dsimp only [a]
    split
    · rfl
    · exact s.spaceWrite_floor _ _ _ _
  split
  · rfl
  · split
    · rfl
    · dsimp only [c, b]
      rw [State.notify_floor, State.qadd64_floor, State.modQueue_floor, State.spaceWrite_floor, ha]
@[simp] theorem State.loseCompletion_floor (s : State) (i q : Nat) : (s.loseCompletion i q).floor = s.floor := by
  unfold State.loseCompletion
  dsimp only
  split <;> rfl
@[simp] theorem State.complete_floor (s : State) (i q : Nat) (rec : Bytes) : (s.complete i q rec).floor = s.floor := by
  unfold State.complete
  extract_lets busy p
  have hp : p.2.floor = s.floor := by
    dsimp only [p]
    split
    · rfl
    · exact s.place_floor q rec
  split
  · exact s.loseCompletion_floor i q
  · split
    · exact hp
    · exact s.loseCompletion_floor i q
    · exact s.loseCompletion_floor i q
    · split
      · rfl
      · exact s.loseCompletion_floor i q
@[simp] theorem State.giveBack_floor (s : State) (h : OpHead) (status value : Nat) : (s.giveBack h status value).floor = s.floor := by
  unfold State.giveBack
  split
  · dsimp only
    split <;> rfl
  · exact s.out_floor _
@[simp] theorem State.finish_floor (s : State) (h : OpHead) (i op obj status value : Nat) (descs : Bytes) :
    (s.finish h i op obj status value descs).floor = s.floor := by
  unfold State.finish
  split
  · exact s.giveBack_floor h status value
  · rw [State.complete_floor, State.giveBack_floor]

/-! ### Waiting operations proceed (R245) -/

theorem State.receiveHead_floor {h : OpHead} {op q addr len : Nat} (hv : s.receiveHead h op q addr len = some v) : v.floor = s.floor := by
  unfold State.receiveHead State.land State.popHead at hv
  grind [State.finish_floor, State.reportUnit_floor, State.qadd_floor, State.modQueue_floor, State.sramError_floor, State.spaceWrite_floor]
theorem State.receiveFrom_floor {h : OpHead} {addr len : Nat} (hv : s.receiveFrom h addr len = some v) : v.floor = s.floor := by
  unfold State.receiveFrom at hv
  extract_lets i g at hv
  split at hv
  · cases hv
  · obtain ⟨w, hw, rfl⟩ := Option.map_eq_some_iff.1 hv
    have hfloor := State.receiveHead_floor hw
    split <;> exact hfloor
@[simp] theorem State.readRound_floor (s : State) (h : OpHead) (addr len : Nat) : (s.readRound h addr len).floor = s.floor := by
  unfold State.readRound State.land
  extract_lets q r i n c b bad a
  have ha : a.floor = s.floor := by
    dsimp only [a]
    split
    · exact s.spaceWrite_floor _ _ _ _
    · rw [State.spaceWrite_floor, State.spaceWrite_floor]
  split
  · exact s.finish_floor _ _ _ _ _ _ _
  · split
    · exact s.finish_floor _ _ _ _ _ _ _
    · split
      · rw [State.finish_floor, State.sramError_floor]
      · rw [State.finish_floor, State.modQueue_floor, ha]
/-- A wait that proceeds finishes, with its record placed or its sync object taken from, or it receives. -/
theorem State.proceed_floor {i : Nat} {before : List Waiter} {w : Waiter} (hv : s.proceed i before w = some v) : v.floor = s.floor := by
  unfold State.proceed at hv
  grind [State.finish_floor, State.place_floor, State.modSync_floor, State.receiveHead_floor, State.receiveFrom_floor, State.readRound_floor]
theorem State.proceedAny_floor {i : Nat} {before l : List Waiter} (hv : s.proceedAny i before l = some v) : v.floor = s.floor := by
  induction l generalizing before with
  | nil => cases hv
  | cons w r ih =>
    rw [State.proceedAny] at hv
    split at hv
    · next x hx =>
      cases hv
      exact (State.proceed_floor hx).trans (s.modSlice_floor i _)
    · exact ih hv
theorem State.settleN_floor (n : Nat) (s : State) : (State.settleN n s).floor = s.floor := by
  induction n generalizing s with
  | zero => rfl
  | succ n ih =>
    rw [State.settleN]
    split
    · next x hx =>
      obtain ⟨e, _, he⟩ := List.exists_of_findSome?_eq_some hx
      exact (ih x).trans (State.proceedAny_floor he)
    · rfl
@[simp] theorem State.settle_floor (s : State) : s.settle.floor = s.floor := State.settleN_floor _ s

/-! ### Queues and waits of an endpoint (R242, R397) -/

@[simp] theorem State.returnMsg_floor (s : State) (q : Nat) (e : Nat × Nat) : (s.returnMsg q e).floor = s.floor := by
  unfold State.returnMsg
  dsimp only
  split
  · rfl
  · rw [State.complete_floor, State.qadd64_floor]
@[simp] theorem State.returnAll_floor (s : State) (q : Nat) : (s.returnAll q).floor = s.floor :=
  foldl_floor (fun s e => s.returnMsg_floor q e) _ s
@[simp] theorem State.unbind_floor (s : State) (q : Nat) : (s.unbind q).floor = s.floor := by
  refine foldl_floor (fun s f => foldl_floor (fun s k => ?_) _ s) _ s
  split <;> rfl
@[simp] theorem State.dropQueue_floor (s : State) (q : Nat) : (s.dropQueue q).floor = s.floor := by
  rw [State.dropQueue, State.modQueue_floor, State.unbind_floor, State.returnAll_floor]
@[simp] theorem State.orphan_floor (s : State) (q : Nat) : (s.orphan q).floor = s.floor := by
  rw [State.orphan, State.modQueue_floor, State.unbind_floor]
@[simp] theorem State.abortAll_floor (s : State) (l : List (Nat × Waiter)) : (s.abortAll l).floor = s.floor :=
  foldl_floor (fun s _ => s.finish_floor _ _ _ _ _ _ _) l s
@[simp] theorem State.breakSync_floor (s : State) (j : Nat) : (s.breakSync j).floor = s.floor := by
  rw [State.breakSync, State.settle_floor, State.qadd_floor, State.modSync_floor]
@[simp] theorem State.abortWaits_floor (s : State) (ep : Nat) : (s.abortWaits ep).floor = s.floor := by
  unfold State.abortWaits
  extract_lets gone a b
  have ha : a.floor = s.floor := by
    refine foldl_floor ?_ _ s
    exact fun _ _ => rfl
  have hb : b.floor = s.floor := (a.abortAll_floor gone).trans ha
  refine (foldl_floor (fun s j => ?_) _ b).trans hb
  split
  · rfl
  · exact s.breakSync_floor j
theorem State.resetEndpoint_floor (s : State) (ep : Nat) : (s.resetEndpoint ep).floor = s.floor := by
  unfold State.resetEndpoint
  extract_lets a b c d
  have hb : b.floor = s.floor := (foldl_floor (fun s q => s.dropQueue_floor q) _ a).trans (s.abortWaits_floor ep)
  have hc : c.floor = b.floor := foldl_floor (fun s q => s.orphan_floor q) _ b
  have hd : d.floor = c.floor := by
    refine foldl_floor ?_ _ c
    exact fun _ _ => rfl
  rw [State.settle_floor, hd, hc, hb]

end Sys2Proof.Machine
end

section
/-!
PROOFS of the statement on resets (spec 14): core, cluster and partition resets (O30).
-/

namespace Sys2Proof.Machine

variable {s a u v : State} {r : Requester} {n t : Nat}

/-! ### Resets that begin, wait or are refused (R393, R394) -/

theorem State.orQueue_begins {scope unit : Nat} {fails : List Nat} {go : State → State} (h : a.liveResets = []) :
    a.orQueue scope unit fails go = (stOk, go a) := if_pos (by rw [h]; rfl)
theorem State.orQueue_waits {scope unit : Nat} {fails : List Nat} {go : State → State} (h : a.liveResets ≠ [])
    (hin : a.liveResets.all (a.contains scope unit) = true) : a.orQueue scope unit fails go =
      (stOk, a.modFloor (fun x => { x with queued := x.queued ++ [(scope, unit, fails)] })) :=
  (if_neg (by simp [h])).trans (if_pos hin)
/-- A core reset contains no other. -/
theorem State.orQueue_core_refused {c : Nat} {fails : List Nat} {go : State → State} (h : a.liveResets ≠ []) :
    a.orQueue 1 c fails go = (stState, a.dadd kResetsRefused 1) := by
  obtain ⟨x, l, hl⟩ := List.exists_cons_of_ne_nil h
  have hnone : a.liveResets.all (a.contains 1 c) = false := by
    rw [hl]
    rfl
  exact (if_neg (by simp [h])).trans (if_neg (ne_true_of_eq_false hnone))

theorem State.doCoreReset_accepted {c : Nat} {pass : Bool} (hc : a.corePresent c = true) (hr : running (a.coreP c) = false)
    (hon : a.cmpOn = true) : a.doCoreReset c pass = a.orQueue 1 c [] (fun s =>
      (((s.beginReset 1 c 1).resetCoreUnit c).dadd kResetsCore 1).testCore c pass) :=
  (if_neg (by simp [hc])).trans (if_neg (by simp [hr, hon]))
theorem State.clusterRuns_eq_false {cl : Nat} (h : ∀ n, a.partOf cl = some n → running (a.part n) = false) : a.clusterRuns cl = false := by
  unfold State.clusterRuns
  split
  · next n hn => exact h n hn
  · rfl
theorem State.doClusterReset_accepted {cl : Nat} {fails : List Nat} (hcl : cl < 128) (hc : a.clCores cl ≠ [])
    (hr : ∀ n, a.partOf cl = some n → running (a.part n) = false) (hon : a.cmpOn = true) :
    a.doClusterReset cl fails = a.orQueue 2 cl fails (fun s => s.clusterResetNow cl fails) :=
  (if_neg (by simp [hcl, hc])).trans (if_neg (by simp [State.clusterRuns_eq_false hr, hon]))
theorem State.doPartitionReset_accepted {fails : List Nat} (hn : n < 8) (hs : (a.part n).state ≠ .absent) (hon : a.cmpOn = true) :
    a.doPartitionReset n fails = a.orQueue 3 n fails (fun s => s.partitionResetNow n fails) :=
  (if_neg (by simp [hn, hs])).trans (if_neg (by simp [hon]))

/-! ### What a cluster reset clears (Table 14.6) -/

/-- A core after a reset: what Table 14.6 keeps. -/
def resetCore (k : Core) : Core := { mode := k.mode, cairn := k.cairn, catchUp := k.catchUp }

/-- From `s` to `u` cores and the memory of cores have changed, and of that not the neuron state. -/
structure CoresOnly (s u : State) : Prop where
  only : u = { s with cores := u.cores, cm := u.cm }
  neurons : u.cm.neurons = s.cm.neurons

theorem CoresOnly.trans (h : CoresOnly s u) (k : CoresOnly u v) : CoresOnly s v where
  only := by
    have := k.only
    rw [h.only] at this
    exact this
  neurons := k.neurons.trans h.neurons

theorem State.coresOnly_resetCoreUnit (s : State) (c : Nat) : CoresOnly s (s.resetCoreUnit c) := ⟨rfl, rfl⟩
theorem State.core_resetCoreUnit_self (s : State) (c : Nat) : (s.resetCoreUnit c).core c = resetCore (s.core c) :=
  State.core_modCore_self _ _ _
theorem State.core_resetCoreUnit_ne {c d : Nat} (h : d ≠ c) (s : State) : (s.resetCoreUnit c).core d = s.core d :=
  State.core_modCore_ne _ h _

theorem each_resetCoreUnit (l : List Nat) (s : State) : let u := s.each l State.resetCoreUnit
    CoresOnly s u ∧ (∀ c ∈ l, u.core c = resetCore (s.core c)) ∧ ∀ c, c ∉ l → u.core c = s.core c := by
  induction l generalizing s with
  | nil => exact ⟨⟨rfl, rfl⟩, fun _ h => absurd h List.not_mem_nil, fun _ _ => rfl⟩
  | cons d l ih =>
    obtain ⟨honly, hin, hout⟩ := ih (s.resetCoreUnit d)
    refine ⟨(s.coresOnly_resetCoreUnit d).trans honly, fun c hc => ?_, fun c hc => ?_⟩
    · have hreset : resetCore ((s.resetCoreUnit d).core c) = resetCore (s.core c) := by
        by_cases hd : c = d
        · rw [hd, State.core_resetCoreUnit_self]
          rfl
        · rw [State.core_resetCoreUnit_ne hd]
      by_cases hl : c ∈ l
      · exact (hin c hl).trans hreset
      · rw [(List.mem_cons.1 hc).resolve_right hl]
        rw [(List.mem_cons.1 hc).resolve_right hl] at hl
        exact (hout d hl).trans (s.core_resetCoreUnit_self d)
    · obtain ⟨hd, hl⟩ := not_or.1 (mt List.mem_cons.2 hc)
      exact (hout c hl).trans (State.core_resetCoreUnit_ne hd s)

/-- With every core passing its logic test, the test changes nothing. -/
theorem each_testCore_passed (l : List Nat) (s : State) : s.each l (fun s c => s.testCore c (!([] : List Nat).contains c)) = s := by
  induction l with
  | nil => rfl
  | cons c l ih => exact ih

/-- The state of a cluster reset before its counting. -/
theorem State.resetClusterUnit_passed (b : State) (cl : Nat) : b.resetClusterUnit cl [] =
    ((b.each (b.clCores cl) State.resetCoreUnit).modCluster cl (fun q => { journal := q.journal, jNext := q.jNext })).modFab
      (fun f => { f with recv := f.recv.filter (fun e => e.1 % 512 != cl) }) := by
  unfold State.resetClusterUnit
  exact each_testCore_passed _ _

/-- The cores of a cluster are a matter of the floor plan. -/
theorem State.clCores_congr {cl : Nat} (h : u.floor.slotMap = s.floor.slotMap) : u.clCores cl = s.clCores cl := by
  have hpresent : u.corePresent = s.corePresent := by
    funext c
    rw [State.corePresent, State.corePresent, State.slotOf, State.slotOf, h]
  rw [State.clCores, State.clCores, hpresent]

theorem State.resetEndpoint_clCores (a : State) (cl ms ep : Nat) : ((a.beginReset 2 cl ms).resetEndpoint ep).clCores cl = a.clCores cl :=
  State.clCores_congr (by rw [State.resetEndpoint_floor]; rfl)

/-- The units of cluster `cl`, reset in `b` and counted. -/
def State.clusterCleared (b : State) (cl : Nat) : State := (b.resetClusterUnit cl []).dadd kResetsCluster 1

/-- From `b` to `u` cluster `cl` with its cores has been reset (Table 14.6). -/
structure ClusterCleared (cl : Nat) (b u : State) : Prop where
  cluster : u.cluster cl = { journal := (b.cluster cl).journal, jNext := (b.cluster cl).jNext }
  cores : ∀ c ∈ b.clCores cl, u.core c = resetCore (b.core c)
  others : ∀ c, c ∉ b.clCores cl → u.core c = b.core c
  count : u.dget kResetsCluster = satAdd 32 (b.dget kResetsCluster) 1
  neurons : u.cm.neurons = b.cm.neurons
  recv : u.fab.recv = b.fab.recv.filter (fun e => e.1 % 512 != cl)
  only : u = { b with cores := u.cores, cm := u.cm, clusters := u.clusters, fab := u.fab, dict := u.dict, outbox := u.outbox }

theorem State.clusterCleared_spec (b : State) (cl : Nat) : ClusterCleared cl b (b.clusterCleared cl) := by
  obtain ⟨⟨honly, hneurons⟩, hin, hout⟩ := each_resetCoreUnit (b.clCores cl) b
  rw [State.clusterCleared, State.resetClusterUnit_passed]
  generalize b.each (b.clCores cl) State.resetCoreUnit = d at honly hneurons hin hout
  refine ⟨?_, hin, hout, ?_, hneurons, ?_, ?_⟩
  · rw [State.cluster_dadd, State.cluster_modFab, State.cluster_modCluster_self, State.cluster, honly]
    rfl
  · refine (State.dget_dadd_self _ _ _).trans ?_
    rw [honly]
    rfl
  · rw [honly]
    rfl
  · rw [honly]
    rfl

/-- The answer leaves what has been reset. -/
theorem ClusterCleared.answer {cl : Nat} {b : State} (h : ClusterCleared cl b u) (r : Requester) (k code : Nat) :
    ClusterCleared cl b (u.answer r k code) := by
  obtain ⟨hans, hdget⟩ := u.answerOnly_answer r k code
  generalize u.answer r k code = w at hans hdget
  have hcores : w.cores = u.cores := by rw [hans]
  have hcore : ∀ c, w.core c = u.core c := fun c => by rw [State.core, hcores, State.core]
  have hclusters : w.clusters = u.clusters := by rw [hans]
  have hcm : w.cm = u.cm := by rw [hans]
  have hfab : w.fab = u.fab := by rw [hans]
  refine ⟨?_, fun c hc => (hcore c).trans (h.cores c hc), fun c hc => (hcore c).trans (h.others c hc), (hdget _ (by decide)).trans h.count,
    ?_, ?_, ?_⟩
  · rw [State.cluster, hclusters]
    exact h.cluster
  · rw [hcm]
    exact h.neurons
  · rw [hfab]
    exact h.recv
  · rw [hcores, hcm, hclusters, hfab]
    have := hans
    rw [h.only] at this
    exact this

/-! ### A partition reset (R395) -/

/-- What a partition reset ends with a partition's loads: the loads, a swap that waits, and its stations. -/
def Part.work (p : Part) : List Loading × Bool × Nat := (p.loading, p.pendSwap, p.stations)

theorem Part.work_eq_iff {p : Part} {l : List Loading} {swap : Bool} {m : Nat} :
    p.work = (l, swap, m) ↔ p.loading = l ∧ p.pendSwap = swap ∧ p.stations = m := by
  simp only [Part.work, Prod.mk.injEq]
theorem modSlot_work (p : Part) (i : Nat) (f : Slot → Slot) : (modSlot p i f).work = p.work := by rw [modSlot_only]; rfl
theorem modSlot_snap (p : Part) (i : Nat) (f : Slot → Slot) : (modSlot p i f).snap = p.snap := by rw [modSlot_only]

theorem State.loadCore_parts (s : State) (sl : Slot) (c : Nat) : (s.loadCore sl c).parts = s.parts := by
  have hrecords : ∀ (s : State) (t : Tile), (s.loadRecords t c).parts = s.parts := by
    intro s t
    unfold State.loadRecords
    extract_lets a
    have ha : a.parts = s.parts := by
      refine each_keeps (π := State.parts) ?_ _ s
      exact fun s _ => s.modCm_parts _
    rw [← ha]
    refine each_keeps (π := State.parts) ?_ _ a
    exact fun s _ => s.modCm_parts _
  have hwords : ∀ (s : State) (t : Tile), (s.loadWords t c).parts = s.parts := by
    intro s t
    refine each_keeps (π := State.parts) ?_ _ s
    exact fun s _ => s.modCm_parts _
  have hresident : ∀ s : State, (s.enterResident sl c).1.parts = s.parts := by
    intro s
    unfold State.enterResident
    refine List.foldlRecOn (motive := fun p : State × Bool => p.1.parts = s.parts) _ _ rfl fun p hp x _ => ?_
    dsimp only
    split
    · exact hp
    · split <;> exact hp
  unfold State.loadCore
  split
  · rfl
  · next t => rw [hresident, State.modCore_parts, hwords, hrecords]
theorem State.tileWrite_parts (s : State) (t : Tile) (o : Nat) (bs : Bytes) : (s.tileWrite t o bs).parts = s.parts := by
  refine foldl_keeps (π := State.parts) (fun s j => ?_) _ s
  dsimp only
  split <;> rfl
theorem State.zeroTraces_parts (s : State) (t : Tile) : (s.zeroTraces t).parts = s.parts := by
  unfold State.zeroTraces
  extract_lets a b z
  have ha : a.parts = s.parts := each_keeps (π := State.parts) (fun s i => s.tileWrite_parts t _ _) _ s
  have hb : b.parts = a.parts := each_keeps (π := State.parts) (fun s i => s.tileWrite_parts t _ _) _ a
  rw [State.tileWrite_parts, State.tileWrite_parts, hb, ha]
theorem State.doStreamEnable_parts (s : State) (k v : Nat) : (s.doStreamEnable k v).2.parts = s.parts := by
  unfold State.doStreamEnable
  split
  · rfl
  · split
    · rfl
    · dsimp only
      split <;> rfl
theorem State.doGroupEnable_parts (s : State) (mask : Nat) : (s.doGroupEnable mask).2.parts = s.parts := by
  refine (each_keeps (π := State.parts) (fun s g => ?_) _ _).trans (s.dset_parts kGroupEnable _)
  grind [State.modGroup_parts]

/-- The status of a partition cleared: of what a partition works at only the snapshot changes. -/
theorem State.clearStatus_part (s : State) (n : Nat) :
    ((s.clearStatus n).part n).work = (s.part n).work ∧ ((s.clearStatus n).part n).snap = {} := by
  have hproj : ∀ (u : State) k, ((u.modProj n k (fun q => { q with last := 0, moved := false, told := true })).part n).work = (u.part n).work ∧
      ((u.modProj n k (fun q => { q with last := 0, moved := false, told := true })).part n).snap = (u.part n).snap := by
    intro u k
    rw [State.modProj, State.part_modPart_self]
    split
    · exact ⟨modSlot_work _ _ _, modSlot_snap _ _ _⟩
    · exact ⟨rfl, rfl⟩
  unfold State.clearStatus
  extract_lets a b
  have hb : (b.part n).work = (s.part n).work ∧ (b.part n).snap = {} := by
    dsimp only [b]
    rw [State.part_modPart_self]
    exact ⟨rfl, rfl⟩
  refine ⟨(each_keeps (π := fun u => (u.part n).work) (fun u k => (hproj u k).1) _ b).trans hb.1,
    (each_keeps (π := fun u => (u.part n).snap) (fun u k => (hproj u k).2) _ b).trans hb.2⟩

theorem State.part_congr (h : u.parts = s.parts) (n : Nat) : u.part n = s.part n := by rw [State.part, h, State.part]

theorem State.partitionResetNow_part (s : State) (n : Nat) (fails : List Nat) : let u := s.partitionResetNow n fails
    (u.part n).state = (if (u.part n).active.isSome then .ready else .created) ∧ (u.part n).work = ([], false, 0) ∧ (u.part n).snap = {} := by
  unfold State.partitionResetNow
  extract_lets _ _ _ _ _ _ _ _ idle sl loaded traced fresh off streams mine groups u
  have hidle : ∃ m, (idle.part n).work = ([], false, m) := by
    dsimp only [idle]
    rw [State.part_modPart_self]
    exact ⟨_, rfl⟩
  have htraced : traced.part n = idle.part n := by
    refine State.part_congr ((foldl_keeps (π := State.parts) (fun s t => s.zeroTraces_parts t) _ loaded).trans ?_) n
    exact each_keeps (π := State.parts) (fun s c => s.loadCore_parts sl c) _ idle
  clear_value traced
  have hfresh : (fresh.part n).work = (idle.part n).work := by
    dsimp only [fresh]
    rw [← htraced]
    split
    · rw [State.setSlot, State.part_modPart_self, modSlot_work]
    · rfl
  clear_value fresh
  have hoff : (off.part n).work = ([], false, 0) := by
    obtain ⟨m, hm⟩ := hidle
    obtain ⟨hloading, hswap, -⟩ := Part.work_eq_iff.1 (hfresh.trans hm)
    dsimp only [off]
    rw [State.part_modPart_self]
    exact Part.work_eq_iff.2 ⟨hloading, hswap, rfl⟩
  clear_value off
  have hgroups : (groups.part n).work = ([], false, 0) := by
    rw [State.part_congr (streams.doGroupEnable_parts _) n, State.part_congr (each_keeps (π := State.parts)
      (fun s k => s.doStreamEnable_parts k 0) _ off) n]
    exact hoff
  clear_value groups
  obtain ⟨hwork, hsnap⟩ := groups.clearStatus_part n
  have hu : u.part n = { (groups.clearStatus n).part n with
      state := if ((groups.clearStatus n).part n).active.isSome then .ready else .created } := by
    dsimp only [u]
    rw [State.part_dadd, State.part_modPart_self]
  clear_value u
  generalize (groups.clearStatus n).part n = p at hwork hsnap hu
  rw [hu]
  exact ⟨rfl, hwork.trans hgroups, hsnap⟩

end Sys2Proof.Machine
end

section
/-!
PROOFS of the statement on resets (spec 14): what bring-up leaves alone when no copy of the configuration store is to be restored (O30).
-/

namespace Sys2Proof.Machine

variable {s a u v : State}

/-- From `s` to `u` the part has come up with nothing to restore: what bring-up does not build is as it was, MRAM has lost no more than
patches outside the configuration store, and RESET_CAUSE stands. -/
structure Booting (s u : State) : Prop where
  only : u = { s with
    clk := u.clk, dict := u.dict, mem := u.mem, fab := u.fab, ports := u.ports, pins := u.pins, floor := u.floor, pow := u.pow, rel := u.rel
    sec := u.sec, outbox := u.outbox }
  mem : u.mem = { s.mem with patched := u.mem.patched }
  copy : u.currentCopy = s.currentCopy
  licences : s.mem.patched = [] → u.mem.patched = [] ∧ u.floor.licences = s.floor.licences
  cause : u.dget kResetCause = s.dget kResetCause

theorem Booting.refl (s : State) : Booting s s := ⟨rfl, rfl, rfl, fun h => ⟨h, rfl⟩, rfl⟩
theorem Booting.trans (h : Booting s u) (k : Booting u v) : Booting s v where
  only := by
    have := k.only
    rw [h.only] at this
    exact this
  mem := by
    have := k.mem
    rw [h.mem] at this
    exact this
  copy := k.copy.trans h.copy
  licences hs := by
    obtain ⟨hu, hlu⟩ := h.licences hs
    obtain ⟨hv, hlv⟩ := k.licences hu
    exact ⟨hv, hlv.trans hlu⟩
  cause := k.cause.trans h.cause

theorem Booting.ite {p : Prop} [Decidable p] {a b : State} (ha : Booting s a) (hb : Booting s b) : Booting s (if p then a else b) := by
  split <;> assumption
theorem Booting.ite_snd {α : Type} {p : Prop} [Decidable p] {a b : α × State} (ha : Booting s a.2) (hb : Booting s b.2) :
    Booting s (if p then a else b).2 := by
  split <;> assumption
theorem Booting.each {f : State → Nat → State} (hf : ∀ u x, Booting s u → Booting s (f u x)) (l : List Nat) (h : Booting s u) :
    Booting s (u.each l f) :=
  List.foldlRecOn (motive := fun u : State => Booting s u) l _ h fun u k x _ => hf u x k

/-! ### Its steps -/

/-- A change beside memory, the licences and the entries. -/
theorem Booting.aside (h : Booting s u) (hv : v = { u with
    clk := v.clk, fab := v.fab, ports := v.ports, pins := v.pins, floor := v.floor, pow := v.pow, rel := v.rel, sec := v.sec, outbox := v.outbox })
    (hl : v.floor.licences = u.floor.licences) : Booting s v := by
  have hmem : v.mem = u.mem := by rw [hv]
  have hdict : v.dict = u.dict := by rw [hv]
  refine h.trans ⟨?_, by rw [hmem], State.currentCopy_of_mem hmem, fun hp => ⟨hmem ▸ hp, hl⟩, by rw [State.dget, hdict, State.dget]⟩
  rw [hmem, hdict]
  exact hv
theorem Booting.dset (h : Booting s u) {k : Nat} (x : Nat) (hk : k ≠ kResetCause := by decide) : Booting s (u.dset k x) :=
  h.trans ⟨rfl, rfl, u.currentCopy_dset k x, fun hp => ⟨hp, rfl⟩, u.dget_dset_ne hk.symm x⟩
theorem Booting.dadd (h : Booting s u) {k : Nat} (x : Nat) (hk : k ≠ kResetCause := by decide) : Booting s (u.dadd k x) := h.dset _ hk
theorem Booting.modSec (h : Booting s u) (f : Sec → Sec) : Booting s (u.modSec f) := h.aside rfl rfl
theorem Booting.modClk (h : Booting s u) (f : Clock → Clock) : Booting s (u.modClk f) := h.aside rfl rfl
theorem Booting.modPins (h : Booting s u) (f : Pins → Pins) : Booting s (u.modPins f) := h.aside rfl rfl
theorem Booting.modPorts (h : Booting s u) (f : Ports → Ports) : Booting s (u.modPorts f) := h.aside rfl rfl
theorem Booting.modFab (h : Booting s u) (f : Fabric → Fabric) : Booting s (u.modFab f) := h.aside rfl rfl
theorem Booting.modRel (h : Booting s u) (f : Rel → Rel) : Booting s (u.modRel f) := h.aside rfl rfl
theorem Booting.modFloor (h : Booting s u) {f : Floor → Floor} (hf : (f u.floor).licences = u.floor.licences) :
    Booting s (u.modFloor f) := h.aside rfl hf
theorem Booting.modHalf (h : Booting s u) (x : Nat) (f : Half → Half) : Booting s (u.modHalf x f) := by
  unfold State.modHalf
  exact .ite (h.aside rfl rfl) (h.aside rfl rfl)

/-- Patches that lie outside the configuration store do not tell in its copies. -/
theorem State.currentCopy_overClear {x n : Nat} (h : x + n ≤ 0x10000 ∨ 0x100000 ≤ x) (s : State) :
    (s.overClear x n).currentCopy = s.currentCopy := by
  have hplace : ∀ i < 2, (s.overClear x n).storeCopy i = s.storeCopy i := by
    intro i hi
    have hout : ∀ y, placeBase i ≤ y → y < placeBase i + 0x78000 → ¬ (x ≤ y ∧ y < x + n) := by
      simp only [placeBase]
      omega
    refine State.storeCopy_congr hi rfl ?_ fun y hlo hhi => ?_
    · rw [State.overIn, State.overClear, State.modMem, State.overIn]
      simp only [mclear, List.any_filter]
      refine congrArg (fun p => s.mem.patched.any p) (funext fun e => Bool.eq_iff_iff.2 ?_)
      have := hout e.1
      simp only [Bool.and_eq_true, Bool.not_eq_true', Bool.and_eq_false_iff, decide_eq_true_eq, decide_eq_false_iff_not]
      omega
    · refine mget_filter_of_kept fun e he => ?_
      have := hout y hlo hhi
      simp only [Bool.not_eq_true', Bool.and_eq_false_iff, decide_eq_false_iff_not, he]
      omega
  exact State.currentCopy_congr (hplace 0 (by decide)) (hplace 1 (by decide))
theorem Booting.overClear (h : Booting s u) {x n : Nat} (hx : x + n ≤ 0x10000 ∨ 0x100000 ≤ x) : Booting s (u.overClear x n) := by
  refine h.trans ⟨rfl, rfl, State.currentCopy_overClear hx u, fun hp => ⟨?_, rfl⟩, rfl⟩
  rw [State.overClear, State.modMem, hp]
  rfl

/-! ### Reports of no partition (R426) -/

theorem Booting.updateFaultN (h : Booting s u) : Booting s u.updateFaultN := by
  unfold State.updateFaultN
  extract_lets act a low calm
  exact (h.dset _).modPins _
theorem Booting.emergency (h : Booting s u) (ecode sev n detail : Nat) : Booting s (u.emergency ecode sev n detail) := by
  have hw := u.warned_emergency ecode sev n detail
  have hmem : (u.emergency ecode sev n detail).mem = u.mem := by rw [hw.only]
  refine h.trans ⟨?_, by rw [hmem], State.currentCopy_of_mem hmem, fun hp => ⟨hmem ▸ hp, by rw [State.emergency_floor]⟩,
    hw.dget _ (by decide)⟩
  generalize u.emergency ecode sev n detail = v at hw
  rw [hw.only]
theorem Booting.report (h : Booting s u) {rep : FaultReport} (hrep : rep.partition = none) : Booting s (u.report rep) := by
  unfold State.report
  extract_lets seq sec used logged a b c d e f
  have hb : Booting s b := (h.dset _).modRel _
  have hc : Booting s c := .ite ((hb.overClear (.inr (by decide))).overClear (.inr (by omega))) hb
  have he : Booting s e := .updateFaultN (.ite hc (hc.dadd _))
  have hf : Booting s f := by
    dsimp only [f]
    rw [hrep]
    exact he
  exact .ite (h.modRel _) (.ite hf (.emergency (hf.dadd _) _ _ _ _))

/-! ### The boot ROM (R458) -/

theorem Booting.writeBoot (h : Booting s u) (m : Nat) : Booting s (u.writeBoot m) := by
  unfold State.writeBoot
  extract_lets seq
  split
  · exact (h.overClear (.inl (by decide))).modSec _
  · exact (h.overClear (.inl (by decide))).modSec _
theorem Booting.setBoot (h : Booting s u) (m : Nat) : Booting s (u.setBoot m) := .ite h (h.writeBoot m)
theorem Booting.copyB (h : Booting s u) : Booting s u.copyB := by
  unfold State.copyB
  exact (h.overClear (.inr (by decide))).modSec _
theorem Booting.bootDebug (h : Booting s u) : Booting s u.bootDebug := by
  unfold State.bootDebug
  extract_lets a
  have ha : Booting s a := .ite h (.modSec (.dset (.dset h _) _) _)
  exact (ha.modSec _).modClk _
theorem Booting.bootRom (h : Booting s u) : Booting s u.bootRom := by
  unfold State.bootRom
  extract_lets a m
  have ha : Booting s a := h.bootDebug
  split
  · exact (ha.setBoot 0).modSec _
  · extract_lets b w d e f
    have hb : Booting s b := (ha.dset _).setBoot _
    have he : Booting s e := .ite ((hb.modSec _).dset _) (hb.modSec _)
    exact .ite (he.modSec _).copyB (he.modSec _)
theorem Booting.loadRope (h : Booting s u) : Booting s u.loadRope := .ite h ((h.dset _).dset _)

/-! ### Reconciliation (R384 to R386) -/

theorem Booting.logDefect (h : Booting s u) (kind origin unit detail : Nat) : Booting s (u.logDefect kind origin unit detail) := by
  unfold State.logDefect
  refine .ite ?_ (h.dset _)
  have hclear : Booting s (u.overClear (0x100020 + 16 * u.floor.defects.length) 16) := h.overClear (.inr (by omega))
  exact (hclear.modFloor rfl).dset _
theorem Booting.judge (h : Booting s u) (f : BringupFacts) (x : UnitId) : Booting s (u.judge f x).2 :=
  .ite_snd h (.ite_snd h (.ite_snd (h.logDefect _ _ _ _) (.ite h (h.dset _))))
theorem Booting.judgeAll (h : Booting s u) (f : BringupFacts) : Booting s (u.judgeAll f).2 := by
  unfold State.judgeAll
  refine List.foldlRecOn (motive := fun p : List (UnitId × Nat) × State => Booting s p.2) _ _ h ?_
  exact fun _ k x _ => k.judge f x
/-- Assigning units leaves the licences. -/
theorem foldl_licences {α : Type} {g : Floor → α → Floor} (hg : ∀ f x, (g f x).licences = f.licences) (l : List α) (f : Floor) :
    (l.foldl g f).licences = f.licences :=
  List.foldlRecOn (motive := fun k : Floor => k.licences = f.licences) l _ rfl fun k hk x _ => (hg k x).trans hk
theorem assignCluster_licences (l : List (UnitId × Nat)) (f : Floor) (cl : Nat) : (assignCluster l f cl).licences = f.licences := rfl
theorem assignDie_licences (l : List (UnitId × Nat)) (f : Floor) (m : Nat) : (assignDie l f m).licences = f.licences := rfl
theorem Booting.reconcile (h : Booting s u) (f : BringupFacts) : Booting s (u.reconcile f) := by
  unfold State.reconcile
  extract_lets before q l a b c d links ends
  have ha : Booting s a := (h.judgeAll f).dset _
  have hb : Booting s b := ha.modFloor (foldl_licences (assignCluster_licences l) _ _)
  have hc : Booting s c := hb.modFloor (foldl_licences (assignDie_licences l) _ _)
  have hd : Booting s d := hc.modFloor rfl
  exact (hd.modFab _).dset _

/-! ### Steps 3 to 10 (R379) -/

theorem Booting.bringFail (h : Booting s u) (step : Nat) : Booting s (u.bringFail step) := .updateFaultN ((h.dset _).dset _)
theorem Booting.takeAddress (h : Booting s u) (x : Nat) : Booting s (u.takeAddress x) := .ite ((h.dset _).dset _) ((h.dset _).dset _)
theorem Booting.readdress (h : Booting s u) : Booting s u.readdress := .takeAddress ((h.dset _).modPorts _) _
theorem Booting.openDefects (h : Booting s u) : Booting s u.openDefects := by
  unfold State.openDefects
  extract_lets l b n
  have hl : Booting s (u.modFloor (fun f => { f with defects := l })) := h.modFloor rfl
  exact ((hl.overClear (.inr (by decide))).dset _).dset _
/-- With patches in MRAM, licences may be read from them. -/
theorem Booting.modFloor_of_patched (h : Booting s u) (hs : s.mem.patched ≠ []) (f : Floor → Floor) : Booting s (u.modFloor f) := by
  have hmem : (u.modFloor f).mem = u.mem := rfl
  refine ⟨?_, hmem ▸ h.mem, (State.currentCopy_of_mem hmem).trans h.copy, fun hp => absurd hp hs, h.cause⟩
  generalize hv : u.modFloor f = v
  have honly : v = { u with
      clk := v.clk, dict := v.dict, mem := v.mem, fab := v.fab, ports := v.ports, pins := v.pins, floor := v.floor, pow := v.pow, rel := v.rel
      sec := v.sec, outbox := v.outbox } := by
    rw [← hv]
    rfl
  rw [h.only] at honly
  exact honly
theorem Booting.loadLicences (h : Booting s u) : Booting s u.loadLicences := by
  unfold State.loadLicences
  by_cases hp : u.mem.patched = []
  · have hnone : (List.range 32).filter (fun k => u.overIn (0x400000 + 0x8000 * k) 0x8000) = [] := by
      rw [List.filter_eq_nil_iff]
      intro k _
      rw [State.overIn, hp]
      exact Bool.false_ne_true
    rw [hnone]
    exact h
  · exact h.trans (.each (fun w k hw => hw.modFloor_of_patched hp _) _ (.refl u))
theorem Booting.licenceEntries (h : Booting s u) : Booting s u.licenceEntries := ((h.dset _).dset _).dset _
theorem Booting.svnTick (h : Booting s u) : Booting s u.svnTick := .ite (h.modSec _) h
theorem Booting.confirmTrial (h : Booting s u) : Booting s u.confirmTrial := by
  unfold State.confirmTrial
  extract_lets a b
  have hb : Booting s b := (((h.writeBoot 2).copyB.writeBoot 0).dset _).dset _
  exact .ite (hb.modSec _).svnTick hb
theorem Booting.bootReady (h : Booting s u) (b : Boot) : Booting s (u.bootReady b) := by
  unfold State.bootReady
  extract_lets a d e f
  have hd : Booting s d := (((h.modFloor rfl).dset _).dset _).dset _
  have he : Booting s e := .ite (hd.dset _) hd
  have hf : Booting s f := (he.modPins _).updateFaultN
  exact .ite hf.confirmTrial hf
theorem Booting.bootEnd (h : Booting s u) : Booting s u.bootEnd := by
  unfold State.bootEnd
  split
  · exact .ite (h.bootReady _) h
  · exact h
theorem Booting.bringFirmware (h : Booting s u) (hs : s.currentCopy = none) (f : BringupFacts) (fallback : Bool) :
    Booting s (u.bringFirmware f fallback) := by
  unfold State.bringFirmware
  extract_lets a b d e
  have ha : Booting s a := h.openDefects.loadLicences.licenceEntries.readdress
  have hb : Booting s b := .each (fun u n k => k.dset _ (by simp only [kKeepState, kResetCause]; omega)) _ ha
  have hd : Booting s d := hb.reconcile f
  have he : e = d := by
    dsimp only [e]
    rw [State.restoreStore, hd.copy, hs]
  rw [he]
  clear_value e d
  exact .ite (hb.bringFail 3) (.ite (((hd.dset _).report rfl).bringFail 7) (.ite (hd.bringFail 9) (hd.modFloor rfl).bootEnd))

end Sys2Proof.Machine
end

section
/-!
PROOFS of the statement on resets (spec 14): device resets, PORST_N and bring-up, and the statement itself (O30).
-/

namespace Sys2Proof.Machine

variable {s a u : State} {r : Requester} {n t : Nat} {f : BringupFacts}

/-! ### A device reset (R396) and bring-up (R379) -/

theorem exec_deviceReset {cause : Nat} (hd : (s.reach t).dead = false) (hdue : (s.reach t).resetIsDue cause = true) :
    exec (.deviceReset cause f t) s = .next ((s.reach t).deviceReset cause f) :=
  congrArg Host.Outcome.next (if_neg (by simp [hd, hdue]))

theorem State.bringUp_eq (s : State) (cause : Nat) (f : BringupFacts) : let b := if s.ports.perst then s else s.dset kPcieState 1
    s.bringUp cause f = (
      let c := (b.dset kResetCause cause).loadRope.bootRom
      if c.sec.recovery then c.readdress.bringFail 2 else c.bringFirmware f (bootFallback b.bootMode c.sec.running)) := rfl
theorem exec_deviceReset_boots {cause : Nat} (hd : (s.reach t).dead = false) (hdue : (s.reach t).resetIsDue cause = true) :
    let b := ((s.reach t).restart true).setClocks
    let b := if b.ports.perst then b else b.dset kPcieState 1
    exec (.deviceReset cause f t) s = .next (
      let c := (b.dset kResetCause cause).loadRope.bootRom
      if c.sec.recovery then c.readdress.bringFail 2 else c.bringFirmware f (bootFallback b.bootMode c.sec.running)) := by
  rw [exec_deviceReset hd hdue, State.deviceReset, State.bringUp_eq]

/-- Is a device reset due to RESET_COMMAND, or to firmware (R393, R459)? -/
theorem State.resetIsDue_of_cause {cause : Nat} (h : (cause = causeCommand ∧ a.floor.resetDue = true) ∨
    (cause = causeFirmware ∧ (if a.sec.recovery then a.sec.resetDue else a.rel.mgmtUp) = true)) : a.resetIsDue cause = true := by
  rcases h with ⟨rfl, h⟩ | ⟨rfl, h⟩ <;> simp [State.resetIsDue, h]

/-- The part as bring-up finds it: the PCIe endpoint in Detect, unless PERST_N holds it (R381). -/
def State.detecting (s : State) : State := if s.ports.perst then s else s.dset kPcieState 1

theorem Booting.detecting (h : Booting s u) : Booting s u.detecting := .ite h (h.dset _)
theorem Booting.setClocks (h : Booting s u) : Booting s u.setClocks := .each (fun _ x k => k.modHalf x _) _ h

theorem State.bringUp_booting (cause : Nat) (hs : s.detecting.currentCopy = none) :
    Booting (s.detecting.dset kResetCause cause) (s.bringUp cause f) := by
  unfold State.bringUp
  extract_lets b m c
  have hc : Booting (s.detecting.dset kResetCause cause) c := (Booting.refl _).loadRope.bootRom
  have hcopy : (s.detecting.dset kResetCause cause).currentCopy = none := (State.currentCopy_dset _ _ _).trans hs
  exact .ite (hc.readdress.bringFail 2) (hc.bringFirmware hcopy f _)

/-- A reset leaves the configuration store. -/
theorem State.currentCopy_restart (a : State) (aon : Bool) : (a.restart aon).currentCopy = a.currentCopy := by
  have hplace : ∀ i < 2, (a.restart aon).storeCopy i = a.storeCopy i := fun i hi => State.storeCopy_congr hi rfl rfl fun _ _ _ => rfl
  exact State.currentCopy_congr (hplace 0 (by decide)) (hplace 1 (by decide))

/-- From a reset state, over RESET_CAUSE, to the end of bring-up. -/
theorem Booting.across {b : State} {cause : Nat} (h : Booting s b) (k : Booting (b.dset kResetCause cause) u) :
    u = { s with
      clk := u.clk, dict := u.dict, mem := u.mem, fab := u.fab, ports := u.ports, pins := u.pins, floor := u.floor, pow := u.pow, rel := u.rel
      sec := u.sec, outbox := u.outbox } ∧ u.mem = { s.mem with patched := u.mem.patched } ∧
    (s.mem.patched = [] → u.floor.licences = s.floor.licences) ∧ u.dget kResetCause = cause := by
  refine ⟨?_, ?_, fun hp => ?_, k.cause.trans (State.dget_dset_self _ _ _)⟩
  · have := k.only
    rw [h.only] at this
    exact this
  · have := k.mem
    rw [State.dset_mem, h.mem] at this
    exact this
  · obtain ⟨hb, hl⟩ := h.licences hp
    exact (k.licences hb).2.trans hl

theorem State.deviceReset_cleared (hcopy : a.currentCopy = none) : let u := a.deviceReset causeFirmware f
    u.mem = { mram := a.mem.mram, patched := u.mem.patched, store0 := a.mem.store0, store1 := a.mem.store1 } ∧
      u.keep = {} ∧ u.parts = [] ∧ u.cores = [] ∧ u.cm = {} ∧ u.queues = [] ∧ u.syncs = [] ∧
      u.streams = [] ∧ u.hauls = [] ∧ u.floor.fuses = a.floor.fuses ∧ (a.mem.patched = [] → u.floor.licences = a.floor.licences) ∧
      u.dget kResetCause = causeFirmware ∧ u.pending = a.pending := by
  have hev := State.deviceReset_ev causeFirmware f (Evolves.refl a)
  have hclocks : Booting (a.restart true) (a.restart true).setClocks.detecting := (Booting.refl _).setClocks.detecting
  have hup := State.bringUp_booting (f := f) causeFirmware (hclocks.copy.trans ((a.currentCopy_restart true).trans hcopy))
  obtain ⟨honly, hmem, hlic, hcause⟩ := hclocks.across hup
  rw [← State.deviceReset] at honly hmem hlic hcause
  intro u
  exact ⟨hmem, congrArg State.keep honly, congrArg State.parts honly, congrArg State.cores honly, congrArg State.cm honly,
    congrArg State.queues honly, congrArg State.syncs honly, congrArg State.streams honly, congrArg State.hauls honly, hev.fuses, hlic, hcause,
    hev.pending⟩

/-! ### PORST_N (R480) -/

theorem State.holdReset_free (hc : a.floor.cause = none) (ht : a.pow.tripped = false) : a.holdReset causePorst =
    (((a.restart false).modPins (fun p => { p with porst := true })).modFloor (fun x =>
      { x with cause := some causePorst })).modRel (fun r => { r with mgmtUp := false }) := by
  unfold State.holdReset
  rw [hc, ht]
  rfl

/-- Settles O30, reset by reset. -/
theorem resetsClearTheirScope : Obligations.ResetsClearTheirScope := by
  unfold Obligations.ResetsClearTheirScope
  refine ⟨fun s r c t => ?core, fun s r cl t => ?cluster, fun s r n t => ?partition, fun s r n t => ?waits, fun s r c t => ?refused,
    fun s cause t f => ?device, fun s t f => ?cleared, fun s ns t => ?porst, fun s ns t => ?glitch, fun s t f => ?bringup⟩
  case core =>
    intro a h hc hr hon hlive
    exact congrArg Host.Outcome.next (State.typed_answers (f := fun s => s.doCoreReset c true) h
      ((State.doCoreReset_accepted hc hr hon).trans (State.orQueue_begins hlive)))
  case cluster =>
    intro a h hcl hc hr hon hlive b
    have hdo := State.typed_answers (f := fun s => s.doClusterReset cl []) h
      ((State.doClusterReset_accepted hcl hc hr hon).trans (State.orQueue_begins hlive))
    have hcores : b.clCores cl = a.clCores cl := a.resetEndpoint_clCores cl 5 (0x80 + cl)
    have hnow : a.clusterResetNow cl [] = b.clusterCleared cl := rfl
    rw [hnow] at hdo
    clear_value b
    refine ⟨_, congrArg Host.Outcome.next hdo, ?_⟩
    obtain ⟨hcluster, hin, hout, hcount, hneurons, hrecv, honly⟩ := (b.clusterCleared_spec cl).answer r kResetCommand stOk
    rw [← hcores]
    exact ⟨hcluster, hin, hout, hcount, hneurons, hrecv, honly⟩
  case partition =>
    intro a h hn hs hon hlive
    have hdo := State.typed_answers (f := fun s => s.doPartitionReset n []) h
      ((State.doPartitionReset_accepted hn hs hon).trans (State.orQueue_begins hlive))
    obtain ⟨hstate, hwork, hsnap⟩ := a.partitionResetNow_part n []
    obtain ⟨hloading, hswap, hstations⟩ := Part.work_eq_iff.1 hwork
    refine ⟨_, congrArg Host.Outcome.next hdo, ?_⟩
    rw [State.part_answer]
    exact ⟨hstate, hloading, hswap, hstations, hsnap⟩
  case waits =>
    intro a h hn hs hon hlive hin
    exact congrArg Host.Outcome.next (State.typed_answers (f := fun s => s.doPartitionReset n []) h
      ((State.doPartitionReset_accepted hn hs hon).trans (State.orQueue_waits hlive hin)))
  case refused =>
    intro a h hc hr hon hlive
    exact congrArg Host.Outcome.next (State.typed_answers (f := fun s => s.doCoreReset c true) h
      ((State.doCoreReset_accepted hc hr hon).trans (State.orQueue_core_refused hlive)))
  case device =>
    exact fun hd hdue => exec_deviceReset_boots hd (State.resetIsDue_of_cause hdue)
  case cleared => exact fun hd hdue hcopy => ⟨_, exec_deviceReset hd (State.resetIsDue_of_cause (.inr ⟨rfl, hdue⟩)), State.deviceReset_cleared hcopy⟩
  case porst =>
    intro a hns hc ht
    exact congrArg Host.Outcome.next ((if_neg (by omega)).trans ((if_pos hns).trans (State.holdReset_free hc ht)))
  case glitch => exact fun hns => congrArg Host.Outcome.next (if_pos hns)
  case bringup =>
    intro a b hp
    have hpin : ¬ (!a.pins.porst) = true := by simp [hp]
    exact congrArg Host.Outcome.next ((if_neg hpin).trans (State.bringUp_eq b _ _))

end Sys2Proof.Machine
end
